-- ==== Sys2Proof/Word.lean ====
section
/-! DEFINITION. The machine words of the device and their plainest arithmetic: bytes, 32-bit words, the 40-bit
accumulators of the engines, and fields cut out of numbers (R7, 00_scope: bit 0 is the least significant). -/

namespace Sys2Proof

abbrev Byte := BitVec 8

abbrev Half := BitVec 16

abbrev Word := BitVec 32

abbrev Acc40 := BitVec 40

/-- The field of `w` bits of `v` whose lowest bit is bit `lo`. -/
def bitsOf (v lo w : Nat) : Nat := v / 2 ^ lo % 2 ^ w

/-- Bit `i` of `v`. -/
def bitOf (v i : Nat) : Bool := v / 2 ^ i % 2 == 1

/-- The number a bit stands for. -/
def bitVal (b : Bool) : Nat := if b then 1 else 0

/-- `v` with the field of `w` bits at `lo` replaced by `x`. -/
def putBits (v lo w x : Nat) : Nat :=
  v - bitsOf v lo w * 2 ^ lo + (x % 2 ^ w) * 2 ^ lo

/-- A count that stops at `top` (the saturating counters of the manual). -/
def satAdd (v n top : Nat) : Nat := min (v + n) top

/-- The signed value of the low `w` bits of `v` in two's complement. -/
def signedOf (v w : Nat) : Int :=
  if v % 2 ^ w < 2 ^ (w - 1) then ((v % 2 ^ w : Nat) : Int) else ((v % 2 ^ w : Nat) : Int) - (2 ^ w : Nat)

/-- The `w`-bit two's complement pattern of an integer. -/
def patternOf (x : Int) (w : Nat) : Nat := (x % (2 ^ w : Nat)).toNat

end Sys2Proof
end

