-- ==== Sys2Proof/Syntax.lean ====
section
/-! DEFINITION. The commands the outside world gives the block: one constructor of `Instr` per row of
spec/opcode_table.json, in the table's order, with the row's operands. The table gives no operands; they are read
from the rule each row names. What the outside world answers (a measured value, the bytes of a host read, the result
of a search on the line) is an operand too, since it comes from outside the block. -/

namespace Sys2Proof

abbrev LaneNo := Fin 64
abbrev CourseNo := Fin 8
abbrev QuadNo := Fin 4
abbrev HostLaneNo := Fin 128
abbrev EngineNo := Fin 96
abbrev RingNo := Fin 4096
abbrev FnNo := Fin 64
abbrev BiasNo := Fin 64
abbrev SensorNo := Fin 24
abbrev SourceNo := Fin 608
abbrev ScNo := Fin 2
abbrev GReg := Fin 16
abbrev AccNo := Fin 4

/-- The fields of a submission entry after its opcode (R322, 12_command_set): `ops` is bytes 16 to 63, byte 16 in
its lowest eight bits. -/
structure Entry where
  flags : BitVec 8
  cls : BitVec 8
  target : BitVec 32
  tag : BitVec 64
  ops : BitVec 384
  deriving DecidableEq, Repr

/-- A submission entry as it stands in host memory, opcode included (R322). -/
structure SqEntry where
  op : BitVec 16
  e : Entry
  deriving DecidableEq, Repr

/-- What host memory answers to a command's data transfers (R305, R325): the bytes of its data read in order, how
many bytes arrive before a failing transfer (`failAt`; none: nothing fails). -/
structure Dma where
  data : List Byte
  failAt : Option Nat
  deriving DecidableEq, Repr

/-- What the ring engine's read ahead of arbitration finds (R310): the entry at the SQ head of each ring that may
fetch, with whether its read succeeded (R305). -/
structure Peek where
  ring : RingNo
  ok : Bool
  q : SqEntry
  deriving DecidableEq, Repr

/-- A data row a capture has stored (R410): the first symbol's index, the number of samples, the row's flags, the
sample index of the trigger where it lies in this row, and the samples as encoded. -/
structure SwatchRow where
  sym : Nat
  count : Nat
  flags : Nat
  trig : Option Nat
  data : List Byte
  deriving DecidableEq, Repr

/-- What a capture stored: the ring index of its oldest row, and its data rows in ring order. -/
structure SwatchData where
  first : Nat
  rows : List SwatchRow
  deriving DecidableEq, Repr

/-- A bit error the arrays show at a read (R395): the hod word, and the failing data bit of a single error; none:
an uncorrectable word. -/
structure EccHit where
  word : Nat
  bit : Option Nat
  deriving DecidableEq, Repr

/-- A symbol the receive path has decided (R89): its level index and its path-metric margin. -/
structure RxSym where
  lev : Nat
  margin : Nat
  deriving DecidableEq, Repr

/-- What a tile has gathered when a survey period ends (R97 to R103): the mean of e² in 2^-20 square amplitude units
and the sum of |H|²/S over the 64 bins in 1/1024; the other constellation's predicted SNR in 0.01 dB; the RMS phase
error in 1/1024 UI; the sum of the phase detector's output in 2^-20 UI and the symbols since it was last taken; both
latencies in 0.25 ns; the 95th percentile of |LLR| in 1/32
nat; FFE errors at the CTLE setting below, at and above the present one; target candidates with their predicted SNR
in 0.01 dB, and the taps (2^-21 units) matched to a new target or CTLE setting; each position's mean output in 1/1024
LSB and RMS, and the RMS of all. -/
structure SurveyIn where
  pe : Nat
  mfb : Nat
  other : Int
  phaseRms : Nat
  det : Int
  syms : Nat
  rxLat : Nat
  txLat : Nat
  p95 : Nat
  ctleErr : List Nat
  targets : List (Nat × Nat × Int)
  newTaps : List Int
  means : List Int
  rms : List Nat
  laneRms : Nat
  deriving DecidableEq, Repr

/-- What the measurement of a parameter gives (R122): pairs of results of two independent windows, one to four, in 1/16
of the parameter's resolution. A run lists one such measurement for each of its parameters, in the order of R121. -/
abbrev Meas := List (Int × Int)

/-- The blocks that passed an elastic buffer since the last report of it: `T_busy` of each in 1/1024 of a block period
(R196), oldest first. Buffer numbers are those of `SLACK.SRC`. -/
structure BufBlocks where
  buf : Fin 48
  busy : List Nat
  deriving DecidableEq, Repr

/-- What the far end's training has settled (R221 to R223): the seven transmit taps the switch ASIC asked for, and
precoding asked of the device's transmitter. -/
structure HostAns where
  taps : List Int
  precodeTx : Bool
  deriving DecidableEq, Repr

/-- A port that has a pattern generator and checker: a line lane (R153), a host lane (R226) or a Filkor lane (R268). -/
inductive PortRef where
  | line (n : LaneNo)
  | host (k : HostLaneNo)
  | filkor (i : Fin 8)
  deriving DecidableEq, Repr

/-- What a poll of the optical engine reads (R259): the pins, the module state, the module flags, and the flags of its
eight lanes. -/
structure CmisSeen where
  present : Bool
  int : Bool
  state : Fin 16
  modFlags : Nat
  laneFlags : List Nat
  deriving DecidableEq, Repr

/-- A slot of a lane's schedule (R168). -/
structure Slot where
  start : Nat := 0
  len : Nat := 0
  pre : Nat := 0
  tx : Bool := false
  src : Nat := 0
  slot : Nat := 0
  win : Nat := 0
  deriving DecidableEq, Repr

/-- A schedule bank of a course (R164, R168): the epoch parameters and the slots of each lane. -/
structure Bank where
  len : Nat := 0
  ofs : Nat := 0
  div : Nat := 1
  syncEn : Bool := false
  freeStart : Bool := false
  slots : List (Nat × List Slot) := []
  deriving DecidableEq, Repr

/-- A capability frame (R273): grade, silicon revision, TWIN_ROLE (codes of `ROLE_STRAP`), running version, the mirror
formats supported (highest, lowest), the round trip measured in 0.25 ns, and the courses the sender models as its own. -/
structure CapsFrame where
  grade : Nat
  rev : Nat
  role : Fin 3
  version : Nat
  mirrorHi : Nat
  mirrorLo : Nat
  rtt : Nat
  view : BitVec 8
  deriving DecidableEq, Repr

/-- The mirrored set of a course (R277, R281): its configuration fields by BAR0 bit address, those at their value after
cold reset left out; the transmit bank of each of its lanes; the schedule banks; the power state (0 C_OFF, 1 C_IDLE,
2 C_ON) and whether its pads are latched; for an even course the power state and latch of the quad half as numbered. -/
structure MirrorSet where
  course : CourseNo
  regs : List (Nat × Nat)
  firs : List (List Int)
  bank0 : Option Bank
  bank1 : Option Bank
  pow : Fin 3
  held : Bool
  quadOn : Bool
  quadHeld : Bool
  deriving DecidableEq, Repr

/-- A HEARTBEAT block (R263): count, courses owned, courses yielded, courses warm, twin state. -/
structure Heartbeat where
  count : BitVec 8
  own : BitVec 8
  yields : BitVec 8
  warm : BitVec 8
  state : Fin 5
  deriving DecidableEq, Repr

/-- The first failing cell a memory test found (R470): class, instance, word address, bit, slice. -/
structure BistFail where
  cls : Nat
  inst : Nat
  addr : Nat
  bit : Nat
  slice : Nat
  deriving DecidableEq, Repr

/-- How a test run ended by itself (R468 to R471): the final signature and the golden one of the running image (none:
the image carries no set for the partition), the first failing cell of the memory test, and the slices the scan
diagnosis confines a logic failure to, as lane and slice. -/
structure BistEnd where
  misr : BitVec 64
  golden : Option (BitVec 64)
  fail : Option BistFail
  diag : List (LaneNo × Fin 68)
  deriving DecidableEq, Repr

/-- The addressing fields of a load or store (R364, R368): address register, mode, immediate. -/
structure AddrMode where
  p : Fin 4
  mode : Fin 4
  imm : Half
  deriving DecidableEq, Repr

/-- A performance counter (R385): counter `i` of an engine, or datapath counter `i`. -/
inductive CounterRef where
  | eng (e : EngineNo) (i : Fin 4)
  | dp (i : Fin 32)
  deriving DecidableEq, Repr

/-- What a start finds outside the block (R448, R449, R519): the TWIN_ROLE strap (codes of `ROLE_STRAP`), the first 76
bytes of the two commit records, the bytes of the two image slots (none: a read error), the bank checkers that fail
their self-test (R406), the engines that fail their start test (R20), and what of MRAM fails its CRC: the field-repair
overlay (R403), seeds (R94) and retire maps (R120). -/
structure BootIn where
  strap : Fin 3
  rec0 : List Byte
  rec1 : List Byte
  imgA : Option (List Byte)
  imgB : Option (List Byte)
  chkFail : BitVec 8
  badEng : List EngineNo
  badOverlay : Bool := false
  badSeeds : List LaneNo := []
  badMaps : List LaneNo := []
  deriving DecidableEq, Repr

/-- The FFE outputs at the picot symbols of bit 1 and of bit 0 (how many, and their sums) with the sum of their squares,
and the first preamble symbol minus START in ticks (R174, R188). -/
structure SdIn where
  n1 : Nat
  n0 : Nat
  s1 : Int
  s0 : Int
  sq : Nat
  arrival : Int
  deriving DecidableEq, Repr

/-- A candidate for an APB (R41): the bit of the decided symbols at which it begins, and whether it lies 278,784 bits after
the last candidate. -/
structure ApbAt where
  ofs : Nat
  expected : Bool
  deriving DecidableEq, Repr

/-- What stands on the ball of a bias channel (R238): its voltage in µV, and the load current it delivers in nA, negative
where the channel sinks. -/
structure Ball where
  volt : Nat
  load : Int
  deriving DecidableEq, Repr

/-- A ball of channel `b`, with VBIAS in µV, over a time without a break of `held` µs (R238). -/
structure BallHeld where
  b : BiasNo
  vbias : Nat
  ball : Ball
  held : Nat
  deriving DecidableEq, Repr

/-- The bits host lanes H(2n) and H(2n+1) have brought since the last transmit block boundary of lane n (R48, R134). -/
structure HostBits where
  a : List Bool
  b : List Bool
  deriving DecidableEq, Repr

/-- Where the markers of a host stream stand (R49): by how many RS symbols stream B lags A when both have lock, and the bits
to the stream's next RS symbol boundary. -/
structure MarkerAt where
  skew : Int
  ofs : Fin 10
  deriving DecidableEq, Repr

/-- The measurements of a CAL step (R111, R121): the slice's six parameters, and the 128 of a group P that ran inside it. -/
structure CalStep where
  ms : List Meas
  pm : List Meas
  deriving DecidableEq, Repr

/-- FFE outputs up to one symbol after a picot peak that lies `since` symbols after the onset (R173). -/
structure PeakIn where
  r : List Int
  since : Nat
  deriving DecidableEq, Repr

/-- A lane's FFE outputs over the latest primary peak and over a peak of the second correlator (R179). -/
structure RestartIn where
  n : LaneNo
  prim : List Int
  sec : List Int
  deriving DecidableEq, Repr

/-- A lane's levels over 16 symbols each in 2^-16 of full scale, and the FFE outputs of 64 symbols with whether they lie in
a BMB or the ED (R180). -/
structure TriggerIn where
  n : LaneNo
  rms : List Nat
  r : List Int
  mark : Bool
  deriving DecidableEq, Repr

/-- A lane's levels, in mV, at the latest payload symbols (R181). -/
structure LevelsIn where
  n : LaneNo
  levels : List Nat
  deriving DecidableEq, Repr

/-- The first calibration of a lane (R126): whether the CRC of its retire map is right (R120), the measurements of the 68
slices (eight parameters each), and those of groups A, P, D, C and T. -/
structure FirstCal where
  mapOk : Bool
  slices : List (List Meas)
  groups : List (List Meas)
  deriving DecidableEq, Repr

/-- A TAP instruction (R475 to R477). -/
inductive TapIns where
  | bypass | samplePreload | idcode | extest | extestPulse | extestTrain | highz | privateTest
  deriving DecidableEq, Repr


/-- The commands of the block (spec/opcode_table.json). -/
inductive Instr where
  /-- `COLD_RESET` (R6). -/
  | coldReset
  /-- `WARM_RESET` (R6). -/
  | warmReset
  /-- `PERST_RELEASE` (R448). -/
  | perstRelease (b : BootIn)
  /-- `DEVICE_READY` (R448). -/
  | deviceReady
  /-- `SUPPLY_LOSS` (R509). -/
  | supplyLoss (keep : Bool)
  /-- `SUPPLY_RESTORED` (R509). -/
  | supplyRestored (b : BootIn)
  /-- `VBIAS_POWER_UP` (R233). -/
  | vbiasPowerUp
  /-- `VBIAS_LOSS` (R244). -/
  | vbiasLoss
  /-- `FUNCTION_LEVEL_RESET` (R297). -/
  | functionLevelReset (f : FnNo)
  /-- `D_KEEP_ENTRY` (R420). -/
  | dKeepEntry
  /-- `D_KEEP_EXIT` (R420). -/
  | dKeepExit (b : BootIn)
  /-- `VF_D3HOT` (R297). -/
  | vfD3hot (f : FnNo) (enter : Bool)
  /-- `PCIE_LINK_TRAINED` (R291). -/
  | pcieLinkTrained (speed : Nat) (width : Nat) (flit : Bool)
  /-- `REG_WRITE` (R9). -/
  | regWrite (f : FnNo) (a : Nat) (n : Nat) (v : Nat)
  /-- `REG_READ_CLEAR` (R9). -/
  | regReadClear (f : FnNo) (a : Nat) (n : Nat)
  /-- `REG_LO_READ` (R494). -/
  | regLoRead (f : FnNo) (a : Nat)
  /-- `OFF_DOMAIN_ACCESS` (R423). -/
  | offDomainAccess (f : FnNo) (a : Nat) (wr : Bool)
  /-- `RING_ENABLE` (R299). -/
  | ringEnable (f : FnNo) (r : RingNo) (v : Word)
  /-- `RING_DISABLE` (R299). -/
  | ringDisable (f : FnNo) (r : RingNo) (v : Word)
  /-- `RING_QUIESCED` (R299). -/
  | ringQuiesced (r : RingNo)
  /-- `RING_OWNER_WRITE` (R295). -/
  | ringOwnerWrite (f : FnNo) (r : RingNo) (v : Word)
  /-- `SQ_TAIL_DOORBELL` (R302). -/
  | sqTailDoorbell (f : FnNo) (r : RingNo) (ofs : Nat) (width : Nat) (v : Word)
  /-- `CQ_HEAD_DOORBELL` (R302). -/
  | cqHeadDoorbell (f : FnNo) (r : RingNo) (ofs : Nat) (width : Nat) (v : Word)
  /-- `WORK_UNIT_SERVE` (R311). -/
  | workUnitServe (u : List Peek)
  /-- `EVENT_RECORD_WRITE` (R307). -/
  | eventRecordWrite
  /-- `COALESCE_TIMER_EXPIRY` (R309). -/
  | coalesceTimerExpiry (r : RingNo)
  /-- `MSIX_VECTOR_UNMASK` (R309). -/
  | msixVectorUnmask (f : FnNo) (v : Nat)
  /-- `EVT_MAP_WRITE` (R503). -/
  | evtMapWrite (f : FnNo) (src : SourceNo) (v : Word)
  /-- `SESSION_OPEN` (R317). -/
  | sessionOpen (r : RingNo) (e : Entry) (d : Dma)
  /-- `LOCKOUT_EXPIRY` (R319). -/
  | lockoutExpiry (f : FnNo)
  /-- `NONCE_EXPIRY` (R317). -/
  | nonceExpiry (r : RingNo)
  /-- `SESSION_CLOSE` (R333). -/
  | sessionClose (r : RingNo) (e : Entry) (d : Dma)
  /-- `SESSION_IDLE_EXPIRY` (R320). -/
  | sessionIdleExpiry (r : RingNo)
  /-- `NOP` (R334). -/
  | nop (r : RingNo) (e : Entry) (d : Dma)
  /-- `LANE_CONFIG` (R335). -/
  | laneConfig (r : RingNo) (e : Entry) (d : Dma)
  /-- `LANE_STATE` (R336). -/
  | laneState (r : RingNo) (e : Entry) (d : Dma)
  /-- `LANE_FIR` (R337). -/
  | laneFir (r : RingNo) (e : Entry) (d : Dma)
  /-- `CFG_WRITE` (R338). -/
  | cfgWrite (r : RingNo) (e : Entry) (d : Dma)
  /-- `SCHED_WRITE` (R340). -/
  | schedWrite (r : RingNo) (e : Entry) (d : Dma)
  /-- `POWER_SET` (R341). -/
  | powerSet (r : RingNo) (e : Entry) (d : Dma)
  /-- `POWER_TRANSITION_END` (R416). -/
  | powerTransitionEnd (pll : Bool) (cal : List FirstCal)
  /-- `PWR_GO` (R417). -/
  | pwrGo (f : FnNo) (v : Word)
  /-- `COURSE_OFF_IMMEDIATE` (R342). -/
  | courseOffImmediate (r : RingNo) (e : Entry) (d : Dma)
  /-- `PAD_RELEASE` (R343). -/
  | padRelease (r : RingNo) (e : Entry) (d : Dma)
  /-- `SNAPSHOT` (R344). -/
  | snapshot (r : RingNo) (e : Entry) (d : Dma)
  /-- `SURVEY_READ` (R345). -/
  | surveyRead (r : RingNo) (e : Entry) (d : Dma) (ecc : List EccHit)
  /-- `CAPTURE_START` (R346). -/
  | captureStart (r : RingNo) (e : Entry) (d : Dma)
  /-- `CAPTURE_TRIGGER` (R346). -/
  | captureTrigger (n : LaneNo) (sym : Nat)
  /-- `CAPTURE_COMPLETE` (R409). -/
  | captureComplete (n : LaneNo) (w : SwatchData)
  /-- `CAPTURE_TIMEOUT` (R346). -/
  | captureTimeout (n : LaneNo) (w : SwatchData)
  /-- `CAPTURE_DRAIN` (R347). -/
  | captureDrain (r : RingNo) (e : Entry) (d : Dma) (ecc : List EccHit)
  /-- `CAPTURE_FREE` (R347). -/
  | captureFree (r : RingNo) (e : Entry) (d : Dma)
  /-- `HOD_FILL` (R348). -/
  | hodFill (r : RingNo) (e : Entry) (d : Dma)
  /-- `HOD_WRITE` (R348). -/
  | hodWrite (r : RingNo) (e : Entry) (d : Dma) (ecc : List EccHit)
  /-- `HOD_READ` (R349). -/
  | hodRead (r : RingNo) (e : Entry) (d : Dma) (ecc : List EccHit)
  /-- `SEED_SAVE` (R95). -/
  | seedSave (r : RingNo) (e : Entry) (d : Dma)
  /-- `SEED_ERASE` (R350). -/
  | seedErase (r : RingNo) (e : Entry) (d : Dma)
  /-- `RETIRE_MAP_CLEAR` (R120). -/
  | retireMapClear (r : RingNo) (e : Entry) (d : Dma)
  /-- `CALIBRATE` (R351). -/
  | calibrate (r : RingNo) (e : Entry) (d : Dma)
  /-- `FOREGROUND_CAL_DONE` (R127). -/
  | foregroundCalDone (n : LaneNo) (slices : List (List Meas)) (groups : List (List Meas))
  /-- `BIAS_SET` (R352). -/
  | biasSet (r : RingNo) (e : Entry) (d : Dma)
  /-- `QUENCH` (R353). -/
  | quench (r : RingNo) (e : Entry) (d : Dma)
  /-- `SC_INJECT` (R354). -/
  | scInject (r : RingNo) (e : Entry) (d : Dma)
  /-- `CMIS_READ` (R355). -/
  | cmisRead (r : RingNo) (e : Entry) (d : Dma)
  /-- `CMIS_WRITE` (R355). -/
  | cmisWrite (r : RingNo) (e : Entry) (d : Dma)
  /-- `UPDATE_STAGE` (R356). -/
  | updateStage (r : RingNo) (e : Entry) (d : Dma)
  /-- `IMAGE_VERIFY_DONE` (R447). -/
  | imageVerifyDone (ecc : List EccHit)
  /-- `UPDATE_ACTIVATE` (R457). -/
  | updateActivate (r : RingNo) (e : Entry) (d : Dma)
  /-- `ACTIVATION_COMPLETE` (R457). -/
  | activationComplete
  /-- `TRIAL_HEALTHY` (R459). -/
  | trialHealthy
  /-- `UPDATE_CONFIRM` (R357). -/
  | updateConfirm (r : RingNo) (e : Entry) (d : Dma)
  /-- `UPDATE_ABORT` (R357). -/
  | updateAbort (r : RingNo) (e : Entry) (d : Dma)
  /-- `CONFIRM_WINDOW_EXPIRY` (R460). -/
  | confirmWindowExpiry
  /-- `FALLBACK_END` (R460). -/
  | fallbackEnd
  /-- `UPDATE_COMMIT` (R462). -/
  | updateCommit (r : RingNo) (e : Entry) (d : Dma)
  /-- `COMMIT_RECORD_WRITTEN` (R462). -/
  | commitRecordWritten (good : Bool) (ecc : List EccHit)
  /-- `BOOT_TRIAL_HEALTHY` (R464). -/
  | bootTrialHealthy
  /-- `BOOT_TRIAL_WINDOW_EXPIRY` (R464). -/
  | bootTrialWindowExpiry
  /-- `NVM_WRITE_RETRY` (R464). -/
  | nvmWriteRetry
  /-- `TWIN_IMAGE_PUSH` (R455). -/
  | twinImagePush (f : FnNo) (accepted : Bool)
  /-- `TWIN_IMAGE_OFFER` (R455). -/
  | twinImageOffer (n : Nat)
  /-- `TWIN_IMAGE_RECEIVED` (R455). -/
  | twinImageReceived (data : List Byte)
  /-- `ATTEST` (R452). -/
  | attest (r : RingNo) (e : Entry) (d : Dma)
  /-- `IDENTITY_READ` (R451). -/
  | identityRead (r : RingNo) (e : Entry) (d : Dma)
  /-- `KEYSLOT_WRITE` (R359). -/
  | keyslotWrite (r : RingNo) (e : Entry) (d : Dma)
  /-- `KEYSLOT_ERASE` (R359). -/
  | keyslotErase (r : RingNo) (e : Entry) (d : Dma)
  /-- `BIST_RUN` (R360). -/
  | bistRun (r : RingNo) (e : Entry) (d : Dma)
  /-- `BIST_RUN_END` (R469). -/
  | bistRunEnd (code : Fin 128) (q : BistEnd)
  /-- `TWIN_HANDOVER` (R285). -/
  | twinHandover (r : RingNo) (e : Entry) (d : Dma)
  /-- `TWIN_TAKEOVER` (R285). -/
  | twinTakeover (r : RingNo) (e : Entry) (d : Dma)
  /-- `TAKEOVER_TIMEOUT` (R285). -/
  | takeoverTimeout (c : CourseNo)
  /-- `TWIN_LOG_QUERY` (R361). -/
  | twinLogQuery (r : RingNo) (e : Entry) (d : Dma) (ecc : List EccHit)
  /-- `PROGRAM_LOAD` (R379). -/
  | programLoad (r : RingNo) (e : Entry) (d : Dma)
  /-- `PROGRAM_CTRL` (R384). -/
  | programCtrl (r : RingNo) (e : Entry) (d : Dma)
  /-- `ENGINE_FAILURE` (R377). -/
  | engineFailure (e : EngineNo) (cause : Fin 5)
  /-- `ENGINE_SUBSTITUTED` (R17). -/
  | engineSubstituted (ecc : List EccHit)
  /-- `KEEP_CORE_FAULT` (R21). -/
  | keepCoreFault (k : Fin 7) (cause : Fin 4)
  /-- `FOREMAN_FAULT` (R22). -/
  | foremanFault (cause : Fin 4)
  /-- `FOREMAN_RESTART_DONE` (R22). -/
  | foremanRestartDone
  /-- `WATCHDOG_EXPIRY` (R377). -/
  | watchdogExpiry (e : EngineNo)
  /-- `ENGINE_INTERRUPT` (R371). -/
  | engineInterrupt (e : EngineNo)
  /-- `ENGINE_WAKE` (R373). -/
  | engineWake (e : EngineNo) (src : Fin 16) (level : Bool) (early : Bool)
  /-- `ADD` (R364). -/
  | engAdd (e : EngineNo) (rd : GReg) (rs : GReg) (rt : GReg)
  /-- `SUB` (R364). -/
  | engSub (e : EngineNo) (rd : GReg) (rs : GReg) (rt : GReg)
  /-- `AND` (R364). -/
  | engAnd (e : EngineNo) (rd : GReg) (rs : GReg) (rt : GReg)
  /-- `OR` (R364). -/
  | engOr (e : EngineNo) (rd : GReg) (rs : GReg) (rt : GReg)
  /-- `XOR` (R364). -/
  | engXor (e : EngineNo) (rd : GReg) (rs : GReg) (rt : GReg)
  /-- `SLL` (R364). -/
  | engSll (e : EngineNo) (rd : GReg) (rs : GReg) (rt : GReg)
  /-- `SRL` (R364). -/
  | engSrl (e : EngineNo) (rd : GReg) (rs : GReg) (rt : GReg)
  /-- `SRA` (R364). -/
  | engSra (e : EngineNo) (rd : GReg) (rs : GReg) (rt : GReg)
  /-- `MIN` (R364). -/
  | engMin (e : EngineNo) (rd : GReg) (rs : GReg) (rt : GReg)
  /-- `MAX` (R364). -/
  | engMax (e : EngineNo) (rd : GReg) (rs : GReg) (rt : GReg)
  /-- `SLT` (R364). -/
  | engSlt (e : EngineNo) (rd : GReg) (rs : GReg) (rt : GReg)
  /-- `SLTU` (R364). -/
  | engSltu (e : EngineNo) (rd : GReg) (rs : GReg) (rt : GReg)
  /-- `ADDS` (R364). -/
  | engAdds (e : EngineNo) (rd : GReg) (rs : GReg) (rt : GReg)
  /-- `SUBS` (R364). -/
  | engSubs (e : EngineNo) (rd : GReg) (rs : GReg) (rt : GReg)
  /-- `CLZ` (R364). -/
  | engClz (e : EngineNo) (rd : GReg) (rs : GReg)
  /-- `ABS` (R364). -/
  | engAbs (e : EngineNo) (rd : GReg) (rs : GReg)
  /-- `ADDI` (R364). -/
  | engAddi (e : EngineNo) (rd : GReg) (rs : GReg) (imm : Half)
  /-- `SLTI` (R364). -/
  | engSlti (e : EngineNo) (rd : GReg) (rs : GReg) (imm : Half)
  /-- `ANDI` (R364). -/
  | engAndi (e : EngineNo) (rd : GReg) (rs : GReg) (imm : Half)
  /-- `ORI` (R364). -/
  | engOri (e : EngineNo) (rd : GReg) (rs : GReg) (imm : Half)
  /-- `XORI` (R364). -/
  | engXori (e : EngineNo) (rd : GReg) (rs : GReg) (imm : Half)
  /-- `SLLI` (R364). -/
  | engSlli (e : EngineNo) (rd : GReg) (rs : GReg) (imm : Half)
  /-- `SRLI` (R364). -/
  | engSrli (e : EngineNo) (rd : GReg) (rs : GReg) (imm : Half)
  /-- `SRAI` (R364). -/
  | engSrai (e : EngineNo) (rd : GReg) (rs : GReg) (imm : Half)
  /-- `LUI` (R364). -/
  | engLui (e : EngineNo) (rd : GReg) (imm : Half)
  /-- `MUL` (R366). -/
  | engMul (e : EngineNo) (a : AccNo) (rs : GReg) (rt : GReg) (hs : Bool) (ht : Bool)
  /-- `MAC` (R366). -/
  | engMac (e : EngineNo) (a : AccNo) (rs : GReg) (rt : GReg) (hs : Bool) (ht : Bool)
  /-- `MSU` (R366). -/
  | engMsu (e : EngineNo) (a : AccNo) (rs : GReg) (rt : GReg) (hs : Bool) (ht : Bool)
  /-- `DMAC` (R366). -/
  | engDmac (e : EngineNo) (a : AccNo) (rs : GReg) (rt : GReg) (hs : Bool) (ht : Bool)
  /-- `DMACS` (R366). -/
  | engDmacs (e : EngineNo) (a : AccNo) (rs : GReg) (rt : GReg) (hs : Bool) (ht : Bool)
  /-- `EXT` (R367). -/
  | engExt (e : EngineNo) (rd : GReg) (a : AccNo) (sh : Fin 64)
  /-- `CLRA` (R367). -/
  | engClra (e : EngineNo) (a : AccNo)
  /-- `MOVA` (R367). -/
  | engMova (e : EngineNo) (a : AccNo) (rs : GReg)
  /-- `ADDA` (R367). -/
  | engAdda (e : EngineNo) (a : AccNo) (b : AccNo)
  /-- `ASRA` (R367). -/
  | engAsra (e : EngineNo) (a : AccNo) (sh : Fin 64)
  /-- `GRDA` (R367). -/
  | engGrda (e : EngineNo) (rd : GReg) (a : AccNo)
  /-- `LW` (R368). -/
  | engLw (e : EngineNo) (rd : GReg) (m : AddrMode) (busy : Bool) (ecc : Fin 3)
  /-- `LH` (R368). -/
  | engLh (e : EngineNo) (rd : GReg) (m : AddrMode) (busy : Bool) (ecc : Fin 3)
  /-- `LHU` (R368). -/
  | engLhu (e : EngineNo) (rd : GReg) (m : AddrMode) (busy : Bool) (ecc : Fin 3)
  /-- `SW` (R368). -/
  | engSw (e : EngineNo) (r : GReg) (m : AddrMode) (busy : Bool)
  /-- `SH` (R368). -/
  | engSh (e : EngineNo) (r : GReg) (m : AddrMode) (busy : Bool)
  /-- `SACW` (R367). -/
  | engSacw (e : EngineNo) (r : GReg) (m : AddrMode) (busy : Bool)
  /-- `SACH` (R367). -/
  | engSach (e : EngineNo) (r : GReg) (m : AddrMode) (busy : Bool)
  /-- `BRA` (R369). -/
  | engBra (e : EngineNo) (ofs : BitVec 20)
  /-- `BEQZ` (R369). -/
  | engBeqz (e : EngineNo) (rs : GReg) (ofs : BitVec 20)
  /-- `BNEZ` (R369). -/
  | engBnez (e : EngineNo) (rs : GReg) (ofs : BitVec 20)
  /-- `BLTZ` (R369). -/
  | engBltz (e : EngineNo) (rs : GReg) (ofs : BitVec 20)
  /-- `BGEZ` (R369). -/
  | engBgez (e : EngineNo) (rs : GReg) (ofs : BitVec 20)
  /-- `BAL` (R369). -/
  | engBal (e : EngineNo) (ofs : BitVec 20)
  /-- `JR` (R369). -/
  | engJr (e : EngineNo) (rs : GReg)
  /-- `REP` (R370). -/
  | engRep (e : EngineNo) (form : Bool) (rs : GReg) (cnt : BitVec 10)
  /-- `MFS` (R365). -/
  | engMfs (e : EngineNo) (rd : GReg) (num : Half)
  /-- `MTS` (R365). -/
  | engMts (e : EngineNo) (rs : GReg) (num : Half)
  /-- `WAIT` (R373). -/
  | engWait (e : EngineNo)
  /-- `SVC` (R383). -/
  | engSvc (e : EngineNo) (num : Half) (beats : Fin 401)
  /-- `RTI` (R371). -/
  | engRti (e : EngineNo)
  /-- `SYNC` (R364). -/
  | engSync (e : EngineNo)
  /-- `INSTR_NOP` (R364). -/
  | engNop (e : EngineNo)
  /-- `BUDGET_EXHAUSTED` (R381). -/
  | budgetExhausted (n : LaneNo)
  /-- `BUDGET_PERIOD` (R381). -/
  | budgetPeriod (n : LaneNo)
  /-- `STATE_BLOCK_WRITE` (R376). -/
  | stateBlockWrite (e : EngineNo) (data : List Byte)
  /-- `PMC_CLEAR` (R386). -/
  | pmcClear (p : CounterRef)
  /-- `DP_CLEAR` (R385). -/
  | dpClear
  /-- `LOS_ASSERT` (R80). -/
  | losAssert (n : LaneNo)
  /-- `LOS_CLEAR` (R80). -/
  | losClear (n : LaneNo)
  /-- `AGC_BLOCK_END` (R79). -/
  | agcBlockEnd (n : LaneNo) (rms : Nat)
  /-- `GRADIENT_BLOCK_END` (R84). -/
  | gradientBlockEnd (n : LaneNo) (g : List Int) (mse : Nat) (lev : List Int)
  /-- `CDR_LOCK` (R82). -/
  | cdrLock (n : LaneNo) (det : Int)
  /-- `CDR_LOCK_LOSS` (R76). -/
  | cdrLockLoss (n : LaneNo)
  /-- `ACQ_STEP_COMPLETE` (R69). -/
  | acqStepComplete (n : LaneNo) (xs : List Nat) (lev : List Int) (p95 : Nat)
  /-- `ACQ_RETRY` (R73). -/
  | acqRetry (n : LaneNo)
  /-- `APB_RECEIVED` (R41). -/
  | apbReceived (n : LaneNo) (syms : List RxSym) (at_ : ApbAt)
  /-- `FRAME_LOCK_LOSS` (R74). -/
  | frameLockLoss (n : LaneNo)
  /-- `FRAME_LOCK_TIMEOUT` (R74). -/
  | frameLockTimeout (n : LaneNo)
  /-- `CODEWORD_DECODE` (R45). -/
  | codewordDecode (n : LaneNo) (llr : List Int) (std : Option Nat)
  /-- `OCM_CODEWORD` (R61). -/
  | ocmCodeword (n : LaneNo) (errs : Nat)
  /-- `OCM_CLEAR` (R61). -/
  | ocmClear (n : LaneNo)
  /-- `OCM_FREEZE` (R61). -/
  | ocmFreeze (n : LaneNo) (on : Bool)
  /-- `SURVEY_END` (R102). -/
  | surveyEnd (n : LaneNo) (m : SurveyIn)
  /-- `CAL_STEP_DONE` (R111). -/
  | calStepDone (n : LaneNo) (m : CalStep)
  /-- `SHADOW_START` (R111). -/
  | shadowStart (n : LaneNo)
  /-- `SHADOW_COMPARE_DONE` (R112). -/
  | shadowCompareDone (n : LaneNo) (ms : List Meas) (win : List (Nat × Nat))
  /-- `CAL_GROUP_DONE` (R124). -/
  | calGroupDone (n : LaneNo) (ms : List Meas)
  /-- `BANDGAP_CHECK` (R130). -/
  | bandgapCheck (r0 : Nat) (r1 : Nat)
  /-- `BANDGAP_RELEASE` (R131). -/
  | bandgapRelease
  /-- `FIR_COMMIT` (R138). -/
  | firCommit (n : LaneNo)
  /-- `TX_FIR_STAGE_WRITE` (R137). -/
  | txFirStageWrite (n : LaneNo) (v : Word)
  /-- `MASK_WRITE` (R142). -/
  | maskWrite (n : LaneNo) (v : Fin 4)
  /-- `TX_OUTPUT_ENABLE` (R147). -/
  | txOutputEnable (n : LaneNo)
  /-- `PRBS_INJ_ONE` (R153). -/
  | prbsInjOne (p : PortRef)
  /-- `PRBS_ERR_CLEAR` (R154). -/
  | prbsErrClear (p : PortRef)
  /-- `CHECKER_LOCK` (R154). -/
  | checkerLock (p : PortRef) (count : Nat) (bits : Nat)
  /-- `EPOCH_SYNC_EDGE` (R165). -/
  | epochSyncEdge (t : Nat)
  /-- `EPOCH_BOUNDARY` (R164). -/
  | epochBoundary (c : CourseNo)
  /-- `SLOT_ARM` (R171). -/
  | slotArm (n : LaneNo) (i : Fin 64)
  /-- `BURST_ONSET` (R171). -/
  | burstOnset (n : LaneNo) (level : Nat)
  /-- `BURST_DETECT` (R173). -/
  | burstDetect (n : LaneNo) (m : PeakIn)
  /-- `SD_MATCH` (R174). -/
  | sdMatch (n : LaneNo) (peaks : List Int) (sd : List Int) (m : SdIn)
  /-- `FALSE_START` (R178). -/
  | falseStart (n : LaneNo) (at_ : Int)
  /-- `ACQ_RESTART` (R179). -/
  | acqRestart (m : RestartIn)
  /-- `BURST_POLICY_TRIGGER` (R180). -/
  | burstPolicyTrigger (m : TriggerIn)
  /-- `BURST_TRUNCATED` (R181). -/
  | burstTruncated (m : LevelsIn)
  /-- `ED_TEST` (R176). -/
  | edTest (n : LaneNo) (r : List Int) (g : List Int) (lev : List Int) (p95 : Nat)
  /-- `SLOT_MISSED` (R181). -/
  | slotMissed (n : LaneNo)
  /-- `TX_HEADER_RECEIVED` (R184). -/
  | txHeaderReceived (n : LaneNo) (block : Nat) (at_ : Int)
  /-- `TX_SLOT_START` (R183). -/
  | txSlotStart (n : LaneNo) (i : Fin 64)
  /-- `HOST_FRAMING_LOCK` (R185). -/
  | hostFramingLock (n : LaneNo) (words : List Nat)
  /-- `BLOCK_DROP` (R200). -/
  | blockDrop (c : CourseNo) (b : BufBlocks) (rate : Bool)
  /-- `SLACK_SURVEY` (R197). -/
  | slackSurvey (c : CourseNo) (bufs : List BufBlocks)
  /-- `AVS_ADVICE` (R207). -/
  | avsAdvice
  /-- `SLACK_MIN_CLR` (R213). -/
  | slackMinClr (f : FnNo) (c : CourseNo)
  /-- `HOST_TRAIN_READY` (R222). -/
  | hostTrainReady (k : HostLaneNo) (a : HostAns)
  /-- `HOST_TRAIN_TIMEOUT` (R222). -/
  | hostTrainTimeout (k : HostLaneNo)
  /-- `HOST_TRAIN_RESTART` (R222). -/
  | hostTrainRestart (k : HostLaneNo)
  /-- `SIG_LOCK_CHANGE` (R220). -/
  | sigLockChange (k : HostLaneNo) (pll : Bool) (los : Bool) (cdr : Bool)
  /-- `TX_EQ_WRITE` (R225). -/
  | txEqWrite (k : HostLaneNo) (v : Word)
  /-- `BIAS_CONNECT` (R233). -/
  | biasConnect (b : BiasNo)
  /-- `BIAS_RAMP_TICK` (R235). -/
  | biasRampTick (b : BiasNo) (vbias : Nat) (m : Ball)
  /-- `BIAS_PARK_STEP` (R236). -/
  | biasParkStep (b : BiasNo)
  /-- `BIAS_COMPLIANCE_DETECT` (R238). -/
  | biasComplianceDetect (m : BallHeld)
  /-- `BIAS_OPEN_DETECT` (R238). -/
  | biasOpenDetect (m : BallHeld)
  /-- `BIAS_FLAG_CLEAR` (R239). -/
  | biasFlagClear (b : BiasNo) (v : Word) (vbias : Nat) (m : Ball)
  /-- `REFERENCE_READY` (R248). -/
  | referenceReady (x : ScNo)
  /-- `SC_ROUND_END` (R249). -/
  | scRoundEnd (x : ScNo) (uv : List Nat)
  /-- `INJECT_TIMER` (R250). -/
  | injectTimer (x : ScNo)
  /-- `SYSTEM_INJECTION` (R251). -/
  | systemInjection (x : ScNo)
  /-- `INJECTED_RUN_END` (R252). -/
  | injectedRunEnd (x : ScNo) (uv : List Nat) (entry : Option Nat)
  /-- `CMIS_POLL` (R259). -/
  | cmisPoll (c : CourseNo) (m : CmisSeen)
  /-- `MOD_INT_ASSERT` (R259). -/
  | modIntAssert (c : CourseNo)
  /-- `CMIS_BUS_TIMEOUT` (R258). -/
  | cmisBusTimeout (c : CourseNo)
  /-- `FILKOR_DETECT_PROBE` (R265). -/
  | filkorDetectProbe (far : BitVec 8)
  /-- `FILKOR_BITLOCK` (R265). -/
  | filkorBitlock
  /-- `FILKOR_BLOCKLOCK` (R265). -/
  | filkorBlocklock (skew : List Nat)
  /-- `FILKOR_TRAIN_TIMEOUT` (R265). -/
  | filkorTrainTimeout
  /-- `BLOCK_LOCK_LOSS` (R266). -/
  | blockLockLoss (i : Fin 8) (hdr : Nat)
  /-- `FAR_TERMINATION_LOSS` (R265). -/
  | farTerminationLoss (i : Fin 8)
  /-- `FILKOR_RETRAIN` (R266). -/
  | filkorRetrain
  /-- `FL1_ENTRY` (R267). -/
  | fl1Entry
  /-- `FL2_ENTER` (R267). -/
  | fl2Enter
  /-- `FL2_EXIT` (R267). -/
  | fl2Exit
  /-- `CAPS_FRAME_RECEIVED` (R273). -/
  | capsFrameReceived (q : CapsFrame)
  /-- `PAIRING_TRANSFER_DONE` (R281). -/
  | pairingTransferDone (sets : List MirrorSet)
  /-- `HEARTBEAT_SEND` (R282). -/
  | heartbeatSend
  /-- `HEARTBEAT_RECEIVED` (R284). -/
  | heartbeatReceived (h : Heartbeat)
  /-- `TWIN_SILENCE` (R282). -/
  | twinSilence
  /-- `LEASE_EXPIRY` (R272). -/
  | leaseExpiry (c : CourseNo)
  /-- `TWIN_SENSE_CHANGE` (R270). -/
  | twinSenseChange (c : CourseNo) (level : Bool)
  /-- `SECONDARY_SOLO_RAISE` (R271). -/
  | secondarySoloRaise (c : CourseNo)
  /-- `SECONDARY_HOLD_TIMEOUT` (R481). -/
  | secondaryHoldTimeout
  /-- `TX_TIME_RECEIVED` (R276). -/
  | txTimeReceived (n : LaneNo) (fcount : Nat) (pos : Nat) (phase : Nat) (near : Bool)
  /-- `MIRROR_FRAME_RECEIVED` (R278). -/
  | mirrorFrameReceived (q : BitVec 24) (r : RingNo) (op : BitVec 16) (e : Entry) (d : Dma)
  /-- `MIRROR_ACK_RECEIVED` (R278). -/
  | mirrorAckReceived (q : BitVec 24) (st : BitVec 8)
  /-- `MIRROR_ACK_TIMEOUT` (R278). -/
  | mirrorAckTimeout
  /-- `PAIRING_WAIT_TIMEOUT` (R279). -/
  | pairingWaitTimeout (r : RingNo)
  /-- `SENSOR_SAMPLE` (R426). -/
  | sensorSample (t : SensorNo) (v : Int) (bad : Bool)
  /-- `STEP_WAIT_EXPIRY` (R432). -/
  | stepWaitExpiry (c : CourseNo)
  /-- `LADDER_REVERSE` (R435). -/
  | ladderReverse (f : FnNo) (v : Word)
  /-- `THRESH_WRITE` (R428). -/
  | threshWrite (f : FnNo) (v : Word)
  /-- `TRIP_RECORD_COPY` (R438). -/
  | tripRecordCopy
  /-- `RESET_HOLD_RELEASE` (R437). -/
  | resetHoldRelease (b : BootIn)
  /-- `SCRUB_READ` (R400). -/
  | scrubRead (word : Nat) (hit : Bool) (bit : Option Nat) (last : Bool)
  /-- `COURSE_PLL_FAILURE` (R283). -/
  | coursePllFailure (c : CourseNo)
  /-- `HOST_ALIGNMENT_MARKER_LOCK` (R49). -/
  | hostAlignmentMarkerLock (k : HostLaneNo) (lock : Bool) (at_ : MarkerAt)
  /-- `OCM_CODEWORD_LOCK` (R60). -/
  | ocmCodewordLock (n : LaneNo) (lock : Bool)
  /-- `TX_BLOCK_BOUNDARY` (R138). -/
  | txBlockBoundary (n : LaneNo) (m : HostBits)
  /-- `TX_UNDERRUN` (R184). -/
  | txUnderrun (n : LaneNo)
  /-- `RUNNING_MEAN_BELOW_CRIT` (R198). -/
  | runningMeanBelowCrit (c : CourseNo) (buf : Fin 48) (busy : List Nat)
  /-- `PULSE_LOST` (R210). -/
  | pulseLost (c : Option CourseNo)
  /-- `VF_ENABLE_WRITE` (R295). -/
  | vfEnableWrite (en : Bool)
  /-- `TAP_INSTRUCTION` (R477). -/
  | tapInstruction (i : TapIns)
  /-- `CMIS_ACCESS_DONE` (R355). -/
  | cmisAccessDone (c : CourseNo) (data : List Byte)
  /-- `ATTESTATION_SIGNED` (R452). -/
  | attestationSigned (r : RingNo)
  /-- `SWAP_BOUND_EXPIRY` (R460). -/
  | swapBoundExpiry
  /-- `PMC_COUNTER_WRAP` (R386). -/
  | pmcCounterWrap (p : CounterRef)
  deriving DecidableEq, Repr

end Sys2Proof
end

