-- ==== Sys2Proof/Config.lean ====
section
/-! DEFINITION. What the spec leaves open, as constants without a body: nothing can evaluate them, so a claim about
the model holds whatever they are. The cryptographic functions stand here too, by their names and lengths alone. -/

namespace Sys2Proof.Config

/-- The free values (notes/assumptions/2): each use takes the next number of the state's counter. -/
opaque freeNat : Nat → Nat

/-- The 48 bytes of a digest. -/
def digestBytes (v : BitVec 384) : List Byte := (List.range 48).map fun i => v.extractLsb' (8 * i) 8

/-- HMAC-SHA-384 over a message under a key (R317, 11_rings_and_sessions): the algorithm is the standard's. -/
opaque hmac : List Byte → List Byte → BitVec 384
def hmacSha384 (key msg : List Byte) : List Byte := digestBytes (hmac key msg)

/-- SHA-384 (R445, R446, 16_boot_security_update): the algorithm is the standard's. -/
opaque sha : List Byte → BitVec 384
def sha384 (msg : List Byte) : List Byte := digestBytes (sha msg)

/-- RSASSA-PSS with SHA-384 as R447 fixes it: modulus, exponent, message, signature. -/
opaque rsaPssVerify : List Byte → List Byte → List Byte → List Byte → Bool

/-- SLH-DSA-SHA2-192s verification (R447): public key, message, signature. -/
opaque slhDsaVerify : List Byte → List Byte → List Byte → Bool

/-- RSA-OAEP decryption under the identity key (R453); none: the decryption fails. -/
opaque oaepDecrypt : List Byte → Option (List Byte)

/-- The two signatures made with the identity keys (R452), over a message. -/
opaque identityRsaSign : List Byte → List Byte
opaque identitySlhSign : List Byte → List Byte

/-- The identity certificates and the CA chain held in MRAM (R451), one byte list each. -/
opaque identityCerts : List (List Byte)

/-- The 48-byte factory transport key of KS0 (R453): device-unique, delivered with the shipment data. -/
opaque transportKey : List Byte

/-- The inner FEC sublayer of IEEE 802.3dj at the transmitter (R36), as a transducer with a state: the payload bits a block
of 64 symbols takes, the state after them, and the 128 line bits of the block. -/
opaque djTake : Nat → Nat
opaque djNext : Nat → List Bool → Nat
opaque djLine : Nat → List Bool → BitVec 128

/-- The information bits its decoder finds in the soft values of a codeword, and those of the hard decisions (R36,
R46, R47). -/
opaque djDecode : List Int → BitVec 120
opaque djInfo : Nat → BitVec 120

/-- The IEEE 802.3 PAM4 test patterns of R226, by its code: the bit after those seen, newest first. -/
opaque ieeeNext : Nat → Nat → Bool

/-- The mirror formats the image of a version supports, highest and lowest (R273): the image header does not carry
them. -/
opaque mirrorFormats : Nat → Nat × Nat

end Sys2Proof.Config
end

