-- ==== Sys2Proof/Machine/Prbs.lean ====
section
/-! DEFINITION. The pseudo-random bit sequences of the manual (R524), runs of bits as numbers, and the pattern checker
(R154). A register is a number whose bit k − 1 is stage k. -/

namespace Sys2Proof.Machine

/-- A run of bits as a number, the first bit highest. -/
def bitsNat (l : List Bool) : Nat := l.foldl (fun v b => 2 * v + bitVal b) 0

/-- The `n` bits of a number, the highest first. -/
def natBits (n v : Nat) : List Bool := (List.range n).map fun i => bitOf v (n - 1 - i)

/-- The stages whose XOR enters the register: the terms x^k of the polynomial of each degree, its leading one among
them. -/
def prbsTaps : Nat → List Nat
  | 6 => [6, 5]
  | 7 => [7, 6]
  | 9 => [9, 5]
  | 13 => [13, 12, 2, 1]
  | 15 => [15, 14]
  | 23 => [23, 18]
  | _ => [31, 28]

/-- The XOR of the stages of the polynomial of degree `n`. -/
def prbsNext (n r : Nat) : Bool := (prbsTaps n).foldl (fun b k => xor b (bitOf r (k - 1))) false

/-- Every stage moves up by one and stage 1 takes a bit. -/
def prbsShift (n r : Nat) (b : Bool) : Nat := (2 * r + bitVal b) % 2 ^ n

/-- One step: the output bit, stage n, and the register after it. -/
def prbsStep (n r : Nat) : Bool × Nat := (bitOf r (n - 1), prbsShift n r (prbsNext n r))

/-- `len` output bits from a register, and the register after them. -/
def prbsRun (n : Nat) : Nat → Nat → List Bool × Nat
  | 0, r => ([], r)
  | len + 1, r =>
    let p := prbsStep n r
    let q := prbsRun n len p.2
    (p.1 :: q.1, q.2)

/-- `len` bits of a sequence whose next bit is `next` of the `n` bits before it, the newest lowest, and those bits after. -/
def seqRun (next : Nat → Bool) (n : Nat) : Nat → Nat → List Bool × Nat
  | 0, r => ([], r)
  | len + 1, r =>
    let b := next r
    let q := seqRun next n len (prbsShift n r b)
    (b :: q.1, q.2)

/-- Every stage at 1. -/
def allOnes (n : Nat) : Nat := 2 ^ n - 1

/-- A pattern checker (R154): the register with how many bits have entered it since it was last seeded, the error-free
bits in a row, and the bits and errors of the window of 1,024 that runs while it is locked. -/
structure ChkX where
  reg : Nat := 0
  got : Nat := 0
  run : Nat := 0
  win : Nat := 0
  errs : Nat := 0
  deriving DecidableEq, Repr

/-- One received bit at a checker whose pattern has a register of `n` stages with `next` as its next bit: whether it is
locked after the bit, the checker, and whether the bit was counted as an error. A register of zeros is no state of a
pattern, so it is seeded anew (notes/assumptions/144). -/
def chkBit (n : Nat) (next : Nat → Bool) (locked : Bool) (x : ChkX) (b : Bool) : Bool × ChkX × Bool :=
  let p := next x.reg
  if locked then
    let e := p != b
    let errs := x.errs + bitVal e
    if 128 < errs then (false, {}, e)
    else if x.win + 1 = 1024 then (true, { x with reg := prbsShift n x.reg p, win := 0, errs := 0 }, e)
    else (true, { x with reg := prbsShift n x.reg p, win := x.win + 1, errs := errs }, e)
  else if x.got < n then (false, { x with reg := prbsShift n x.reg b, got := x.got + 1 }, false)
  else if x.reg = 0 ∨ p ≠ b then (false, {}, false)
  else if 1024 ≤ x.run + 1 then (true, { x with reg := prbsShift n x.reg b, run := 0 }, false)
  else (false, { x with reg := prbsShift n x.reg b, run := x.run + 1 }, false)

/-- A run of received bits at a checker: lock, checker and errors counted. -/
def chkRun (n : Nat) (next : Nat → Bool) : List Bool → Bool → ChkX → Bool × ChkX × Nat
  | [], locked, x => (locked, x, 0)
  | b :: bs, locked, x =>
    let q := chkBit n next locked x b
    let r := chkRun n next bs q.1 q.2.1
    (r.1, r.2.1, bitVal q.2.2 + r.2.2)

end Sys2Proof.Machine
end

