-- ==== Sys2Proof/Machine/Regs.lean ====
section
/-! DEFINITION. The register file of the device as the field tables of spec/ lay it out: one constant per register
field (its BAR0 place, width, access code and value after cold reset), and the list of the fields of each block.
The names are the manual's: block, register, field. Reserved bits are no field: they read as zero (R8). -/

namespace Sys2Proof.Machine

/-- The access codes of R9 (00_scope). -/
inductive Acc where
  | ro | rw | w1c | wo | rc | rws | rwl
  deriving DecidableEq, Repr

/-- The register blocks of R490 (19_register_map_and_events); a channel or link lane that has a stride of its own
inside a block is a block here. -/
inductive Blk where
  | glb | crs | ln | hq | hl | flk | flkLane | bias | biasCh | scv | dec | decCh | hod | pmc | bist | ring | eng
  deriving DecidableEq, Repr

/-- A register field: `addr` is the BAR0 byte offset of its register in the first copy of the block, `istep` and
`jstep` the distance in bits between copies (block number, then array index), `icnt` and `jcnt` how many there are. -/
structure Fld where
  blk : Blk
  addr : Nat
  istep : Nat
  icnt : Nat
  jstep : Nat
  jcnt : Nat
  lo : Nat
  w : Nat
  acc : Acc
  rst : Nat
  deriving DecidableEq, Repr

/-- The bit address in BAR0 of a field's lowest bit (R490): it names the field's storage. Host lane k lies in quad
k div 32, at + 0x1000 + (k mod 32) × 0x400 (R229), so its stride is not constant. -/
def Fld.key (f : Fld) (i j : Nat) : Nat :=
  8 * f.addr + f.lo + f.jstep * j +
    (if f.blk = .hl then 8 * ((i / 32) * 0x10000 + (i % 32) * 0x400) else f.istep * i)

namespace Reg


/-! `GLB.BG_CTRL` (04_slices_and_calibration, R133) -/
def GLB.BG_CTRL.RELEASE : Fld := ⟨.glb, 0xC00, 0, 1, 0, 1, 0, 1, .wo, 0⟩
def GLB.BG_CTRL.CHK_N : Fld := ⟨.glb, 0xC00, 0, 1, 0, 1, 4, 4, .rw, 3⟩

/-! `GLB.BG_STAT` (04_slices_and_calibration, R133) -/
def GLB.BG_STAT.FREEZE : Fld := ⟨.glb, 0xC04, 0, 1, 0, 1, 0, 1, .ro, 0⟩
def GLB.BG_STAT.SC_DISAGREE : Fld := ⟨.glb, 0xC04, 0, 1, 0, 1, 1, 1, .ro, 0⟩
def GLB.BG_STAT.RELEASE_OK : Fld := ⟨.glb, 0xC04, 0, 1, 0, 1, 2, 1, .ro, 0⟩
def GLB.BG_STAT.D_SC0 : Fld := ⟨.glb, 0xC04, 0, 1, 0, 1, 4, 12, .ro, 0⟩
def GLB.BG_STAT.D_SC1 : Fld := ⟨.glb, 0xC04, 0, 1, 0, 1, 16, 12, .ro, 0⟩

/-! `GLB.EPOCH_OUT_CTRL` (06_burst_acquisition, R190) -/
def GLB.EPOCH_OUT_CTRL.EN : Fld := ⟨.glb, 0xD00, 0, 1, 0, 1, 0, 1, .rw, 0⟩
def GLB.EPOCH_OUT_CTRL.SRC : Fld := ⟨.glb, 0xD00, 0, 1, 0, 1, 1, 3, .rw, 0⟩
def GLB.EPOCH_OUT_CTRL.WIDTH : Fld := ⟨.glb, 0xD00, 0, 1, 0, 1, 8, 8, .rw, 8⟩

/-! `GLB.XING_STAT` (07_mortar, R213) -/
def GLB.XING_STAT.CFG_SKIP : Fld := ⟨.glb, 0xE10, 0, 1, 0, 1, 0, 16, .rc, 0⟩
def GLB.XING_STAT.PULSE_LOST : Fld := ⟨.glb, 0xE10, 0, 1, 0, 1, 16, 1, .w1c, 0⟩

/-! `GLB.AVS_CTRL` (07_mortar, R213) -/
def GLB.AVS_CTRL.TARGET : Fld := ⟨.glb, 0xE00, 0, 1, 0, 1, 0, 8, .rw, 38⟩
def GLB.AVS_CTRL.HYST : Fld := ⟨.glb, 0xE00, 0, 1, 0, 1, 8, 8, .rw, 8⟩
def GLB.AVS_CTRL.TEMP_HEAD : Fld := ⟨.glb, 0xE00, 0, 1, 0, 1, 16, 6, .rw, 10⟩

/-! `GLB.AVS_LIMIT` (07_mortar, R213) -/
def GLB.AVS_LIMIT.MIN_MV : Fld := ⟨.glb, 0xE04, 0, 1, 0, 1, 0, 12, .rw, 700⟩
def GLB.AVS_LIMIT.MAX_MV : Fld := ⟨.glb, 0xE04, 0, 1, 0, 1, 16, 12, .rw, 800⟩

/-! `GLB.AVS_ADV` (07_mortar, R213) -/
def GLB.AVS_ADV.ADV_MV : Fld := ⟨.glb, 0xE08, 0, 1, 0, 1, 0, 12, .ro, 0⟩
def GLB.AVS_ADV.VALID : Fld := ⟨.glb, 0xE08, 0, 1, 0, 1, 12, 1, .ro, 0⟩
def GLB.AVS_ADV.DIR : Fld := ⟨.glb, 0xE08, 0, 1, 0, 1, 13, 2, .ro, 0⟩
def GLB.AVS_ADV.AT_MAX : Fld := ⟨.glb, 0xE08, 0, 1, 0, 1, 15, 1, .ro, 0⟩
def GLB.AVS_ADV.LIMIT_COURSE : Fld := ⟨.glb, 0xE08, 0, 1, 0, 1, 16, 3, .ro, 0⟩
def GLB.AVS_ADV.SEQ : Fld := ⟨.glb, 0xE08, 0, 1, 0, 1, 24, 8, .ro, 0⟩

/-! `GLB.AVS_MEAS` (07_mortar, R213) -/
def GLB.AVS_MEAS.VCORE_MV : Fld := ⟨.glb, 0xE0C, 0, 1, 0, 1, 0, 12, .ro, 0⟩
def GLB.AVS_MEAS.KV : Fld := ⟨.glb, 0xE0C, 0, 1, 0, 1, 16, 8, .ro, 138⟩
def GLB.AVS_MEAS.KT : Fld := ⟨.glb, 0xE0C, 0, 1, 0, 1, 24, 8, .ro, 22⟩

/-! `RING.ARB_CTRL` (11_rings_and_sessions, R321) -/
def RING.ARB_CTRL.QUANTUM : Fld := ⟨.glb, 0x2000, 0, 1, 0, 1, 0, 8, .rw, 64⟩

/-! `RING.ERR_LOG` (11_rings_and_sessions, R321) -/
def RING.ERR_LOG.RING : Fld := ⟨.glb, 0x2004, 0, 1, 0, 1, 0, 12, .ro, 0⟩
def RING.ERR_LOG.CAUSE : Fld := ⟨.glb, 0x2004, 0, 1, 0, 1, 12, 4, .ro, 0⟩
def RING.ERR_LOG.VALID : Fld := ⟨.glb, 0x2004, 0, 1, 0, 1, 31, 1, .w1c, 0⟩

/-! `RING.DB_DROP` (11_rings_and_sessions, R321) -/
def RING.DB_DROP.COUNT : Fld := ⟨.glb, 0x2008, 0, 1, 0, 1, 0, 16, .rc, 0⟩
def RING.DB_DROP.LAST_PAGE : Fld := ⟨.glb, 0x2008, 0, 1, 0, 1, 16, 12, .ro, 0⟩
def RING.DB_DROP.LAST_FN : Fld := ⟨.glb, 0x2008, 0, 1, 0, 1, 28, 4, .ro, 0⟩

/-! `RING.FN_WEIGHT[f]` (11_rings_and_sessions, R321) -/
def RING.FN_WEIGHT.WEIGHT : Fld := ⟨.glb, 0x2100, 32, 64, 0, 1, 0, 8, .rw, 1⟩

/-! `RING.AUTH[f]` (11_rings_and_sessions, R321) -/
def RING.AUTH.FAILS : Fld := ⟨.glb, 0x2200, 32, 64, 0, 1, 0, 8, .ro, 0⟩
def RING.AUTH.LOCK_LEFT : Fld := ⟨.glb, 0x2200, 32, 64, 0, 1, 8, 7, .ro, 0⟩

/-! `PWR.CTRL` (15_power_and_thermal, R440) -/
def PWR.CTRL.DTYPE : Fld := ⟨.glb, 0x3000, 0, 1, 0, 1, 0, 2, .rw, 0⟩
def PWR.CTRL.INDEX : Fld := ⟨.glb, 0x3000, 0, 1, 0, 1, 2, 3, .rw, 0⟩
def PWR.CTRL.STATE : Fld := ⟨.glb, 0x3000, 0, 1, 0, 1, 5, 2, .rw, 0⟩
def PWR.CTRL.GO : Fld := ⟨.glb, 0x3000, 0, 1, 0, 1, 7, 1, .wo, 0⟩

/-! `PWR.STAT` (15_power_and_thermal, R440) -/
def PWR.STAT.BUSY : Fld := ⟨.glb, 0x3004, 0, 1, 0, 1, 0, 1, .ro, 0⟩
def PWR.STAT.BUSY_DTYPE : Fld := ⟨.glb, 0x3004, 0, 1, 0, 1, 1, 2, .ro, 0⟩
def PWR.STAT.BUSY_INDEX : Fld := ⟨.glb, 0x3004, 0, 1, 0, 1, 3, 3, .ro, 0⟩
def PWR.STAT.PWR_REJECT : Fld := ⟨.glb, 0x3004, 0, 1, 0, 1, 6, 1, .w1c, 0⟩
def PWR.STAT.LAST_ABORTED : Fld := ⟨.glb, 0x3004, 0, 1, 0, 1, 7, 1, .ro, 0⟩
def PWR.STAT.PAD_HELD_C : Fld := ⟨.glb, 0x3004, 0, 1, 0, 1, 16, 8, .ro, 255⟩
def PWR.STAT.PAD_HELD_Q : Fld := ⟨.glb, 0x3004, 0, 1, 0, 1, 24, 4, .ro, 15⟩

/-! `PWR.DOMAIN` (15_power_and_thermal, R440) -/
def PWR.DOMAIN.COURSE : Fld := ⟨.glb, 0x3008, 0, 1, 0, 1, 0, 16, .ro, 0⟩
def PWR.DOMAIN.QUAD_ON : Fld := ⟨.glb, 0x3008, 0, 1, 0, 1, 16, 4, .ro, 0⟩
def PWR.DOMAIN.FLK_ON : Fld := ⟨.glb, 0x3008, 0, 1, 0, 1, 20, 1, .ro, 0⟩

/-! `THM.CTRL` (15_power_and_thermal, R440) -/
def THM.CTRL.DWELL : Fld := ⟨.glb, 0x3400, 0, 1, 0, 1, 0, 4, .rwl, 3⟩
def THM.CTRL.LOCK : Fld := ⟨.glb, 0x3400, 0, 1, 0, 1, 4, 1, .rw, 0⟩
def THM.CTRL.STEP_WAIT : Fld := ⟨.glb, 0x3400, 0, 1, 0, 1, 8, 8, .rwl, 20⟩

/-! `THM.THRESH` (15_power_and_thermal, R440) -/
def THM.THRESH.WARN : Fld := ⟨.glb, 0x3404, 0, 1, 0, 1, 0, 8, .rwl, 196⟩
def THM.THRESH.THROTTLE : Fld := ⟨.glb, 0x3404, 0, 1, 0, 1, 8, 8, .rwl, 210⟩
def THM.THRESH.SHUTDOWN : Fld := ⟨.glb, 0x3404, 0, 1, 0, 1, 16, 8, .rwl, 230⟩
def THM.THRESH.WARN_HYS : Fld := ⟨.glb, 0x3404, 0, 1, 0, 1, 24, 4, .rwl, 4⟩
def THM.THRESH.THR_HYS : Fld := ⟨.glb, 0x3404, 0, 1, 0, 1, 28, 4, .rwl, 6⟩

/-! `THM.STAT` (15_power_and_thermal, R440) -/
def THM.STAT.THR_REJECT : Fld := ⟨.glb, 0x3408, 0, 1, 0, 1, 0, 1, .w1c, 0⟩
def THM.STAT.REV_REJECT : Fld := ⟨.glb, 0x3408, 0, 1, 0, 1, 1, 1, .w1c, 0⟩
def THM.STAT.NVM_OK : Fld := ⟨.glb, 0x3408, 0, 1, 0, 1, 2, 1, .ro, 0⟩
def THM.STAT.TRIP_VALID : Fld := ⟨.glb, 0x3408, 0, 1, 0, 1, 3, 1, .w1c, 0⟩
def THM.STAT.TRIP_FROM_MRAM : Fld := ⟨.glb, 0x3408, 0, 1, 0, 1, 4, 1, .ro, 0⟩
def THM.STAT.SENSOR_FAIL : Fld := ⟨.glb, 0x3408, 0, 1, 0, 1, 8, 24, .ro, 0⟩

/-! `THM.SENSOR[i]` (15_power_and_thermal, R440) -/
def THM.SENSOR.READING : Fld := ⟨.glb, 0x3420, 32, 24, 0, 1, 0, 16, .ro, 0⟩
def THM.SENSOR.WARN : Fld := ⟨.glb, 0x3420, 32, 24, 0, 1, 16, 1, .ro, 0⟩
def THM.SENSOR.THROTTLE : Fld := ⟨.glb, 0x3420, 32, 24, 0, 1, 17, 1, .ro, 0⟩
def THM.SENSOR.SHUTDOWN : Fld := ⟨.glb, 0x3420, 32, 24, 0, 1, 18, 1, .ro, 0⟩
def THM.SENSOR.FAST : Fld := ⟨.glb, 0x3420, 32, 24, 0, 1, 19, 1, .ro, 0⟩
def THM.SENSOR.FAIL : Fld := ⟨.glb, 0x3420, 32, 24, 0, 1, 20, 1, .ro, 0⟩
def THM.SENSOR.SEQ : Fld := ⟨.glb, 0x3420, 32, 24, 0, 1, 24, 8, .ro, 0⟩

/-! `THM.LADDER_AUTH` (15_power_and_thermal, R440) -/
def THM.LADDER_AUTH.MAX_STEP : Fld := ⟨.glb, 0x340C, 0, 1, 0, 1, 0, 3, .rwl, 0⟩
def THM.LADDER_AUTH.SHED_MAX : Fld := ⟨.glb, 0x340C, 0, 1, 0, 1, 8, 7, .rwl, 0⟩

/-! `THM.LADDER_CTRL` (15_power_and_thermal, R440) -/
def THM.LADDER_CTRL.REVERSE : Fld := ⟨.glb, 0x3410, 0, 1, 0, 1, 0, 8, .wo, 0⟩

/-! `THM.LADDER[c]` (15_power_and_thermal, R440) -/
def THM.LADDER.STEPS : Fld := ⟨.glb, 0x3480, 32, 8, 0, 1, 0, 5, .ro, 0⟩
def THM.LADDER.EXHAUSTED : Fld := ⟨.glb, 0x3480, 32, 8, 0, 1, 5, 1, .ro, 0⟩
def THM.LADDER.SHED_CNT : Fld := ⟨.glb, 0x3480, 32, 8, 0, 1, 6, 7, .ro, 0⟩

/-! `THM.TRIP_INFO` (15_power_and_thermal, R440) -/
def THM.TRIP_INFO.READING : Fld := ⟨.glb, 0x3418, 0, 1, 0, 1, 0, 16, .ro, 0⟩
def THM.TRIP_INFO.SENSOR : Fld := ⟨.glb, 0x3418, 0, 1, 0, 1, 16, 5, .ro, 0⟩
def THM.TRIP_INFO.COUNT : Fld := ⟨.glb, 0x3418, 0, 1, 0, 1, 24, 8, .ro, 0⟩
def THM.TRIP_INFO.TIME : Fld := ⟨.glb, 0x3418, 0, 1, 0, 1, 32, 32, .ro, 0⟩

/-! `SEC.LC` (16_boot_security_update, R465) -/
def SEC.LC.LC_STATE : Fld := ⟨.glb, 0x4000, 0, 1, 0, 1, 0, 2, .ro, 1⟩
def SEC.LC.CUST_ROOT : Fld := ⟨.glb, 0x4000, 0, 1, 0, 1, 2, 1, .ro, 0⟩
def SEC.LC.IDENTITY_OK : Fld := ⟨.glb, 0x4000, 0, 1, 0, 1, 3, 1, .ro, 1⟩
def SEC.LC.LC_PENDING : Fld := ⟨.glb, 0x4000, 0, 1, 0, 1, 4, 1, .ro, 0⟩

/-! `SEC.BOOT_STAT` (16_boot_security_update, R465) -/
def SEC.BOOT_STAT.READY : Fld := ⟨.glb, 0x4004, 0, 1, 0, 1, 0, 1, .ro, 0⟩
def SEC.BOOT_STAT.SLOT : Fld := ⟨.glb, 0x4004, 0, 1, 0, 1, 1, 1, .ro, 0⟩
def SEC.BOOT_STAT.BOOT_TRIAL : Fld := ⟨.glb, 0x4004, 0, 1, 0, 1, 2, 1, .ro, 0⟩
def SEC.BOOT_STAT.FALLBACK_BOOT : Fld := ⟨.glb, 0x4004, 0, 1, 0, 1, 3, 1, .ro, 0⟩
def SEC.BOOT_STAT.FAIL_A : Fld := ⟨.glb, 0x4004, 0, 1, 0, 1, 4, 4, .ro, 0⟩
def SEC.BOOT_STAT.FAIL_B : Fld := ⟨.glb, 0x4004, 0, 1, 0, 1, 8, 4, .ro, 0⟩
def SEC.BOOT_STAT.FLASH_RELEASED : Fld := ⟨.glb, 0x4004, 0, 1, 0, 1, 12, 1, .ro, 0⟩
def SEC.BOOT_STAT.TRIES : Fld := ⟨.glb, 0x4004, 0, 1, 0, 1, 16, 3, .ro, 0⟩

/-! `SEC.ARB` (16_boot_security_update, R465) -/
def SEC.ARB.COUNTER : Fld := ⟨.glb, 0x4008, 0, 1, 0, 1, 0, 7, .ro, 0⟩

/-! `SEC.SERIAL` (16_boot_security_update, R465) -/
def SEC.SERIAL.SERIAL : Fld := ⟨.glb, 0x4018, 0, 1, 0, 1, 0, 64, .ro, 0⟩

/-! `UPD.CTRL` (16_boot_security_update, R465) -/
def UPD.CTRL.TWIN_SRC_EN : Fld := ⟨.glb, 0x4400, 0, 1, 0, 1, 0, 1, .rw, 0⟩
def UPD.CTRL.PUSH : Fld := ⟨.glb, 0x4400, 0, 1, 0, 1, 1, 1, .wo, 0⟩

/-! `UPD.STAT` (16_boot_security_update, R465) -/
def UPD.STAT.STATE : Fld := ⟨.glb, 0x4404, 0, 1, 0, 1, 0, 4, .ro, 0⟩
def UPD.STAT.LOCK : Fld := ⟨.glb, 0x4404, 0, 1, 0, 1, 4, 2, .ro, 0⟩
def UPD.STAT.LOCK_FN : Fld := ⟨.glb, 0x4404, 0, 1, 0, 1, 6, 6, .ro, 0⟩
def UPD.STAT.PUSH_REFUSED : Fld := ⟨.glb, 0x4404, 0, 1, 0, 1, 12, 1, .w1c, 0⟩
def UPD.STAT.HEALTH_OK : Fld := ⟨.glb, 0x4404, 0, 1, 0, 1, 13, 1, .ro, 0⟩
def UPD.STAT.LAST_FALLBACK : Fld := ⟨.glb, 0x4404, 0, 1, 0, 1, 14, 1, .w1c, 0⟩
def UPD.STAT.WINDOW_LEFT : Fld := ⟨.glb, 0x4404, 0, 1, 0, 1, 16, 16, .ro, 0⟩

/-! `UPD.VERSION` (16_boot_security_update, R465) -/
def UPD.VERSION.RUNNING : Fld := ⟨.glb, 0x4408, 0, 1, 0, 1, 0, 32, .ro, 0⟩
def UPD.VERSION.STAGED : Fld := ⟨.glb, 0x4408, 0, 1, 0, 1, 32, 32, .ro, 0⟩

/-! `UPD.PROGRESS` (16_boot_security_update, R465) -/
def UPD.PROGRESS.PERCENT : Fld := ⟨.glb, 0x4410, 0, 1, 0, 1, 0, 8, .ro, 0⟩
def UPD.PROGRESS.SWAPPED : Fld := ⟨.glb, 0x4410, 0, 1, 0, 1, 8, 7, .ro, 0⟩

/-! `UPD.RECORD` (16_boot_security_update, R465) -/
def UPD.RECORD.SEQ : Fld := ⟨.glb, 0x4414, 0, 1, 0, 1, 0, 32, .ro, 0⟩

/-! `GLB.ADC_CHAR` (18_start_up_and_bounds, R489) -/
def GLB.ADC_CHAR.E_CONV : Fld := ⟨.glb, 0xF00, 0, 1, 0, 1, 0, 12, .ro, 0⟩
def GLB.ADC_CHAR.ENOB : Fld := ⟨.glb, 0xF00, 0, 1, 0, 1, 12, 10, .ro, 0⟩

/-! `GLB.ID` (19_register_map_and_events, R497) -/
def GLB.ID.PART : Fld := ⟨.glb, 0x0, 0, 1, 0, 1, 0, 16, .ro, 25672⟩
def GLB.ID.REV_MAJOR : Fld := ⟨.glb, 0x0, 0, 1, 0, 1, 16, 4, .ro, 11⟩
def GLB.ID.REV_MINOR : Fld := ⟨.glb, 0x0, 0, 1, 0, 1, 20, 4, .ro, 0⟩
def GLB.ID.FAMILY : Fld := ⟨.glb, 0x0, 0, 1, 0, 1, 24, 8, .ro, 84⟩

/-! `GLB.CAP` (19_register_map_and_events, R497) -/
def GLB.CAP.GRADE : Fld := ⟨.glb, 0x4, 0, 1, 0, 1, 0, 4, .ro, 1⟩
def GLB.CAP.MODES : Fld := ⟨.glb, 0x4, 0, 1, 0, 1, 4, 6, .ro, 63⟩
def GLB.CAP.LANES : Fld := ⟨.glb, 0x4, 0, 1, 0, 1, 10, 7, .ro, 64⟩
def GLB.CAP.HOST_LANES : Fld := ⟨.glb, 0x4, 0, 1, 0, 1, 17, 8, .ro, 128⟩
def GLB.CAP.COURSES : Fld := ⟨.glb, 0x4, 0, 1, 0, 1, 25, 4, .ro, 8⟩
def GLB.CAP.TWIN : Fld := ⟨.glb, 0x4, 0, 1, 0, 1, 29, 1, .ro, 1⟩

/-! `GLB.OFFDOM` (19_register_map_and_events, R497) -/
def GLB.OFFDOM.OFFSET : Fld := ⟨.glb, 0x100, 0, 1, 0, 1, 0, 24, .ro, 0⟩
def GLB.OFFDOM.WRITE : Fld := ⟨.glb, 0x100, 0, 1, 0, 1, 24, 1, .ro, 0⟩
def GLB.OFFDOM.VALID : Fld := ⟨.glb, 0x100, 0, 1, 0, 1, 31, 1, .w1c, 0⟩

/-! `GLB.OFFDOM_CNT` (19_register_map_and_events, R497) -/
def GLB.OFFDOM_CNT.COUNT : Fld := ⟨.glb, 0x104, 0, 1, 0, 1, 0, 16, .rc, 0⟩

/-! `GLB.ACC_ERR` (19_register_map_and_events, R497) -/
def GLB.ACC_ERR.COUNT : Fld := ⟨.glb, 0x108, 0, 1, 0, 1, 0, 16, .rc, 0⟩

/-! `GLB.LINK` (19_register_map_and_events, R497) -/
def GLB.LINK.SPEED : Fld := ⟨.glb, 0x200, 0, 1, 0, 1, 0, 3, .ro, 0⟩
def GLB.LINK.WIDTH : Fld := ⟨.glb, 0x200, 0, 1, 0, 1, 3, 5, .ro, 0⟩
def GLB.LINK.FLIT : Fld := ⟨.glb, 0x200, 0, 1, 0, 1, 8, 1, .ro, 0⟩
def GLB.LINK.DEGRADED : Fld := ⟨.glb, 0x200, 0, 1, 0, 1, 9, 1, .ro, 0⟩
def GLB.LINK.DEG_CHG : Fld := ⟨.glb, 0x200, 0, 1, 0, 1, 10, 1, .w1c, 0⟩

/-! `GLB.TIME` (19_register_map_and_events, R497) -/
def GLB.TIME.NS : Fld := ⟨.glb, 0x208, 0, 1, 0, 1, 0, 64, .ro, 0⟩

/-! `EVT.MAP[s]` (19_register_map_and_events, R497) -/
def EVT.MAP.RING : Fld := ⟨.glb, 0x8000, 32, 608, 0, 1, 0, 12, .rw, 0⟩
def EVT.MAP.EN : Fld := ⟨.glb, 0x8000, 32, 608, 0, 1, 12, 1, .rw, 0⟩
def EVT.MAP.OWN_VEC : Fld := ⟨.glb, 0x8000, 32, 608, 0, 1, 13, 1, .rw, 0⟩
def EVT.MAP.VECTOR : Fld := ⟨.glb, 0x8000, 32, 608, 0, 1, 14, 11, .rw, 0⟩
def EVT.MAP.INTR : Fld := ⟨.glb, 0x8000, 32, 608, 0, 1, 25, 1, .rw, 1⟩

/-! `EVT.LATCH[i]` (19_register_map_and_events, R497) -/
def EVT.LATCH.RAISED : Fld := ⟨.glb, 0x7E00, 1, 608, 0, 1, 0, 1, .w1c, 0⟩

/-! `EVT.STAT` (19_register_map_and_events, R497) -/
def EVT.STAT.UNDELIVERED : Fld := ⟨.glb, 0x7F00, 0, 1, 0, 1, 0, 16, .rc, 0⟩
def EVT.STAT.LAST_SRC : Fld := ⟨.glb, 0x7F00, 0, 1, 0, 1, 16, 10, .ro, 0⟩
def EVT.STAT.HELD : Fld := ⟨.glb, 0x7F00, 0, 1, 0, 1, 26, 1, .ro, 0⟩

/-! `GLB.ENG_SPARE_MAP` (13_asyan_engines, R390) -/
def GLB.ENG_SPARE_MAP.LOGICAL : Fld := ⟨.glb, 0x1800, 8, 8, 0, 1, 0, 7, .ro, 0⟩
def GLB.ENG_SPARE_MAP.MAPPED : Fld := ⟨.glb, 0x1800, 8, 8, 0, 1, 7, 1, .ro, 0⟩

/-! `THM.SHED[i]` (15_power_and_thermal, R440) -/
def THM.SHED.LANE : Fld := ⟨.glb, 0x34A0, 8, 64, 0, 1, 0, 6, .rw, 0⟩
def THM.SHED.VALID : Fld := ⟨.glb, 0x34A0, 8, 64, 0, 1, 7, 1, .rw, 0⟩

/-! `SEC.KEYSLOTS` (16_boot_security_update, R465) -/
def SEC.KEYSLOTS.FULL : Fld := ⟨.glb, 0x4010, 1, 64, 0, 1, 0, 1, .ro, 0⟩

/-- Fields of block glb, part 0. -/
def glbFields0 : List Fld :=
  [GLB.BG_CTRL.RELEASE, GLB.BG_CTRL.CHK_N, GLB.BG_STAT.FREEZE, GLB.BG_STAT.SC_DISAGREE,
   GLB.BG_STAT.RELEASE_OK, GLB.BG_STAT.D_SC0, GLB.BG_STAT.D_SC1, GLB.EPOCH_OUT_CTRL.EN,
   GLB.EPOCH_OUT_CTRL.SRC, GLB.EPOCH_OUT_CTRL.WIDTH, GLB.XING_STAT.CFG_SKIP, GLB.XING_STAT.PULSE_LOST,
   GLB.AVS_CTRL.TARGET, GLB.AVS_CTRL.HYST, GLB.AVS_CTRL.TEMP_HEAD, GLB.AVS_LIMIT.MIN_MV,
   GLB.AVS_LIMIT.MAX_MV, GLB.AVS_ADV.ADV_MV, GLB.AVS_ADV.VALID, GLB.AVS_ADV.DIR,
   GLB.AVS_ADV.AT_MAX, GLB.AVS_ADV.LIMIT_COURSE, GLB.AVS_ADV.SEQ, GLB.AVS_MEAS.VCORE_MV,
   GLB.AVS_MEAS.KV, GLB.AVS_MEAS.KT, RING.ARB_CTRL.QUANTUM, RING.ERR_LOG.RING,
   RING.ERR_LOG.CAUSE, RING.ERR_LOG.VALID, RING.DB_DROP.COUNT, RING.DB_DROP.LAST_PAGE,
   RING.DB_DROP.LAST_FN, RING.FN_WEIGHT.WEIGHT, RING.AUTH.FAILS, RING.AUTH.LOCK_LEFT,
   PWR.CTRL.DTYPE, PWR.CTRL.INDEX, PWR.CTRL.STATE, PWR.CTRL.GO]

/-- Fields of block glb, part 1. -/
def glbFields1 : List Fld :=
  [PWR.STAT.BUSY, PWR.STAT.BUSY_DTYPE, PWR.STAT.BUSY_INDEX, PWR.STAT.PWR_REJECT,
   PWR.STAT.LAST_ABORTED, PWR.STAT.PAD_HELD_C, PWR.STAT.PAD_HELD_Q, PWR.DOMAIN.COURSE,
   PWR.DOMAIN.QUAD_ON, PWR.DOMAIN.FLK_ON, THM.CTRL.DWELL, THM.CTRL.LOCK,
   THM.CTRL.STEP_WAIT, THM.THRESH.WARN, THM.THRESH.THROTTLE, THM.THRESH.SHUTDOWN,
   THM.THRESH.WARN_HYS, THM.THRESH.THR_HYS, THM.STAT.THR_REJECT, THM.STAT.REV_REJECT,
   THM.STAT.NVM_OK, THM.STAT.TRIP_VALID, THM.STAT.TRIP_FROM_MRAM, THM.STAT.SENSOR_FAIL,
   THM.SENSOR.READING, THM.SENSOR.WARN, THM.SENSOR.THROTTLE, THM.SENSOR.SHUTDOWN,
   THM.SENSOR.FAST, THM.SENSOR.FAIL, THM.SENSOR.SEQ, THM.LADDER_AUTH.MAX_STEP,
   THM.LADDER_AUTH.SHED_MAX, THM.LADDER_CTRL.REVERSE, THM.LADDER.STEPS, THM.LADDER.EXHAUSTED,
   THM.LADDER.SHED_CNT, THM.TRIP_INFO.READING, THM.TRIP_INFO.SENSOR, THM.TRIP_INFO.COUNT]

/-- Fields of block glb, part 2. -/
def glbFields2 : List Fld :=
  [THM.TRIP_INFO.TIME, SEC.LC.LC_STATE, SEC.LC.CUST_ROOT, SEC.LC.IDENTITY_OK,
   SEC.LC.LC_PENDING, SEC.BOOT_STAT.READY, SEC.BOOT_STAT.SLOT, SEC.BOOT_STAT.BOOT_TRIAL,
   SEC.BOOT_STAT.FALLBACK_BOOT, SEC.BOOT_STAT.FAIL_A, SEC.BOOT_STAT.FAIL_B, SEC.BOOT_STAT.FLASH_RELEASED,
   SEC.BOOT_STAT.TRIES, SEC.ARB.COUNTER, SEC.SERIAL.SERIAL, UPD.CTRL.TWIN_SRC_EN,
   UPD.CTRL.PUSH, UPD.STAT.STATE, UPD.STAT.LOCK, UPD.STAT.LOCK_FN,
   UPD.STAT.PUSH_REFUSED, UPD.STAT.HEALTH_OK, UPD.STAT.LAST_FALLBACK, UPD.STAT.WINDOW_LEFT,
   UPD.VERSION.RUNNING, UPD.VERSION.STAGED, UPD.PROGRESS.PERCENT, UPD.PROGRESS.SWAPPED,
   UPD.RECORD.SEQ, GLB.ADC_CHAR.E_CONV, GLB.ADC_CHAR.ENOB, GLB.ID.PART,
   GLB.ID.REV_MAJOR, GLB.ID.REV_MINOR, GLB.ID.FAMILY, GLB.CAP.GRADE,
   GLB.CAP.MODES, GLB.CAP.LANES, GLB.CAP.HOST_LANES, GLB.CAP.COURSES]

/-- Fields of block glb, part 3. -/
def glbFields3 : List Fld :=
  [GLB.CAP.TWIN, GLB.OFFDOM.OFFSET, GLB.OFFDOM.WRITE, GLB.OFFDOM.VALID,
   GLB.OFFDOM_CNT.COUNT, GLB.ACC_ERR.COUNT, GLB.LINK.SPEED, GLB.LINK.WIDTH,
   GLB.LINK.FLIT, GLB.LINK.DEGRADED, GLB.LINK.DEG_CHG, GLB.TIME.NS,
   EVT.MAP.RING, EVT.MAP.EN, EVT.MAP.OWN_VEC, EVT.MAP.VECTOR,
   EVT.MAP.INTR, EVT.LATCH.RAISED, EVT.STAT.UNDELIVERED, EVT.STAT.LAST_SRC,
   EVT.STAT.HELD, GLB.ENG_SPARE_MAP.LOGICAL, GLB.ENG_SPARE_MAP.MAPPED, THM.SHED.LANE,
   THM.SHED.VALID, SEC.KEYSLOTS.FULL]

/-- Every field of block glb. -/
def glbFields : List Fld := glbFields0 ++ glbFields1 ++ glbFields2 ++ glbFields3

/-! `CRS[c].CAL_CTRL` (04_slices_and_calibration, R133) -/
def CRS.CAL_CTRL.DT_CAL : Fld := ⟨.crs, 0x100200, 524288, 8, 0, 1, 0, 8, .rw, 40⟩
def CRS.CAL_CTRL.DT_EN : Fld := ⟨.crs, 0x100200, 524288, 8, 0, 1, 8, 1, .rw, 1⟩

/-! `CRS[c].EPOCH_CFG` (06_burst_acquisition, R190) -/
def CRS.EPOCH_CFG.SYNC_DIV : Fld := ⟨.crs, 0x100400, 524288, 8, 0, 1, 0, 8, .ro, 0⟩
def CRS.EPOCH_CFG.SYNC_EN : Fld := ⟨.crs, 0x100400, 524288, 8, 0, 1, 8, 1, .ro, 0⟩
def CRS.EPOCH_CFG.FREE_START : Fld := ⟨.crs, 0x100400, 524288, 8, 0, 1, 9, 1, .ro, 0⟩

/-! `CRS[c].EPOCH_LEN` (06_burst_acquisition, R190) -/
def CRS.EPOCH_LEN.TICKS : Fld := ⟨.crs, 0x100404, 524288, 8, 0, 1, 0, 27, .ro, 0⟩

/-! `CRS[c].EPOCH_OFS` (06_burst_acquisition, R190) -/
def CRS.EPOCH_OFS.TICKS : Fld := ⟨.crs, 0x100408, 524288, 8, 0, 1, 0, 27, .ro, 0⟩

/-! `CRS[c].EPOCH_STAT` (06_burst_acquisition, R190) -/
def CRS.EPOCH_STAT.STATE : Fld := ⟨.crs, 0x10040C, 524288, 8, 0, 1, 0, 2, .ro, 0⟩
def CRS.EPOCH_STAT.BANK : Fld := ⟨.crs, 0x10040C, 524288, 8, 0, 1, 2, 1, .ro, 0⟩
def CRS.EPOCH_STAT.COMMIT_PENDING : Fld := ⟨.crs, 0x10040C, 524288, 8, 0, 1, 3, 1, .ro, 0⟩
def CRS.EPOCH_STAT.LAST_ERR : Fld := ⟨.crs, 0x10040C, 524288, 8, 0, 1, 4, 16, .ro, 0⟩
def CRS.EPOCH_STAT.SYNC_AGE : Fld := ⟨.crs, 0x10040C, 524288, 8, 0, 1, 20, 8, .ro, 0⟩
def CRS.EPOCH_STAT.EXTRA_SYNC : Fld := ⟨.crs, 0x10040C, 524288, 8, 0, 1, 28, 4, .rc, 0⟩

/-! `CRS[c].EPOCH_CNT` (06_burst_acquisition, R190) -/
def CRS.EPOCH_CNT.COUNT : Fld := ⟨.crs, 0x100410, 524288, 8, 0, 1, 0, 32, .ro, 0⟩

/-! `CRS[c].SLACK` (07_mortar, R213) -/
def CRS.SLACK.CUR : Fld := ⟨.crs, 0x100500, 524288, 8, 0, 1, 0, 8, .ro, 255⟩
def CRS.SLACK.MIN : Fld := ⟨.crs, 0x100500, 524288, 8, 0, 1, 8, 8, .ro, 255⟩
def CRS.SLACK.SRC : Fld := ⟨.crs, 0x100500, 524288, 8, 0, 1, 16, 6, .ro, 63⟩
def CRS.SLACK.LOW : Fld := ⟨.crs, 0x100500, 524288, 8, 0, 1, 22, 1, .ro, 0⟩
def CRS.SLACK.CRIT : Fld := ⟨.crs, 0x100500, 524288, 8, 0, 1, 23, 1, .ro, 0⟩
def CRS.SLACK.VALID : Fld := ⟨.crs, 0x100500, 524288, 8, 0, 1, 24, 1, .ro, 0⟩
def CRS.SLACK.RATE : Fld := ⟨.crs, 0x100500, 524288, 8, 0, 1, 25, 1, .ro, 0⟩
def CRS.SLACK.BACKLOG : Fld := ⟨.crs, 0x100500, 524288, 8, 0, 1, 26, 1, .ro, 0⟩

/-! `CRS[c].SLACK_CFG` (07_mortar, R213) -/
def CRS.SLACK_CFG.FLOOR : Fld := ⟨.crs, 0x100504, 524288, 8, 0, 1, 0, 8, .rw, 26⟩
def CRS.SLACK_CFG.MIN_CLR : Fld := ⟨.crs, 0x100504, 524288, 8, 0, 1, 8, 1, .wo, 0⟩

/-! `CRS[c].XING_STAT` (07_mortar, R213) -/
def CRS.XING_STAT.CFG_SKIP : Fld := ⟨.crs, 0x100508, 524288, 8, 0, 1, 0, 16, .rc, 0⟩
def CRS.XING_STAT.PULSE_LOST : Fld := ⟨.crs, 0x100508, 524288, 8, 0, 1, 16, 1, .w1c, 0⟩

/-! `CRS[c].CMIS_CTRL` (09_optics_bias_and_supervision, R261) -/
def CRS.CMIS_CTRL.BUS : Fld := ⟨.crs, 0x100600, 524288, 8, 0, 1, 0, 1, .rw, 0⟩
def CRS.CMIS_CTRL.POLL_EN : Fld := ⟨.crs, 0x100600, 524288, 8, 0, 1, 1, 1, .rw, 1⟩
def CRS.CMIS_CTRL.POLL_MS : Fld := ⟨.crs, 0x100600, 524288, 8, 0, 1, 2, 8, .rw, 10⟩
def CRS.CMIS_CTRL.ADDR : Fld := ⟨.crs, 0x100600, 524288, 8, 0, 1, 10, 7, .rw, 80⟩

/-! `CRS[c].CMIS_STAT` (09_optics_bias_and_supervision, R261) -/
def CRS.CMIS_STAT.PRESENT : Fld := ⟨.crs, 0x100604, 524288, 8, 0, 1, 0, 1, .ro, 0⟩
def CRS.CMIS_STAT.INT : Fld := ⟨.crs, 0x100604, 524288, 8, 0, 1, 1, 1, .ro, 0⟩
def CRS.CMIS_STAT.BUS_FAULT : Fld := ⟨.crs, 0x100604, 524288, 8, 0, 1, 2, 1, .w1c, 0⟩
def CRS.CMIS_STAT.POLL_PAUSED : Fld := ⟨.crs, 0x100604, 524288, 8, 0, 1, 3, 1, .ro, 0⟩
def CRS.CMIS_STAT.MOD_STATE : Fld := ⟨.crs, 0x100604, 524288, 8, 0, 1, 4, 4, .ro, 0⟩
def CRS.CMIS_STAT.POLLS : Fld := ⟨.crs, 0x100604, 524288, 8, 0, 1, 16, 16, .ro, 0⟩

/-! `CRS[c].MOD_PINS` (15_power_and_thermal, R440) -/
def CRS.MOD_PINS.RESET : Fld := ⟨.crs, 0x100700, 524288, 8, 0, 1, 0, 1, .rw, 1⟩
def CRS.MOD_PINS.LPMODE : Fld := ⟨.crs, 0x100700, 524288, 8, 0, 1, 1, 1, .rw, 1⟩
def CRS.MOD_PINS.BALL_RESET : Fld := ⟨.crs, 0x100700, 524288, 8, 0, 1, 8, 1, .ro, 1⟩
def CRS.MOD_PINS.BALL_LPMODE : Fld := ⟨.crs, 0x100700, 524288, 8, 0, 1, 9, 1, .ro, 1⟩
def CRS.MOD_PINS.HELD : Fld := ⟨.crs, 0x100700, 524288, 8, 0, 1, 10, 1, .ro, 1⟩

/-! `CRS[c].TX_SKEW_LO/HI` (05_line_transmit, R156) -/
def CRS.TX_SKEW.LANE : Fld := ⟨.crs, 0x100300, 524288, 8, 8, 8, 0, 8, .rw, 0⟩

/-- Fields of block crs, part 0. -/
def crsFields0 : List Fld :=
  [CRS.CAL_CTRL.DT_CAL, CRS.CAL_CTRL.DT_EN, CRS.EPOCH_CFG.SYNC_DIV, CRS.EPOCH_CFG.SYNC_EN,
   CRS.EPOCH_CFG.FREE_START, CRS.EPOCH_LEN.TICKS, CRS.EPOCH_OFS.TICKS, CRS.EPOCH_STAT.STATE,
   CRS.EPOCH_STAT.BANK, CRS.EPOCH_STAT.COMMIT_PENDING, CRS.EPOCH_STAT.LAST_ERR, CRS.EPOCH_STAT.SYNC_AGE,
   CRS.EPOCH_STAT.EXTRA_SYNC, CRS.EPOCH_CNT.COUNT, CRS.SLACK.CUR, CRS.SLACK.MIN,
   CRS.SLACK.SRC, CRS.SLACK.LOW, CRS.SLACK.CRIT, CRS.SLACK.VALID,
   CRS.SLACK.RATE, CRS.SLACK.BACKLOG, CRS.SLACK_CFG.FLOOR, CRS.SLACK_CFG.MIN_CLR,
   CRS.XING_STAT.CFG_SKIP, CRS.XING_STAT.PULSE_LOST, CRS.CMIS_CTRL.BUS, CRS.CMIS_CTRL.POLL_EN,
   CRS.CMIS_CTRL.POLL_MS, CRS.CMIS_CTRL.ADDR, CRS.CMIS_STAT.PRESENT, CRS.CMIS_STAT.INT,
   CRS.CMIS_STAT.BUS_FAULT, CRS.CMIS_STAT.POLL_PAUSED, CRS.CMIS_STAT.MOD_STATE, CRS.CMIS_STAT.POLLS,
   CRS.MOD_PINS.RESET, CRS.MOD_PINS.LPMODE, CRS.MOD_PINS.BALL_RESET, CRS.MOD_PINS.BALL_LPMODE]

/-- Fields of block crs, part 1. -/
def crsFields1 : List Fld :=
  [CRS.MOD_PINS.HELD, CRS.TX_SKEW.LANE]

/-- Every field of block crs. -/
def crsFields : List Fld := crsFields0 ++ crsFields1

/-! `LN[n].FMT_CFG` (02_line_formats, R64) -/
def LN.FMT_CFG.MODE : Fld := ⟨.ln, 0x200600, 131072, 64, 0, 1, 0, 4, .ro, 0⟩
def LN.FMT_CFG.CONST : Fld := ⟨.ln, 0x200600, 131072, 64, 0, 1, 4, 2, .ro, 0⟩
def LN.FMT_CFG.PRECODE : Fld := ⟨.ln, 0x200600, 131072, 64, 0, 1, 6, 1, .ro, 0⟩
def LN.FMT_CFG.INNER_BYPASS : Fld := ⟨.ln, 0x200600, 131072, 64, 0, 1, 7, 1, .ro, 0⟩
def LN.FMT_CFG.CHASE_L : Fld := ⟨.ln, 0x200600, 131072, 64, 0, 1, 8, 3, .ro, 6⟩
def LN.FMT_CFG.OCM_EN : Fld := ⟨.ln, 0x200600, 131072, 64, 0, 1, 12, 1, .ro, 0⟩

/-! `LN[n].FMT_STAT` (02_line_formats, R64) -/
def LN.FMT_STAT.ALIGNED : Fld := ⟨.ln, 0x200604, 131072, 64, 0, 1, 0, 1, .ro, 0⟩
def LN.FMT_STAT.SF_PHASE : Fld := ⟨.ln, 0x200604, 131072, 64, 0, 1, 1, 3, .ro, 0⟩
def LN.FMT_STAT.FAR_RDI : Fld := ⟨.ln, 0x200604, 131072, 64, 0, 1, 4, 1, .ro, 0⟩
def LN.FMT_STAT.FAR_DEGRADE : Fld := ⟨.ln, 0x200604, 131072, 64, 0, 1, 5, 1, .ro, 0⟩
def LN.FMT_STAT.FAR_SRC_FAULT : Fld := ⟨.ln, 0x200604, 131072, 64, 0, 1, 6, 1, .ro, 0⟩
def LN.FMT_STAT.FAR_LANE : Fld := ⟨.ln, 0x200604, 131072, 64, 0, 1, 8, 6, .ro, 0⟩
def LN.FMT_STAT.FAR_CONST : Fld := ⟨.ln, 0x200604, 131072, 64, 0, 1, 14, 2, .ro, 0⟩
def LN.FMT_STAT.HOST_A_ALIGNED : Fld := ⟨.ln, 0x200604, 131072, 64, 0, 1, 16, 1, .ro, 0⟩
def LN.FMT_STAT.HOST_B_ALIGNED : Fld := ⟨.ln, 0x200604, 131072, 64, 0, 1, 17, 1, .ro, 0⟩
def LN.FMT_STAT.OCM_LOCK : Fld := ⟨.ln, 0x200604, 131072, 64, 0, 1, 18, 1, .ro, 0⟩
def LN.FMT_STAT.DESKEW : Fld := ⟨.ln, 0x200604, 131072, 64, 0, 1, 19, 10, .ro, 0⟩
def LN.FMT_STAT.SKEW_OVR : Fld := ⟨.ln, 0x200604, 131072, 64, 0, 1, 29, 1, .ro, 0⟩

/-! `LN[n].APB_CNT` (02_line_formats, R64) -/
def LN.APB_CNT.CRC_ERR : Fld := ⟨.ln, 0x200608, 131072, 64, 0, 1, 0, 16, .rc, 0⟩
def LN.APB_CNT.ALIGN_LOSS : Fld := ⟨.ln, 0x200608, 131072, 64, 0, 1, 16, 8, .rc, 0⟩

/-! `LN[n].CONST_ADV` (02_line_formats, R64) -/
def LN.CONST_ADV.REC : Fld := ⟨.ln, 0x20060C, 131072, 64, 0, 1, 0, 2, .ro, 3⟩
def LN.CONST_ADV.MARGIN_P4 : Fld := ⟨.ln, 0x20060C, 131072, 64, 0, 1, 4, 12, .ro, 0⟩
def LN.CONST_ADV.MARGIN_P6 : Fld := ⟨.ln, 0x20060C, 131072, 64, 0, 1, 16, 12, .ro, 0⟩

/-! `LN[n].CONST_POLICY` (02_line_formats, R64) -/
def LN.CONST_POLICY.HYST : Fld := ⟨.ln, 0x200610, 131072, 64, 0, 1, 0, 8, .rw, 30⟩
def LN.CONST_POLICY.DWELL : Fld := ⟨.ln, 0x200610, 131072, 64, 0, 1, 8, 4, .rw, 8⟩

/-! `LN[n].LATENCY` (02_line_formats, R64) -/
def LN.LATENCY.RX_LAT : Fld := ⟨.ln, 0x200614, 131072, 64, 0, 1, 0, 12, .ro, 0⟩
def LN.LATENCY.TX_LAT : Fld := ⟨.ln, 0x200614, 131072, 64, 0, 1, 12, 12, .ro, 0⟩
def LN.LATENCY.VALID : Fld := ⟨.ln, 0x200614, 131072, 64, 0, 1, 24, 1, .ro, 0⟩

/-! `LN[n].OCM_CTRL` (02_line_formats, R64) -/
def LN.OCM_CTRL.CLEAR : Fld := ⟨.ln, 0x200618, 131072, 64, 0, 1, 0, 1, .wo, 0⟩
def LN.OCM_CTRL.FREEZE : Fld := ⟨.ln, 0x200618, 131072, 64, 0, 1, 1, 1, .rw, 0⟩

/-! `LN[n].OCM_CW` (02_line_formats, R64) -/
def LN.OCM_CW.COUNT : Fld := ⟨.ln, 0x200620, 131072, 64, 0, 1, 0, 64, .ro, 0⟩

/-! `LN[n].OCM_SYM` (02_line_formats, R64) -/
def LN.OCM_SYM.COUNT : Fld := ⟨.ln, 0x200628, 131072, 64, 0, 1, 0, 64, .ro, 0⟩

/-! `LN[n].OCM_UNCORR` (02_line_formats, R64) -/
def LN.OCM_UNCORR.COUNT : Fld := ⟨.ln, 0x200630, 131072, 64, 0, 1, 0, 64, .ro, 0⟩

/-! `LN[n].OCM_HIST` (02_line_formats, R64) -/
def LN.OCM_HIST.BIN_1_3 : Fld := ⟨.ln, 0x200638, 131072, 64, 0, 1, 0, 16, .ro, 0⟩
def LN.OCM_HIST.BIN_4_7 : Fld := ⟨.ln, 0x200638, 131072, 64, 0, 1, 16, 16, .ro, 0⟩
def LN.OCM_HIST.BIN_8_11 : Fld := ⟨.ln, 0x200638, 131072, 64, 0, 1, 32, 16, .ro, 0⟩
def LN.OCM_HIST.BIN_12_15 : Fld := ⟨.ln, 0x200638, 131072, 64, 0, 1, 48, 16, .ro, 0⟩

/-! `LN[n].RX_CTRL` (03_line_receive, R106) -/
def LN.RX_CTRL.AGC_FREEZE : Fld := ⟨.ln, 0x200000, 131072, 64, 0, 1, 0, 1, .rw, 0⟩
def LN.RX_CTRL.CTLE_FREEZE : Fld := ⟨.ln, 0x200000, 131072, 64, 0, 1, 1, 1, .rw, 0⟩
def LN.RX_CTRL.CDR_FREEZE : Fld := ⟨.ln, 0x200000, 131072, 64, 0, 1, 2, 1, .rw, 0⟩
def LN.RX_CTRL.FFE_FREEZE : Fld := ⟨.ln, 0x200000, 131072, 64, 0, 1, 3, 1, .rw, 0⟩
def LN.RX_CTRL.TGT_FREEZE : Fld := ⟨.ln, 0x200000, 131072, 64, 0, 1, 4, 1, .rw, 0⟩
def LN.RX_CTRL.LEVEL_FREEZE : Fld := ⟨.ln, 0x200000, 131072, 64, 0, 1, 5, 1, .rw, 0⟩
def LN.RX_CTRL.SOFT_FREEZE : Fld := ⟨.ln, 0x200000, 131072, 64, 0, 1, 6, 1, .rw, 0⟩
def LN.RX_CTRL.CTLE_TRACK : Fld := ⟨.ln, 0x200000, 131072, 64, 0, 1, 7, 1, .rw, 0⟩
def LN.RX_CTRL.SURVEY_PER : Fld := ⟨.ln, 0x200000, 131072, 64, 0, 1, 8, 2, .rw, 0⟩
def LN.RX_CTRL.SEED_USE : Fld := ⟨.ln, 0x200000, 131072, 64, 0, 1, 10, 1, .rw, 1⟩

/-! `LN[n].RX_STAT` (03_line_receive, R106) -/
def LN.RX_STAT.LANE_STATE : Fld := ⟨.ln, 0x200004, 131072, 64, 0, 1, 0, 3, .ro, 0⟩
def LN.RX_STAT.ACQ_STEP : Fld := ⟨.ln, 0x200004, 131072, 64, 0, 1, 3, 4, .ro, 0⟩
def LN.RX_STAT.LOS : Fld := ⟨.ln, 0x200004, 131072, 64, 0, 1, 7, 1, .ro, 0⟩
def LN.RX_STAT.CDR_LOCK : Fld := ⟨.ln, 0x200004, 131072, 64, 0, 1, 8, 1, .ro, 0⟩
def LN.RX_STAT.FRAME_LOCK : Fld := ⟨.ln, 0x200004, 131072, 64, 0, 1, 9, 1, .ro, 0⟩
def LN.RX_STAT.SEED_LOADED : Fld := ⟨.ln, 0x200004, 131072, 64, 0, 1, 10, 1, .ro, 0⟩
def LN.RX_STAT.SEED_VALID : Fld := ⟨.ln, 0x200004, 131072, 64, 0, 1, 11, 1, .ro, 0⟩
def LN.RX_STAT.FEC_DEG : Fld := ⟨.ln, 0x200004, 131072, 64, 0, 1, 12, 1, .ro, 0⟩
def LN.RX_STAT.GAP_HIGH : Fld := ⟨.ln, 0x200004, 131072, 64, 0, 1, 13, 1, .ro, 0⟩
def LN.RX_STAT.FREEZE_CAUSE : Fld := ⟨.ln, 0x200004, 131072, 64, 0, 1, 14, 4, .ro, 0⟩
def LN.RX_STAT.ACQ_RETRY : Fld := ⟨.ln, 0x200004, 131072, 64, 0, 1, 24, 8, .ro, 0⟩

/-! `LN[n].AGC` (03_line_receive, R106) -/
def LN.AGC.GAIN : Fld := ⟨.ln, 0x200008, 131072, 64, 0, 1, 0, 8, .ro, 48⟩
def LN.AGC.TARGET : Fld := ⟨.ln, 0x200008, 131072, 64, 0, 1, 8, 8, .rw, 80⟩
def LN.AGC.DEADBAND : Fld := ⟨.ln, 0x200008, 131072, 64, 0, 1, 16, 4, .rw, 2⟩
def LN.AGC.LOS_THR : Fld := ⟨.ln, 0x200008, 131072, 64, 0, 1, 24, 8, .rw, 15⟩

/-! `LN[n].CTLE` (03_line_receive, R106) -/
def LN.CTLE.SETTING : Fld := ⟨.ln, 0x20000C, 131072, 64, 0, 1, 0, 4, .ro, 0⟩
def LN.CTLE.MIN : Fld := ⟨.ln, 0x20000C, 131072, 64, 0, 1, 4, 4, .rw, 0⟩
def LN.CTLE.MAX : Fld := ⟨.ln, 0x20000C, 131072, 64, 0, 1, 8, 4, .rw, 15⟩

/-! `LN[n].CDR` (03_line_receive, R106) -/
def LN.CDR.KP : Fld := ⟨.ln, 0x200010, 131072, 64, 0, 1, 0, 4, .rw, 4⟩
def LN.CDR.KI : Fld := ⟨.ln, 0x200010, 131072, 64, 0, 1, 4, 4, .rw, 11⟩
def LN.CDR.LOCK : Fld := ⟨.ln, 0x200010, 131072, 64, 0, 1, 8, 1, .ro, 0⟩
def LN.CDR.FREQ : Fld := ⟨.ln, 0x200010, 131072, 64, 0, 1, 16, 16, .ro, 0⟩

/-! `LN[n].FFE_CTRL` (03_line_receive, R106) -/
def LN.FFE_CTRL.MU_ACQ : Fld := ⟨.ln, 0x200014, 131072, 64, 0, 1, 0, 5, .rw, 10⟩
def LN.FFE_CTRL.MU_TRK : Fld := ⟨.ln, 0x200014, 131072, 64, 0, 1, 5, 5, .rw, 15⟩
def LN.FFE_CTRL.MAIN_POS : Fld := ⟨.ln, 0x200014, 131072, 64, 0, 1, 10, 5, .rw, 12⟩
def LN.FFE_CTRL.TAPS32 : Fld := ⟨.ln, 0x200014, 131072, 64, 0, 1, 15, 1, .ro, 0⟩
def LN.FFE_CTRL.LEAK : Fld := ⟨.ln, 0x200014, 131072, 64, 0, 1, 16, 4, .rw, 0⟩
def LN.FFE_CTRL.GRAD_DEC : Fld := ⟨.ln, 0x200014, 131072, 64, 0, 1, 20, 3, .rw, 3⟩

/-! `LN[n].FFE_TAP` (03_line_receive, R106) -/
def LN.FFE_TAP.INDEX : Fld := ⟨.ln, 0x200018, 131072, 64, 0, 1, 0, 6, .rw, 0⟩
def LN.FFE_TAP.VALUE : Fld := ⟨.ln, 0x200018, 131072, 64, 0, 1, 16, 10, .ro, 0⟩

/-! `LN[n].MLSE_CTRL` (03_line_receive, R106) -/
def LN.MLSE_CTRL.ALPHA1 : Fld := ⟨.ln, 0x20001C, 131072, 64, 0, 1, 0, 4, .ro, 0⟩
def LN.MLSE_CTRL.ALPHA2 : Fld := ⟨.ln, 0x20001C, 131072, 64, 0, 1, 4, 3, .ro, 0⟩
def LN.MLSE_CTRL.STATES8 : Fld := ⟨.ln, 0x20001C, 131072, 64, 0, 1, 7, 1, .ro, 0⟩
def LN.MLSE_CTRL.SOFT_AUTO : Fld := ⟨.ln, 0x20001C, 131072, 64, 0, 1, 8, 1, .rw, 1⟩
def LN.MLSE_CTRL.SOFT_SCALE : Fld := ⟨.ln, 0x20001C, 131072, 64, 0, 1, 9, 8, .rw, 40⟩
def LN.MLSE_CTRL.ALPHA1_MAX : Fld := ⟨.ln, 0x20001C, 131072, 64, 0, 1, 17, 4, .rw, 12⟩

/-! `LN[n].RX_SNR` (03_line_receive, R106) -/
def LN.RX_SNR.SNR_EQ : Fld := ⟨.ln, 0x200020, 131072, 64, 0, 1, 0, 16, .ro, 0⟩
def LN.RX_SNR.SNR_MFB : Fld := ⟨.ln, 0x200020, 131072, 64, 0, 1, 16, 16, .ro, 0⟩

/-! `LN[n].RX_GAP` (03_line_receive, R106) -/
def LN.RX_GAP.GAP : Fld := ⟨.ln, 0x200024, 131072, 64, 0, 1, 0, 12, .ro, 0⟩
def LN.RX_GAP.VALID : Fld := ⟨.ln, 0x200024, 131072, 64, 0, 1, 12, 1, .ro, 0⟩
def LN.RX_GAP.GAP_SET : Fld := ⟨.ln, 0x200024, 131072, 64, 0, 1, 16, 12, .rw, 0⟩
def LN.RX_GAP.GAP_N : Fld := ⟨.ln, 0x200024, 131072, 64, 0, 1, 28, 4, .rw, 4⟩

/-! `LN[n].RX_THRESH` (03_line_receive, R106) -/
def LN.RX_THRESH.DEG_SET : Fld := ⟨.ln, 0x200028, 131072, 64, 0, 1, 0, 8, .rw, 68⟩
def LN.RX_THRESH.DEG_CLR : Fld := ⟨.ln, 0x200028, 131072, 64, 0, 1, 8, 8, .rw, 66⟩
def LN.RX_THRESH.DEG_N : Fld := ⟨.ln, 0x200028, 131072, 64, 0, 1, 16, 4, .rw, 4⟩

/-! `LN[n].DEC_CW` (03_line_receive, R106) -/
def LN.DEC_CW.COUNT : Fld := ⟨.ln, 0x200030, 131072, 64, 0, 1, 0, 64, .ro, 0⟩

/-! `LN[n].DEC_CORR` (03_line_receive, R106) -/
def LN.DEC_CORR.COUNT : Fld := ⟨.ln, 0x200038, 131072, 64, 0, 1, 0, 64, .ro, 0⟩

/-! `LN[n].DEC_UNCORR` (03_line_receive, R106) -/
def LN.DEC_UNCORR.COUNT : Fld := ⟨.ln, 0x200040, 131072, 64, 0, 1, 0, 64, .ro, 0⟩

/-! `LN[n].SLICE_CTRL` (04_slices_and_calibration, R133) -/
def LN.SLICE_CTRL.ROT_PER : Fld := ⟨.ln, 0x200200, 131072, 64, 0, 1, 0, 2, .rw, 0⟩
def LN.SLICE_CTRL.ROT_HOLD : Fld := ⟨.ln, 0x200200, 131072, 64, 0, 1, 2, 1, .rw, 0⟩
def LN.SLICE_CTRL.MON_EN : Fld := ⟨.ln, 0x200200, 131072, 64, 0, 1, 3, 1, .rw, 1⟩
def LN.SLICE_CTRL.SEL : Fld := ⟨.ln, 0x200200, 131072, 64, 0, 1, 8, 7, .rw, 0⟩

/-! `LN[n].SLICE_STAT` (04_slices_and_calibration, R133) -/
def LN.SLICE_STAT.SPARES : Fld := ⟨.ln, 0x200204, 131072, 64, 0, 1, 0, 3, .ro, 0⟩
def LN.SLICE_STAT.ROTATING : Fld := ⟨.ln, 0x200204, 131072, 64, 0, 1, 3, 1, .ro, 0⟩
def LN.SLICE_STAT.STOP_CAUSE : Fld := ⟨.ln, 0x200204, 131072, 64, 0, 1, 4, 8, .ro, 0⟩
def LN.SLICE_STAT.FG_DUE : Fld := ⟨.ln, 0x200204, 131072, 64, 0, 1, 12, 1, .ro, 0⟩
def LN.SLICE_STAT.NO_SPARE : Fld := ⟨.ln, 0x200204, 131072, 64, 0, 1, 13, 1, .ro, 0⟩
def LN.SLICE_STAT.RETIRED : Fld := ⟨.ln, 0x200204, 131072, 64, 0, 1, 14, 3, .ro, 0⟩
def LN.SLICE_STAT.SWAPS : Fld := ⟨.ln, 0x200204, 131072, 64, 0, 1, 24, 8, .ro, 0⟩

/-! `LN[n].SLICE_INFO` (04_slices_and_calibration, R133) -/
def LN.SLICE_INFO.STATE : Fld := ⟨.ln, 0x200208, 131072, 64, 0, 1, 0, 3, .ro, 0⟩
def LN.SLICE_INFO.POS : Fld := ⟨.ln, 0x200208, 131072, 64, 0, 1, 3, 6, .ro, 0⟩
def LN.SLICE_INFO.SUSPECT : Fld := ⟨.ln, 0x200208, 131072, 64, 0, 1, 9, 1, .ro, 0⟩
def LN.SLICE_INFO.SUSPECT_RUN : Fld := ⟨.ln, 0x200208, 131072, 64, 0, 1, 10, 2, .ro, 0⟩
def LN.SLICE_INFO.FROM_MAP : Fld := ⟨.ln, 0x200208, 131072, 64, 0, 1, 12, 1, .ro, 0⟩
def LN.SLICE_INFO.AGE : Fld := ⟨.ln, 0x200208, 131072, 64, 0, 1, 16, 16, .ro, 0⟩

/-! `LN[n].CAL_STAT` (04_slices_and_calibration, R133) -/
def LN.CAL_STAT.FIRST_DONE : Fld := ⟨.ln, 0x20020C, 131072, 64, 0, 1, 0, 1, .ro, 0⟩
def LN.CAL_STAT.SUSPECT : Fld := ⟨.ln, 0x20020C, 131072, 64, 0, 1, 1, 6, .ro, 0⟩
def LN.CAL_STAT.PENDING : Fld := ⟨.ln, 0x20020C, 131072, 64, 0, 1, 7, 6, .ro, 0⟩
def LN.CAL_STAT.FROZEN : Fld := ⟨.ln, 0x20020C, 131072, 64, 0, 1, 13, 1, .ro, 0⟩
def LN.CAL_STAT.DT_MAX : Fld := ⟨.ln, 0x20020C, 131072, 64, 0, 1, 16, 12, .ro, 0⟩

/-! `LN[n].TX_CTRL` (05_line_transmit, R156) -/
def LN.TX_CTRL.FIR_COMMIT : Fld := ⟨.ln, 0x200400, 131072, 64, 0, 1, 0, 1, .wo, 0⟩
def LN.TX_CTRL.SQUELCH : Fld := ⟨.ln, 0x200400, 131072, 64, 0, 1, 1, 1, .rw, 0⟩
def LN.TX_CTRL.DRIVE : Fld := ⟨.ln, 0x200400, 131072, 64, 0, 1, 2, 2, .ro, 0⟩
def LN.TX_CTRL.MASK : Fld := ⟨.ln, 0x200400, 131072, 64, 0, 1, 4, 2, .rw, 1⟩
def LN.TX_CTRL.SWING : Fld := ⟨.ln, 0x200400, 131072, 64, 0, 1, 6, 6, .rw, 24⟩
def LN.TX_CTRL.CM_SEL : Fld := ⟨.ln, 0x200400, 131072, 64, 0, 1, 12, 1, .rw, 0⟩
def LN.TX_CTRL.LVL_OUTER : Fld := ⟨.ln, 0x200400, 131072, 64, 0, 1, 14, 6, .rw, 0⟩

/-! `LN[n].TX_STAT` (05_line_transmit, R156) -/
def LN.TX_STAT.TX_ACTIVE : Fld := ⟨.ln, 0x200404, 131072, 64, 0, 1, 0, 1, .ro, 0⟩
def LN.TX_STAT.IDLE_CAUSE : Fld := ⟨.ln, 0x200404, 131072, 64, 0, 1, 1, 5, .ro, 1⟩
def LN.TX_STAT.FIR_PENDING : Fld := ⟨.ln, 0x200404, 131072, 64, 0, 1, 6, 1, .ro, 0⟩
def LN.TX_STAT.FIR_REJECT : Fld := ⟨.ln, 0x200404, 131072, 64, 0, 1, 7, 1, .w1c, 0⟩
def LN.TX_STAT.REJECT_CAUSE : Fld := ⟨.ln, 0x200404, 131072, 64, 0, 1, 8, 2, .ro, 0⟩
def LN.TX_STAT.SKEW_SLEWING : Fld := ⟨.ln, 0x200404, 131072, 64, 0, 1, 10, 1, .ro, 0⟩
def LN.TX_STAT.BOOST_MAX : Fld := ⟨.ln, 0x200404, 131072, 64, 0, 1, 16, 8, .ro, 0⟩

/-! `LN[n].TX_FIR` (05_line_transmit, R156) -/
def LN.TX_FIR.INDEX : Fld := ⟨.ln, 0x200408, 131072, 64, 0, 1, 0, 3, .rw, 0⟩
def LN.TX_FIR.VALUE : Fld := ⟨.ln, 0x200408, 131072, 64, 0, 1, 8, 10, .rw, 0⟩
def LN.TX_FIR.WR_EN : Fld := ⟨.ln, 0x200408, 131072, 64, 0, 1, 30, 1, .wo, 0⟩
def LN.TX_FIR.SRC : Fld := ⟨.ln, 0x200408, 131072, 64, 0, 1, 31, 1, .rw, 0⟩

/-! `LN[n].PRBS_CTRL` (05_line_transmit, R156) -/
def LN.PRBS_CTRL.GEN_PAT : Fld := ⟨.ln, 0x20040C, 131072, 64, 0, 1, 0, 3, .rw, 5⟩
def LN.PRBS_CTRL.GEN_EN : Fld := ⟨.ln, 0x20040C, 131072, 64, 0, 1, 3, 1, .rw, 0⟩
def LN.PRBS_CTRL.CHK_PAT : Fld := ⟨.ln, 0x20040C, 131072, 64, 0, 1, 4, 3, .rw, 5⟩
def LN.PRBS_CTRL.CHK_EN : Fld := ⟨.ln, 0x20040C, 131072, 64, 0, 1, 7, 1, .rw, 0⟩
def LN.PRBS_CTRL.LOOP : Fld := ⟨.ln, 0x20040C, 131072, 64, 0, 1, 8, 2, .rw, 0⟩
def LN.PRBS_CTRL.INJ_K : Fld := ⟨.ln, 0x20040C, 131072, 64, 0, 1, 10, 6, .rw, 0⟩
def LN.PRBS_CTRL.INJ_ONE : Fld := ⟨.ln, 0x20040C, 131072, 64, 0, 1, 16, 1, .wo, 0⟩
def LN.PRBS_CTRL.CHK_LOCK : Fld := ⟨.ln, 0x20040C, 131072, 64, 0, 1, 17, 1, .ro, 0⟩
def LN.PRBS_CTRL.ERR_CLEAR : Fld := ⟨.ln, 0x20040C, 131072, 64, 0, 1, 18, 1, .wo, 0⟩

/-! `LN[n].PRBS_ERR` (05_line_transmit, R156) -/
def LN.PRBS_ERR.COUNT : Fld := ⟨.ln, 0x200410, 131072, 64, 0, 1, 0, 64, .ro, 0⟩

/-! `LN[n].BST_CTRL` (06_burst_acquisition, R190) -/
def LN.BST_CTRL.POLICY : Fld := ⟨.ln, 0x200800, 131072, 64, 0, 1, 0, 1, .rw, 0⟩
def LN.BST_CTRL.FORCE_WIDE : Fld := ⟨.ln, 0x200800, 131072, 64, 0, 1, 1, 1, .rw, 0⟩
def LN.BST_CTRL.MISS_REC : Fld := ⟨.ln, 0x200800, 131072, 64, 0, 1, 2, 1, .rw, 1⟩
def LN.BST_CTRL.CNT_CLEAR : Fld := ⟨.ln, 0x200800, 131072, 64, 0, 1, 3, 1, .wo, 0⟩
def LN.BST_CTRL.LOS_EPOCHS : Fld := ⟨.ln, 0x200800, 131072, 64, 0, 1, 4, 4, .rw, 4⟩
def LN.BST_CTRL.OVL_DB : Fld := ⟨.ln, 0x200800, 131072, 64, 0, 1, 8, 8, .rw, 12⟩
def LN.BST_CTRL.NARROW_Q : Fld := ⟨.ln, 0x200800, 131072, 64, 0, 1, 16, 8, .rw, 64⟩
def LN.BST_CTRL.ONSET_THR : Fld := ⟨.ln, 0x200800, 131072, 64, 0, 1, 24, 8, .rw, 15⟩

/-! `LN[n].BST_DET` (06_burst_acquisition, R190) -/
def LN.BST_DET.DET_THR : Fld := ⟨.ln, 0x200804, 131072, 64, 0, 1, 0, 6, .rw, 40⟩
def LN.BST_DET.DET_CONF : Fld := ⟨.ln, 0x200804, 131072, 64, 0, 1, 6, 3, .rw, 2⟩
def LN.BST_DET.CAP_THR : Fld := ⟨.ln, 0x200804, 131072, 64, 0, 1, 9, 6, .rw, 60⟩
def LN.BST_DET.RESTART_DB : Fld := ⟨.ln, 0x200804, 131072, 64, 0, 1, 16, 4, .rw, 6⟩
def LN.BST_DET.KP_B : Fld := ⟨.ln, 0x200804, 131072, 64, 0, 1, 20, 4, .rw, 6⟩
def LN.BST_DET.AGC_START : Fld := ⟨.ln, 0x200804, 131072, 64, 0, 1, 24, 8, .rw, 48⟩

/-! `LN[n].BST_STAT` (06_burst_acquisition, R190) -/
def LN.BST_STAT.RX_PHASE : Fld := ⟨.ln, 0x200808, 131072, 64, 0, 1, 0, 3, .ro, 0⟩
def LN.BST_STAT.SLOT : Fld := ⟨.ln, 0x200808, 131072, 64, 0, 1, 3, 6, .ro, 0⟩
def LN.BST_STAT.NARROW : Fld := ⟨.ln, 0x200808, 131072, 64, 0, 1, 9, 1, .ro, 0⟩
def LN.BST_STAT.LOS : Fld := ⟨.ln, 0x200808, 131072, 64, 0, 1, 10, 1, .ro, 0⟩
def LN.BST_STAT.SOURCES_NARROW : Fld := ⟨.ln, 0x200808, 131072, 64, 0, 1, 16, 7, .ro, 0⟩

/-! `LN[n].BST_LAST` (06_burst_acquisition, R190) -/
def LN.BST_LAST.STATUS : Fld := ⟨.ln, 0x20080C, 131072, 64, 0, 1, 0, 8, .ro, 0⟩
def LN.BST_LAST.QUAL : Fld := ⟨.ln, 0x20080C, 131072, 64, 0, 1, 8, 8, .ro, 0⟩
def LN.BST_LAST.ARRIVAL : Fld := ⟨.ln, 0x20080C, 131072, 64, 0, 1, 16, 16, .ro, 0⟩

/-! `LN[n].BST_BURSTS` (06_burst_acquisition, R190) -/
def LN.BST_BURSTS.OK : Fld := ⟨.ln, 0x200810, 131072, 64, 0, 1, 0, 64, .ro, 0⟩

/-! `LN[n].MORTAR_DROP` (07_mortar, R213) -/
def LN.MORTAR_DROP.RX_BLOCKS : Fld := ⟨.ln, 0x200A00, 131072, 64, 0, 1, 0, 32, .ro, 0⟩
def LN.MORTAR_DROP.TX_BLOCKS : Fld := ⟨.ln, 0x200A00, 131072, 64, 0, 1, 32, 32, .ro, 0⟩

/-! `LN[n].BST_EXC_A` (06_burst_acquisition, R190) -/
def LN.BST_EXC_A.FALSE_START : Fld := ⟨.ln, 0x200818, 131072, 64, 0, 1, 0, 16, .ro, 0⟩
def LN.BST_EXC_A.RESTART : Fld := ⟨.ln, 0x200818, 131072, 64, 0, 1, 16, 16, .ro, 0⟩
def LN.BST_EXC_A.OVERLAP : Fld := ⟨.ln, 0x200818, 131072, 64, 0, 1, 32, 16, .ro, 0⟩
def LN.BST_EXC_A.PREEMPTED : Fld := ⟨.ln, 0x200818, 131072, 64, 0, 1, 48, 16, .ro, 0⟩

/-! `LN[n].BST_EXC_B` (06_burst_acquisition, R190) -/
def LN.BST_EXC_B.TRUNCATED : Fld := ⟨.ln, 0x200820, 131072, 64, 0, 1, 0, 16, .ro, 0⟩
def LN.BST_EXC_B.NO_END : Fld := ⟨.ln, 0x200820, 131072, 64, 0, 1, 16, 16, .ro, 0⟩
def LN.BST_EXC_B.MISSED : Fld := ⟨.ln, 0x200820, 131072, 64, 0, 1, 32, 16, .ro, 0⟩
def LN.BST_EXC_B.TX_MISSED : Fld := ⟨.ln, 0x200820, 131072, 64, 0, 1, 48, 16, .ro, 0⟩

/-! `LN[n].BST_EXC_C` (06_burst_acquisition, R190) -/
def LN.BST_EXC_C.TX_LATE : Fld := ⟨.ln, 0x200828, 131072, 64, 0, 1, 0, 16, .ro, 0⟩
def LN.BST_EXC_C.TX_BAD : Fld := ⟨.ln, 0x200828, 131072, 64, 0, 1, 16, 16, .ro, 0⟩
def LN.BST_EXC_C.TX_UNDERRUN : Fld := ⟨.ln, 0x200828, 131072, 64, 0, 1, 32, 16, .ro, 0⟩

/-- Fields of block ln, part 0. -/
def lnFields0 : List Fld :=
  [LN.FMT_CFG.MODE, LN.FMT_CFG.CONST, LN.FMT_CFG.PRECODE, LN.FMT_CFG.INNER_BYPASS,
   LN.FMT_CFG.CHASE_L, LN.FMT_CFG.OCM_EN, LN.FMT_STAT.ALIGNED, LN.FMT_STAT.SF_PHASE,
   LN.FMT_STAT.FAR_RDI, LN.FMT_STAT.FAR_DEGRADE, LN.FMT_STAT.FAR_SRC_FAULT, LN.FMT_STAT.FAR_LANE,
   LN.FMT_STAT.FAR_CONST, LN.FMT_STAT.HOST_A_ALIGNED, LN.FMT_STAT.HOST_B_ALIGNED, LN.FMT_STAT.OCM_LOCK,
   LN.FMT_STAT.DESKEW, LN.FMT_STAT.SKEW_OVR, LN.APB_CNT.CRC_ERR, LN.APB_CNT.ALIGN_LOSS,
   LN.CONST_ADV.REC, LN.CONST_ADV.MARGIN_P4, LN.CONST_ADV.MARGIN_P6, LN.CONST_POLICY.HYST,
   LN.CONST_POLICY.DWELL, LN.LATENCY.RX_LAT, LN.LATENCY.TX_LAT, LN.LATENCY.VALID,
   LN.OCM_CTRL.CLEAR, LN.OCM_CTRL.FREEZE, LN.OCM_CW.COUNT, LN.OCM_SYM.COUNT,
   LN.OCM_UNCORR.COUNT, LN.OCM_HIST.BIN_1_3, LN.OCM_HIST.BIN_4_7, LN.OCM_HIST.BIN_8_11,
   LN.OCM_HIST.BIN_12_15, LN.RX_CTRL.AGC_FREEZE, LN.RX_CTRL.CTLE_FREEZE, LN.RX_CTRL.CDR_FREEZE]

/-- Fields of block ln, part 1. -/
def lnFields1 : List Fld :=
  [LN.RX_CTRL.FFE_FREEZE, LN.RX_CTRL.TGT_FREEZE, LN.RX_CTRL.LEVEL_FREEZE, LN.RX_CTRL.SOFT_FREEZE,
   LN.RX_CTRL.CTLE_TRACK, LN.RX_CTRL.SURVEY_PER, LN.RX_CTRL.SEED_USE, LN.RX_STAT.LANE_STATE,
   LN.RX_STAT.ACQ_STEP, LN.RX_STAT.LOS, LN.RX_STAT.CDR_LOCK, LN.RX_STAT.FRAME_LOCK,
   LN.RX_STAT.SEED_LOADED, LN.RX_STAT.SEED_VALID, LN.RX_STAT.FEC_DEG, LN.RX_STAT.GAP_HIGH,
   LN.RX_STAT.FREEZE_CAUSE, LN.RX_STAT.ACQ_RETRY, LN.AGC.GAIN, LN.AGC.TARGET,
   LN.AGC.DEADBAND, LN.AGC.LOS_THR, LN.CTLE.SETTING, LN.CTLE.MIN,
   LN.CTLE.MAX, LN.CDR.KP, LN.CDR.KI, LN.CDR.LOCK,
   LN.CDR.FREQ, LN.FFE_CTRL.MU_ACQ, LN.FFE_CTRL.MU_TRK, LN.FFE_CTRL.MAIN_POS,
   LN.FFE_CTRL.TAPS32, LN.FFE_CTRL.LEAK, LN.FFE_CTRL.GRAD_DEC, LN.FFE_TAP.INDEX,
   LN.FFE_TAP.VALUE, LN.MLSE_CTRL.ALPHA1, LN.MLSE_CTRL.ALPHA2, LN.MLSE_CTRL.STATES8]

/-- Fields of block ln, part 2. -/
def lnFields2 : List Fld :=
  [LN.MLSE_CTRL.SOFT_AUTO, LN.MLSE_CTRL.SOFT_SCALE, LN.MLSE_CTRL.ALPHA1_MAX, LN.RX_SNR.SNR_EQ,
   LN.RX_SNR.SNR_MFB, LN.RX_GAP.GAP, LN.RX_GAP.VALID, LN.RX_GAP.GAP_SET,
   LN.RX_GAP.GAP_N, LN.RX_THRESH.DEG_SET, LN.RX_THRESH.DEG_CLR, LN.RX_THRESH.DEG_N,
   LN.DEC_CW.COUNT, LN.DEC_CORR.COUNT, LN.DEC_UNCORR.COUNT, LN.SLICE_CTRL.ROT_PER,
   LN.SLICE_CTRL.ROT_HOLD, LN.SLICE_CTRL.MON_EN, LN.SLICE_CTRL.SEL, LN.SLICE_STAT.SPARES,
   LN.SLICE_STAT.ROTATING, LN.SLICE_STAT.STOP_CAUSE, LN.SLICE_STAT.FG_DUE, LN.SLICE_STAT.NO_SPARE,
   LN.SLICE_STAT.RETIRED, LN.SLICE_STAT.SWAPS, LN.SLICE_INFO.STATE, LN.SLICE_INFO.POS,
   LN.SLICE_INFO.SUSPECT, LN.SLICE_INFO.SUSPECT_RUN, LN.SLICE_INFO.FROM_MAP, LN.SLICE_INFO.AGE,
   LN.CAL_STAT.FIRST_DONE, LN.CAL_STAT.SUSPECT, LN.CAL_STAT.PENDING, LN.CAL_STAT.FROZEN,
   LN.CAL_STAT.DT_MAX, LN.TX_CTRL.FIR_COMMIT, LN.TX_CTRL.SQUELCH, LN.TX_CTRL.DRIVE]

/-- Fields of block ln, part 3. -/
def lnFields3 : List Fld :=
  [LN.TX_CTRL.MASK, LN.TX_CTRL.SWING, LN.TX_CTRL.CM_SEL, LN.TX_CTRL.LVL_OUTER,
   LN.TX_STAT.TX_ACTIVE, LN.TX_STAT.IDLE_CAUSE, LN.TX_STAT.FIR_PENDING, LN.TX_STAT.FIR_REJECT,
   LN.TX_STAT.REJECT_CAUSE, LN.TX_STAT.SKEW_SLEWING, LN.TX_STAT.BOOST_MAX, LN.TX_FIR.INDEX,
   LN.TX_FIR.VALUE, LN.TX_FIR.WR_EN, LN.TX_FIR.SRC, LN.PRBS_CTRL.GEN_PAT,
   LN.PRBS_CTRL.GEN_EN, LN.PRBS_CTRL.CHK_PAT, LN.PRBS_CTRL.CHK_EN, LN.PRBS_CTRL.LOOP,
   LN.PRBS_CTRL.INJ_K, LN.PRBS_CTRL.INJ_ONE, LN.PRBS_CTRL.CHK_LOCK, LN.PRBS_CTRL.ERR_CLEAR,
   LN.PRBS_ERR.COUNT, LN.BST_CTRL.POLICY, LN.BST_CTRL.FORCE_WIDE, LN.BST_CTRL.MISS_REC,
   LN.BST_CTRL.CNT_CLEAR, LN.BST_CTRL.LOS_EPOCHS, LN.BST_CTRL.OVL_DB, LN.BST_CTRL.NARROW_Q,
   LN.BST_CTRL.ONSET_THR, LN.BST_DET.DET_THR, LN.BST_DET.DET_CONF, LN.BST_DET.CAP_THR,
   LN.BST_DET.RESTART_DB, LN.BST_DET.KP_B, LN.BST_DET.AGC_START, LN.BST_STAT.RX_PHASE]

/-- Fields of block ln, part 4. -/
def lnFields4 : List Fld :=
  [LN.BST_STAT.SLOT, LN.BST_STAT.NARROW, LN.BST_STAT.LOS, LN.BST_STAT.SOURCES_NARROW,
   LN.BST_LAST.STATUS, LN.BST_LAST.QUAL, LN.BST_LAST.ARRIVAL, LN.BST_BURSTS.OK,
   LN.MORTAR_DROP.RX_BLOCKS, LN.MORTAR_DROP.TX_BLOCKS, LN.BST_EXC_A.FALSE_START, LN.BST_EXC_A.RESTART,
   LN.BST_EXC_A.OVERLAP, LN.BST_EXC_A.PREEMPTED, LN.BST_EXC_B.TRUNCATED, LN.BST_EXC_B.NO_END,
   LN.BST_EXC_B.MISSED, LN.BST_EXC_B.TX_MISSED, LN.BST_EXC_C.TX_LATE, LN.BST_EXC_C.TX_BAD,
   LN.BST_EXC_C.TX_UNDERRUN]

/-- Every field of block ln. -/
def lnFields : List Fld := lnFields0 ++ lnFields1 ++ lnFields2 ++ lnFields3 ++ lnFields4

/-! `HL.QUAD_STAT[q]` (08_host_lanes, R229) -/
def HL.QUAD_STAT.PWR_ON : Fld := ⟨.hq, 0x300000, 524288, 4, 0, 1, 0, 1, .ro, 0⟩
def HL.QUAD_STAT.PLL_LOCK : Fld := ⟨.hq, 0x300000, 524288, 4, 0, 1, 1, 1, .ro, 0⟩
def HL.QUAD_STAT.PAD_HELD : Fld := ⟨.hq, 0x300000, 524288, 4, 0, 1, 2, 1, .ro, 0⟩
def HL.QUAD_STAT.LOCKED : Fld := ⟨.hq, 0x300000, 524288, 4, 0, 1, 8, 6, .ro, 0⟩

/-! `HL.QUAD_LOCK[q]` (08_host_lanes, R229) -/
def HL.QUAD_LOCK.LANE : Fld := ⟨.hq, 0x300004, 524288, 4, 1, 32, 0, 1, .ro, 0⟩

/-! `HL.QUAD_CHG[q]` (08_host_lanes, R229) -/
def HL.QUAD_CHG.LANE : Fld := ⟨.hq, 0x300008, 524288, 4, 1, 32, 0, 1, .w1c, 0⟩

/-- Fields of block hq, part 0. -/
def hqFields0 : List Fld :=
  [HL.QUAD_STAT.PWR_ON, HL.QUAD_STAT.PLL_LOCK, HL.QUAD_STAT.PAD_HELD, HL.QUAD_STAT.LOCKED,
   HL.QUAD_LOCK.LANE, HL.QUAD_CHG.LANE]

/-- Every field of block hq. -/
def hqFields : List Fld := hqFields0

/-! `HL[k].CTRL` (08_host_lanes, R229) -/
def HL.CTRL.RX_INV : Fld := ⟨.hl, 0x301000, 0, 128, 0, 1, 0, 1, .rw, 0⟩
def HL.CTRL.TX_INV : Fld := ⟨.hl, 0x301000, 0, 128, 0, 1, 1, 1, .rw, 0⟩
def HL.CTRL.PROFILE : Fld := ⟨.hl, 0x301000, 0, 128, 0, 1, 2, 2, .rw, 0⟩
def HL.CTRL.TX_SQUELCH : Fld := ⟨.hl, 0x301000, 0, 128, 0, 1, 4, 1, .rw, 0⟩
def HL.CTRL.PRECODE_TX : Fld := ⟨.hl, 0x301000, 0, 128, 0, 1, 5, 1, .rw, 0⟩
def HL.CTRL.PRECODE_RX : Fld := ⟨.hl, 0x301000, 0, 128, 0, 1, 6, 1, .rw, 0⟩

/-! `HL[k].STAT` (08_host_lanes, R229) -/
def HL.STAT.STATE : Fld := ⟨.hl, 0x301004, 0, 128, 0, 1, 0, 3, .ro, 0⟩
def HL.STAT.RATE : Fld := ⟨.hl, 0x301004, 0, 128, 0, 1, 3, 1, .ro, 0⟩
def HL.STAT.LOS : Fld := ⟨.hl, 0x301004, 0, 128, 0, 1, 4, 1, .ro, 0⟩
def HL.STAT.CDR_LOCK : Fld := ⟨.hl, 0x301004, 0, 128, 0, 1, 5, 1, .ro, 0⟩
def HL.STAT.SIG_LOCK : Fld := ⟨.hl, 0x301004, 0, 128, 0, 1, 6, 1, .ro, 0⟩
def HL.STAT.PRE_TX_ON : Fld := ⟨.hl, 0x301004, 0, 128, 0, 1, 7, 1, .ro, 0⟩
def HL.STAT.PRE_RX_ON : Fld := ⟨.hl, 0x301004, 0, 128, 0, 1, 8, 1, .ro, 0⟩
def HL.STAT.TX_SRC : Fld := ⟨.hl, 0x301004, 0, 128, 0, 1, 9, 2, .ro, 0⟩
def HL.STAT.EQ_REJECT : Fld := ⟨.hl, 0x301004, 0, 128, 0, 1, 11, 1, .w1c, 0⟩

/-! `HL[k].TRAIN_CTRL` (08_host_lanes, R229) -/
def HL.TRAIN_CTRL.EN : Fld := ⟨.hl, 0x301008, 0, 128, 0, 1, 0, 1, .rw, 1⟩
def HL.TRAIN_CTRL.RESTART : Fld := ⟨.hl, 0x301008, 0, 128, 0, 1, 1, 1, .wo, 0⟩
def HL.TRAIN_CTRL.PRECODE_REQ : Fld := ⟨.hl, 0x301008, 0, 128, 0, 1, 2, 1, .rw, 0⟩
def HL.TRAIN_CTRL.INIT_PRESET : Fld := ⟨.hl, 0x301008, 0, 128, 0, 1, 3, 2, .rw, 1⟩
def HL.TRAIN_CTRL.TIMEOUT : Fld := ⟨.hl, 0x301008, 0, 128, 0, 1, 8, 8, .rw, 20⟩

/-! `HL[k].TRAIN_STAT` (08_host_lanes, R229) -/
def HL.TRAIN_STAT.RESULT : Fld := ⟨.hl, 0x30100C, 0, 128, 0, 1, 0, 2, .ro, 0⟩
def HL.TRAIN_STAT.LOCAL_READY : Fld := ⟨.hl, 0x30100C, 0, 128, 0, 1, 2, 1, .ro, 0⟩
def HL.TRAIN_STAT.REMOTE_READY : Fld := ⟨.hl, 0x30100C, 0, 128, 0, 1, 3, 1, .ro, 0⟩
def HL.TRAIN_STAT.ATTEMPTS : Fld := ⟨.hl, 0x30100C, 0, 128, 0, 1, 4, 8, .ro, 0⟩
def HL.TRAIN_STAT.LAST_TIME : Fld := ⟨.hl, 0x30100C, 0, 128, 0, 1, 16, 16, .ro, 0⟩

/-! `HL[k].TX_EQ` (08_host_lanes, R229) -/
def HL.TX_EQ.INDEX : Fld := ⟨.hl, 0x301010, 0, 128, 0, 1, 0, 3, .rw, 0⟩
def HL.TX_EQ.VALUE : Fld := ⟨.hl, 0x301010, 0, 128, 0, 1, 8, 8, .rw, 0⟩
def HL.TX_EQ.WR_EN : Fld := ⟨.hl, 0x301010, 0, 128, 0, 1, 31, 1, .wo, 0⟩

/-! `HL[k].RX_EQ` (08_host_lanes, R229) -/
def HL.RX_EQ.CTLE : Fld := ⟨.hl, 0x301014, 0, 128, 0, 1, 0, 4, .ro, 0⟩
def HL.RX_EQ.VGA : Fld := ⟨.hl, 0x301014, 0, 128, 0, 1, 4, 8, .ro, 0⟩
def HL.RX_EQ.SNR : Fld := ⟨.hl, 0x301014, 0, 128, 0, 1, 16, 12, .ro, 0⟩

/-! `HL[k].PRBS_CTRL` (08_host_lanes, R229) -/
def HL.PRBS_CTRL.GEN_PAT : Fld := ⟨.hl, 0x301018, 0, 128, 0, 1, 0, 4, .rw, 7⟩
def HL.PRBS_CTRL.GEN_EN : Fld := ⟨.hl, 0x301018, 0, 128, 0, 1, 4, 1, .rw, 0⟩
def HL.PRBS_CTRL.CHK_PAT : Fld := ⟨.hl, 0x301018, 0, 128, 0, 1, 5, 4, .rw, 7⟩
def HL.PRBS_CTRL.CHK_EN : Fld := ⟨.hl, 0x301018, 0, 128, 0, 1, 9, 1, .rw, 0⟩
def HL.PRBS_CTRL.LOOP : Fld := ⟨.hl, 0x301018, 0, 128, 0, 1, 10, 2, .rw, 0⟩
def HL.PRBS_CTRL.INJ_K : Fld := ⟨.hl, 0x301018, 0, 128, 0, 1, 12, 6, .rw, 0⟩
def HL.PRBS_CTRL.INJ_ONE : Fld := ⟨.hl, 0x301018, 0, 128, 0, 1, 18, 1, .wo, 0⟩
def HL.PRBS_CTRL.CHK_LOCK : Fld := ⟨.hl, 0x301018, 0, 128, 0, 1, 19, 1, .ro, 0⟩
def HL.PRBS_CTRL.ERR_CLEAR : Fld := ⟨.hl, 0x301018, 0, 128, 0, 1, 20, 1, .wo, 0⟩

/-! `HL[k].PRBS_ERR` (08_host_lanes, R229) -/
def HL.PRBS_ERR.COUNT : Fld := ⟨.hl, 0x301020, 0, 128, 0, 1, 0, 64, .ro, 0⟩

/-- Fields of block hl, part 0. -/
def hlFields0 : List Fld :=
  [HL.CTRL.RX_INV, HL.CTRL.TX_INV, HL.CTRL.PROFILE, HL.CTRL.TX_SQUELCH,
   HL.CTRL.PRECODE_TX, HL.CTRL.PRECODE_RX, HL.STAT.STATE, HL.STAT.RATE,
   HL.STAT.LOS, HL.STAT.CDR_LOCK, HL.STAT.SIG_LOCK, HL.STAT.PRE_TX_ON,
   HL.STAT.PRE_RX_ON, HL.STAT.TX_SRC, HL.STAT.EQ_REJECT, HL.TRAIN_CTRL.EN,
   HL.TRAIN_CTRL.RESTART, HL.TRAIN_CTRL.PRECODE_REQ, HL.TRAIN_CTRL.INIT_PRESET, HL.TRAIN_CTRL.TIMEOUT,
   HL.TRAIN_STAT.RESULT, HL.TRAIN_STAT.LOCAL_READY, HL.TRAIN_STAT.REMOTE_READY, HL.TRAIN_STAT.ATTEMPTS,
   HL.TRAIN_STAT.LAST_TIME, HL.TX_EQ.INDEX, HL.TX_EQ.VALUE, HL.TX_EQ.WR_EN,
   HL.RX_EQ.CTLE, HL.RX_EQ.VGA, HL.RX_EQ.SNR, HL.PRBS_CTRL.GEN_PAT,
   HL.PRBS_CTRL.GEN_EN, HL.PRBS_CTRL.CHK_PAT, HL.PRBS_CTRL.CHK_EN, HL.PRBS_CTRL.LOOP,
   HL.PRBS_CTRL.INJ_K, HL.PRBS_CTRL.INJ_ONE, HL.PRBS_CTRL.CHK_LOCK, HL.PRBS_CTRL.ERR_CLEAR]

/-- Fields of block hl, part 1. -/
def hlFields1 : List Fld :=
  [HL.PRBS_ERR.COUNT]

/-- Every field of block hl. -/
def hlFields : List Fld := hlFields0 ++ hlFields1

/-! `FLK.CTRL` (10_twin_pairing, R289) -/
def FLK.CTRL.RETRAIN : Fld := ⟨.flk, 0x340000, 0, 1, 0, 1, 0, 1, .wo, 0⟩
def FLK.CTRL.FL1_EN : Fld := ⟨.flk, 0x340000, 0, 1, 0, 1, 1, 1, .rw, 1⟩
def FLK.CTRL.FL2_REQ : Fld := ⟨.flk, 0x340000, 0, 1, 0, 1, 2, 1, .rw, 0⟩

/-! `FLK.STAT` (10_twin_pairing, R289) -/
def FLK.STAT.LINK_STATE : Fld := ⟨.flk, 0x340004, 0, 1, 0, 1, 0, 3, .ro, 0⟩
def FLK.STAT.LP_STATE : Fld := ⟨.flk, 0x340004, 0, 1, 0, 1, 3, 2, .ro, 0⟩
def FLK.STAT.RETRIES : Fld := ⟨.flk, 0x340004, 0, 1, 0, 1, 5, 8, .ro, 0⟩
def FLK.STAT.RTT : Fld := ⟨.flk, 0x340004, 0, 1, 0, 1, 16, 16, .ro, 0⟩

/-! `FLK.TWIN_CFG` (10_twin_pairing, R289) -/
def FLK.TWIN_CFG.EN : Fld := ⟨.flk, 0x340008, 0, 1, 0, 1, 0, 1, .rw, 1⟩
def FLK.TWIN_CFG.AUTO : Fld := ⟨.flk, 0x340008, 0, 1, 0, 1, 1, 1, .rw, 1⟩
def FLK.TWIN_CFG.DEG_POLICY : Fld := ⟨.flk, 0x340008, 0, 1, 0, 1, 2, 1, .rw, 0⟩

/-! `FLK.TWIN_STAT` (10_twin_pairing, R289) -/
def FLK.TWIN_STAT.STATE : Fld := ⟨.flk, 0x34000C, 0, 1, 0, 1, 0, 3, .ro, 0⟩
def FLK.TWIN_STAT.ROLE_STRAP : Fld := ⟨.flk, 0x34000C, 0, 1, 0, 1, 3, 2, .ro, 0⟩
def FLK.TWIN_STAT.SOLO_CAUSE : Fld := ⟨.flk, 0x34000C, 0, 1, 0, 1, 5, 3, .ro, 0⟩
def FLK.TWIN_STAT.DEG_CAUSE : Fld := ⟨.flk, 0x34000C, 0, 1, 0, 1, 8, 3, .ro, 0⟩
def FLK.TWIN_STAT.TWIN_SILENT : Fld := ⟨.flk, 0x34000C, 0, 1, 0, 1, 11, 1, .ro, 0⟩
def FLK.TWIN_STAT.MIRROR_VER : Fld := ⟨.flk, 0x34000C, 0, 1, 0, 1, 16, 8, .ro, 0⟩

/-! `FLK.MIRROR_STAT` (10_twin_pairing, R289) -/
def FLK.MIRROR_STAT.LAST_SEQ : Fld := ⟨.flk, 0x340014, 0, 1, 0, 1, 0, 24, .ro, 0⟩
def FLK.MIRROR_STAT.RESENDS : Fld := ⟨.flk, 0x340014, 0, 1, 0, 1, 24, 8, .rc, 0⟩

/-! `FLK.TWIN_COURSE` (10_twin_pairing, R289) -/
def FLK.TWIN_COURSE.ACTIVE : Fld := ⟨.flk, 0x340010, 4, 8, 0, 1, 0, 1, .ro, 0⟩
def FLK.TWIN_COURSE.ARMED : Fld := ⟨.flk, 0x340010, 4, 8, 0, 1, 1, 1, .ro, 0⟩
def FLK.TWIN_COURSE.WARM : Fld := ⟨.flk, 0x340010, 4, 8, 0, 1, 2, 1, .ro, 0⟩
def FLK.TWIN_COURSE.TX_ALIGN : Fld := ⟨.flk, 0x340010, 4, 8, 0, 1, 3, 1, .ro, 0⟩

/-- Fields of block flk, part 0. -/
def flkFields0 : List Fld :=
  [FLK.CTRL.RETRAIN, FLK.CTRL.FL1_EN, FLK.CTRL.FL2_REQ, FLK.STAT.LINK_STATE,
   FLK.STAT.LP_STATE, FLK.STAT.RETRIES, FLK.STAT.RTT, FLK.TWIN_CFG.EN,
   FLK.TWIN_CFG.AUTO, FLK.TWIN_CFG.DEG_POLICY, FLK.TWIN_STAT.STATE, FLK.TWIN_STAT.ROLE_STRAP,
   FLK.TWIN_STAT.SOLO_CAUSE, FLK.TWIN_STAT.DEG_CAUSE, FLK.TWIN_STAT.TWIN_SILENT, FLK.TWIN_STAT.MIRROR_VER,
   FLK.MIRROR_STAT.LAST_SEQ, FLK.MIRROR_STAT.RESENDS, FLK.TWIN_COURSE.ACTIVE, FLK.TWIN_COURSE.ARMED,
   FLK.TWIN_COURSE.WARM, FLK.TWIN_COURSE.TX_ALIGN]

/-- Every field of block flk. -/
def flkFields : List Fld := flkFields0

/-! `FLK.LANE_STAT[i]` (10_twin_pairing, R289) -/
def FLK.LANE_STAT.STATE : Fld := ⟨.flkLane, 0x340100, 256, 8, 0, 1, 0, 3, .ro, 0⟩
def FLK.LANE_STAT.LOS : Fld := ⟨.flkLane, 0x340100, 256, 8, 0, 1, 3, 1, .ro, 0⟩
def FLK.LANE_STAT.CDR_LOCK : Fld := ⟨.flkLane, 0x340100, 256, 8, 0, 1, 4, 1, .ro, 0⟩
def FLK.LANE_STAT.BLOCK_LOCK : Fld := ⟨.flkLane, 0x340100, 256, 8, 0, 1, 5, 1, .ro, 0⟩
def FLK.LANE_STAT.DFE_TAP1 : Fld := ⟨.flkLane, 0x340100, 256, 8, 0, 1, 8, 8, .ro, 0⟩
def FLK.LANE_STAT.SKEW : Fld := ⟨.flkLane, 0x340100, 256, 8, 0, 1, 16, 8, .ro, 0⟩
def FLK.LANE_STAT.HDR_ERR : Fld := ⟨.flkLane, 0x340100, 256, 8, 0, 1, 24, 8, .rc, 0⟩

/-! `FLK.PRBS_CTRL[i]` (10_twin_pairing, R289) -/
def FLK.PRBS_CTRL.PAT : Fld := ⟨.flkLane, 0x340104, 256, 8, 0, 1, 0, 2, .rw, 2⟩
def FLK.PRBS_CTRL.GEN_EN : Fld := ⟨.flkLane, 0x340104, 256, 8, 0, 1, 2, 1, .rw, 0⟩
def FLK.PRBS_CTRL.CHK_EN : Fld := ⟨.flkLane, 0x340104, 256, 8, 0, 1, 3, 1, .rw, 0⟩
def FLK.PRBS_CTRL.LOOP : Fld := ⟨.flkLane, 0x340104, 256, 8, 0, 1, 4, 2, .rw, 0⟩
def FLK.PRBS_CTRL.INJ_K : Fld := ⟨.flkLane, 0x340104, 256, 8, 0, 1, 6, 6, .rw, 0⟩
def FLK.PRBS_CTRL.INJ_ONE : Fld := ⟨.flkLane, 0x340104, 256, 8, 0, 1, 12, 1, .wo, 0⟩
def FLK.PRBS_CTRL.CHK_LOCK : Fld := ⟨.flkLane, 0x340104, 256, 8, 0, 1, 13, 1, .ro, 0⟩
def FLK.PRBS_CTRL.ERR_CLEAR : Fld := ⟨.flkLane, 0x340104, 256, 8, 0, 1, 14, 1, .wo, 0⟩

/-! `FLK.PRBS_ERR[i]` (10_twin_pairing, R289) -/
def FLK.PRBS_ERR.COUNT : Fld := ⟨.flkLane, 0x340108, 256, 8, 0, 1, 0, 64, .ro, 0⟩

/-- Fields of block flkLane, part 0. -/
def flkLaneFields0 : List Fld :=
  [FLK.LANE_STAT.STATE, FLK.LANE_STAT.LOS, FLK.LANE_STAT.CDR_LOCK, FLK.LANE_STAT.BLOCK_LOCK,
   FLK.LANE_STAT.DFE_TAP1, FLK.LANE_STAT.SKEW, FLK.LANE_STAT.HDR_ERR, FLK.PRBS_CTRL.PAT,
   FLK.PRBS_CTRL.GEN_EN, FLK.PRBS_CTRL.CHK_EN, FLK.PRBS_CTRL.LOOP, FLK.PRBS_CTRL.INJ_K,
   FLK.PRBS_CTRL.INJ_ONE, FLK.PRBS_CTRL.CHK_LOCK, FLK.PRBS_CTRL.ERR_CLEAR, FLK.PRBS_ERR.COUNT]

/-- Every field of block flkLane. -/
def flkLaneFields : List Fld := flkLaneFields0

/-! `BIAS.CTRL` (09_optics_bias_and_supervision, R261) -/
def BIAS.CTRL.LOCK : Fld := ⟨.bias, 0x360000, 0, 1, 0, 1, 0, 1, .rw, 0⟩

/-! `BIAS.STAT` (09_optics_bias_and_supervision, R261) -/
def BIAS.STAT.VBIAS_OK : Fld := ⟨.bias, 0x360004, 0, 1, 0, 1, 0, 1, .ro, 0⟩
def BIAS.STAT.VBIAS_LOST : Fld := ⟨.bias, 0x360004, 0, 1, 0, 1, 1, 1, .w1c, 1⟩
def BIAS.STAT.THERM_OFF : Fld := ⟨.bias, 0x360004, 0, 1, 0, 1, 2, 1, .ro, 0⟩

/-! `BIAS.QUENCH_STAT` (09_optics_bias_and_supervision, R261) -/
def BIAS.QUENCH_STAT.QUENCHED : Fld := ⟨.bias, 0x360008, 0, 1, 0, 1, 0, 8, .ro, 0⟩
def BIAS.QUENCH_STAT.CAUSE : Fld := ⟨.bias, 0x360008, 0, 1, 0, 1, 8, 24, .ro, 0⟩

/-- Fields of block bias, part 0. -/
def biasFields0 : List Fld :=
  [BIAS.CTRL.LOCK, BIAS.STAT.VBIAS_OK, BIAS.STAT.VBIAS_LOST, BIAS.STAT.THERM_OFF,
   BIAS.QUENCH_STAT.QUENCHED, BIAS.QUENCH_STAT.CAUSE]

/-- Every field of block bias. -/
def biasFields : List Fld := biasFields0

/-! `BIAS[b].CFG` (09_optics_bias_and_supervision, R261) -/
def BIAS.CFG.RANGE_MASK : Fld := ⟨.biasCh, 0x360100, 128, 64, 0, 1, 0, 5, .rwl, 30⟩
def BIAS.CFG.RAMP : Fld := ⟨.biasCh, 0x360100, 128, 64, 0, 1, 5, 3, .rw, 2⟩
def BIAS.CFG.CODE_MAX : Fld := ⟨.biasCh, 0x360100, 128, 64, 0, 1, 8, 12, .rwl, 4095⟩
def BIAS.CFG.QGRP : Fld := ⟨.biasCh, 0x360100, 128, 64, 0, 1, 20, 3, .rwl, 0⟩
def BIAS.CFG.QG_EN : Fld := ⟨.biasCh, 0x360100, 128, 64, 0, 1, 23, 1, .rwl, 0⟩
def BIAS.CFG.COMP_ACT : Fld := ⟨.biasCh, 0x360100, 128, 64, 0, 1, 24, 2, .rwl, 0⟩
def BIAS.CFG.OPEN_ACT : Fld := ⟨.biasCh, 0x360100, 128, 64, 0, 1, 26, 2, .rwl, 1⟩

/-! `BIAS[b].STAT` (09_optics_bias_and_supervision, R261) -/
def BIAS.STAT.RANGE : Fld := ⟨.biasCh, 0x360104, 128, 64, 0, 1, 0, 3, .ro, 0⟩
def BIAS.STAT.CODE : Fld := ⟨.biasCh, 0x360104, 128, 64, 0, 1, 3, 12, .ro, 0⟩
def BIAS.STAT.WRITTEN : Fld := ⟨.biasCh, 0x360104, 128, 64, 0, 1, 15, 1, .ro, 0⟩
def BIAS.STAT.ENABLED : Fld := ⟨.biasCh, 0x360104, 128, 64, 0, 1, 16, 1, .ro, 0⟩
def BIAS.STAT.RAMPING : Fld := ⟨.biasCh, 0x360104, 128, 64, 0, 1, 17, 1, .ro, 0⟩
def BIAS.STAT.PARKING : Fld := ⟨.biasCh, 0x360104, 128, 64, 0, 1, 18, 1, .ro, 0⟩
def BIAS.STAT.HOLD : Fld := ⟨.biasCh, 0x360104, 128, 64, 0, 1, 19, 1, .ro, 0⟩
def BIAS.STAT.QUENCHED : Fld := ⟨.biasCh, 0x360104, 128, 64, 0, 1, 20, 1, .ro, 0⟩

/-! `BIAS[b].TARGET` (09_optics_bias_and_supervision, R261) -/
def BIAS.TARGET.CODE : Fld := ⟨.biasCh, 0x360108, 128, 64, 0, 1, 0, 12, .ro, 0⟩
def BIAS.TARGET.RANGE : Fld := ⟨.biasCh, 0x360108, 128, 64, 0, 1, 12, 3, .ro, 0⟩

/-! `BIAS[b].FLAG` (09_optics_bias_and_supervision, R261) -/
def BIAS.FLAG.COMP : Fld := ⟨.biasCh, 0x36010C, 128, 64, 0, 1, 0, 1, .w1c, 0⟩
def BIAS.FLAG.OPEN : Fld := ⟨.biasCh, 0x36010C, 128, 64, 0, 1, 1, 1, .w1c, 0⟩
def BIAS.FLAG.COMP_NOW : Fld := ⟨.biasCh, 0x36010C, 128, 64, 0, 1, 2, 1, .ro, 0⟩
def BIAS.FLAG.OPEN_NOW : Fld := ⟨.biasCh, 0x36010C, 128, 64, 0, 1, 3, 1, .ro, 0⟩

/-- Fields of block biasCh, part 0. -/
def biasChFields0 : List Fld :=
  [BIAS.CFG.RANGE_MASK, BIAS.CFG.RAMP, BIAS.CFG.CODE_MAX, BIAS.CFG.QGRP,
   BIAS.CFG.QG_EN, BIAS.CFG.COMP_ACT, BIAS.CFG.OPEN_ACT, BIAS.STAT.RANGE,
   BIAS.STAT.CODE, BIAS.STAT.WRITTEN, BIAS.STAT.ENABLED, BIAS.STAT.RAMPING,
   BIAS.STAT.PARKING, BIAS.STAT.HOLD, BIAS.STAT.QUENCHED, BIAS.TARGET.CODE,
   BIAS.TARGET.RANGE, BIAS.FLAG.COMP, BIAS.FLAG.OPEN, BIAS.FLAG.COMP_NOW,
   BIAS.FLAG.OPEN_NOW]

/-- Every field of block biasCh. -/
def biasChFields : List Fld := biasChFields0

/-! `SCV[x].CTRL` (09_optics_bias_and_supervision, R261) -/
def SCV.CTRL.EN : Fld := ⟨.scv, 0x370000, 65536, 2, 0, 1, 0, 1, .rw, 0⟩
def SCV.CTRL.SEQ_LEN : Fld := ⟨.scv, 0x370000, 65536, 2, 0, 1, 1, 7, .rw, 0⟩
def SCV.CTRL.REF_KEEP : Fld := ⟨.scv, 0x370000, 65536, 2, 0, 1, 8, 1, .rw, 1⟩

/-! `SCV[x].STAT` (09_optics_bias_and_supervision, R261) -/
def SCV.STAT.RUNNING : Fld := ⟨.scv, 0x370004, 65536, 2, 0, 1, 0, 1, .ro, 0⟩
def SCV.STAT.REF_READY : Fld := ⟨.scv, 0x370004, 65536, 2, 0, 1, 1, 1, .ro, 0⟩
def SCV.STAT.REF_WAIT : Fld := ⟨.scv, 0x370004, 65536, 2, 0, 1, 2, 1, .ro, 0⟩
def SCV.STAT.INJ_H_BUSY : Fld := ⟨.scv, 0x370004, 65536, 2, 0, 1, 3, 1, .ro, 0⟩
def SCV.STAT.INJ_S_BUSY : Fld := ⟨.scv, 0x370004, 65536, 2, 0, 1, 4, 1, .ro, 0⟩
def SCV.STAT.INJ_OVR : Fld := ⟨.scv, 0x370004, 65536, 2, 0, 1, 5, 1, .w1c, 0⟩
def SCV.STAT.ROUND_CNT : Fld := ⟨.scv, 0x370004, 65536, 2, 0, 1, 16, 16, .ro, 0⟩

/-! `SCV[x].INJ_CTRL` (09_optics_bias_and_supervision, R261) -/
def SCV.INJ_CTRL.TRIG : Fld := ⟨.scv, 0x370008, 65536, 2, 0, 1, 0, 2, .rw, 0⟩
def SCV.INJ_CTRL.INJ_LEN : Fld := ⟨.scv, 0x370008, 65536, 2, 0, 1, 2, 2, .rw, 0⟩
def SCV.INJ_CTRL.INJ_PER : Fld := ⟨.scv, 0x370008, 65536, 2, 0, 1, 4, 16, .rw, 1000⟩

/-! `SCV[x].ROUND` (09_optics_bias_and_supervision, R261) -/
def SCV.ROUND.T_ROUND : Fld := ⟨.scv, 0x370010, 65536, 2, 0, 1, 0, 24, .ro, 0⟩

/-! `SCV[x].IN[i]` (09_optics_bias_and_supervision, R261) -/
def SCV.IN.ACQ : Fld := ⟨.scv, 0x370400, 65536, 2, 32, 96, 0, 8, .rw, 4⟩
def SCV.IN.GAIN : Fld := ⟨.scv, 0x370400, 65536, 2, 32, 96, 8, 2, .rw, 0⟩

/-! `SCV[x].SEQ[i]` (09_optics_bias_and_supervision, R261) -/
def SCV.SEQ.INPUT : Fld := ⟨.scv, 0x370600, 65536, 2, 32, 128, 0, 7, .rw, 0⟩
def SCV.SEQ.OFFSET : Fld := ⟨.scv, 0x370600, 65536, 2, 32, 128, 12, 20, .ro, 0⟩

/-! `SCV[x].RES[i]` (09_optics_bias_and_supervision, R261) -/
def SCV.RES.CODE : Fld := ⟨.scv, 0x370800, 65536, 2, 32, 128, 0, 16, .ro, 0⟩
def SCV.RES.CLIP : Fld := ⟨.scv, 0x370800, 65536, 2, 32, 128, 16, 1, .ro, 0⟩
def SCV.RES.SHIFTED : Fld := ⟨.scv, 0x370800, 65536, 2, 32, 128, 17, 1, .ro, 0⟩
def SCV.RES.EARLY : Fld := ⟨.scv, 0x370800, 65536, 2, 32, 128, 18, 1, .ro, 0⟩
def SCV.RES.COUNT : Fld := ⟨.scv, 0x370800, 65536, 2, 32, 128, 24, 8, .ro, 0⟩

/-! `SCV[x].INJ_RES[i]` (09_optics_bias_and_supervision, R261) -/
def SCV.INJ_RES.CODE : Fld := ⟨.scv, 0x370A10, 65536, 2, 32, 4, 0, 16, .ro, 0⟩
def SCV.INJ_RES.CLIP : Fld := ⟨.scv, 0x370A10, 65536, 2, 32, 4, 16, 1, .ro, 0⟩
def SCV.INJ_RES.SHIFTED : Fld := ⟨.scv, 0x370A10, 65536, 2, 32, 4, 17, 1, .ro, 0⟩
def SCV.INJ_RES.EARLY : Fld := ⟨.scv, 0x370A10, 65536, 2, 32, 4, 18, 1, .ro, 0⟩
def SCV.INJ_RES.COUNT : Fld := ⟨.scv, 0x370A10, 65536, 2, 32, 4, 24, 8, .ro, 0⟩

/-! `SCV[x].INJ[i]` (09_optics_bias_and_supervision, R261) -/
def SCV.INJ.INPUT : Fld := ⟨.scv, 0x370A00, 65536, 2, 32, 4, 0, 7, .rw, 0⟩
def SCV.INJ.FAST : Fld := ⟨.scv, 0x370A00, 65536, 2, 32, 4, 7, 1, .rw, 0⟩

/-- Fields of block scv, part 0. -/
def scvFields0 : List Fld :=
  [SCV.CTRL.EN, SCV.CTRL.SEQ_LEN, SCV.CTRL.REF_KEEP, SCV.STAT.RUNNING,
   SCV.STAT.REF_READY, SCV.STAT.REF_WAIT, SCV.STAT.INJ_H_BUSY, SCV.STAT.INJ_S_BUSY,
   SCV.STAT.INJ_OVR, SCV.STAT.ROUND_CNT, SCV.INJ_CTRL.TRIG, SCV.INJ_CTRL.INJ_LEN,
   SCV.INJ_CTRL.INJ_PER, SCV.ROUND.T_ROUND, SCV.IN.ACQ, SCV.IN.GAIN,
   SCV.SEQ.INPUT, SCV.SEQ.OFFSET, SCV.RES.CODE, SCV.RES.CLIP,
   SCV.RES.SHIFTED, SCV.RES.EARLY, SCV.RES.COUNT, SCV.INJ_RES.CODE,
   SCV.INJ_RES.CLIP, SCV.INJ_RES.SHIFTED, SCV.INJ_RES.EARLY, SCV.INJ_RES.COUNT,
   SCV.INJ.INPUT, SCV.INJ.FAST]

/-- Every field of block scv. -/
def scvFields : List Fld := scvFields0

/-! `DEC.THR_FLAG_LO/HI` (09_optics_bias_and_supervision, R261) -/
def DEC.THR_FLAG.FLAG : Fld := ⟨.dec, 0x378000, 1, 64, 0, 1, 0, 1, .w1c, 0⟩

/-- Fields of block dec, part 0. -/
def decFields0 : List Fld :=
  [DEC.THR_FLAG.FLAG]

/-- Every field of block dec. -/
def decFields : List Fld := decFields0

/-! `DEC[j].CFG` (09_optics_bias_and_supervision, R261) -/
def DEC.CFG.SRC_ENTRY : Fld := ⟨.decCh, 0x378100, 128, 64, 0, 1, 0, 7, .rw, 0⟩
def DEC.CFG.FILT : Fld := ⟨.decCh, 0x378100, 128, 64, 0, 1, 7, 2, .rw, 1⟩
def DEC.CFG.M_LOG2 : Fld := ⟨.decCh, 0x378100, 128, 64, 0, 1, 9, 4, .rw, 0⟩
def DEC.CFG.COURSE : Fld := ⟨.decCh, 0x378100, 128, 64, 0, 1, 13, 3, .rw, 0⟩
def DEC.CFG.EVT_EN : Fld := ⟨.decCh, 0x378100, 128, 64, 0, 1, 16, 1, .rw, 0⟩
def DEC.CFG.QTRIG : Fld := ⟨.decCh, 0x378100, 128, 64, 0, 1, 17, 1, .rwl, 0⟩
def DEC.CFG.QGRP : Fld := ⟨.decCh, 0x378100, 128, 64, 0, 1, 18, 3, .rwl, 0⟩
def DEC.CFG.DWELL : Fld := ⟨.decCh, 0x378100, 128, 64, 0, 1, 21, 4, .rw, 3⟩
def DEC.CFG.EN : Fld := ⟨.decCh, 0x378100, 128, 64, 0, 1, 25, 1, .rw, 0⟩

/-! `DEC[j].THR` (09_optics_bias_and_supervision, R261) -/
def DEC.THR.HI : Fld := ⟨.decCh, 0x378104, 128, 64, 0, 1, 0, 16, .rw, 65535⟩
def DEC.THR.LO : Fld := ⟨.decCh, 0x378104, 128, 64, 0, 1, 16, 16, .rw, 0⟩

/-! `DEC[j].HYS` (09_optics_bias_and_supervision, R261) -/
def DEC.HYS.HYS : Fld := ⟨.decCh, 0x378108, 128, 64, 0, 1, 0, 16, .rw, 64⟩
def DEC.HYS.ABOVE : Fld := ⟨.decCh, 0x378108, 128, 64, 0, 1, 16, 1, .ro, 0⟩
def DEC.HYS.BELOW : Fld := ⟨.decCh, 0x378108, 128, 64, 0, 1, 17, 1, .ro, 0⟩

/-! `DEC[j].OUT` (09_optics_bias_and_supervision, R261) -/
def DEC.OUT.VALUE : Fld := ⟨.decCh, 0x37810C, 128, 64, 0, 1, 0, 16, .ro, 0⟩
def DEC.OUT.UNSETTLED : Fld := ⟨.decCh, 0x37810C, 128, 64, 0, 1, 16, 1, .ro, 0⟩
def DEC.OUT.SHIFTED : Fld := ⟨.decCh, 0x37810C, 128, 64, 0, 1, 17, 1, .ro, 0⟩
def DEC.OUT.CLIP : Fld := ⟨.decCh, 0x37810C, 128, 64, 0, 1, 18, 1, .ro, 0⟩
def DEC.OUT.VALID : Fld := ⟨.decCh, 0x37810C, 128, 64, 0, 1, 19, 1, .ro, 0⟩
def DEC.OUT.SEQ : Fld := ⟨.decCh, 0x37810C, 128, 64, 0, 1, 24, 8, .ro, 0⟩

/-- Fields of block decCh, part 0. -/
def decChFields0 : List Fld :=
  [DEC.CFG.SRC_ENTRY, DEC.CFG.FILT, DEC.CFG.M_LOG2, DEC.CFG.COURSE,
   DEC.CFG.EVT_EN, DEC.CFG.QTRIG, DEC.CFG.QGRP, DEC.CFG.DWELL,
   DEC.CFG.EN, DEC.THR.HI, DEC.THR.LO, DEC.HYS.HYS,
   DEC.HYS.ABOVE, DEC.HYS.BELOW, DEC.OUT.VALUE, DEC.OUT.UNSETTLED,
   DEC.OUT.SHIFTED, DEC.OUT.CLIP, DEC.OUT.VALID, DEC.OUT.SEQ]

/-- Every field of block decCh. -/
def decChFields : List Fld := decChFields0

/-! `HOD.CTRL` (14_hod_and_memory_protection, R413) -/
def HOD.CTRL.SCRUB_EN : Fld := ⟨.hod, 0x380000, 0, 1, 0, 1, 0, 1, .rw, 1⟩
def HOD.CTRL.SCRUB_HOURS : Fld := ⟨.hod, 0x380000, 0, 1, 0, 1, 1, 8, .rw, 24⟩
def HOD.CTRL.REPAIR_EN : Fld := ⟨.hod, 0x380000, 0, 1, 0, 1, 9, 1, .rw, 1⟩

/-! `HOD.STAT` (14_hod_and_memory_protection, R413) -/
def HOD.STAT.READY : Fld := ⟨.hod, 0x380004, 0, 1, 0, 1, 0, 1, .ro, 0⟩
def HOD.STAT.SELF_REFRESH : Fld := ⟨.hod, 0x380004, 0, 1, 0, 1, 1, 1, .ro, 0⟩
def HOD.STAT.CHK_FAIL : Fld := ⟨.hod, 0x380004, 0, 1, 0, 1, 2, 8, .ro, 0⟩
def HOD.STAT.PASSES : Fld := ⟨.hod, 0x380004, 0, 1, 0, 1, 16, 16, .ro, 0⟩

/-! `HOD.ECC_CORR` (14_hod_and_memory_protection, R413) -/
def HOD.ECC_CORR.COUNT : Fld := ⟨.hod, 0x380008, 0, 1, 0, 1, 0, 32, .rc, 0⟩

/-! `HOD.ECC_UNCORR` (14_hod_and_memory_protection, R413) -/
def HOD.ECC_UNCORR.COUNT : Fld := ⟨.hod, 0x38000C, 0, 1, 0, 1, 0, 32, .rc, 0⟩

/-! `HOD.ECC_LOG` (14_hod_and_memory_protection, R413) -/
def HOD.ECC_LOG.WORD : Fld := ⟨.hod, 0x380010, 0, 1, 0, 1, 0, 25, .ro, 0⟩
def HOD.ECC_LOG.SOURCE : Fld := ⟨.hod, 0x380010, 0, 1, 0, 1, 25, 3, .ro, 0⟩
def HOD.ECC_LOG.VALID : Fld := ⟨.hod, 0x380010, 0, 1, 0, 1, 31, 1, .w1c, 0⟩

/-! `HOD.REPAIR_STAT` (14_hod_and_memory_protection, R413) -/
def HOD.REPAIR_STAT.ENTRIES : Fld := ⟨.hod, 0x380014, 0, 1, 0, 1, 0, 10, .ro, 0⟩
def HOD.REPAIR_STAT.EXHAUSTED : Fld := ⟨.hod, 0x380014, 0, 1, 0, 1, 10, 1, .rws, 0⟩
def HOD.REPAIR_STAT.OVERLAY_BAD : Fld := ⟨.hod, 0x380014, 0, 1, 0, 1, 11, 1, .ro, 0⟩
def HOD.REPAIR_STAT.OVERLAY_PEND : Fld := ⟨.hod, 0x380014, 0, 1, 0, 1, 12, 1, .ro, 0⟩

/-! `HOD.ECC_TEST` (14_hod_and_memory_protection, R413) -/
def HOD.ECC_TEST.DONE : Fld := ⟨.hod, 0x380018, 0, 1, 0, 1, 0, 1, .ro, 0⟩
def HOD.ECC_TEST.BANK_PASS : Fld := ⟨.hod, 0x380018, 0, 1, 0, 1, 1, 8, .ro, 0⟩

/-! `HOD.ENG_ECC_FAIL[i]` (14_hod_and_memory_protection, R413) -/
def HOD.ENG_ECC_FAIL.FAIL : Fld := ⟨.hod, 0x380020, 1, 96, 0, 1, 0, 1, .ro, 0⟩

/-! `HOD.WRITTEN[i]` (14_hod_and_memory_protection, R413) -/
def HOD.WRITTEN.GRANULE : Fld := ⟨.hod, 0x380100, 1, 3072, 0, 1, 0, 1, .ro, 0⟩

/-- Fields of block hod, part 0. -/
def hodFields0 : List Fld :=
  [HOD.CTRL.SCRUB_EN, HOD.CTRL.SCRUB_HOURS, HOD.CTRL.REPAIR_EN, HOD.STAT.READY,
   HOD.STAT.SELF_REFRESH, HOD.STAT.CHK_FAIL, HOD.STAT.PASSES, HOD.ECC_CORR.COUNT,
   HOD.ECC_UNCORR.COUNT, HOD.ECC_LOG.WORD, HOD.ECC_LOG.SOURCE, HOD.ECC_LOG.VALID,
   HOD.REPAIR_STAT.ENTRIES, HOD.REPAIR_STAT.EXHAUSTED, HOD.REPAIR_STAT.OVERLAY_BAD, HOD.REPAIR_STAT.OVERLAY_PEND,
   HOD.ECC_TEST.DONE, HOD.ECC_TEST.BANK_PASS, HOD.ENG_ECC_FAIL.FAIL, HOD.WRITTEN.GRANULE]

/-- Every field of block hod. -/
def hodFields : List Fld := hodFields0

/-! `PMC.DP_SEL[i]` (13_asyan_engines, R390) -/
def PMC.DP_SEL.EVENT : Fld := ⟨.pmc, 0x390400, 32, 32, 0, 1, 0, 5, .rw, 0⟩
def PMC.DP_SEL.CHAIN : Fld := ⟨.pmc, 0x390400, 32, 32, 0, 1, 5, 1, .rw, 0⟩
def PMC.DP_SEL.CLEAR : Fld := ⟨.pmc, 0x390400, 32, 32, 0, 1, 6, 1, .wo, 0⟩
def PMC.DP_SEL.THR : Fld := ⟨.pmc, 0x390400, 32, 32, 0, 1, 8, 8, .rw, 0⟩
def PMC.DP_SEL.INST : Fld := ⟨.pmc, 0x390400, 32, 32, 0, 1, 16, 7, .rw, 0⟩
def PMC.DP_SEL.OVF : Fld := ⟨.pmc, 0x390400, 32, 32, 0, 1, 30, 1, .ro, 0⟩
def PMC.DP_SEL.PARTIAL : Fld := ⟨.pmc, 0x390400, 32, 32, 0, 1, 31, 1, .ro, 1⟩

/-! `PMC.DP_CNT[i]` (13_asyan_engines, R390) -/
def PMC.DP_CNT.COUNT : Fld := ⟨.pmc, 0x390800, 64, 32, 0, 1, 0, 48, .ro, 0⟩
def PMC.DP_CNT.STAMP : Fld := ⟨.pmc, 0x390800, 64, 32, 0, 1, 48, 16, .ro, 0⟩

/-! `PMC.CTRL` (13_asyan_engines, R390) -/
def PMC.CTRL.DP_FREEZE : Fld := ⟨.pmc, 0x390000, 0, 1, 0, 1, 0, 1, .rw, 0⟩
def PMC.CTRL.DP_CLEAR : Fld := ⟨.pmc, 0x390000, 0, 1, 0, 1, 1, 1, .wo, 0⟩

/-! `PMC.ACCESS[f]` (13_asyan_engines, R390) -/
def PMC.ACCESS.USER : Fld := ⟨.pmc, 0x390100, 32, 64, 0, 1, 0, 1, .rw, 0⟩

/-- Fields of block pmc, part 0. -/
def pmcFields0 : List Fld :=
  [PMC.DP_SEL.EVENT, PMC.DP_SEL.CHAIN, PMC.DP_SEL.CLEAR, PMC.DP_SEL.THR,
   PMC.DP_SEL.INST, PMC.DP_SEL.OVF, PMC.DP_SEL.PARTIAL, PMC.DP_CNT.COUNT,
   PMC.DP_CNT.STAMP, PMC.CTRL.DP_FREEZE, PMC.CTRL.DP_CLEAR, PMC.ACCESS.USER]

/-- Every field of block pmc. -/
def pmcFields : List Fld := pmcFields0

/-! `BIST.STAT` (17_test, R478) -/
def BIST.STAT.BUSY : Fld := ⟨.bist, 0x3A0000, 0, 1, 0, 1, 0, 1, .ro, 0⟩
def BIST.STAT.RUNS : Fld := ⟨.bist, 0x3A0000, 0, 1, 0, 1, 1, 3, .ro, 0⟩
def BIST.STAT.BUSY_PART : Fld := ⟨.bist, 0x3A0000, 0, 1, 0, 1, 16, 15, .ro, 0⟩

/-! `BIST.LAST` (17_test, R478) -/
def BIST.LAST.TARGET : Fld := ⟨.bist, 0x3A0004, 0, 1, 0, 1, 0, 7, .ro, 127⟩
def BIST.LAST.LOGIC : Fld := ⟨.bist, 0x3A0004, 0, 1, 0, 1, 8, 2, .ro, 3⟩
def BIST.LAST.MEM : Fld := ⟨.bist, 0x3A0004, 0, 1, 0, 1, 10, 2, .ro, 3⟩
def BIST.LAST.ABORTED : Fld := ⟨.bist, 0x3A0004, 0, 1, 0, 1, 12, 1, .ro, 0⟩
def BIST.LAST.COUNT : Fld := ⟨.bist, 0x3A0004, 0, 1, 0, 1, 16, 16, .ro, 0⟩

/-! `BIST.LAST_PAT` (17_test, R478) -/
def BIST.LAST_PAT.PATTERNS : Fld := ⟨.bist, 0x3A0008, 0, 1, 0, 1, 0, 32, .ro, 0⟩

/-! `BIST.FAIL_MEM` (17_test, R478) -/
def BIST.FAIL_MEM.CLASS : Fld := ⟨.bist, 0x3A000C, 0, 1, 0, 1, 0, 8, .ro, 0⟩
def BIST.FAIL_MEM.INSTANCE : Fld := ⟨.bist, 0x3A000C, 0, 1, 0, 1, 8, 8, .ro, 0⟩
def BIST.FAIL_MEM.BIT : Fld := ⟨.bist, 0x3A000C, 0, 1, 0, 1, 16, 8, .ro, 0⟩
def BIST.FAIL_MEM.SLICE : Fld := ⟨.bist, 0x3A000C, 0, 1, 0, 1, 24, 8, .ro, 0⟩

/-! `BIST.FAIL_ADDR` (17_test, R478) -/
def BIST.FAIL_ADDR.ADDR : Fld := ⟨.bist, 0x3A0010, 0, 1, 0, 1, 0, 32, .ro, 0⟩

/-! `BIST.MISR` (17_test, R478) -/
def BIST.MISR.SIGNATURE : Fld := ⟨.bist, 0x3A0020, 0, 1, 0, 1, 0, 64, .ro, 0⟩

/-! `BIST.BUSY_LANE` (17_test, R478) -/
def BIST.BUSY_LANE.LANE : Fld := ⟨.bist, 0x3A0018, 1, 64, 0, 1, 0, 1, .ro, 0⟩

/-- Fields of block bist, part 0. -/
def bistFields0 : List Fld :=
  [BIST.STAT.BUSY, BIST.STAT.RUNS, BIST.STAT.BUSY_PART, BIST.LAST.TARGET,
   BIST.LAST.LOGIC, BIST.LAST.MEM, BIST.LAST.ABORTED, BIST.LAST.COUNT,
   BIST.LAST_PAT.PATTERNS, BIST.FAIL_MEM.CLASS, BIST.FAIL_MEM.INSTANCE, BIST.FAIL_MEM.BIT,
   BIST.FAIL_MEM.SLICE, BIST.FAIL_ADDR.ADDR, BIST.MISR.SIGNATURE, BIST.BUSY_LANE.LANE]

/-- Every field of block bist. -/
def bistFields : List Fld := bistFields0

/-! `RING[r].SQ_BASE` (11_rings_and_sessions, R321) -/
def RING.SQ_BASE.ADDR : Fld := ⟨.ring, 0x3C0000, 512, 4096, 0, 1, 12, 52, .rw, 0⟩

/-! `RING[r].CQ_BASE` (11_rings_and_sessions, R321) -/
def RING.CQ_BASE.ADDR : Fld := ⟨.ring, 0x3C0008, 512, 4096, 0, 1, 12, 52, .rw, 0⟩

/-! `RING[r].CFG` (11_rings_and_sessions, R321) -/
def RING.CFG.EN : Fld := ⟨.ring, 0x3C0010, 512, 4096, 0, 1, 0, 1, .rw, 0⟩
def RING.CFG.TYPE : Fld := ⟨.ring, 0x3C0010, 512, 4096, 0, 1, 1, 1, .rw, 0⟩
def RING.CFG.SIZE : Fld := ⟨.ring, 0x3C0010, 512, 4096, 0, 1, 2, 5, .rw, 0⟩
def RING.CFG.OWNER : Fld := ⟨.ring, 0x3C0010, 512, 4096, 0, 1, 7, 6, .rw, 0⟩

/-! `RING[r].INTR` (11_rings_and_sessions, R321) -/
def RING.INTR.VECTOR : Fld := ⟨.ring, 0x3C0014, 512, 4096, 0, 1, 0, 11, .rw, 0⟩
def RING.INTR.IE : Fld := ⟨.ring, 0x3C0014, 512, 4096, 0, 1, 11, 1, .rw, 0⟩
def RING.INTR.COAL_CNT : Fld := ⟨.ring, 0x3C0014, 512, 4096, 0, 1, 12, 8, .rw, 1⟩
def RING.INTR.COAL_US : Fld := ⟨.ring, 0x3C0014, 512, 4096, 0, 1, 20, 12, .rw, 0⟩

/-! `RING[r].SQ_PTR` (11_rings_and_sessions, R321) -/
def RING.SQ_PTR.TAIL : Fld := ⟨.ring, 0x3C0018, 512, 4096, 0, 1, 0, 16, .ro, 0⟩
def RING.SQ_PTR.HEAD : Fld := ⟨.ring, 0x3C0018, 512, 4096, 0, 1, 16, 16, .ro, 0⟩

/-! `RING[r].CQ_PTR` (11_rings_and_sessions, R321) -/
def RING.CQ_PTR.TAIL : Fld := ⟨.ring, 0x3C001C, 512, 4096, 0, 1, 0, 16, .ro, 0⟩
def RING.CQ_PTR.HEAD : Fld := ⟨.ring, 0x3C001C, 512, 4096, 0, 1, 16, 16, .ro, 0⟩

/-! `RING[r].STAT` (11_rings_and_sessions, R321) -/
def RING.STAT.STATE : Fld := ⟨.ring, 0x3C0020, 512, 4096, 0, 1, 0, 2, .ro, 0⟩
def RING.STAT.ERR_CAUSE : Fld := ⟨.ring, 0x3C0020, 512, 4096, 0, 1, 2, 4, .ro, 0⟩
def RING.STAT.PHASE : Fld := ⟨.ring, 0x3C0020, 512, 4096, 0, 1, 6, 1, .ro, 1⟩
def RING.STAT.EVT_OVF : Fld := ⟨.ring, 0x3C0020, 512, 4096, 0, 1, 7, 1, .ro, 0⟩
def RING.STAT.IN_FLIGHT : Fld := ⟨.ring, 0x3C0020, 512, 4096, 0, 1, 16, 16, .ro, 0⟩

/-! `RING[r].SESSION` (11_rings_and_sessions, R321) -/
def RING.SESSION.OPEN : Fld := ⟨.ring, 0x3C0024, 512, 4096, 0, 1, 0, 1, .ro, 0⟩
def RING.SESSION.ROLE : Fld := ⟨.ring, 0x3C0024, 512, 4096, 0, 1, 1, 2, .ro, 0⟩
def RING.SESSION.SLOT : Fld := ⟨.ring, 0x3C0024, 512, 4096, 0, 1, 3, 6, .ro, 0⟩
def RING.SESSION.CHALLENGE : Fld := ⟨.ring, 0x3C0024, 512, 4096, 0, 1, 9, 1, .ro, 0⟩
def RING.SESSION.IDLE_LEFT : Fld := ⟨.ring, 0x3C0024, 512, 4096, 0, 1, 16, 16, .ro, 0⟩

/-- Fields of block ring, part 0. -/
def ringFields0 : List Fld :=
  [RING.SQ_BASE.ADDR, RING.CQ_BASE.ADDR, RING.CFG.EN, RING.CFG.TYPE,
   RING.CFG.SIZE, RING.CFG.OWNER, RING.INTR.VECTOR, RING.INTR.IE,
   RING.INTR.COAL_CNT, RING.INTR.COAL_US, RING.SQ_PTR.TAIL, RING.SQ_PTR.HEAD,
   RING.CQ_PTR.TAIL, RING.CQ_PTR.HEAD, RING.STAT.STATE, RING.STAT.ERR_CAUSE,
   RING.STAT.PHASE, RING.STAT.EVT_OVF, RING.STAT.IN_FLIGHT, RING.SESSION.OPEN,
   RING.SESSION.ROLE, RING.SESSION.SLOT, RING.SESSION.CHALLENGE, RING.SESSION.IDLE_LEFT]

/-- Every field of block ring. -/
def ringFields : List Fld := ringFields0

/-! `ENG[e].STAT` (13_asyan_engines, R390) -/
def ENG.STAT.RUN : Fld := ⟨.eng, 0x1000000, 1048576, 96, 0, 1, 0, 2, .ro, 0⟩
def ENG.STAT.LAST_CAUSE : Fld := ⟨.eng, 0x1000000, 1048576, 96, 0, 1, 8, 8, .ro, 0⟩
def ENG.STAT.ECC_CORR : Fld := ⟨.eng, 0x1000000, 1048576, 96, 0, 1, 16, 16, .ro, 0⟩

/-! `ENG[e].SLEEP` (13_asyan_engines, R390) -/
def ENG.SLEEP.MODE : Fld := ⟨.eng, 0x1000004, 1048576, 96, 0, 1, 0, 1, .ro, 0⟩
def ENG.SLEEP.WAKE_MASK : Fld := ⟨.eng, 0x1000004, 1048576, 96, 0, 1, 16, 16, .ro, 0⟩

/-! `ENG[e].PROG_CTRL` (13_asyan_engines, R390) -/
def ENG.PROG_CTRL.OWN_FFE : Fld := ⟨.eng, 0x1000010, 1048576, 96, 0, 1, 0, 1, .rw, 0⟩
def ENG.PROG_CTRL.OWN_TGT : Fld := ⟨.eng, 0x1000010, 1048576, 96, 0, 1, 1, 1, .rw, 0⟩

/-! `ENG[e].PROG_STAT` (13_asyan_engines, R390) -/
def ENG.PROG_STAT.STATE : Fld := ⟨.eng, 0x1000014, 1048576, 96, 0, 1, 0, 3, .ro, 0⟩
def ENG.PROG_STAT.CAUSE : Fld := ⟨.eng, 0x1000014, 1048576, 96, 0, 1, 3, 5, .ro, 0⟩
def ENG.PROG_STAT.FN : Fld := ⟨.eng, 0x1000014, 1048576, 96, 0, 1, 8, 6, .ro, 0⟩
def ENG.PROG_STAT.RESTARTS : Fld := ⟨.eng, 0x1000014, 1048576, 96, 0, 1, 16, 8, .ro, 0⟩
def ENG.PROG_STAT.OVERRUN : Fld := ⟨.eng, 0x1000014, 1048576, 96, 0, 1, 24, 8, .ro, 0⟩

/-! `ENG[e].PROG_BUDGET` (13_asyan_engines, R390) -/
def ENG.PROG_BUDGET.BEATS : Fld := ⟨.eng, 0x1000018, 1048576, 96, 0, 1, 0, 7, .rw, 16⟩

/-! `ENG[e].FAULT_PC` (13_asyan_engines, R390) -/
def ENG.FAULT_PC.PC : Fld := ⟨.eng, 0x100001C, 1048576, 96, 0, 1, 0, 32, .ro, 0⟩

/-! `ENG[e].PMC_SEL[i]` (13_asyan_engines, R390) -/
def ENG.PMC_SEL.EVENT : Fld := ⟨.eng, 0x1000100, 1048576, 96, 32, 4, 0, 5, .rw, 0⟩
def ENG.PMC_SEL.CHAIN : Fld := ⟨.eng, 0x1000100, 1048576, 96, 32, 4, 5, 1, .rw, 0⟩
def ENG.PMC_SEL.CLEAR : Fld := ⟨.eng, 0x1000100, 1048576, 96, 32, 4, 6, 1, .wo, 0⟩
def ENG.PMC_SEL.THR : Fld := ⟨.eng, 0x1000100, 1048576, 96, 32, 4, 8, 8, .rw, 0⟩
def ENG.PMC_SEL.INST : Fld := ⟨.eng, 0x1000100, 1048576, 96, 32, 4, 16, 7, .rw, 0⟩
def ENG.PMC_SEL.OVF : Fld := ⟨.eng, 0x1000100, 1048576, 96, 32, 4, 30, 1, .ro, 0⟩
def ENG.PMC_SEL.PARTIAL : Fld := ⟨.eng, 0x1000100, 1048576, 96, 32, 4, 31, 1, .ro, 1⟩

/-! `ENG[e].PMC_CNT[i]` (13_asyan_engines, R390) -/
def ENG.PMC_CNT.COUNT : Fld := ⟨.eng, 0x1000120, 1048576, 96, 64, 4, 0, 48, .ro, 0⟩
def ENG.PMC_CNT.STAMP : Fld := ⟨.eng, 0x1000120, 1048576, 96, 64, 4, 48, 16, .ro, 0⟩

/-! `ENG[e].TAG_CTRL` (13_asyan_engines, R390) -/
def ENG.TAG_CTRL.EN : Fld := ⟨.eng, 0x1000140, 1048576, 96, 0, 1, 0, 1, .rw, 0⟩
def ENG.TAG_CTRL.TAG_K : Fld := ⟨.eng, 0x1000140, 1048576, 96, 0, 1, 1, 5, .rw, 10⟩
def ENG.TAG_CTRL.WR_PTR : Fld := ⟨.eng, 0x1000140, 1048576, 96, 0, 1, 6, 5, .ro, 0⟩
def ENG.TAG_CTRL.LOST : Fld := ⟨.eng, 0x1000140, 1048576, 96, 0, 1, 16, 8, .rc, 0⟩
def ENG.TAG_CTRL.TAG_SEED : Fld := ⟨.eng, 0x1000140, 1048576, 96, 0, 1, 24, 8, .rw, 1⟩

/-! `ENG[e].TAG_BUF[j]` (13_asyan_engines, R390) -/
def ENG.TAG_BUF.PC : Fld := ⟨.eng, 0x1000200, 1048576, 96, 64, 32, 0, 32, .ro, 0⟩
def ENG.TAG_BUF.LATENCY : Fld := ⟨.eng, 0x1000200, 1048576, 96, 64, 32, 32, 12, .ro, 0⟩
def ENG.TAG_BUF.USER : Fld := ⟨.eng, 0x1000200, 1048576, 96, 64, 32, 44, 1, .ro, 0⟩
def ENG.TAG_BUF.IN_REP : Fld := ⟨.eng, 0x1000200, 1048576, 96, 64, 32, 45, 1, .ro, 0⟩
def ENG.TAG_BUF.MEM_WAIT : Fld := ⟨.eng, 0x1000200, 1048576, 96, 64, 32, 46, 1, .ro, 0⟩
def ENG.TAG_BUF.VALID : Fld := ⟨.eng, 0x1000200, 1048576, 96, 64, 32, 47, 1, .ro, 0⟩
def ENG.TAG_BUF.STAMP : Fld := ⟨.eng, 0x1000200, 1048576, 96, 64, 32, 48, 16, .ro, 0⟩

/-- Fields of block eng, part 0. -/
def engFields0 : List Fld :=
  [ENG.STAT.RUN, ENG.STAT.LAST_CAUSE, ENG.STAT.ECC_CORR, ENG.SLEEP.MODE,
   ENG.SLEEP.WAKE_MASK, ENG.PROG_CTRL.OWN_FFE, ENG.PROG_CTRL.OWN_TGT, ENG.PROG_STAT.STATE,
   ENG.PROG_STAT.CAUSE, ENG.PROG_STAT.FN, ENG.PROG_STAT.RESTARTS, ENG.PROG_STAT.OVERRUN,
   ENG.PROG_BUDGET.BEATS, ENG.FAULT_PC.PC, ENG.PMC_SEL.EVENT, ENG.PMC_SEL.CHAIN,
   ENG.PMC_SEL.CLEAR, ENG.PMC_SEL.THR, ENG.PMC_SEL.INST, ENG.PMC_SEL.OVF,
   ENG.PMC_SEL.PARTIAL, ENG.PMC_CNT.COUNT, ENG.PMC_CNT.STAMP, ENG.TAG_CTRL.EN,
   ENG.TAG_CTRL.TAG_K, ENG.TAG_CTRL.WR_PTR, ENG.TAG_CTRL.LOST, ENG.TAG_CTRL.TAG_SEED,
   ENG.TAG_BUF.PC, ENG.TAG_BUF.LATENCY, ENG.TAG_BUF.USER, ENG.TAG_BUF.IN_REP,
   ENG.TAG_BUF.MEM_WAIT, ENG.TAG_BUF.VALID, ENG.TAG_BUF.STAMP]

/-- Every field of block eng. -/
def engFields : List Fld := engFields0

end Reg

/-- The fields of a block. -/
def Blk.fields : Blk → List Fld
  | .glb => Reg.glbFields
  | .crs => Reg.crsFields
  | .ln => Reg.lnFields
  | .hq => Reg.hqFields
  | .hl => Reg.hlFields
  | .flk => Reg.flkFields
  | .flkLane => Reg.flkLaneFields
  | .bias => Reg.biasFields
  | .biasCh => Reg.biasChFields
  | .scv => Reg.scvFields
  | .dec => Reg.decFields
  | .decCh => Reg.decChFields
  | .hod => Reg.hodFields
  | .pmc => Reg.pmcFields
  | .bist => Reg.bistFields
  | .ring => Reg.ringFields
  | .eng => Reg.engFields

end Sys2Proof.Machine
end

