-- ==== Sys2Proof/Machine/Tab.lean ====
section
/-! DEFINITION. Sparse tables: a list of (key, value) pairs with strictly rising keys in which no pair holds the
value an unlisted key reads as. Equal tables are equal data. Registers, the hod, engine memories and the state the
device keeps per lane, course, ring or channel are held this way. -/

namespace Sys2Proof.Machine

/-- A sparse table from numbers to values. -/
abbrev Tab (α : Type) := List (Nat × α)

/-- The value at key `k`; an unlisted key reads as `d`. -/
def Tab.get {α : Type} (d : α) : Tab α → Nat → α
  | [], _ => d
  | (k', v) :: t, k => if k = k' then v else Tab.get d t k

/-- The table without key `k`. -/
def Tab.erase {α : Type} (t : Tab α) (k : Nat) : Tab α := t.filter fun p => p.1 != k

/-- The table with `v` at key `k`, in its place. -/
def Tab.insert {α : Type} : Tab α → Nat → α → Tab α
  | [], k, v => [(k, v)]
  | (k', v') :: t, k, v =>
    if k < k' then (k, v) :: (k', v') :: t
    else if k = k' then (k, v) :: t
    else (k', v') :: Tab.insert t k v

/-- The table with `v` at key `k`; writing the value an unlisted key reads as removes the entry. -/
def Tab.set {α : Type} [DecidableEq α] (d : α) (t : Tab α) (k : Nat) (v : α) : Tab α :=
  if v = d then Tab.erase t k else Tab.insert t k v

/-- The table without the keys from `lo` up to but not including `hi`. -/
def Tab.clear {α : Type} (t : Tab α) (lo hi : Nat) : Tab α :=
  t.filter fun p => !(decide (lo ≤ p.1) && decide (p.1 < hi))

/-- The keys of the table rise strictly. -/
def Tab.sorted {α : Type} : Tab α → Bool
  | [] => true
  | (k, _) :: t => t.all (fun p => decide (k < p.1)) && Tab.sorted t

/-- The canonical form: strictly rising keys and no value `d`. -/
def Tab.wf {α : Type} [DecidableEq α] (d : α) (t : Tab α) : Bool :=
  Tab.sorted t && t.all (fun p => decide (p.2 ≠ d))

/-- Write the list of values at successive keys from `k`. -/
def Tab.setList {α : Type} [DecidableEq α] (d : α) : Tab α → Nat → List α → Tab α
  | t, _, [] => t
  | t, k, v :: vs => Tab.setList d (Tab.set d t k v) (k + 1) vs

/-- The `n` values at successive keys from `k`. -/
def Tab.getList {α : Type} (d : α) (t : Tab α) (k n : Nat) : List α :=
  (List.range n).map fun i => Tab.get d t (k + i)

end Sys2Proof.Machine
end

