-- ==== Sys2Proof/Machine/State.lean ====
section
/-! DEFINITION. The state of the block: the register file, the state the chapters of spec/ give the device beside its
registers, and the queue of waiting commands. Plain data throughout. Where a register only shows a piece of this
state, the state is its one home and the read computes the register (Machine/Mmio.lean). -/

namespace Sys2Proof.Machine

/-- Faults of the block: there are none. The spec gives every command of the table an effect on every operand, a
register or status saying so where the device turns it away, so no command ends a run (safe). -/
inductive Fault where
  deriving DecidableEq, Repr

/-- Refusals of the block. -/
inductive Refusal where
  /-- Raised by the dispatch for a command that has no meaning yet; safe. -/
  | notModelled (mnemonic : String)
  deriving DecidableEq, Repr

/-- The state of the whole device between resets (R27, R415, R420, R436, R437, R448, R450, R509). -/
inductive Phase where
  /-- In reset: only KEEP (and BIAS) powered, PERST# asserted. -/
  | inReset
  /-- A reset held until every sensor has re-armed (R437). -/
  | heldHot
  /-- A rail is below its threshold; the device is held in warm reset (R509). -/
  | brownout
  /-- From PERST# release to DEVICE_READY (R448). -/
  | booting
  /-- D_ACTIVE after DEVICE_READY: CORE is on. -/
  | active
  /-- D_KEEP (R420): CORE is off, the hod in self-refresh. -/
  | dkeep
  /-- From the D0 request to DEVICE_READY (R420). -/
  | waking
  /-- No slot verified: halted in KEEP (R450). -/
  | halted
  /-- After an autonomous thermal shutdown (R437). -/
  | shutdown
  deriving DecidableEq, Repr

/-- The completion statuses of R327. -/
inductive Status where
  | ok | partialDone | badOpcode | badField | noSession | roleDenied | lcDenied | domainOff | blockInTest | pwrBusy
  | updateBusy | twinNotSynced | notOwner | noSpace | aborted | inUse | busError | uninit | eccUncorr | dmaFault
  | calSuspect | nvmTemp | sigFail | rollback
  deriving DecidableEq, Repr

/-- The status and result words of a command (R326): `stale` and `mirrored` are the flags of byte 1. -/
structure Res where
  st : Status := .ok
  r0 : Nat := 0
  r1 : Nat := 0
  r2 : Nat := 0
  r3 : Nat := 0
  r4 : Nat := 0
  stale : Bool := false
  mirrored : Bool := false
  deriving DecidableEq, Repr

/-- Who asked for a command's effect: a command fetched from a host ring, a mirror frame of the twin, a register
write, or the device itself. -/
inductive Origin where
  | host (ring fid : Nat)
  | mirror (seq ring : Nat) (tag : BitVec 64)
  | register
  | device
  deriving DecidableEq, Repr

/-- How far a fetched command has come: fetched and not started, waiting for the pair (R279) until a time, running,
or finished with its completion not yet written (R303). -/
inductive FlightPhase where
  | waiting
  | parked (until_ : Nat)
  | running
  | done (r : Res)
  deriving DecidableEq, Repr

/-- A command fetched and not yet completed (R303): the session's role and key slot at the fetch, the SQ head after
it, and the data transfers still to be served (R310). -/
structure Flight where
  fid : Nat
  op : Nat
  e : Entry
  d : Dma
  role : Option Nat
  fn : Nat
  sqHead : Nat
  xfer : Nat
  mirrored : Option Nat := none
  phase : FlightPhase
  deriving DecidableEq, Repr

/-- A session bound to a ring (R314, R317): key slot, role, idle time in s, and the time it ends. -/
structure Session where
  slot : Nat
  role : Nat
  idle : Nat
  until_ : Nat
  deriving DecidableEq, Repr

/-- A challenge held for a ring (R317). -/
structure Nonce where
  slot : Nat
  value : BitVec 128
  until_ : Nat
  deriving DecidableEq, Repr

/-- A raise of an event source: source, time, detail, and whether it was raised again meanwhile (R307, R308). -/
structure Raise where
  src : Nat
  time : Nat
  detail : Nat
  coal : Bool
  deriving DecidableEq, Repr

/-- What a ring holds beside its registers: commands in flight oldest first, the session and the nonce, event
sources pending for a slot (R308), the record count of event rings (R307), and the records and vectors a message is
still owed for (R309). -/
structure RingX where
  flights : List Flight := []
  nextFid : Nat := 0
  session : Option Session := none
  nonce : Option Nonce := none
  pend : List Raise := []
  rseq : Nat := 0
  coalCount : Nat := 0
  coalFirst : Nat := 0
  coalVecs : List Nat := []
  deriving DecidableEq, Repr

/-- What a function holds: D3hot of a VF (R297), the lockout of R319 and the shadow of R494 (offset of the HI half
and its captured value). -/
structure FnX where
  d3hot : Bool := false
  lockUntil : Nat := 0
  lockLen : Nat := 0
  shadow : Option (Nat × Nat) := none
  deriving DecidableEq, Repr

/-- An MSI-X table entry with its mask and pending bits (R309). -/
structure Vec where
  addr : Nat := 0
  data : Nat := 0
  masked : Bool := true
  pend : Bool := false
  deriving DecidableEq, Repr

/-- The deficit round robin of R311 and R312: credit per function, the ring served next per function (the search for
work starts there), the functions still to be served in this round with the credit each gains, and whether the first
of them has been given its credit. -/
structure Arb where
  deficit : Tab Nat := []
  nextRing : Tab Nat := []
  credited : Bool := false
  members : List (Nat × Nat) := []
  deriving DecidableEq, Repr

/-- What the block sends out, in the order it issues it. -/
inductive Out where
  /-- A completion at a CQ slot (R304, R326): phase, flags, SQ head, tag. -/
  | completion (ring slot : Nat) (phase : Nat) (r : Res) (sqHead : Nat) (tag : BitVec 64)
  /-- An event record at a CQ slot (R307). -/
  | event (ring slot : Nat) (phase : Nat) (r : Raise) (rseq : Nat)
  /-- An MSI-X message of a function's vector (R309). -/
  | msix (fn vec : Nat)
  /-- Command data written to host memory (R293). -/
  | hostWrite (addr : Nat) (data : List Byte)
  /-- What an MMIO read returned to a function: offset, bytes, value (R492). -/
  | readData (fn addr bytes value : Nat)
  /-- An MMIO request answered with Unsupported Request (R492, R292). -/
  | unsupported (fn addr : Nat)
  /-- A control block sent on the Filkor link (R263): type and payload, bit 0 lowest. -/
  | filkorBlock (block : Nat)
  /-- An image offer or its answer on the Filkor link (R455), by name and length. -/
  | filkor (kind : String) (a : Nat)
  /-- The capability frame the device sends in CAPS (R273). -/
  | caps (q : CapsFrame)
  /-- A mirror frame on the Filkor link (R278). -/
  | mirrorFrame (seq ring op : Nat) (e : Entry) (d : Dma)
  /-- The mirrored set of a course, sent at PAIRING (R281). -/
  | mirrorSet (m : MirrorSet)
  /-- An image sent to the twin (R455). -/
  | twinImage (data : List Byte)
  /-- Payload bits a lane delivers to a stream of its bond, first bit highest: 0 is H(2n), 1 is H(2n+1). -/
  | payload (lane stream nbits bits : Nat)
  /-- The DAC codes of a transmit block of a lane (R139), to its line output or, in a near loop, to its own receiver
  (R155), with the rate they follow: 0 nominal, 1 that of H(2n), 2 the lane's clock recovery (R34, R147, R155). -/
  | dac (lane : Nat) (near : Bool) (rate : Nat) (codes : List Nat)
  /-- The symbols of a transmit block of a host lane after its FIR (R225), in 1/384 of full scale: to the balls or, in a
  near loop, to its own receiver (R227). -/
  | hostTx (hostLane : Nat) (near : Bool) (syms : List Int)
  /-- One bit of a pattern generator inverted (R153, R226, R478): 0 line lane, 1 host lane, 2 Filkor lane; index. -/
  | injectBit (kind index : Nat)
  /-- A pulse on EPOCH_OUT of a width in 8-tick units (R167). -/
  | epochPulse (course width : Nat)
  /-- Bytes the device writes to the flash (R445, R462), by name of what is written. -/
  | flash (what : String) (offset : Nat) (data : List Byte)
  /-- A CMIS access on a course's management port (R258, R259): on I3C or I2C, with the target's static address, in bank 0:
  write, page, offset, bytes. -/
  | cmis (course : Nat) (i3c : Bool) (addr : Nat) (write : Bool) (page ofs n : Nat) (data : List Byte)
  /-- A burst control block on a host lane (R187). -/
  | ctlBlock (hostLane : Nat) (words : List Nat)
  /-- A store of an engine to its role interface (R375): address, bytes, value. -/
  | roleStore (engine addr bytes value : Nat)
  /-- A TAP data register or ball action (R477), by name. -/
  | tap (what : String) (v : Nat)
  deriving DecidableEq, Repr

/-! ## Power, thermal management and keep cores -/

/-- The power state a course is in, or was in before the transition in flight (R27, R416). -/
inductive CoursePow where
  | off | idle | on
  deriving DecidableEq, Repr

/-- A power transition in flight (R416, R417): domain type (1 course, 2 quad, 3 FLK), index, requested state with the
codes of POWER_SET (R341), and who asked. -/
structure Transition where
  dtype : Nat
  index : Nat
  to_ : Nat
  origin : Origin
  deriving DecidableEq, Repr

/-- The pad levels a course's latch holds (R421): MOD_RESET_L low, MOD_LPMODE high, line transmit outputs in
electrical idle. -/
structure PadLatch where
  resetLow : Bool := true
  lpHigh : Bool := true
  txIdle : Bool := true
  deriving DecidableEq, Repr

/-- Power state of the domains (R415, R416, R421). A latch is held from reset until PAD_RELEASE. `hiZ`: a thermal
shutdown has released the hold circuits of the line outputs (R148). -/
structure PowerX where
  course : Tab CoursePow := []
  quadOn : Tab Bool := []
  flkOn : Bool := false
  trans : Option Transition := none
  offNow : List (Nat × List Origin) := []
  heldC : Tab Bool := []
  heldQ : Tab Bool := []
  latch : Tab PadLatch := []
  d3Wait : Bool := false
  hiZ : Bool := false
  deriving DecidableEq, Repr

/-- A keep core (R21, R22): faults since the last reset, and whether it stands stopped. `restarting` is K0 between
its fault and FOREMAN_RESTART_DONE, or another core that stands stopped until K0 can restart it. -/
structure CoreX where
  faults : Nat := 0
  stopped : Bool := false
  restarting : Bool := false
  deriving DecidableEq, Repr

/-- Where a lane, framer or optics engine stands (R17, R19, R20): running, being replaced by a spare, or failed with
no spare mapped. -/
inductive EngMap where
  | running | substituting | unmapped
  deriving DecidableEq, Repr

/-- A failed engine waiting for its substitution, with the cause code and program counter of R377. -/
structure FailedEng where
  e : Nat
  cause : Nat
  pc : Nat
  deriving DecidableEq, Repr

/-- The counts of consecutive samples of a sensor for its three conditions (R427), rising and clearing counted in
one number since a sample fails one of the two, and whether it has been sampled. -/
structure SensorX where
  warnCnt : Nat := 0
  thrCnt : Nat := 0
  shutCnt : Nat := 0
  seen : Bool := false
  deriving DecidableEq, Repr

/-- The effort ladder of a course (R432, R434, R435): when its last step was taken, whether a step fell due while
none could be taken, the sensor that drove it, and the lanes shed, last first. -/
structure LadderX where
  last : Nat := 0
  running : Bool := false
  due : Bool := false
  sensor : Nat := 0
  shed : List Nat := []
  deriving DecidableEq, Repr

/-- A trip record (R438). -/
structure TripRec where
  sensor : Nat
  reading : Nat
  timeMs : Nat
  count : Nat
  deriving DecidableEq, Repr

/-- Thermal state beside `THM` (R427, R432, R438): the trip records MRAM holds (newest first, at most 8), the number
of trips since MRAM was erased, and whether the latched record still waits for its copy. -/
structure ThermX where
  sensor : Tab SensorX := []
  ladder : Tab LadderX := []
  mram : List TripRec := []
  trips : Nat := 0
  latched : Option TripRec := none
  copyDue : Bool := false
  tripL : Bool := false
  deriving DecidableEq, Repr

/-! ## Boot, security and update -/

/-- A commit record (R445). `state` is 1 COMMITTED or 2 PROVEN. -/
structure CommitRec where
  seq : Nat
  active : Nat
  state : Nat
  prevOk : Bool
  version : Nat
  secVer : Nat
  imgBytes : Nat
  hash : List Byte
  deriving DecidableEq, Repr

/-- The header of an image as far as the device uses it (R446): version, security version, kind, formats, and the
SHA-384 over the whole image. -/
structure ImageInfo where
  version : Nat := 0
  secVer : Nat := 0
  kind : Nat := 0
  formats : Nat := 0
  imgBytes : Nat := 0
  hash : List Byte := []
  deriving DecidableEq, Repr

/-- A key slot (R315): the 48-byte key, the role ceiling and the binding (255: ANY). -/
structure KeySlot where
  key : List Byte
  ceiling : Nat
  binding : Nat
  deriving DecidableEq, Repr

/-- The security fuses and identity state (R441, R443, R451): the life-cycle state that takes effect at the next
reset, the two root hashes, and whether KS0 still holds the factory transport key. -/
structure SecX where
  ulkRoot : List Byte := []
  custRoot : Option (List Byte) := none
  keys : Tab (Option KeySlot) := []
  nextLc : Option Nat := none
  ks0Factory : Bool := true
  deriving DecidableEq, Repr

/-- A write of the NVM that the window of R439 refused and that is retried every 1 s (R402, R464). -/
inductive NvmJob where
  | record (r : CommitRec)
  | arb (v : Nat)
  | overlay
  deriving DecidableEq, Repr

/-- A lane that was ACTIVE when an activation began (R95, R459): the surveys it has completed in ACTIVE since its engine
was swapped, and whether it has stayed ACTIVE. -/
structure TrialLane where
  lane : Nat
  surveys : Nat := 0
  stayed : Bool := true
  deriving DecidableEq, Repr

/-- Boot and update state beside `SEC` and `UPD` (R449, R454 to R464). -/
structure UpdX where
  record : Option CommitRec := none
  copy : Nat := 0
  running : ImageInfo := {}
  bootImage : ImageInfo := {}
  bootSlot : Nat := 0
  other : Option ImageInfo := none
  staged : Nat := 0
  stagedInfo : Option ImageInfo := none
  lockRing : Option Nat := none
  reserved : Bool := false
  verify : Option Origin := none
  verifyTwin : Bool := false
  activate : Option (Origin × Nat × Bool) := none
  hostConfirm : Bool := false
  trialStart : Nat := 0
  windowEnd : Nat := 0
  faulted : Bool := false
  diverged : Bool := false
  wasSynced : Bool := false
  trialLanes : List TrialLane := []
  fallback : Option Origin := none
  fallbackBoot : Bool := false
  commit : Option Origin := none
  committed : Bool := true
  bootTrial : Bool := false
  bootTrialEnd : Nat := 0
  trialTries : Nat := 0
  retry : List NvmJob := []
  receiving : Option Nat := none
  dual : Bool := false
  deriving DecidableEq, Repr

/-! ## The pair -/

/-- A mirror frame sent and not yet acknowledged (R278): the ring and flight it belongs to, the command, when it was
sent last and how often it was resent. -/
structure MirrorOut where
  seq : Nat
  ring : Nat
  fid : Nat
  op : Nat
  e : Entry
  d : Dma
  sent : Nat
  resends : Nat
  deriving DecidableEq, Repr

/-- An entry of the mirror log (R280). -/
structure MirrorLog where
  ring : Nat
  tag : BitVec 64
  seq : Nat
  status : Status
  deriving DecidableEq, Repr

/-- A handover or takeover in progress on a course (R285): who asked, and since when. -/
structure Move where
  course : Nat
  origin : Origin
  since : Nat
  deriving DecidableEq, Repr

/-- The twin manager's state beside `FLK` (R262 to R285): the TWIN_ROLE strap, own TWIN_SEL levels and the TWIN_SENSE
levels with the time of their last fall, the courses whose engine uses side B, the last renewal of each lease, the
heartbeats sent and when the last came and went, the yield bits the next one carries, the courses the twin's last one
called warm, lanes aligned to the owner, whether the link was ACTIVE when it went to FL2, whether this device
asks for CAPS on an ACTIVE link, mirror sequence numbers, frames in flight, the mirror log (newest first), the state to
return to after TAKEOVER, moves in progress and handovers whose twin has raised its level, whether CAPS has failed and
the hold of R481 is over, when DEVICE_READY was, when TRAIN began, and when the last block was queued. -/
structure TwinX where
  strap : Nat := 0
  ownSel : Tab Bool := []
  sense : Tab Bool := []
  sideB : Tab Bool := []
  lease : Tab Nat := []
  senseLow : Tab Nat := []
  hbCount : Nat := 0
  lastHb : Nat := 0
  yields : Tab Bool := []
  peerWarm : Nat := 0
  hbSent : Nat := 0
  aligned : Tab Bool := []
  fl2Active : Bool := false
  capsDue : Bool := false
  nextSeq : Nat := 0
  rxSeq : Nat := 0
  outs : List MirrorOut := []
  log : List MirrorLog := []
  logAt : Nat := 0
  prev : Nat := 0
  handovers : List Move := []
  takeovers : List Move := []
  capsFailed : Bool := false
  holdOver : Bool := false
  readyAt : Nat := 0
  trainAt : Nat := 0
  lastQueued : Nat := 0
  ready : Tab Bool := []
  deriving DecidableEq, Repr

/-- A built-in test that runs (R466, R473): target code, kind (0 logic, 1 memory, 2 both), who asked. -/
structure BistRun where
  code : Nat
  kind : Nat
  origin : Origin
  deriving DecidableEq, Repr
/-! ## Line lanes: receive (R65 to R105) -/

/-- A survey record of a lane (R102): the fields of the 48 bytes. -/
structure SurveyRec where
  flags : Nat := 0
  snrEq : Nat := 0
  snrMfb : Nat := 0
  gap : Nat := 0
  vga : Nat := 0
  ctle : Nat := 0
  target : Nat := 0
  soft : Nat := 0
  freq : Nat := 0
  cw : Nat := 0
  corr : Nat := 0
  uncorr : Nat := 0
  phaseRms : Nat := 0
  retry : Nat := 0
  levels : List Nat := []
  seq : Nat := 0
  deriving DecidableEq, Repr

/-- A seed (R94). `crcOk` is whether its CRC-32 is correct; `version` is its format. -/
structure Seed where
  version : Nat := 0
  mode : Nat := 0
  const : Nat := 0
  precode : Nat := 0
  mainPos : Nat := 0
  ctle : Nat := 0
  vga : Nat := 0
  taps : List Int := []
  a1 : Nat := 0
  a2 : Nat := 0
  levels : List Int := []
  soft : Nat := 0
  freq : Nat := 0
  temp : Nat := 0
  crcOk : Bool := true
  deriving DecidableEq, Repr

/-- What the receive half of a lane holds beside its registers (R41, R61, R73, R83, R84, R88, R102, R104): the run of
alignment matches with their CRC results, missed positions, the pair phase of PAM6, counts held while the outer-code
counters are frozen (codewords, symbols, uncorrectable, four bins), the count of R73 (its reference, what was counted
before LOS, whether it stands), the loss of frame lock, the main tap in force, the taps at 24-bit precision in units
of 2^-21 and the bank in force in 1/128, the centroids in 2^-20 amplitude units, the survey counts,
whether the CTLE sweep of R69 is still to be made and the AGC is in its deadband, the bobbin being gathered, and
the host transmit blocks that fill has replaced and the mortar has still to complete (R200). -/
structure RxX where
  amRun : List Bool := []
  amMiss : Nat := 0
  pairPhase : Nat := 0
  searchFrames : Nat := 0
  fcount : Nat := 0
  ocmHeld : List Nat := []
  acqRef : Nat := 0
  acqSpent : Nat := 0
  acqStopped : Bool := false
  lossAt : Option Nat := none
  mainPos : Nat := 12
  taps : List Int := []
  bank : List Int := []
  levels : List Int := []
  mse : Nat := 0
  mseRun : Nat := 0
  discard : Bool := false
  cut : Bool := false
  seq : Nat := 0
  inActive : Nat := 0
  partialNow : Bool := false
  startAt : Nat := 0
  per : Nat := 0
  cw0 : Nat := 0
  corr0 : Nat := 0
  uncorr0 : Nat := 0
  degUp : Nat := 0
  degDown : Nat := 0
  gapUp : Nat := 0
  gapDown : Nat := 0
  constRun : Nat := 0
  ctleWait : Nat := 0
  tgtWait : Nat := 0
  seedAuto : Bool := false
  nearSet : Option (Nat × Nat × Nat × List Int) := none
  hist : List SurveyRec := []
  wasState : Nat := 0
  sweep : Bool := false
  agcOk : Bool := false
  bobbin : List Nat := []
  late : Nat := 0
  fill : Nat := 0
  mlse : List (Nat × List Nat) := []
  cdrFrac : Int := 0
  cdrPhase : Int := 0
  deriving DecidableEq, Repr

/-! ## Line lanes: transmit (R137 to R151) -/

/-- The line bit stream a lane's transmit path builds (R39, R53, R134, R137, R153, R160, R195, R201): the unit formed
next (0 the APB, 1 to 272 the bobbins of the frame; in MB the parts of the burst), the bits of the present frame already
sent, bits formed and not yet mapped, levels mapped and not yet sent, the precoder's y(k − 1), the amplitudes the FIR
still sees (newest first) and the bank the last block was sent with; the bits each host stream has brought, those
still to be discarded on arrival, blocks to be sent as fill and replaced blocks still to arrive; the PRBS31
registers of the two streams and of fill (0: not started), the M200 encoder's state; the generator's register, its
bits since the enable and whether its next bit is inverted; and the hard decisions a far loop has still to send. -/
structure TxPath where
  unit : Nat := 0
  pos : Nat := 0
  bits : List Bool := []
  syms : List Nat := []
  pre : Nat := 0
  past : List (Int × Int) := []
  bank : List Int := []
  hostA : List Bool := []
  hostB : List Bool := []
  skipA : Nat := 0
  skipB : Nat := 0
  fillDue : Nat := 0
  late : Nat := 0
  srcA : Nat := 0
  srcB : Nat := 0
  fill : Nat := 0
  enc : Nat := 0
  gen : Nat := 0
  genPos : Nat := 0
  inject : Bool := false
  far : List Nat := []
  farBits : List Bool := []
  burst : Option (Nat × Nat) := none
  deriving DecidableEq, Repr

/-- What the transmit half of a lane holds: the FIR bank in force, the staging bank, the committed bank with the mask
that takes effect with it, the swing and skew reached so far, whether a configuration has been applied since C_ON,
until when RETIME holds, whether a foreground calibration mutes the output, the count of the frame being built, and the
bit stream. -/
structure TxX where
  bank : List Int := []
  stage : List Int := []
  pend : Option (List Int × Option Nat) := none
  swing : Nat := 0x18
  outer : Nat := 0
  skew : Int := 0
  configured : Bool := false
  retime : Option Nat := none
  cal : Bool := false
  frame : Nat := 0
  phase : Nat := 0
  path : TxPath := {}
  deriving DecidableEq, Repr

/-! ## Line lanes: slices and calibration (R107 to R132) -/

/-- The states of an ADC slice (R109). -/
inductive SliceSt where
  | active | queued | cal | ready | shadow | retired
  deriving DecidableEq, Repr

/-- A slice: its state and position, suspect flags, whether the retire map retired it, when and at what reading it was
last accepted, whether it has coefficients, its coefficients and trims in steps of their resolution (offset, gain, four
SAR weights, skew, bandwidth; none reads as zero), the trims it tries in SHADOW, and its watch count. -/
structure SliceX where
  st : SliceSt := .queued
  pos : Nat := 0
  suspect : Bool := false
  run : Nat := 0
  fromMap : Bool := false
  calAt : Nat := 0
  calTemp : Nat := 0
  coeff : Bool := false
  coef : List Int := []
  trims : Option (List Int) := none
  watch : Nat := 0
  deriving DecidableEq, Repr

/-- The slices of a lane and its calibration: the queue head first, the target of SHADOW and its failed comparisons,
whether that is a fault swap and whether its swap is due, positions whose slice failed the watch, the last swap, group
baselines A, P, D, C with the time before which a suspect group does not fire again, the group that runs, the coefficients
of groups A, P, D, C, T in steps of their resolution, the foreground run, and the slices a test in C_OFF has failed. -/
structure CalX where
  slices : Tab SliceX := []
  queue : List Nat := []
  shadowPos : Nat := 0
  shadowTries : Nat := 0
  faultSwap : Bool := false
  swapDue : Bool := false
  failed : List Nat := []
  swapAt : Option Nat := none
  base : List Nat := [0, 0, 0, 0]
  notBefore : List Nat := [0, 0, 0, 0]
  group : Option Nat := none
  groupCoef : List (List Int) := []
  foreground : Option Origin := none
  mapDue : Bool := false
  tested : List Nat := []
  deriving DecidableEq, Repr

/-! ## Line lanes: bursts (R157 to R188) -/

/-- A source record (R177), with the counts that move it between wide and narrow mode. -/
structure SrcRec where
  vga : Nat := 0
  freq : Nat := 0
  taps : List Int := []
  a1 : Nat := 0
  a2 : Nat := 0
  levels : List Int := []
  soft : Nat := 40
  narrow : Bool := false
  good : Nat := 0
  bad : Nat := 0
  deriving DecidableEq, Repr

/-- What a lane in BURST holds (R159, R171 to R184): the slot armed and the next one whose window opened during a burst,
whether its burst is re-acquired, an onset kept for the next window, when the receiver returns to ARMED, the AGC blocks
since the onset and how many in a row were settled, when the detector was armed (symbols after the onset), level and
gain of the last AGC block, the frozen gain, frequency, quality and arrival, codewords and bits so far, record and framing counts, the exception already
raised in this epoch, the epochs that went wholly missed, the transmit slot that is sent and whether its header came,
the host framing lock with the sync words seen, or missing, in a row (R185), and the source records by ID. -/
structure BstX where
  slot : Option Slot := none
  next : Option Slot := none
  reacq : Bool := false
  onset : Bool := false
  rearmAt : Nat := 0
  blocks : Nat := 0
  okBlocks : Nat := 0
  arm : Option Nat := none
  lastRms : Option (Nat × Nat) := none
  narrow : Bool := false
  gain : Nat := 0
  freq : Nat := 0
  qual : Nat := 0
  arrival : Nat := 0
  cwLine : Nat := 0
  cwFill : Nat := 0
  cwUncorr : Nat := 0
  bits : Nat := 0
  seq : Nat := 0
  raised : Bool := false
  missedEpochs : Nat := 0
  rxGood : Bool := false
  txHdr : Option Nat := none
  txSlot : Option Slot := none
  txDone : List Nat := []
  rxDone : List Nat := []
  hostLock : Bool := false
  sync : Nat := 0
  recs : List (Nat × SrcRec) := []
  deriving DecidableEq, Repr

/-- What a lane or course block held at its last survey (R331): its registers as a table, and for a lane what it holds
beside them. Read-type commands are answered from it while the block is in test. -/
structure Shot where
  regs : Tab Nat := []
  rx : RxX := {}
  tx : TxX := {}
  cal : CalX := {}
  bst : BstX := {}
  deriving DecidableEq, Repr

/-- The epoch of a course (R164 to R170): the two banks, the one committed and not yet in force, the number of the
epoch's boundaries since the defining one, when the last boundary and the last edge were, which interval's edge has
been evaluated, the corrections the epoch in progress and the next one take, and whether the next boundary is the
defining one. Times are in ticks of 8.8154 ps. -/
structure EpochX where
  bank0 : Option Bank := none
  bank1 : Option Bank := none
  pendingBank : Option (Nat × Nat) := none
  index : Nat := 0
  boundary : Nat := 0
  owed : Int := 0
  owedNext : Int := 0
  fresh : Bool := false
  evaluated : Option Nat := none
  slipAt : Nat := 0
  deriving DecidableEq, Repr

/-! ## Host lanes (R214 to R229) -/

/-- A host lane: the taps in force c(-4) to c(2), when training started, the restart after a failed attempt, the
register of the PRBS31 it sends while it has no line data (R55; 0: not started), and the bits to the next RS symbol
boundary of its receive stream (R49). -/
structure HostX where
  taps : List Int := [0, 0, 0, -8, 112, -8, 0]
  training : Bool := false
  trainAt : Nat := 0
  restartAt : Option Nat := none
  prbs : Nat := 0
  rsOfs : Nat := 0
  deriving DecidableEq, Repr

/-- The transmit side of a host lane (R219, R223, R225 to R227): line-to-host bits not sent yet; the generator's register,
the bits it has given since its enable and whether it inverts the next; the precoder; the last six amplitudes, newest
first, and the taps they were sent with; bits the far loop has brought. -/
structure HostTx where
  queue : List Bool := []
  gen : Nat := 0
  genPos : Nat := 0
  inject : Bool := false
  pre : Nat := 0
  past : List Int := []
  bank : List Int := [0, 0, 0, -8, 112, -8, 0]
  far : List Bool := []
  deriving DecidableEq, Repr
/-! ## The hod (R391 to R411) -/

/-- A word of the hod: its 64 bits, and whether its check bits are the pattern that every read decodes as
uncorrectable (R398). -/
structure HodWord where
  v : Nat
  bad : Bool
  deriving DecidableEq, Repr

/-- A capture that runs on a lane (R346, R409): the operands of its command, the swatch rows allocated (numbers of
4 KiB rows of the capture region), who asked, when it began, and the trigger's symbol index and time. -/
structure Capture where
  lane : Nat
  point : Nat
  trig : Nat
  pre : Nat
  evt : Nat
  timeout : Nat
  origin : Origin
  start : Nat
  rows : List Nat
  mode : Nat
  seq : Nat
  trigAt : Option (Nat × Nat) := none
  deriving DecidableEq, Repr

/-- A swatch: its ID, its rows in order, and how many of them hold the header and data. -/
structure Swatch where
  id : Nat
  rows : List Nat
  deriving DecidableEq, Repr

/-- What the hod controller holds (R400 to R404): the words written (an unlisted word was never written), captures,
swatches and the next swatch ID, spare rows and columns used per sub-array, rows with a correctable error and the
scrub pass it was found in, bit positions with the rows they failed in, the overlay entries in force and how many of
them MRAM holds. -/
structure HodX where
  words : Tab (Option HodWord) := []
  caps : List Capture := []
  swatches : List Swatch := []
  nextId : Nat := 1
  rowSpares : Tab Nat := []
  colSpares : Tab Nat := []
  corrRow : Tab Nat := []
  corrBits : List (Nat × Nat × Nat) := []
  overlay : List (Nat × Bool × Nat) := []
  saved : List (Nat × Bool × Nat) := []
  deriving DecidableEq, Repr
/-! ## The mortar (R196 to R198) -/

/-- An elastic buffer as its course measures it (R196, R200, R203): the figures of its last 64 blocks in 1/1024, newest
first; the backlog that stands in its two reserve slots, in 1/1024 of a block; the lowest running mean of the survey in
progress, in 2^-16; and whether a reserve slot was held in it. -/
structure BufX where
  figures : List Nat := []
  backlog : Nat := 0
  low : Option Nat := none
  held : Bool := false
  deriving DecidableEq, Repr

/-- A course's slack measurement: its buffers, consecutive surveys toward the clearing of `SLACK_LOW` and `SLACK_CRIT`, whether a
drop occurred since the last survey, the buffers whose drops came from a rate difference, whether the course left
C_ON meanwhile, and the lowest running mean of the last survey without those buffers, in 2^-16. -/
structure MortarX where
  bufs : Tab BufX := []
  lowRun : Nat := 0
  critRun : Nat := 0
  dropped : Bool := false
  rateBufs : List Nat := []
  spoiled : Bool := false
  mean : Option Nat := none
  deriving DecidableEq, Repr

/-! ## Bias channels and supervision (R233 to R260) -/

/-- Where the ball of a bias channel stands (R233, R236, R237): high-impedance, connecting after an enable, connected
and following its target, ramping down to be disconnected, or in one of the first three steps of a park. -/
inductive BiasPhase where
  | off | connecting | live | disabling | parkDown | parkDwell | parkOpen
  deriving DecidableEq, Repr

/-- A bias channel beside its registers: its phase, whether its way down is one the device makes on its own, and when
the ball last connected, in µs. -/
structure BiasX where
  ph : BiasPhase := .off
  quick : Bool := false
  connAt : Nat := 0
  deriving DecidableEq, Repr

/-- A supervisory converter (R248 to R252): whether the reference buffer is on, the entries in force in this round
(input, acquisition in 100 ns, gain code), host triggers running or pending with who asked, system runs due, which
run is in progress (1 host, 2 system), and the first entry of the round an injected run has delayed. -/
structure ScvX where
  refOn : Bool := false
  force : List (Nat × Nat × Nat) := []
  hostWait : List Origin := []
  sysDue : Bool := false
  run : Nat := 0
  shifted : Option Nat := none
  deriving DecidableEq, Repr

/-- A decimation channel (R253 to R256): the configuration in force (source entry, filter, M exponent), samples newest
first with their SHIFTED and CLIP flags, rounds counted, outputs still unsettled, and the dwell counts. -/
structure DecX where
  src : Nat := 0
  filt : Nat := 1
  mlog : Nat := 0
  hist : List (Nat × Bool × Bool) := []
  rounds : Nat := 0
  unsettled : Nat := 0
  above : Nat := 0
  below : Nat := 0
  deriving DecidableEq, Repr

/-- A CMIS access a command waits for (R355): who asked, write or read, page, offset, bytes, data, destination. -/
structure CmisJob where
  origin : Origin
  write : Bool
  page : Nat
  ofs : Nat
  n : Nat
  data : List Byte
  addr : Nat
  d : Dma
  deriving DecidableEq, Repr

/-- A course's CMIS bus (R258, R259): the accesses commands wait for, the first of them on the bus, whether a poll is
due after MOD_INT_L, how often the transaction on the bus has failed, and the module and lane flags last read. -/
structure CmisX where
  jobs : List CmisJob := []
  polling : Bool := false
  tries : Nat := 0
  modFlags : Nat := 0
  laneFlags : List Nat := []
  deriving DecidableEq, Repr

/-! ## Asyan engines (R363 to R389) -/

/-- A lane program (R378 to R384): header, sizes and entry of the loaded image, the beats of this period, whether it
has given up or spent the period, the registers it goes on with while it is suspended (general registers,
accumulators, address registers, circular bases and lengths, extraction shift, PC, STATUS), a stop that waits for the
next boundary with who asked, and, while its course is off, its state, loading function and reload count. -/
structure ProgX where
  header : List Byte := []
  code : List Byte := []
  data : List Byte := []
  entry : Nat := 0
  used : Nat := 0
  suspended : Bool := false
  g : Tab Word := []
  a : Tab Acc40 := []
  p : Tab Word := []
  cb : Tab Word := []
  cl : Tab Word := []
  ash : BitVec 5 := 0
  pc : Word := 0
  status : Word := 0
  stopDue : Option Origin := none
  held : Option (Nat × Nat × Nat) := none
  deriving DecidableEq, Repr

/-- An engine (R363): general registers, accumulators, address registers with circular base and length, PC, system
registers, beats since start with the half a read of LO captures, beats since the watchdog was restarted, the delay
slots left of a branch with its target, the register whose old value the next instruction still reads, the
repetitions of the next instruction with the address of their `REP`, whether the engine sleeps and since when, data
memory, the lane program, the tagging of retirements (instructions in the window, the LFSR, entries unread), and the slot the next
state block goes to (R376). -/
structure EngX where
  g : Tab Word := []
  a : Tab Acc40 := []
  p : Tab Word := []
  cb : Tab Word := []
  cl : Tab Word := []
  pc : Word := 0
  status : Word := 0
  epc : Word := 0
  estatus : Word := 0
  ien : Half := 0
  ipend : Half := 0
  ash : BitVec 5 := 0
  beat : BitVec 64 := 0
  beatHi : Word := 0
  pmcHi : Tab Word := []
  wdt : Nat := 0
  slots : Option (Nat × Word) := none
  oldReg : Option (Nat × Word) := none
  rep : Option (Nat × Word) := none
  asleep : Option Nat := none
  code : Tab Byte := []
  data : Tab Byte := []
  prog : Option ProgX := none
  tagCnt : Nat := 0
  lfsr : Word := 1
  unread : List Nat := []
  blockSlot : Nat := 0
  blockLens : Tab Nat := []
  resumed : Option Nat := none
  deriving DecidableEq, Repr


/-! ## The state -/

/-- The state of the block. `pending` is the queue of commands that wait, first in, first out; `freeCtr` is the
counter of the free values (notes/assumptions/2), no piece of the spec's. -/
structure State where
  time : Nat
  pending : List Instr
  freeCtr : Nat
  out : List Out
  phase : Phase
  regs : Tab Nat
  rings : Tab RingX
  fns : Tab FnX
  arb : Arb
  vecs : Tab Vec
  vfEnable : Bool
  raises : List Raise
  held : List Raise
  doorHeld : Tab Nat
  pwr : PowerX
  cores : Tab CoreX
  engMap : Tab EngMap
  failed : List FailedEng
  subst : Option (Nat × Nat)
  therm : ThermX
  sec : SecX
  upd : UpdX
  twin : TwinX
  tests : List BistRun
  hod : HodX
  rx : Tab RxX
  tx : Tab TxX
  cal : Tab CalX
  bst : Tab BstX
  shots : Tab Shot
  epoch : Tab EpochX
  host : Tab HostX
  htx : Tab HostTx
  chk : Tab ChkX
  seeds : Tab (Option Seed)
  retire : Tab (List Nat)
  bgFused : Nat
  bgHigh : Nat
  bgLow : Nat
  mortar : Tab MortarX
  bias : Tab BiasX
  scv : Tab ScvX
  dec : Tab DecX
  cmis : Tab CmisX
  eng : Tab EngX
  tapIr : TapIns
  deriving DecidableEq, Repr

/-- The block right after the application of VDD_KEEP (R6): every register at its value after cold reset, the state
of every domain at its start, nothing waiting. Fused fields stand at the values notes/assumptions/3 names. -/
def State.reset : State where
  time := 0
  pending := []
  freeCtr := 0
  out := []
  phase := .inReset
  regs := []
  rings := []
  fns := []
  arb := {}
  vecs := []
  vfEnable := false
  raises := []
  held := []
  doorHeld := []
  pwr := {}
  cores := []
  engMap := []
  failed := []
  subst := none
  therm := {}
  sec := { keys := [(0, some ⟨Config.transportKey, 3, 0⟩)] }
  upd := {}
  twin := {}
  tests := []
  hod := {}
  rx := []
  tx := []
  cal := []
  bst := []
  shots := []
  epoch := []
  host := []
  htx := []
  chk := []
  seeds := []
  retire := []
  bgFused := 1000000
  bgHigh := 0
  bgLow := 0
  mortar := []
  bias := []
  scv := []
  dec := []
  cmis := []
  eng := []
  tapIr := .idcode

end Sys2Proof.Machine
end

