-- ==== Sys2Proof/Machine/Ops.lean ====
section
/-! DEFINITION. The named operations over the state that every family uses: reading and writing register fields,
per-ring, per-function and per-engine state, time, free values, output, and the conditions several chapters ask for
(which domain is on, which engine runs). -/

namespace Sys2Proof.Machine

/-! ## Register fields (R9, R490) -/

/-- The value a register field holds: the last one stored, or its value after cold reset. `i` is the copy of the
block, `j` the index inside it. -/
def State.rd (s : State) (f : Fld) (i : Nat := 0) (j : Nat := 0) : Nat :=
  Tab.get f.rst s.regs (f.key i j)

/-- The state with `v` in a register field, cut to the field's width. -/
def State.wr (s : State) (f : Fld) (v : Nat) (i : Nat := 0) (j : Nat := 0) : State :=
  { s with regs := Tab.set f.rst s.regs (f.key i j) (v % 2 ^ f.w) }

/-- A one-bit field as a truth value. -/
def State.flag (s : State) (f : Fld) (i : Nat := 0) (j : Nat := 0) : Bool :=
  s.rd f i j % 2 == 1

/-- A one-bit field written from a truth value. -/
def State.wrB (s : State) (f : Fld) (b : Bool) (i : Nat := 0) (j : Nat := 0) : State :=
  s.wr f (bitVal b) i j

/-- Add `n` to a counter that saturates at the top of its field. -/
def State.count (s : State) (f : Fld) (n : Nat := 1) (i : Nat := 0) (j : Nat := 0) : State :=
  s.wr f (min (s.rd f i j + n) (2 ^ f.w - 1)) i j

/-- Add `n` to a counter that wraps. -/
def State.countWrap (s : State) (f : Fld) (n : Nat := 1) (i : Nat := 0) (j : Nat := 0) : State :=
  s.wr f (s.rd f i j + n) i j

/-- The registers of the byte range `[lo, hi)` back at their values after cold reset. -/
def State.clearRegs (s : State) (lo hi : Nat) : State :=
  { s with regs := Tab.clear s.regs (8 * lo) (8 * hi) }

/-! ## Time, free values, output -/

/-- The state with the time moved up to `t`; time never runs back. -/
def State.upTo (s : State) (t : Nat) : State := { s with time := max s.time t }

/-- The next free value (notes/assumptions/2). -/
def State.free (s : State) : Nat := Config.freeNat s.freeCtr

/-- The state with the free value used up. -/
def State.freed (s : State) : State := { s with freeCtr := s.freeCtr + 1 }

/-- The state with one more item sent out. -/
def State.emit (s : State) (o : Out) : State := { s with out := s.out ++ [o] }

/-- A block is queued for the Filkor link: the link leaves FL1 (R267). -/
def State.filkorQueued (s : State) : State :=
  let s1 : State := { s with twin := { s.twin with lastQueued := s.time } }
  if s1.rd Reg.FLK.STAT.LP_STATE = 1 then s1.wr Reg.FLK.STAT.LP_STATE 0 else s1

/-- A control block (R263): eight bits of type, 56 bits of payload. -/
def controlBlock (type payload : Nat) : Nat := type + 2 ^ 8 * (payload % 2 ^ 56)

/-- The ACK of a mirror frame. -/
def ackBlock (seq status : Nat) : Nat := controlBlock 0xA4 (seq + 2 ^ 24 * status)

/-- A HEARTBEAT: count, the masks of OWN, YIELD and WARM, twin state. -/
def heartbeatBlock (count own yield warm st : Nat) : Nat :=
  controlBlock 0xA1 (count + 2 ^ 8 * own + 2 ^ 16 * yield + 2 ^ 24 * warm + 2 ^ 32 * st)

/-- A TX_TIME: lane, frame count, symbol position, interpolator phase. -/
def txTimeBlock (n fcount pos phase : Nat) : Nat :=
  controlBlock 0xA5 (n + 2 ^ 6 * fcount + 2 ^ 22 * pos + 2 ^ 40 * phase)

/-! ## Per-instance state -/

def State.ring (s : State) (r : Nat) : RingX := Tab.get {} s.rings r

def State.setRing (s : State) (r : Nat) (x : RingX) : State :=
  { s with rings := Tab.set {} s.rings r x }

def State.fn (s : State) (f : Nat) : FnX := Tab.get {} s.fns f

def State.setFn (s : State) (f : Nat) (x : FnX) : State := { s with fns := Tab.set {} s.fns f x }

/-- Store the shadow of a function (R494). -/
def State.setShadow (s : State) (f : Nat) (x : Option (Nat × Nat)) : State := s.setFn f { s.fn f with shadow := x }

/-- The `n` bytes of a number, lowest first (R7). -/
def leBytes (n v : Nat) : List Byte := (List.range n).map fun i => BitVec.ofNat 8 (v / 2 ^ (8 * i))

/-- The number a byte list spells, lowest first (R7). -/
def leNat : List Byte → Nat
  | [] => 0
  | b :: bs => b.toNat + 256 * leNat bs

/-- The checker of a port (R154): line lanes from 0, host lanes from 64, Filkor lanes from 192 on. -/
def State.chkOf (s : State) (k : Nat) : ChkX := Tab.get {} s.chk k
def State.setChk (s : State) (k : Nat) (x : ChkX) : State := { s with chk := Tab.set {} s.chk k x }

def State.core (s : State) (k : Nat) : CoreX := Tab.get {} s.cores k

def State.setCore (s : State) (k : Nat) (x : CoreX) : State := { s with cores := Tab.set {} s.cores k x }

/-- A keep core K0 to K7 runs (R21, R22); K2 to K6 stand still while their cluster is in test (R360). -/
def State.coreRuns (s : State) (k : Nat) : Bool :=
  !(s.core k).stopped && !(s.core k).restarting &&
    !(decide (2 ≤ k) && decide (k ≤ 6) && s.tests.any fun t => t.code == 12)

def State.engMapOf (s : State) (e : Nat) : EngMap := Tab.get .running s.engMap e

def State.setEngMap (s : State) (e : Nat) (x : EngMap) : State :=
  { s with engMap := Tab.set .running s.engMap e x }

/-! ## Domains (R13, R27, R415, R423) -/

/-- CORE is on and serving: D_ACTIVE after DEVICE_READY (R420, R504). -/
def State.coreOn (s : State) : Bool := s.phase == .active

/-- The course of a lane (R13). -/
def courseOf (n : Nat) : Nat := n / 8

/-- The host-lane quad of a line lane (R13). -/
def quadOfLane (n : Nat) : Nat := n / 16

/-- The power state a course last reached (R416). -/
def State.coursePow (s : State) (c : Nat) : CoursePow := Tab.get .off s.pwr.course c

def State.setCoursePow (s : State) (c : Nat) (p : CoursePow) : State :=
  { s with pwr := { s.pwr with course := Tab.set .off s.pwr.course c p } }

/-- A transition of this domain is in flight (R417). -/
def State.inTransition (s : State) (dtype index : Nat) : Bool :=
  match s.pwr.trans with
  | some t => t.dtype == dtype && t.index == index
  | none => false

/-- The course is being taken off at once (R342). -/
def State.goingOff (s : State) (c : Nat) : Bool := s.pwr.offNow.any (fun p => p.1 == c)

/-- The course stands in C_ON with no transition in flight. -/
def State.courseOn (s : State) (c : Nat) : Bool :=
  s.coursePow c == .on && !s.inTransition 1 c && !s.goingOff c

/-- Cc.D is on (R27, R423): the course last reached C_ON or C_IDLE. -/
def State.courseD (s : State) (c : Nat) : Bool := s.coursePow c != .off

/-- A host-lane quad is on. -/
def State.quadOn (s : State) (q : Nat) : Bool :=
  Tab.get false s.pwr.quadOn q

def State.setQuadOn (s : State) (q : Nat) (b : Bool) : State :=
  { s with pwr := { s.pwr with quadOn := Tab.set false s.pwr.quadOn q b } }

/-- A course's pads are latched (R421); every latch holds after reset. -/
def State.padHeldC (s : State) (c : Nat) : Bool := Tab.get true s.pwr.heldC c

def State.setPadHeldC (s : State) (c : Nat) (b : Bool) : State :=
  { s with pwr := { s.pwr with heldC := Tab.set true s.pwr.heldC c b } }

def State.padHeldQ (s : State) (q : Nat) : Bool := Tab.get true s.pwr.heldQ q

def State.setPadHeldQ (s : State) (q : Nat) (b : Bool) : State :=
  { s with pwr := { s.pwr with heldQ := Tab.set true s.pwr.heldQ q b } }

def State.padLatch (s : State) (c : Nat) : PadLatch := Tab.get {} s.pwr.latch c

def State.setPadLatch (s : State) (c : Nat) (x : PadLatch) : State :=
  { s with pwr := { s.pwr with latch := Tab.set {} s.pwr.latch c x } }

/-- The framer and the optics engine of a course (R13). -/
def framerOf (c : Nat) : Nat := 64 + 2 * c
def opticsOf (c : Nat) : Nat := 65 + 2 * c

/-- The course an engine belongs to, for lane, framer and optics engines (R13). -/
def courseOfEngine (e : Nat) : Nat := if e < 64 then e / 8 else (e - 64) / 2

/-- The life-cycle state of `SEC.LC` (R442): 0 VENDOR_TEST, 1 PROVISION, 2 FIELD, 3 RETURN. -/
def State.lc (s : State) : Nat := s.rd Reg.SEC.LC.LC_STATE

/-- The NVM window of R439 is open: every valid sensor reads from 0.0 °C to 95.0 °C. Readings are kept in 0.1 °C,
two's complement. -/
def State.nvmOpen (s : State) : Bool :=
  (List.range 24).all fun t =>
    s.flag Reg.THM.SENSOR.FAIL t ||
      (decide (0 ≤ signedOf (s.rd Reg.THM.SENSOR.READING t) 16) &&
        decide (signedOf (s.rd Reg.THM.SENSOR.READING t) 16 ≤ 950))

end Sys2Proof.Machine
end

