-- ==== Sys2Proof/Machine/Flags.lean ====
section
/-! DEFINITION. The flags that report to the host: raising an event source (R499 to R504), the OR conditions behind
events, and the flags of the engines' status register (R364, R365). -/

namespace Sys2Proof.Machine

/-- The source ID of course c's k-th source (R501). -/
def courseSrc (c k : Nat) : Nat := 64 + 12 * c + k

/-- The source ID of lane n's k-th source (R502). -/
def laneSrc (n k : Nat) : Nat := 160 + 7 * n + k

/-- Hold a raise in KEEP, one per source: a further raise keeps the first TIME and DETAIL and sets COALESCED (R504). -/
def holdRaise (h : List Raise) (x : Raise) : List Raise :=
  if h.any (fun y => y.src == x.src) then
    h.map fun y => if y.src = x.src then { y with coal := true } else y
  else h ++ [x]

/-- K4 takes raises: CORE is on and K4 runs (R504). -/
def State.k4On (s : State) : Bool := s.coreOn && s.coreRuns 4

/-- Raise event source `src` (R504): its latch bit sets, and the raise goes to K4, or is held while CORE is off or K4
is stopped. -/
def State.raise (s : State) (src detail : Nat) : State :=
  let s1 := (s.wr Reg.EVT.LATCH.RAISED 1 src).wr Reg.EVT.STAT.LAST_SRC src
  let x : Raise := ⟨src, s.time, detail, false⟩
  if s.k4On then { s1 with raises := s1.raises ++ [x] } else { s1 with held := holdRaise s1.held x }

/-- Raise a source when a condition rises from false to true. -/
def State.raiseRise (s : State) (before after : Bool) (src detail : Nat) : State :=
  if !before && after then s.raise src detail else s

/-- What K4 has not yet taken is held in KEEP when K4 stops or CORE goes off (R21, R504). -/
def State.holdRaises (s : State) : State :=
  { s with held := s.raises.foldl holdRaise s.held, raises := [] }

/-! ## Performance counters (R385, R386) -/

/-- Add to datapath counter `i`: it wraps at 2^48 with `OVF`, and its carry goes to a chained odd counter above. -/
def State.dpAdd (s : State) (i n : Nat) : State :=
  let t := s.rd Reg.PMC.DP_CNT.COUNT i + n
  let s1 := s.wr Reg.PMC.DP_CNT.COUNT t i
  if t < 2 ^ 48 then s1
  else
    let s2 := s1.wr Reg.PMC.DP_SEL.OVF 1 i
    if i % 2 = 0 ∧ s2.flag Reg.PMC.DP_SEL.CHAIN (i + 1) then
      let u := s2.rd Reg.PMC.DP_CNT.COUNT (i + 1) + t / 2 ^ 48
      (s2.wr Reg.PMC.DP_CNT.COUNT u (i + 1)).wr Reg.PMC.DP_SEL.OVF
        (if u < 2 ^ 48 then s2.rd Reg.PMC.DP_SEL.OVF (i + 1) else 1) (i + 1)
    else s2

/-- `n` datapath events of a code at an instance: every counter that selects them counts, unless all are frozen. -/
def State.dpCount (s : State) (code inst n : Nat) : State :=
  if s.flag Reg.PMC.CTRL.DP_FREEZE then s
  else
    (List.range 32).foldl (fun t i =>
      if t.rd Reg.PMC.DP_SEL.EVENT i = code ∧ t.rd Reg.PMC.DP_SEL.INST i = inst ∧
          !(i % 2 == 1 && t.flag Reg.PMC.DP_SEL.CHAIN i) then t.dpAdd i n else t) s

/-- Add to counter `i` of engine `e`, in the same way. -/
def State.pmcAdd (s : State) (e i n : Nat) : State :=
  let t := s.rd Reg.ENG.PMC_CNT.COUNT e i + n
  let s1 := s.wr Reg.ENG.PMC_CNT.COUNT t e i
  if t < 2 ^ 48 then s1
  else
    let s2 := s1.wr Reg.ENG.PMC_SEL.OVF 1 e i
    if i % 2 = 0 ∧ s2.flag Reg.ENG.PMC_SEL.CHAIN e (i + 1) then
      let u := s2.rd Reg.ENG.PMC_CNT.COUNT e (i + 1) + t / 2 ^ 48
      (s2.wr Reg.ENG.PMC_CNT.COUNT u e (i + 1)).wr Reg.ENG.PMC_SEL.OVF
        (if u < 2 ^ 48 then s2.rd Reg.ENG.PMC_SEL.OVF e (i + 1) else 1) e (i + 1)
    else s2

/-- `n` events of a code in engine `e`. -/
def State.engCount (s : State) (e code n : Nat) : State :=
  if n = 0 then s
  else
    (List.range 4).foldl (fun t i =>
      if t.rd Reg.ENG.PMC_SEL.EVENT e i = code ∧ !(i % 2 == 1 && t.flag Reg.ENG.PMC_SEL.CHAIN e i) then t.pmcAdd e i n
      else t) s

/-- A raise routed to a disabled ring or to a ring that is no event ring (R504). -/
def State.undelivered (s : State) (n : Nat) : State := s.count Reg.EVT.STAT.UNDELIVERED n

end Sys2Proof.Machine
end

