-- ==== Sys2Proof/Machine/Operands.lean ====
section
/-! DEFINITION. The submission entry of a command (12_command_set): the opcodes of R332 with the role, classes and
operand positions each has, and the reading of operands out of bytes 16 to 63. -/

namespace Sys2Proof.Machine

/-- The code of a status (R327). -/
def statusCode : Status → Nat
  | .ok => 0x00 | .partialDone => 0x01
  | .badOpcode => 0x10 | .badField => 0x11 | .noSession => 0x12 | .roleDenied => 0x13 | .lcDenied => 0x14
  | .domainOff => 0x20 | .blockInTest => 0x21 | .pwrBusy => 0x22 | .updateBusy => 0x23 | .twinNotSynced => 0x24
  | .notOwner => 0x25 | .noSpace => 0x26 | .aborted => 0x27 | .inUse => 0x28 | .busError => 0x29
  | .uninit => 0x30 | .eccUncorr => 0x31 | .dmaFault => 0x32
  | .calSuspect => 0x40 | .nvmTemp => 0x41
  | .sigFail => 0x50 | .rollback => 0x51

/-- The commands of R332. -/
inductive Op where
  /-- `SESSION_OPEN` -/
  | sessionOpen
  /-- `SESSION_CLOSE` -/
  | sessionClose
  /-- `NOP` -/
  | nop
  /-- `LANE_CONFIG` -/
  | laneConfig
  /-- `LANE_STATE` -/
  | laneState
  /-- `LANE_FIR` -/
  | laneFir
  /-- `CFG_WRITE` -/
  | cfgWrite
  /-- `SCHED_WRITE` -/
  | schedWrite
  /-- `POWER_SET` -/
  | powerSet
  /-- `COURSE_OFF_IMMEDIATE` -/
  | courseOffImmediate
  /-- `PAD_RELEASE` -/
  | padRelease
  /-- `SNAPSHOT` -/
  | snapshot
  /-- `SURVEY_READ` -/
  | surveyRead
  /-- `CAPTURE_START` -/
  | captureStart
  /-- `CAPTURE_DRAIN` -/
  | captureDrain
  /-- `CAPTURE_FREE` -/
  | captureFree
  /-- `SEED_SAVE` -/
  | seedSave
  /-- `SEED_ERASE` -/
  | seedErase
  /-- `RETIRE_MAP_CLEAR` -/
  | retireMapClear
  /-- `CALIBRATE` -/
  | calibrate
  /-- `BIAS_SET` -/
  | biasSet
  /-- `QUENCH` -/
  | quench
  /-- `SC_INJECT` -/
  | scInject
  /-- `CMIS_READ` -/
  | cmisRead
  /-- `CMIS_WRITE` -/
  | cmisWrite
  /-- `HOD_FILL` -/
  | hodFill
  /-- `HOD_WRITE` -/
  | hodWrite
  /-- `HOD_READ` -/
  | hodRead
  /-- `UPDATE_STAGE` -/
  | updateStage
  /-- `UPDATE_ACTIVATE` -/
  | updateActivate
  /-- `UPDATE_CONFIRM` -/
  | updateConfirm
  /-- `UPDATE_ABORT` -/
  | updateAbort
  /-- `UPDATE_COMMIT` -/
  | updateCommit
  /-- `ATTEST` -/
  | attest
  /-- `IDENTITY_READ` -/
  | identityRead
  /-- `KEYSLOT_WRITE` -/
  | keyslotWrite
  /-- `KEYSLOT_ERASE` -/
  | keyslotErase
  /-- `BIST_RUN` -/
  | bistRun
  /-- `TWIN_HANDOVER` -/
  | twinHandover
  /-- `TWIN_TAKEOVER` -/
  | twinTakeover
  /-- `TWIN_LOG_QUERY` -/
  | twinLogQuery
  /-- `PROGRAM_LOAD` -/
  | programLoad
  /-- `PROGRAM_CTRL` -/
  | programCtrl
  deriving DecidableEq, Repr

/-- The opcode of a command (R332). -/
def opCode : Op → Nat
  | .sessionOpen => 0x0001
  | .sessionClose => 0x0002
  | .nop => 0x0003
  | .laneConfig => 0x0101
  | .laneState => 0x0102
  | .laneFir => 0x0103
  | .cfgWrite => 0x0110
  | .schedWrite => 0x0120
  | .powerSet => 0x0130
  | .courseOffImmediate => 0x0131
  | .padRelease => 0x0132
  | .snapshot => 0x0200
  | .surveyRead => 0x0201
  | .captureStart => 0x0300
  | .captureDrain => 0x0301
  | .captureFree => 0x0302
  | .seedSave => 0x0400
  | .seedErase => 0x0401
  | .retireMapClear => 0x0402
  | .calibrate => 0x0410
  | .biasSet => 0x0500
  | .quench => 0x0501
  | .scInject => 0x0510
  | .cmisRead => 0x0520
  | .cmisWrite => 0x0521
  | .hodFill => 0x0600
  | .hodWrite => 0x0601
  | .hodRead => 0x0602
  | .updateStage => 0x0700
  | .updateActivate => 0x0701
  | .updateConfirm => 0x0702
  | .updateAbort => 0x0703
  | .updateCommit => 0x0704
  | .attest => 0x0800
  | .identityRead => 0x0801
  | .keyslotWrite => 0x0802
  | .keyslotErase => 0x0803
  | .bistRun => 0x0900
  | .twinHandover => 0x0A00
  | .twinTakeover => 0x0A01
  | .twinLogQuery => 0x0A02
  | .programLoad => 0x0B00
  | .programCtrl => 0x0B01

/-- The command an opcode names; none: unknown (R332). -/
def opOfCode (c : Nat) : Option Op :=
  [Op.sessionOpen, Op.sessionClose, Op.nop, Op.laneConfig, Op.laneState, Op.laneFir,
    Op.cfgWrite, Op.schedWrite, Op.powerSet, Op.courseOffImmediate, Op.padRelease, Op.snapshot,
    Op.surveyRead, Op.captureStart, Op.captureDrain, Op.captureFree, Op.seedSave, Op.seedErase,
    Op.retireMapClear, Op.calibrate, Op.biasSet, Op.quench, Op.scInject, Op.cmisRead,
    Op.cmisWrite, Op.hodFill, Op.hodWrite, Op.hodRead, Op.updateStage, Op.updateActivate,
    Op.updateConfirm, Op.updateAbort, Op.updateCommit, Op.attest, Op.identityRead, Op.keyslotWrite,
    Op.keyslotErase, Op.bistRun, Op.twinHandover, Op.twinTakeover, Op.twinLogQuery, Op.programLoad,
    Op.programCtrl].find?
    fun o => opCode o == c

/-! ## Operand bytes (R322): byte numbers are those of the submission entry -/

/-- `w` bits of the operands from bit `lo` of byte `b` on. -/
def opBits (e : Entry) (b lo w : Nat) : Nat := bitsOf e.ops.toNat (8 * (b - 16) + lo) w

def opByte (e : Entry) (b : Nat) : Nat := opBits e b 0 8
def op16 (e : Entry) (b : Nat) : Nat := opBits e b 0 16
def op32 (e : Entry) (b : Nat) : Nat := opBits e b 0 32
def op64 (e : Entry) (b : Nat) : Nat := opBits e b 0 64

/-- The bytes `b` to `b + n - 1` of the operands. -/
def opBytes (e : Entry) (b n : Nat) : List Byte :=
  (List.range n).map fun i => BitVec.ofNat 8 (opByte e (b + i))

/-- `n` whole bytes from byte `b`, as a range of operand bits. -/
def rangeOf (b n : Nat) : Nat × Nat := (8 * (b - 16), 8 * n)

/-- The operand bits an opcode uses, as (first bit, number of bits) with bit 0 the lowest of byte 16; every other
bit must be zero (R322, R324). -/
def usedRanges (o : Op) (e : Entry) : List (Nat × Nat) :=
  match o with
  | .sessionOpen => if opByte e 16 = 0 then [rangeOf 16 2] else [rangeOf 16 3, rangeOf 20 2, rangeOf 32 32]
  | .laneConfig => [rangeOf 16 1, (8, 6), (16, 4)]
  | .laneState => [rangeOf 16 1]
  | .laneFir => [rangeOf 16 16, (128, 1), rangeOf 33 1]
  | .cfgWrite => [rangeOf 16 48]
  | .schedWrite => [rangeOf 16 12]
  | .powerSet => [rangeOf 16 3, (24, 1)]
  | .courseOffImmediate => [(0, 1)]
  | .padRelease => [rangeOf 16 2]
  | .snapshot => [rangeOf 16 16]
  | .surveyRead => [rangeOf 16 6, rangeOf 24 8]
  | .captureStart => [rangeOf 16 12]
  | .captureDrain => [rangeOf 16 12, rangeOf 32 8]
  | .captureFree => [rangeOf 16 4]
  | .calibrate => if opByte e 16 = 1 then [rangeOf 16 1, (8, 4)] else [rangeOf 16 1]
  | .biasSet =>
    rangeOf 16 1 :: ((List.range (min (opByte e 16) 8)).map fun i =>
      [(8 * (4 + 4 * i), 14), (8 * (6 + 4 * i), 12)]).flatten
  | .quench => [rangeOf 16 2]
  | .cmisRead => [rangeOf 16 4, rangeOf 24 8]
  | .cmisWrite => [rangeOf 16 4, rangeOf 32 32]
  | .hodFill | .hodWrite | .hodRead => [rangeOf 16 16]
  | .updateStage => [rangeOf 16 8, (64, 2), rangeOf 32 8]
  | .updateActivate => [rangeOf 16 2, (16, 1)]
  | .attest => [rangeOf 16 44]
  | .identityRead => [rangeOf 16 12]
  | .keyslotWrite => [rangeOf 16 2, rangeOf 24 8]
  | .bistRun => [rangeOf 16 1]
  | .twinHandover => [(0, 1)]
  | .twinLogQuery => [rangeOf 16 2, rangeOf 24 8]
  | .programLoad => [rangeOf 16 4, rangeOf 24 8]
  | .programCtrl => [rangeOf 16 1]
  | .sessionClose | .nop | .seedSave | .seedErase | .retireMapClear | .scInject | .updateConfirm | .updateAbort
  | .updateCommit | .keyslotErase | .twinTakeover => []

/-- The operands with the used positions set to zero: what must be zero as a whole (R324). -/
def unusedBits (o : Op) (e : Entry) : Nat :=
  (usedRanges o e).foldl (fun v r => putBits v r.1 r.2 0) e.ops.toNat

/-- The classes an opcode accepts (R323, R332). -/
def opClasses : Op → List Nat
  | .sessionOpen | .sessionClose | .attest | .identityRead | .keyslotWrite | .keyslotErase => [9]
  | .nop | .powerSet | .padRelease | .updateStage | .updateActivate | .updateConfirm | .updateAbort
  | .updateCommit => [0]
  | .laneConfig | .laneState | .laneFir | .surveyRead | .captureStart | .seedSave | .seedErase | .retireMapClear
  | .calibrate => [2]
  | .cfgWrite => [0, 1, 2, 3, 4, 5]
  | .schedWrite | .courseOffImmediate | .cmisRead | .cmisWrite => [1]
  | .snapshot => [0, 1, 2, 3, 4, 5, 6, 7]
  | .captureDrain | .captureFree | .hodFill | .hodWrite | .hodRead => [6]
  | .biasSet | .quench => [4]
  | .scInject => [5]
  | .bistRun => [0, 1, 2, 3]
  | .twinHandover | .twinTakeover | .twinLogQuery => [8]
  | .programLoad | .programCtrl => [7]

/-- The target IDs of a class, from 0 up to but not including this (R323). -/
def targetLimit (o : Op) (cls : Nat) : Nat :=
  match cls with
  | 1 => 8
  | 2 => 64
  | 3 => 128
  | 4 => if o = .biasSet then 8 else 1
  | 5 => 3
  | 7 => 96
  | 8 => 8
  | 9 => if o = .keyslotWrite ∨ o = .keyslotErase then 64 else 1
  | _ => 1

/-- The lowest role that may issue the command (R332, R336, R351): 0 OBSERVE to 3 UPDATE. The session opcodes are
judged without a role. -/
def opRole (o : Op) (e : Entry) : Nat :=
  match o with
  | .sessionOpen | .sessionClose | .nop | .surveyRead | .captureDrain | .cmisRead | .hodRead | .attest
  | .identityRead | .twinLogQuery => 0
  | .snapshot => if e.cls.toNat = 7 then 2 else 0
  | .laneConfig | .laneFir | .cfgWrite | .schedWrite | .powerSet | .courseOffImmediate | .padRelease
  | .captureStart | .captureFree | .biasSet | .quench | .scInject | .cmisWrite | .hodFill | .hodWrite => 1
  | .laneState => if opByte e 16 = 5 ∨ opByte e 16 = 3 then 2 else 1
  | .calibrate => if opByte e 16 = 0 then 2 else 1
  | .seedSave | .seedErase | .retireMapClear | .bistRun | .twinHandover | .twinTakeover | .programLoad
  | .programCtrl => 2
  | .updateStage | .updateActivate | .updateConfirm | .updateAbort | .updateCommit | .keyslotWrite
  | .keyslotErase => 3

/-- The data bytes a command moves to or from host memory (R310), as its operands state them. -/
def dataBytes (o : Op) (e : Entry) : Nat :=
  match o with
  | .schedWrite => op32 e 24
  | .snapshot => op32 e 20
  | .surveyRead => 48 * op16 e 20
  | .captureDrain => op32 e 24
  | .hodWrite | .hodRead | .updateStage => op32 e 20
  | .cmisRead => opByte e 19
  | .attest => 16864
  | .identityRead => op32 e 24
  | .keyslotWrite => 400
  | .programLoad => op32 e 16
  | _ => 0

/-- A read-type command: on a block in test it is answered from the last survey before the test (R331). -/
def opReads : Op → Bool
  | .snapshot | .surveyRead | .cmisRead | .captureDrain | .hodRead | .twinLogQuery | .attest | .identityRead => true
  | _ => false

/-- Triple `i` of CFG_WRITE (R338): register offset, mask, value. -/
def tripleOf (e : Entry) (i : Nat) : Nat × Nat × Nat :=
  (op32 e (16 + 12 * i), op32 e (20 + 12 * i), op32 e (24 + 12 * i))

/-- The used triples of CFG_WRITE: those whose mask is not 0, with their index. -/
def usedTriples (e : Entry) : List (Nat × Nat × Nat × Nat) :=
  ((List.range 4).map fun i => (i, tripleOf e i)).filter fun t => t.2.2.1 != 0

end Sys2Proof.Machine
end

