-- ==== Sys2Proof/Machine/Rings.lean ====
section
/-! DEFINITION. Rings (11_rings_and_sessions): pointers and slots, MSI-X messages and their coalescing, completion and
event records, the enable checks and the ways a ring is disabled, event delivery and held raises (R298 to R309, R503,
R504). -/

namespace Sys2Proof.Machine

/-! ## Ring context -/

/-- `STAT.STATE` codes of a ring (R321): 0 DISABLED, 1 ENABLED, 2 ERROR, 3 QUIESCING. -/
def State.ringState (s : State) (r : Nat) : Nat := s.rd Reg.RING.STAT.STATE r

/-- The number of slots of a ring's queues (R298). -/
def State.ringSize (s : State) (r : Nat) : Nat := 2 ^ s.rd Reg.RING.CFG.SIZE r

def State.ringOwner (s : State) (r : Nat) : Nat := s.rd Reg.RING.CFG.OWNER r

/-- An enabled event ring. -/
def State.eventRing (s : State) (r : Nat) : Bool := s.ringState r == 1 && s.rd Reg.RING.CFG.TYPE r == 1

/-- An enabled command ring. -/
def State.commandRing (s : State) (r : Nat) : Bool := s.ringState r == 1 && s.rd Reg.RING.CFG.TYPE r == 0

/-- A ring is at rest (R299): DISABLED, or ERROR with nothing in flight. -/
def State.atRest (s : State) (r : Nat) : Bool :=
  s.ringState r == 0 || (s.ringState r == 2 && (s.ring r).flights.isEmpty)

/-- Records the host has not yet consumed. -/
def State.cqUsed (s : State) (r : Nat) : Nat :=
  (s.rd Reg.RING.CQ_PTR.TAIL r + s.ringSize r - s.rd Reg.RING.CQ_PTR.HEAD r) % s.ringSize r

/-- A completion slot is free for one more command (R303): neither an unconsumed completion nor a reservation of a
fetched command holds it. -/
def State.cqFree (s : State) (r : Nat) : Bool :=
  decide (s.cqUsed r + (s.ring r).flights.length < s.ringSize r - 1)

/-- The entries of an MSI-X table (R309). -/
def msixSize (f : Nat) : Nat := if f = 0 then 1040 else 16

/-- The key of vector `v` of function `f` in the vector table. -/
def vecKey (f v : Nat) : Nat := 2048 * f + v

def State.vec (s : State) (f v : Nat) : Vec := Tab.get {} s.vecs (vecKey f v)

def State.setVec (s : State) (f v : Nat) (x : Vec) : State :=
  { s with vecs := Tab.set {} s.vecs (vecKey f v) x }

/-- Send a message of a vector, or set its pending bit while it is masked (R309). -/
def State.sendMsix (s : State) (f v : Nat) : State :=
  if (s.vec f v).masked then s.setVec f v { s.vec f v with pend := true } else s.emit (.msix f v)

/-- Send the messages a ring owes and start the count afresh (R309). -/
def State.sendOwed (s : State) (r : Nat) : State :=
  let x := s.ring r
  let s1 := s.setRing r { x with coalCount := 0, coalVecs := [] }
  x.coalVecs.foldl (fun t v => t.sendMsix (s.ringOwner r) v) s1

/-- An interrupting record has been written to ring `r` and signals vector `v` (R309, R503): with IE at 0 nothing; with
the vector outside the owner's table ERR_CAUSE VECTOR; otherwise the message goes out when COAL_CNT records are
reached, or at once with COAL_US at 0. -/
def State.signal (s : State) (r v : Nat) : State :=
  if s.rd Reg.RING.INTR.IE r = 0 then s
  else if msixSize (s.ringOwner r) ≤ v then s.wr Reg.RING.STAT.ERR_CAUSE 5 r
  else
    let x := s.ring r
    let x' := { x with
      coalCount := x.coalCount + 1
      coalFirst := if x.coalCount = 0 then s.time else x.coalFirst
      coalVecs := if x.coalVecs.contains v then x.coalVecs else x.coalVecs ++ [v] }
    let s1 := s.setRing r x'
    if max 1 (s.rd Reg.RING.INTR.COAL_CNT r) ≤ x'.coalCount ∨ s.rd Reg.RING.INTR.COAL_US r = 0 then s1.sendOwed r
    else s1

/-- The CQ tail moves on by one slot; the phase inverts when it wraps (R304). -/
def State.advanceCq (s : State) (r : Nat) : State :=
  let slot := s.rd Reg.RING.CQ_PTR.TAIL r
  if slot + 1 = s.ringSize r then
    (s.wr Reg.RING.CQ_PTR.TAIL 0 r).wr Reg.RING.STAT.PHASE (1 - s.rd Reg.RING.STAT.PHASE r) r
  else s.wr Reg.RING.CQ_PTR.TAIL (slot + 1) r

/-! ## Event records (R307, R308) -/

/-- The 32 bytes of an event record (R307). -/
def eventBytes (phase : Nat) (x : Raise) (rseq : Nat) : List Byte :=
  [0, BitVec.ofNat 8 (phase + 2 * bitVal x.coal)] ++ leBytes 2 x.src ++ leBytes 4 rseq ++ leBytes 8 x.time ++
    leBytes 8 x.detail ++ leBytes 8 0

/-- The address of the CQ tail's slot: records are 32 bytes, aligned to 32 (R304). -/
def State.cqAddr (s : State) (r : Nat) : Nat :=
  4096 * s.rd Reg.RING.CQ_BASE.ADDR r + 32 * s.rd Reg.RING.CQ_PTR.TAIL r

/-- Write the record of a raise to event ring `r`, which has a free slot. -/
def State.writeEvent (s : State) (r : Nat) (x : Raise) : State :=
  let rx := s.ring r
  let s1 := (s.emit (.event r (s.rd Reg.RING.CQ_PTR.TAIL r) (s.rd Reg.RING.STAT.PHASE r) x rx.rseq)).emit
    (.hostWrite (s.cqAddr r) (eventBytes (s.rd Reg.RING.STAT.PHASE r) x rx.rseq))
  let s2 := (s1.setRing r { rx with rseq := (rx.rseq + 1) % 2 ^ 32 }).advanceCq r
  if s.rd Reg.EVT.MAP.INTR x.src = 1 then
    s2.signal r (if s.rd Reg.EVT.MAP.OWN_VEC x.src = 1 then s.rd Reg.EVT.MAP.VECTOR x.src
      else s.rd Reg.RING.INTR.VECTOR r)
  else s2

/-- An event ring has a free slot (R298): it holds at most 2^k − 1 entries. -/
def State.eventFree (s : State) (r : Nat) : Bool := decide (s.cqUsed r < s.ringSize r - 1)

/-- Insert a pending source in ascending ID (R308). -/
def insertRaise (x : Raise) : List Raise → List Raise
  | [] => [x]
  | y :: ys => if x.src < y.src then x :: y :: ys else y :: insertRaise x ys

/-- Write a raise to an enabled event ring, or hold its pending bit while no slot is free; a further raise of a
pending source is coalesced (R307, R308). -/
def State.toEventRing (s : State) (r : Nat) (x : Raise) : State :=
  let rx := s.ring r
  if rx.pend.any (fun y => y.src == x.src) then
    s.setRing r { rx with pend := rx.pend.map fun y => if y.src = x.src then { y with coal := true } else y }
  else if s.eventFree r then s.writeEvent r x
  else s.setRing r { rx with pend := insertRaise x rx.pend }

/-- Deliver a raise that K4 has taken (R306, R503, R504). -/
def State.deliver (s : State) (x : Raise) : State :=
  let r := s.rd Reg.EVT.MAP.RING x.src
  if s.rd Reg.EVT.MAP.EN x.src = 0 then s
  else if s.eventRing r then s.toEventRing r x
  else s.undelivered 1

/-- Pending sources are written in ascending ID as slots free up (R308); `n` bounds how many. -/
def State.drainPend (s : State) (r : Nat) : Nat → State
  | 0 => s
  | n + 1 =>
    match (s.ring r).pend with
    | [] => s
    | x :: xs =>
      if s.eventFree r then ((s.setRing r { s.ring r with pend := xs }).writeEvent r x).drainPend r n else s

/-- Judge one held raise against its source's map (R504): whether it stays held, and the state after. -/
def State.judgeHeld (s : State) (x : Raise) : State × Bool :=
  let r := s.rd Reg.EVT.MAP.RING x.src
  if s.rd Reg.EVT.MAP.EN x.src = 0 then (s, false)
  else if s.eventRing r then (s.toEventRing r x, false)
  else if s.ringState r = 1 then (s.undelivered 1, false)
  else (s, true)

/-- Judge a list of held raises; those that stay held are kept in order. -/
def State.judgeAll (s : State) : List Raise → State
  | [] => s
  | x :: xs =>
    let (s1, keep) := s.judgeHeld x
    let s2 := s1.judgeAll xs
    if keep then { s2 with held := x :: s2.held } else s2

/-- Once K4 runs, and at each enable of a ring, every held raise is judged (R504). -/
def State.judgeHeldAll (s : State) : State :=
  if s.k4On then ({ s with held := [] } : State).judgeAll s.held else s

/-! ## Completions (R303, R304, R326) -/

/-- The 32 bytes of a completion (R326). -/
def completionBytes (phase : Nat) (res : Res) (sqHead : Nat) (tag : BitVec 64) : List Byte :=
  [BitVec.ofNat 8 (statusCode res.st), BitVec.ofNat 8 (phase + 2 * bitVal res.stale + 4 * bitVal res.mirrored)] ++
    leBytes 2 sqHead ++ leBytes 4 res.r0 ++ leBytes 8 tag.toNat ++ leBytes 4 res.r1 ++ leBytes 4 res.r2 ++
    leBytes 4 res.r3 ++ leBytes 4 res.r4

/-- Write the completion of a finished flight. -/
def State.writeCompletion (s : State) (r : Nat) (f : Flight) (res : Res) : State :=
  let s1 := (s.emit (.completion r (s.rd Reg.RING.CQ_PTR.TAIL r) (s.rd Reg.RING.STAT.PHASE r) res f.sqHead f.e.tag)).emit
    (.hostWrite (s.cqAddr r) (completionBytes (s.rd Reg.RING.STAT.PHASE r) res f.sqHead f.e.tag))
  (s1.advanceCq r).signal r (s.rd Reg.RING.INTR.VECTOR r)

/-- Completions are written in submission order: those of the leading finished flights (R303). -/
def State.flush (s : State) (r : Nat) : List Flight → State
  | [] => s.setRing r { s.ring r with flights := [] }
  | f :: fs =>
    match f.phase with
    | .done res => (s.writeCompletion r f res).flush r fs
    | _ => s.setRing r { s.ring r with flights := f :: fs }

/-- `n` words of the hod from `w` on are written: none of them is poisoned. For the regions whose content stands
elsewhere in State, `hod.words` lists the poisoned words alone (R393, R396). -/
def State.hodRewritten (s : State) : Nat → Nat → State
  | _, 0 => s
  | w, n + 1 =>
    ({ s with hod := { s.hod with words := Tab.set none s.hod.words w none } } : State).hodRewritten (w + 1) n

/-- The first word of place `k` in the mirror log's ring of 4,096 entries of 16 bytes (R280; notes/assumptions/135). -/
def logWord (k : Nat) : Nat := 0x0BC00000 / 8 + 2 * (k % 4096)

/-- A mirrored command that has been applied enters the mirror log, which keeps the last 4,096 (R280). -/
def State.logMirror (s : State) (x : MirrorLog) : State :=
  ({ s with twin := { s.twin with
      log := (x :: s.twin.log).take 4096, logAt := (s.twin.logAt + 1) % 4096 } } : State).hodRewritten (logWord s.twin.logAt) 2

/-- Finish a command for whoever asked for it: the host's completion is written in its turn; a mirror frame is
acknowledged with the status (R278). A flight that a reset has removed writes nothing (R297). -/
def State.finish (s : State) (o : Origin) (res : Res) : State :=
  match o with
  | .host r fid =>
    let fs := (s.ring r).flights
    match fs.find? (fun f => f.fid == fid) with
    | none => s
    | some f =>
      let res' := match f.mirrored with
        | some _ => { res with mirrored := true }
        | none => res
      let s1 := match f.mirrored with
        | some q => s.logMirror ⟨r, f.e.tag, q, res.st⟩
        | none => s
      s1.flush r (fs.map fun g => if g.fid = fid then { g with phase := .done res' } else g)
  | .mirror q r tag =>
    let s1 := if res.st = .ok then s.logMirror ⟨r, tag, q, res.st⟩ else s
    s1.filkorQueued.emit (.filkorBlock (ackBlock q (statusCode res.st)))
  | .register => s
  | .device => s

/-- Finish with a status alone. -/
def State.finishSt (s : State) (o : Origin) (st : Status) : State := s.finish o { st := st }

/-! ## The staging lock (R356, R454, R457) -/

/-- `UPD.STAT.STATE` changes; UPDATE_STATE is raised, with whether the change ends a fallback. -/
def State.updTo (s : State) (st : Nat) (ended : Bool := false) : State :=
  let old := s.rd Reg.UPD.STAT.STATE
  if old = st then s else (s.wr Reg.UPD.STAT.STATE st).raise 13 (st + 16 * old + 256 * bitVal ended)

/-- The staging slot is emptied and its reservation ends. -/
def State.emptySlot (s : State) : State :=
  (({ s with upd := {
      s.upd with
      staged := 0, stagedInfo := none, reserved := false, verify := none, verifyTwin := false
      receiving := none } } : State).wr Reg.UPD.VERSION.STAGED 0).wr Reg.UPD.PROGRESS.PERCENT 0

/-- The staging lock is freed. -/
def State.freeLock (s : State) : State :=
  (({ s with upd := { s.upd with lockRing := none } } : State).wr Reg.UPD.STAT.LOCK 0).wr
    Reg.UPD.STAT.LOCK_FN 0

/-- The image in the staging slot is given up: slot emptied, lock freed. -/
def State.dropImage (s : State) : State := s.emptySlot.freeLock.updTo 0

/-- The session of a ring ends (R320). A staging lock it held before activation is freed and the slot emptied; the
verification that still ran ends with it. -/
def State.endSession (s : State) (r : Nat) : State :=
  let s1 := s.setRing r { s.ring r with session := none }
  if s.upd.lockRing = some r ∧ (s.rd Reg.UPD.STAT.STATE = 1 ∨ s.rd Reg.UPD.STAT.STATE = 2) then
    match s.upd.verify with
    | some o => s1.dropImage.finishSt o .aborted
    | none => s1.dropImage
  else s1

/-! ## Enabling and disabling (R299, R305) -/

/-- What must hold for a ring to be enabled (R299). -/
def State.enableOk (s : State) (r : Nat) : Bool :=
  decide (4 ≤ s.rd Reg.RING.CFG.SIZE r) && decide (s.rd Reg.RING.CFG.SIZE r ≤ 16) &&
  s.rd Reg.RING.CQ_BASE.ADDR r != 0 &&
  (s.rd Reg.RING.CFG.TYPE r == 1 || s.rd Reg.RING.SQ_BASE.ADDR r != 0) &&
  (s.rd Reg.RING.INTR.IE r == 0 || decide (s.rd Reg.RING.INTR.VECTOR r < msixSize (s.ringOwner r)))

/-- Enable a ring at rest, with the checks of R299; then held raises are judged again (R504). -/
def State.enable (s : State) (r : Nat) : State :=
  if s.enableOk r then
    let s1 := ((((((s.wr Reg.RING.CFG.EN 1 r).wr Reg.RING.SQ_PTR.TAIL 0 r).wr Reg.RING.SQ_PTR.HEAD 0 r).wr
      Reg.RING.CQ_PTR.TAIL 0 r).wr Reg.RING.CQ_PTR.HEAD 0 r).wr Reg.RING.STAT.PHASE 1 r)
    let s2 := ((s1.wr Reg.RING.STAT.STATE 1 r).wr Reg.RING.STAT.ERR_CAUSE 0 r)
    (s2.setRing r { s2.ring r with rseq := 0, coalCount := 0, coalVecs := [], pend := [] }).judgeHeldAll
  else (s.wr Reg.RING.CFG.EN 0 r).wr Reg.RING.STAT.ERR_CAUSE 1 r

/-- The session of a ring ends and its pending event sources are discarded (R299, R308, R320). -/
def State.dropRing (s : State) (r : Nat) : State :=
  let x := s.ring r
  ((s.setRing r { x with pend := [] }).endSession r).undelivered x.pend.length

/-- A write of 0 to EN of an enabled ring (R299): QUIESCING while commands are in flight, else DISABLED. -/
def State.disable (s : State) (r : Nat) : State :=
  let s1 := (s.wr Reg.RING.CFG.EN 0 r).dropRing r
  s1.wr Reg.RING.STAT.STATE (if (s.ring r).flights.isEmpty then 0 else 3) r

/-- A ring enters ERROR with a cause (R299, R305): EN clears, the error is logged and RING_ERROR is raised. -/
def State.ringError (s : State) (r cause : Nat) : State :=
  let s1 := (s.wr Reg.RING.CFG.EN 0 r).dropRing r
  let s2 := (s1.wr Reg.RING.STAT.STATE 2 r).wr Reg.RING.STAT.ERR_CAUSE cause r
  let s3 := ((s2.wr Reg.RING.ERR_LOG.RING r).wr Reg.RING.ERR_LOG.CAUSE cause).wr Reg.RING.ERR_LOG.VALID 1
  s3.raise 6 (r + 4096 * cause)

/-- A reset of a function disables a ring at once: commands already fetched write no completion (R297). -/
def State.killRing (s : State) (r : Nat) : State :=
  let s1 := (s.wr Reg.RING.CFG.EN 0 r).dropRing r
  let s2 := s1.setRing r { s1.ring r with flights := [], nonce := none, coalCount := 0, coalVecs := [] }
  (s2.wr Reg.RING.STAT.STATE 0 r).wr Reg.RING.STAT.ERR_CAUSE 0 r

/-- The rings the state knows anything of, each once: no other ring is enabled or holds anything. -/
def State.knownRings (s : State) : List Nat :=
  (s.rings.map (fun (p : Nat × RingX) => p.1) ++
    (s.regs.filter fun (p : Nat × Nat) => decide (8 * 0x3C0000 ≤ p.1) && decide (p.1 < 8 * 0x400000)).map
      fun (p : Nat × Nat) => (p.1 - 8 * 0x3C0000) / (8 * 0x40)).eraseDups

end Sys2Proof.Machine
end

