-- ==== Sys2Proof/Machine/Commands.lean ====
section
/-! DEFINITION. How a command is taken from its ring and judged (12_command_set, R324 to R332): the fetch of an entry,
the ordered checks of R328, the engine that serves it, the pair (R279), and the shared course of a command from its
start to its completion. -/

namespace Sys2Proof.Machine

/-! ## Twin and test conditions the checks ask for -/

/-- The twin state, codes of R274. -/
def State.twinState (s : State) : Nat := s.rd Reg.FLK.TWIN_STAT.STATE

/-- The device owns course c: by its model of the engine's side, or always with TWIN_ROLE NONE (R270). -/
def State.owns (s : State) (c : Nat) : Bool :=
  if s.twin.strap = 0 then true
  else if s.twin.strap = 1 then !Tab.get false s.twin.sideB c
  else Tab.get false s.twin.sideB c

/-- The device's own TWIN_SEL[c] level (R269). -/
def State.ownSel (s : State) (c : Nat) : Bool := Tab.get false s.twin.ownSel c

/-- Ownership of course c is moving on this device (R279): TAKEOVER with a move of this course in progress. -/
def State.moving (s : State) (c : Nat) : Bool :=
  s.twinState == 4 &&
    (s.twin.handovers.any (fun m => m.course == c) || s.twin.takeovers.any (fun m => m.course == c))

/-- A test runs on the partition of this target code (R466). -/
def State.inTest (s : State) (code : Nat) : Bool := s.tests.any fun t => t.code == code

/-- A lane's tile is in test: its own test or its course's (R331). -/
def State.laneInTest (s : State) (n : Nat) : Bool := s.inTest (64 + n) || s.inTest (courseOf n)

/-! ## Servers (R329, R245, R353) -/

/-- What serves a command: a keep core, a lane or course engine by logical number, or the ring engine alone. -/
inductive Server where
  | keep (k : Nat)
  | engine (e : Nat)
  | ringEngine
  deriving DecidableEq, Repr

/-- The bias channel a register offset of the bias block belongs to; none: `BIAS.CTRL` and the block's own
registers (R338, R339). -/
def biasOfOfs (ofs : Nat) : Option Nat :=
  if 0x100 ≤ ofs ∧ ofs < 0x500 then some ((ofs - 0x100) / 0x10) else none

/-- The decimation channel a register offset of the decimation block belongs to. -/
def decOfOfs (ofs : Nat) : Option Nat :=
  if 0x100 ≤ ofs ∧ ofs < 0x500 then some ((ofs - 0x100) / 0x10) else none

/-- K7 serves a course's bias commands in place of its optics engine (R245). -/
def State.biasServer (s : State) (c : Nat) : Server :=
  if s.coursePow c = .off ∨ s.engMapOf (opticsOf c) ≠ .running then .keep 7 else .engine (opticsOf c)

/-- The server of a command (R329). -/
def State.server (s : State) (o : Op) (e : Entry) : Server :=
  let t := e.target.toNat
  match o with
  | .sessionOpen | .sessionClose | .attest | .identityRead | .keyslotWrite | .keyslotErase => .keep 1
  | .powerSet | .courseOffImmediate | .padRelease => .keep 2
  | .twinHandover | .twinTakeover | .twinLogQuery => .keep 3
  | .nop | .snapshot | .surveyRead => .keep 4
  | .captureStart | .captureDrain | .captureFree | .hodFill | .hodWrite | .hodRead => .keep 5
  | .updateStage | .updateActivate | .updateConfirm | .updateAbort | .updateCommit => .keep 6
  | .bistRun | .scInject => .keep 7
  | .quench => if s.coreRuns 7 then .keep 7 else if opByte e 17 = 0 then .ringEngine else .keep 7
  | .laneConfig | .laneState | .laneFir | .calibrate | .seedSave | .seedErase | .retireMapClear | .programLoad
  | .programCtrl => .engine t
  | .schedWrite => .engine (framerOf t)
  | .biasSet => s.biasServer t
  | .cmisRead | .cmisWrite => .engine (opticsOf t)
  | .cfgWrite =>
    match e.cls.toNat with
    | 0 => .keep 2
    | 1 => .engine (framerOf t)
    | 2 => .engine t
    | 3 => .engine (framerOf (t / 16))
    | 4 =>
      match (usedTriples e).findSome? fun x => biasOfOfs x.2.1 with
      | some b => s.biasServer (b / 8)
      | none => .keep 7
    | _ => .keep 7

/-- How a server stands: running, waiting to run again, or off. -/
inductive ServerState where
  | runs | waits | off
  deriving DecidableEq, Repr

/-- A stopped or unmapped server is off; one being substituted, or in an engine cluster under test (R360), makes the
command wait (R329). Lane and course engines stop with their course (R20). -/
def State.serverState (s : State) (v : Server) : ServerState :=
  match v with
  | .ringEngine => .runs
  | .keep k =>
    if (s.core k).stopped then .off
    else if 2 ≤ k ∧ k ≤ 6 ∧ s.inTest 12 then .waits
    else .runs
  | .engine e =>
    if 80 ≤ e then .runs
    else if !s.courseD (courseOfEngine e) then .off
    else
      match s.engMapOf e with
      | .running => .runs
      | .substituting => .waits
      | .unmapped => .off

/-! ## The course and the domain a command concerns -/

/-- The course whose mirrored set or test a command concerns (R339, R341); none: no course. -/
def State.courseOfCmd (s : State) (o : Op) (e : Entry) : Option Nat :=
  let t := e.target.toNat
  match o with
  | .powerSet | .padRelease =>
    if opByte e 16 = 1 then some (opByte e 17) else if opByte e 16 = 2 then some (2 * opByte e 17) else none
  | .cfgWrite =>
    match e.cls.toNat with
    | 1 => some t
    | 2 => some (t / 8)
    | 3 => some (t / 16)
    | 4 => ((usedTriples e).findSome? fun x => biasOfOfs x.2.1).map fun b => b / 8
    | 5 =>
      if t = 2 then ((usedTriples e).findSome? fun x => decOfOfs x.2.1).map fun j => s.rd Reg.DEC.CFG.COURSE j
      else none
    | _ => none
  | .snapshot =>
    match e.cls.toNat with
    | 1 => some t
    | 2 => some (t / 8)
    | 3 => some (t / 16)
    | _ => none
  | .biasSet | .schedWrite | .courseOffImmediate | .cmisRead | .cmisWrite | .twinHandover | .twinTakeover
  | .twinLogQuery => some t
  | .laneConfig | .laneState | .laneFir | .surveyRead | .captureStart | .seedSave | .seedErase | .retireMapClear
  | .calibrate => some (t / 8)
  | .programLoad | .programCtrl => some (courseOfEngine t)
  | .bistRun =>
    match e.cls.toNat with
    | 1 => some t
    | 2 => some (t / 8)
    | 3 => some (t / 16)
    | _ => none
  | _ => none

/-- A mirrored command (R277, R332): the opcodes marked M, without LOCAL, FLK transitions, and converter or device
triples that belong to no course. -/
def State.mirroredCmd (s : State) (o : Op) (e : Entry) : Bool :=
  match o with
  | .laneConfig | .laneState | .laneFir | .schedWrite | .calibrate | .biasSet | .quench => true
  | .padRelease => true
  | .powerSet => opBits e 19 0 1 == 0 && opByte e 16 != 3
  | .courseOffImmediate => opBits e 16 0 1 == 0
  | .cfgWrite => (s.courseOfCmd o e).isSome
  | _ => false

/-- A host lane's block is on (R218, R229): its quad is on and the lane is not OFF. -/
def State.hostLaneOn (s : State) (k : Nat) : Bool :=
  s.quadOn (k / 32) && s.rd Reg.HL.STAT.STATE k != 0

/-- VBIAS is present (R244, R423). -/
def State.vbias (s : State) : Bool := s.flag Reg.BIAS.STAT.VBIAS_OK

/-- The domain the command needs is on (check 6 of R328; R25, R335, R343, R352, R355, R424). -/
def State.domainOk (s : State) (o : Op) (e : Entry) : Bool :=
  let t := e.target.toNat
  match o with
  | .laneConfig => s.courseOn (courseOf t) && s.quadOn (quadOfLane t)
  | .laneState | .captureStart | .calibrate | .seedSave => s.courseOn (courseOf t)
  | .laneFir | .seedErase | .retireMapClear => s.courseD (courseOf t)
  | .schedWrite | .cmisRead | .cmisWrite => s.courseD t
  | .programLoad | .programCtrl => decide (64 ≤ t) || s.courseD (courseOf t)
  | .biasSet | .quench => s.vbias
  | .padRelease =>
    if opByte e 16 = 1 ∧ opByte e 17 < 8 then s.courseD (opByte e 17)
    else if opByte e 16 = 2 ∧ opByte e 17 < 4 then s.quadOn (opByte e 17) else true
  | .powerSet =>
    !(opByte e 16 == 1 && decide (opByte e 17 < 8) && opByte e 18 == 2 && s.coursePow (opByte e 17) != .on &&
      (s.core 0).stopped)
  | .updateActivate => !(s.core 0).stopped
  | .cfgWrite =>
    match e.cls.toNat with
    | 1 => s.courseD t
    | 2 => s.courseD (courseOf t)
    | 3 => s.hostLaneOn t
    | 4 => s.vbias
    | _ => true
  | _ => true

/-- An entry of BIAS_SET that only ramps down or disables: always accepted, also on a course in test (R331, R245). -/
def State.biasEntryDown (s : State) (e : Entry) (i : Nat) : Bool :=
  let w := op32 e (20 + 4 * i)
  bitsOf w 12 2 != 1 &&
    (bitsOf w 11 1 == 0 || decide (bitsOf w 16 12 ≤ s.rd Reg.BIAS.STAT.CODE (bitsOf w 0 8)))

/-- The target is in test for a command that is not read-type (check 7 of R328; R331, R341, R360, R473). -/
def State.testBlocks (s : State) (o : Op) (e : Entry) : Bool :=
  let t := e.target.toNat
  if opReads o then false
  else
    match o with
    | .powerSet | .padRelease =>
      if opByte e 16 = 1 then s.inTest (opByte e 17)
      else if opByte e 16 = 2 then s.inTest (8 + opByte e 17) else false
    | .courseOffImmediate | .quench => false
    | .biasSet => s.inTest t && !((List.range (opByte e 16)).all fun i => s.biasEntryDown e i)
    | .updateActivate => !s.tests.isEmpty
    | .bistRun =>
      match e.cls.toNat with
      | 1 => s.inTest t
      | 2 => s.laneInTest t
      | 3 => s.inTest (8 + t / 32)
      | _ => s.inTest 12
    | .laneConfig | .laneState | .laneFir | .captureStart | .seedSave | .seedErase | .retireMapClear
    | .calibrate => s.laneInTest t
    | .cfgWrite =>
      match e.cls.toNat with
      | 1 => s.inTest t
      | 2 => s.laneInTest t
      | 3 => s.inTest (t / 16) || s.inTest (8 + t / 32)
      | 4 => (match s.courseOfCmd o e with | some c => s.inTest c | none => false)
      | _ => false
    | _ =>
      match s.courseOfCmd o e with
      | some c => s.inTest c
      | none => false

/-- The life-cycle state permits the opcode (check 5 of R328; R360, R442, R451, R453, R475). -/
def State.lcOk (s : State) (o : Op) (e : Entry) : Bool :=
  match o with
  | .keyslotWrite | .keyslotErase | .attest | .identityRead => s.lc != 3
  | .bistRun =>
    if e.cls.toNat = 0 ∨ e.cls.toNat = 3 then s.lc == 0 || s.lc == 3 else true
  | _ => true

/-- `FLAGS`, `CLASS`, `TARGET` and the reserved operand bits are valid (check 4 of R328; R323, R324). -/
def fieldsOk (o : Op) (e : Entry) : Bool :=
  decide (e.flags.toNat < 4) && (opClasses o).contains e.cls.toNat &&
  decide (e.target.toNat < targetLimit o e.cls.toNat) && unusedBits o e == 0

/-! ## The judgement (R328, R279, R314) -/

/-- What the checks before the opcode's own conditions come to. -/
inductive Verdict where
  /-- The command waits: its server is being replaced (R329). -/
  | waits
  /-- The command waits for the pair until a time (R279). -/
  | parks (until_ : Nat)
  | fails (st : Status)
  /-- Applied on this device alone. -/
  | applies
  /-- Sent to the twin first (R278). -/
  | mirrors
  deriving DecidableEq, Repr

/-- DEG_POLICY refuses mirrored commands outside SYNCED (R279). -/
def State.degRefuses (s : State) : Bool :=
  s.rd Reg.FLK.TWIN_CFG.DEG_POLICY == 1 &&
    !(s.twinState == 0 && (s.twin.strap == 0 || s.rd Reg.FLK.TWIN_CFG.EN == 0))

/-- Check 8 of R328 for a mirrored command (R279, R324, R353): `dry` judges what needs no wait. -/
def State.judgePair (s : State) (o : Op) (e : Entry) (dry : Bool) (parked : Option Nat) : Verdict :=
  if !s.mirroredCmd o e then .applies
  else
    let own := o = .quench || (match s.courseOfCmd o e with | some c => s.owns c | none => true)
    let mv := match s.courseOfCmd o e with | some c => s.moving c | none => false
    if mv && !dry then
      match parked with
      | some t => if t ≤ s.time then .fails .twinNotSynced else .parks t
      | none => .parks (s.time + 30000)
    else if !own then .fails .notOwner
    else
      let st := if s.twinState = 4 then s.twin.prev else s.twinState
      if st = 2 then .mirrors
      else if st = 1 then
        if dry then .mirrors
        else
          match parked with
          | some t => if t ≤ s.time then .fails .twinNotSynced else .parks t
          | none => .parks (s.time + 1000000000)
      else if s.degRefuses then .fails .twinNotSynced
      else .applies

/-- A POWER_SET waits while an activation or a fallback runs (R461). -/
def State.updateHolds (s : State) (o : Op) : Bool :=
  o == .powerSet && (s.rd Reg.UPD.STAT.STATE == 3 || s.rd Reg.UPD.STAT.STATE == 5)

/-- The checks 1 to 8 of R328 in their order, for a fetched command. While K1 is stopped every command completes with
DOMAIN_OFF (R314). -/
def State.judge (s : State) (f : Flight) : Verdict :=
  if (s.core 1).stopped then .fails .domainOff
  else
    match opOfCode f.op with
    | none => if f.role.isNone then .fails .noSession else .fails .badOpcode
    | some o =>
      let free := o = .sessionOpen || o = .sessionClose
      if f.role.isNone && !free then .fails .noSession
      else if !free && decide (f.role.getD 0 < opRole o f.e) then .fails .roleDenied
      else if !fieldsOk o f.e then .fails .badField
      else if !s.lcOk o f.e then .fails .lcDenied
      else
        match s.serverState (s.server o f.e) with
        | .off => .fails .domainOff
        | .waits => .waits
        | .runs =>
          if s.updateHolds o then .waits
          else if !s.domainOk o f.e then .fails .domainOff
          else if s.testBlocks o f.e then .fails .blockInTest
          else s.judgePair o f.e (f.e.flags.toNat / 2 % 2 == 1)
            (match f.phase with | .parked t => some t | _ => none)

/-! ## Fetching (R303, R310, R320) -/

/-- A ring may fetch (R297, R299, R303): an enabled command ring with an entry submitted and a completion slot free,
whose function is not in D3hot. -/
def State.mayFetch (s : State) (r : Nat) : Bool :=
  s.coreOn && s.commandRing r && s.rd Reg.RING.SQ_PTR.HEAD r != s.rd Reg.RING.SQ_PTR.TAIL r && s.cqFree r &&
    !(s.fn (s.ringOwner r)).d3hot

/-- The session a command fetched now runs under; a session whose idle time has passed has ended (R320). -/
def State.liveSession (s : State) (r : Nat) : Option Session :=
  match (s.ring r).session with
  | some x => if x.until_ ≤ s.time then none else some x
  | none => none

/-- Fetch the entry at the SQ head of ring `r`: it becomes the youngest flight, `xfer` data bytes are still to be
served, and the session's idle time starts afresh. -/
def State.fetch (s0 : State) (r op : Nat) (e : Entry) (d : Dma) (xfer : Nat) : State :=
  let s := if (s0.liveSession r).isNone then s0.endSession r else s0
  let head := (s.rd Reg.RING.SQ_PTR.HEAD r + 1) % s.ringSize r
  let x := s.ring r
  let live := s.liveSession r
  let f : Flight := {
    fid := x.nextFid, op := op, e := e, d := d, role := live.map fun v => v.role, fn := s.ringOwner r,
    sqHead := head, xfer := xfer, phase := .waiting }
  (s.wr Reg.RING.SQ_PTR.HEAD head r).setRing r { x with
    flights := x.flights ++ [f]
    nextFid := x.nextFid + 1
    session := live.map fun v => { v with until_ := s.time + v.idle * 1000000000 } }

/-- The first command of a ring that has not started. -/
def firstWaiting : List Flight → Option Flight
  | [] => none
  | f :: fs =>
    match f.phase with
    | .waiting => some f
    | .parked _ => some f
    | _ => firstWaiting fs

/-- A flight may start: its data has been served, and with FENCE every earlier command has completed (R324). -/
def startable (fs : List Flight) (f : Flight) : Bool :=
  f.xfer == 0 && (f.e.flags.toNat % 2 == 0 || (match fs with | g :: _ => g.fid == f.fid | [] => false))

/-- Set the phase of a flight. -/
def State.setPhase (s : State) (r fid : Nat) (p : FlightPhase) : State :=
  let x := s.ring r
  s.setRing r { x with flights := x.flights.map fun f => if f.fid = fid then { f with phase := p } else f }

/-- Remember the data of a flight and that it is carried to the twin. -/
def State.setFlightDma (s : State) (r fid : Nat) (d : Dma) : State :=
  let x := s.ring r
  s.setRing r { x with flights := x.flights.map fun f => if f.fid = fid then { f with d := d } else f }

/-- The flight a command row concerns: the ring's first command not yet started if it is this one, or, with none
waiting, the entry at the SQ head, fetched now. None: the row finds nothing to do. -/
def State.takeUp (s : State) (r op : Nat) (e : Entry) (d : Dma) : Option (State × Flight) :=
  match firstWaiting (s.ring r).flights with
  | some f =>
    if f.op = op ∧ f.e = e ∧ startable (s.ring r).flights f then some (s.setFlightDma r f.fid d, { f with d := d })
    else none
  | none =>
    if s.mayFetch r then
      let s1 := s.fetch r op e d 0
      match firstWaiting (s1.ring r).flights with
      | some f => some (s1, f)
      | none => none
    else none

/-! ## The pair: sending a mirror frame (R278) -/

/-- Send a command to the twin and wait for its acknowledgement. -/
def State.sendMirror (s : State) (r : Nat) (f : Flight) : State :=
  let q := s.twin.nextSeq
  let s1 := s.setPhase r f.fid .running
  let x := s1.ring r
  let s2 := s1.setRing r { x with
    flights := x.flights.map fun g => if g.fid = f.fid then { g with mirrored := some q } else g }
  ({ s2 with twin := { s2.twin with
      nextSeq := (q + 1) % 2 ^ 24
      outs := s2.twin.outs ++ [(⟨q, r, f.fid, f.op, f.e, f.d, s2.time, 0⟩ : MirrorOut)] } } : State).filkorQueued.emit
    (.mirrorFrame q r f.op f.e f.d)

/-! ## The course of a command -/

/-- Serve one command of ring `r` from its start (R328): the checks, then the opcode's own conditions (`chk`: a status
with results, or none), then, unless it is a dry run (R324) or goes to the twin first (R278), its effect (`run`). -/
def State.serve (s : State) (o : Op) (r : Nat) (e : Entry) (d : Dma) (chk : State → Flight → Option Res)
    (run : State → Origin → Flight → State) : State :=
  match s.takeUp r (opCode o) e d with
  | none => s
  | some (s1, f) =>
    let og := Origin.host r f.fid
    let dry := f.e.flags.toNat / 2 % 2 == 1
    if !startable (s1.ring r).flights f then s1
    else
      match s1.judge f with
      | .waits => s1
      | .parks t => s1.setPhase r f.fid (.parked t)
      | .fails st => s1.finishSt og st
      | .applies =>
        match chk s1 f with
        | some res => s1.finish og (if dry then { st := res.st } else res)
        | none => if dry then s1.finishSt og .ok else run (s1.setPhase r f.fid .running) og f
      | .mirrors =>
        match chk s1 f with
        | some res => s1.finish og (if dry then { st := res.st } else res)
        | none => if dry then s1.finishSt og .ok else s1.sendMirror r f

end Sys2Proof.Machine
end

