-- ==== Sys2Proof/Machine/Access.lean ====
section
/-! DEFINITION. MMIO access to a register block (R423, R492, R498): which blocks answer, and the log of accesses to a
block whose domain is off. -/

namespace Sys2Proof.Machine

/-- An MMIO or doorbell access before DEVICE_READY, or in D_KEEP, is answered with Unsupported Request (R292, R420). -/
def State.unsupported (s : State) (f a : Nat) : State := s.emit (.unsupported f a)

/-- The hod answers: HOD on, filled and out of self-refresh (R413). -/
def State.hodOn (s : State) : Bool :=
  s.flag Reg.HOD.STAT.READY && !s.flag Reg.HOD.STAT.SELF_REFRESH

/-- A register lies in a domain that is on (R423); a lane, course or quad block in test behaves as one that is off
(R473). Twin registers and `HOD.STAT` stay readable (R289, R413). -/
def State.fieldOn (s : State) (f : Fld) (i : Nat) : Bool :=
  match f.blk with
  | .ln => s.courseD (courseOf i) && !s.laneInTest i
  | .crs => s.courseD i && !s.inTest i
  | .hq => s.quadOn i && !s.inTest (8 + i)
  | .hl => s.hostLaneOn i && !s.inTest (8 + i / 32)
  | .flkLane => s.pwr.flkOn
  | .flk => if f.addr < 0x340008 then s.pwr.flkOn else true
  | .bias | .biasCh => s.vbias
  | .hod => if f.addr = 0x380004 then true else s.hodOn
  | .eng => decide (80 ≤ i) || s.courseD (courseOfEngine i)
  | _ => true

/-- The dword that holds a field. -/
def Fld.dword (f : Fld) (i j : Nat) : Nat := f.key i j / 32 * 4

/-- Log an access to a block whose domain is off (R498): the count rises, the first access is kept, and OFF_DOMAIN is
raised when VALID rises. -/
def State.logOffDomain (s : State) (a : Nat) (wr : Bool) : State :=
  let s1 := s.count Reg.GLB.OFFDOM_CNT.COUNT
  if s.flag Reg.GLB.OFFDOM.VALID then s1
  else
    (((s1.wr Reg.GLB.OFFDOM.OFFSET (a / 4)).wrB Reg.GLB.OFFDOM.WRITE wr).wr Reg.GLB.OFFDOM.VALID 1).raise 15
      (a / 4 % 2 ^ 24 + bitVal wr * 2 ^ 24)

/-- An access by PF0 to the register of a field: `k` is what it does where the block answers. Like every BAR0 write it
drops the shadow of the function (R494). -/
def State.regAccess (s : State) (f : Fld) (i j : Nat) (wr : Bool) (k : State → State) : State :=
  if !s.coreOn then s.unsupported 0 (f.dword i j)
  else if !s.fieldOn f i then (s.setShadow 0 none).logOffDomain (f.dword i j) wr
  else k (s.setShadow 0 none)

end Sys2Proof.Machine
end

