-- ==== Sys2Proof/Machine/Hod.lean ====
section
/-! DEFINITION. The hod, its protection and captures (14_hod_and_memory_protection, R391 to R412; R346 to R349): words
with their check state, the written bitmap, reads with the errors the arrays show, repair, scrub, swatches and the hod
commands. Physical bit errors come from outside the block: the rows that read carry them (`EccHit`). -/

namespace Sys2Proof.Machine

/-! ## Bytes and words -/

/-- A host address and byte count (R325): multiples of 4 that do not wrap past 2^64. -/
def addrOk (a n : Nat) : Bool := a % 4 == 0 && n % 4 == 0 && decide (a + n ≤ 2 ^ 64)

/-- Write data to host memory: what arrives before a failing transfer stays there (R325). Second: whether it failed,
after how many bytes. -/
def State.hostWrite (s : State) (d : Dma) (a : Nat) (data : List Byte) : State × Option Nat :=
  match d.failAt with
  | none => (s.emit (.hostWrite a data), none)
  | some k =>
    if k < data.length then ((if k = 0 then s else s.emit (.hostWrite a (data.take k))), some k)
    else (s.emit (.hostWrite a data), none)

/-! ## Organisation (R391, R393) -/

def hodBytes : Nat := 0x0C000000
def generalBytes : Nat := 0x02000000
def captureBase : Nat := 0x02000000
def captureRows : Nat := 36864

/-- Bank of a hod offset. -/
def hodBank (ofs : Nat) : Nat := ofs / 4096 % 8

/-- Offset within the bank. -/
def hodBankOfs (ofs : Nat) : Nat := ofs / 32768 * 4096 + ofs % 4096

/-- Sub-array, numbered bank × 24 + sub-array, and row of a hod offset. -/
def hodSub (ofs : Nat) : Nat := hodBank ofs * 24 + hodBankOfs ofs / 2 ^ 20
def hodRow (ofs : Nat) : Nat := hodBankOfs ofs % 2 ^ 20 / 1024

/-! ## Words (R394, R398, R404, R405) -/

/-- The word at index `w`; the device regions start as zeros (R394). None: never written. -/
def State.hodWord (s : State) (w : Nat) : Option HodWord :=
  match Tab.get none s.hod.words w with
  | some x => some x
  | none => if 8 * w < captureBase then none else some ⟨0, false⟩

def State.setHodWord (s : State) (w : Nat) (x : HodWord) : State :=
  ({ s with hod := { s.hod with words := Tab.set none s.hod.words w (some x) } } : State).wr
    Reg.HOD.WRITTEN.GRANULE 1 (w / 8192)

/-- A granule's bit (R404); the fill of every start has written those outside the general region (R394). -/
def State.granule (s : State) (w : Nat) : Bool := decide (captureBase ≤ 8 * w) || s.flag Reg.HOD.WRITTEN.GRANULE (w / 8192)

/-! ## Errors and repair (R395, R402, R403) -/

/-- An uncorrectable word is counted and logged; HOD_UNCORR is raised when VALID rises, except by the read of a
read-modify-write (R398). -/
def State.hodUncorr (s : State) (w src : Nat) (quiet : Bool) : State :=
  let was := s.flag Reg.HOD.ECC_LOG.VALID
  let s1 := (((s.count Reg.HOD.ECC_UNCORR.COUNT).wr Reg.HOD.ECC_LOG.WORD w).wr Reg.HOD.ECC_LOG.SOURCE src).wr
    Reg.HOD.ECC_LOG.VALID 1
  if was || quiet then s1 else s1.raise 10 (w + src * 2 ^ 25)

/-- The overlay is written to MRAM, or its write waits for the window (R402). -/
def State.saveOverlay (s : State) : State :=
  if s.nvmOpen then
    ({ s with hod := { s.hod with saved := s.hod.overlay } } : State).wr Reg.HOD.REPAIR_STAT.OVERLAY_PEND 0
  else
    ({ s with upd := { s.upd with
        retry := if s.upd.retry.contains .overlay then s.upd.retry else s.upd.retry ++ [NvmJob.overlay] } } : State).wr
      Reg.HOD.REPAIR_STAT.OVERLAY_PEND 1

/-- No spare is free (R403): EXHAUSTED sets, and its rise raises HOD_REPAIR. -/
def State.repairExhausted (s : State) (sub : Nat) (col : Bool) : State :=
  (s.wr Reg.HOD.REPAIR_STAT.EXHAUSTED 1).raiseRise (s.flag Reg.HOD.REPAIR_STAT.EXHAUSTED) true 11
    (sub % 24 + sub / 24 * 32 + bitVal col * 256 + 512)

/-- A field repair of a row or column of a sub-array (R402): a free spare is taken and the overlay grows. -/
def State.fieldRepair (s : State) (sub : Nat) (col : Bool) (which : Nat) : State :=
  let used := if col then Tab.get 0 s.hod.colSpares sub else Tab.get 0 s.hod.rowSpares sub
  if !s.flag Reg.HOD.CTRL.REPAIR_EN then s
  else if (if col then 2 else 16) ≤ used ∨ 512 ≤ s.hod.overlay.length then s.repairExhausted sub col
  else
    let h := if col then { s.hod with colSpares := Tab.set 0 s.hod.colSpares sub (used + 1) }
      else { s.hod with rowSpares := Tab.set 0 s.hod.rowSpares sub (used + 1) }
    let s1 : State := { s with hod := { h with overlay := h.overlay ++ [(sub, col, which)] } }
    (((s1.wr Reg.HOD.REPAIR_STAT.ENTRIES s1.hod.overlay.length).raise 11
      (sub % 24 + sub / 24 * 32 + bitVal col * 256)).saveOverlay)

/-- An uncorrectable error in the arrays: logged, its row repaired, and the word poisoned with the data as read, since
nothing corrects it (R395, R402; notes/assumptions/130). -/
def State.readUncorr (s : State) (w src v : Nat) (quiet : Bool) : State :=
  ((s.hodUncorr w src quiet).fieldRepair (hodSub (8 * w)) false (hodRow (8 * w))).setHodWord w ⟨v, true⟩

/-- A correctable error: counted; rows that show one in two consecutive scrub passes, and bit positions that fail in
four rows of a sub-array, are repaired (R395, R402). -/
def State.readCorr (s : State) (w bit : Nat) (scrub : Bool) : State :=
  let sub := hodSub (8 * w)
  let row := hodRow (8 * w)
  let pass := s.rd Reg.HOD.STAT.PASSES
  let key := sub * 1024 + row
  let s1 := s.count Reg.HOD.ECC_CORR.COUNT
  let last := Tab.get 0 s1.hod.corrRow key
  let hits := (if s1.hod.corrBits.contains (sub, bit, row) then s1.hod.corrBits
    else s1.hod.corrBits ++ [(sub, bit, row)])
  let rowBad := scrub && last != 0 && last % 65536 == pass
  let colBad := decide (4 ≤ (hits.filter fun h => h.1 == sub && h.2.1 == bit).length)
  let s2 : State := { s1 with hod := { s1.hod with
    corrBits := if colBad then hits.filter fun h => !(h.1 == sub && h.2.1 == bit) else hits
    corrRow := if scrub then Tab.set 0 s1.hod.corrRow key (if rowBad then 0 else pass + 1) else s1.hod.corrRow } }
  let s3 := if rowBad then s2.fieldRepair sub false row else s2
  if colBad then s3.fieldRepair sub true bit else s3

/-! ## Reading and writing (R395 to R398, R404, R405) -/

/-- Read a word: its value and whether it is uncorrectable. A never-written granule reads as zero; a never-written
word of a written granule has undefined content and may report errors (free values). -/
def State.hodRead (s : State) (w src : Nat) (ecc : List EccHit) : State × Nat × Bool :=
  if !s.granule w && decide (8 * w < captureBase) then (s, 0, false)
  else
    let bank := bitOf (s.rd Reg.HOD.STAT.CHK_FAIL) (hodBank (8 * w))
    match s.hodWord w with
    | none =>
      let v := s.free
      let s1 := s.freed
      if bank then (s1.hodUncorr w src false, v % 2 ^ 64, true)
      else if bitOf v 64 then (s1.readUncorr w src (v % 2 ^ 64) false, v % 2 ^ 64, true)
      else ((if bitOf v 65 then s1.count Reg.HOD.ECC_CORR.COUNT else s1), v % 2 ^ 64, false)
    | some x =>
      if x.bad || bank then (s.hodUncorr w src false, x.v, true)
      else
        match ecc.find? fun h => h.word == w with
        | none => (s, x.v, false)
        | some h =>
          match h.bit with
          | some b => (s.readCorr w b (src == 2), x.v, false)
          | none => (s.freed.readUncorr w src (s.free % 2 ^ 64) false, s.free % 2 ^ 64, true)

/-- Read `n` words from index `w`: their bytes, and the offset of the first uncorrectable one. -/
def State.hodReads (s : State) (src : Nat) (ecc : List EccHit) : Nat → Nat → State × List Byte × Option Nat
  | _, 0 => (s, [], none)
  | w, n + 1 =>
    let (s1, v, bad) := s.hodRead w src ecc
    let (s2, bs, b2) := s1.hodReads src ecc (w + 1) n
    (s2, leBytes 8 v ++ bs, if bad then some (8 * w) else b2)

/-- The device reads words whose content stands elsewhere in State, word `w` first: a word as the arrays deliver it, and
whether one of them is uncorrectable. Of such a region `hod.words` lists the poisoned words alone. -/
def State.hodReadsOf (s : State) (ecc : List EccHit) : Nat → List Nat → State × List Nat × Bool
  | _, [] => (s, [], false)
  | w, v :: vs =>
    let (s1, _, bad) := s.hodRead w 1 ecc
    let (s2, us, b2) := s1.hodReadsOf ecc (w + 1) vs
    (s2, (match Tab.get none s1.hod.words w with | some x => x.v | none => v) :: us, bad || b2)

/-- The first word of survey record `seq` of a lane (R393). -/
def surveyWord (n seq : Nat) : Nat := (0x0B000000 + 49152 * n + 48 * (seq % 1024)) / 8

/-- Bytes as little-endian words of eight. -/
def wordsOf (b : List Byte) : Nat → List Nat
  | 0 => []
  | k + 1 => leNat (b.take 8) :: wordsOf (b.drop 8) k

/-- Merge `new` into the word `old` from byte `at_` on. -/
def mergeBytes (old at_ : Nat) (new : List Byte) : Nat :=
  let o := leBytes 8 old
  leNat (o.take at_ ++ new ++ o.drop (at_ + new.length))

/-- Write up to 8 bytes into a word: whole, or by read-modify-write (R397, R398). -/
def State.hodWriteWord (s : State) (w at_ : Nat) (new : List Byte) (ecc : List EccHit) : State :=
  if new.length = 8 then s.setHodWord w ⟨leNat new, false⟩
  else if !s.granule w && decide (8 * w < captureBase) then s.setHodWord w ⟨mergeBytes 0 at_ new, false⟩
  else
    let bank := bitOf (s.rd Reg.HOD.STAT.CHK_FAIL) (hodBank (8 * w))
    let put (t : State) (v : Nat) (bad : Bool) : State := t.setHodWord w ⟨mergeBytes v at_ new, bad⟩
    match s.hodWord w with
    | none =>
      let v := s.free % 2 ^ 64
      if bank then put (s.freed.hodUncorr w 3 true) v true
      else if bitOf s.free 64 then put (s.freed.readUncorr w 3 v true) v true
      else put (if bitOf s.free 65 then s.freed.count Reg.HOD.ECC_CORR.COUNT else s.freed) v false
    | some x =>
      if x.bad || bank then put (s.hodUncorr w 3 true) x.v true
      else
        match ecc.find? fun h => h.word == w with
        | none => put s x.v false
        | some h =>
          match h.bit with
          | some b => put (s.readCorr w b false) x.v false
          | none => put (s.freed.readUncorr w 3 (s.free % 2 ^ 64) true) (s.free % 2 ^ 64) true

/-- Write bytes from a hod offset on; `fuel` bounds the words touched. -/
def State.hodWrite (s : State) (ecc : List EccHit) : Nat → Nat → List Byte → State
  | 0, _, _ => s
  | _, _, [] => s
  | fuel + 1, ofs, bs =>
    let n := 8 - ofs % 8
    (s.hodWriteWord (ofs / 8) (ofs % 8) (bs.take n) ecc).hodWrite ecc fuel (ofs + n) (bs.drop n)

/-- The write of a byte list at an offset. -/
def State.hodStore (s : State) (ofs : Nat) (bs : List Byte) (ecc : List EccHit) : State :=
  s.hodWrite ecc (bs.length / 8 + 2) ofs bs

/-! ## Hod commands (R348, R349) -/

/-- Whether a range lies in the regions the command may touch (R393). -/
def hodRangeOk (ofs n : Nat) (read : Bool) : Bool :=
  decide (ofs + n ≤ (if read then 0x0B000000 else generalBytes))

/-- `DOMAIN_OFF` while the hod is off, otherwise what the operands say. -/
def State.hodChk (s : State) (bad : Bool) : Option Res :=
  if !s.hodOn then some { st := .domainOff } else if bad then some { st := .badField } else none

/-- HOD_FILL (R348): the pattern word over the range. -/
def State.fillWords (s : State) (v : Nat) : Nat → Nat → State
  | _, 0 => s
  | w, n + 1 => (s.setHodWord w ⟨v, false⟩).fillWords v (w + 1) n

def chkHodFill (s : State) (f : Flight) : Option Res :=
  let o := op32 f.e 16
  let n := op32 f.e 20
  s.hodChk (o % 8 != 0 || n % 8 != 0 || decide (2 ^ 24 < n) || !hodRangeOk o n false)

def runHodFill (s : State) (g : Origin) (f : Flight) : State :=
  (s.fillWords (op64 f.e 24) (op32 f.e 16 / 8) (op32 f.e 20 / 8)).finishSt g .ok

def execHodFill (r : RingNo) (e : Entry) (d : Dma) (s : State) : Host.Outcome State Fault Refusal :=
  .next (s.serve .hodFill r e d chkHodFill runHodFill)

def chkHodWrite (s : State) (f : Flight) : Option Res :=
  let n := op32 f.e 20
  s.hodChk (n == 0 || decide (2 ^ 24 < n) || !hodRangeOk (op32 f.e 16) n false || op64 f.e 24 % 4 != 0 ||
    decide (2 ^ 64 < op64 f.e 24 + n))

/-- HOD_WRITE (R348): after a failing read of host memory the bytes read before it are written, `RES0` their number. -/
def runHodWrite (ecc : List EccHit) (s : State) (g : Origin) (f : Flight) : State :=
  let n := op32 f.e 20
  let data := (f.d.data ++ List.replicate (n - f.d.data.length) 0).take n
  match f.d.failAt with
  | some k =>
    if k < n then (s.hodStore (op32 f.e 16) (data.take k) ecc).finish g { st := .dmaFault, r0 := k }
    else (s.hodStore (op32 f.e 16) data ecc).finishSt g .ok
  | none => (s.hodStore (op32 f.e 16) data ecc).finishSt g .ok

def execHodWrite (r : RingNo) (e : Entry) (d : Dma) (ecc : List EccHit) (s : State) :
    Host.Outcome State Fault Refusal :=
  .next (s.serve .hodWrite r e d chkHodWrite (runHodWrite ecc))

def chkHodRead (s : State) (f : Flight) : Option Res :=
  let n := op32 f.e 20
  s.hodChk (decide (2 ^ 24 < n) || !hodRangeOk (op32 f.e 16) n true || !addrOk (op64 f.e 24) n)

/-- The offset of the first word of the general region in a never-written granule (R349). -/
def State.firstUninit (s : State) : Nat → Nat → Option Nat
  | _, 0 => none
  | w, n + 1 =>
    if !s.granule w && decide (8 * w < captureBase) then some (8 * w) else s.firstUninit (w + 1) n

/-- Deliver `n` hod bytes from `ofs` to host memory, every byte of them, with the status of R349. -/
def State.deliverHod (s : State) (g : Origin) (d : Dma) (ofs n addr r0 : Nat) (ecc : List EccHit) : State :=
  let w0 := ofs / 8
  let cnt := (ofs % 8 + n + 7) / 8
  let uninit := s.firstUninit w0 cnt
  let (s1, bs, bad) := s.hodReads 0 ecc w0 cnt
  let (s2, fail) := s1.hostWrite d addr ((bs.drop (ofs % 8)).take n)
  match fail with
  | some k => s2.finish g { st := .dmaFault, r0 := k }
  | none =>
    match bad with
    | some o => s2.finish g { st := .eccUncorr, r0 := r0, r1 := o }
    | none =>
      match uninit with
      | some o => s2.finish g { st := .uninit, r0 := r0, r1 := o }
      | none => s2.finish g { st := .ok, r0 := r0 }

def runHodRead (ecc : List EccHit) (s : State) (g : Origin) (f : Flight) : State :=
  s.deliverHod g f.d (op32 f.e 16) (op32 f.e 20) (op64 f.e 24) 0 ecc

/-- HOD_READ (R348, R349). -/
def execHodRead (r : RingNo) (e : Entry) (d : Dma) (ecc : List EccHit) (s : State) :
    Host.Outcome State Fault Refusal :=
  .next (s.serve .hodRead r e d chkHodRead (runHodRead ecc))

/-! ## Patrol scrub (R400) -/

/-- SCRUB_READ (R400): one word of a written granule is read; `hit` is whether the arrays show an error, `last`
whether this word ends the pass. -/
def execScrubRead (word : Nat) (hit : Bool) (bit : Option Nat) (last : Bool) (s : State) :
    Host.Outcome State Fault Refusal :=
  .next (
    if !s.coreOn || !s.hodOn || !s.flag Reg.HOD.CTRL.SCRUB_EN || decide (hodBytes / 8 ≤ word) || !s.granule word then s
    else
      let (s1, _, _) := s.hodRead word 2 (if hit then [⟨word, bit⟩] else [])
      if last then s1.countWrap Reg.HOD.STAT.PASSES else s1)

/-! ## Captures (R346, R409, R410) -/

/-- The bits per sample of a capture point (R409). -/
def sampleBits : Nat → Nat
  | 0 => 8
  | 1 => 16
  | 2 => 8
  | _ => 1

/-- The first row of the staging slot (R454). -/
def stagingRow : Nat := 0x7000

/-- The 4 KiB rows of the capture region no swatch or capture holds, lowest first; while the staging slot is reserved its
rows, the top 32 MiB, are not free (R454). -/
def State.freeRows (s : State) : List Nat :=
  let used := (s.hod.swatches.map fun w => w.rows).flatten ++ (s.hod.caps.map fun c => c.rows).flatten
  (List.range (if s.upd.reserved then stagingRow else captureRows)).filter fun r => !used.contains r

/-- Rows a swatch of `KIB` takes (R409). -/
def swatchRows (kib : Nat) : Nat := max 2 ((kib + 3) / 4)

def State.capOn (s : State) (n : Nat) : Option Capture := s.hod.caps.find? fun c => c.lane == n

/-- The header of a swatch (R409). -/
def swatchHeader (c : Capture) (id : Nat) (parted : Bool) (w : SwatchData) : List Byte :=
  let t := c.trigAt.getD (0, 0)
  let gaps := (w.rows.drop 1).any fun r => r.flags % 2 == 0
  let trow := ((w.rows.zipIdx).find? fun p => p.1.trig.isSome).map fun p => p.2
  leBytes 4 id ++ leBytes 1 c.point ++ leBytes 1 c.trig ++
    leBytes 1 (bitVal c.trigAt.isSome + 2 * bitVal parted + 4 * bitVal gaps) ++ leBytes 1 c.mode ++
    leBytes 2 c.lane ++ leBytes 2 (sampleBits c.point) ++ leBytes 4 w.rows.length ++ leBytes 8 t.1 ++ leBytes 8 t.2 ++
    leBytes 4 w.first ++ leBytes 4 (trow.getD 0) ++ leBytes 4 c.seq ++ List.replicate 4052 0

/-- A data row with its header (R410). -/
def swatchRowBytes (r : SwatchRow) : List Byte :=
  let data := r.data.take 4064
  leBytes 8 r.sym ++ leBytes 4 r.count ++ leBytes 1 r.flags ++ leBytes 3 0 ++
    leBytes 4 (r.trig.getD 0xFFFFFFFF) ++ leBytes 12 0 ++ data ++ List.replicate (4064 - data.length) 0

/-- Store rows of a swatch one after another in the rows allocated. -/
def State.storeRows (s : State) : List Nat → List (List Byte) → State
  | r :: rs, b :: bs => (s.hodStore (captureBase + 4096 * r) b []).storeRows rs bs
  | _, _ => s

/-- End a capture with what it stored: a swatch, or nothing (R346). -/
def State.endCapture (s : State) (c : Capture) (st : Status) (w : SwatchData) : State :=
  let s0 : State := { s with hod := { s.hod with caps := s.hod.caps.filter fun x => x.lane != c.lane } }
  let w' : SwatchData := { w with rows := w.rows.take (c.rows.length - 1) }
  let r1 := bitVal c.trigAt.isSome
  if w'.rows.isEmpty then s0.finish c.origin { st := st, r1 := r1 }
  else
    let id := s0.hod.nextId
    let s1 : State := { s0 with hod := { s0.hod with
      swatches := s0.hod.swatches ++ [⟨id, c.rows.take (w'.rows.length + 1)⟩], nextId := id % (2 ^ 32 - 2) + 1 } }
    let s2 := s1.storeRows c.rows (swatchHeader c id (st == .partialDone) w' :: w'.rows.map swatchRowBytes)
    s2.finish c.origin { st := st, r0 := id, r1 := r1, r2 := 4096 * (w'.rows.length + 1) }

/-- Data rows whose content is not known: as many as had been stored when a capture was stopped. -/
def State.unknownRows (s : State) (c : Capture) : SwatchData :=
  ⟨0, (List.range (s.free % c.rows.length)).map fun i =>
    ⟨Config.freeNat (s.freeCtr + 4 * i + 1) % 2 ^ 64, Config.freeNat (s.freeCtr + 4 * i + 2) % 2 ^ 32,
      Config.freeNat (s.freeCtr + 4 * i + 3) % 8, none,
      leBytes 4064 (Config.freeNat (s.freeCtr + 4 * i + 4))⟩⟩

/-- A capture running when the lane leaves its state or its course leaves C_ON stops with PARTIAL (R346). How much
it had stored is a free value. -/
def State.stopCapture (s : State) (n : Nat) : State :=
  match s.capOn n with
  | none => s
  | some c =>
    let w := s.unknownRows c
    ({ s with freeCtr := s.freeCtr + 4 * w.rows.length + 1 } : State).endCapture c .partialDone w

def chkCaptureStart (s : State) (f : Flight) : Option Res :=
  let n := f.e.target.toNat
  let st := s.rd Reg.LN.RX_STAT.LANE_STATE n
  let mode := s.rd Reg.LN.FMT_CFG.MODE n
  let point := opByte f.e 16
  let trig := opByte f.e 17
  let kib := op32 f.e 20
  if !s.hodOn then some { st := .domainOff }
  else if 4 < point ∨ 3 < trig ∨ kib = 0 ∨ 65536 < kib ∨ 607 < op16 f.e 24 ∨ st < 2 ∨ 5 < st ∨ (trig = 2 ∧ mode ≠ 6) ∨
      (point = 2 ∧ mode = 1) ∨ (trig = 3 ∧ (mode = 1 ∨ s.flag Reg.LN.FMT_CFG.INNER_BYPASS n)) then
    some { st := .badField }
  else if (s.capOn n).isSome then some { st := .inUse }
  else if s.freeRows.length < swatchRows kib then some { st := .noSpace }
  else none

/-- The effect of CAPTURE_START (R346): rows are allocated, and with TRIG 0 the trigger is at once (its symbol
index is a free value). -/
def runCaptureStart (s : State) (g : Origin) (f : Flight) : State :=
  let n := f.e.target.toNat
  let t := op16 f.e 26
  let c : Capture := {
    lane := n, point := opByte f.e 16, trig := opByte f.e 17, pre := op16 f.e 18, evt := op16 f.e 24
    timeout := if t = 0 then 1000 else t, origin := g, start := s.time
    rows := s.freeRows.take (swatchRows (op32 f.e 20))
    mode := s.rd Reg.LN.FMT_CFG.MODE n + 16 * s.rd Reg.LN.FMT_CFG.CONST n + 64 * s.rd Reg.LN.FMT_CFG.PRECODE n +
      128 * s.rd Reg.LN.FMT_CFG.INNER_BYPASS n
    seq := (Tab.get ({} : RxX) s.rx n).seq % 2 ^ 32
    trigAt := if opByte f.e 17 = 0 then some (s.free % 2 ^ 64, s.time) else none }
  { s.freed with hod := { s.hod with caps := s.hod.caps ++ [c] } }

/-- CAPTURE_START (R346). -/
def execCaptureStart (r : RingNo) (e : Entry) (d : Dma) (s : State) : Host.Outcome State Fault Refusal :=
  .next (s.serve .captureStart r e d chkCaptureStart runCaptureStart)

/-- CAPTURE_TRIGGER (R346): the trigger of the capture on a lane occurs, at a symbol index. -/
def execCaptureTrigger (n : LaneNo) (sym : Nat) (s : State) : Host.Outcome State Fault Refusal :=
  .next (
    { s with hod := { s.hod with caps := s.hod.caps.map fun c =>
        if c.lane = n.val ∧ c.trigAt = none then { c with trigAt := some (sym, s.time) } else c } })

def chkCaptureDrain (s : State) (f : Flight) : Option Res :=
  if !s.hodOn then some { st := .domainOff }
  else if !(s.hod.swatches.any fun w => w.id == op32 f.e 16) || !addrOk (op64 f.e 32) (op32 f.e 24) ||
      decide (2 ^ 24 < op32 f.e 24) then some { st := .badField }
  else none

/-- Read bytes of a swatch: the row of each 8-byte word in turn. -/
def State.swatchRead (s : State) (rows : List Nat) (ecc : List EccHit) : Nat → Nat → State × List Byte × Option Nat
  | _, 0 => (s, [], none)
  | w, n + 1 =>
    match rows[w / 512]? with
    | none => (s, [], none)
    | some r =>
      let word := (captureBase + 4096 * r) / 8 + w % 512
      let (s1, v, bad) := s.hodRead word 0 ecc
      let (s2, bs, b2) := s1.swatchRead rows ecc (w + 1) n
      (s2, leBytes 8 v ++ bs, if bad then some (8 * word) else b2)

/-- CAPTURE_DRAIN (R347): bytes of a swatch to host memory, fewer when the swatch ends first. -/
def runCaptureDrain (ecc : List EccHit) (s : State) (g : Origin) (f : Flight) : State :=
  match s.hod.swatches.find? fun w => w.id == op32 f.e 16 with
  | none => s.finishSt g .badField
  | some w =>
    let ofs := op32 f.e 20
    let n := min (op32 f.e 24) (4096 * w.rows.length - ofs)
    let (s1, bs, bad) := s.swatchRead w.rows ecc (ofs / 8) ((ofs % 8 + n + 7) / 8)
    let (s2, fail) := s1.hostWrite f.d (op64 f.e 32) ((bs.drop (ofs % 8)).take n)
    match fail with
    | some k => s2.finish g { st := .dmaFault, r0 := k }
    | none =>
      match bad with
      | some o => s2.finish g { st := .eccUncorr, r0 := n, r1 := o }
      | none => s2.finish g { st := .ok, r0 := n }

def execCaptureDrain (r : RingNo) (e : Entry) (d : Dma) (ecc : List EccHit) (s : State) :
    Host.Outcome State Fault Refusal :=
  .next (s.serve .captureDrain r e d chkCaptureDrain (runCaptureDrain ecc))

def chkCaptureFree (s : State) (f : Flight) : Option Res :=
  let id := op32 f.e 16
  if !s.hodOn then some { st := .domainOff }
  else if id = 0xFFFFFFFF ∨ s.hod.swatches.any (fun w => w.id == id) then none
  else some { st := .badField }

/-- CAPTURE_FREE (R347): one swatch, or every one; its rows are free again, the data stays (R394). -/
def runCaptureFree (s : State) (g : Origin) (f : Flight) : State :=
  let id := op32 f.e 16
  ({ s with hod := { s.hod with swatches :=
      if id = 0xFFFFFFFF then [] else s.hod.swatches.filter fun w => w.id != id } } : State).finishSt g .ok

def execCaptureFree (r : RingNo) (e : Entry) (d : Dma) (s : State) : Host.Outcome State Fault Refusal :=
  .next (s.serve .captureFree r e d chkCaptureFree runCaptureFree)

end Sys2Proof.Machine
end

