-- ==== Sys2Proof/Machine/Lacework.lean ====
section
/-! DEFINITION. The Lacework code (R44 to R46): arithmetic of GF(2^8) with α a root of x^8 + x^4 + x^3 + x^2 + 1, the
syndromes, the algebraic decoder, and the Chase search over soft values. A word is a number whose bit i is position
c_i. -/

namespace Sys2Proof.Machine

/-- Multiply by α. -/
def gfTimesAlpha (x : Nat) : Nat := if 128 ≤ x then (2 * x) ^^^ 0x11D else 2 * x

/-- The powers of α from α^0 on. -/
def gfPowers : Nat → Nat → List Nat
  | 0, _ => []
  | n + 1, x => x :: gfPowers n (gfTimesAlpha x)

/-- The product in GF(2^8), over the eight bits of `y`. -/
def gfMul (x y : Nat) : Nat :=
  ((List.range 8).foldl (fun (p : Nat × Nat) i =>
    (if bitOf y i then p.1 ^^^ p.2 else p.1, gfTimesAlpha p.2)) (0, x)).1

def gfCube (x : Nat) : Nat := gfMul x (gfMul x x)

/-- r(α) and r(α^3) over the positions 0 to 254. -/
def laceSyndromes (r : Nat) : Nat × Nat :=
  (((gfPowers 255 1).zip (List.range 255)).foldl (fun (p : Nat × Nat) q =>
    if bitOf r q.2 then (p.1 ^^^ q.1, p.2 ^^^ gfCube q.1) else p) (0, 0))

/-- A word is a codeword exactly when c(α) = 0 and c(α^3) = c255 (R44). -/
def isCodeword (c : Nat) : Bool :=
  let s := laceSyndromes c
  s.1 == 0 && s.2 == bitVal (bitOf c 255)

/-- The position i of 0 to 254 with α^i = x. -/
def gfLog (x : Nat) : Option Nat := (List.range 255).zip (gfPowers 255 1) |>.findSome? fun p =>
  if p.2 = x then some p.1 else none

/-- The error positions step A of R45 finds for syndromes S1 and S3, with c255 taken as correct. -/
def laceStepA (s1 s3 : Nat) : Option (List Nat) :=
  if s1 = 0 ∧ s3 = 0 then some []
  else if s1 = 0 then none
  else if s3 = gfCube s1 then (gfLog s1).map fun i => [i]
  else
    ((List.range 255).zip (gfPowers 255 1)).findSome? fun p =>
      let y := s1 ^^^ p.2
      if y = 0 then none
      else if gfCube p.2 ^^^ gfCube y = s3 then (gfLog y).map fun j => [p.1, j] else none

/-- Step B: c255 inverted (R45). -/
def laceStepB (s1 s3 : Nat) : Option (List Nat) :=
  let s3' := s3 ^^^ 1
  if s1 = 0 ∧ s3' = 0 then some [255]
  else if s1 = 0 then none
  else if s3' = gfCube s1 then (gfLog s1).map fun i => [255, i]
  else none

/-- The codeword the algebraic decoder finds for a word, if any. -/
def laceAlgebraic (r : Nat) : Option Nat :=
  let s := laceSyndromes r
  let s1 := s.1
  let s3 := s.2 ^^^ bitVal (bitOf r 255)
  match laceStepA s1 s3 with
  | some ps => some (ps.foldl (fun c i => c ^^^ 2 ^ i) r)
  | none => (laceStepB s1 s3).map fun ps => ps.foldl (fun c i => c ^^^ 2 ^ i) r

/-- Hard decisions of soft values in line order (position 255 first): positive favours 0, and 0 favours neither, so
its bit is taken from `free`. -/
def hardWord (soft : List Int) (free : Nat) : Nat :=
  (soft.zipIdx).foldl (fun w p =>
    if p.1 < 0 ∨ (p.1 = 0 ∧ bitOf free p.2 = true) then w + 2 ^ (255 - p.2) else w) 0

/-- Insert a position by rising reliability; among equals the one sent earlier comes first. -/
def insertWeak (x : Nat × Nat) : List (Nat × Nat) → List (Nat × Nat)
  | [] => [x]
  | y :: ys => if x.1 < y.1 then x :: y :: ys else y :: insertWeak x ys

/-- The L least reliable positions in marking order. -/
def weakPositions (soft : List Int) (l : Nat) : List Nat :=
  (((soft.zipIdx.map fun p => (p.1.natAbs, 255 - p.2)).foldl (fun acc x => insertWeak x acc) []).take l).map
    fun p => p.2

/-- The correlation of a word with the soft values. -/
def softCorrelation (soft : List Int) (c : Nat) : Int :=
  (soft.zipIdx.map fun p => if bitOf c (255 - p.2) then -p.1 else p.1).foldl (· + ·) 0

/-- Test pattern j: the m-th marked position inverted exactly when bit m of j is 1. -/
def testPattern (hard : Nat) (weak : List Nat) (j : Nat) : Nat :=
  weak.zipIdx.foldl (fun w p => if bitOf j p.2 then w ^^^ 2 ^ p.1 else w) hard

/-- The Chase search (R45): the candidate of highest correlation, the lower pattern between equals. -/
def chaseDecode (soft : List Int) (hard l : Nat) : Option Nat :=
  let weak := weakPositions soft l
  ((List.range (2 ^ l)).foldl (fun (best : Option (Int × Nat)) j =>
    match laceAlgebraic (testPattern hard weak j) with
    | none => best
    | some c =>
      let v := softCorrelation soft c
      match best with
      | none => some (v, c)
      | some b => if b.1 < v then some (v, c) else best) none).map fun b => b.2

/-- In how many positions two words differ. -/
def wordDistance (x y : Nat) : Nat := ((List.range 256).filter fun i => bitOf x i != bitOf y i).length

/-- The CRC of R40: polynomial x^16 + x^12 + x^5 + 1, initial value 0xFFFF, no final inversion, most significant bit
of the `n` bits first. -/
def crc16 (n v : Nat) : Nat :=
  (List.range n).foldl (fun c i =>
    let top := (bitVal (bitOf v (n - 1 - i))) ^^^ (c / 32768)
    let c' := c % 32768 * 2
    if top = 1 then c' ^^^ 0x1021 else c') 0xFFFF

end Sys2Proof.Machine
end

