-- ==== Sys2Proof/Machine/LineMap.lean ====
section
/-! DEFINITION. What stands on the line (02_line_formats, 05_line_transmit, 06_burst_acquisition): the Lacework encoder
(R44) and the bobbins (R48), the APB (R40), the parts of a burst (R160 to R162), symbol maps and precoding (R51 to
R53, R89, R134), amplitudes, FIR and DAC (R135 to R139), and the sequence detector of the MLSE (R87, R89). Bits are in
line order, the first one first; symbols are level indices. -/

namespace Sys2Proof.Machine

/-! ## The Lacework encoder and the bobbins (R44, R48) -/

/-- The remainder of a polynomial modulo g(x) = 0x1_6F63 (R44), `n` the number of positions above 15. -/
def laceMod (n u : Nat) : Nat :=
  (List.range n).foldl (fun v i => if bitOf v (n + 15 - i) then v ^^^ (0x16F63 * 2 ^ (n - 1 - i)) else v) u

/-- The polynomial of degree < 16 with r(α) = 0 and r(α^3) = 1 (R44). -/
def laceR : Nat := 0xC55C

/-- The codeword of 240 information bits, position 255 highest (R44). -/
def laceEncode (info : Nat) : Nat :=
  let c := info % 2 ^ 240 * 2 ^ 16
  let parity := laceMod 239 (c % 2 ^ 255)
  c + (if bitOf c 255 then parity ^^^ laceR else parity)

/-- Symbol i, 0 to 47, of 480 bits of a stream. -/
def streamSymbol (v i : Nat) : Nat := bitsOf v (470 - 10 * i) 10

/-- The information bits of codeword `w` of a bobbin of streams A and B (R48): slot k holds symbol s in ascending
order. -/
def bobbinInfo (a b w : Nat) : Nat :=
  (List.range 24).foldl (fun v k =>
    let even := k % 2 == 0
    let isB := if w = 0 then !even else even
    let i := 4 * (k / 2) + (if isB then (w + 3) % 4 else w)
    v * 1024 + streamSymbol (if isB then b else a) i) 0

/-- The 1,024 line bits of a bobbin. -/
def bobbinBits (a b : Nat) : List Bool :=
  (List.range 4).flatMap fun w => natBits 256 (laceEncode (bobbinInfo a b w))

/-! ## The APB (R40) -/

/-- The PILOT field (R40): the first 128 bits of PRBS13 seeded all ones. -/
def pilotBits : List Bool := (prbsRun 13 128 (allOnes 13)).1

/-- The 256 bits of an APB from its frame count, lane tag and far status. -/
def apbBits (fcount tag far : Nat) : List Bool :=
  let head := fcount % 65536 * 65536 + tag % 256 * 256 + far % 256
  natBits 64 0x5A3C96E10FD24B87 ++ natBits 32 head ++ pilotBits ++ natBits 16 (crc16 32 head) ++ natBits 16 0xA5C3

/-! ## The parts of a burst (R160 to R162) -/

/-- A picot: 63 bits of PRBS6 seeded all ones, then 0. -/
def picotBits : List Bool := (prbsRun 6 63 (allOnes 6)).1 ++ [false]

/-- The start delimiter: the complement of p0 to p31. -/
def sdBits : List Bool := (picotBits.take 32).map fun b => !b

/-- The end delimiter: the complement of p32 to p63. -/
def edBits : List Bool := (picotBits.drop 32).map fun b => !b

/-- The burst marker block of index k. -/
def bmbBits (k : Nat) : List Bool :=
  natBits 64 0xC3A51E96F04B2D78 ++ natBits 16 k ++ natBits 16 (crc16 16 (k % 65536)) ++ pilotBits ++ natBits 32 0

/-! ## Symbol maps (R51, R52, R134) -/

/-- The levels of a constellation: 0 PAM4, 1 PAM6, 2 NRZ. -/
def levelCount (const : Nat) : Nat := if const = 0 then 4 else if const = 1 then 6 else 2

/-- The level of a bit pair, first bit first (R51). -/
def grayLevel (a b : Bool) : Nat := if a then (if b then 2 else 3) else (if b then 1 else 0)

/-- The bit pair of a level. -/
def grayBits (l : Nat) : List Bool := [decide (2 ≤ l), l == 1 || l == 2]

/-- The rows of R52: the group of the pair (i, j); none: a corner. -/
def pam6Grid : List (List (Option Nat)) :=
  [[none, some 0b10000, some 0b10001, some 0b10011, some 0b10010, none],
   [some 0b10101, some 0b00000, some 0b00001, some 0b00011, some 0b00010, some 0b10111],
   [some 0b10100, some 0b00100, some 0b00101, some 0b00111, some 0b00110, some 0b10110],
   [some 0b11100, some 0b01100, some 0b01101, some 0b01111, some 0b01110, some 0b11110],
   [some 0b11101, some 0b01000, some 0b01001, some 0b01011, some 0b01010, some 0b11111],
   [none, some 0b11000, some 0b11001, some 0b11011, some 0b11010, none]]

/-- The group a pair stands for. -/
def pam6Group (i j : Nat) : Option Nat := (pam6Grid.getD i []).getD j none

/-- The pair of a group (R52). -/
def pam6Pair (g : Nat) : Nat × Nat :=
  let k := ((List.range 36).find? fun k => pam6Group (k / 6) (k % 6) == some g).getD 7
  (k / 6, k % 6)

/-- One level nearer the middle of PAM6. -/
def inward (l : Nat) : Nat := if l < 3 then l + 1 else l - 1

/-- What the demapper makes of a pair (R89): a corner pair becomes the permitted pair in which the symbol of the
smaller path-metric margin has moved one level inward, symbol j where the margins are equal. -/
def cornerFix (i j mi mj : Nat) : Nat × Nat :=
  if (pam6Group i j).isSome then (i, j) else if mi < mj then (inward i, j) else (i, inward j)

/-- The five bits of a received pair. -/
def pam6Bits (x y : RxSym) : List Bool :=
  let p := cornerFix x.lev y.lev x.margin y.margin
  natBits 5 ((pam6Group p.1 p.2).getD 0)

/-- The bits of received PAM6 symbols, paired from the first one on. -/
def pam6Demap : List RxSym → List Bool
  | x :: y :: l => pam6Bits x y ++ pam6Demap l
  | _ => []

/-- Bits to PAM4 or NRZ levels, or to PAM6 pairs, with the bits that do not fill a group yet. -/
def mapBits (const : Nat) : List Bool → List Nat × List Bool
  | a :: b :: l =>
    if const = 2 then
      let q := mapBits const l
      (bitVal a :: bitVal b :: q.1, q.2)
    else if const = 1 then
      match l with
      | c :: d :: e :: l2 =>
        let p := pam6Pair (bitsNat [a, b, c, d, e])
        let q := mapBits const l2
        (p.1 :: p.2 :: q.1, q.2)
      | _ => ([], a :: b :: l)
    else
      let q := mapBits const l
      (grayLevel a b :: q.1, q.2)
  | [a] => if const = 2 then ([bitVal a], []) else ([], [a])
  | [] => ([], [])

/-- Bits that map one to a symbol onto the outer levels (R161). -/
def outerLevel (const : Nat) (b : Bool) : Nat := if b then levelCount const - 1 else 0

/-! ## Precoding (R53) -/

/-- What the transmitter sends for levels x(k) after y(k−1): y(k) = (x(k) − y(k−1)) mod 4; also the last y. -/
def precode : List Nat → Nat → List Nat × Nat
  | [], y => ([], y)
  | x :: l, y =>
    let z := (x + 4 - y % 4) % 4
    let q := precode l z
    (z :: q.1, q.2)

/-- What the receiver recovers from levels y(k) after y(k−1): x(k) = (y(k) + y(k−1)) mod 4. -/
def unprecode : List Nat → Nat → List Nat
  | [], _ => []
  | z :: l, y => (z + y) % 4 :: unprecode l z

/-! ## Amplitude, FIR and DAC (R135, R137, R139) -/

/-- The relative amplitude of a level: PAM4 −3 to +3, PAM6 −5 to +5, NRZ ±1 (R51, R52, R134). -/
def levelAmp (const l : Nat) : Int := 2 * (l : Int) - (levelCount const - 1 : Nat)

/-- The normalised amplitude a(k) as a fraction (R135): outer levels ±1, inner ones A / (A_out + v/64). NRZ has outer
levels alone. -/
def normAmp (const : Nat) (v : Int) (l : Nat) : Int × Int :=
  let out : Int := (levelCount const - 1 : Nat)
  let a := levelAmp const l
  if a = out then (1, 1) else if a = -out then (-1, 1) else (64 * a, 64 * out + v)

/-- Σ c_j a_j over the eight taps as a fraction, taps in 1/256; `w` holds a(k + 2) first and a(k − 5) last. -/
def firOut (bank : List Int) (w : List (Int × Int)) : Int × Int :=
  let y := (bank.zip w).foldl (fun (y : Int × Int) p => (y.1 * p.2.2 + p.1 * p.2.1 * y.2, y.2 * p.2.2)) (0, 1)
  (y.1, 256 * y.2)

/-- d(k) = round(63.5 (y + 1)), half up (R139). -/
def dacCode (y : Int × Int) : Nat := ((127 * (y.1 + y.2) + y.2) / (2 * y.2)).toNat

/-- The codes of new amplitudes, each entering in front of the seven before it (the newest first). The symbol whose
code is made is the one two places back, so the two pre-cursor taps see what follows it (R137). -/
def dacCodes (bank : List Int) : List (Int × Int) → List (Int × Int) → List Nat
  | [], _ => []
  | a :: l, past => dacCode (firOut bank (a :: past)) :: dacCodes bank l ((a :: past).take 7)

/-! ## The sequence detector (R87, R89) -/

/-- The traceback depth in symbols (R87). -/
def tracebackDepth : Nat := 64

/-- The trellis states (R87). -/
def mlseStates (const : Nat) (half : Bool) : Nat :=
  match const, half with
  | 0, false => 16
  | 0, true => 8
  | 1, false => 12
  | 1, true => 6
  | _, _ => 4

/-- The state of a path that ends in a(k−2), a(k−1) (R87): in full, or a(k−2) by its subset of even and odd levels, or
not at all in the halved PAM6. The spec gives NRZ no states: both symbols in full (notes/assumptions/145). -/
def mlseState (const : Nat) (half : Bool) (p1 p2 : Nat) : Nat :=
  match const, half with
  | 0, false => 4 * p1 + p2
  | 0, true => 2 * p1 + p2 % 2
  | 1, false => 2 * p1 + p2 % 2
  | 1, true => p1
  | _, _ => 2 * p1 + p2

/-- A survivor: its metric and its symbols, the newest first. -/
abbrev Survivor := Nat × List Nat

/-- The squared distance of an FFE output (2^-20 amplitude units) from what a target (1, α1/16, α2/16) and the tracked
centroids make of a path with a new symbol, in units of 2^-48: symbols a state holds only by subset come from the
survivor (R87, R88). -/
def branchMetric (levels : List Int) (a1 a2 : Nat) (y : Int) (a : Nat) (path : List Nat) : Nat :=
  let c := fun i => levels.getD i 0
  let want := 16 * c a + a1 * (match path with | p :: _ => c p | [] => 0) +
    a2 * (match path with | _ :: p :: _ => c p | _ => 0)
  ((16 * y - want) * (16 * y - want)).natAbs

/-- The extensions of the survivors by every level; at the second symbol of a pair with the pair phase known no path
ends in a corner pair (R89). -/
def mlseExtend (const : Nat) (levels : List Int) (a1 a2 : Nat) (prune : Bool) (y : Int) (ss : List Survivor) :
    List Survivor :=
  ss.flatMap fun s => ((List.range (levelCount const)).filter fun a =>
    !prune || (match s.2 with | p :: _ => (pam6Group p a).isSome | [] => true)).map fun a =>
      (s.1 + branchMetric levels a1 a2 y a s.2, a :: s.2)

/-- The survivor of lowest metric, the first among equals. -/
def bestOf : List Survivor → Option Survivor
  | [] => none
  | s :: l => some (l.foldl (fun b x => if x.1 < b.1 then x else b) s)

/-- One survivor for each trellis state. -/
def mlseSelect (const : Nat) (half : Bool) (xs : List Survivor) : List Survivor :=
  (List.range (mlseStates const half)).filterMap fun k =>
    bestOf (xs.filter fun x => mlseState const half (x.2.getD 0 0) (x.2.getD 1 0) == k)

/-- One symbol: the survivors after it, and the symbol decided, which lies the traceback depth behind. -/
def mlseStep (const : Nat) (half : Bool) (levels : List Int) (a1 a2 : Nat) (prune : Bool) (y : Int)
    (ss : List Survivor) : List Survivor × Option Nat :=
  let ss' := mlseSelect const half (mlseExtend const levels a1 a2 prune y (if ss.isEmpty then [(0, [])] else ss))
  let low := match bestOf ss' with | some b => b.1 | none => 0
  (ss'.map fun s => (s.1 - low, s.2.take tracebackDepth),
    match bestOf ss' with | some b => b.2[tracebackDepth]? | none => none)

/-- A run of FFE outputs; `prune` says of each symbol whether it ends a pair whose phase is known. -/
def mlseRun (const : Nat) (half : Bool) (levels : List Int) (a1 a2 : Nat) :
    List (Int × Bool) → List Survivor → List Survivor × List Nat
  | [], ss => (ss, [])
  | (y, prune) :: l, ss =>
    let q := mlseStep const half levels a1 a2 prune y ss
    let r := mlseRun const half levels a1 a2 l q.1
    (r.1, (match q.2 with | some a => [a] | none => []) ++ r.2)

/-! ## Soft values (R90) -/

/-- `a / b` rounded to the nearest integer, half away from zero. -/
def roundAway (a : Int) (b : Nat) : Int :=
  if 0 ≤ a then ((2 * a + b) / (2 * b : Nat)) else -((2 * (-a) + b) / (2 * b : Nat))

/-- The 6-bit soft value of an LLR in 1/4096 nat (R90): Δ is SOFT_SCALE/32 nat, and a scale of 0 acts as 1. -/
def softValue (scale : Nat) (llr : Int) : Int := max (-31) (min 31 (roundAway llr (128 * max 1 scale)))

end Sys2Proof.Machine
end

