-- ==== Sys2Proof/Machine/SliceOps.lean ====
section
/-! DEFINITION. Access to the state of lanes and host lanes, and the ADC slices with their calibration
(04_slices_and_calibration): stop causes, rotation, retirement and the groups (R107 to R132). -/

namespace Sys2Proof.Machine

/-! ## Access -/

def State.rxOf (s : State) (n : Nat) : RxX := Tab.get {} s.rx n
def State.setRx (s : State) (n : Nat) (x : RxX) : State := { s with rx := Tab.set {} s.rx n x }
def State.txOf (s : State) (n : Nat) : TxX := Tab.get {} s.tx n
def State.setTx (s : State) (n : Nat) (x : TxX) : State := { s with tx := Tab.set {} s.tx n x }
def State.calOf (s : State) (n : Nat) : CalX := Tab.get {} s.cal n
def State.setCal (s : State) (n : Nat) (x : CalX) : State := { s with cal := Tab.set {} s.cal n x }
def State.bstOf (s : State) (n : Nat) : BstX := Tab.get {} s.bst n
def State.setBst (s : State) (n : Nat) (x : BstX) : State := { s with bst := Tab.set {} s.bst n x }
/-- The registers of a byte range. -/
def State.regsIn (s : State) (lo hi : Nat) : Tab Nat :=
  s.regs.filter fun p => decide (8 * lo ≤ p.1) && decide (p.1 < 8 * hi)

/-- Where the shot of a lane, or of a course, is kept. -/
def courseShotKey (c : Nat) : Nat := 64 + c

def State.shot (s : State) (k : Nat) : Shot := Tab.get {} s.shots k

/-- A lane's survey ends: what its block holds is kept for a test (R331). -/
def State.takeLaneShot (s : State) (n : Nat) : State :=
  { s with shots := Tab.set {} s.shots n {
    regs := s.regsIn (0x200000 + 0x4000 * n) (0x204000 + 0x4000 * n), rx := { s.rxOf n with hist := [] }
    tx := s.txOf n, cal := s.calOf n, bst := s.bstOf n } }

/-- A course's survey ends. -/
def State.takeCourseShot (s : State) (c : Nat) : State :=
  { s with shots := Tab.set {} s.shots (courseShotKey c) {
    regs := s.regsIn (0x100000 + 0x10000 * c) (0x110000 + 0x10000 * c) } }

def State.epochOf (s : State) (c : Nat) : EpochX := Tab.get {} s.epoch c
def State.setEpoch (s : State) (c : Nat) (x : EpochX) : State := { s with epoch := Tab.set {} s.epoch c x }
def State.hostOf (s : State) (k : Nat) : HostX := Tab.get {} s.host k
def State.setHost (s : State) (k : Nat) (x : HostX) : State := { s with host := Tab.set {} s.host k x }
def State.htxOf (s : State) (k : Nat) : HostTx := Tab.get {} s.htx k
def State.setHtx (s : State) (k : Nat) (x : HostTx) : State := { s with htx := Tab.set {} s.htx k x }

def State.mortarOf (s : State) (c : Nat) : MortarX := Tab.get {} s.mortar c
def State.setMortar (s : State) (c : Nat) (x : MortarX) : State := { s with mortar := Tab.set {} s.mortar c x }

/-- The elastic buffers of a lane among those of its course, numbered as `SLACK.SRC` numbers them. -/
def laneBufs (n : Nat) : List Nat :=
  let j := n % 8
  [j, 8 + j, 16 + 2 * j, 17 + 2 * j, 32 + 2 * j, 33 + 2 * j]

/-- The buffers of a lane are flushed (R195): what stands in their reserve goes, and counts nowhere. -/
def State.flushBufs (s : State) (n : Nat) : State :=
  let x := s.mortarOf (courseOf n)
  s.setMortar (courseOf n) { x with
    bufs := x.bufs.map fun (p : Nat × BufX) => (p.1, if (laneBufs n).contains p.1 then { p.2 with backlog := 0 } else p.2) }

/-- The lane state, codes of R65. -/
def State.lane (s : State) (n : Nat) : Nat := s.rd Reg.LN.RX_STAT.LANE_STATE n

/-- The mode in force, codes of `FMT_CFG.MODE` (R64). -/
def State.mode (s : State) (n : Nat) : Nat := s.rd Reg.LN.FMT_CFG.MODE n

def isyon (m : Nat) : Bool := m == 4 || m == 5
def m200 (m : Nat) : Bool := m == 2 || m == 3

/-- A mode has a header bond (R32). -/
def headerBond (m : Nat) : Bool := m == 1 || m == 2 || m == 3 || m == 6

/-- A step of the effort ladder is in force on the lane's course (R430). -/
def State.ladderStep (s : State) (c step : Nat) : Bool := bitOf (s.rd Reg.THM.LADDER.STEPS c) (step - 1)

/-- The lane engine runs (R18, R19). -/
def State.laneEngineOn (s : State) (n : Nat) : Bool := s.engMapOf n == .running

/-! ## Slices (R109, R110) -/

def State.slice (s : State) (n i : Nat) : SliceX := Tab.get {} (s.calOf n).slices i

def State.setSlice (s : State) (n i : Nat) (v : SliceX) : State :=
  let x := s.calOf n
  s.setCal n { x with slices := Tab.set {} x.slices i v }

/-- The first slice of a lane in a state. -/
def State.sliceIn (s : State) (n : Nat) (st : SliceSt) : Option Nat :=
  if s.flag Reg.LN.CAL_STAT.FIRST_DONE n then (List.range 68).find? fun i => (s.slice n i).st == st else none

/-- Retired slices (R118). -/
def State.retired (s : State) (n : Nat) : Nat :=
  ((List.range 68).filter fun i => (s.slice n i).st == .retired).length

/-- Usable spares, once the first calibration has ended (R118, R126). -/
def State.spares (s : State) (n : Nat) : Nat :=
  if s.flag Reg.LN.CAL_STAT.FIRST_DONE n then 4 - s.retired n else 0

/-! ## Parameters, and the rule of repeat and agree (R121, R122) -/

/-- A parameter of R121 in steps of its resolution: the tolerance of agreement and the ends of the valid range. -/
structure Param where
  tol : Int
  lo : Int
  hi : Int
  deriving DecidableEq, Repr

/-- Group S in CAL: offset, gain and the four most significant SAR weights; and in SHADOW: skew and bandwidth. -/
def calPars : List Param := [⟨2, -128, 128⟩, ⟨5, -500, 500⟩] ++ List.replicate 4 ⟨2, -64, 64⟩
def shadowPars : List Param := [⟨4, -200, 200⟩, ⟨5, -80, 80⟩]

/-- The parameters of a lane group, with the codes of `CAL_STAT.PENDING`: A, P, D, C, T. -/
def groupPars : Nat → List Param
  | 1 => [⟨4, -200, 200⟩]
  | 2 => List.replicate 128 ⟨2, -32, 32⟩
  | 3 => List.replicate 127 ⟨2, -64, 64⟩ ++ [⟨3, -150, 150⟩]
  | 4 => [⟨3, -75, 75⟩]
  | _ => List.replicate 2 ⟨2, 170, 230⟩

/-- How a parameter's measurement ends (R122). -/
inductive Judged where
  | accept (v : Int) | suspect | outOfRange
  deriving DecidableEq, Repr

/-- How a run ends for a slice (R118, R122, R123): every parameter accepted, one suspect, or one whose two measurements
agree outside the valid range. -/
inductive CalRes where
  | accepted | suspect | outOfRange
  deriving DecidableEq, Repr

/-- Repeat and agree (R122): the first of up to four pairs whose results lie within the tolerance gives their mean, rounded
to the resolution (half away from zero, notes/assumptions/151), and the value is checked against the range. -/
def judge (p : Param) (m : Meas) : Judged :=
  match (m.take 4).find? fun x => decide (((x.1 - x.2).natAbs : Int) ≤ 16 * p.tol) with
  | none => .suspect
  | some x =>
    let v := roundAway (x.1 + x.2) 32
    if p.lo ≤ v ∧ v ≤ p.hi then .accept v else .outOfRange

/-- The parameters of a run, each with its own measurement. -/
def judgeRun (ps : List Param) (ms : List Meas) : List Judged := ps.zipIdx.map fun q => judge q.1 (ms.getD q.2 [])

def runRes (js : List Judged) : CalRes :=
  if js.contains .outOfRange then .outOfRange else if js.contains .suspect then .suspect else .accepted

/-- The coefficients after a run: an accepted value takes effect, every other parameter keeps what it has from place `k`
on, or zero where it has none (R122, R123). -/
def takeCoefs (old : List Int) (k : Nat) (js : List Judged) : List Int :=
  js.zipIdx.map fun q => match q.1 with
    | .accept v => v
    | _ => old.getD (k + q.2) 0

/-- A raw code of a slice corrected by its offset, gain and the SAR weights of the bits it has (R108), in 1/320,000 LSB.
The form of the correction is the model's (notes/assumptions/152). -/
def correct (c : List Int) (raw : Nat) : Int :=
  let w := (List.range 4).foldl (fun (a : Int) j => if bitOf raw (7 - j) then a + c.getD (2 + j) 0 else a) 0
  (32 * raw + 2 * c.getD 0 0 + w) * (10000 + c.getD 1 0)

/-- The slice that holds a position. -/
def State.sliceAt (s : State) (n p : Nat) : Option Nat :=
  (List.range 68).find? fun i => (s.slice n i).st == .active && (s.slice n i).pos == p

/-- The corrected sample of symbol `k` (R107, R108): position k mod 64 samples it, and the slice that serves the position
converts it to the code `raw`. -/
def State.adcSample (s : State) (n k raw : Nat) : Option Int :=
  (s.sliceAt n (k % 64)).map fun i => correct (s.slice n i).coef raw

/-- The reading of the course's converter sensor (R124), in 0.1 °C. -/
def State.convTemp (s : State) (c : Nat) : Nat := s.rd Reg.THM.SENSOR.READING (8 + c)

/-- The distance of two readings, which are two's complement. -/
def tempDiff (a b : Nat) : Nat := (signedOf a 16 - signedOf b 16).natAbs

/-- ΔT_cal of a course (R133): values below 5 act as 5, above 200 as 200. -/
def State.dtCal (s : State) (c : Nat) : Nat := max 5 (min 200 (s.rd Reg.CRS.CAL_CTRL.DT_CAL c))

/-! ## When rotation stops (R115, R116) -/

def State.los (s : State) (n : Nat) : Bool := s.flag Reg.LN.RX_STAT.LOS n

/-- No signal for SHADOW (R115): LOS or no CDR lock; in BURST, where neither stands for the line, the loss of bursts. -/
def State.noSignal (s : State) (n : Nat) : Bool :=
  if s.lane n = 4 then s.flag Reg.LN.BST_STAT.LOS n else s.los n || !s.flag Reg.LN.RX_STAT.CDR_LOCK n

/-- A burst passes through the receiver: no guard interval (R114). -/
def State.inBurst (s : State) (n : Nat) : Bool :=
  s.lane n == 4 && decide (2 ≤ s.rd Reg.LN.BST_STAT.RX_PHASE n) && decide (s.rd Reg.LN.BST_STAT.RX_PHASE n ≤ 4)

/-- A capture of pre-FFE samples runs on the lane (R114). -/
def State.adcCapture (s : State) (n : Nat) : Bool :=
  match s.capOn n with
  | some c => c.point == 0
  | none => false

/-- `SLICE_STAT.STOP_CAUSE` (R115, R133). -/
def State.stopCause (s : State) (n : Nat) : Nat :=
  let c := courseOf n
  bitVal (decide (s.spares n ≤ 1)) + 2 * bitVal (s.ladderStep c 4) + 4 * s.rd Reg.GLB.BG_STAT.FREEZE +
    8 * s.rd Reg.LN.SLICE_CTRL.ROT_HOLD n +
    16 * bitVal ((s.calOf n).foreground.isSome || s.laneInTest n) +
    32 * bitVal (s.noSignal n) + 64 * bitVal (!s.laneEngineOn n) +
    128 * bitVal (!s.courseOn c || s.lane n == 0)

/-- CAL may run: no cause but a missing signal, or only the single spare, which is calibrated once (R115, R116). -/
def State.calAllowed (s : State) (n : Nat) : Bool :=
  let k := s.stopCause n
  (k == 0 || k == 32) || ((k == 1 || k == 33) && s.spares n == 1)

/-- SHADOW may run: no cause at all, or for a fault swap only the want of spares (R117). -/
def State.shadowAllowed (s : State) (n : Nat) (fault : Bool) : Bool :=
  s.stopCause n == 0 || (fault && s.stopCause n == 1)

/-! ## Suspect results and retirement (R112, R118 to R120, R123, R132) -/

/-- A new value of `CAL_STAT.SUSPECT`: CAL_SUSPECT is raised when the OR of its bits rises. -/
def State.setSuspect (s : State) (n v : Nat) : State :=
  (s.wr Reg.LN.CAL_STAT.SUSPECT v n).raiseRise (s.rd Reg.LN.CAL_STAT.SUSPECT n != 0) (v % 64 != 0) (laneSrc n 4) 0

/-- Some non-retired slice's last calibration was suspect (R123). -/
def State.anySuspect (s : State) (n : Nat) : Bool :=
  (List.range 68).any fun i => (s.slice n i).st != .retired && (s.slice n i).suspect

/-- The S bit (R123). -/
def State.refreshS (s : State) (n : Nat) : State :=
  s.setSuspect n (s.rd Reg.LN.CAL_STAT.SUSPECT n / 2 * 2 + bitVal (s.anySuspect n))

/-- The retire map is written, or its write waits for the MRAM window (R120). It holds every slice now retired, also those
a RETIRE_MAP_CLEAR took out of it before (notes/assumptions/153). -/
def State.writeRetireMap (s : State) (n : Nat) : State :=
  if s.nvmOpen then
    let m := (List.range 68).filter fun i => (s.slice n i).st == .retired
    let s1 : State := { s with retire := Tab.set [] s.retire n m }
    s1.setCal n { s1.calOf n with mapDue := false }
  else s.setCal n { s.calOf n with mapDue := true }

/-- A failed slice stays in service (R119): SLICE_RETIRED is raised as NO_SPARE sets. -/
def State.noSpare (s : State) (n : Nat) : State :=
  (s.wr Reg.LN.SLICE_STAT.NO_SPARE 1 n).raiseRise (s.flag Reg.LN.SLICE_STAT.NO_SPARE n) true (laneSrc n 6) 0

/-- A slice leaves the queue. -/
def State.unqueue (s : State) (n i : Nat) : State :=
  s.setCal n { s.calOf n with queue := (s.calOf n).queue.filter fun j => j != i }

/-- A slice is retired, unless fewer than 64 would remain: then it stays in service, at its position or at the queue's tail
(R118, R119). `rotate` says whether a kept slice joins the queue. -/
def State.retireSlice (s : State) (n i : Nat) (rotate : Bool) : State :=
  let x := s.slice n i
  if 4 ≤ s.retired n then
    if x.st = .active then s.noSpare n
    else
      let s1 := (s.unqueue n i).setSlice n i { x with st := .queued, trims := none }
      (if rotate then s1.setCal n { s1.calOf n with queue := (s1.calOf n).queue ++ [i] } else s1).noSpare n
  else
    let s1 := (s.unqueue n i).setSlice n i { x with st := .retired, pos := 0, suspect := false, trims := none, watch := 0 }
    (s1.writeRetireMap n).raise (laneSrc n 6) 0

/-- A result outside the valid range (R118). -/
def State.rangeTurn (s : State) (n i : Nat) : State :=
  ((s.setSlice n i { s.slice n i with suspect := true }).retireSlice n i true).refreshS n

/-- A suspect turn (R112, R118): the slice joins the queue's tail, and after the second in a row it is retired. -/
def State.suspectTurn (s : State) (n i : Nat) : State :=
  let x := s.slice n i
  if 1 ≤ x.run then
    ((s.setSlice n i { x with suspect := true, run := 2 }).retireSlice n i true).refreshS n
  else
    let s1 := s.setSlice n i { x with st := .queued, suspect := true, run := x.run + 1, trims := none }
    (s1.setCal n { s1.calOf n with queue := (s1.calOf n).queue ++ [i] }).refreshS n

/-! ## Groups (R124, R125, R128) -/

/-- Background groups may run on the lane (R128). -/
def State.groupsAllowed (s : State) (n : Nat) : Bool :=
  s.lane n != 0 && s.courseOn (courseOf n) && !s.ladderStep (courseOf n) 4 && s.rd Reg.GLB.BG_STAT.FREEZE == 0 &&
    s.laneEngineOn n && (s.calOf n).foreground.isNone

/-- A further lane of the course may run a group: at most 4 do (R124). -/
def State.groupRoom (s : State) (c : Nat) : Bool :=
  decide (((List.range 8).filter fun j => (s.calOf (8 * c + j)).group.isSome).length < 4)

/-- A CAL step is to come, in which group P can run: rotation runs, or the one spare may be borrowed (R121). -/
def State.calComing (s : State) (n : Nat) : Bool :=
  s.stopCause n == 0 || (s.calAllowed n && s.spares n == 1)

/-- Group P has its turn (R121, R124). -/
def State.turnP (s : State) (n : Nat) : Bool :=
  let p := s.rd Reg.LN.CAL_STAT.PENDING n
  bitOf p 2 && !bitOf p 1 && (s.calOf n).group.isNone && s.groupsAllowed n && s.groupRoom (courseOf n)

/-- Group P runs inside the CAL step that begins (R121). -/
def State.joinP (s : State) (n : Nat) : State :=
  if s.turnP n then s.setCal n { s.calOf n with group := some 2 } else s

/-- The pending group that starts by itself, in the order A, P, D, C (bits 1 to 4 of `PENDING`): D and C wait for a P whose
CAL step is to come (notes/assumptions/154). -/
def State.nextGroup (s : State) (n : Nat) : Option Nat :=
  let p := s.rd Reg.LN.CAL_STAT.PENDING n
  if bitOf p 1 then some 1
  else if bitOf p 2 && s.calComing n then none
  else [3, 4].find? fun g => bitOf p g

/-- The one spare, which READY holds, is borrowed by group P and calibrated anew (R121). -/
def State.borrowSpare (s : State) (n : Nat) : State :=
  match s.sliceIn n .ready with
  | some i =>
    if s.turnP n && s.calAllowed n && s.spares n == 1 then (s.joinP n).setSlice n i { s.slice n i with st := .cal } else s
  | none => s

/-- Start pending groups of a course: at most 4 lanes at once, lower lanes first (R124). -/
def State.startGroups (s : State) (c : Nat) : State :=
  (List.range 8).foldl (fun t i =>
    let n := 8 * c + i
    if t.groupRoom c && (t.calOf n).group.isNone && t.groupsAllowed n then
      match t.nextGroup n with
      | some g => t.setCal n { t.calOf n with group := some g }
      | none => t.borrowSpare n
    else t) s

/-- Queue groups of a lane (a mask in the order of `PENDING`): group P without a spare only sets `FG_DUE` (R125). -/
def State.queueGroups (s : State) (n mask : Nat) : State :=
  let noP := bitOf mask 2 && s.spares n == 0
  let m := if noP then putBits mask 2 1 0 else mask
  let s1 := if noP then s.wr Reg.LN.SLICE_STAT.FG_DUE 1 n else s
  s1.wr Reg.LN.CAL_STAT.PENDING (s1.rd Reg.LN.CAL_STAT.PENDING n ||| m) n

/-- The distance of the sensor's reading from the baseline of a group, A first. -/
def State.baseDiff (s : State) (n g : Nat) : Nat :=
  tempDiff (s.convTemp (courseOf n)) ((s.calOf n).base.getD g 0)

/-- `CAL_STAT.DT_MAX` (R133). -/
def State.dtMax (s : State) (n : Nat) : Nat :=
  if s.flag Reg.LN.CAL_STAT.FIRST_DONE n then
    min 4095 (((List.range 4).map fun g => s.baseDiff n g).foldl max 0)
  else 0

/-- R124 and R125 for a lane at a reading of its course's converter sensor. -/
def State.calTrigger (s : State) (n : Nat) : State :=
  let c := courseOf n
  let x := s.calOf n
  let t := s.convTemp c
  let mask := (List.range 4).foldl (fun m g =>
    if s.dtCal c < s.baseDiff n g ∧ x.notBefore.getD g 0 ≤ s.time ∧ x.group ≠ some (g + 1) then m + 2 ^ (g + 1) else m) 0
  let s1 := if s.flag Reg.CRS.CAL_CTRL.DT_EN c then s.queueGroups n mask else s
  let old := (List.range 68).any fun i =>
    (s1.slice n i).st == .active && decide (s1.dtCal c < tempDiff t (s1.slice n i).calTemp)
  let s2 := if s1.stopCause n ≠ 0 ∧ old then s1.wr Reg.LN.SLICE_STAT.FG_DUE 1 n else s1
  match s2.sliceIn n .ready with
  | some i =>
    if s2.spares n = 1 ∧ s2.calAllowed n ∧ s2.dtCal c < tempDiff t (s2.slice n i).calTemp then
      (s2.joinP n).setSlice n i { s2.slice n i with st := .cal }
    else s2
  | none => s2

/-- R124 for every lane of a course whose first calibration has ended, then the groups start. -/
def State.calTriggers (s : State) (c : Nat) : State :=
  ((List.range 8).foldl (fun t i =>
    let n := 8 * c + i
    if t.flag Reg.LN.CAL_STAT.FIRST_DONE n && t.courseOn c then t.calTrigger n else t) s).startGroups c

/-- The group run in progress ends without result (R128). -/
def State.cutGroup (s : State) (n : Nat) : State :=
  match (s.calOf n).group with
  | none => s
  | some g =>
    (s.setCal n { s.calOf n with group := none }).wr Reg.LN.CAL_STAT.PENDING
      (putBits (s.rd Reg.LN.CAL_STAT.PENDING n) g 1 0) n

/-- Group runs in progress that may not run are abandoned without result (R128). -/
def State.abandonGroup (s : State) (n : Nat) : State := if s.groupsAllowed n then s else s.cutGroup n

/-! ## Steps that end early, and those that begin (R111, R116) -/

/-- A CAL step is abandoned: its slice returns to the head of the queue, and a group P inside it waits for the next one. -/
def State.abandonCal (s : State) (n : Nat) : State :=
  match s.sliceIn n .cal with
  | some i =>
    let t := s.setSlice n i { s.slice n i with st := .queued }
    t.setCal n { t.calOf n with
      queue := i :: (t.calOf n).queue
      group := if (t.calOf n).group = some 2 then none else (t.calOf n).group }
  | none => s

/-- A SHADOW step is abandoned: the trims it applied are discarded and its slice returns to READY. -/
def State.abandonShadow (s : State) (n : Nat) : State :=
  match s.sliceIn n .shadow with
  | some i =>
    let t := s.setSlice n i { s.slice n i with st := .ready, trims := none }
    t.setCal n { t.calOf n with shadowTries := 0, faultSwap := false }
  | none => s

/-- Steps that may not run are abandoned (R116); a swap already due is not. -/
def State.abandonSteps (s : State) (n : Nat) : State :=
  let s1 := if s.calAllowed n then s else s.abandonCal n
  if s1.shadowAllowed n (s1.calOf n).faultSwap || (s1.calOf n).swapDue then s1 else s1.abandonShadow n

/-- At the start of a cycle the head of the queue enters CAL (R111), with group P if it has its turn (R121). The cycle of
a lane starts once no slice is READY or in SHADOW, as the table of R113 shows it (notes/assumptions/155). -/
def State.startCal (s : State) (n : Nat) : State :=
  if s.calAllowed n && (s.sliceIn n .cal).isNone && (s.sliceIn n .ready).isNone && (s.sliceIn n .shadow).isNone then
    match (s.calOf n).queue with
    | i :: q => ((s.setCal n { s.calOf n with queue := q }).setSlice n i { s.slice n i with st := .cal }).joinP n
    | [] => s
  else s

/-- The spare in SHADOW takes the position with its trims (R111, R117): the outgoing slice joins the tail of the queue,
after a fault swap the head. -/
def State.sliceSwap (s : State) (n i : Nat) : State :=
  let x := s.calOf n
  let s1 :=
    match s.sliceAt n x.shadowPos with
    | some o =>
      let t := s.setSlice n o { s.slice n o with st := .queued, pos := 0, watch := 0 }
      t.setCal n { t.calOf n with queue := if x.faultSwap then o :: x.queue else x.queue ++ [o] }
    | none => s
  let y := s1.slice n i
  let s2 := s1.setSlice n i { y with
    st := .active, pos := x.shadowPos, suspect := false, run := 0, watch := 0, calAt := s.time, coeff := true
    coef := (List.range 6).map (fun j => y.coef.getD j 0) ++ y.trims.getD (y.coef.drop 6), trims := none }
  let s3 := s2.setCal n { s2.calOf n with
    swapAt := some s.time, faultSwap := false, swapDue := false, shadowTries := 0
    failed := x.failed.filter fun p => p != x.shadowPos }
  (s3.countWrap Reg.LN.SLICE_STAT.SWAPS 1 n).refreshS n

/-- A swap that is due is made, outside a burst and a pre-FFE capture (R114). -/
def State.swapIfDue (s : State) (n : Nat) : State :=
  if (s.calOf n).swapDue && !s.inBurst n && !s.adcCapture n then
    match s.sliceIn n .shadow with
    | some i => s.sliceSwap n i
    | none => s.setCal n { s.calOf n with swapDue := false }
  else s

/-- Rotation follows its causes. -/
def State.slicesSettle (s : State) (n : Nat) : State :=
  if s.flag Reg.LN.CAL_STAT.FIRST_DONE n then ((s.swapIfDue n).abandonSteps n).startCal n else s

/-- Rotation and groups of a lane follow a change of what stops them. -/
def State.calSettle (s : State) (n : Nat) : State := (s.abandonGroup n).slicesSettle n

/-- The lane engine is swapped by an update (R115, R116, R128): the steps and the group run in progress are abandoned, and
rotation goes on when it runs again, which is at once here. -/
def State.rotationCut (s : State) (n : Nat) : State :=
  if s.flag Reg.LN.CAL_STAT.FIRST_DONE n then
    let s1 := ((s.cutGroup n).swapIfDue n).abandonCal n
    (if (s1.calOf n).swapDue then s1 else s1.abandonShadow n).startCal n
  else s

/-! ## Slices that fail a test (R118, R119, R471) -/

/-- The spare that takes a position at once: the READY one, else the first of the queue that is not suspect, else the first. -/
def State.spareFor (s : State) (n : Nat) : Option Nat :=
  match s.sliceIn n .ready with
  | some j => some j
  | none =>
    let q := (s.calOf n).queue
    match q.find? fun j => !(s.slice n j).suspect with
    | some j => some j
    | none => q.head?

/-- An ACTIVE slice leaves its position to a spare, so that the position stays served (R107). -/
def State.replaceActive (s : State) (n i : Nat) : State :=
  match s.spareFor n with
  | some j =>
    let p := (s.slice n i).pos
    let t := (s.unqueue n j).setSlice n j { s.slice n j with st := .active, pos := p, watch := 0, trims := none }
    t.setSlice n i { t.slice n i with st := .queued, pos := 0, watch := 0 }
  | none => s

/-- A slice fails a lane test, which holds rotation (R115, R118, R471): an ACTIVE one is retired once a spare has its
position. -/
def State.testRetire (s : State) (n i : Nat) : State :=
  match (s.slice n i).st with
  | .retired => s
  | .active =>
    if 4 ≤ s.retired n then s.retireSlice n i true
    else
      let t := s.replaceActive n i
      if (t.slice n i).st = .active then t.noSpare n else (t.retireSlice n i true).refreshS n
  | .shadow => ((s.abandonShadow n).retireSlice n i true).refreshS n
  | _ => (s.retireSlice n i true).refreshS n

end Sys2Proof.Machine
end

