-- ==== Sys2Proof/Machine/LaneOps.lean ====
section
/-! DEFINITION. What the lane chapters share: modes and bonds (R23, R32), the lane state with what follows from a
change of it on the receive, transmit and host sides (R65, R104, R146, R152, R218 to R221, R226, R346), acquisition
entries (R68, R69, R73 to R76), seeds and defaults (R94, R96), and the freeze conditions (R92). -/

namespace Sys2Proof.Machine

/-! ## Freeze conditions (R92) -/

/-- `RX_STAT.FREEZE_CAUSE`: LOS, engine, codeword drop in the current block, MAINT. -/
def State.freezeCause (s : State) (n : Nat) : Nat :=
  bitVal (s.los n) + 2 * bitVal (!s.laneEngineOn n) + 4 * bitVal (s.rxOf n).discard + 8 * bitVal (s.lane n == 5)

/-- The engine-driven loops are held by an automatic condition. -/
def State.loopsHeld (s : State) (n : Nat) : Bool := s.los n || !s.laneEngineOn n || s.lane n == 5

/-- Any freeze condition applies to the lane, the freeze bits among them (R95). -/
def State.anyFreeze (s : State) (n : Nat) : Bool :=
  s.freezeCause n != 0 || (s.rxOf n).cut || s.flag Reg.LN.RX_CTRL.AGC_FREEZE n || s.flag Reg.LN.RX_CTRL.CTLE_FREEZE n ||
    s.flag Reg.LN.RX_CTRL.CDR_FREEZE n || s.flag Reg.LN.RX_CTRL.FFE_FREEZE n ||
    s.flag Reg.LN.RX_CTRL.TGT_FREEZE n || s.flag Reg.LN.RX_CTRL.LEVEL_FREEZE n ||
    s.flag Reg.LN.RX_CTRL.SOFT_FREEZE n

/-! ## Transmit idle causes (R146) -/

/-- `TX_STAT.IDLE_CAUSE`: NOT_ENABLED, SQUELCH, PAD_HELD, CAL, RETIME. In a lane test the hold circuit of the pad latch
holds the output (R148, R473). -/
def State.idleCause (s : State) (n : Nat) : Nat :=
  let x := s.txOf n
  let st := s.lane n
  bitVal (st == 0 || st == 1 || st == 6 || !x.configured) + 2 * bitVal (s.flag Reg.LN.TX_CTRL.SQUELCH n) +
    4 * bitVal (s.padHeldC (courseOf n) || s.inTest (64 + n)) + 8 * bitVal x.cal + 16 * bitVal x.retime.isSome

/-- The line output stands in electrical idle: a cause of R146 holds, or the near loop takes the DAC output (R155). -/
def State.txIdle (s : State) (n : Nat) : Bool := s.idleCause n != 0 || s.rd Reg.LN.PRBS_CTRL.LOOP n == 1

/-- In electrical idle the output sends nothing; it starts again only at a block boundary. -/
def State.txCheck (s : State) (n : Nat) : State :=
  if !s.txIdle n then s else s.wr Reg.LN.TX_STAT.TX_ACTIVE 0 n

/-! ## Host lanes (R218, R220, R228) -/

/-- The state of R218 leaving training aside: 0 OFF, 1 IDLE, 3 otherwise. -/
def State.hostTarget (s : State) (k : Nat) : Nat :=
  let st := s.lane (k / 2)
  if !s.quadOn (k / 32) || st == 0 || st == 6 || (k % 2 == 1 && headerBond (s.mode (k / 2))) then 0
  else if st = 1 then 1 else 3

/-- Some `QUAD_CHG` bit is set. -/
def State.quadChg (s : State) (q : Nat) : Bool := (List.range 32).any fun j => s.flag Reg.HL.QUAD_CHG.LANE q j

def State.anyChg (s : State) : Bool := (List.range 4).any fun q => s.quadChg q

/-- The stream of host lane `k` has ended: its alignment-marker lock goes, and the deskew with it (R49). -/
def State.hostUnaligned (s : State) (k : Nat) : State :=
  let f := if k % 2 = 0 then Reg.LN.FMT_STAT.HOST_A_ALIGNED else Reg.LN.FMT_STAT.HOST_B_ALIGNED
  if s.flag f (k / 2) then
    ((s.wr f 0 (k / 2)).wr Reg.LN.FMT_STAT.DESKEW 0 (k / 2)).wr Reg.LN.FMT_STAT.SKEW_OVR 0 (k / 2)
  else s

/-- `SIG_LOCK` follows its conditions (R220), and with signal lock the stream's alignment ends; each change sets the lane's `QUAD_CHG` bit, and HOST_LINK is raised when
the OR of all bits rises (R228). -/
def State.refreshSig (s : State) (k : Nat) : State :=
  let q := k / 32
  let v := s.quadOn q && s.flag Reg.HL.QUAD_STAT.PLL_LOCK q && !s.flag Reg.HL.STAT.LOS k &&
    s.flag Reg.HL.STAT.CDR_LOCK k && s.rd Reg.HL.STAT.STATE k == 3
  if v = s.flag Reg.HL.STAT.SIG_LOCK k then s
  else
    let s0 := if v then s else s.hostUnaligned k
    let s1 := (s0.wrB Reg.HL.STAT.SIG_LOCK v k).wr Reg.HL.QUAD_CHG.LANE 1 q (k % 32)
    s1.raiseRise s.anyChg true 2
      (((List.range 4).map fun i => bitVal (s1.quadChg i) * 2 ^ i).foldl (· + ·) 0)

/-- Training starts from the initial condition (R221, R222). -/
def State.startTraining (s : State) (k : Nat) : State :=
  let x := s.hostOf k
  let s1 := s.setHost k { x with training := true, trainAt := s.time, restartAt := none }
  let s2 := ((s1.wr Reg.HL.STAT.STATE 2 k).wr Reg.HL.TRAIN_STAT.RESULT 1 k).wr Reg.HL.TRAIN_STAT.LOCAL_READY 0 k
  ((s2.wr Reg.HL.TRAIN_STAT.REMOTE_READY 0 k).hostUnaligned k).refreshSig k

/-- The lane enters DATA with its precoder at 0: without training the coefficients of `TX_EQ` and the precoding of `CTRL` are in force (R222,
R223). -/
def State.enterData (s : State) (k : Nat) (trained : Bool) : State :=
  let s1 := (s.wr Reg.HL.STAT.STATE 3 k).setHtx k {}
  let s2 := if trained then s1
    else (s1.wr Reg.HL.STAT.PRE_TX_ON (s1.rd Reg.HL.CTRL.PRECODE_TX k) k).wr Reg.HL.STAT.PRE_RX_ON
      (s1.rd Reg.HL.CTRL.PRECODE_RX k) k
  s2.refreshSig k

/-- Outside MAINT or DATA the host generator, checker and loop are cleared (R226). -/
def State.clearHostTest (s : State) (k : Nat) : State :=
  if s.lane (k / 2) = 5 ∧ s.rd Reg.HL.STAT.STATE k = 3 then s
  else ((((s.wr Reg.HL.PRBS_CTRL.GEN_EN 0 k).wr Reg.HL.PRBS_CTRL.CHK_EN 0 k).wr Reg.HL.PRBS_CTRL.LOOP 0 k).wr
    Reg.HL.PRBS_CTRL.CHK_LOCK 0 k).setChk (64 + k) {}

/-- The host lane takes the state R218 gives it now; leaving OFF or IDLE for data it trains first where R221 asks. -/
def State.refreshHost (s : State) (k : Nat) : State :=
  let t := s.hostTarget k
  let old := s.rd Reg.HL.STAT.STATE k
  let x := s.hostOf k
  let s1 :=
    if t = 3 then
      if x.training then s.wr Reg.HL.STAT.STATE 2 k
      else if old < 2 ∧ s.flag Reg.HL.TRAIN_CTRL.EN k ∧ s.mode (k / 2) ≠ 1 then s.startTraining k
      else if old = 3 then s
      else s.enterData k false
    else
      let s2 := (s.setHost k { x with training := false, restartAt := none }).wr Reg.HL.STAT.STATE t k
      let s3 := if s2.rd Reg.HL.TRAIN_STAT.RESULT k = 1 then s2.wr Reg.HL.TRAIN_STAT.RESULT 0 k else s2
      let s4 := (s3.wr Reg.HL.STAT.CDR_LOCK 0 k).hostUnaligned k
      (if t = 0 then s4.wr Reg.HL.STAT.LOS 0 k else s4).refreshSig k
  s1.clearHostTest k

/-- Both host lanes of a line lane's bond. -/
def State.refreshBond (s : State) (n : Nat) : State := (s.refreshHost (2 * n)).refreshHost (2 * n + 1)

/-! ## Leaving a lane state -/

/-- What leaving ACTIVE ends (R63, R100, R104). -/
def State.leaveActive (s0 : State) (n : Nat) : State :=
  let s : State := { s0 with upd := { s0.upd with
    trialLanes := s0.upd.trialLanes.map fun (x : TrialLane) => if x.lane = n then { x with stayed := false } else x } }
  let s1 := ((s.wr Reg.LN.RX_STAT.FEC_DEG 0 n).wr Reg.LN.RX_STAT.GAP_HIGH 0 n).wr Reg.LN.RX_GAP.VALID 0 n
  (s1.wr Reg.LN.LATENCY.VALID 0 n).setRx n { s1.rxOf n with
    inActive := 0, degUp := 0, degDown := 0, gapUp := 0, gapDown := 0, constRun := 0 }

/-- The taps the ladder's FFE cut leaves of a bank whose main tap is `m` (R85). -/
def cut32 (m : Nat) (taps : List Int) : List Int :=
  let lo := if m < 8 then 0 else if 47 < m + 23 then 16 else m - 8
  taps.zipIdx.map fun p => if lo ≤ p.2 ∧ p.2 < lo + 32 then p.1 else 0

/-- What of a bank of taps goes into force: the ladder's FFE cut keeps the taps of R85 alone. -/
def State.cutTaps (s : State) (n : Nat) (taps : List Int) : List Int :=
  if s.ladderStep (courseOf n) 2 then cut32 (s.rxOf n).mainPos taps else taps

/-- The 10-bit bank of 24-bit taps: rounded, within the tap range (R84). -/
def bankOf (taps : List Int) : List Int := taps.map fun t => max (-512) (min 511 ((t + 2 ^ 13) / 2 ^ 14))

/-- Put a bank of taps in force. -/
def State.setTaps (s : State) (n : Nat) (taps : List Int) : State :=
  let t := s.cutTaps n taps
  s.setRx n { s.rxOf n with taps := t, bank := bankOf t }

/-- α1 and α2 take values, α1 within its limit (R86). -/
def State.setTarget (s : State) (n a1 a2 : Nat) : State :=
  (s.wr Reg.LN.MLSE_CTRL.ALPHA1 (min a1 (s.rd Reg.LN.MLSE_CTRL.ALPHA1_MAX n)) n).wr Reg.LN.MLSE_CTRL.ALPHA2 a2 n

/-- The near loop ends: the held coefficients come back (R155). -/
def State.endNear (s : State) (n : Nat) : State :=
  let x := s.rxOf n
  match x.nearSet with
  | none => s
  | some (ctle, a1, a2, taps) =>
    ((((s.setRx n { x with nearSet := none }).setTaps n taps).wr Reg.LN.CTLE.SETTING ctle n).setTarget n a1 a2)

/-- `LOOP` takes a value: a change of the loop takes the line output through electrical idle, which a block boundary
ends (R155). Value 0b11 acts as 0. -/
def State.setLoop (s : State) (n v : Nat) : State :=
  let s1 := s.wr Reg.LN.PRBS_CTRL.LOOP v n
  if v % 3 = s.rd Reg.LN.PRBS_CTRL.LOOP n % 3 then s1
  else
    let x := s1.txOf n
    (s1.setTx n { x with path := { x.path with far := [], farBits := [] } }).wr Reg.LN.TX_STAT.TX_ACTIVE 0 n

/-- Leaving MAINT clears the generator, the checker and the loop (R152). -/
def State.leaveMaint (s : State) (n : Nat) : State :=
  (((((s.wr Reg.LN.PRBS_CTRL.GEN_EN 0 n).wr Reg.LN.PRBS_CTRL.CHK_EN 0 n).setLoop n 0).wr
    Reg.LN.PRBS_CTRL.CHK_LOCK 0 n).setChk n {}).endNear n

/-- A foreground calibration that can no longer run ends without result. -/
def State.abandonForeground (s : State) (n : Nat) (st : Status) : State :=
  let x := s.calOf n
  match x.foreground with
  | none => s
  | some o =>
    let t := s.txOf n
    (((s.setCal n { x with foreground := none }).setTx n { t with cal := false }).finishSt o st).txCheck n

/-- Receive decisions end: no lock stands (R41, R67, R82), and the buffers are empty (R195, R204). -/
def State.dropLocks (s : State) (n : Nat) : State :=
  let s1 := ((s.wr Reg.LN.RX_STAT.CDR_LOCK 0 n).wr Reg.LN.RX_STAT.FRAME_LOCK 0 n).wr Reg.LN.FMT_STAT.ALIGNED 0 n
  (s1.wr Reg.LN.FMT_STAT.OCM_LOCK 0 n).setRx n { s1.rxOf n with
    amRun := [], amMiss := 0, pairPhase := 0, searchFrames := 0, bobbin := [], late := 0, mlse := [] }

/-- The burst in progress and the slots of a lane end (R189). -/
def State.endBursts (s : State) (n : Nat) : State :=
  (s.setBst n { s.bstOf n with
    slot := none, next := none, onset := false, txHdr := none, txSlot := none, hostLock := false, sync := 0, raised := false, missedEpochs := 0 }).wr Reg.LN.BST_STAT.RX_PHASE 0 n

/-- The lane takes a state (R65), with all that follows from the change. -/
def State.setLane (s : State) (n st : Nat) : State :=
  let old := s.lane n
  let s1 := if old = st then s else s.stopCapture n
  let s2 := if old = 3 ∧ st ≠ 3 then s1.leaveActive n else s1
  let s3 := if old = 5 ∧ st ≠ 5 then (s2.abandonForeground n .aborted).leaveMaint n else s2
  let s4 := if old = 4 ∧ st ≠ 4 then (s3.endBursts n).wr Reg.LN.RX_STAT.FEC_DEG 0 n else s3
  let s5 := (s4.wr Reg.LN.RX_STAT.LANE_STATE st n).setRx n { s4.rxOf n with partialNow := true }
  let s6 := if st = 2 then s5 else s5.wr Reg.LN.RX_STAT.ACQ_STEP 0 n
  let s7 := if st = 0 ∨ st = 1 then s6.dropLocks n else s6
  let s8 := if st = 0 ∨ st = 4 then s7.wr Reg.LN.RX_STAT.LOS 0 n else s7
  ((s8.refreshBond n).txCheck n).calSettle n

/-! ## Seeds and defaults (R68, R94, R96) -/

/-- The main tap the next acquisition puts in force (R84). -/
def State.mainPos (s : State) (n : Nat) : Nat := min 20 (max 4 (s.rd Reg.LN.FFE_CTRL.MAIN_POS n))

/-- A CTLE setting brought into `MIN` to `MAX`; with MIN above MAX, MAX alone (R77). -/
def State.clampCtle (s : State) (n v : Nat) : Nat :=
  let lo := s.rd Reg.LN.CTLE.MIN n
  let hi := s.rd Reg.LN.CTLE.MAX n
  if hi < lo then hi else min hi (max lo v)

/-- The store format the running image writes, and whether it knows a format (R446, R458). -/
def State.storeFormat (s : State) : Nat := bitsOf s.upd.running.formats 8 8

def State.knowsFormat (s : State) (v : Nat) : Bool :=
  decide (bitsOf s.upd.running.formats 24 8 ≤ v) && decide (v ≤ s.storeFormat)

/-- A seed valid for the lane's configuration (R94). -/
def State.validSeed (s : State) (n : Nat) : Option Seed :=
  match Tab.get none s.seeds n with
  | some x =>
    if x.crcOk ∧ s.knowsFormat x.version ∧ x.mode = s.mode n ∧ x.const = s.rd Reg.LN.FMT_CFG.CONST n ∧
        x.precode = s.rd Reg.LN.FMT_CFG.PRECODE n ∧ x.mainPos = s.mainPos n then some x else none
  | none => none

/-- The defaults of a mode (R96): CTLE, VGA, α1, α2, soft scale. -/
def modeDefaults : Nat → Nat × Nat × Nat × Nat × Nat
  | 1 => (4, 48, 0, 0, 0)
  | 2 => (6, 48, 8, 0, 40)
  | 3 => (10, 64, 8, 2, 40)
  | 4 => (8, 56, 8, 0, 40)
  | 5 => (6, 56, 6, 0, 48)
  | _ => (6, 48, 4, 0, 40)

/-- One unit tap at `p`, the others zero, at 24-bit precision. -/
def unitTaps (p : Nat) : List Int := (List.range 48).map fun i => if i = p then 128 * 2 ^ 14 else 0

/-- The nominal centroids of PAM4, PAM6 and NRZ in 2^-20 amplitude units (R51, R52, R134). -/
def nominalLevels (const : Nat) : List Int :=
  (match const with
  | 0 => [-3, -1, 1, 3]
  | 1 => [-5, -3, -1, 1, 3, 5]
  | _ => [-1, 1]).map fun a => a * 2 ^ 20

/-- The soft scale, written by the device only while `SOFT_AUTO` is 1 and `SOFT_FREEZE` 0 (R91). -/
def State.setSoft (s : State) (n v : Nat) : State :=
  if s.flag Reg.LN.MLSE_CTRL.SOFT_AUTO n ∧ !s.flag Reg.LN.RX_CTRL.SOFT_FREEZE n ∧ v ≠ 0 then
    s.wr Reg.LN.MLSE_CTRL.SOFT_SCALE v n
  else s

/-- Load the factory defaults of the lane's mode (R96). -/
def State.loadDefaults (s : State) (n : Nat) : State :=
  let (ctle, vga, a1, a2, soft) := modeDefaults (s.mode n)
  let s1 := ((s.wr Reg.LN.CTLE.SETTING (s.clampCtle n ctle) n).wr Reg.LN.AGC.GAIN vga n).setTarget n a1 a2
  let s2 := s1.setSoft n soft
  (s2.setRx n { s2.rxOf n with levels := nominalLevels (s2.rd Reg.LN.FMT_CFG.CONST n) }).setTaps n
    (unitTaps (s2.rxOf n).mainPos)

/-- Load a seed (R68, R94, R96). -/
def State.loadSeed (s : State) (n : Nat) (x : Seed) : State :=
  let s1 := ((s.wr Reg.LN.CTLE.SETTING (s.clampCtle n x.ctle) n).wr Reg.LN.AGC.GAIN x.vga n).setTarget n x.a1 x.a2
  let s2 := (s1.setSoft n x.soft).wr Reg.LN.CDR.FREQ x.freq n
  (s2.setRx n { s2.rxOf n with levels := x.levels }).setTaps n x.taps

/-! ## Entering ACQUIRE (R68, R69, R73) -/

/-- Whether the CTLE sweep of step 4 is still to be made (R69). -/
def State.setSweep (s : State) (n : Nat) (b : Bool) : State := s.setRx n { s.rxOf n with sweep := b }

/-- Enter ACQUIRE at a step with the coefficients as they stand, without a sweep to come (R75); with LOS the lane waits at
step 2. The count of R73 starts, or stands while LOS holds. -/
def State.enterAcquire (s : State) (n step : Nat) : State :=
  let s1 := s.setLane n 2
  let los := s1.los n
  let s2 := (s1.wr Reg.LN.RX_STAT.ACQ_STEP (if los then min step 2 else step) n).wr Reg.LN.CONST_ADV.REC 3 n
  s2.setRx n { s2.rxOf n with
    acqRef := s2.time, acqSpent := 0, acqStopped := los, lossAt := none, partialNow := true, mseRun := 0, agcOk := false
    sweep := false }

/-- Start acquisition from step 1 (R68): the seed or the defaults are loaded and step 2 begins. Step 1 takes no time
(R69). -/
def State.startAcquire (s : State) (n : Nat) : State :=
  let s0 := s.dropLocks n
  let s1 := s0.setRx n { s0.rxOf n with mainPos := s0.mainPos n }
  match (if s1.flag Reg.LN.RX_CTRL.SEED_USE n then s1.validSeed n else none) with
  | some x => ((s1.loadSeed n x).wr Reg.LN.RX_STAT.SEED_LOADED 1 n).enterAcquire n 2
  | none => (((s1.loadDefaults n).wr Reg.LN.RX_STAT.SEED_LOADED 0 n).enterAcquire n 2).setSweep n true

/-- Frame lock is lost: outer-code lock goes with it (R60), an ACTIVE lane returns to step 8 (R74), and step 9 needs the
lock of step 8 (R43, R69); a lane at an earlier step only shows it. -/
def State.frameLockLost (s : State) (n : Nat) : State :=
  let s0 := (s.wr Reg.LN.RX_STAT.FRAME_LOCK 0 n).wr Reg.LN.FMT_STAT.OCM_LOCK 0 n
  let s1 := if s.lane n = 2 ∧ s.rd Reg.LN.RX_STAT.ACQ_STEP n = 9 then s0.wr Reg.LN.RX_STAT.ACQ_STEP 8 n else s0
  if s.lane n = 3 then
    let s2 := s1.enterAcquire n 8
    s2.setRx n { s2.rxOf n with lossAt := some s2.time }
  else s1

/-- Enter ACTIVE from ACQUIRE (R69 step 9): ACQ_DONE. -/
def State.enterActive (s : State) (n : Nat) : State :=
  let s1 := s.setLane n 3
  (s1.setRx n { s1.rxOf n with inActive := 0, lossAt := none, partialNow := true }).raise (laneSrc n 1) 0

/-- The lane's configuration is lost (R416, R434). -/
def State.clearConfig (s : State) (n : Nat) : State :=
  let s1 := ((s.wr Reg.LN.FMT_CFG.MODE 0 n).wr Reg.LN.FMT_CFG.CONST 0 n).wr Reg.LN.FMT_CFG.PRECODE 0 n
  let s2 := (s1.wr Reg.LN.FMT_CFG.INNER_BYPASS 0 n).wr Reg.LN.FMT_CFG.OCM_EN 0 n
  s2.setTx n { s2.txOf n with configured := false }

end Sys2Proof.Machine
end

