-- ==== Sys2Proof/Machine/LineTx.lean ====
section
/-! DEFINITION. The transmit path of a line lane (R39, R40, R48, R53 to R56, R134 to R139, R147, R153, R155, R160 to
R162, R183, R195, R201): the bits of the host streams, the units of the line bit stream, and the symbols of a transmit
block with the DAC codes made of them. The sequences whose start the spec leaves open start at free values. -/

namespace Sys2Proof.Machine

/-! ## What the host streams bring (R49, R55, R56, R195, R200) -/

/-- Bits a block of the mode takes from each of the two host streams (R48, R162, R186, R194). -/
def streamTake (mode const enc : Nat) : Nat × Nat :=
  if isyon mode then (480, 480)
  else if mode = 1 then (256, 0)
  else if m200 mode then (Config.djTake enc % 129, 0)
  else (if const = 2 then 960 else 240, 0)

/-- The blocks that fill replaced are discarded as they arrive (R200); also how many are still to come. -/
def dropLate (w v : Nat) : Nat → List Bool → List Bool → Nat × List Bool × List Bool
  | 0, a, b => (0, a, b)
  | k + 1, a, b =>
    if w ≤ a.length ∧ v ≤ b.length then dropLate w v k (a.drop w) (b.drop v) else (k + 1, a, b)

/-- Bits a host stream has brought: those to be skipped go first; without signal lock nothing is taken (R55). -/
def arrive (locked : Bool) (skip : Nat) (q new : List Bool) : Nat × List Bool :=
  if locked then (skip - new.length, q ++ new.drop skip) else (skip, [])

/-- A host receive lane of a bond delivers its stream: signal lock, and in MB lock of the burst framing (R55, R185). -/
def State.streamIn (s : State) (n b : Nat) : Bool :=
  if s.mode n = 6 then (s.bstOf n).hostLock && ((s.bstOf n).txHdr.isSome || (s.txOf n).path.burst.isSome)
  else s.flag Reg.HL.STAT.SIG_LOCK (2 * n + b)

/-- The bits of both host streams since the last block. -/
def State.pathArrive (s : State) (n : Nat) (a b : List Bool) : State :=
  let x := s.txOf n
  let p := x.path
  let qa := arrive (s.streamIn n 0) p.skipA p.hostA a
  let qb := arrive (s.streamIn n 1) p.skipB p.hostB b
  let w := streamTake (s.mode n) (s.rd Reg.LN.FMT_CFG.CONST n) p.enc
  let l := dropLate w.1 w.2 p.late qa.2 qb.2
  s.setTx n { x with path := { p with skipA := qa.1, skipB := qb.1, late := l.1, hostA := l.2.1, hostB := l.2.2 } }

/-- `k` bits of a stream: PRBS31 without signal lock (R55), the host's bits, or fill where they are too few
(notes/assumptions/146); with what is left and the two registers. -/
def streamBits (locked : Bool) (k : Nat) (q : List Bool) (src fill : Nat) : List Bool × List Bool × Nat × Nat :=
  if !locked then ((prbsRun 31 k src).1, q, (prbsRun 31 k src).2, fill)
  else if q.length < k then ((prbsRun 31 k fill).1, q, src, (prbsRun 31 k fill).2)
  else (q.take k, q.drop k, src, fill)

/-- The payload of the next block: of each stream, or fill in place of a dropped block, whose own bits are discarded when
they come (R200, R201). -/
def State.blockBitsOf (s : State) (n : Nat) : List Bool × List Bool × TxPath :=
  let p := (s.txOf n).path
  let mb := s.mode n == 6
  let w := streamTake (s.mode n) (s.rd Reg.LN.FMT_CFG.CONST n) p.enc
  if p.fillDue ≠ 0 then
    let f := prbsRun 31 w.1 p.fill
    let g := prbsRun 31 w.2 f.2
    let l := dropLate w.1 w.2 (p.late + 1) p.hostA p.hostB
    (f.1, g.1, { p with fill := g.2, fillDue := p.fillDue - 1, late := l.1, hostA := l.2.1, hostB := l.2.2 })
  else
    let f := streamBits (mb || s.flag Reg.HL.STAT.SIG_LOCK (2 * n)) w.1 p.hostA p.srcA p.fill
    let g := streamBits (s.flag Reg.HL.STAT.SIG_LOCK (2 * n + 1)) w.2 p.hostB p.srcB f.2.2.2
    (f.1, g.1, { p with hostA := f.2.1, srcA := f.2.2.1, hostB := g.2.1, srcB := g.2.2.1, fill := g.2.2.2 })

/-- The registers of the three PRBS31 sequences of the path start at free states other than zeros (R524). -/
def State.seedPath (s : State) (n : Nat) : State :=
  let x := s.txOf n
  if x.path.fill ≠ 0 then s
  else
    let one := fun (t : State) => 1 + t.free % (2 ^ 31 - 1)
    (s.setTx n { x with path := { x.path with
      srcA := one s, srcB := one s.freed, fill := one s.freed.freed } }).freed.freed.freed

/-! ## Units of the line bit stream (R39, R40, R134, R160, R162) -/

/-- FAR_STAT of the APBs the lane sends (R40): RDI, DEGRADE, SRC_FAULT. -/
def State.ownFarStat (s : State) (n : Nat) : Nat :=
  bitVal (!s.flag Reg.LN.FMT_STAT.ALIGNED n) + 2 * s.rd Reg.LN.RX_STAT.FEC_DEG n +
    4 * bitVal (!s.flag Reg.HL.STAT.SIG_LOCK (2 * n) || !s.flag Reg.HL.STAT.SIG_LOCK (2 * n + 1))

/-- The line bits and levels of a lane's constellation, appended to what waits. -/
def TxPath.push (p : TxPath) (const : Nat) (bits : List Bool) : TxPath :=
  let q := mapBits const (p.bits ++ bits)
  { p with bits := q.2, syms := p.syms ++ q.1 }

/-- The next unit of an Isyon frame: its APB, or one of its 272 bobbins (R39). -/
def State.formIsyon (s : State) (n : Nat) : State :=
  let x := s.txOf n
  let const := s.rd Reg.LN.FMT_CFG.CONST n
  if x.path.unit = 0 then
    s.setTx n { x with path := { x.path with unit := 1 }.push const (apbBits x.frame (n % 64 + 64 * const) (s.ownFarStat n)) }
  else
    let (a, b, p) := s.blockBitsOf n
    let last := decide (272 ≤ x.path.unit)
    s.setTx n { x with
      frame := if last then (x.frame + 1) % 65535 else x.frame
      path := { p with unit := if last then 0 else x.path.unit + 1 }.push const (bobbinBits (bitsNat a) (bitsNat b)) }

/-- The parts of a burst, numbered in the order of R160: picots, SD, codewords with the BMBs (R162), ED. -/
def State.formBurst (s : State) (n len pre : Nat) : State :=
  let x := s.txOf n
  let p := x.path
  let const := s.rd Reg.LN.FMT_CFG.CONST n
  let total := len + (len - 1) / 1088
  let outer := fun (l : List Bool) => { p with unit := p.unit + 1, syms := p.syms ++ l.map (outerLevel const) }
  if p.unit < pre then s.setTx n { x with path := outer picotBits }
  else if p.unit = pre then s.setTx n { x with path := outer sdBits }
  else
    let j := p.unit - pre - 1
    if total ≤ j then s.setTx n { x with path := { outer edBits with
      burst := none, hostA := if (s.bstOf n).txHdr.isSome then p.hostA else [], fillDue := 0, late := 0 } }
    else if j % 1089 = 1088 then
      s.setTx n { x with path := { p with unit := p.unit + 1 }.push const (bmbBits (j / 1089 + 1)) }
    else
      let (a, _, q) := s.blockBitsOf n
      s.setTx n { x with path :=
        { q with unit := p.unit + 1 }.push const (natBits 256 (laceEncode (bitsNat (a.take 240)))) }

/-- The next unit of the lane's bit stream (R134). -/
def State.formUnit (s : State) (n : Nat) : State :=
  let x := s.txOf n
  let m := s.mode n
  if isyon m then s.formIsyon n
  else if m = 6 then
    match x.path.burst with
    | some (len, pre) => s.formBurst n len pre
    | none => s
  else
    let (a, _, p) := s.blockBitsOf n
    s.setTx n { x with path :=
      if m = 1 then p.push 0 a
      else { p with enc := Config.djNext p.enc a }.push 0 (natBits 128 (Config.djLine p.enc a).toNat) }

/-- Units are formed until a block of 64 symbols stands ready; none is shorter than 32 symbols. -/
def State.formBlock (s : State) (n : Nat) : State :=
  (List.range 2).foldl (fun t _ => if (t.txOf n).path.syms.length < 64 then t.formUnit n else t) s

/-! ## The pattern generator (R153) -/

/-- The degree of a generator pattern of a line lane: 7 acts as 5. -/
def patDegree : Nat → Nat
  | 0 => 7
  | 1 => 9
  | 2 => 13
  | 3 => 15
  | 4 => 23
  | _ => 31

/-- Bit `i` since the enable is inverted by `INJ_K`: one bit every 2^k, k from 8 to 40. -/
def injHits (k i : Nat) : Bool := k != 0 && (i + 1) % 2 ^ min 40 (max 8 k) == 0

/-- Bits with the injected errors, the first of them bit `i` since the enable; `one` inverts the first. -/
def injectErrors (k i : Nat) (one : Bool) (l : List Bool) : List Bool :=
  l.zipIdx.map fun p => (injHits k (i + p.2) != (one && p.2 == 0)) != p.1

/-- The levels the generator gives for a block, and the path after it. SQ8 counts symbols from the enable; PAM6 has no
group of bits for two outer levels in a row, so nothing is injected there (notes/assumptions/147). -/
def State.genBlock (s : State) (n : Nat) (p : TxPath) : List Nat × TxPath :=
  let const := s.rd Reg.LN.FMT_CFG.CONST n
  let pat := s.rd Reg.LN.PRBS_CTRL.GEN_PAT n
  let k := s.rd Reg.LN.PRBS_CTRL.INJ_K n
  let w := if const = 1 then 160 else if const = 2 then 64 else 128
  let q := { p with genPos := p.genPos + w, inject := false }
  if pat = 6 then
    let sym := fun i => if i % 8 < 4 then levelCount const - 1 else 0
    if const = 1 then ((List.range 64).map sym, q)
    else
      let bits := fun i => if const = 2 then [sym i == 1] else grayBits (sym i)
      ((mapBits const (injectErrors k p.genPos p.inject ((List.range 64).flatMap bits))).1, q)
  else
    let r := prbsRun (patDegree pat) w p.gen
    ((mapBits const (injectErrors k p.genPos p.inject r.1)).1, { q with gen := r.2 })

/-! ## A block of 64 symbols (R53, R135 to R139, R144 to R146, R155, R183) -/

/-- The path runs: no cause of R146 but SQUELCH and PAD_HELD holds, and no thermal shutdown has left the outputs
high-impedance (R148). -/
def State.pathRuns (s : State) (n : Nat) : Bool :=
  !s.pwr.hiZ && s.courseOn (courseOf n) && bitsOf (s.idleCause n) 0 1 == 0 && bitsOf (s.idleCause n) 3 2 == 0

/-- The levels of the block and the path after it: the far loop's decisions, the generator, or the normal stream, which
advances in any case; a far loop that has brought fewer than 64 sends those. -/
def State.pathBlock (s : State) (n : Nat) : List Nat × TxPath :=
  let p := (s.txOf n).path
  let q := { p with syms := p.syms.drop 64 }
  if s.rd Reg.LN.PRBS_CTRL.LOOP n = 2 then (p.far.take 64, { q with far := p.far.drop 64 })
  else if s.flag Reg.LN.PRBS_CTRL.GEN_EN n then s.genBlock n q
  else (p.syms.take 64, q)

/-- The rate the block is sent at (R34, R147, R155): 2 the lane's clock recovery, 1 that of H(2n), 0 nominal. -/
def State.txRate (s : State) (n : Nat) : Nat :=
  if s.rd Reg.LN.PRBS_CTRL.LOOP n = 2 then 2 else bitVal (s.flag Reg.HL.STAT.SIG_LOCK (2 * n))

/-- The amplitudes of a block: levels mapped with the trim in force; MB fills it up with quiet (R135, R145, R183). -/
def State.blockAmps (s : State) (n : Nat) (lv : List Nat) : List (Int × Int) :=
  let const := s.rd Reg.LN.FMT_CFG.CONST n
  lv.map (normAmp const (signedOf (s.txOf n).outer 6)) ++
    (if s.mode n = 6 then List.replicate (64 - lv.length) (0, 1) else [])

/-- The DAC codes of a block. The FIR looks two symbols ahead, so the first two codes belong to the block before and are
computed with its bank: every symbol is computed from one bank (R137, R138). -/
def blockCodes (old new : List Int) (past amps : List (Int × Int)) : List Nat :=
  dacCodes old (amps.take 2) past ++ dacCodes new (amps.drop 2) (((amps.take 2).reverse ++ past).take 7)

/-- A transmit block of the lane: units are formed, 64 symbols precoded, mapped and filtered, and their codes sent where
the output is active or a near loop takes them. -/
def State.sendBlock (s : State) (n : Nat) : State :=
  if !s.pathRuns n then s
  else
    let s1 := (s.seedPath n).formBlock n
    let q := s1.pathBlock n
    let const := s1.rd Reg.LN.FMT_CFG.CONST n
    let pre := if s1.flag Reg.LN.FMT_CFG.PRECODE n then precode q.1 q.2.pre else (q.1, q.2.pre)
    let amps := s1.blockAmps n pre.1
    let bank := (s1.txOf n).bank
    let s2 := s1.setTx n { s1.txOf n with path := { q.2 with
      pre := pre.2, past := (amps.reverse ++ q.2.past).take 7, bank := bank
      pos := (q.2.pos + (if const = 1 then 160 else 128)) % 278784 } }
    let near := s2.rd Reg.LN.PRBS_CTRL.LOOP n == 1
    if s2.flag Reg.LN.TX_STAT.TX_ACTIVE n || near then
      s2.emit (.dac n near (s2.txRate n) (blockCodes q.2.bank bank q.2.past amps))
    else s2

/-- The block that is sent next holds the beginning of a frame (R39). -/
def State.frameBegins (s : State) (n : Nat) : Bool :=
  let p := (s.txOf n).path.pos
  p == 0 || decide (278784 < p + (if s.rd Reg.LN.FMT_CFG.CONST n = 1 then 160 else 128))

/-! ## Starts and ends (R39, R53, R147, R155, R195) -/

/-- The path starts at frame 0 with empty buffers (R39, R195); the precoder starts at 0 where `reset` (R53, R147). -/
def TxPath.restart (p : TxPath) (reset : Bool) : TxPath :=
  { p with
    unit := 0, pos := 0, bits := [], syms := [], pre := if reset then 0 else p.pre, hostA := [], hostB := []
    skipA := 0, skipB := 0, fillDue := 0, late := 0, far := [], farBits := [], burst := none }

/-- The path of an Isyon lane takes up a position: symbol `pos` of frame `fc` (R263, R276). The unit it lies in is formed
and what of it is past is left out; in PAM6 the group that a unit boundary cuts begins with bits of the unit before,
which the position alone does not give: free values. -/
def State.pathTo (s : State) (n fc pos : Nat) : State :=
  if !isyon (s.mode n) then s.setTx n { s.txOf n with frame := fc % 65535 }
  else
    let six := s.rd Reg.LN.FMT_CFG.CONST n == 1
    let all := if six then pos * 5 / 2 else 2 * pos
    let fc := fc + all / 278784
    let b := all % 278784
    let u := if b < 256 then 0 else 1 + (b - 256) / 1024
    let start := if u = 0 then 0 else 256 + 1024 * (u - 1)
    let cut := if six then (fc % 5 * 278784 + start) % 5 else 0
    let x := s.txOf n
    let s1 := (s.setTx n { x with
      frame := fc % 65535, path := { x.path with unit := u, pos := b, syms := [], bits := natBits cut s.free } }).freed
    let s2 := (s1.seedPath n).formUnit n
    let y := s2.txOf n
    let past := if six then 2 * ((cut + (b - start)) / 5) else (b - start) / 2
    s2.setTx n { y with path := { y.path with syms := y.path.syms.drop past } }

/-- Hard decisions of the receive path for a far loop, as bits of the line (R155). -/
def State.farPush (s : State) (n : Nat) (bits : List Bool) : State :=
  if s.rd Reg.LN.PRBS_CTRL.LOOP n ≠ 2 then s
  else
    let x := s.txOf n
    let q := mapBits (s.rd Reg.LN.FMT_CFG.CONST n) (x.path.farBits ++ bits)
    s.setTx n { x with path := { x.path with far := x.path.far ++ q.1, farBits := q.2 } }

/-- The generator starts: a free state other than zeros, bits counted from the enable (R153, R524). -/
def State.genStart (s : State) (n pat : Nat) : State :=
  let x := s.txOf n
  (s.setTx n { x with path := { x.path with
    gen := 1 + s.free % (2 ^ patDegree pat - 1), genPos := 0, inject := false } }).freed

end Sys2Proof.Machine
end

