-- ==== Sys2Proof/Machine/Format.lean ====
section
/-! DEFINITION. The line formats (02_line_formats): the receive aligner and the APB (R40 to R43), the decoding of
codewords and the bobbins (R45 to R48), deskew (R49) and outer-code monitoring (R60, R61). -/

namespace Sys2Proof.Machine

/-! ## The APB (R40, R41, R42) -/

/-- The field of an APB from transmission position `a`, `w` bits long: position 0 is the highest of the 256 bits. -/
def apbField (bits a w : Nat) : Nat := bitsOf bits (256 - a - w) w

/-- At most 6 of the 64 bits of AM0 differ from the pattern (R41). -/
def am0Match (bits : Nat) : Bool :=
  let x := apbField bits 0 64 ^^^ 0x5A3C96E10FD24B87
  decide (((List.range 64).filter fun i => bitOf x i).length ≤ 6)

def apbCrcOk (bits : Nat) : Bool := crc16 32 (apbField bits 64 32) == apbField bits 224 16

/-- The fields of an APB received correctly (R40, R42). -/
def State.apbFields (s : State) (n bits : Nat) : State :=
  let fc := apbField bits 64 16
  let tag := apbField bits 80 8
  let far := apbField bits 88 8
  let s1 := ((s.wr Reg.LN.FMT_STAT.FAR_LANE (tag % 64) n).wr Reg.LN.FMT_STAT.FAR_CONST (tag / 64) n).wr
    Reg.LN.FMT_STAT.FAR_RDI (far % 2) n
  let s2 := (s1.wr Reg.LN.FMT_STAT.FAR_DEGRADE (far / 2 % 2) n).wr Reg.LN.FMT_STAT.FAR_SRC_FAULT (far / 4 % 2) n
  (s2.wr Reg.LN.FMT_STAT.SF_PHASE (if s.mode n = 5 then fc % 5 else 0) n).setRx n { s2.rxOf n with fcount := fc }

/-- `ALIGNED` sets (R41, R67). -/
def State.declareAligned (s : State) (n : Nat) : State :=
  let s1 := (s.wr Reg.LN.FMT_STAT.ALIGNED 1 n).wr Reg.LN.RX_STAT.FRAME_LOCK 1 n
  s1.setRx n { s1.rxOf n with amMiss := 0, bobbin := [] }

/-- Four expected positions without a match: `ALIGNED` clears, and the search starts afresh (R41). -/
def State.alignmentLost (s : State) (n : Nat) : State :=
  let s1 := (s.wr Reg.LN.FMT_STAT.ALIGNED 0 n).count Reg.LN.APB_CNT.ALIGN_LOSS 1 n
  (s1.setRx n { s1.rxOf n with
    amMiss := 0, amRun := [], bobbin := [], pairPhase := 0, searchFrames := 0 }).frameLockLost n

/-- The line bits of decided symbols (R51 to R53, R89): PAM6 pairs from the pair phase on, PAM4 with precoding undone
where it is on, the first symbol being y(k − 1) there. -/
def State.lineBits (s : State) (n : Nat) (syms : List RxSym) : List Bool :=
  let lv := syms.map fun (y : RxSym) => y.lev
  if s.rd Reg.LN.FMT_CFG.CONST n = 1 then pam6Demap (syms.drop (s.rxOf n).pairPhase)
  else if s.flag Reg.LN.FMT_CFG.PRECODE n then
    match lv with
    | y :: l => (unprecode l y).flatMap grayBits
    | [] => []
  else lv.flatMap grayBits

/-- 256 line bits at a candidate position of an Isyon lane that searches or holds its alignment (R41, R42). -/
def State.apbSeen (s : State) (n bits : Nat) (expected : Bool) : State :=
  let x := s.rxOf n
  if s.flag Reg.LN.FMT_STAT.ALIGNED n then
    if !expected then s
    else if am0Match bits then
      let s1 := s.setRx n { x with amMiss := 0 }
      if apbCrcOk bits then s1.apbFields n bits else s1.count Reg.LN.APB_CNT.CRC_ERR 1 n
    else if 4 ≤ x.amMiss + 1 then s.alignmentLost n
    else s.setRx n { x with amMiss := x.amMiss + 1 }
  else if am0Match bits then
    let ok := apbCrcOk bits
    let run := ok :: (if expected then x.amRun.take 2 else [])
    let s1 := s.setRx n { x with amRun := run, searchFrames := 0 }
    let s2 := if ok then s1.apbFields n bits else s1
    if 3 ≤ run.length ∧ run.any (fun b => b) then s2.declareAligned n else s2
  else
    let f := x.searchFrames + 1
    let flip := s.mode n == 5 && decide (4 ≤ f)
    s.setRx n { x with
      amRun := [], searchFrames := (if flip then 0 else f)
      pairPhase := if flip then 1 - x.pairPhase else x.pairPhase }

/-- APB_RECEIVED (R41, R42): the symbols decided around a candidate position `at_`. While the search of a frame finds
nothing, it is not expected and the bits do not match. A far loop sends the bits on (R155). -/
def execApbReceived (n : LaneNo) (syms : List RxSym) (at_ : ApbAt) (s : State) : Host.Outcome State Fault Refusal :=
  .next (
    let line := ((s.lineBits n syms).drop at_.ofs).take 256
    let expected := at_.expected
    if !isyon (s.mode n) || s.lane n != 2 && s.lane n != 3 && s.lane n != 5 then s
    else (if s.flag Reg.LN.FMT_STAT.ALIGNED n && expected then s.farPush n line else s).apbSeen n (bitsNat line) expected)

/-- FRAME_LOCK_LOSS (R67, R74): the inner-FEC lock of IEEE 802.3dj is lost in the M200 modes. An Isyon lane loses
frame lock with `ALIGNED`, an M100 lane with its CDR lock. -/
def execFrameLockLoss (n : LaneNo) (s : State) : Host.Outcome State Fault Refusal :=
  .next (if m200 (s.mode n) && s.flag Reg.LN.RX_STAT.FRAME_LOCK n then s.frameLockLost n else s)

/-! ## Codewords (R45 to R48, R101) -/

/-- The 10-bit symbol in slot k of a codeword's 240 information bits (R48). -/
def slotSymbol (info k : Nat) : Nat := bitsOf info (230 - 10 * k) 10

/-- Stream b of a bobbin of four codewords' information bits: symbol i lies in codeword (i + b) mod 4 (R48). -/
def bobbinStream (ws : List Nat) (b : Nat) : Nat :=
  (List.range 48).foldl (fun v i =>
    let w := (i + b) % 4
    let k := if w = 0 then (if b = 0 then 2 * (i / 4) else 2 * (i / 4) + 1)
      else (if b = 0 then 2 * (i / 4) + 1 else 2 * (i / 4))
    v * 1024 + slotSymbol (ws.getD w 0) k) 0

/-- Bits on the host lane for one codeword of a header bond (R186, R194): in NRZ 720 fill bits follow the payload. -/
def State.hostCwBits (s : State) (n : Nat) : Nat := if s.rd Reg.LN.FMT_CFG.CONST n = 2 then 960 else 240

/-- `k` bits of the PRBS31 that fills the line-to-host direction of a lane (R186, R201): one sequence from a free
start. -/
def State.rxFill (s : State) (n k : Nat) : Nat × State :=
  let x := s.rxOf n
  let f := prbsRun 31 k (if x.fill = 0 then 1 + s.free % (2 ^ 31 - 1) else x.fill)
  (bitsNat f.1, (s.setRx n { x with fill := f.2 }).freed)

/-- `w` payload bits go to a host transmit lane of the bond, where they wait for the symbols (R219). -/
def State.toHost (s : State) (n stream w v : Nat) : State :=
  let k := 2 * n + stream
  let x := s.htxOf k
  (s.setHtx k { x with queue := x.queue ++ natBits w v }).emit (.payload n stream w v)

/-- `w` bits of the line-to-host stream: in MAINT the host lane sends PRBS31 in their place (R219, R336), unless a far loop
of the line lane keeps the receive data there (R155). -/
def State.hostSend (s : State) (n stream w v : Nat) : State :=
  if s.lane n = 5 ∧ s.rd Reg.LN.PRBS_CTRL.LOOP n ≠ 2 then s else s.toHost n stream w v

/-- Deliver 240 information bits: on a header bond to H(2n), on a stretcher bond when the bobbin is whole (R48). A block
that fill has replaced at the host transmit buffer is discarded whole (R200). -/
def State.deliverInfo (s : State) (n info : Nat) : State :=
  let x := s.rxOf n
  if isyon (s.mode n) then
    let ws := x.bobbin ++ [info]
    if ws.length < 4 then s.setRx n { x with bobbin := ws }
    else if x.late ≠ 0 then s.setRx n { x with bobbin := [], late := x.late - 1 }
    else
      ((s.setRx n { x with bobbin := [] }).hostSend n 0 480 (bobbinStream ws 0)).hostSend n 1 480 (bobbinStream ws 1)
  else if x.late ≠ 0 then s.setRx n { x with late := x.late - 1 }
  else
    let k := s.hostCwBits n - 240
    if k = 0 then s.toHost n 0 240 info
    else
      let f := s.rxFill n k
      f.2.toHost n 0 (240 + k) (info * 2 ^ k + f.1)

/-- Deliver a block of a header bond outside MB: the payload of an M200 codeword, or bits of M100 (R35, R36, R56). -/
def State.deliverBlock (s : State) (n w v : Nat) : State :=
  let x := s.rxOf n
  if x.late ≠ 0 then s.setRx n { x with late := x.late - 1 } else s.hostSend n 0 w v

/-- The counters of the inner decoder for one codeword (R101): corrected bits, or none for an uncorrectable one. -/
def State.countCodeword (s : State) (n : Nat) (corr : Option Nat) : State :=
  let s1 := (s.count Reg.LN.DEC_CW.COUNT 1 n).dpCount 5 n 1
  match corr with
  | some c => s1.count Reg.LN.DEC_CORR.COUNT c n
  | none => s1.count Reg.LN.DEC_UNCORR.COUNT 1 n

/-- The positions the Chase search marks now (R45): 6, or 4 under the ladder's limit; 0 in M100. -/
def State.chaseL (s : State) (n : Nat) : Nat :=
  if s.mode n = 1 then 0 else if s.ladderStep (courseOf n) 3 then 4 else 6

/-- The symbols the MLSE decides from FFE outputs (R86 to R89): pairs whose phase is known end in no corner pair. -/
def State.mlseDecide (s : State) (n : Nat) (r : List Int) : List Nat × State :=
  let x := s.rxOf n
  let known := s.mode n == 5 && s.flag Reg.LN.RX_STAT.FRAME_LOCK n
  let q := mlseRun (s.rd Reg.LN.FMT_CFG.CONST n) (s.ladderStep (courseOf n) 1) x.levels
    (s.rd Reg.LN.MLSE_CTRL.ALPHA1 n) (s.rd Reg.LN.MLSE_CTRL.ALPHA2 n)
    (r.zipIdx.map fun p => (p.1, known && (p.2 + x.pairPhase) % 2 == 1)) x.mlse
  (q.2, s.setRx n { x with mlse := q.1 })

/-- A codeword of a burst (R176, R187); outside MB, and for one that fill has replaced (R201), the record stands. -/
def State.burstCodeword (s : State) (n : Nat) (corr : Option Nat) : State :=
  let b := s.bstOf n
  if s.mode n ≠ 6 ∨ (s.rxOf n).late ≠ 0 then s else s.setBst n { b with
    cwLine := b.cwLine + 1, cwUncorr := b.cwUncorr + (if corr.isNone then 1 else 0), bits := b.bits + corr.getD 0 }

/-- Codewords are decoded: in a burst's payload while it has codewords left (R176), and elsewhere with frame lock. -/
def State.decodes (s : State) (n : Nat) : Bool :=
  let st := s.lane n
  let b := s.bstOf n
  if s.mode n = 6 then
    st == 4 && s.rd Reg.LN.BST_STAT.RX_PHASE n == 4 &&
      decide (b.cwLine + b.cwFill < match b.slot with | some t => t.len | none => 0)
  else s.mode n != 0 && (st == 2 || st == 3 || st == 5) && s.flag Reg.LN.RX_STAT.FRAME_LOCK n

/-- An M100 block (R35): 128 FFE outputs, in 2^-20 amplitude units, that the MLSE decides; the hard decisions go on. -/
def State.decideM100 (s : State) (n : Nat) (r : List Int) : State :=
  let q := s.mlseDecide n (r.take 128)
  let bits := q.1.flatMap grayBits
  (q.2.farPush n bits).deliverBlock n bits.length (bitsNat bits)

/-- An M200 codeword (R36, R46, R47): soft values `v` and the word of their hard decisions; IEEE 802.3dj's decoder
finds `std` bits to correct, or none for an uncorrectable codeword. -/
def State.decodeM200 (s : State) (n : Nat) (v : List Int) (hard : Nat) (std : Option Nat) : State :=
  let s1 := s.farPush n (natBits 128 hard)
  if s.flag Reg.LN.FMT_CFG.INNER_BYPASS n then s1.deliverBlock n 120 (Config.djInfo hard).toNat
  else
    (s1.countCodeword n std).deliverBlock n 120
      (if std.isSome then (Config.djDecode v).toNat else (Config.djInfo hard).toNat)

/-- CODEWORD_DECODE (R45 to R47, R35, R36, R90): the log-likelihood ratios of one codeword's bits in line order, in
1/4096 nat; in M100 the FFE outputs of a block. -/
def execCodewordDecode (n : LaneNo) (llr : List Int) (std : Option Nat) (s : State) :
    Host.Outcome State Fault Refusal :=
  .next (
    let m := s.mode n
    if !s.decodes n then s
    else if m = 1 then s.decideM100 n llr
    else
      let bypass := s.flag Reg.LN.FMT_CFG.INNER_BYPASS n
      let soft := llr.map fun (x : Int) => softValue (s.rd Reg.LN.MLSE_CTRL.SOFT_SCALE n) x
      if m200 m then s.freed.decodeM200 n (soft.take 128) (hardWord (llr.take 128) s.free / 2 ^ 128) std
      else
        let v := soft.take 256
        let hard := hardWord (llr.take 256) s.free
        let s0 := s.freed.farPush n (natBits 256 hard)
        let s1 := if bypass then s0 else s0.dpCount 6 n (2 ^ s.chaseL n)
        if bypass then s1.deliverInfo n (hard / 65536)
        else
          match chaseDecode v hard (s.chaseL n) with
          | some c =>
            let k := wordDistance c hard
            ((s1.countCodeword n (some k)).burstCodeword n (some k)).deliverInfo n (c / 65536)
          | none => ((s1.countCodeword n none).burstCodeword n none).deliverInfo n (hard / 65536))

/-! ## Host streams (R49) -/

/-- The framer deskews: stream B comes `skew` RS symbols after A (before it where negative), and the stream that lags
is moved up by as much; both start on an RS symbol boundary (R49, notes/assumptions/148). -/
def State.deskew (s : State) (n : Nat) (skew : Int) : State :=
  let x := s.txOf n
  let oa := (s.hostOf (2 * n)).rsOfs
  let ob := (s.hostOf (2 * n + 1)).rsOfs
  let p := x.path
  let s1 := s.setTx n { x with path := { p with
    skipA := p.skipA + oa + (if skew < 0 then 10 * skew.natAbs else 0)
    skipB := p.skipB + ob + (if 0 < skew then 10 * skew.natAbs else 0) } }
  (s1.setHost (2 * n) { s1.hostOf (2 * n) with rsOfs := 0 }).setHost (2 * n + 1)
    { s1.hostOf (2 * n + 1) with rsOfs := 0 }

/-- HOST_ALIGNMENT_MARKER_LOCK (R49): a host receive stream gains or loses alignment-marker lock. -/
def execHostAlignmentMarkerLock (k : HostLaneNo) (lock : Bool) (at_ : MarkerAt) (s : State) :
    Host.Outcome State Fault Refusal :=
  .next (
    let skew := at_.skew
    let n := k.val / 2
    let b := k.val % 2
    let was := s.flag Reg.LN.FMT_STAT.HOST_A_ALIGNED n && s.flag Reg.LN.FMT_STAT.HOST_B_ALIGNED n &&
      !s.flag Reg.LN.FMT_STAT.SKEW_OVR n
    if s.rd Reg.HL.STAT.STATE k ≠ 3 ∨ (b = 1 ∧ !isyon (s.mode n)) then s
    else
      let s0 := s.setHost k { s.hostOf k with rsOfs := if lock then at_.ofs else 0 }
      let s1 := if b = 0 then s0.wrB Reg.LN.FMT_STAT.HOST_A_ALIGNED lock n
        else s0.wrB Reg.LN.FMT_STAT.HOST_B_ALIGNED lock n
      if isyon (s1.mode n) && s1.flag Reg.LN.FMT_STAT.HOST_A_ALIGNED n && s1.flag Reg.LN.FMT_STAT.HOST_B_ALIGNED n then
        if skew.natAbs ≤ 512 then
          ((if was then s1 else s1.deskew n skew).wr Reg.LN.FMT_STAT.DESKEW skew.natAbs n).wr Reg.LN.FMT_STAT.SKEW_OVR 0 n
        else (s1.wr Reg.LN.FMT_STAT.DESKEW 0 n).wr Reg.LN.FMT_STAT.SKEW_OVR 1 n
      else (s1.wr Reg.LN.FMT_STAT.DESKEW 0 n).wr Reg.LN.FMT_STAT.SKEW_OVR 0 n)

/-! ## Outer-code monitoring (R60, R61) -/

/-- OCM_CODEWORD_LOCK (R60): the monitor gains or loses codeword lock; it needs decoded data, so frame lock. -/
def execOcmCodewordLock (n : LaneNo) (lock : Bool) (s : State) : Host.Outcome State Fault Refusal :=
  .next (
    if !s.flag Reg.LN.FMT_CFG.OCM_EN n || (s.lane n != 2 && s.lane n != 3 && s.lane n != 5) then s
    else s.wrB Reg.LN.FMT_STAT.OCM_LOCK (lock && s.flag Reg.LN.RX_STAT.FRAME_LOCK n) n)

/-- Add to the four outer-code counters: codewords, symbols, uncorrectable, and the four bins. -/
def State.ocmAdd (s : State) (n : Nat) (c : List Nat) : State :=
  let s1 := ((s.countWrap Reg.LN.OCM_CW.COUNT (c.getD 0 0) n).countWrap Reg.LN.OCM_SYM.COUNT (c.getD 1 0) n).countWrap
    Reg.LN.OCM_UNCORR.COUNT (c.getD 2 0) n
  let s2 := (s1.count Reg.LN.OCM_HIST.BIN_1_3 (c.getD 3 0) n).count Reg.LN.OCM_HIST.BIN_4_7 (c.getD 4 0) n
  (s2.count Reg.LN.OCM_HIST.BIN_8_11 (c.getD 5 0) n).count Reg.LN.OCM_HIST.BIN_12_15 (c.getD 6 0) n

/-- What one outer codeword with `e` symbol errors adds (R61). -/
def ocmOf (e : Nat) : List Nat :=
  if 15 < e then [1, 0, 1, 0, 0, 0, 0]
  else [1, e, 0, bitVal (decide (1 ≤ e ∧ e ≤ 3)), bitVal (decide (4 ≤ e ∧ e ≤ 7)), bitVal (decide (8 ≤ e ∧ e ≤ 11)),
    bitVal (decide (12 ≤ e))]

/-- OCM_CODEWORD (R61): one outer codeword with `errs` symbol errors, above 15 for an uncorrectable one. -/
def execOcmCodeword (n : LaneNo) (errs : Nat) (s : State) : Host.Outcome State Fault Refusal :=
  .next (
    if !s.flag Reg.LN.FMT_STAT.OCM_LOCK n || !s.flag Reg.LN.FMT_CFG.OCM_EN n ||
        !s.flag Reg.LN.RX_STAT.FRAME_LOCK n then s
    else if s.flag Reg.LN.OCM_CTRL.FREEZE n then
      let x := s.rxOf n
      s.setRx n { x with ocmHeld := (List.range 7).map fun i => x.ocmHeld.getD i 0 + (ocmOf errs).getD i 0 }
    else s.ocmAdd n (ocmOf errs))

/-- All four outer-code counters at zero (R61). -/
def State.ocmZero (s : State) (n : Nat) : State :=
  let s1 := ((s.wr Reg.LN.OCM_CW.COUNT 0 n).wr Reg.LN.OCM_SYM.COUNT 0 n).wr Reg.LN.OCM_UNCORR.COUNT 0 n
  (((s1.wr Reg.LN.OCM_HIST.BIN_1_3 0 n).wr Reg.LN.OCM_HIST.BIN_4_7 0 n).wr Reg.LN.OCM_HIST.BIN_8_11 0 n).wr
    Reg.LN.OCM_HIST.BIN_12_15 0 n

/-- OCM_CLEAR (R61): a write of 1 to `OCM_CTRL.CLEAR`. -/
def execOcmClear (n : LaneNo) (s : State) : Host.Outcome State Fault Refusal :=
  .next (s.regAccess Reg.LN.OCM_CTRL.CLEAR n 0 true fun s => s.ocmZero n)

/-- `OCM_CTRL.FREEZE` written: counts held meanwhile are added when it clears (R61). -/
def State.ocmFreeze (s : State) (n : Nat) (on : Bool) : State :=
  let s1 := s.wrB Reg.LN.OCM_CTRL.FREEZE on n
  if on then s1
  else (s1.ocmAdd n (s1.rxOf n).ocmHeld).setRx n { s1.rxOf n with ocmHeld := [] }

/-- OCM_FREEZE (R61). -/
def execOcmFreeze (n : LaneNo) (on : Bool) (s : State) : Host.Outcome State Fault Refusal :=
  .next (s.regAccess Reg.LN.OCM_CTRL.FREEZE n 0 true fun s => s.ocmFreeze n on)

end Sys2Proof.Machine
end

