-- ==== Sys2Proof/Machine/Picot.lean ====
section
/-! DEFINITION. What the receiver of bursts measures on FFE outputs (R172 to R174, R179, R180, R188): the picot correlator
with its peaks, the templates, frequency and phase from peak positions, and the quality. -/

namespace Sys2Proof.Machine

/-- Bits as the signs b(i) = 2 p(i) − 1. -/
def signs (l : List Bool) : List Int := l.map fun b => if b then 1 else -1

/-- Σ r b and Σ |r| over a template. -/
def correlate (b r : List Int) : Int × Nat :=
  ((b.zip r).foldl (fun v p => v + p.1 * p.2) 0, ((b.zip r).map fun (p : Int × Int) => p.2.natAbs).foldl (· + ·) 0)

/-- The normalised correlation is at or above `k`/`n`. -/
def atLeast (c : Int × Nat) (k n : Nat) : Bool := decide (0 < c.2) && decide ((k : Int) * c.2 ≤ n * c.1)

/-- The correlator at every symbol from the 64th on (R173). -/
def correlations (r : List Int) : List (Int × Nat) :=
  (List.range (r.length - 63)).map fun i => correlate (signs picotBits) ((r.drop i).take 64)

/-- `a` exceeds `b` as a normalised correlation; one without a denominator is the lowest. -/
def rhoAbove (a b : Int × Nat) : Bool := decide (0 < a.2) && (b.2 == 0 || decide (b.1 * a.2 < a.1 * b.2))

/-- The peaks of ρ (R173): local maxima at or above the threshold, as indices into the correlations. The first symbol
has none before it, and the last none after it, which makes it no peak yet. Of equals in a row the last is the peak. -/
def peaks (thr : Nat) (cs : List (Int × Nat)) : List Nat :=
  (List.range (cs.length - 1)).filter fun i =>
    let c := cs.getD i (0, 0)
    atLeast c thr 64 && (i == 0 || !rhoAbove (cs.getD (i - 1) (0, 0)) c) && rhoAbove c (cs.getD (i + 1) (0, 0))

/-- The numbers lie 64 ± 1 apart. -/
def onGrid : List Nat → Bool
  | a :: b :: l => decide (a + 63 ≤ b) && decide (b ≤ a + 65) && onGrid (b :: l)
  | _ => true

/-- Detection (R173): `r` ends one symbol after the peak that may declare it, which lies `since` symbols after the onset;
the last `conf` peaks since the detector was armed, at `arm`, lie 64 ± 1 symbols apart. -/
def detects (r : List Int) (since arm thr conf : Nat) : Bool :=
  let cs := correlations r
  let last := cs.length - 2
  let ps := (peaks thr cs).filter fun i => decide (arm + (last - i) ≤ since)
  let mine := ps.drop (ps.length - conf)
  decide (2 ≤ cs.length) && mine.length == conf && mine.getLast? == some last && onGrid mine

/-- `DET_CONF`: values outside 2 to 4 act as 2. -/
def confOf (v : Nat) : Nat := if 2 ≤ v ∧ v ≤ 4 then v else 2

/-- The codes the burst AGC moves up for a level `a` wanted and `b` measured (R172): the error rounded to 0.125 dB,
limited to 32 codes. -/
def codesUp (a b : Nat) : Nat := ((List.range 32).filter fun i => decide (10 ^ (2 * i + 1) * b ^ 320 ≤ a ^ 320)).length

/-- The slope of the peak positions against their number, over the nominal 64 symbols a picot, in 0.1 ppm, and their
mean, in 2^-20 symbols (R174). Positions are in 2^-20 symbols; fewer than two have no slope. -/
def peakFit (ps : List Int) : Int × Int :=
  let n := ps.length
  let q := ps.zipIdx.map fun (p : Int × Nat) => (p.1 - 64 * 2 ^ 20 * p.2, 2 * (p.2 : Int) - ((n : Int) - 1))
  let num : Int := (q.map fun p => p.1 * p.2).foldl (· + ·) 0
  let den : Int := (q.map fun p => p.2 * p.2).foldl (· + ·) 0
  (if den = 0 then 0 else roundAway (2 * num * 10000000) (den.toNat * 64 * 2 ^ 20),
    if n = 0 then 0 else (q.map fun p => p.1).foldl (· + ·) 0 / n)

/-- The SD follows a peak (R174): of the symbols from one before the nominal place on, 32 in a row correlate with the
template at 24/32 or more, at most one symbol off. -/
def sdMatches (r : List Int) : Bool :=
  (List.range 3).any fun i => decide (i + 32 ≤ r.length) && atLeast (correlate (signs sdBits) ((r.drop i).take 32)) 24 32

/-- The ED template at 24/32 (R176). -/
def edMatches (r : List Int) : Bool := decide (32 ≤ r.length) && atLeast (correlate (signs edBits) r) 24 32

/-- The strength of one window is that of another and `d` × 0.5 dB or more above (R179). -/
def stronger (d new old : Nat) : Bool := decide (10 ^ d * old ^ 20 ≤ new ^ 20)

/-- `QUAL` (R188) from the sums of FFE outputs at picot symbols of bit 1 (`n1`, `s1`) and bit 0 (`n0`, `s0`) and the sum
of all squares: 40 log10 of the half-distance over the pooled deviation, rounded, 0 to 255; `open_` where there are no
symbols or the formula is 0/0. -/
def qualOf (n1 n0 : Nat) (s1 s0 : Int) (sq open_ : Nat) : Nat :=
  let d := s1 * n0 - s0 * n1
  let num : Nat := (d * d).natAbs * (n1 + n0)
  let var : Int := (sq * (n1 * n0) : Nat) - s1 * s1 * n0 - s0 * s0 * n1
  let den : Nat := 4 * n1 * n0 * var.toNat
  if n1 = 0 ∨ n0 = 0 ∨ (num = 0 ∧ den = 0) then open_ % 256
  else if den = 0 then 255
  else (List.range 8).foldl (fun v i =>
    let t := v + 2 ^ (7 - i)
    if 10 ^ (2 * t - 1) * den ^ 80 ≤ num ^ 80 then t else v) 0

end Sys2Proof.Machine
end

