-- ==== Sys2Proof/Machine/Receive.lean ====
section
/-! DEFINITION. Receiving a line lane (03_line_receive): loss of signal, the hardware loops, acquisition and its
retries, the gradient block, the survey with its figures, conditions and adjustments, and seeds (R65 to R105). -/

namespace Sys2Proof.Machine

/-! ## Loss of signal (R75, R80, R104) -/

/-- The count of R73 stands while LOS holds. -/
def State.stopAcqClock (s : State) (n : Nat) : State :=
  let x := s.rxOf n
  if x.acqStopped then s
  else s.setRx n { x with acqStopped := true, acqSpent := x.acqSpent + (s.time - x.acqRef) }

/-- LOS asserts (R75, R80). -/
def State.losOn (s : State) (n : Nat) : State :=
  let s1 := (s.wr Reg.LN.RX_STAT.LOS 1 n).setRx n { s.rxOf n with partialNow := true, agcOk := false }
  let s2 := s1.raise (laneSrc n 0) 0
  let st := s.lane n
  if st = 3 then s2.enterAcquire n 2
  else if st = 2 then
    ((if 2 < s.rd Reg.LN.RX_STAT.ACQ_STEP n then (s2.wr Reg.LN.RX_STAT.ACQ_STEP 2 n).setSweep n false
      else s2).stopAcqClock n).slicesSettle n
  else s2.slicesSettle n

/-- LOS_ASSERT (R80): the level has stayed below `LOS_THR` for 1 µs. `LOS_THR` 0 disables LOS, and in BURST R80 does
not apply (R159). -/
def execLosAssert (n : LaneNo) (s : State) : Host.Outcome State Fault Refusal :=
  .next (
    let st := s.lane n
    if s.rd Reg.LN.AGC.LOS_THR n = 0 ∨ s.los n ∨ !(s.courseOn (courseOf n)) ∨ (st ≠ 1 ∧ st ≠ 2 ∧ st ≠ 3 ∧ st ≠ 5) then s
    else s.losOn n)

/-- LOS clears (R75, R80): the loops resume, and acquisition goes on from step 3. -/
def State.losOff (s : State) (n : Nat) : State :=
  let s1 := s.wr Reg.LN.RX_STAT.LOS 0 n
  if s.lane n = 2 then
    let s2 := s1.setRx n { s1.rxOf n with acqRef := s1.time, acqStopped := false }
    (if s2.rd Reg.LN.RX_STAT.ACQ_STEP n = 2 then s2.wr Reg.LN.RX_STAT.ACQ_STEP 3 n else s2).slicesSettle n
  else s1.slicesSettle n

/-- LOS_CLEAR (R80). -/
def execLosClear (n : LaneNo) (s : State) : Host.Outcome State Fault Refusal :=
  .next (
    let st := s.lane n
    if s.los n ∧ (st = 1 ∨ st = 2 ∨ st = 3 ∨ st = 5) then s.losOff n else s)

/-! ## AGC (R79) -/

/-- `a` exceeds `b` by more than `d` × 0.125 dB: 20 log10(a/b) > d/8. -/
def aboveDb (a b d : Nat) : Bool := decide (10 ^ d * b ^ 160 < a ^ 160)

/-- A block of 16 symbols of the burst AGC (R172): the gain moves by the error rounded to 0.125 dB, at most 32 codes; two
blocks in a row within ±0.5 dB settle it, which arms the detector (R173), and 256 symbols arm it in any case. -/
def State.burstAgc (s : State) (n rms : Nat) : State :=
  let b := s.bstOf n
  let t := s.rd Reg.LN.AGC.TARGET n * 256
  let g := min 240 (s.rd Reg.LN.AGC.GAIN n)
  let ok := if aboveDb rms t 4 || aboveDb t rms 4 then 0 else b.okBlocks + 1
  let k := b.blocks + 1
  (s.wr Reg.LN.AGC.GAIN (min 240 (g + codesUp t rms) - codesUp rms t) n).setBst n { b with
    blocks := k, okBlocks := ok, lastRms := some (rms, g)
    arm := if b.arm.isSome then b.arm else if 2 ≤ ok ∨ 16 ≤ k then some (16 * k) else none }

/-- AGC_BLOCK_END (R79, R172): a block of 4,096 symbols ends, or one of 16 while a burst is levelled; `rms` is the level
measured at the ADC input in 2^-16 of full scale. -/
def execAgcBlockEnd (n : LaneNo) (rms : Nat) (s : State) : Host.Outcome State Fault Refusal :=
  .next (
    let st := s.lane n
    if st = 4 then
      if s.rd Reg.LN.BST_STAT.RX_PHASE n = 2 ∧ !s.flag Reg.LN.RX_CTRL.AGC_FREEZE n then s.burstAgc n rms else s
    else if s.flag Reg.LN.RX_CTRL.AGC_FREEZE n || s.los n || (st != 2 && st != 3 && st != 5) ||
        !s.courseOn (courseOf n) then s
    else
      let t := s.rd Reg.LN.AGC.TARGET n * 256
      let d := s.rd Reg.LN.AGC.DEADBAND n
      let g := min 240 (s.rd Reg.LN.AGC.GAIN n)
      let high := aboveDb rms t d
      let low := aboveDb t rms d
      let coarse := st == 2 && s.rd Reg.LN.RX_STAT.ACQ_STEP n == 3 &&
        (decide (10 * t ^ 20 ≤ rms ^ 20) || decide (10 * rms ^ 20 ≤ t ^ 20))
      let step := if coarse then 8 else 1
      let g' := if high then g - step else if low then min 240 (g + step) else g
      (s.wr Reg.LN.AGC.GAIN g' n).setRx n { s.rxOf n with agcOk := !high && !low })

/-! ## Clock recovery (R81, R82) -/

/-- The frequency accumulator in 2^-20 of 0.1 ppm: `CDR.FREQ` and the fraction below it. -/
def State.cdrAcc (s : State) (n : Nat) : Int := signedOf (s.rd Reg.LN.CDR.FREQ n) 16 * 2 ^ 20 + (s.rxOf n).cdrFrac

/-- The end stops of the accumulator: ±300 ppm (R81). -/
def cdrClamp (a : Int) : Int := max (-3000 * 2 ^ 20) (min (3000 * 2 ^ 20) a)

/-- The proportional gain: `KP`, or `KP_B` through the payload of a burst (R81, R176). -/
def State.cdrKp (s : State) (n : Nat) : Nat :=
  if s.lane n = 4 then s.rd Reg.LN.BST_DET.KP_B n else s.rd Reg.LN.CDR.KP n

/-- The loop over `syms` symbols whose detector outputs add up to `det`, in 2^-20 UI (R81): the accumulator gains
2^-KI of them, and the phase 2^-KP of them and what the frequency moves it. `CDR_FREEZE` holds both (R82), LOS and
BURST the frequency (R92, R176). The phase, in 2^-20 UI, drives the interpolator in steps of 1/128 UI. -/
def State.cdrRun (s : State) (n : Nat) (det : Int) (syms : Nat) : State :=
  if s.flag Reg.LN.RX_CTRL.CDR_FREEZE n then s
  else
    let x := s.rxOf n
    let a := if s.los n ∨ s.lane n = 4 then s.cdrAcc n
      else cdrClamp (s.cdrAcc n + det * 10000000 / 2 ^ s.rd Reg.LN.CDR.KI n)
    (s.wr Reg.LN.CDR.FREQ (patternOf (a / 2 ^ 20) 16) n).setRx n { x with
      cdrFrac := a % 2 ^ 20
      cdrPhase := (x.cdrPhase + det / 2 ^ s.cdrKp n + a * syms / 10000000) % 2 ^ 20 }

/-- The accumulator stands at an end stop. -/
def State.cdrAtStop (s : State) (n : Nat) : Bool := decide (3000 * 2 ^ 20 ≤ (s.cdrAcc n).natAbs)

/-- The clock recovery of a lane runs: in ACQUIRE, ACTIVE and MAINT, and in a burst's payload. -/
def State.cdrOn (s : State) (n : Nat) : Bool :=
  s.courseOn (courseOf n) && (s.lane n == 2 || s.lane n == 3 || s.lane n == 5 ||
    (s.lane n == 4 && s.rd Reg.LN.BST_STAT.RX_PHASE n == 4))

/-- CDR_LOCK (R82): the RMS phase error has stayed low over 2^16 symbols, over which the detector's outputs add up to
`det` in 2^-20 UI; the accumulator must be within range. -/
def execCdrLock (n : LaneNo) (det : Int) (s : State) : Host.Outcome State Fault Refusal :=
  .next (
    if s.flag Reg.LN.RX_CTRL.CDR_FREEZE n || !s.cdrOn n then s
    else
      let t := s.cdrRun n det 65536
      if t.cdrAtStop n then t
      else
        let s1 := t.wr Reg.LN.RX_STAT.CDR_LOCK 1 n
        (if s.mode n = 1 then s1.wr Reg.LN.RX_STAT.FRAME_LOCK 1 n else s1).slicesSettle n)

/-- CDR lock is lost (R76, R82): an ACTIVE lane returns to ACQUIRE at step 5; in M100 frame lock goes with it (R67). A lane
that acquires at step 6 or later keeps its step (DESIGN CHOICE, notes/assumptions/161). -/
def State.cdrLost (s : State) (n : Nat) : State :=
  let s1 := s.wr Reg.LN.RX_STAT.CDR_LOCK 0 n
  let s2 := if s.mode n = 1 then (s1.wr Reg.LN.RX_STAT.FRAME_LOCK 0 n).wr Reg.LN.FMT_STAT.OCM_LOCK 0 n else s1
  (if s.lane n = 3 then s2.enterAcquire n 5 else s2).slicesSettle n

/-- CDR_LOCK_LOSS (R82). -/
def execCdrLockLoss (n : LaneNo) (s : State) : Host.Outcome State Fault Refusal :=
  .next (if s.flag Reg.LN.RX_CTRL.CDR_FREEZE n || !s.flag Reg.LN.RX_STAT.CDR_LOCK n then s else s.cdrLost n)

/-! ## Acquisition (R69 to R74) -/

/-- The index of the smallest number, the first among equals. -/
def argMin : List Nat → Nat
  | [] => 0
  | x :: xs =>
    ((xs.zipIdx).foldl (fun (b : Nat × Nat) p => if p.1 < b.1 then (p.1, p.2 + 1) else b) (x, 0)).2

/-- The CTLE setting of the unseeded sweep (R69, R77): the lowest error from `MIN` to `MAX`, ties to the lower. -/
def State.sweepCtle (s : State) (n : Nat) (xs : List Nat) : Nat :=
  let lo := s.rd Reg.LN.CTLE.MIN n
  let hi := s.rd Reg.LN.CTLE.MAX n
  if hi < lo then hi else lo + argMin (xs.take (hi + 1 - lo))

/-- The target of step 7 (R86): the lowest predicted error over the grid (16 values of α1 times 8 of α2, α2 fastest),
α1 within its limit; ties to the smaller α1, then the smaller α2. -/
def State.pickTarget (s : State) (n : Nat) (xs : List Nat) : Nat × Nat :=
  let i := argMin (xs.take (8 * (s.rd Reg.LN.MLSE_CTRL.ALPHA1_MAX n + 1)))
  (i / 8, i % 8)

/-- The soft scale that maps the 95th percentile of |LLR| (1/32 nat) to 28 (R91). -/
def softTarget (p95 : Nat) : Nat := max 1 (min 255 ((p95 + 14) / 28))

/-- The lane engine uses only settings from `MIN` to `MAX` (R77): it moves one that lies outside, in ACQUIRE, and in ACTIVE
where R78 lets it move the CTLE at all (notes/assumptions/149). -/
def State.ctleForce (s : State) (n : Nat) : State :=
  let st := s.lane n
  if s.flag Reg.LN.RX_CTRL.CTLE_FREEZE n || s.loopsHeld n ||
      !(st == 2 || (st == 3 && s.flag Reg.LN.RX_CTRL.CTLE_TRACK n)) then s
  else s.wr Reg.LN.CTLE.SETTING (s.clampCtle n (s.rd Reg.LN.CTLE.SETTING n)) n

/-- The next step of acquisition begins. -/
def State.acqNext (s : State) (n k : Nat) : State := s.wr Reg.LN.RX_STAT.ACQ_STEP k n

/-- The completion of the present step where its condition holds (R69 to R71). -/
def State.acqStep (s : State) (n : Nat) (xs : List Nat) (lev : List Int) (p95 : Nat) : State :=
  let x := s.rxOf n
  match s.rd Reg.LN.RX_STAT.ACQ_STEP n with
  | 2 => s.acqNext n 3
  | 3 => if x.agcOk then s.acqNext n 4 else s
  | 4 =>
    if !x.sweep then (s.ctleForce n).acqNext n 5
    else if s.flag Reg.LN.RX_CTRL.CTLE_FREEZE n then s
    else ((s.wr Reg.LN.CTLE.SETTING (s.sweepCtle n xs) n).setRx n { x with sweep := false }).acqNext n 5
  | 5 => if s.flag Reg.LN.RX_STAT.CDR_LOCK n then (s.setRx n { x with mseRun := 0 }).acqNext n 6 else s
  | 6 => if 8 ≤ x.mseRun then s.acqNext n 7 else s
  | 7 =>
    let (a1, a2) := s.pickTarget n xs
    let s1 := if s.flag Reg.LN.RX_CTRL.TGT_FREEZE n then s else s.setTarget n a1 a2
    let s2 := if s.mode n = 1 ∨ s.flag Reg.LN.RX_CTRL.LEVEL_FREEZE n then s1
      else s1.setRx n { s1.rxOf n with levels := lev }
    s2.acqNext n 8
  | 8 =>
    if s.flag Reg.LN.RX_STAT.FRAME_LOCK n then s.acqNext n 9
    else if m200 (s.mode n) then (s.wr Reg.LN.RX_STAT.FRAME_LOCK 1 n).acqNext n 9
    else s
  | 9 =>
    if !s.flag Reg.LN.RX_STAT.FRAME_LOCK n then s.acqNext n 8
    else (if s.mode n = 1 ∨ s.flag Reg.LN.RX_CTRL.SOFT_FREEZE n then s else s.setSoft n (softTarget p95)).enterActive n
  | _ => s

/-- ACQ_STEP_COMPLETE (R69): with what the step has measured: the FFE errors of the sweep or the predicted errors of
the target grid, the first centroids, the 95th percentile of |LLR|. Steps need the lane engine, and wait on LOS. -/
def execAcqStepComplete (n : LaneNo) (xs : List Nat) (lev : List Int) (p95 : Nat) (s : State) :
    Host.Outcome State Fault Refusal :=
  .next (
    if s.lane n ≠ 2 ∨ s.los n ∨ !s.laneEngineOn n ∨ !(s.courseOn (courseOf n)) then s else s.acqStep n xs lev p95)

/-- The moment the 250 ms of R73 are over. -/
def State.retryAt (s : State) (n : Nat) : Nat :=
  let x := s.rxOf n
  x.acqRef + (250000000 - x.acqSpent)

/-- ACQ_RETRY (R73): 250 ms without ACTIVE; acquisition restarts at step 3 with the factory defaults, in loops whose freeze
bit is set too (DESIGN CHOICE, notes/assumptions/160). Without its engine the lane keeps what it has (R92). -/
def execAcqRetry (n : LaneNo) (s : State) : Host.Outcome State Fault Refusal :=
  .next (
    if s.lane n ≠ 2 ∨ s.los n ∨ (s.rxOf n).acqStopped ∨ !s.laneEngineOn n then s
    else
      let s1 := (s.upTo (s.retryAt n)).count Reg.LN.RX_STAT.ACQ_RETRY 1 n
      let s2 := (s1.loadDefaults n).acqNext n 3
      (s2.wr Reg.LN.RX_STAT.SEED_LOADED 0 n).setRx n { s2.rxOf n with
        acqRef := s2.time, acqSpent := 0, sweep := true, agcOk := false, mseRun := 0, lossAt := none })

/-- FRAME_LOCK_TIMEOUT (R74): frame lock has not returned within 10 ms; the lane restarts at step 3 with its current
coefficients. -/
def execFrameLockTimeout (n : LaneNo) (s : State) : Host.Outcome State Fault Refusal :=
  .next (
    let x := s.rxOf n
    match x.lossAt with
    | some t =>
      if s.lane n = 2 ∧ s.rd Reg.LN.RX_STAT.ACQ_STEP n = 8 ∧ !s.flag Reg.LN.RX_STAT.FRAME_LOCK n then
        ((s.upTo (t + 10000000)).setRx n { x with lossAt := none, sweep := false, agcOk := false }).acqNext n 3
      else s.setRx n { x with lossAt := none }
    | none => s)

/-! ## The gradient block (R84, R88, R92) -/

/-- The LMS step limit of `MU_ACQ` and `MU_TRK`. -/
def muOf (v : Nat) : Nat := max 8 (min 20 v)

/-- One tap after a block (R84): gradient step, leakage, the tap range; at 24-bit precision. -/
def tapUpdate (mu leak : Nat) (c g : Int) : Int :=
  let c1 := c - g / 2 ^ mu
  let c2 := if leak = 0 then c1 else c1 - c1 / 2 ^ (leak + 12)
  max (-512 * 2 ^ 14) (min (511 * 2 ^ 14) c2)

/-- The blocks in a row whose mean squared error changed by less than 1 % (R70). -/
def mseRunNext (x : RxX) (mse : Nat) : Nat :=
  if x.mseRun = 0 then 1
  else if 100 * (mse - x.mse + (x.mse - mse)) < x.mse then x.mseRun + 1 else 1

/-- GRADIENT_BLOCK_END (R84, R88, R92): the accumulated gradients in 2^-21 tap units, the mean squared error of the block,
and the block error of each centroid in 2^-20. -/
def execGradientBlockEnd (n : LaneNo) (g : List Int) (mse : Nat) (lev : List Int) (s : State) :
    Host.Outcome State Fault Refusal :=
  .next (
    let st := s.lane n
    let step := s.rd Reg.LN.RX_STAT.ACQ_STEP n
    let x := s.rxOf n
    if !(st == 3 || (st == 2 && decide (6 ≤ step))) || !s.courseOn (courseOf n) then s
    else if x.discard then s.setRx n { x with discard := false, cut := false }
    else if s.loopsHeld n then s
    else
      let mu := muOf (if st = 3 then s.rd Reg.LN.FFE_CTRL.MU_TRK n else s.rd Reg.LN.FFE_CTRL.MU_ACQ n)
      let s1 := s.setRx n (if x.cut then { x with cut := false } else { x with mse := mse, mseRun := mseRunNext x mse })
      let s2 :=
        if x.cut ∨ s.flag Reg.LN.RX_CTRL.FFE_FREEZE n ∨ s.flag Reg.ENG.PROG_CTRL.OWN_FFE n then s1
        else s1.setTaps n (x.taps.zipIdx.map fun p =>
          tapUpdate mu (s.rd Reg.LN.FFE_CTRL.LEAK n) p.1 (g.getD p.2 0))
      if s.flag Reg.LN.RX_CTRL.LEVEL_FREEZE n || (st == 2 && decide (step < 8)) then s2
      else s2.setRx n { s2.rxOf n with
        levels := x.levels.zipIdx.map fun p => p.1 + (lev.getD p.2 0) / 2 ^ 10 })

/-! ## Figures of merit (R97 to R101, R57) -/

/-- The nearest value of 1000 log10(a/b) that a field from 0 to 65,535 holds: the largest v with
10^(2v − 1) b^2000 ≤ a^2000, found from the top bit down. -/
def centiDb (a b : Nat) : Nat :=
  if b = 0 then 65535
  else (List.range 16).foldl (fun v i =>
    let t := v + 2 ^ (15 - i)
    if 10 ^ (2 * t - 1) * b ^ 2000 ≤ a ^ 2000 then t else v) 0

/-- SNR_eq in 0.01 dB (R97), from P_e in 2^-20 and α1, α2 in 1/16: E_T × P_a / P_e. -/
def snrEqOf (const a1 a2 pe : Nat) : Nat :=
  centiDb ((256 + a1 * a1 + a2 * a2) * (if const = 1 then 10 else 5) * 2 ^ 20) (256 * pe)

/-- SNR_mfb in 0.01 dB (R98), from the sum over 64 bins in 1/1024. -/
def snrMfbOf (const mfb : Nat) : Nat := centiDb ((if const = 1 then 10 else 5) * mfb) (64 * 1024)

/-- A value in a signed 12-bit field, saturating (R64, R106). -/
def sat12 (v : Int) : Nat := patternOf (max (-2048) (min 2047 v)) 12

/-- The required SNR of a constellation in 0.01 dB (R57). -/
def requiredSnr (const : Nat) : Int := if const = 1 then 2090 else 1680

/-- BER_pre exceeds (or is below) a threshold m × 10^-e (R101, R105), with N codewords of `len` bits. -/
def berAbove (c u n len thr : Nat) : Bool :=
  decide (thr % 16 * (len * n) < (c + 3 * u) * 10 ^ (thr / 16)) && thr % 16 != 0

def berBelow (c u n len thr : Nat) : Bool :=
  decide ((c + 3 * u) * 10 ^ (thr / 16) < thr % 16 * (len * n)) && thr % 16 != 0

/-- The inner codeword length of a mode: 256, or the 128 bits of the IEEE 802.3dj inner code (notes/assumptions/79). -/
def innerLength (m : Nat) : Nat := if m200 m then 128 else 256

/-- The mode default of `GAP_SET` in 0.01 dB (R105). -/
def gapDefault : Nat → Nat
  | 4 => 200
  | 5 => 220
  | _ => 180

/-! ## The survey (R102 to R105) -/

/-- The survey period in ns (R106). -/
def surveyPeriod : Nat → Nat
  | 0 => 1000000
  | 1 => 100000
  | 2 => 10000000
  | _ => 100000000

/-- The FEC_DEGRADE condition after a survey with N codewords, C corrected bits, U uncorrectable (R104, R105, R159). A
survey without a codeword has no BER and leaves both counts as they are, in ACTIVE too (DESIGN CHOICE, notes/assumptions/150;
R159 states it for BURST). -/
def State.surveyDegrade (s : State) (n cw c u : Nat) : State :=
  let st := s.lane n
  let m := s.mode n
  if (st ≠ 3 ∧ st ≠ 4) ∨ cw = 0 ∨ m = 1 ∨ s.flag Reg.LN.FMT_CFG.INNER_BYPASS n then s
  else
    let x := s.rxOf n
    let need := max 1 (s.rd Reg.LN.RX_THRESH.DEG_N n)
    let len := innerLength m
    let up := if berAbove c u cw len (s.rd Reg.LN.RX_THRESH.DEG_SET n) then x.degUp + 1 else 0
    let dn := if berBelow c u cw len (s.rd Reg.LN.RX_THRESH.DEG_CLR n) then x.degDown + 1 else 0
    let s1 := s.setRx n { x with degUp := up, degDown := dn }
    if s.flag Reg.LN.RX_STAT.FEC_DEG n then
      if need ≤ dn then s1.wr Reg.LN.RX_STAT.FEC_DEG 0 n else s1
    else if need ≤ up then (s1.wr Reg.LN.RX_STAT.FEC_DEG 1 n).raise (laneSrc n 2) 0
    else s1

/-- The GAP_HIGH condition after a valid survey (R104, R105). -/
def State.surveyGap (s : State) (n : Nat) (gap : Int) : State :=
  let x := s.rxOf n
  let need := max 1 (s.rd Reg.LN.RX_GAP.GAP_N n)
  let set := s.rd Reg.LN.RX_GAP.GAP_SET n
  let thr : Int := if set = 0 then gapDefault (s.mode n) else set
  let up := if thr < gap then x.gapUp + 1 else 0
  let dn := if gap < thr - 20 then x.gapDown + 1 else 0
  let s1 := s.setRx n { x with gapUp := up, gapDown := dn }
  if s.flag Reg.LN.RX_STAT.GAP_HIGH n then
    if need ≤ dn then s1.wr Reg.LN.RX_STAT.GAP_HIGH 0 n else s1
  else if need ≤ up then (s1.wr Reg.LN.RX_STAT.GAP_HIGH 1 n).raise (laneSrc n 3) 0
  else s1

/-- The margins of PAM4 and PAM6 on an M400 lane in 0.01 dB (R57). -/
def State.margins (s : State) (n snr : Nat) (other : Int) : Int × Int :=
  let const := s.rd Reg.LN.FMT_CFG.CONST n
  let run : Int := (snr : Int) - requiredSnr const
  let oth : Int := other - requiredSnr (1 - const)
  if const = 0 then (run, oth) else (oth, run)

/-- The recommendation of an M400 lane (R58). An advantage equal to `HYST` has not exceeded the running margin by it:
R58 and R64 leave the equality open (DESIGN CHOICE, notes/assumptions/150). -/
def State.surveyConst (s1 : State) (n snr : Nat) (other : Int) : State :=
  let const := s1.rd Reg.LN.FMT_CFG.CONST n
  let (p4, p6) := s1.margins n snr other
  let x := s1.rxOf n
  if x.inActive < 4 then s1
  else
    let rec_ := s1.rd Reg.LN.CONST_ADV.REC n
    if rec_ = 3 then (s1.wr Reg.LN.CONST_ADV.REC const n).setRx n { x with constRun := 0 }
    else
      let here := if rec_ = 0 then p4 else p6
      let there := if rec_ = 0 then p6 else p4
      let k := if here + s1.rd Reg.LN.CONST_POLICY.HYST n < there then x.constRun + 1 else 0
      if max 1 (s1.rd Reg.LN.CONST_POLICY.DWELL n) ≤ k then
        (s1.wr Reg.LN.CONST_ADV.REC (1 - rec_) n).setRx n { x with constRun := 0 }
      else s1.setRx n { x with constRun := k }

/-- The lane engine may put a bank of its own in force: neither `FFE_FREEZE` nor a lane program that owns the FFE forbids it
(R92, R382). -/
def State.mayTap (s : State) (n : Nat) : Bool :=
  !s.flag Reg.LN.RX_CTRL.FFE_FREEZE n && !s.flag Reg.ENG.PROG_CTRL.OWN_FFE n

/-- The soft scale moves toward its target by at most 1/8 of its value (R91). -/
def State.surveySoft (s : State) (n p95 : Nat) : State :=
  let cur := s.rd Reg.LN.MLSE_CTRL.SOFT_SCALE n
  if s.mode n = 1 ∨ s.flag Reg.LN.RX_CTRL.SOFT_FREEZE n ∨ s.loopsHeld n ∨ !s.flag Reg.LN.MLSE_CTRL.SOFT_AUTO n then s
  else s.wr Reg.LN.MLSE_CTRL.SOFT_SCALE (max (cur - cur / 8) (min (cur + cur / 8) (softTarget p95))) n

/-- CTLE tracking (R77, R78): at most one step per 16 surveys, toward the lower FFE error, with a compensating bank. -/
def State.surveyCtle (s0 : State) (n : Nat) (m : SurveyIn) : State :=
  let s := s0.ctleForce n
  let x := s.rxOf n
  let cur := s.rd Reg.LN.CTLE.SETTING n
  let e := fun i => m.ctleErr.getD i 0
  if !s.flag Reg.LN.RX_CTRL.CTLE_TRACK n || s.flag Reg.LN.RX_CTRL.CTLE_FREEZE n || s.loopsHeld n ||
      !s.mayTap n || m.ctleErr.length != 3 then s.setRx n { x with ctleWait := x.ctleWait + 1 }
  else if x.ctleWait + 1 < 16 then s.setRx n { x with ctleWait := x.ctleWait + 1 }
  else
    let want := if e 0 < e 1 ∧ e 0 ≤ e 2 then cur - 1 else if e 2 < e 1 then cur + 1 else cur
    if want = cur ∨ s.clampCtle n want ≠ want then s
    else ((s.wr Reg.LN.CTLE.SETTING want n).setRx n { x with ctleWait := 0 }).setTaps n m.newTaps

/-- Target tracking (R86): at most one step per 8 surveys, and only for 0.10 dB. -/
def State.surveyTarget (s : State) (n snr : Nat) (m : SurveyIn) : State :=
  let x := s.rxOf n
  let a1 := s.rd Reg.LN.MLSE_CTRL.ALPHA1 n
  let a2 := s.rd Reg.LN.MLSE_CTRL.ALPHA2 n
  let near := m.targets.filter fun t =>
    decide (t.1 ≤ s.rd Reg.LN.MLSE_CTRL.ALPHA1_MAX n) && decide (t.2.1 ≤ 7) &&
      ((t.2.1 == a2 && (t.1 == a1 + 1 || t.1 + 1 == a1)) || (t.1 == a1 && (t.2.1 == a2 + 1 || t.2.1 + 1 == a2))) &&
      decide ((snr : Int) + 10 ≤ t.2.2)
  if s.flag Reg.LN.RX_CTRL.TGT_FREEZE n || s.flag Reg.ENG.PROG_CTRL.OWN_TGT n || !s.mayTap n || s.loopsHeld n ||
      decide (x.tgtWait + 1 < 8) then s.setRx n { x with tgtWait := x.tgtWait + 1 }
  else
    match near with
    | [] => s.setRx n { x with tgtWait := x.tgtWait + 1 }
    | t :: ts =>
      let b := ts.foldl (fun b t => if b.2.2 < t.2.2 then t else b) t
      ((((s.wr Reg.LN.MLSE_CTRL.ALPHA1 b.1 n).wr Reg.LN.MLSE_CTRL.ALPHA2 b.2.1 n)).setRx n
        { x with tgtWait := 0 }).setTaps n m.newTaps

/-- The seed of the lane's present adaptation (R94). -/
def State.makeSeed (s : State) (n : Nat) : Seed :=
  let x := s.rxOf n
  { version := s.storeFormat, mode := s.mode n, const := s.rd Reg.LN.FMT_CFG.CONST n
    precode := s.rd Reg.LN.FMT_CFG.PRECODE n, mainPos := x.mainPos, ctle := s.rd Reg.LN.CTLE.SETTING n
    vga := s.rd Reg.LN.AGC.GAIN n, taps := x.taps, a1 := s.rd Reg.LN.MLSE_CTRL.ALPHA1 n
    a2 := s.rd Reg.LN.MLSE_CTRL.ALPHA2 n, levels := x.levels, soft := s.rd Reg.LN.MLSE_CTRL.SOFT_SCALE n
    freq := s.rd Reg.LN.CDR.FREQ n, temp := s.rd Reg.THM.SENSOR.READING (courseOf n), crcOk := true }

def State.writeSeed (s : State) (n : Nat) : State :=
  { s with seeds := Tab.set none s.seeds n (some (s.makeSeed n)) }

/-- The one automatic seed write of a lane (R95). Its 64 surveys are those since the lane became ACTIVE, whether or not a
seed existed in them; its absence counts at the write (DESIGN CHOICE, notes/assumptions/150). -/
def State.surveySeed (s : State) (n : Nat) : State :=
  let x := s.rxOf n
  if s.lane n = 3 ∧ 64 ≤ x.inActive ∧ !x.seedAuto ∧ (s.validSeed n).isNone ∧ !s.anyFreeze n ∧ s.nvmOpen then
    (s.setRx n { x with seedAuto := true }).writeSeed n
  else s

/-- The survey record (R102). -/
def State.surveyRec (s : State) (n snr mfb : Nat) (m : SurveyIn) (cw c u : Nat) (parted : Bool) : SurveyRec :=
  let x := s.rxOf n
  { flags := s.lane n + 8 * bitVal (s.los n) + 16 * s.rd Reg.LN.RX_STAT.CDR_LOCK n +
      32 * s.rd Reg.LN.RX_STAT.FRAME_LOCK n + 64 * s.rd Reg.LN.RX_STAT.FEC_DEG n +
      128 * s.rd Reg.LN.RX_STAT.GAP_HIGH n + 256 * s.rd Reg.LN.RX_GAP.VALID n + 512 * bitVal parted +
      1024 * s.freezeCause n
    snrEq := snr, snrMfb := mfb, gap := patternOf ((mfb : Int) - snr) 16, vga := s.rd Reg.LN.AGC.GAIN n
    ctle := s.rd Reg.LN.CTLE.SETTING n
    target := s.rd Reg.LN.MLSE_CTRL.ALPHA1 n + 16 * s.rd Reg.LN.MLSE_CTRL.ALPHA2 n
    soft := s.rd Reg.LN.MLSE_CTRL.SOFT_SCALE n
    freq := patternOf (signedOf (s.rd Reg.LN.CDR.FREQ n) 16) 32, cw := cw % 2 ^ 32, corr := c % 2 ^ 32
    uncorr := u % 2 ^ 32, phaseRms := m.phaseRms % 2 ^ 16, retry := s.rd Reg.LN.RX_STAT.ACQ_RETRY n
    levels := (List.range 6).map fun i => patternOf ((x.levels.getD i 0) / 2 ^ 10) 16
    seq := x.seq % 2 ^ 32 }

/-- The figures every survey of a lane that receives writes: SNRs and gap outside MB, the latencies, and the two margins
of an M400 lane (R57, R63, R97 to R100, R106). A latency above the field's 4,095 saturates (notes/assumptions/150). -/
def State.surveyShown (s : State) (n snr mfb : Nat) (m : SurveyIn) : State :=
  let gap : Int := (mfb : Int) - snr
  let s1 := if s.mode n = 6 then s
    else ((s.wr Reg.LN.RX_SNR.SNR_EQ snr n).wr Reg.LN.RX_SNR.SNR_MFB mfb n).wr Reg.LN.RX_GAP.GAP (sat12 gap) n
  let s2 := (s1.wr Reg.LN.LATENCY.RX_LAT (min 4095 m.rxLat) n).wr Reg.LN.LATENCY.TX_LAT (min 4095 m.txLat) n
  if isyon (s.mode n) then
    let p := s.margins n snr m.other
    (s2.wr Reg.LN.CONST_ADV.MARGIN_P4 (sat12 p.1) n).wr Reg.LN.CONST_ADV.MARGIN_P6 (sat12 p.2) n
  else s2

/-- What an ACTIVE survey does with the figures (R58, R63, R100, R104). -/
def State.surveyFigures (s : State) (n snr mfb : Nat) (m : SurveyIn) : State :=
  let x := s.rxOf n
  let gap : Int := (mfb : Int) - snr
  let s0 : State := { s with upd := { s.upd with
    trialLanes := s.upd.trialLanes.map fun (y : TrialLane) =>
      if y.lane = n then { y with surveys := y.surveys + 1 } else y } }
  let s1 := s0.setRx n { x with inActive := x.inActive + 1 }
  let s3 := s1.wr Reg.LN.LATENCY.VALID 1 n
  let s4 := if isyon (s.mode n) then s3.surveyConst n snr m.other else s3
  if 4 ≤ x.inActive + 1 then (s4.wr Reg.LN.RX_GAP.VALID 1 n).surveyGap n gap else s4

/-- The clock recovery over a survey (R81, R82): at an end stop CDR lock is lost. -/
def State.surveyCdr (s : State) (n : Nat) (m : SurveyIn) : State :=
  if !s.cdrOn n then s
  else
    let t := s.cdrRun n m.det m.syms
    if t.cdrAtStop n && t.flag Reg.LN.RX_STAT.CDR_LOCK n && !t.flag Reg.LN.RX_CTRL.CDR_FREEZE n then t.cdrLost n else t

/-- What the lane engine does at the end of a survey period, ADC slices aside (R102). -/
def State.survey (s0 : State) (n : Nat) (m : SurveyIn) : State :=
  let s := s0.surveyCdr n m
  let x := s.rxOf n
  let const := s.rd Reg.LN.FMT_CFG.CONST n
  let snr := if s.mode n = 6 ∨ s.mode n = 0 then 0
    else snrEqOf const (s.rd Reg.LN.MLSE_CTRL.ALPHA1 n) (s.rd Reg.LN.MLSE_CTRL.ALPHA2 n) m.pe
  let mfb := if s.mode n = 6 ∨ s.mode n = 0 then 0 else snrMfbOf const m.mfb
  let cw := s.rd Reg.LN.DEC_CW.COUNT n - x.cw0
  let c := s.rd Reg.LN.DEC_CORR.COUNT n - x.corr0
  let u := s.rd Reg.LN.DEC_UNCORR.COUNT n - x.uncorr0
  let sf := if s.mode n = 0 then s else s.surveyShown n snr mfb m
  let s1 := if s.lane n = 3 then sf.surveyFigures n snr mfb m else sf
  let s2 := s1.surveyDegrade n cw c u
  let r := s2.surveyRec n snr mfb m cw c u x.partialNow
  let s3 := (s2.hodRewritten (surveyWord n x.seq) 6).setRx n { s2.rxOf n with
    hist := (r :: x.hist).take 1024, seq := (x.seq + 1) % 2 ^ 32, partialNow := false
    cw0 := s.rd Reg.LN.DEC_CW.COUNT n, corr0 := s.rd Reg.LN.DEC_CORR.COUNT n
    uncorr0 := s.rd Reg.LN.DEC_UNCORR.COUNT n, startAt := s.time, per := s.rd Reg.LN.RX_CTRL.SURVEY_PER n }
  (if s3.lane n = 3 then
    ((((s3.surveySoft n m.p95).surveyCtle n m).surveyTarget n snr m).surveySeed n)
  else s3).takeLaneShot n

/-- When the survey in progress ends (R103). -/
def State.surveyAt (s : State) (n : Nat) : Nat := (s.rxOf n).startAt + surveyPeriod (s.rxOf n).per

/-! ## Seeds by command (R350, R95) -/

def chkSeedSave (s : State) (f : Flight) : Option Res :=
  let n := f.e.target.toNat
  if s.lane n ≠ 3 ∨ s.anyFreeze n then some { st := .badField }
  else if !s.nvmOpen then some { st := .nvmTemp } else none

/-- SEED_SAVE (R350). -/
def execSeedSave (r : RingNo) (e : Entry) (d : Dma) (s : State) : Host.Outcome State Fault Refusal :=
  .next (s.serve .seedSave r e d chkSeedSave fun s g f => (s.writeSeed f.e.target.toNat).finishSt g .ok)

def chkNvm (s : State) (_ : Flight) : Option Res := if s.nvmOpen then none else some { st := .nvmTemp }

/-- SEED_ERASE (R350). -/
def execSeedErase (r : RingNo) (e : Entry) (d : Dma) (s : State) : Host.Outcome State Fault Refusal :=
  .next (s.serve .seedErase r e d chkNvm fun s g f =>
    ({ s with seeds := Tab.set none s.seeds f.e.target.toNat none } : State).finishSt g .ok)

end Sys2Proof.Machine
end

