-- ==== Sys2Proof/Machine/Slices.lean ====
section
/-! DEFINITION. Slice rotation and calibration commands (04_slices_and_calibration, R111 to R132, R350, R351), and the
end of a survey, at which the active slices are watched (R102, R117). -/

namespace Sys2Proof.Machine

/-! ## Ends of runs (R122 to R124) -/

/-- A list with one element replaced. -/
def listPut {α : Type} (l : List α) (i : Nat) (v : α) : List α := l.zipIdx.map fun p => if p.2 = i then v else p.1

/-- The five lists of group coefficients, A first. -/
def CalX.groups (x : CalX) : List (List Int) := (List.range 5).map fun g => x.groupCoef.getD g []

/-- A run of group `g` ends (R123, R124): accepted parameters take effect; with every one accepted the reading becomes the
baseline, else the group is suspect and its trigger rests for 1 s. -/
def State.groupEnd (s : State) (n g : Nat) (ms : List Meas) : State :=
  let x := s.calOf n
  let js := judgeRun (groupPars g) ms
  let good := runRes js == .accepted
  let s1 := s.wr Reg.LN.CAL_STAT.PENDING (putBits (s.rd Reg.LN.CAL_STAT.PENDING n) g 1 0) n
  let y := { x with group := none, groupCoef := listPut x.groups (g - 1) (takeCoefs (x.groups.getD (g - 1) []) 0 js) }
  let s2 := s1.setCal n (if good then { y with base := listPut x.base (g - 1) (s.convTemp (courseOf n)) }
    else { y with notBefore := listPut x.notBefore (g - 1) (s.time + 1000000000) })
  s2.setSuspect n (putBits (s2.rd Reg.LN.CAL_STAT.SUSPECT n) g 1 (bitVal (!good)))

/-! ## Rotation (R111, R112, R117) -/

/-- CAL_STEP_DONE (R111): the slice in CAL ends its step with the measurements of its six parameters, and a group P that
ran inside the step with those of its 128 codes (R121). -/
def execCalStepDone (n : LaneNo) (m : CalStep) (s : State) : Host.Outcome State Fault Refusal :=
  .next (
    match s.sliceIn n .cal with
    | none => s
    | some i =>
      if !s.calAllowed n then s.calSettle n
      else
        let s0 := if (s.calOf n).group = some 2 then s.groupEnd n 2 m.pm else s
        let x := s0.slice n i
        let js := judgeRun calPars m.ms
        let y := { x with coef := takeCoefs x.coef 0 js ++ x.coef.drop 6 }
        let s1 := match runRes js with
          | .accepted =>
            (s0.setSlice n i { y with
              st := .ready, suspect := false, coeff := true, calAt := s.time, calTemp := s.convTemp (courseOf n) }).refreshS n
          | .suspect => (s0.setSlice n i y).suspectTurn n i
          | .outOfRange => (s0.setSlice n i y).rangeTurn n i
        (s1.slicesSettle n).startGroups (courseOf n))

/-- `ROT_PER` in ns (R133). -/
def rotPeriod : Nat → Nat
  | 0 => 1000000
  | 1 => 2000000
  | 2 => 5000000
  | _ => 10000000

/-- The position whose ACTIVE slice has gone longest since its last accepted calibration, the lower among equals
(R111). -/
def State.oldestPos (s : State) (n : Nat) : Nat :=
  let at_ := fun p => match s.sliceAt n p with
    | some i => (s.slice n i).calAt
    | none => s.time + 1
  ((List.range 64).foldl (fun (b : Nat × Nat) p => if at_ p < b.1 then (at_ p, p) else b) (s.time + 2, 0)).2

/-- SHADOW_START (R111, R117): the READY slice enters SHADOW, on a failed slice's position at once, otherwise when
`ROT_PER` has passed since the last swap. -/
def execShadowStart (n : LaneNo) (s : State) : Host.Outcome State Fault Refusal :=
  .next (
    let x := s.calOf n
    match s.sliceIn n .ready with
    | none => s
    | some i =>
      if (s.sliceIn n .shadow).isSome || s.adcCapture n then s
      else
        match x.failed with
        | p :: _ =>
          if s.shadowAllowed n true then
            (s.setCal n { x with shadowPos := p, shadowTries := 0, faultSwap := true }).setSlice n i
              { s.slice n i with st := .shadow }
          else s
        | [] =>
          if s.shadowAllowed n false then
            let s1 := match x.swapAt with
              | some t => s.upTo (t + rotPeriod (s.rd Reg.LN.SLICE_CTRL.ROT_PER n))
              | none => s
            (s1.setCal n { x with shadowPos := s.oldestPos n, shadowTries := 0, faultSwap := false }).setSlice n i
              { s.slice n i with st := .shadow }
          else s)

/-- A failed SHADOW (R112, R117): the ACTIVE slice keeps the position; after a failed fault swap its watch starts again. -/
def State.shadowFailed (s : State) (n : Nat) : State :=
  let x := s.calOf n
  let s1 := s.setCal n { x with
    faultSwap := false, shadowTries := 0, failed := x.failed.filter fun p => p != x.shadowPos }
  if x.faultSwap then
    match s1.sliceAt n x.shadowPos with
    | some o => s1.setSlice n o { s1.slice n o with watch := 0 }
    | none => s1
  else s1

/-- The RMS difference of the corrected outputs of the spare and of the ACTIVE slice is 0.25 LSB or less (R111); `win`: their
raw codes. -/
def State.shadowAgrees (s : State) (n i : Nat) (win : List (Nat × Nat)) : Bool :=
  let sq := win.foldl (fun a p =>
    let d := correct (s.slice n i).coef p.1 - (s.adcSample n (s.calOf n).shadowPos p.2).getD 0
    a + d.natAbs ^ 2) 0
  !win.isEmpty && decide (sq ≤ 80000 ^ 2 * win.length)

/-- SHADOW_COMPARE_DONE (R111, R112): skew and bandwidth are measured once, and applied if accepted; then the outputs are
compared, up to four times (notes/assumptions/156). A swap waits for the end of a burst or of a pre-FFE capture (R114). -/
def execShadowCompareDone (n : LaneNo) (ms : List Meas) (win : List (Nat × Nat)) (s : State) :
    Host.Outcome State Fault Refusal :=
  .next (
    let x := s.calOf n
    match s.sliceIn n .shadow with
    | none => s
    | some i =>
      if x.swapDue || !s.shadowAllowed n x.faultSwap then s.slicesSettle n
      else
        let y := s.slice n i
        let js := judgeRun shadowPars ms
        match if y.trims.isSome then .accepted else runRes js with
        | .suspect => ((s.shadowFailed n).suspectTurn n i).slicesSettle n
        | .outOfRange => ((s.shadowFailed n).rangeTurn n i).slicesSettle n
        | .accepted =>
          let s1 := s.setSlice n i { y with trims := some (y.trims.getD (takeCoefs y.coef 6 js)) }
          if s1.shadowAgrees n i win then (s1.setCal n { s1.calOf n with swapDue := true }).slicesSettle n
          else if x.shadowTries + 1 < 4 then s1.setCal n { s1.calOf n with shadowTries := x.shadowTries + 1 }
          else ((s1.shadowFailed n).suspectTurn n i).slicesSettle n)

/-- CAPTURE_COMPLETE (R346, R409): the swatch of a triggered capture is complete, and a swap that waited is made. -/
def execCaptureComplete (n : LaneNo) (w : SwatchData) (s : State) : Host.Outcome State Fault Refusal :=
  .next (
    match s.capOn n with
    | some c => if c.trigAt.isSome then (s.endCapture c .ok w).slicesSettle n else s
    | none => s)

/-- CAPTURE_TIMEOUT (R346): TIMEOUT passes without a trigger. -/
def execCaptureTimeout (n : LaneNo) (w : SwatchData) (s : State) : Host.Outcome State Fault Refusal :=
  .next (
    match s.capOn n with
    | some c =>
      if c.trigAt.isSome then s
      else ((s.upTo (c.start + c.timeout * 1000000)).endCapture c .ok w).slicesSettle n
    | none => s)

/-! ## Watching the active slices (R117) -/

/-- A slice at a position fails the watch in this survey: its mean is off the lane mean by more than 1.5 LSB, or its
RMS off the lane RMS by more than 2 %. -/
def watchFails (m : SurveyIn) (p : Nat) : Bool :=
  let sum := m.means.foldl (· + ·) 0
  decide (96 * 1024 < (64 * m.means.getD p 0 - sum).natAbs) ||
    decide (2 * m.laneRms < 100 * ((m.rms.getD p 0 - m.laneRms) + (m.laneRms - m.rms.getD p 0)))

/-- One position of the watch: the fourth failure in a row asks for a fault swap, and retargets a rotation SHADOW. -/
def State.watchPos (s : State) (n : Nat) (m : SurveyIn) (p : Nat) : State :=
  match s.sliceAt n p with
  | none => s
  | some i =>
    let k := if watchFails m p then (s.slice n i).watch + 1 else 0
    let s1 := s.setSlice n i { s.slice n i with watch := k }
    let x := s1.calOf n
    if 4 ≤ k ∧ !x.failed.contains p then
      let y := { x with failed := x.failed ++ [p] }
      match s1.sliceIn n .shadow with
      | some j =>
        if x.faultSwap || x.swapDue then s1.setCal n y
        else (s1.setSlice n j { s1.slice n j with trims := none }).setCal n
          { (s1.setSlice n j { s1.slice n j with trims := none }).calOf n with
            failed := y.failed, shadowPos := p, shadowTries := 0, faultSwap := true }
      | none => s1.setCal n y
    else s1

/-- The watch of a survey (R117). While it does not run, its counts stand (notes/assumptions/158). -/
def State.watch (s : State) (n : Nat) (m : SurveyIn) : State :=
  if s.flag Reg.LN.SLICE_CTRL.MON_EN n ∧ s.flag Reg.LN.RX_STAT.CDR_LOCK n ∧ !s.los n ∧ m.means.length = 64 ∧
      m.rms.length = 64 then
    (List.range 64).foldl (fun t p => t.watchPos n m p) s
  else s

/-- SURVEY_END (R102): a survey period of a lane ends. It needs the lane engine and a running tile. -/
def execSurveyEnd (n : LaneNo) (m : SurveyIn) (s : State) : Host.Outcome State Fault Refusal :=
  .next (
    if !s.courseOn (courseOf n) ∨ s.lane n = 0 ∨ !s.laneEngineOn n then s
    else
      let s1 := ((s.upTo (s.surveyAt n)).survey n m).watch n m
      if (s1.calOf n).mapDue then s1.writeRetireMap n else s1)

/-! ## Groups (R123, R124) -/

/-- CAL_GROUP_DONE (R124): the group that runs on the lane ends with the measurements of its parameters. Group P ends with
its CAL step. -/
def execCalGroupDone (n : LaneNo) (ms : List Meas) (s : State) : Host.Outcome State Fault Refusal :=
  .next (
    match (s.calOf n).group with
    | none => s
    | some g =>
      if !s.groupsAllowed n then s.calSettle n
      else if g = 2 then s
      else (s.groupEnd n g ms).startGroups (courseOf n))

/-! ## First and foreground calibration (R126, R127) -/

/-- One slice's calibration in full: its eight parameters. -/
def State.calSlice (s : State) (n i : Nat) (ms : List Meas) : State :=
  let x := s.slice n i
  if x.st = .retired then s
  else
    let js := judgeRun (calPars ++ shadowPars) ms
    let y := { x with st := .queued, pos := 0, watch := 0, trims := none, coef := takeCoefs x.coef 0 js }
    match runRes js with
    | .accepted => s.setSlice n i { y with
        suspect := false, run := 0, coeff := true, calAt := s.time, calTemp := s.convTemp (courseOf n) }
    | .suspect =>
      if 1 ≤ x.run then (s.setSlice n i { y with suspect := true, run := 2 }).retireSlice n i false
      else s.setSlice n i { y with suspect := true, run := 1 }
    | .outOfRange => (s.setSlice n i { y with suspect := true }).retireSlice n i false

/-- Accepted slices fill the positions in ascending number, suspect ones what is left, which R119 keeps in service; the
rest queue, accepted before suspect (R126). -/
def State.assignPositions (s : State) (n : Nat) : State :=
  let live := (List.range 68).filter fun i => (s.slice n i).st != .retired
  let good := live.filter fun i => !(s.slice n i).suspect
  let order := good ++ live.filter fun i => (s.slice n i).suspect
  let s1 := ((order.take 64).zipIdx).foldl (fun t p =>
    t.setSlice n p.1 { t.slice n p.1 with st := .active, pos := p.2 }) s
  let s2 := s1.setCal n { s1.calOf n with
    queue := order.drop 64, failed := [], faultSwap := false, swapDue := false, shadowTries := 0 }
  if good.length < 64 then s2.noSpare n else s2.wr Reg.LN.SLICE_STAT.NO_SPARE 0 n

/-- A group of a full calibration of a lane as judged, of A, P, D, C, T. -/
def groupJudged (groups : List (List Meas)) (g : Nat) : List Judged := judgeRun (groupPars (g + 1)) (groups.getD g [])

/-- The group has not been accepted. -/
def groupBad (groups : List (List Meas)) (g : Nat) : Bool := runRes (groupJudged groups g) != .accepted

/-- A full calibration of a lane ends: every slice and every group with its measurements. -/
def State.fullCal (s : State) (n : Nat) (slices groups : List (List Meas)) : State :=
  let s1 := (List.range 68).foldl (fun t i => t.calSlice n i (slices.getD i [])) s
  let s2 := s1.assignPositions n
  let x := s2.calOf n
  let t := s2.convTemp (courseOf n)
  let s3 := s2.setCal n { x with
    base := x.base.zipIdx.map fun p => if groupBad groups p.2 then p.1 else t
    notBefore := x.notBefore.zipIdx.map fun p => if groupBad groups p.2 then s.time + 1000000000 else p.1
    groupCoef := x.groups.zipIdx.map fun p => takeCoefs p.1 0 (groupJudged groups p.2)
    group := none }
  let s4 := (s3.wr Reg.LN.CAL_STAT.PENDING 0 n).wr Reg.LN.SLICE_STAT.FG_DUE 0 n
  s4.setSuspect n ((List.range 5).foldl (fun v g => v + 2 ^ (g + 1) * bitVal (groupBad groups g)) (bitVal (s4.anySuspect n)))

/-- The first calibration of a lane after C_OFF (R120, R126): the retire map is read, one with a wrong CRC counting as
empty, and its slices stay retired; slices that failed a test in C_OFF and are not in it are retired now (R471). A reading
becomes every group's baseline. -/
def State.firstCal (s : State) (n : Nat) (q : FirstCal) : State :=
  let s0 : State := if q.mapOk then s else { s with retire := Tab.set [] s.retire n [] }
  let x := s0.calOf n
  let s1 := (Tab.get [] s0.retire n).foldl (fun t i => t.setSlice n i { st := .retired, fromMap := true }) (s0.setCal n {})
  let s2 := x.tested.foldl (fun (t : State) (i : Nat) =>
    if (t.slice n i).st = .retired then t else t.retireSlice n i false) s1
  let s3 := s2.fullCal n q.slices q.groups
  ((s3.setCal n { s3.calOf n with base := List.replicate 4 (s3.convTemp (courseOf n)) }).wr Reg.LN.CAL_STAT.FIRST_DONE 1
    n).slicesSettle n

/-- FOREGROUND_CAL_DONE (R127, R351): the run ends with the measurements of its slices and groups. -/
def execForegroundCalDone (n : LaneNo) (slices groups : List (List Meas)) (s : State) :
    Host.Outcome State Fault Refusal :=
  .next (
    let x := s.calOf n
    match x.foreground with
    | none => s
    | some o =>
      let before := s.retired n
      let bad := (List.range 5).any (groupBad groups) || (List.range 68).any fun i =>
        (s.slice n i).st != .retired && runRes (judgeRun (calPars ++ shadowPars) (slices.getD i [])) != .accepted
      let s1 := (s.setCal n { x with foreground := none }).fullCal n slices groups
      let s2 := (s1.setTx n { s1.txOf n with cal := false }).slicesSettle n
      s2.finish o {
        st := if bad then .calSuspect else .ok, r0 := s2.rd Reg.LN.CAL_STAT.SUSPECT n, r1 := s2.retired n - before })

def chkCalibrate (s : State) (f : Flight) : Option Res :=
  let n := f.e.target.toNat
  let scope := opByte f.e 16
  if 1 < scope then some { st := .badField }
  else if scope = 1 then
    if s.flag Reg.GLB.BG_STAT.FREEZE then some { st := .calSuspect } else none
  else if s.lane n ≠ 5 then some { st := .badField }
  else if s.flag Reg.GLB.BG_STAT.FREEZE then some { st := .calSuspect }
  else if (s.calOf n).foreground.isSome then some { st := .inUse }
  else none

/-- The effect of CALIBRATE (R351): a foreground run starts, or groups are queued and `RES0` holds their mask. -/
def runCalibrate (s : State) (g : Origin) (f : Flight) : State :=
  let n := f.e.target.toNat
  if opByte f.e 16 = 0 then
    let s1 := s.setCal n { s.calOf n with foreground := some g, group := none }
    (((s1.setTx n { s1.txOf n with cal := true }).txCheck n).slicesSettle n)
  else
    let m := opBits f.e 17 0 4
    let m' := (if m = 0 then 15 else m) * 2
    let s1 := (s.queueGroups n m').startGroups (courseOf n)
    s1.finish g { r0 := (if bitOf m' 2 && s.spares n == 0 then putBits m' 2 1 0 else m') / 2 }

/-- CALIBRATE (R351). -/
def execCalibrate (r : RingNo) (e : Entry) (d : Dma) (s : State) : Host.Outcome State Fault Refusal :=
  .next (s.serve .calibrate r e d chkCalibrate runCalibrate)

/-- RETIRE_MAP_CLEAR (R120, R350): it takes effect at the next C_OFF to C_ON transition. -/
def execRetireMapClear (r : RingNo) (e : Entry) (d : Dma) (s : State) : Host.Outcome State Fault Refusal :=
  .next (s.serve .retireMapClear r e d chkNvm fun s g f =>
    ({ s with retire := Tab.set [] s.retire f.e.target.toNat [] } : State).finishSt g .ok)

/-! ## The band-gap check (R130, R131) -/

/-- The freeze stops rotation, groups and foreground runs of every lane (R130, R131). -/
def State.bandgapFreeze (s : State) : State :=
  let s1 := (s.wr Reg.GLB.BG_STAT.FREEZE 1).raise 1
    (s.rd Reg.GLB.BG_STAT.D_SC0 + s.rd Reg.GLB.BG_STAT.D_SC1 * 4096 + s.rd Reg.GLB.BG_STAT.SC_DISAGREE * 2 ^ 24)
  (List.range 64).foldl (fun t n => (t.abandonForeground n .calSuspect).calSettle n) s1

/-- The distance of a measured ratio from the fused one, in its unit: D = dist / `bgFused` (R130). -/
def State.bgDist (s : State) (r : Nat) : Nat := (r - s.bgFused) + (s.bgFused - r)

/-- D in 0.001 %, as `BG_STAT` shows it (R133): the part below a unit is dropped (notes/assumptions/157). -/
def State.bgShown (s : State) (r : Nat) : Nat := min 4095 (100000 * s.bgDist r / s.bgFused)

/-- D is above `k` × 0.1 %. -/
def State.bgAbove (s : State) (r k : Nat) : Bool := decide (k * s.bgFused < 1000 * s.bgDist r)

/-- BANDGAP_CHECK (R130): K7 measures the ratio of the check band-gap to the main one with both converters, in the unit of
the fused ratio. -/
def execBandgapCheck (r0 r1 : Nat) (s : State) : Host.Outcome State Fault Refusal :=
  .next (
    if !s.coreOn || !s.coreRuns 7 then s
    else
      let apart := (s.bgDist r0 - s.bgDist r1) + (s.bgDist r1 - s.bgDist r0)
      let s1 := ((s.wr Reg.GLB.BG_STAT.D_SC0 (s.bgShown r0)).wr Reg.GLB.BG_STAT.D_SC1 (s.bgShown r1)).wrB
        Reg.GLB.BG_STAT.SC_DISAGREE (decide (s.bgFused < 1000 * apart))
      let hi := if s.bgAbove r0 4 || s.bgAbove r1 4 then s.bgHigh + 1 else 0
      let lo := if s.bgAbove r0 3 || s.bgAbove r1 3 then 0 else s.bgLow + 1
      let s2 : State := { s1 with bgHigh := hi, bgLow := lo }
      let s3 := s2.wrB Reg.GLB.BG_STAT.RELEASE_OK (decide (16 ≤ lo))
      if max 1 (s.rd Reg.GLB.BG_CTRL.CHK_N) ≤ hi ∧ !s.flag Reg.GLB.BG_STAT.FREEZE then s3.bandgapFreeze else s3)

/-- A write of 1 to `BG_CTRL.RELEASE` (R131). -/
def State.bandgapRelease (s : State) : State :=
  if s.flag Reg.GLB.BG_STAT.RELEASE_OK ∧ s.flag Reg.GLB.BG_STAT.FREEZE then
    let s1 := s.wr Reg.GLB.BG_STAT.FREEZE 0
    let s2 := (List.range 8).foldl (fun t c => t.calTriggers c) s1
    (List.range 64).foldl (fun t n => t.calSettle n) s2
  else s

/-- BANDGAP_RELEASE (R131). -/
def execBandgapRelease (s : State) : Host.Outcome State Fault Refusal :=
  .next (s.regAccess Reg.GLB.BG_CTRL.RELEASE 0 0 true fun s => s.bandgapRelease)

end Sys2Proof.Machine
end

