-- ==== Sys2Proof/Machine/Transmit.lean ====
section
/-! DEFINITION. Transmitting a line lane (05_line_transmit): the FIR banks with their checks, spectral masks, the enable
of the output, swing and skew steps, and the pattern checker (R137 to R156). -/

namespace Sys2Proof.Machine

/-! ## The checks of a bank (R137, R141) -/

/-- cos(2πk/64) in 10^-18, k from 0 to 16. -/
def cosTable : List Int :=
  [1000000000000000000, 995184726672196886, 980785280403230449, 956940335732208865, 923879532511286756,
   881921264348355030, 831469612302545237, 773010453362736961, 707106781186547524, 634393284163645498,
   555570233019602225, 471396736825997649, 382683432365089772, 290284677254462368, 195090322016128268,
   98017140329560602, 0]

/-- cos(2πk/64) in 10^-18 for any k. -/
def cos64 (k : Nat) : Int :=
  let j := k % 64
  let q := if j ≤ 32 then j else 64 - j
  if q ≤ 16 then cosTable.getD q 0 else -(cosTable.getD (32 - q) 0)

/-- H(0) of a bank in 1/256. -/
def firDc (c : List Int) : Int := c.foldl (· + ·) 0

/-- |H|² of a bank at f = m/64 f_baud, in 10^-18 of (1/256)². -/
def firPower (c : List Int) (m : Nat) : Int :=
  (c.zipIdx.map fun p => (c.zipIdx.map fun q =>
    p.1 * q.1 * cos64 (m * ((p.2 - q.2) + (q.2 - p.2)))).foldl (· + ·) 0).foldl (· + ·) 0

/-- The mask's limits in dB below and above 0.25 f_baud; none: OPEN (R141). -/
def maskLimits : Nat → Option (Nat × Nat)
  | 1 => some (3, 9)
  | 2 => some (6, 12)
  | 3 => some (2, 6)
  | _ => none

/-- The boost at m stays within a limit of `l` dB: |H|² ≤ 10^(l/10) H(0)². -/
def boostWithin (c : List Int) (m l : Nat) : Bool :=
  decide ((firPower c m) ^ 10 ≤ (10 : Int) ^ l * (firDc c * firDc c * 10 ^ 18) ^ 10)

/-- A bank meets a mask (R141): none of the 33 frequencies exceeds its band's limit. -/
def meetsMask (c : List Int) (mask : Nat) : Bool :=
  match maskLimits mask with
  | none => true
  | some (lo, hi) => (List.range 33).all fun m => boostWithin c m (if m ≤ 16 then lo else hi)

/-- The first check a bank fails, as `REJECT_CAUSE` names it; 0: it passes (R137, R138). -/
def firCause (c : List Int) (mask : Nat) : Nat :=
  if 256 < (c.map fun x => x.natAbs).foldl (· + ·) 0 then 1
  else if firDc c ≤ 0 then 2
  else if !meetsMask c mask then 3
  else 0

/-- `BOOST_MAX` of a bank in 0.1 dB (R141): the nearest value, at most 25.5 dB. -/
def boostMax (c : List Int) : Nat :=
  let h := firDc c
  let top := ((List.range 33).map fun m => firPower c m).foldl max 0
  if h ≤ 0 then 0
  else (List.range 8).foldl (fun v i =>
    let t := v + 2 ^ (7 - i)
    if (10 : Int) ^ (2 * t - 1) * (h * h * 10 ^ 18) ^ 200 ≤ top ^ 200 then t else v) 0

/-! ## Commits and masks (R138, R142, R337) -/

/-- A refusal on the register path. -/
def State.firReject (s : State) (n cause : Nat) : State :=
  (s.wr Reg.LN.TX_STAT.FIR_REJECT 1 n).wr Reg.LN.TX_STAT.REJECT_CAUSE cause n

/-- Eight taps, absent ones zero. -/
def eight (l : List Int) : List Int := (List.range 8).map fun i => l.getD i 0

/-- A write of 1 to `TX_CTRL.FIR_COMMIT` (R138). -/
def State.firCommit (s : State) (n : Nat) : State :=
  let x := s.txOf n
  let c := eight x.stage
  let k := firCause c (s.rd Reg.LN.TX_CTRL.MASK n)
  if k = 0 then s.setTx n { x with pend := some (c, none) } else s.firReject n k

/-- FIR_COMMIT (R138). -/
def execFirCommit (n : LaneNo) (s : State) : Host.Outcome State Fault Refusal :=
  .next (s.regAccess Reg.LN.TX_CTRL.FIR_COMMIT n 0 true fun s => s.firCommit n)

/-- A write to `TX_FIR` (R137, R156): the staging tap named by `INDEX` when `WR_EN` is 1. -/
def State.stageWrite (s : State) (n v : Nat) : State :=
  let x := s.txOf n
  let i := v % 8
  let s1 := (s.wr Reg.LN.TX_FIR.INDEX i n).wr Reg.LN.TX_FIR.SRC (bitsOf v 31 1) n
  if bitOf v 30 then
    s1.setTx n { x with stage := (eight x.stage).zipIdx.map fun p => if p.2 = i then signedOf (bitsOf v 8 10) 10 else p.1 }
  else s1

/-- TX_FIR_STAGE_WRITE (R137). -/
def execTxFirStageWrite (n : LaneNo) (v : Word) (s : State) : Host.Outcome State Fault Refusal :=
  .next (s.regAccess Reg.LN.TX_FIR.INDEX n 0 true fun s => s.stageWrite n v.toNat)

/-- A write of `TX_CTRL.MASK` (R142). -/
def State.maskWrite (s : State) (n v : Nat) : State :=
  let x := s.txOf n
  if !meetsMask (eight x.bank) v then s.firReject n 3
  else
    let s1 := s.wr Reg.LN.TX_CTRL.MASK v n
    match x.pend with
    | some (c, _) => if meetsMask c v then s1 else (s1.setTx n { x with pend := none }).firReject n 3
    | none => s1

/-- MASK_WRITE (R142). -/
def execMaskWrite (n : LaneNo) (v : Fin 4) (s : State) : Host.Outcome State Fault Refusal :=
  .next (s.regAccess Reg.LN.TX_CTRL.MASK n 0 true fun s => s.maskWrite n v)

/-- The taps of LANE_FIR; none: one lies outside −512 to 511. -/
def firTaps (e : Entry) : Option (List Int) :=
  let c := (List.range 8).map fun j => signedOf (op16 e (16 + 2 * j)) 16
  if c.all fun x => decide (-512 ≤ x) && decide (x ≤ 511) then some c else none

def chkLaneFir (s : State) (f : Flight) : Option Res :=
  let n := f.e.target.toNat
  let m := opByte f.e 33
  match firTaps f.e with
  | none => some { st := .badField }
  | some c =>
    if 3 < m then some { st := .badField }
    else
      let k := firCause c (if opBits f.e 32 0 1 = 1 then m else s.rd Reg.LN.TX_CTRL.MASK n)
      if k = 0 then none else some { st := .badField, r0 := k }

/-- The effect of LANE_FIR (R337): the taps go to the staging bank and are committed; a new mask takes effect with
them. -/
def runLaneFir (s : State) (g : Origin) (f : Flight) : State :=
  let n := f.e.target.toNat
  let c := (firTaps f.e).getD []
  (s.setTx n { s.txOf n with
    stage := c, pend := some (c, if opBits f.e 32 0 1 = 1 then some (opByte f.e 33) else none) }).finishSt g .ok

/-- LANE_FIR (R337). -/
def execLaneFir (r : RingNo) (e : Entry) (d : Dma) (s : State) : Host.Outcome State Fault Refusal :=
  .next (s.serve .laneFir r e d chkLaneFir runLaneFir)

/-! ## The output (R143 to R151) -/

/-- The defaults of a drive profile (R143): swing code, mask, bank. -/
def driveDefaults : Nat → Nat × Nat × List Int
  | 1 => (48, 2, [0, -32, 168, -56, 0, 0, 0, 0])
  | 2 => (32, 3, [0, -16, 208, -32, 0, 0, 0, 0])
  | _ => (24, 1, [0, -16, 224, -16, 0, 0, 0, 0])

/-- A drive profile is permitted in a mode (R143). -/
def driveOk (mode drive : Nat) : Bool :=
  match drive with
  | 0 => mode == 1 || mode == 2 || mode == 4 || mode == 5 || mode == 6
  | 1 => mode == 3
  | 2 => mode == 5
  | _ => false

/-- A number one unit nearer to another. -/
def nearer (x y : Int) : Int := if x < y then x + 1 else if y < x then x - 1 else x

/-- The skew offset the host asks for, in 0.5 ps (R150). -/
def State.skewTarget (s : State) (n : Nat) : Int := signedOf (s.rd Reg.CRS.TX_SKEW.LANE (courseOf n) (n % 8)) 8

/-- What passes at a 64-symbol transmit block boundary (R138, R144, R145, R146, R151): a pending bank with its mask,
one code of swing, one skew unit, the level trim, and the start of an output that nothing holds in idle. -/
def State.txBoundary (s : State) (n : Nat) : State :=
  if !s.courseOn (courseOf n) then s
  else
    let x := s.txOf n
    let s1 := match x.pend with
      | some (_, some m) => s.wr Reg.LN.TX_CTRL.MASK m n
      | _ => s
    let s2 := s1.setTx n { x with
      bank := (match x.pend with | some (c, _) => c | none => x.bank), pend := none
      swing := (nearer x.swing (s.rd Reg.LN.TX_CTRL.SWING n)).toNat
      outer := s.rd Reg.LN.TX_CTRL.LVL_OUTER n, skew := nearer x.skew (s.skewTarget n) }
    if !s2.txIdle n then s2.wr Reg.LN.TX_STAT.TX_ACTIVE 1 n else s2

/-- TX_OUTPUT_ENABLE (R147): RETIME ends at a block boundary, and the output leaves idle where no other cause holds. -/
def execTxOutputEnable (n : LaneNo) (s : State) : Host.Outcome State Fault Refusal :=
  .next (
    let x := s.txOf n
    if x.retime.isNone || !s.courseOn (courseOf n) then s
    else (s.setTx n { x with retime := none }).txBoundary n)

/-- The transmit side of a lane configuration (R140, R147): `fresh` is whether mode, constellation or drive profile
change, `idle` whether the lane was not enabled. -/
def State.txConfigure (s : State) (n drive : Nat) (fresh idle : Bool) : State :=
  let (swing, mask, bank) := driveDefaults drive
  let s1 := s.wr Reg.LN.TX_CTRL.DRIVE drive n
  let s2 :=
    if fresh then
      ((s1.wr Reg.LN.TX_CTRL.MASK mask n).wr Reg.LN.TX_CTRL.SWING swing n).wr Reg.LN.TX_STAT.FIR_REJECT 0 n
    else s1
  let x := s2.txOf n
  let x1 := if fresh then { x with bank := bank, stage := bank, pend := none, swing := swing } else x
  let x2 := { x1 with
    configured := true, frame := 0, path := x1.path.restart (fresh || idle || x.retime.isSome) }
  let x3 := if fresh || idle || x.retime.isSome then { x2 with retime := some s.time } else x2
  (s2.setTx n x3).txCheck n

/-! ## Test patterns (R152 to R155) -/

/-- The line generator inverts its next bit (R153). -/
def State.injectLine (s : State) (n : Nat) : State :=
  let x := s.txOf n
  (s.setTx n { x with path := { x.path with inject := true } }).emit (.injectBit 0 n)

/-- The fixed set of the near loop, with the held coefficients put aside (R155). -/
def State.startNear (s : State) (n : Nat) : State :=
  let x := s.rxOf n
  if x.nearSet.isSome then s
  else
    ((((s.setRx n { x with
      nearSet := some (s.rd Reg.LN.CTLE.SETTING n, s.rd Reg.LN.MLSE_CTRL.ALPHA1 n, s.rd Reg.LN.MLSE_CTRL.ALPHA2 n,
        x.taps)
      taps := unitTaps x.mainPos, bank := bankOf (unitTaps x.mainPos) }).wr Reg.LN.CTLE.SETTING 0 n).wr
        Reg.LN.MLSE_CTRL.ALPHA1 0 n).wr Reg.LN.MLSE_CTRL.ALPHA2 0 n)

/-- A write of `PRBS_CTRL` of a line lane (R152 to R155): outside MAINT, or in MB, enables and loops are ignored. A checker
that is turned off, changes its pattern or takes one that is not checked is unlocked and seeds itself anew. -/
def State.prbsWrite (s : State) (n v : Nat) : State :=
  let ok := s.lane n = 5 ∧ s.mode n ≠ 6
  let gen := if ok then bitsOf v 3 1 else 0
  let chk := if ok then bitsOf v 7 1 else 0
  let loop := if ok then bitsOf v 8 2 else 0
  let s1 := ((s.wr Reg.LN.PRBS_CTRL.GEN_PAT (bitsOf v 0 3) n).wr Reg.LN.PRBS_CTRL.GEN_EN gen n).wr
    Reg.LN.PRBS_CTRL.CHK_PAT (bitsOf v 4 3) n
  let s2 := ((s1.wr Reg.LN.PRBS_CTRL.CHK_EN chk n).setLoop n loop).wr Reg.LN.PRBS_CTRL.INJ_K (bitsOf v 10 6) n
  let again := chk = 0 ∨ bitsOf v 4 3 ≠ s.rd Reg.LN.PRBS_CTRL.CHK_PAT n ∨ 6 ≤ bitsOf v 4 3
  let s3 := if again then (s2.wr Reg.LN.PRBS_CTRL.CHK_LOCK 0 n).setChk n {} else s2
  let s3a := if gen = 1 ∧ (s.rd Reg.LN.PRBS_CTRL.GEN_EN n = 0 ∨ bitsOf v 0 3 ≠ s.rd Reg.LN.PRBS_CTRL.GEN_PAT n) then
    s3.genStart n (bitsOf v 0 3) else s3
  let s4 := if loop = 1 then s3a.startNear n else s3a.endNear n
  let s5 := if bitOf v 16 ∧ gen = 1 ∧ loop ≠ 2 then s4.injectLine n else s4
  if bitOf v 18 then s5.wr Reg.LN.PRBS_ERR.COUNT 0 n else s5

end Sys2Proof.Machine
end

