-- ==== Sys2Proof/Machine/Burst.lean ====
section
/-! DEFINITION. Bursts (06_burst_acquisition, R157 to R188; R340): the epoch of a course, its schedule banks, receiving
and transmitting bursts, exceptions, and the blocks of burst host framing. Times on the epoch grid are in ticks of
8.8154 ps. -/

namespace Sys2Proof.Machine

/-! ## Banks and the epoch (R164, R168, R170) -/

/-- The tick count of the KEEP timebase: 113.4375 ticks a nanosecond (R158). -/
def State.tick (s : State) : Nat := s.time * 1815 / 16

/-- The bank in force. -/
def State.bank (s : State) (c : Nat) : Option Bank :=
  if s.flag Reg.CRS.EPOCH_STAT.BANK c then (s.epochOf c).bank1 else (s.epochOf c).bank0

/-- The slots of a lane in a bank, in schedule order. -/
def bankLane (b : Bank) (n : Nat) : List Slot := ((b.slots.filter fun p => p.1 == n % 8).map fun p => p.2).flatten

/-- The receive and transmit slots of a lane in the bank in force. -/
def State.slotsOf (s : State) (n : Nat) (tx : Bool) : List Slot :=
  match s.bank (courseOf n) with
  | some b => (bankLane b n).filter fun t => t.tx == tx
  | none => []

/-- Some lane of the course is in MB. -/
def State.hasMb (s : State) (c : Nat) : Bool := (List.range 8).any fun i => s.mode (8 * c + i) == 6

/-- Ticks per symbol of a lane (R158). -/
def State.ticksPerSymbol (s : State) (n : Nat) : Nat := if s.rd Reg.LN.FMT_CFG.CONST n = 2 then 2 else 1

/-- The ticks a burst takes (R160, R163). -/
def burstTicks (u : Nat) (t : Slot) : Nat :=
  u * (64 * t.pre + 64 + (128 * u) * (t.len + (t.len - 1) / 1088))

/-- `EPOCH_STAT.STATE`: 0 OFF, 1 WAIT_SYNC, 2 RUN, 3 REBUILD. -/
def State.epochState (s : State) (c : Nat) : Nat := s.rd Reg.CRS.EPOCH_STAT.STATE c

/-- The epoch starts with the bank in force (R164): RUN at once without SYNC_EN or with FREE_START, else WAIT_SYNC. -/
def State.startEpoch (s : State) (c : Nat) (b : Bank) : State :=
  let x := s.epochOf c
  let s1 := s.setEpoch c { x with
    index := 0, boundary := s.tick, owed := -(b.len : Int), owedNext := 0, fresh := true, evaluated := none }
  (s1.wr Reg.CRS.EPOCH_CNT.COUNT 0 c).wr Reg.CRS.EPOCH_STAT.STATE (if !b.syncEn || b.freeStart then 2 else 1) c

/-- Source records whose ID left the schedule are lost (R177). -/
def State.pruneRecords (s : State) (n : Nat) : State :=
  let ids := (s.slotsOf n false).map fun t => t.src
  let x := s.bstOf n
  let r := x.recs.filter fun p => ids.contains p.1
  (s.setBst n { x with recs := r }).wr Reg.LN.BST_STAT.SOURCES_NARROW
    ((r.filter fun p => p.2.narrow).length) n

/-- A committed bank takes effect (R164, R170). -/
def State.activateBank (s : State) (c i : Nat) : State :=
  let s1 := ((s.wr Reg.CRS.EPOCH_STAT.BANK i c).wr Reg.CRS.EPOCH_STAT.COMMIT_PENDING 0 c).setEpoch c
    { s.epochOf c with pendingBank := none }
  match s1.bank c with
  | none => s1
  | some b =>
    let s2 := ((s1.wr Reg.CRS.EPOCH_CFG.SYNC_DIV (b.div - 1) c).wrB Reg.CRS.EPOCH_CFG.SYNC_EN b.syncEn c).wrB
      Reg.CRS.EPOCH_CFG.FREE_START b.freeStart c
    let s3 := (s2.wr Reg.CRS.EPOCH_LEN.TICKS b.len c).wr Reg.CRS.EPOCH_OFS.TICKS b.ofs c
    let s4 := (List.range 8).foldl (fun t j => t.pruneRecords (8 * c + j)) s3
    if !s4.hasMb c then s4
    else if s.epochState c = 0 then s4.startEpoch c b
    else if b.syncEn ∧ !b.freeStart ∧ s.rd Reg.CRS.EPOCH_CFG.SYNC_EN c = 0 then s4.wr Reg.CRS.EPOCH_STAT.STATE 1 c
    else if s.epochState c = 2 then s4
    else if !b.syncEn ∨ b.freeStart then s4.startEpoch c b
    else s4

/-- In OFF a committed bank takes effect at once (R170). -/
def State.commitOff (s : State) (c : Nat) : State :=
  match (s.epochOf c).pendingBank with
  | some (i, _) => s.activateBank c i
  | none => s

/-- The epoch follows the lanes of the course in MB (R164). -/
def State.epochRefresh (s : State) (c : Nat) : State :=
  if !s.hasMb c then
    (if s.epochState c = 0 then s else s.wr Reg.CRS.EPOCH_STAT.STATE 0 c).commitOff c
  else if s.epochState c = 0 ∧ s.courseOn c then
    match s.bank c with
    | some b => s.startEpoch c b
    | none => s
  else s

/-! ## SCHED_WRITE (R168, R169, R340) -/

/-- A number of `n` bytes at byte `at_` of an image. -/
def imageNat (img : List Byte) (at_ n : Nat) : Nat := leNat ((img.drop at_).take n)

/-- The slot entry at byte `at_` (R168), with whether its fixed-zero bytes are zero. -/
def parseSlot (img : List Byte) (at_ : Nat) : Slot × Bool :=
  let f := fun o n => imageNat img (at_ + o) n
  let tx := f 7 1 == 1
  ({ start := f 0 4, len := f 4 2, pre := f 6 1, tx := tx, src := f 8 2, slot := f 10 1, win := f 12 2 },
    decide (f 0 4 < 2 ^ 27) && decide (f 7 1 ≤ 1) && f 11 1 == 0 && f 14 2 == 0 && (!tx || (f 8 2 == 0 && f 12 2 == 0)))

/-- The image as a bank (R340); none: a malformed header, count or length. -/
def State.parseBank (s : State) (c : Nat) (img : List Byte) (len : Nat) : Option Bank :=
  let cnt := (List.range 8).map fun i => (imageNat img (16 + 4 * i) 1, imageNat img (17 + 4 * i) 1)
  let total := (cnt.map fun p => p.1 + p.2).foldl (· + ·) 0
  let starts := (List.range 8).map fun i => ((cnt.take i).map fun p => p.1 + p.2).foldl (· + ·) 0
  let slots := (List.range 8).map fun i =>
    (i, (List.range ((cnt.getD i (0, 0)).1 + (cnt.getD i (0, 0)).2)).map fun j =>
      (parseSlot img (48 + 16 * (starts.getD i 0 + j)), decide (j < (cnt.getD i (0, 0)).1)))
  let ok := decide (len = 48 + 16 * total) && imageNat img 10 6 == 0 && decide (imageNat img 9 1 < 4) &&
    (cnt.zipIdx.all fun p => decide (p.1.1 ≤ 64) && decide (p.1.2 ≤ 64) && imageNat img (18 + 4 * p.2) 2 == 0 &&
      (p.1.1 + p.1.2 == 0 || s.mode (8 * c + p.2) == 6)) &&
    (slots.all fun p => p.2.all fun q => q.1.2 && q.1.1.tx != q.2)
  if ok then
    some { len := imageNat img 0 4, ofs := imageNat img 4 4, div := imageNat img 8 1 + 1
           syncEn := imageNat img 9 1 % 2 == 1, freeStart := imageNat img 9 1 / 2 % 2 == 1
           slots := slots.map fun p => (p.1, p.2.map fun q => q.1.1) }
  else none

/-- The fields of a slot lie within their ranges (R168). -/
def slotFieldsOk (t : Slot) : Bool :=
  decide (1 ≤ t.len) && decide (t.len ≤ 16384) && decide (16 ≤ t.pre) && decide (t.pre ≤ 128) && decide (t.slot < 64) &&
    (t.tx || (decide (16 ≤ t.win) && decide (t.win ≤ 4096)))

/-- The spacing of the slots of one direction of a lane (R169): rules 3 and 4. -/
def spacingOk (u len : Nat) : List Slot → Bool
  | [] => true
  | [t] => decide (t.start + burstTicks u t + t.win + 512 * u + 128 ≤ len)
  | t :: t2 :: ts =>
    decide (t.start + burstTicks u t + t.win + 512 * u + t2.win ≤ t2.start) && decide (t.start ≤ t2.start) &&
      spacingOk u len (t2 :: ts)

/-- The bank meets R169. -/
def State.bankOk (s : State) (c : Nat) (b : Bank) : Bool :=
  decide (113438 ≤ b.len) && decide (b.len ≤ 113437500) && decide (b.ofs < b.len) &&
  b.slots.all fun p =>
    let u := s.ticksPerSymbol (8 * c + p.1)
    let rx : List Slot := p.2.filter fun (t : Slot) => !t.tx
    let tx : List Slot := p.2.filter fun (t : Slot) => t.tx
    let ids : List Slot → List Nat := fun l => l.map fun (t : Slot) => t.slot
    p.2.all (fun t => slotFieldsOk t && (u == 1 || t.start % 2 == 0)) && spacingOk u b.len rx && spacingOk u b.len tx &&
      (match rx with | t :: _ => decide (t.win ≤ t.start) | [] => true) &&
      (ids rx).eraseDups.length == rx.length && (ids tx).eraseDups.length == tx.length

def chkSchedWrite (s : State) (f : Flight) : Option Res :=
  let c := f.e.target.toNat
  let len := op32 f.e 24
  if !addrOk (op64 f.e 16) len then some { st := .badField }
  else
    match f.d.failAt with
    | some k => if k < len then some { st := .dmaFault } else none
    | none =>
      match s.parseBank c (f.d.data.take len) len with
      | some b => if s.bankOk c b then none else some { st := .badField }
      | none => some { st := .badField }

/-- The effect of SCHED_WRITE (R170, R340): the image becomes the inactive bank and is committed. -/
def runSchedWrite (s : State) (g : Origin) (f : Flight) : State :=
  let c := f.e.target.toNat
  match s.parseBank c (f.d.data.take (op32 f.e 24)) (op32 f.e 24) with
  | none => s.finishSt g .badField
  | some b =>
    let i := 1 - s.rd Reg.CRS.EPOCH_STAT.BANK c
    let x := s.epochOf c
    let x1 := if i = 1 then { x with bank1 := some b } else { x with bank0 := some b }
    let s1 := (s.setEpoch c { x1 with pendingBank := some (i, s.tick + 1024) }).wr
      Reg.CRS.EPOCH_STAT.COMMIT_PENDING 1 c
    (if s.epochState c = 0 then s1.activateBank c i else s1).finishSt g .ok

/-- SCHED_WRITE (R340). -/
def execSchedWrite (r : RingNo) (e : Entry) (d : Dma) (s : State) : Host.Outcome State Fault Refusal :=
  .next (s.serve .schedWrite r e d chkSchedWrite runSchedWrite)

/-! ## EPOCH_SYNC (R164 to R166) -/

/-- EPOCH_SLIP (R166). -/
def State.epochSlip (s : State) (c t : Nat) : State :=
  let s1 := (s.raise (courseSrc c 10) 0).wr Reg.CRS.EPOCH_STAT.STATE 3 c
  (s1.wr Reg.CRS.EPOCH_CNT.COUNT 0 c).setEpoch c { s1.epochOf c with slipAt := t, owed := 0, owedNext := 0 }

/-- An edge that defines the boundary: it comes `EPOCH_OFS` ticks later (R164). -/
def State.defineBoundary (s : State) (c t : Nat) (b : Bank) : State :=
  (s.setEpoch c { s.epochOf c with
    index := 0, boundary := t + b.ofs, owed := -(b.len : Int), owedNext := 0, fresh := true, evaluated := none }).wr
    Reg.CRS.EPOCH_STAT.STATE 2 c

/-- An edge at tick `t` in RUN with SYNC_EN (R165). -/
def State.evaluateEdge (s : State) (c t : Nat) (b : Bank) : State :=
  let x := s.epochOf c
  let nb : Int := x.boundary + b.len + x.owed
  let first : Int := if x.fresh then 0 else x.index + 1
  let z : Int := (t : Int) + b.ofs - nb + first * b.len
  let span : Int := b.div * b.len
  let k : Int := (2 * z + span) / (2 * span)
  let e : Int := z - k * span
  let key := k.toNat
  if x.evaluated = some key then s.count Reg.CRS.EPOCH_STAT.EXTRA_SYNC 1 c
  else
    let s1 := (s.setEpoch c { x with evaluated := some key }).wr Reg.CRS.EPOCH_STAT.LAST_ERR
      (patternOf (max (-32768) (min 32767 e)) 16) c
    if e.natAbs ≤ 128 then
      let late := decide (nb ≤ (t : Int) + 256)
      (s1.wr Reg.CRS.EPOCH_STAT.SYNC_AGE 0 c).setEpoch c { x with
        evaluated := some key, owed := if late then x.owed else x.owed + e
        owedNext := if late then x.owedNext + e else x.owedNext }
    else s1.epochSlip c t

/-- One course at an EPOCH_SYNC edge. -/
def State.syncEdge (s : State) (t c : Nat) : State :=
  match s.bank c with
  | none => s
  | some b =>
    if !s.courseOn c || !b.syncEn then s
    else
      match s.epochState c with
      | 1 => s.defineBoundary c t b
      | 2 => s.evaluateEdge c t b
      | 3 => if (s.epochOf c).slipAt + 1024 ≤ t then s.defineBoundary c t b else s
      | _ => s

/-- EPOCH_SYNC_EDGE (R165): a rising edge of EPOCH_SYNC, captured at tick `t`; every course judges it on its own
grid. -/
def execEpochSyncEdge (t : Nat) (s : State) : Host.Outcome State Fault Refusal :=
  .next ((List.range 8).foldl (fun u c => u.syncEdge t c) s)

/-! ## Exceptions and LOS in BURST (R159, R182) -/

/-- A burst exception: BURST_EXCEPTION is raised at the first of an epoch (R182). -/
def State.burstException (s : State) (n : Nat) : State :=
  let x := s.bstOf n
  if x.raised then s else (s.setBst n { x with raised := true }).raise (laneSrc n 5) 0

/-- The burst LOS at the end of an epoch (R159). -/
def State.burstLos (s : State) (n : Nat) : State :=
  let x := s.bstOf n
  let slots := (s.slotsOf n false).length
  if slots = 0 then s
  else
    let missed := slots ≤ x.rxDone.length ∧ !x.rxGood
    let k := if missed then x.missedEpochs + 1 else 0
    let lim := s.rd Reg.LN.BST_CTRL.LOS_EPOCHS n
    let s1 := s.setBst n { x with missedEpochs := k }
    if lim ≠ 0 ∧ lim ≤ k ∧ !s.flag Reg.LN.BST_STAT.LOS n then
      ((s1.wr Reg.LN.BST_STAT.LOS 1 n).raise (laneSrc n 0) 0).slicesSettle n
    else s1

/-- What an epoch boundary does for an MB lane. While the framer engine is replaced the lane's slots are suppressed,
and each epoch it misses is an exception (R18, R182). No epoch ends at the boundary that defines the grid;
elsewhere no burst crosses one (R169). -/
def State.laneBoundary (s : State) (n : Nat) (fresh : Bool) : State :=
  if s.mode n ≠ 6 ∨ s.lane n ≠ 4 then s
  else
    let s1 := if s.engMapOf (framerOf (courseOf n)) = .running && !fresh then s.burstLos n else s
    let s2 := s1.setBst n { s1.bstOf n with
      raised := false, rxDone := [], rxGood := false, txDone := [], txSlot := if fresh then (s1.bstOf n).txSlot else none }
    if s.engMapOf (framerOf (courseOf n)) ≠ .running ∧ ((s.slotsOf n false).length + (s.slotsOf n true).length ≠ 0) then
      s2.burstException n
    else s2

/-- EPOCH_BOUNDARY (R164 to R167, R170): the next boundary of the course's grid passes. -/
def execEpochBoundary (c : CourseNo) (s : State) : Host.Outcome State Fault Refusal :=
  .next (
    match s.bank c with
    | none => s
    | some b =>
      if s.epochState c ≠ 2 ∨ !s.courseOn c then s
      else
        let x := s.epochOf c
        let nb := ((x.boundary : Int) + b.len + x.owed).toNat
        let s1 := s.setEpoch c { x with
          boundary := nb, index := if x.fresh then 0 else x.index + 1, fresh := false, owed := x.owedNext, owedNext := 0 }
        let s2 := if x.fresh then s1.wr Reg.CRS.EPOCH_CNT.COUNT 0 c
          else (s1.countWrap Reg.CRS.EPOCH_CNT.COUNT 1 c).count Reg.CRS.EPOCH_STAT.SYNC_AGE 1 c
        let s3 := (List.range 8).foldl (fun t j => t.laneBoundary (8 * c.val + j) x.fresh) s2
        let s4 := match x.pendingBank with
          | some (i, after) => if x.fresh ∨ after ≤ nb then s3.activateBank c i else s3
          | none => s3
        if s4.flag Reg.GLB.EPOCH_OUT_CTRL.EN && s4.rd Reg.GLB.EPOCH_OUT_CTRL.SRC == c.val then
          s4.emit (.epochPulse c (max 1 (s4.rd Reg.GLB.EPOCH_OUT_CTRL.WIDTH)))
        else s4)

/-! ## Blocks of burst host framing (R185, R187) -/

/-- A field of a block: `v` in bits `a` to `a + w - 1`, bit 0 sent first. -/
def blockField (a w v : Nat) : Nat := (v % 2 ^ w) * 2 ^ (256 - a - w)

/-- A block of a type with its body (bits 72 to 207) and the CRC over bits 64 to 207. -/
def framedBlock (ty body : Nat) : Nat :=
  let b := blockField 0 64 0x6B1D92E4C75A38F0 + blockField 64 8 ty + body
  b + blockField 208 16 (crc16 144 (bitsOf b 48 144))

/-- The HEADER of a record (R187). -/
def State.burstHeader (s : State) (n len : Nat) (missed : Bool) (t : Slot) : Nat :=
  let x := s.bstOf n
  let ep := blockField 128 16 (s.rd Reg.CRS.EPOCH_CNT.COUNT (courseOf n) % 65536)
  let base := blockField 72 6 t.slot + blockField 80 16 t.src + blockField 96 16 x.seq + ep
  framedBlock 0x1E (if missed then base
    else base + blockField 78 1 (bitVal x.reacq) + blockField 79 1 (bitVal x.narrow) + blockField 112 16 len +
      blockField 144 8 x.qual + blockField 152 16 x.freq + blockField 168 16 x.arrival + blockField 184 8 x.gain)

/-- The TRAILER of a record (R187). -/
def State.burstTrailer (s : State) (n status : Nat) : Nat :=
  let x := s.bstOf n
  framedBlock 0xE1 (blockField 72 8 status + blockField 80 16 x.seq + blockField 96 16 x.cwLine +
    blockField 112 16 x.cwUncorr + blockField 128 24 (min (2 ^ 24 - 1) x.bits))

/-! ## Receiving (R171 to R181) -/

def State.rxPhase (s : State) (n : Nat) : Nat := s.rd Reg.LN.BST_STAT.RX_PHASE n
def State.setPhase6 (s : State) (n p : Nat) : State := s.wr Reg.LN.BST_STAT.RX_PHASE p n

/-- The framer engine of the lane's course runs; while it is replaced or unmapped no burst is delivered (R18, R19). -/
def State.framerUp (s : State) (n : Nat) : Bool := s.engMapOf (framerOf (courseOf n)) == .running

/-- The epoch grid gives the lane its slots (R164, R170): BURST, epoch in RUN. -/
def State.slotsDue (s : State) (n : Nat) : Bool :=
  s.lane n == 4 && s.mode n == 6 && s.courseOn (courseOf n) && s.epochState (courseOf n) == 2

/-- Slots of the lane run: they are due and not suppressed (R18). -/
def State.slotsRun (s : State) (n : Nat) : Bool := s.slotsDue n && s.framerUp n

/-- The closing time C of a receive slot in ticks after the epoch boundary (R171). -/
def State.closing (s : State) (n : Nat) (t : Slot) : Nat := t.start + t.win + s.ticksPerSymbol n * (64 * t.pre - 512)

/-- Ticks since the boundary of the epoch in progress. -/
def State.epochTick (s : State) (n : Nat) : Nat := s.tick - (s.epochOf (courseOf n)).boundary

/-- The source record of an ID. -/
def State.srcRec (s : State) (n src : Nat) : SrcRec :=
  (((s.bstOf n).recs.find? fun p => p.1 == src).map fun p => p.2).getD {}

/-- The onset of a burst (R171, R172, R177): gain and frequency start from the source's record in narrow mode, else from
`AGC_START` and 0, and the AGC counts its blocks. -/
def State.startOnset (s : State) (n : Nat) (t : Slot) : State :=
  let x := s.bstOf n
  let r := s.srcRec n t.src
  let nar := r.narrow && !s.flag Reg.LN.BST_CTRL.FORCE_WIDE n && !x.reacq
  let g := if nar then r.vga else s.rd Reg.LN.BST_DET.AGC_START n
  let s1 := s.setBst n { x with narrow := nar, onset := false, blocks := 0, okBlocks := 0, arm := none, lastRms := none }
  (((s1.wrB Reg.LN.BST_STAT.NARROW nar n).wr Reg.LN.AGC.GAIN (min 240 g) n).wr Reg.LN.CDR.FREQ
    (if nar then r.freq else 0) n).setPhase6 n 2

/-- The receiver is armed for a slot (R171); a trigger kept from the end of the burst before counts as its onset (R181). -/
def State.armSlot (s : State) (n : Nat) (t : Slot) : State :=
  let s1 := ((s.setBst n { s.bstOf n with slot := some t, reacq := false }).wr Reg.LN.BST_STAT.SLOT t.slot n).setPhase6 n 1
  if (s.bstOf n).onset then s1.startOnset n t else s1

/-- SLOT_ARM (R171): the window of a receive slot opens; a burst in progress goes on undisturbed, and the slot is armed
when it ends. A slot suppressed under R18 is an exception (R182). -/
def execSlotArm (n : LaneNo) (i : Fin 64) (s : State) : Host.Outcome State Fault Refusal :=
  .next (
    match (s.slotsOf n false).find? fun t => t.slot == i.val with
    | none => s
    | some t =>
      if !s.slotsDue n then s
      else if !s.framerUp n then s.burstException n
      else if 2 ≤ s.rxPhase n ∧ s.rxPhase n ≤ 4 then s.setBst n { s.bstOf n with next := some t }
      else s.armSlot n t)

/-- BURST_ONSET (R171, R172): the level, in mV, rises above `ONSET_THR` while the receiver is armed. -/
def execBurstOnset (n : LaneNo) (level : Nat) (s : State) : Host.Outcome State Fault Refusal :=
  .next (
    match (s.bstOf n).slot with
    | none => s
    | some t =>
      if (s.rxPhase n ≠ 1 ∧ s.rxPhase n ≠ 5) ∨ level ≤ s.rd Reg.LN.BST_CTRL.ONSET_THR n ∨ s.lane n ≠ 4 ∨
          !s.framerUp n then s
      else s.startOnset n t)

/-- BURST_DETECT (R173): the FFE outputs up to one symbol after a picot peak, with its time since the onset. Where it
declares detection, the AGC freezes, and the record's or the common settings are loaded (R177). -/
def execBurstDetect (n : LaneNo) (m : PeakIn) (s : State) : Host.Outcome State Fault Refusal :=
  .next (
    let x := s.bstOf n
    match x.slot with
    | none => s
    | some t =>
      if s.rxPhase n ≠ 2 ∨ s.lane n ≠ 4 ∨ !s.framerUp n ∨
          !detects m.r m.since (x.arm.getD 256) (s.rd Reg.LN.BST_DET.DET_THR n) (confOf (s.rd Reg.LN.BST_DET.DET_CONF n)) then s
      else
        let k := s.srcRec n t.src
        let s1 := (s.setBst n { x with gain := min 240 (s.rd Reg.LN.AGC.GAIN n) }).setPhase6 n 3
        let const := s.rd Reg.LN.FMT_CFG.CONST n
        if x.narrow then
          (((s1.setTarget n k.a1 k.a2).setSoft n k.soft).setRx n { s1.rxOf n with levels := k.levels }).setTaps n k.taps
        else
          (((s1.setTarget n (if const = 2 then 0 else 4) 0).setSoft n 40).setRx n
            { s1.rxOf n with levels := nominalLevels const }).setTaps n (unitTaps (s1.rxOf n).mainPos))

/-- Burst control blocks go to H(2n), where they wait for the symbols (R185, R187). -/
def State.toCtl (s : State) (n : Nat) (words : List Nat) : State :=
  let x := s.htxOf (2 * n)
  (s.setHtx (2 * n) { x with queue := x.queue ++ words.flatMap (natBits 256) }).emit (.ctlBlock (2 * n) words)

/-- SD_MATCH (R174, R188): where the start delimiter is matched, frequency, phase, quality and arrival freeze, and the
HEADER goes to H(2n). `peaks`: the fractional positions of the picot peaks since detection in 2^-20 symbols; `sd`: the FFE
outputs from one symbol before the place of the SD on. The frequency is the start frequency and the slope of the
positions. -/
def execSdMatch (n : LaneNo) (peaks sd : List Int) (m : SdIn) (s : State) : Host.Outcome State Fault Refusal :=
  .next (
    let x := s.bstOf n
    match x.slot with
    | none => s
    | some t =>
      if s.rxPhase n ≠ 3 ∨ s.lane n ≠ 4 ∨ !s.framerUp n ∨ !sdMatches sd then s
      else
        let fit := peakFit peaks
        let freq := patternOf (max (-3000) (min 3000 (signedOf (s.rd Reg.LN.CDR.FREQ n) 16 + fit.1))) 16
        let q := qualOf m.n1 m.n0 m.s1 m.s0 m.sq s.free
        let s1 := (s.freed.setBst n { x with
          freq := freq, qual := q, arrival := patternOf m.arrival 16, cwLine := 0, cwFill := 0, cwUncorr := 0
          bits := 0 }).setRx n { s.rxOf n with cdrFrac := 0, cdrPhase := fit.2 % 2 ^ 20 }
        let s2 := ((s1.wr Reg.LN.BST_LAST.QUAL q n).wr Reg.LN.BST_LAST.ARRIVAL (patternOf m.arrival 16) n).wr
          Reg.LN.CDR.FREQ freq n
        (s2.toCtl n [s2.burstHeader n t.len false t]).setPhase6 n 4)

/-- A receive slot has ended. -/
def State.slotEnded (s : State) (n : Nat) (good : Bool) : State :=
  let x := s.bstOf n
  match x.slot with
  | none => s
  | some t => s.setBst n { x with
      rxDone := if x.rxDone.contains t.slot then x.rxDone else x.rxDone ++ [t.slot], rxGood := x.rxGood || good }

/-- A receive slot is MISSED (R181): counted, an exception, and with `MISS_REC` a record of its own. -/
def State.slotMissed (s : State) (n : Nat) : State :=
  let x := s.bstOf n
  match x.slot with
  | none => s
  | some t =>
    let s1 := ((s.slotEnded n false).count Reg.LN.BST_EXC_B.MISSED 1 n).burstException n
    let s2 :=
      if s1.flag Reg.LN.BST_CTRL.MISS_REC n then
        let y := s1.setBst n { s1.bstOf n with cwLine := 0, cwUncorr := 0, bits := 0 }
        let z := y.toCtl n [y.burstHeader n 0 true t, y.burstTrailer n 5]
        (z.setBst n { z.bstOf n with seq := (x.seq + 1) % 65536 }).wr Reg.LN.BST_LAST.STATUS 5 n
      else s1
    (s2.setBst n { s2.bstOf n with slot := none }).setPhase6 n 0

/-- The reception of a slot is over: the receiver is QUIET, or is armed for the slot whose window opened meanwhile; one
whose closing time has passed by then is MISSED (R171, R181). -/
def State.receiverFree (s : State) (n : Nat) : State :=
  let s1 := ((s.setBst n { s.bstOf n with slot := none, next := none }).setPhase6 n 0).swapIfDue n
  match (s.bstOf n).next with
  | none => s1
  | some t =>
    if s.closing n t < s.epochTick n then
      ((s1.setBst n { s1.bstOf n with slot := some t, reacq := false }).wr Reg.LN.BST_STAT.SLOT t.slot n).slotMissed n
    else s1.armSlot n t

/-- The receiver re-arms for the same slot (R178, R180): REARM for at most 16 symbols, then ARMED. A slot whose window
opened meanwhile is armed in its place (R171). -/
def State.rearm (s : State) (n : Nat) : State :=
  if (s.bstOf n).next.isSome then s.receiverFree n
  else ((s.setBst n { s.bstOf n with reacq := true, rearmAt := s.time }).setPhase6 n 5).swapIfDue n

/-- FALSE_START (R178) at `at_` ticks after the epoch boundary: counted, an exception, and back to ARMED while the closing
time has not passed. -/
def execFalseStart (n : LaneNo) (at_ : Int) (s : State) : Host.Outcome State Fault Refusal :=
  .next (
    match (s.bstOf n).slot with
    | none => s
    | some t =>
      if s.rxPhase n ≠ 3 ∨ s.lane n ≠ 4 then s
      else
        let s1 := (s.count Reg.LN.BST_EXC_A.FALSE_START 1 n).burstException n
        if (s.closing n t : Int) < at_ then (s1.slotMissed n).receiverFree n else s1.rearm n)

/-- Acquisition goes on from step 3 of R175: the AGC runs, and the detector is armed (R179, R180). -/
def State.fromStep3 (s : State) (n : Nat) : State :=
  (s.setBst n { s.bstOf n with arm := some 0 }).setPhase6 n 2

/-- ACQ_RESTART (R179): where the peak of the second correlator reaches `DET_THR` and is stronger by `RESTART_DB`,
acquisition restarts on it. -/
def execAcqRestart (m : RestartIn) (s : State) : Host.Outcome State Fault Refusal :=
  .next (
    let n := m.n.val
    let c := correlate (signs picotBits) m.sec
    let old := correlate (signs picotBits) m.prim
    if s.rxPhase n ≠ 3 ∨ s.lane n ≠ 4 ∨ !atLeast c (s.rd Reg.LN.BST_DET.DET_THR n) 64 ∨
        !stronger (max 1 (s.rd Reg.LN.BST_DET.RESTART_DB n)) (c.1.natAbs ^ 2) (old.1.natAbs ^ 2) then s
    else (s.count Reg.LN.BST_EXC_A.RESTART 1 n).fromStep3 n)

/-- The source record after a burst (R177): wide and narrow mode. -/
def recAfter (r : SrcRec) (ok : Bool) (q limit : Nat) : SrcRec :=
  if ok then
    let g := if limit ≤ q then r.good + 1 else 0
    { r with good := min 4 g, bad := 0, narrow := r.narrow || decide (4 ≤ g) }
  else { r with good := 0, bad := min 2 (r.bad + 1), narrow := r.narrow && decide (r.bad + 1 < 2) }

/-- Put a source record. -/
def State.putRec (s : State) (n src : Nat) (r : SrcRec) : State :=
  let x := s.bstOf n
  let rs := (x.recs.filter fun p => p.1 != src) ++ [(src, r)]
  (s.setBst n { x with recs := rs }).wr Reg.LN.BST_STAT.SOURCES_NARROW ((rs.filter fun p => p.2.narrow).length) n

/-- A burst in its payload ends with a status (R176, R180, R181): what was not delivered is filled, the TRAILER
follows. -/
def State.endBurst (s : State) (n status : Nat) : State :=
  let x := s.bstOf n
  match x.slot with
  | none => s
  | some t =>
    let left := s.hostCwBits n * (t.len - (x.cwLine + x.cwFill))
    let f := s.rxFill n left
    let s1 := if left = 0 then s else f.2.toHost n 0 left f.1
    let s2 := (s1.toCtl n [s1.burstTrailer n status]).wr Reg.LN.BST_LAST.STATUS status n
    let s3 := (s2.setBst n { s2.bstOf n with seq := (x.seq + 1) % 65536 }).slotEnded n true
    let r := recAfter (s3.srcRec n t.src) (status == 0) x.qual (s.rd Reg.LN.BST_CTRL.NARROW_Q n)
    let s4 := s3.putRec n t.src (if s.flag Reg.LN.BST_CTRL.FORCE_WIDE n then { r with narrow := false, good := 0 } else r)
    if status = 0 then
      ((s4.countWrap Reg.LN.BST_BURSTS.OK 1 n).wr Reg.LN.BST_STAT.LOS 0 n).setBst n
        { s4.bstOf n with missedEpochs := 0 }
    else s4.burstException n

/-- A level exceeds the one at which the AGC froze by more than `d` × 0.5 dB (R180): the level and gain of the last AGC
block, brought to the frozen gain `g`; without a block, the target. -/
def aboveFrozen (a target g d : Nat) (last : Option (Nat × Nat)) : Bool :=
  let b := last.getD (target, g)
  decide (b.1 ^ 160 * 10 ^ (g + 4 * d) < a ^ 160 * 10 ^ b.2)

/-- The trigger of the policy in force (R180): HOLD, 32 levels in a row above the frozen one; CAPTURE, a single peak outside
BMB and ED. -/
def State.policyTriggers (s : State) (n : Nat) (rms : List Nat) (r : List Int) (mark : Bool) : Bool :=
  if s.flag Reg.LN.BST_CTRL.POLICY n then
    !mark && decide (64 ≤ r.length) && atLeast (correlate (signs picotBits) r) (s.rd Reg.LN.BST_DET.CAP_THR n) 64
  else
    let x := s.bstOf n
    decide (32 ≤ rms.length) && rms.all fun a =>
      aboveFrozen a (s.rd Reg.LN.AGC.TARGET n * 256) x.gain (max 1 (s.rd Reg.LN.BST_CTRL.OVL_DB n)) x.lastRms

/-- BURST_POLICY_TRIGGER (R180): a trigger ends the burst; with the last codeword already in, the burst ends OK
and the trigger is kept as an onset for the next window (R181). -/
def execBurstPolicyTrigger (m : TriggerIn) (s : State) : Host.Outcome State Fault Refusal :=
  .next (
    let n := m.n.val
    let x := s.bstOf n
    match x.slot with
    | none => s
    | some t =>
      if s.rxPhase n ≠ 4 ∨ s.lane n ≠ 4 ∨ !s.policyTriggers n m.rms m.r m.mark then s
      else if t.len ≤ x.cwLine + x.cwFill then
        let s1 := s.endBurst n 0
        (s1.setBst n { s1.bstOf n with onset := true }).receiverFree n
      else if s.flag Reg.LN.BST_CTRL.POLICY n then
        let s1 := (s.count Reg.LN.BST_EXC_A.PREEMPTED 1 n).endBurst n 2
        ((s1.setBst n { s1.bstOf n with reacq := true, narrow := false }).wr Reg.LN.BST_STAT.NARROW 0 n).fromStep3 n
      else ((s.count Reg.LN.BST_EXC_A.OVERLAP 1 n).endBurst n 1).rearm n)

/-- BURST_TRUNCATED (R181): 32 levels in a row below `ONSET_THR` end the burst. -/
def execBurstTruncated (m : LevelsIn) (s : State) : Host.Outcome State Fault Refusal :=
  .next (
    let n := m.n.val
    if s.rxPhase n ≠ 4 ∨ s.lane n ≠ 4 ∨ m.levels.length < 32 ∨
        m.levels.any (fun v => decide (s.rd Reg.LN.BST_CTRL.ONSET_THR n ≤ v)) then s
    else ((s.count Reg.LN.BST_EXC_B.TRUNCATED 1 n).endBurst n 3).receiverFree n)

/-- What the lane engine learns from an OK burst of a source (R84, R88, R91, R177); a freeze bit keeps what it holds (R92). -/
def State.learnSource (s : State) (n src : Nat) (g lev : List Int) (p95 : Nat) : State :=
  let r := s.srcRec n src
  let x := s.rxOf n
  let mu := muOf (s.rd Reg.LN.FFE_CTRL.MU_TRK n)
  let taps := x.taps.zipIdx.map fun p => tapUpdate mu (s.rd Reg.LN.FFE_CTRL.LEAK n) p.1 (g.getD p.2 0)
  let cur := s.rd Reg.LN.MLSE_CTRL.SOFT_SCALE n
  if s.laneEngineOn n then
    s.putRec n src { r with
      vga := (s.bstOf n).gain, freq := (s.bstOf n).freq, taps := if s.mayTap n then taps else x.taps
      a1 := s.rd Reg.LN.MLSE_CTRL.ALPHA1 n, a2 := s.rd Reg.LN.MLSE_CTRL.ALPHA2 n
      levels := if s.flag Reg.LN.RX_CTRL.LEVEL_FREEZE n then x.levels
        else x.levels.zipIdx.map fun p => p.1 + (lev.getD p.2 0) / 2 ^ 10
      soft := if s.flag Reg.LN.RX_CTRL.SOFT_FREEZE n || !s.flag Reg.LN.MLSE_CTRL.SOFT_AUTO n then cur
        else max (cur - cur / 8) (min (cur + cur / 8) (softTarget p95)) }
  else s

/-- ED_TEST (R176): the FFE outputs of the 32 symbols after L codewords are tested for the end delimiter; the source's record
learns from an OK burst. -/
def execEdTest (n : LaneNo) (r : List Int) (g lev : List Int) (p95 : Nat) (s : State) :
    Host.Outcome State Fault Refusal :=
  .next (
    let x := s.bstOf n
    match x.slot with
    | none => s
    | some t =>
      if s.rxPhase n ≠ 4 ∨ s.lane n ≠ 4 ∨ x.cwLine + x.cwFill < t.len then s
      else
        (if edMatches r then (s.endBurst n 0).learnSource n t.src g lev p95
          else (s.count Reg.LN.BST_EXC_B.NO_END 1 n).endBurst n 4).receiverFree n)

/-- SLOT_MISSED (R181): the closing time passes with no acquisition in progress. While the framer is replaced the slot is a
suppressed one, of which nothing is delivered (R18, R182). -/
def execSlotMissed (n : LaneNo) (s : State) : Host.Outcome State Fault Refusal :=
  .next (
    if (s.rxPhase n ≠ 1 ∧ s.rxPhase n ≠ 5) ∨ s.lane n ≠ 4 then s
    else if !s.framerUp n then
      ((s.setBst n { s.bstOf n with slot := none }).setPhase6 n 0).burstException n
    else if (s.bstOf n).reacq ∧ (s.bstOf n).rxDone.contains (((s.bstOf n).slot.map fun t => t.slot).getD 64) then
      (s.setBst n { s.bstOf n with slot := none }).setPhase6 n 0
    else s.slotMissed n)

/-! ## Transmitting (R183, R184) -/

/-- The transmit slot due next: the first one of the schedule not yet sent in this epoch. -/
def State.txDue (s : State) (n : Nat) : Option Slot :=
  (s.slotsOf n true).find? fun t => !(s.bstOf n).txDone.contains t.slot

/-- The sync word of the burst host framing (R185). -/
def syncWord : Nat := 0x6B1D92E4C75A38F0

/-- The framing receiver at a 64-bit word of an expected position (R185): three sync words in a row lock it, four missing
ones in a row unlock it; `k` counts them. -/
def syncStep (lock : Bool) (k w : Nat) : Bool × Nat :=
  if (w == syncWord) == lock then (lock, 0)
  else if (if lock then 4 else 3) ≤ k + 1 then (!lock, 0) else (lock, k + 1)

/-- HOST_FRAMING_LOCK (R185): the words at positions 256 bits apart where a block is expected, outside payload, pass the
burst-framing receiver, which gains or loses lock. -/
def execHostFramingLock (n : LaneNo) (words : List Nat) (s : State) : Host.Outcome State Fault Refusal :=
  .next (
    if s.lane n ≠ 4 then s
    else
      let x := s.bstOf n
      let q := words.foldl (fun (q : Bool × Nat) w => syncStep q.1 q.2 w) (x.hostLock, x.sync)
      s.setBst n { x with hostLock := q.1, sync := q.2 })

/-- TX_HEADER_RECEIVED (R184, R187): a 256-bit block from the host whose last bit reaches the balls `at_` ticks after
the epoch boundary. -/
def execTxHeaderReceived (n : LaneNo) (block : Nat) (at_ : Int) (s : State) : Host.Outcome State Fault Refusal :=
  .next (
    let x := s.bstOf n
    let f := fun a w => bitsOf block (256 - a - w) w
    if !s.slotsRun n || !x.hostLock then s
    else if f 64 8 = 0 then s
    else
      let bad := (s.count Reg.LN.BST_EXC_C.TX_BAD 1 n).burstException n
      match s.txDue n with
      | none => bad
      | some t =>
        if f 64 8 ≠ 0x2D ∨ f 208 16 ≠ crc16 144 (bitsOf block 48 144) ∨ f 72 6 ≠ t.slot ∨ f 80 16 ≠ t.len ∨
            x.txHdr.isSome then bad
        else if (t.start : Int) + s.ticksPerSymbol n * (64 * t.pre) - 4096 < at_ then
          (s.count Reg.LN.BST_EXC_C.TX_LATE 1 n).burstException n
        else s.setBst n { x with txHdr := some t.slot })

/-- A transmit burst begins (R160, R183): its preamble is the next the path forms. -/
def State.startTxBurst (s : State) (n : Nat) (t : Slot) : State :=
  let x := s.txOf n
  s.setTx n { x with path := { x.path with unit := 0, bits := [], burst := some (t.len, t.pre) } }

/-- TX_SLOT_START (R183, R184): the start of a transmit slot; without a valid header the slot sends quiet fill, and one
suppressed under R18 is an exception (R182). -/
def execTxSlotStart (n : LaneNo) (i : Fin 64) (s : State) : Host.Outcome State Fault Refusal :=
  .next (
    let x := s.bstOf n
    if !s.slotsDue n || x.txDone.contains i.val then s
    else
      match (s.slotsOf n true).find? fun t => t.slot == i.val with
      | none => s
      | some t =>
        if !s.framerUp n then s.burstException n
        else
          let s1 := s.setBst n { x with
            txDone := x.txDone ++ [i.val], txHdr := none, txSlot := if x.txHdr = some i.val then some t else none }
          if x.txHdr = some i.val then s1.startTxBurst n t
          else (s1.count Reg.LN.BST_EXC_B.TX_MISSED 1 n).burstException n)

/-- TX_UNDERRUN (R184): payload is missing when a codeword must be encoded; the codeword carries fill. -/
def execTxUnderrun (n : LaneNo) (s : State) : Host.Outcome State Fault Refusal :=
  .next (
    if s.lane n ≠ 4 ∨ (s.bstOf n).txSlot.isNone then s
    else
      let s1 := s.seedPath n
      let x := s1.txOf n
      ((s1.setTx n { x with path := { x.path with fillDue := x.path.fillDue + 1 } }).count Reg.LN.BST_EXC_C.TX_UNDERRUN 1
        n).burstException n)

end Sys2Proof.Machine
end

