-- ==== Sys2Proof/Machine/LaneCmds.lean ====
section
/-! DEFINITION. The lane configuration commands (R335, R336): LANE_CONFIG and LANE_STATE. -/

namespace Sys2Proof.Machine

/-- The mode is enabled by the fused grade (R2, R497). -/
def State.modeEnabled (s : State) (m : Nat) : Bool := m == 0 || bitOf (s.rd Reg.GLB.CAP.MODES) (m - 1)

/-- The constellation of a mode (R64). -/
def constOf (m : Nat) (nrz : Bool) : Nat := if m = 5 then 1 else if m = 6 ∧ nrz then 2 else 0

def chkLaneConfig (s : State) (f : Flight) : Option Res :=
  let n := f.e.target.toNat
  let m := opByte f.e 16
  let b := fun i => opBits f.e 17 i 1 == 1
  let st := s.lane n
  let bad :=
    decide (6 < m) || !s.modeEnabled m || st == 5 || st == 6 ||
    (if m = 0 then opByte f.e 17 != 0 || opByte f.e 18 != 0
     else
      (b 0 && m != 3 && m != 4) || !driveOk m (opBits f.e 17 4 2) || (b 2 && m == 6) || (b 3 && m != 6) ||
        (b 1 && (m == 1 || m == 6)))
  if bad then some { st := .badField } else none

/-- `FMT_CFG` as a word (R64). -/
def State.fmtCfg (s : State) (n : Nat) : Nat :=
  s.mode n + 16 * s.rd Reg.LN.FMT_CFG.CONST n + 64 * s.rd Reg.LN.FMT_CFG.PRECODE n +
    128 * s.rd Reg.LN.FMT_CFG.INNER_BYPASS n + 256 * s.chaseL n + 4096 * s.rd Reg.LN.FMT_CFG.OCM_EN n

/-- The status fields of the Isyon format read zero in the other modes, and no constellation is recommended (R38). -/
def State.clearIsyon (s : State) (n : Nat) : State :=
  ([Reg.LN.FMT_STAT.SF_PHASE, Reg.LN.FMT_STAT.FAR_RDI, Reg.LN.FMT_STAT.FAR_DEGRADE, Reg.LN.FMT_STAT.FAR_SRC_FAULT,
    Reg.LN.FMT_STAT.FAR_LANE, Reg.LN.FMT_STAT.FAR_CONST, Reg.LN.FMT_STAT.DESKEW, Reg.LN.FMT_STAT.SKEW_OVR,
    Reg.LN.CONST_ADV.MARGIN_P4, Reg.LN.CONST_ADV.MARGIN_P6, Reg.LN.APB_CNT.CRC_ERR,
    Reg.LN.APB_CNT.ALIGN_LOSS].foldl (fun (t : State) (f : Fld) => t.wr f 0 n) s).wr Reg.LN.CONST_ADV.REC 3 n

/-- The configuration fields in force (R64). -/
def State.setFmt (s0 : State) (n m : Nat) (pre byp ocm nrz : Bool) : State :=
  let s := if isyon m then s0 else s0.clearIsyon n
  let s1 := ((s.wr Reg.LN.FMT_CFG.MODE m n).wr Reg.LN.FMT_CFG.CONST (constOf m nrz) n).wrB Reg.LN.FMT_CFG.PRECODE pre n
  (s1.wrB Reg.LN.FMT_CFG.INNER_BYPASS byp n).wrB Reg.LN.FMT_CFG.OCM_EN ocm n

/-- Host controls a lane configuration sets on a host lane (R216, R221, R223). -/
def State.setHostCfg (s : State) (k m prof : Nat) (train req : Bool) : State :=
  let s1 := (s.wr Reg.HL.CTRL.PROFILE prof k).wrB Reg.HL.TRAIN_CTRL.EN train k
  ((s1.wrB Reg.HL.TRAIN_CTRL.PRECODE_REQ req k).wr Reg.HL.TRAIN_STAT.ATTEMPTS 0 k).wrB Reg.HL.STAT.RATE (m == 1) k

/-- A host lane that was already past IDLE retrains where R224 asks. -/
def State.hostReconfigure (s : State) (k : Nat) (old : State) : State :=
  let was := old.rd Reg.HL.STAT.STATE k
  let changed := old.rd Reg.HL.STAT.RATE k != s.rd Reg.HL.STAT.RATE k ||
    old.rd Reg.HL.CTRL.PROFILE k != s.rd Reg.HL.CTRL.PROFILE k ||
    old.rd Reg.HL.TRAIN_CTRL.PRECODE_REQ k != s.rd Reg.HL.TRAIN_CTRL.PRECODE_REQ k || was != 3
  if was < 2 ∨ s.hostTarget k ≠ 3 ∨ !changed then s
  else if s.flag Reg.HL.TRAIN_CTRL.EN k ∧ s.mode (k / 2) ≠ 1 then s.startTraining k
  else (s.setHost k { s.hostOf k with training := false, restartAt := none }).enterData k false

/-- Counters and flags a lane configuration starts afresh (R73, R106). -/
def State.clearCounts (s : State) (n : Nat) : State :=
  let s1 := ((s.wr Reg.LN.RX_STAT.ACQ_RETRY 0 n).wr Reg.LN.DEC_CW.COUNT 0 n).wr Reg.LN.DEC_CORR.COUNT 0 n
  let s2 := (s1.wr Reg.LN.DEC_UNCORR.COUNT 0 n).wr Reg.LN.FMT_STAT.OCM_LOCK 0 n
  s2.setRx n { s2.rxOf n with cw0 := 0, corr0 := 0, uncorr0 := 0 }

/-- The CTLE setting of an MB lane (R177). -/
def State.burstCtle (s : State) (n : Nat) : State :=
  s.wr Reg.LN.CTLE.SETTING (s.clampCtle n (if s.rd Reg.LN.FMT_CFG.CONST n = 2 then 4 else 6)) n

/-- A lane enters BURST from a configuration (R157). -/
def State.enterBurst (s : State) (n : Nat) : State :=
  let s1 := (s.dropLocks n).burstCtle n
  (s1.endBursts n).setLane n 4

/-- The effect of LANE_CONFIG (R335). With MODE 0 the FIR banks, DRIVE and FIR_REJECT stay as they are (R140; DESIGN CHOICE,
notes/assumptions/162). -/
def runLaneConfig (s : State) (g : Origin) (f : Flight) : State :=
  let n := f.e.target.toNat
  let m := opByte f.e 16
  let b := fun i => opBits f.e 17 i 1 == 1
  let drive := opBits f.e 17 4 2
  let const := constOf m (b 3)
  let prof := opBits f.e 18 0 2
  let fresh := !(s.txOf n).configured || s.mode n != m || s.rd Reg.LN.FMT_CFG.CONST n != const ||
    s.rd Reg.LN.TX_CTRL.DRIVE n != drive
  let idle := s.lane n == 1
  let s1 := ((s.setFmt n m (b 0) (b 1) (b 2) (b 3)).clearCounts n).flushBufs n
  let s2 :=
    if m = 0 then s1.setTx n { s1.txOf n with path := (s1.txOf n).path.restart false }
    else
      let t := s1.setHostCfg (2 * n) m prof (opBits f.e 18 2 1 == 1) (opBits f.e 18 3 1 == 1)
      let t2 := if isyon m then
          t.setHostCfg (2 * n + 1) m prof (opBits f.e 18 2 1 == 1) (opBits f.e 18 3 1 == 1)
        else t
      t2.txConfigure n drive fresh idle
  let s3 :=
    if m = 0 then s2.setLane n 1
    else if m = 6 then s2.enterBurst n
    else s2.startAcquire n
  let s4 := (if m = 0 then s3 else (s3.hostReconfigure (2 * n) s).hostReconfigure (2 * n + 1) s).epochRefresh
    (courseOf n)
  let trained := s4.rd Reg.HL.STAT.STATE (2 * n) == 2 || s4.rd Reg.HL.STAT.STATE (2 * n + 1) == 2
  s4.finish g {
    r0 := bitVal (m != 0) + 2 * bitVal trained + 4 * bitVal (m != 0 && (s4.txOf n).retime.isSome)
    r1 := s4.fmtCfg n }

/-- LANE_CONFIG (R335). -/
def execLaneConfig (r : RingNo) (e : Entry) (d : Dma) (s : State) : Host.Outcome State Fault Refusal :=
  .next (s.serve .laneConfig r e d chkLaneConfig runLaneConfig)

/-- A `TO` of LANE_STATE is accepted from a lane state (R336). -/
def laneStateOk (to_ st : Nat) : Bool :=
  match to_ with
  | 1 => decide (1 ≤ st) && decide (st ≤ 6)
  | 5 => decide (1 ≤ st) && decide (st ≤ 5)
  | 3 => decide (2 ≤ st) && decide (st ≤ 5)
  | _ => false

/-- What LANE_STATE is judged by (R336). A lane leaves IDLE only while its quad is on (R25); the spec names DOMAIN_OFF
for ACQUIRE and BURST, and the model answers it for MAINT from IDLE too (DEDUCED, notes/assumptions/143). -/
def chkLaneState (s : State) (f : Flight) : Option Res :=
  let n := f.e.target.toNat
  let t := opByte f.e 16
  if !laneStateOk t (s.lane n) then some { st := .badField }
  else if t = 5 ∧ s.lane n = 1 ∧ !s.quadOn (quadOfLane n) then some { st := .domainOff }
  else if t = 3 ∧ s.lane n = 5 ∧ s.mode n ≠ 0 ∧ !s.quadOn (quadOfLane n) then some { st := .domainOff }
  else none

/-- A lane leaves MAINT (R76, R336): ACQUIRE at step 8, BURST in MB, IDLE without a mode. -/
def State.resumeLane (s : State) (n : Nat) : State :=
  if s.mode n = 6 then s.enterBurst n
  else if s.mode n ≠ 0 then s.enterAcquire n 8
  else s.setLane n 1

/-- The effect of LANE_STATE (R336). -/
def runLaneState (s : State) (g : Origin) (f : Flight) : State :=
  let n := f.e.target.toNat
  let t := opByte f.e 16
  let st := s.lane n
  (if t = 3 then (if st = 5 then s.resumeLane n else s)
   else if st = t then s else s.setLane n t).finishSt g .ok

/-- LANE_STATE (R336). -/
def execLaneState (r : RingNo) (e : Entry) (d : Dma) (s : State) : Host.Outcome State Fault Refusal :=
  .next (s.serve .laneState r e d chkLaneState runLaneState)

end Sys2Proof.Machine
end

