-- ==== Sys2Proof/Machine/Mortar.lean ====
section
/-! DEFINITION. The mortar (07_mortar): slack surveys and their two events, dropped blocks with the fill sent in their
place, the AVS advice, and lost crossing pulses (R196 to R213). -/

namespace Sys2Proof.Machine

/-- The lane of a course's buffer, numbered as `SLACK.SRC` numbers buffers. -/
def bufLane (c b : Nat) : Nat :=
  8 * c + (if b < 8 then b else if b < 16 then b - 8 else if b < 32 then (b - 16) / 2 else (b - 32) / 2)

/-- A buffer on the line-to-host path: line receive or host transmit. -/
def bufRx (b : Nat) : Bool := decide (b < 8) || decide (32 ≤ b)

/-- A buffer is active (R197). -/
def State.bufActive (s : State) (c b : Nat) : Bool :=
  let n := bufLane c b
  let host := decide (16 ≤ b)
  s.courseOn c && (s.lane n == 2 || s.lane n == 3 ||
    (s.lane n == 4 && (if bufRx b then 2 ≤ s.rd Reg.LN.BST_STAT.RX_PHASE n ∧ s.rd Reg.LN.BST_STAT.RX_PHASE n ≤ 4
      else (s.bstOf n).txSlot.isSome))) &&
    !(host && b % 2 == 1 && headerBond (s.mode n))

/-- `SLACK_CRIT` rises, where it has not risen already (R198). -/
def State.slackCrit (s : State) (c : Nat) : State :=
  let s1 := (s.wr Reg.CRS.SLACK.CRIT 1 c).raiseRise (s.flag Reg.CRS.SLACK.CRIT c) true (courseSrc c 1) 0
  s1.setMortar c { s1.mortarOf c with critRun := 0 }

/-- A buffer carries blocks (R200): it is active, or its lane is in MAINT with a mode. -/
def State.bufCarries (s : State) (c b : Nat) : Bool :=
  let n := bufLane c b
  s.bufActive c b || (s.courseOn c && s.lane n == 5 && s.mode n != 0 && s.mode n != 6 &&
    !(decide (16 ≤ b) && b % 2 == 1 && headerBond (s.mode n)))

/-- Information bits of a block on one stream of the bond (R194, R201). The M200 inner codeword's 120 payload bits are
the standard's. -/
def blockBits (m : Nat) : Nat := if isyon m then 480 else if m200 m then 120 else if m = 1 then 256 else 240

/-- The fill sent in place of a dropped block (R201): PRBS31 to the host lanes of the bond; toward the line, a host receive
buffer discards the block that arrives, and fill stands where it would have, while a line transmit buffer sends a
unit of fill at once and discards the late block. -/
def State.dropFill (s : State) (n b : Nat) : State :=
  let m := s.mode n
  if bufRx b then
    let w := if m = 6 then s.hostCwBits n else blockBits m
    let f := s.rxFill n w
    let s1 := f.2.toHost n 0 w f.1
    if isyon m then
      let g := s1.rxFill n w
      g.2.toHost n 1 w g.1
    else s1
  else
    let s1 := s.seedPath n
    let x := s1.txOf n
    let p := x.path
    if b < 16 then s1.setTx n { x with path := { p with fillDue := p.fillDue + 1 } }
    else
      let w := streamTake m (s1.rd Reg.LN.FMT_CFG.CONST n) p.enc
      let f := prbsRun 31 w.1 p.fill
      let g := prbsRun 31 w.2 f.2
      s1.setTx n { x with path := { p with
        hostA := p.hostA ++ f.1, hostB := p.hostB ++ g.1, fill := g.2, skipA := p.skipA + w.1, skipB := p.skipB + w.2 } }

/-- What becomes of a dropped block afterwards: a host transmit buffer discards it when the mortar completes it (R200),
and a burst record counts fill for it (R201). -/
def State.dropBooked (s : State) (n b : Nat) : State :=
  let m := s.mode n
  let y := s.bstOf n
  let s1 := if 32 ≤ b then s.setRx n { s.rxOf n with late := (s.rxOf n).late + 1 } else s
  if bufRx b ∧ m = 6 ∧ s.rd Reg.LN.BST_STAT.RX_PHASE n = 4 then s1.setBst n { y with cwFill := y.cwFill + 1 } else s1

/-- A block dropped at a buffer (R200, R202): counted on its lane in the direction of the data, the gradient block and
centroid update in progress are discarded, `SLACK_CRIT` is forced, and fill takes its place. -/
def State.dropBlock (s : State) (c b : Nat) (rate : Bool) : State :=
  let n := bufLane c b
  let s1 := if bufRx b then s.count Reg.LN.MORTAR_DROP.RX_BLOCKS 1 n else s.count Reg.LN.MORTAR_DROP.TX_BLOCKS 1 n
  let s2 := s1.setRx n { s1.rxOf n with discard := true, partialNow := true }
  let x := s2.mortarOf c
  let s3 := s2.setMortar c { x with
    dropped := true
    rateBufs := if rate then (if x.rateBufs.contains b then x.rateBufs else b :: x.rateBufs) else x.rateBufs }
  (((s3.dpCount 7 n 1).slackCrit c).dropFill n b).dropBooked n b

/-! ## The blocks of a buffer (R196, R200, R203) -/

def State.bufOf (s : State) (c b : Nat) : BufX := Tab.get {} (s.mortarOf c).bufs b

def State.setBuf (s : State) (c b : Nat) (x : BufX) : State :=
  let m := s.mortarOf c
  s.setMortar c { m with bufs := Tab.set {} m.bufs b x }

/-- The running mean over the last 64 blocks in 2^-16; over those there are, before 64 have passed. -/
def BufX.mean (x : BufX) : Option Nat :=
  if x.figures.isEmpty then none else some (64 * x.figures.foldl (· + ·) 0 / x.figures.length)

/-- The lower of a running mean and one yet unseen. -/
def lowerMean (a b : Option Nat) : Option Nat :=
  match a, b with
  | some v, some w => some (min v w)
  | some v, none => some v
  | none, w => w

/-- A block passes (R196): what it is busy beyond a block period stands in the reserve, at most two blocks of it, and what it
leaves of one drains it; while a reserve slot is held the block's figure is 0. -/
def BufX.pass (x : BufX) (busy : Nat) : BufX :=
  let k := min 2048 (x.backlog + busy - 1024)
  let y := { x with
    backlog := k, held := x.held || decide (0 < k)
    figures := (if k = 0 then 1024 - busy else 0) :: x.figures.take 63 }
  { y with low := lowerMean x.low y.mean }

/-- Blocks pass one after another. -/
def BufX.passAll (x : BufX) (busy : List Nat) : BufX := busy.foldl BufX.pass x

/-- The blocks of a report pass; a buffer that carries none has none to report, and only an active one takes part in the
slack (R197). -/
def State.bufPass (s : State) (c : Nat) (b : BufBlocks) : State :=
  let x := s.bufOf c b.buf
  let y := x.passAll b.busy
  if s.bufActive c b.buf then s.setBuf c b.buf y
  else if s.bufCarries c b.buf then s.setBuf c b.buf { y with low := x.low, held := x.held }
  else s

/-- Both reserve slots are full (R200): two blocks of backlog stand in them. -/
def BufX.full (x : BufX) : Bool := decide (2048 ≤ x.backlog)

/-- BLOCK_DROP (R200, R202): after the blocks of `b`, the buffer drops one, because its reserve is full or because of a rate
difference; a buffer that carries no blocks has none to drop. The block period of a dropped block lets the reserve drain by
one block (R203; notes/assumptions/159). -/
def execBlockDrop (c : CourseNo) (b : BufBlocks) (rate : Bool) (s : State) : Host.Outcome State Fault Refusal :=
  .next (
    let s1 := s.bufPass c b
    let x := s1.bufOf c b.buf
    if !s.bufCarries c b.buf || !(rate || x.full) then s1
    else (s1.setBuf c b.buf { x with backlog := x.backlog - 1024 }).dropBlock c b.buf rate)

/-- RUNNING_MEAN_BELOW_CRIT (R198): blocks pass an active buffer, and where its running mean falls below 8/256 SLACK_CRIT
rises. -/
def execRunningMeanBelowCrit (c : CourseNo) (buf : Fin 48) (busy : List Nat) (s : State) :
    Host.Outcome State Fault Refusal :=
  .next (
    let s1 := s.bufPass c ⟨buf, busy⟩
    let seen := ({ s.bufOf c buf with low := none } : BufX).passAll busy
    if s.bufActive c buf && decide (seen.low.getD 65536 < 2048) then s1.slackCrit c else s1)

/-- The lowest mean of a list of buffers, with its buffer; the first one wins a tie. -/
def lowestMean : List (Nat × Nat) → Option (Nat × Nat)
  | [] => none
  | b :: bs =>
    match lowestMean bs with
    | none => some b
    | some m => if b.2 ≤ m.2 then some b else some m

/-- The buffers of a course that were active in the survey with the lowest mean each reached in it; an active one that no
block passed in it stands at the mean it has. -/
def State.activeMeans (s : State) (c : Nat) : List (Nat × Nat) :=
  (List.range 48).filterMap fun b =>
    let x := s.bufOf c b
    (x.low.or (if s.bufActive c b then x.mean else none)).map fun m => (b, m)

/-- A survey of the buffers begins. -/
def MortarX.renew (x : MortarX) : Tab BufX :=
  x.bufs.map fun (p : Nat × BufX) => (p.1, { p.2 with low := none, held := decide (0 < p.2.backlog) })

/-- The threshold in force (R213): values of FLOOR below 8 act as 8. -/
def State.slackFloor (s : State) (c : Nat) : Nat := max 8 (s.rd Reg.CRS.SLACK_CFG.FLOOR c)

/-- `SLACK_LOW` at a survey with a valid CUR (R198). -/
def State.surveyLow (s : State) (c cur : Nat) : State :=
  let x := s.mortarOf c
  let fl := s.slackFloor c
  if cur < fl then
    ((s.setMortar c { x with lowRun := 0 }).wr Reg.CRS.SLACK.LOW 1 c).raiseRise (s.flag Reg.CRS.SLACK.LOW c) true
      (courseSrc c 0) 0
  else
    let k := if fl + 4 ≤ cur then x.lowRun + 1 else 0
    let s1 := s.setMortar c { x with lowRun := k }
    if 4 ≤ k then s1.wr Reg.CRS.SLACK.LOW 0 c else s1

/-- `SLACK_CRIT` at a survey with a valid CUR (R198): it clears after 4 surveys of CUR at 12 or more without a drop. -/
def State.surveyCrit (s : State) (c cur m : Nat) : State :=
  let x := s.mortarOf c
  if m < 2048 then s.slackCrit c
  else
    let k := if 12 ≤ cur ∧ !x.dropped then x.critRun + 1 else 0
    let s1 := s.setMortar c { x with critRun := k }
    if 4 ≤ k then s1.wr Reg.CRS.SLACK.CRIT 0 c else s1

/-- A survey without an active buffer, or of a course that is not, or did not stay, in C_ON (R197, R204). -/
def State.surveyNone (s : State) (c : Nat) : State :=
  let s1 := ((s.wr Reg.CRS.SLACK.CUR 0xFF c).wr Reg.CRS.SLACK.SRC 0x3F c).wr Reg.CRS.SLACK.VALID 0 c
  let s2 := ((s1.wr Reg.CRS.SLACK.LOW 0 c).wr Reg.CRS.SLACK.CRIT 0 c).wr Reg.CRS.SLACK.BACKLOG 0 c
  (s2.wr Reg.CRS.SLACK.RATE 0 c).setMortar c { bufs := (s.mortarOf c).renew }

/-- A survey of a course's slack (R197, R198). -/
def State.slackSurvey (s : State) (c : Nat) : State :=
  let x := s.mortarOf c
  let act := s.activeMeans c
  match lowestMean act with
  | none => s.surveyNone c
  | some b =>
    if x.spoiled || !s.courseOn c then s.surveyNone c
    else
      let cur := min 255 (b.2 / 256)
      let s1 := ((s.wr Reg.CRS.SLACK.CUR cur c).wr Reg.CRS.SLACK.SRC b.1 c).wr Reg.CRS.SLACK.VALID 1 c
      let s2 := (s1.wr Reg.CRS.SLACK.MIN (min cur (s1.rd Reg.CRS.SLACK.MIN c)) c).wrB Reg.CRS.SLACK.RATE
        (!x.rateBufs.isEmpty) c
      let s3 := (s2.wrB Reg.CRS.SLACK.BACKLOG (act.any fun b => (s.bufOf c b.1).held) c).surveyLow c cur
      let s4 := s3.surveyCrit c cur b.2
      s4.setMortar c { s4.mortarOf c with
        dropped := false, rateBufs := [], bufs := x.renew
        mean := (lowestMean (act.filter fun b => !x.rateBufs.contains b.1)).map fun b => b.2 }

/-- SLACK_SURVEY (R197): the survey of 1 ms ends, after the blocks that passed the buffers. -/
def execSlackSurvey (c : CourseNo) (bufs : List BufBlocks) (s : State) : Host.Outcome State Fault Refusal :=
  .next (if s.courseD c then ((bufs.foldl (fun t b => t.bufPass c b) s).slackSurvey c).takeCourseShot c else s)

/-- A write of 1 to MIN_CLR (R213). -/
def State.slackMinClr (s : State) (c : Nat) : State := s.wr Reg.CRS.SLACK.MIN 0xFF c

/-- SLACK_MIN_CLR (R213); the registers of a course are PF0's (R294). -/
def execSlackMinClr (f : FnNo) (c : CourseNo) (s : State) : Host.Outcome State Fault Refusal :=
  .next (if f.val ≠ 0 then s else s.regAccess Reg.CRS.SLACK_CFG.MIN_CLR c 0 true fun s => s.slackMinClr c)

/-! ## AVS advice (R207) -/

/-- The limits of the advice in mV (R213): each brought into 700 to 800; with MIN above MAX, MAX alone. -/
def State.avsLimits (s : State) : Nat × Nat :=
  let b := fun v => min 800 (max 700 v)
  let hi := b (s.rd Reg.GLB.AVS_LIMIT.MAX_MV)
  (min hi (b (s.rd Reg.GLB.AVS_LIMIT.MIN_MV)), hi)

/-- The valid courses with their lowest means, lowest course first. -/
def State.avsCourses (s : State) : List (Nat × Nat) :=
  (List.range 8).filterMap fun c =>
    if s.flag Reg.CRS.SLACK.VALID c then (s.mortarOf c).mean.map fun m => (c, m) else none

/-- 1/r_head of a course is `headNum m / headDen`, with kt in 0.01 % per °C (R207). -/
def headNum (m : Nat) : Int := ((65536 : Int) - m) * 10000
def State.headDen (s : State) : Int :=
  65536 * ((10000 : Int) - s.rd Reg.GLB.AVS_MEAS.KT * s.rd Reg.GLB.AVS_CTRL.TEMP_HEAD)

/-- dv of a course in mV as a fraction with a positive denominator (R207); none: the formula divides by zero. -/
def State.avsDv (s : State) (m : Nat) : Option (Int × Nat) :=
  let need := (256 : Int) - s.rd Reg.GLB.AVS_CTRL.TARGET
  let den := need * s.headDen * s.rd Reg.GLB.AVS_MEAS.KV
  let num := 100000 * (256 * headNum m - need * s.headDen)
  if den = 0 then none else some (if den < 0 then -num else num, den.natAbs)

/-- The course with the largest dv, the lowest one at a tie: course and dv. Where the formula divides by zero its value
is open. -/
def State.largestDv (s : State) : List (Nat × Nat) → Option (Nat × Int × Nat)
  | [] => none
  | (c, m) :: cs =>
    let d := match s.avsDv m with
      | some d => d
      | none => (signedOf s.free 16, 1)
    match s.largestDv cs with
    | none => some (c, d)
    | some (c', d') => if d'.1 * d.2 ≤ d.1 * d'.2 then some (c, d) else some (c', d')

/-- The slack predicted at head temperature is at least (TARGET + HYST)/256. -/
def State.lowerOk (s : State) (m : Nat) : Bool :=
  let lim := (256 : Int) - s.rd Reg.GLB.AVS_CTRL.TARGET - s.rd Reg.GLB.AVS_CTRL.HYST
  if 0 < s.headDen then decide (256 * headNum m ≤ lim * s.headDen) else decide (lim * s.headDen ≤ 256 * headNum m)

/-- Form an advice (R207). -/
def State.avsAdvice (s : State) : State :=
  let (lo, hi) := s.avsLimits
  let v := s.rd Reg.GLB.AVS_MEAS.VCORE_MV
  let cs := s.avsCourses
  let hold := (v + 2) / 5 * 5
  let s1 := match s.largestDv cs with
    | none => ((s.wr Reg.GLB.AVS_ADV.ADV_MV hold).wr Reg.GLB.AVS_ADV.DIR 0).wr Reg.GLB.AVS_ADV.AT_MAX 0
    | some (c, num, den) =>
      let up := -((-((v : Int) * den + num)) / ((den : Int) * 5)) * 5
      let raw : Int := max up ((lo + 4) / 5 * 5 : Nat)
      let adv := (max (lo : Int) (min (hi : Int) raw)).toNat
      let dir := if v + 5 ≤ adv then 1 else if adv + 5 ≤ v ∧ cs.all (fun p => s.lowerOk p.2) then 2 else 0
      (((s.wr Reg.GLB.AVS_ADV.LIMIT_COURSE c).wr Reg.GLB.AVS_ADV.ADV_MV (if dir = 0 then hold else adv)).wr
        Reg.GLB.AVS_ADV.DIR dir).wrB Reg.GLB.AVS_ADV.AT_MAX (decide ((hi : Int) < raw))
  ((s1.wr Reg.GLB.AVS_ADV.VALID 1).countWrap Reg.GLB.AVS_ADV.SEQ).freed

/-- AVS_ADVICE (R207): every 10 ms K2 forms an advice; while it is stopped, none is formed. -/
def execAvsAdvice (s : State) : Host.Outcome State Fault Refusal :=
  .next (if s.coreOn && s.coreRuns 2 then s.avsAdvice else s)

/-! ## Lost pulses (R210) -/

/-- The `PULSE_LOST` bits as the `DETAIL` of `XING_LOST` gives them (R500). -/
def State.lostBits (s : State) : Nat :=
  (List.range 8).foldl (fun v c => v + bitVal (s.flag Reg.CRS.XING_STAT.PULSE_LOST c) * 2 ^ c)
    (bitVal (s.flag Reg.GLB.XING_STAT.PULSE_LOST) * 256)

/-- PULSE_LOST (R210): a pulse arrives while the pending count stands at 15; XING_LOST is raised when the OR rises. -/
def execPulseLost (c : Option CourseNo) (s : State) : Host.Outcome State Fault Refusal :=
  .next (
    let on := match c with
      | some c => s.courseD c
      | none => s.coreOn
    if !on then s
    else
      let s1 := match c with
        | some c => s.wr Reg.CRS.XING_STAT.PULSE_LOST 1 c
        | none => s.wr Reg.GLB.XING_STAT.PULSE_LOST 1
      s1.raiseRise (s.lostBits != 0) true 16 s1.lostBits)

end Sys2Proof.Machine
end

