-- ==== Sys2Proof/Machine/HostLanes.lean ====
section
/-! DEFINITION. Host lanes (08_host_lanes): link training, signal lock, the transmit equaliser, and the pattern
generators and checkers of line, host and Filkor lanes (R152 to R155, R214 to R229, R268). -/

namespace Sys2Proof.Machine

/-- The sum of the magnitudes of a list of taps. -/
def absSum (l : List Int) : Nat := (l.map fun (t : Int) => t.natAbs).foldl (· + ·) 0

/-! ## Link training (R221 to R224) -/

/-- HOST_TRAIN_READY (R222, R223): both ends have signalled ready. `a` is what the far end asked of the transmitter; a
request that would leave a tap outside R225 was answered "at limit", so taps that break the rule are not taken. -/
def execHostTrainReady (k : HostLaneNo) (a : HostAns) (s : State) : Host.Outcome State Fault Refusal :=
  .next (
    let x := s.hostOf k
    if !x.training || x.restartAt.isSome || s.rd Reg.HL.STAT.STATE k != 2 then s
    else
      let ok := a.taps.length == 7 && a.taps.all (fun t => decide (-128 ≤ t) && decide (t ≤ 127)) &&
        decide (absSum a.taps ≤ 128)
      let s1 := s.setHost k { x with training := false, taps := if ok then a.taps else x.taps }
      let s2 := (((s1.wr Reg.HL.TRAIN_STAT.RESULT 2 k).wr Reg.HL.TRAIN_STAT.LOCAL_READY 1 k).wr
        Reg.HL.TRAIN_STAT.REMOTE_READY 1 k).wr Reg.HL.TRAIN_STAT.LAST_TIME
          (min 65535 ((s.time - x.trainAt) / 1000000)) k
      let s3 := (s2.wrB Reg.HL.STAT.PRE_TX_ON a.precodeTx k).wr Reg.HL.STAT.PRE_RX_ON
        (s2.rd Reg.HL.TRAIN_CTRL.PRECODE_REQ k) k
      s3.enterData k true)

/-- The limit of a training attempt in ns (R222): `TIMEOUT` in 10 ms, 0 acting as 1. -/
def State.trainLimit (s : State) (k : Nat) : Nat := max 1 (s.rd Reg.HL.TRAIN_CTRL.TIMEOUT k) * 10000000

/-- HOST_TRAIN_TIMEOUT (R222): the attempt fails, or, 1 ms after a failure, training starts afresh. -/
def execHostTrainTimeout (k : HostLaneNo) (s : State) : Host.Outcome State Fault Refusal :=
  .next (
    let x := s.hostOf k
    if !x.training || s.rd Reg.HL.STAT.STATE k != 2 then s
    else
      match x.restartAt with
      | some t => (s.upTo t).startTraining k
      | none =>
        let s1 := s.upTo (x.trainAt + s.trainLimit k)
        ((s1.setHost k { x with restartAt := some (s1.time + 1000000) }).wr Reg.HL.TRAIN_STAT.RESULT 3 k).count
          Reg.HL.TRAIN_STAT.ATTEMPTS 1 k)

/-- A write of 1 to `RESTART` (R222, R224): at once, from any state but OFF and IDLE, where training is on at all. -/
def State.trainRestart (s : State) (k : Nat) : State :=
  if 2 ≤ s.rd Reg.HL.STAT.STATE k ∧ s.flag Reg.HL.TRAIN_CTRL.EN k ∧ s.mode (k / 2) ≠ 1 then
    (s.startTraining k).clearHostTest k
  else s

/-- HOST_TRAIN_RESTART (R222). -/
def execHostTrainRestart (k : HostLaneNo) (s : State) : Host.Outcome State Fault Refusal :=
  .next (s.regAccess Reg.HL.TRAIN_CTRL.RESTART k 0 true fun s => s.trainRestart k)

/-! ## Signal lock (R220, R228) -/

/-- The receive equaliser has settled on a signal; what `RX_EQ` shows (R229) are free values. -/
def State.hostEq (s : State) (k : Nat) : State :=
  ((((((s.wr Reg.HL.RX_EQ.CTLE s.free k).freed).wr Reg.HL.RX_EQ.VGA s.freed.free k).freed).wr Reg.HL.RX_EQ.SNR
    s.freed.freed.free k).freed)

/-- SIG_LOCK_CHANGE (R220): what the quad's PLL, the lane's signal detector and its CDR show now. -/
def execSigLockChange (k : HostLaneNo) (pll los cdr : Bool) (s : State) : Host.Outcome State Fault Refusal :=
  .next (
    if !s.quadOn (k / 32) then s
    else
      let st := s.rd Reg.HL.STAT.STATE k
      let s1 := s.wrB Reg.HL.QUAD_STAT.PLL_LOCK pll (k / 32)
      let s2 := if st = 0 then s1
        else
          let on := cdr && !los && decide (2 ≤ st)
          let t := (s1.wrB Reg.HL.STAT.LOS los k).wrB Reg.HL.STAT.CDR_LOCK on k
          if on && !s.flag Reg.HL.STAT.CDR_LOCK k then t.hostEq k else t
      if s.flag Reg.HL.QUAD_STAT.PLL_LOCK (k / 32) = pll then s2.refreshSig k
      else (List.range 32).foldl (fun t j => t.refreshSig (32 * (k / 32) + j)) s2)

/-! ## Transmit equaliser (R225) -/

/-- The tap `INDEX` names, as the register reads it (R229). -/
def State.txEqRead (s : State) (k : Nat) : Nat :=
  patternOf ((s.hostOf k).taps.getD (s.rd Reg.HL.TX_EQ.INDEX k) 0) 8

/-- A write of `TX_EQ` (R225): one tap, unless training is on or the sum of magnitudes would exceed 128. -/
def State.txEqWrite (s : State) (k v : Nat) : State :=
  let i := v % 8
  let x := s.hostOf k
  let c : List Int := x.taps.zipIdx.map fun p => if p.2 = i then signedOf (bitsOf v 8 8) 8 else p.1
  if s.flag Reg.HL.TRAIN_CTRL.EN k then s.wr Reg.HL.STAT.EQ_REJECT 1 k
  else
    let s1 := s.wr Reg.HL.TX_EQ.INDEX i k
    if !bitOf v 31 then s1
    else if absSum c ≤ 128 then s1.setHost k { x with taps := c }
    else s1.wr Reg.HL.STAT.EQ_REJECT 1 k

/-- TX_EQ_WRITE (R225). -/
def execTxEqWrite (k : HostLaneNo) (v : Word) (s : State) : Host.Outcome State Fault Refusal :=
  .next (s.regAccess Reg.HL.TX_EQ.INDEX k 0 true fun s => s.txEqWrite k v.toNat)

/-! ## What a host lane sends (R219, R55) -/

/-- The line receive side has data to hand on (R55). In the M200 modes that is inner-FEC lock once the lane has left
ACQUIRE. -/
def State.lineAligned (s : State) (n : Nat) : Bool :=
  if isyon (s.mode n) then s.flag Reg.LN.FMT_STAT.ALIGNED n
  else if s.mode n = 1 then s.flag Reg.LN.RX_STAT.CDR_LOCK n
  else decide (3 ≤ s.lane n) && s.flag Reg.LN.RX_STAT.FRAME_LOCK n

/-- `STAT.TX_SRC` (R219, R229): 3 test or loop, 2 training frames, 1 PRBS31 while the line side has no data or the lane is in
MAINT (R336) without a far loop (R155), 0 data. -/
def State.hostTxSrc (s : State) (k : Nat) : Nat :=
  let n := k / 2
  if s.rd Reg.HL.STAT.STATE k = 2 then 2
  else if s.flag Reg.HL.PRBS_CTRL.GEN_EN k ∨ s.rd Reg.HL.PRBS_CTRL.LOOP k = 2 then 3
  else if s.rd Reg.HL.STAT.STATE k = 3 ∧ s.mode n ≠ 6 ∧
      (!s.lineAligned n ∨ (s.lane n = 5 ∧ s.rd Reg.LN.PRBS_CTRL.LOOP n ≠ 2)) then 1
  else 0

/-! ## Patterns, checkers and loops (R152 to R154, R226, R227, R268) -/

/-- The port's generator drives its output, and no far loop replaces it (R153, R155, R227). -/
def State.genDrives (s : State) : PortRef → Bool
  | .line n => s.flag Reg.LN.PRBS_CTRL.GEN_EN n && s.rd Reg.LN.PRBS_CTRL.LOOP n != 2
  | .host k => s.flag Reg.HL.PRBS_CTRL.GEN_EN k && s.rd Reg.HL.PRBS_CTRL.LOOP k != 2
  | .filkor i => s.flag Reg.FLK.PRBS_CTRL.GEN_EN i && s.rd Reg.FLK.PRBS_CTRL.LOOP i != 2

/-- Kind and index of a port as the block's output names it. -/
def portKey : PortRef → Nat × Nat
  | .line n => (0, n)
  | .host k => (1, k)
  | .filkor i => (2, i)

/-- The host generator inverts its next bit (R153, R226). -/
def State.injectHost (s : State) (k : Nat) : State :=
  (s.setHtx k { s.htxOf k with inject := true }).emit (.injectBit 1 k)

/-- The generator inverts one bit now (R153). -/
def State.injectOne (s : State) (p : PortRef) : State :=
  if !s.genDrives p then s
  else
    match p with
    | .line n => s.injectLine n
    | .host k => s.injectHost k
    | _ => s.emit (.injectBit (portKey p).1 (portKey p).2)

/-- An access to the port's PRBS_CTRL by PF0. -/
def State.portAccess (s : State) (p : PortRef) (k : State → State) : State :=
  match p with
  | .line n => s.regAccess Reg.LN.PRBS_CTRL.GEN_EN n 0 true k
  | .host h => s.regAccess Reg.HL.PRBS_CTRL.GEN_EN h 0 true k
  | .filkor i => s.regAccess Reg.FLK.PRBS_CTRL.GEN_EN i 0 true k

/-- PRBS_INJ_ONE (R153, R226, R268). -/
def execPrbsInjOne (p : PortRef) (s : State) : Host.Outcome State Fault Refusal :=
  .next (s.portAccess p fun s => s.injectOne p)

/-- Zero the port's error count (R154). -/
def State.prbsClear (s : State) : PortRef → State
  | .line n => s.wr Reg.LN.PRBS_ERR.COUNT 0 n
  | .host k => s.wr Reg.HL.PRBS_ERR.COUNT 0 k
  | .filkor i => s.wr Reg.FLK.PRBS_ERR.COUNT 0 i

/-- PRBS_ERR_CLEAR (R154, R226, R268). -/
def execPrbsErrClear (p : PortRef) (s : State) : Host.Outcome State Fault Refusal :=
  .next (s.portAccess p fun s => s.prbsClear p)

/-- A pattern as its register length and the bit that follows a register (R154, R226, R268, R524): host codes 6 to 8 are
the patterns of IEEE 802.3, and reserved codes act as PRBS31. -/
def checkPattern (s : State) : PortRef → Nat × (Nat → Bool)
  | .line n =>
    let d := patDegree (s.rd Reg.LN.PRBS_CTRL.CHK_PAT n)
    (d, prbsNext d)
  | .host k =>
    let c := s.rd Reg.HL.PRBS_CTRL.CHK_PAT k
    if 6 ≤ c ∧ c ≤ 8 then (31, Config.ieeeNext c) else (patDegree c, prbsNext (patDegree c))
  | .filkor i =>
    let d := match s.rd Reg.FLK.PRBS_CTRL.PAT i with
      | 0 => 7
      | 1 => 15
      | _ => 31
    (d, prbsNext d)

/-- Received bits pass a checker: bit errors are counted while it is locked (R154). -/
def State.checkBits (s : State) (p : PortRef) (lockF cntF : Fld) (i at_ : Nat) (bits : List Bool) : State :=
  let c := checkPattern s p
  let q := chkRun c.1 c.2 bits (s.flag lockF i) (s.chkOf at_)
  ((s.setChk at_ q.2.1).count cntF q.2.2 i).wrB lockF q.1 i

/-- CHECKER_LOCK (R154, R226, R268): `count` bits a port has received and decided, precoding undone, pass its checker, which
locks, counts or loses lock; as a number, the first bit is the highest. SQ8 is not checked. -/
def execCheckerLock (p : PortRef) (count bits : Nat) (s : State) : Host.Outcome State Fault Refusal :=
  .next (
    let bits := natBits count bits
    match p with
    | .line n =>
      if !s.flag Reg.LN.PRBS_CTRL.CHK_EN n || s.lane n != 5 || decide (6 ≤ s.rd Reg.LN.PRBS_CTRL.CHK_PAT n) then s
      else s.checkBits p Reg.LN.PRBS_CTRL.CHK_LOCK Reg.LN.PRBS_ERR.COUNT n n bits
    | .host k =>
      if !s.flag Reg.HL.PRBS_CTRL.CHK_EN k || s.lane (k / 2) != 5 || s.rd Reg.HL.STAT.STATE k != 3 then s
      else s.checkBits p Reg.HL.PRBS_CTRL.CHK_LOCK Reg.HL.PRBS_ERR.COUNT k (64 + k) bits
    | .filkor i =>
      if !s.flag Reg.FLK.PRBS_CTRL.CHK_EN i || !s.pwr.flkOn then s
      else s.checkBits p Reg.FLK.PRBS_CTRL.CHK_LOCK Reg.FLK.PRBS_ERR.COUNT i (192 + i) bits)

/-- The host generator starts: a free state other than zeros, bits counted from the enable (R153, R226, R524). -/
def State.hostGenStart (s : State) (k pat : Nat) : State :=
  let d := if 6 ≤ pat ∧ pat ≤ 8 then 31 else patDegree pat
  (s.setHtx k { s.htxOf k with gen := 1 + s.free % (2 ^ d - 1), genPos := 0, inject := false, far := [] }).freed

/-- A write of a host lane's `PRBS_CTRL` (R226, R227): outside MAINT or DATA, enables and loops are ignored. -/
def State.hostPrbsWrite (s : State) (k v : Nat) : State :=
  let ok := s.lane (k / 2) = 5 ∧ s.rd Reg.HL.STAT.STATE k = 3
  let gen := if ok then bitsOf v 4 1 else 0
  let chk := if ok then bitsOf v 9 1 else 0
  let loop := if ok then bitsOf v 10 2 else 0
  let s1 := ((s.wr Reg.HL.PRBS_CTRL.GEN_PAT (bitsOf v 0 4) k).wr Reg.HL.PRBS_CTRL.GEN_EN gen k).wr
    Reg.HL.PRBS_CTRL.CHK_PAT (bitsOf v 5 4) k
  let s2 := ((s1.wr Reg.HL.PRBS_CTRL.CHK_EN chk k).wr Reg.HL.PRBS_CTRL.LOOP loop k).wr Reg.HL.PRBS_CTRL.INJ_K
    (bitsOf v 12 6) k
  let s3 := if chk = 0 ∨ bitsOf v 5 4 ≠ s.rd Reg.HL.PRBS_CTRL.CHK_PAT k then
    (s2.wr Reg.HL.PRBS_CTRL.CHK_LOCK 0 k).setChk (64 + k) {} else s2
  let s3a := if gen = 1 ∧ (s.rd Reg.HL.PRBS_CTRL.GEN_EN k = 0 ∨ bitsOf v 0 4 ≠ s.rd Reg.HL.PRBS_CTRL.GEN_PAT k) then
    s3.hostGenStart k (bitsOf v 0 4) else s3
  let s4 := if bitOf v 18 ∧ gen = 1 ∧ loop ≠ 2 then s3a.injectHost k else s3a
  if bitOf v 20 then s4.wr Reg.HL.PRBS_ERR.COUNT 0 k else s4

/-! ## A transmit block of 64 symbols (R214, R219, R223, R225 to R227) -/

/-- The generator's bits and its register after them. -/
def hostGen (pat len r : Nat) : List Bool × Nat :=
  if 6 ≤ pat ∧ pat ≤ 8 then seqRun (Config.ieeeNext pat) 31 len r else prbsRun (patDegree pat) len r

/-- 128 bits of PRBS31 (R55), from the register of the host lane, which starts at a free state (R524). -/
def State.hostFill (s : State) (k len : Nat) : List Bool × State :=
  let x := s.hostOf k
  let f := prbsRun 31 len (if x.prbs = 0 then 1 + s.free % (2 ^ 31 - 1) else x.prbs)
  (f.1, (s.setHost k { x with prbs := f.2 }).freed)

/-- An IDLE block of the burst framing (R185): the sync word, type 0, and 184 bits that go on with one PRBS31 sequence. -/
def State.idleBlock (s : State) (k : Nat) : State :=
  let f := s.hostFill k 184
  let x := f.2.htxOf k
  f.2.setHtx k { x with queue := x.queue ++ natBits 64 syncWord ++ natBits 8 0 ++ f.1 }

/-- The 128 bits of the next block, from the first source of R219 that holds: a far loop's decisions, the generator,
PRBS31, or the stream, which in MB idle blocks fill up between records. A stream with fewer bits gives none. -/
def State.hostBits (s : State) (k : Nat) : List Bool × State :=
  let x := s.htxOf k
  if s.rd Reg.HL.PRBS_CTRL.LOOP k = 2 then (x.far.take 128, s.setHtx k { x with far := x.far.drop 128 })
  else if s.flag Reg.HL.PRBS_CTRL.GEN_EN k then
    let r := hostGen (s.rd Reg.HL.PRBS_CTRL.GEN_PAT k) 128 x.gen
    (injectErrors (s.rd Reg.HL.PRBS_CTRL.INJ_K k) x.genPos x.inject r.1,
      s.setHtx k { x with gen := r.2, genPos := x.genPos + 128, inject := false })
  else if s.hostTxSrc k = 1 then s.hostFill k 128
  else
    let s1 := if s.mode (k / 2) = 6 ∧ k % 2 = 0 ∧ x.queue.length < 128 ∧ s.rd Reg.LN.BST_STAT.RX_PHASE (k / 2) ≠ 4 then
      s.idleBlock k else s
    let y := s1.htxOf k
    if y.queue.length < 128 then ([], s1) else (y.queue.take 128, s1.setHtx k { y with queue := y.queue.drop 128 })

/-- The FIR outputs for new amplitudes, each entering in front of the six before it (the newest first): the symbol sent is
the one four places back, so the four pre-cursor taps see what follows it (R225). -/
def hostFir (taps : List Int) : List Int → List Int → List Int
  | [], _ => []
  | a :: l, past => ((taps.zip (a :: past)).map fun p => p.1 * p.2).foldl (· + ·) 0 :: hostFir taps l ((a :: past).take 6)

/-- The levels of the block: Gray-coded pairs (R51, R216), precoded where that is in force (R223). -/
def State.hostLevels (s : State) (k : Nat) (bits : List Bool) : List Nat × Nat :=
  let l := (mapBits 0 bits).1
  if s.flag Reg.HL.STAT.PRE_TX_ON k then precode l (s.htxOf k).pre else (l, (s.htxOf k).pre)

/-- A transmit block of a host lane in DATA: the symbols of the source, with the polarity and the taps in force, to the
balls, or to its own receiver in a near loop. `TX_SQUELCH` and latched pads hold the balls in electrical idle. -/
def State.hostBlock (s : State) (k : Nat) : State :=
  if s.rd Reg.HL.STAT.STATE k ≠ 3 then s
  else
    let b := s.hostBits k
    let t := b.2
    let near := s.rd Reg.HL.PRBS_CTRL.LOOP k == 1
    let lv := t.hostLevels k b.1
    let amps := lv.1.map fun l => if s.flag Reg.HL.CTRL.TX_INV k then -levelAmp 0 l else levelAmp 0 l
    let x := t.htxOf k
    let taps := (s.hostOf k).taps
    let old := if x.past.isEmpty then taps else x.bank
    let t1 := t.setHtx k { x with pre := lv.2, past := (amps.reverse ++ x.past).take 6, bank := taps }
    if amps.isEmpty || (!near && (s.flag Reg.HL.CTRL.TX_SQUELCH k || s.padHeldQ (k / 32))) then t1
    else t1.emit (.hostTx k near
      (hostFir old (amps.take 4) x.past ++ hostFir taps (amps.drop 4) (((amps.take 4).reverse ++ x.past).take 6)))

/-- Bits a host lane has received go to its far loop (R227). -/
def State.hostFar (s : State) (k : Nat) (bits : List Bool) : State :=
  let x := s.htxOf k
  if s.rd Reg.HL.PRBS_CTRL.LOOP k = 2 then s.setHtx k { x with far := x.far ++ bits } else s

/-- The blocks of both host lanes of a line lane's bond, after what they have received (R219). -/
def State.hostBlocks (s : State) (n : Nat) (m : HostBits) : State :=
  (((s.hostFar (2 * n) m.a).hostFar (2 * n + 1) m.b).hostBlock (2 * n)).hostBlock (2 * n + 1)

end Sys2Proof.Machine
end

