-- ==== Sys2Proof/Machine/Bias.lean ====
section
/-! DEFINITION. Bias channels (09_optics_bias_and_supervision): writes, ramps and parks, compliance and open load, quench
groups, thermal shutdown and the loss of VBIAS (R230 to R245, R352, R353). -/

namespace Sys2Proof.Machine

def State.biasOf (s : State) (b : Nat) : BiasX := Tab.get {} s.bias b
def State.setBias (s : State) (b : Nat) (x : BiasX) : State := { s with bias := Tab.set {} s.bias b x }

/-! ## What the channel's registers show -/

/-- A channel is a member of a group (R241). -/
def State.inGroup (s : State) (b g : Nat) : Bool :=
  s.flag Reg.BIAS.CFG.QG_EN b && s.rd Reg.BIAS.CFG.QGRP b == g

/-- A group is quenched. -/
def State.groupQuenched (s : State) (g : Nat) : Bool := bitOf (s.rd Reg.BIAS.QUENCH_STAT.QUENCHED) g

/-- The channel is a member of a quenched group: `STAT.QUENCHED`. -/
def State.biasQuenched (s : State) (b : Nat) : Bool :=
  s.flag Reg.BIAS.CFG.QG_EN b && s.groupQuenched (s.rd Reg.BIAS.CFG.QGRP b)

/-- The code the channel's ramp heads for (R235, R237, R239): 0 on its way to be disconnected; otherwise the target,
clamped to the present code while `HOLD` is set. -/
def State.biasGoal (s : State) (b : Nat) : Nat :=
  let t := s.rd Reg.BIAS.TARGET.CODE b
  match (s.biasOf b).ph with
  | .live => if s.flag Reg.BIAS.STAT.HOLD b then min t (s.rd Reg.BIAS.STAT.CODE b) else t
  | _ => 0

/-- `STAT.RAMPING` and `STAT.PARKING`. -/
def State.biasRamping (s : State) (b : Nat) : Bool :=
  match (s.biasOf b).ph with
  | .live | .parkDown => s.rd Reg.BIAS.STAT.CODE b != s.biasGoal b
  | .disabling => true
  | _ => false

def State.biasParking (s : State) (b : Nat) : Bool :=
  match (s.biasOf b).ph with
  | .parkDown | .parkDwell | .parkOpen => true
  | _ => false

/-! ## Connecting and disconnecting (R233, R236, R237) -/

def State.biasPhase (s : State) (b : Nat) (p : BiasPhase) : State := s.setBias b { s.biasOf b with ph := p }

/-- The ball connects in the recorded range at code 0. -/
def State.biasJoin (s : State) (b : Nat) : State :=
  ((s.wr Reg.BIAS.STAT.RANGE (s.rd Reg.BIAS.TARGET.RANGE b) b).wr Reg.BIAS.STAT.CODE 0 b).setBias b
    { ph := .live, quick := false, connAt := s.time / 1000 }

/-- The ball goes high-impedance with the pull-down. -/
def State.biasOpenBall (s : State) (b : Nat) (p : BiasPhase) : State :=
  (((s.wr Reg.BIAS.STAT.RANGE 0 b).wr Reg.BIAS.FLAG.COMP_NOW 0 b).wr Reg.BIAS.FLAG.OPEN_NOW 0 b).setBias b
    { s.biasOf b with ph := p, quick := false }

/-- Enable a channel that has been written (R233, R237). -/
def State.biasEnable (s : State) (b : Nat) : State :=
  let s1 := s.wr Reg.BIAS.STAT.ENABLED 1 b
  match (s.biasOf b).ph with
  | .off => s1.biasPhase b .connecting
  | .disabling =>
    s1.setBias b { s.biasOf b with
      ph := if s.rd Reg.BIAS.STAT.RANGE b = s.rd Reg.BIAS.TARGET.RANGE b then .live else .parkDown
      quick := (s.biasOf b).quick && s.rd Reg.BIAS.TARGET.CODE b == 0 }
  | _ => s1

/-- Disable a channel (R237): it ramps to code 0 and is disconnected. -/
def State.biasDisable (s : State) (b : Nat) : State :=
  let s1 := s.wr Reg.BIAS.STAT.ENABLED 0 b
  match (s.biasOf b).ph with
  | .live | .parkDown | .parkDwell => s1.setBias b { s.biasOf b with ph := .disabling, quick := true }
  | .connecting | .parkOpen => s1.biasOpenBall b .off
  | _ => s1

/-- Record a range and code (R236): they become the ramp target, or an enabled channel parks. -/
def State.biasWrite (s : State) (b range code : Nat) : State :=
  let s1 := ((s.wr Reg.BIAS.TARGET.RANGE range b).wr Reg.BIAS.TARGET.CODE code b).wr Reg.BIAS.STAT.WRITTEN 1 b
  let x := s.biasOf b
  if x.ph = .live then
    s1.setBias b { x with
      ph := if s.rd Reg.BIAS.STAT.RANGE b = range then .live else .parkDown
      quick := x.quick && code == 0 }
  else s1

/-! ## BIAS_SET (R352) -/

/-- Entry `i` of BIAS_SET: channel, range, write, action, code. -/
def biasEntry (e : Entry) (i : Nat) : Nat × Nat × Bool × Nat × Nat :=
  (opByte e (20 + 4 * i), opBits e (21 + 4 * i) 0 3, opBits e (21 + 4 * i) 3 1 == 1, opBits e (21 + 4 * i) 4 2,
    opBits e (22 + 4 * i) 0 12)

/-- An entry breaks a condition of R352. -/
def State.biasEntryBad (s : State) (c : Nat) (x : Nat × Nat × Bool × Nat × Nat) : Bool :=
  let (b, range, wr, act, code) := x
  b / 8 != c || act == 3 || (!wr && (range != 0 || code != 0)) ||
    (wr && (decide (5 ≤ range) || (range != 0 && !bitOf (s.rd Reg.BIAS.CFG.RANGE_MASK b) range) ||
      decide (s.rd Reg.BIAS.CFG.CODE_MAX b < code) || (decide (0 < code) && s.biasQuenched b))) ||
    (act == 1 && !wr && !s.flag Reg.BIAS.STAT.WRITTEN b) ||
    ((wr || act == 1) && s.flag Reg.BIAS.STAT.THERM_OFF)

def chkBiasSet (s : State) (f : Flight) : Option Res :=
  let n := opByte f.e 16
  let es := (List.range n).map fun i => biasEntry f.e i
  if n = 0 ∨ 8 < n ∨ es.any (fun x => s.biasEntryBad f.e.target.toNat x) ∨
      ((es.map fun x => x.1).eraseDups).length ≠ n then some { st := .badField }
  else none

/-- The effect of BIAS_SET (R352). -/
def runBiasSet (s : State) (g : Origin) (f : Flight) : State :=
  ((List.range (opByte f.e 16)).foldl (fun t i =>
    let (b, range, wr, act, code) := biasEntry f.e i
    let t1 := if wr then t.biasWrite b range code else t
    if act = 1 then t1.biasEnable b else if act = 2 then t1.biasDisable b else t1) s).finishSt g .ok

/-- BIAS_SET (R352). -/
def execBiasSet (r : RingNo) (e : Entry) (d : Dma) (s : State) : Host.Outcome State Fault Refusal :=
  .next (s.serve .biasSet r e d chkBiasSet runBiasSet)

/-! ## Quench groups (R241, R242, R353) -/

/-- A member of a triggered group (R241, R242): its recorded code becomes 0, and it ramps down, staying connected. -/
def State.quenchMember (s : State) (b : Nat) : State :=
  let x := s.biasOf b
  let s1 := s.wr Reg.BIAS.TARGET.CODE 0 b
  match x.ph with
  | .live | .parkDown | .parkDwell => s1.setBias b { x with ph := .live, quick := true }
  | _ => s1

/-- Trigger group `g` with a cause of `QUENCH_STAT`; the first cause stays. -/
def State.quenchGroup (s : State) (g cause : Nat) : State :=
  let s1 :=
    if s.groupQuenched g then s
    else
      (s.wr Reg.BIAS.QUENCH_STAT.QUENCHED (s.rd Reg.BIAS.QUENCH_STAT.QUENCHED ||| 2 ^ g)).wr
        Reg.BIAS.QUENCH_STAT.CAUSE (putBits (s.rd Reg.BIAS.QUENCH_STAT.CAUSE) (3 * g) 3 cause)
  (List.range 64).foldl (fun t b => if t.inGroup b g then t.quenchMember b else t) s1

/-- A condition that triggers group `g` still holds (R242). -/
def State.triggerHolds (s : State) (g : Nat) : Bool :=
  ((List.range 64).any fun b => s.inGroup b g &&
    ((s.flag Reg.BIAS.FLAG.COMP_NOW b && decide (2 ≤ s.rd Reg.BIAS.CFG.COMP_ACT b)) ||
      (s.flag Reg.BIAS.FLAG.OPEN_NOW b && s.rd Reg.BIAS.CFG.OPEN_ACT b == 3))) ||
  ((List.range 64).any fun j => s.flag Reg.DEC.CFG.QTRIG j && s.rd Reg.DEC.CFG.QGRP j == g &&
    (s.flag Reg.DEC.HYS.ABOVE j || s.flag Reg.DEC.HYS.BELOW j))

/-- The groups of a mask. -/
def maskGroups (m : Nat) : List Nat := (List.range 8).filter fun g => bitOf m g

def chkQuench (s : State) (f : Flight) : Option Res :=
  let rel := opByte f.e 17
  if 1 < rel ∨ (rel = 1 ∧ (maskGroups (opByte f.e 16)).any fun g => s.triggerHolds g) then some { st := .badField }
  else none

/-- The effect of QUENCH (R353). -/
def runQuench (s : State) (g : Origin) (f : Flight) : State :=
  let gs := maskGroups (opByte f.e 16)
  (if opByte f.e 17 = 0 then gs.foldl (fun t g => t.quenchGroup g 1) s
   else
    gs.foldl (fun t g =>
      (t.wr Reg.BIAS.QUENCH_STAT.QUENCHED (putBits (t.rd Reg.BIAS.QUENCH_STAT.QUENCHED) g 1 0)).wr
        Reg.BIAS.QUENCH_STAT.CAUSE (putBits (t.rd Reg.BIAS.QUENCH_STAT.CAUSE) (3 * g) 3 0)) s).finishSt g .ok

/-- QUENCH (R353). -/
def execQuench (r : RingNo) (e : Entry) (d : Dma) (s : State) : Host.Outcome State Fault Refusal :=
  .next (s.serve .quench r e d chkQuench runQuench)

/-! ## Ramps and parks (R233, R235, R236) -/

/-- Codes per µs of `RAMP` (R235). -/
def rampStep : Nat → Nat
  | 0 => 1
  | 1 => 4
  | 2 => 16
  | 3 => 64
  | _ => 128

/-- A code moved toward a goal by at most `n`. -/
def codeToward (code goal n : Nat) : Nat := if code ≤ goal then min goal (code + n) else max goal (code - n)

/-- The comparators watch the channel (R238): it is enabled and its ball connected. -/
def State.biasWatched (s : State) (b : Nat) : Bool :=
  s.vbias && s.flag Reg.BIAS.STAT.ENABLED b && s.rd Reg.BIAS.STAT.RANGE b != 0 &&
    (match (s.biasOf b).ph with | .live | .parkDown | .parkDwell => true | _ => false)

/-- The full scale of a range (R230): µV of a voltage range, nA of a current range. -/
def biasFull : Nat → Nat
  | 1 => 2500000
  | 2 => 3000000
  | 3 => 20000000
  | 4 => 80000000
  | _ => 0

/-- What a connected channel puts out (R230), FS × code / 4096 as a numerator over 4096. -/
def State.biasOutput (s : State) (b : Nat) : Nat := biasFull (s.rd Reg.BIAS.STAT.RANGE b) * s.rd Reg.BIAS.STAT.CODE b

/-- The compliance condition of the connected range (R238): the output at its source or sink limit, or the ball above
VBIAS less the minimum headroom at a code of at least 16. -/
def State.biasComp (s : State) (b vbias : Nat) (m : Ball) : Bool :=
  let high := fun room => decide (vbias < m.volt + room) && decide (16 ≤ s.rd Reg.BIAS.STAT.CODE b)
  match s.rd Reg.BIAS.STAT.RANGE b with
  | 1 => decide (30000000 ≤ m.load) || decide (m.load ≤ -5000000)
  | 2 => decide (20000000 ≤ m.load) || decide (m.load ≤ -5000000)
  | 3 => high 400000
  | 4 => high 600000
  | _ => false

/-- The open-load condition of the connected range (R238), at a code of at least 64, unless its detection is off (R239): a
load current below 20 µA, or the ball above VBIAS − 0.15 V with less than 10 % of the set current delivered. -/
def State.biasOpen (s : State) (b vbias : Nat) (m : Ball) : Bool :=
  s.rd Reg.BIAS.CFG.OPEN_ACT b != 0 && decide (64 ≤ s.rd Reg.BIAS.STAT.CODE b) &&
    (match s.rd Reg.BIAS.STAT.RANGE b with
    | 1 | 2 => decide (m.load < 20000)
    | 3 | 4 => decide (vbias < m.volt + 150000) && decide (10 * m.load * 4096 < s.biasOutput b)
    | _ => false)

/-- The conditions that have held so far, judged again on what the ball shows now. -/
def State.biasJudge (s : State) (b vbias : Nat) (m : Ball) : State :=
  (s.wrB Reg.BIAS.FLAG.COMP_NOW (s.flag Reg.BIAS.FLAG.COMP_NOW b && s.biasComp b vbias m && s.biasWatched b) b).wrB
    Reg.BIAS.FLAG.OPEN_NOW (s.flag Reg.BIAS.FLAG.OPEN_NOW b && s.biasOpen b vbias m && s.biasWatched b) b

/-- One µs of a channel's ramp (R235, R236, R237). -/
def State.biasTick (s : State) (b : Nat) : State :=
  let x := s.biasOf b
  let code := s.rd Reg.BIAS.STAT.CODE b
  match x.ph with
  | .live =>
    let goal := s.biasGoal b
    let step := if x.quick && decide (goal < code) then 128 else rampStep (s.rd Reg.BIAS.CFG.RAMP b)
    let code' := codeToward code goal step
    (s.wr Reg.BIAS.STAT.CODE code' b).setBias b { x with quick := x.quick && code' != goal }
  | .disabling =>
    let s1 := s.wr Reg.BIAS.STAT.CODE (code - 128) b
    if code - 128 = 0 then s1.biasOpenBall b .off else s1
  | .parkDown =>
    let s1 := s.wr Reg.BIAS.STAT.CODE (code - 128) b
    if code - 128 = 0 then s1.biasPhase b .parkDwell else s1
  | _ => s

/-- BIAS_RAMP_TICK (R235): `vbias` and `m` are VBIAS and what the channel's ball shows now. -/
def execBiasRampTick (b : BiasNo) (vbias : Nat) (m : Ball) (s : State) : Host.Outcome State Fault Refusal :=
  .next (if s.vbias then (s.biasTick b).biasJudge b vbias m else s)

/-- BIAS_CONNECT (R233): within 10 µs of its enable the ball connects. -/
def execBiasConnect (b : BiasNo) (s : State) : Host.Outcome State Fault Refusal :=
  .next (if s.vbias && (s.biasOf b).ph == .connecting then s.biasJoin b else s)

/-- BIAS_PARK_STEP (R236): the dwell at code 0 ends, or the ball reconnects in the new range. -/
def execBiasParkStep (b : BiasNo) (s : State) : Host.Outcome State Fault Refusal :=
  .next (
    if !s.vbias then s
    else
      match (s.biasOf b).ph with
      | .parkDwell => s.biasOpenBall b .parkOpen
      | .parkOpen => s.biasJoin b
      | _ => s)

/-! ## Compliance and open load (R238, R239, R240) -/

/-- Some channel of a course has a flag set. -/
def State.courseFlag (s : State) (f : Fld) (c : Nat) : Bool := (List.range 8).any fun i => s.flag f (8 * c + i)

/-- Apply an action to a channel: 0 report, 1 hold, 2 quench; a quench without a group acts as hold. -/
def State.biasAct (s : State) (b act cause : Nat) : State :=
  match act with
  | 0 => s
  | 1 => s.wr Reg.BIAS.STAT.HOLD 1 b
  | _ =>
    if s.flag Reg.BIAS.CFG.QG_EN b then s.quenchGroup (s.rd Reg.BIAS.CFG.QGRP b) cause
    else s.wr Reg.BIAS.STAT.HOLD 1 b

/-- A condition arises: its flag latches, the course's event rises with the OR, and the action applies. -/
def State.biasCondition (s : State) (b : Nat) (now flag : Fld) (k act cause : Nat) : State :=
  if s.flag now b then s
  else
    let c := b / 8
    let s1 := (s.wr now 1 b).wr flag 1 b
    (s1.raiseRise (s.courseFlag flag c) true (courseSrc c k) 0).biasAct b act cause

/-- A current range is connected. -/
def State.biasCurrent (s : State) (b : Nat) : Bool := decide (3 ≤ s.rd Reg.BIAS.STAT.RANGE b)

/-- BIAS_COMPLIANCE_DETECT (R238, R239): where the condition has held for 10 µs outside the blanking of 20 µs; in a current
range an open load takes its place. -/
def execBiasComplianceDetect (m : BallHeld) (s : State) : Host.Outcome State Fault Refusal :=
  .next (
    let b := m.b.val
    if !s.biasWatched b || decide (m.held < 10) || !s.biasComp b m.vbias m.ball ||
        (s.biasCurrent b && s.biasOpen b m.vbias m.ball) then s
    else
      (s.upTo (((s.biasOf b).connAt + 30) * 1000)).biasCondition b Reg.BIAS.FLAG.COMP_NOW Reg.BIAS.FLAG.COMP 6
        (min 2 (s.rd Reg.BIAS.CFG.COMP_ACT b)) 2)

/-- BIAS_OPEN_DETECT (R238, R239): where the condition has held for 10 µs in a current range or 100 µs in a voltage range; in
a current range it takes the place of compliance. -/
def execBiasOpenDetect (m : BallHeld) (s : State) : Host.Outcome State Fault Refusal :=
  .next (
    let b := m.b.val
    let act := s.rd Reg.BIAS.CFG.OPEN_ACT b
    if !s.biasWatched b || decide (m.held < (if s.biasCurrent b then 10 else 100)) || !s.biasOpen b m.vbias m.ball then s
    else
      let s1 := s.upTo (((s.biasOf b).connAt + (if s.biasCurrent b then 30 else 120)) * 1000)
      let s2 := if s.biasCurrent b then s1.wr Reg.BIAS.FLAG.COMP_NOW 0 b else s1
      s2.biasCondition b Reg.BIAS.FLAG.OPEN_NOW Reg.BIAS.FLAG.OPEN 7 (act - 1) 3)

/-- `HOLD` stands while a flag whose action holds is set (R239). -/
def State.biasHoldStays (s : State) (b : Nat) : Bool :=
  let noGroup := !s.flag Reg.BIAS.CFG.QG_EN b
  let ca := s.rd Reg.BIAS.CFG.COMP_ACT b
  let oa := s.rd Reg.BIAS.CFG.OPEN_ACT b
  s.flag Reg.BIAS.STAT.HOLD b &&
    ((s.flag Reg.BIAS.FLAG.COMP b && (ca == 1 || (decide (2 ≤ ca) && noGroup))) ||
      (s.flag Reg.BIAS.FLAG.OPEN b && (oa == 2 || (oa == 3 && noGroup))))

/-- A write of `v` to a channel's FLAG (R239): a flag clears only if its condition has ended. -/
def State.biasFlagWrite (s : State) (b v : Nat) : State :=
  let s1 := if bitOf v 0 && !s.flag Reg.BIAS.FLAG.COMP_NOW b then s.wr Reg.BIAS.FLAG.COMP 0 b else s
  let s2 := if bitOf v 1 && !s1.flag Reg.BIAS.FLAG.OPEN_NOW b then s1.wr Reg.BIAS.FLAG.OPEN 0 b else s1
  s2.wrB Reg.BIAS.STAT.HOLD (s2.biasHoldStays b) b

/-- BIAS_FLAG_CLEAR (R239): `vbias` and `m` are VBIAS and what the channel's ball shows now. -/
def execBiasFlagClear (b : BiasNo) (v : Word) (vbias : Nat) (m : Ball) (s : State) : Host.Outcome State Fault Refusal :=
  .next (s.regAccess Reg.BIAS.FLAG.COMP b 0 true fun s => (s.biasJudge b vbias m).biasFlagWrite b v.toNat)

/-! ## Thermal shutdown and VBIAS (R243, R244) -/

/-- Autonomous thermal shutdown darkens the array (R243). -/
def State.biasThermOff (s : State) : State :=
  if !s.vbias then s
  else
    (List.range 64).foldl (fun t b =>
      ((if t.flag Reg.BIAS.STAT.ENABLED b then t.biasDisable b else t).wr Reg.BIAS.STAT.WRITTEN 0 b).wr
        Reg.BIAS.STAT.ENABLED 0 b) (s.wr Reg.BIAS.STAT.THERM_OFF 1)

/-- The reset after a thermal shutdown (R243): the channels start as in R233, with their configuration kept. -/
def State.biasThermReset (s : State) : State :=
  if !s.flag Reg.BIAS.STAT.THERM_OFF then s
  else
    (List.range 64).foldl (fun t b =>
      ((((t.wr Reg.BIAS.STAT.CODE 0 b).wr Reg.BIAS.STAT.HOLD 0 b).wr Reg.BIAS.TARGET.CODE 0 b).wr
        Reg.BIAS.TARGET.RANGE 0 b).biasOpenBall b .off) (s.wr Reg.BIAS.STAT.THERM_OFF 0)

/-- The whole bias block at its values after VBIAS power-up (R244). -/
def State.biasClear (s : State) : State := { s.clearRegs 0x360000 0x360500 with bias := [] }

/-- VBIAS_LOSS (R244): every channel loses its state and goes high-impedance. -/
def execVbiasLoss (s : State) : Host.Outcome State Fault Refusal :=
  .next (if s.vbias then s.biasClear.wr Reg.BIAS.STAT.VBIAS_OK 0 else s)

/-- VBIAS_POWER_UP (R233, R244): every channel comes up in OFF, and VBIAS_LOST sets. -/
def execVbiasPowerUp (s : State) : Host.Outcome State Fault Refusal :=
  .next (if s.vbias then s
    else (s.biasClear.wr Reg.BIAS.STAT.VBIAS_OK 1).wr Reg.BIAS.STAT.VBIAS_LOST 1)

end Sys2Proof.Machine
end

