-- ==== Sys2Proof/Machine/Supervise.lean ====
section
/-! DEFINITION. The supervisory converters and the decimation chain (09_optics_bias_and_supervision, R246 to R257, R354). -/

namespace Sys2Proof.Machine

def State.scvOf (s : State) (x : Nat) : ScvX := Tab.get {} s.scv x
def State.setScv (s : State) (x : Nat) (v : ScvX) : State := { s with scv := Tab.set {} s.scv x v }
def State.decOf (s : State) (j : Nat) : DecX := Tab.get {} s.dec j
def State.setDec (s : State) (j : Nat) (v : DecX) : State := { s with dec := Tab.set {} s.dec j v }

/-! ## Inputs (R246, R247) -/

/-- The acquisition time of an input in 100 ns (R261): 0 acts as 1. -/
def State.inAcq (s : State) (x input : Nat) : Nat := max 1 (s.rd Reg.SCV.IN.ACQ x input)

/-- The gain of an input: internal inputs convert at 1. -/
def State.inGain (s : State) (x input : Nat) : Nat := if input < 80 then s.rd Reg.SCV.IN.GAIN x input else 0

/-- The code of a conversion (R246) of a voltage in µV at a gain code; inputs 94 and 95 convert analogue ground. -/
def scCode (input gain uv : Nat) : Nat :=
  let v := if 94 ≤ input then 0 else uv
  min 65535 (v * 2 ^ gain * 65536 / 2500000)

/-- A result clips at either end. -/
def scClip (code : Nat) : Bool := code == 0 || code == 65535

/-! ## The reference and the runs (R248 to R252) -/

def State.scEn (s : State) (x : Nat) : Bool := s.flag Reg.SCV.CTRL.EN x
def State.refReady (s : State) (x : Nat) : Bool := s.flag Reg.SCV.STAT.REF_READY x

/-- The regular sequence runs. -/
def State.scRunning (s : State) (x : Nat) : Bool := s.coreOn && s.scEn x && s.refReady x

/-- `REF_WAIT`: conversions wait for the reference. -/
def State.refWait (s : State) (x : Nat) : Bool :=
  (s.scvOf x).refOn && !s.refReady x && (s.scEn x || (s.scvOf x).sysDue || !(s.scvOf x).hostWait.isEmpty)

/-- The reference buffer follows what asks for it (R248). -/
def State.refSettle (s : State) (x : Nat) : State :=
  let v := s.scvOf x
  let want := s.coreOn && (s.scEn x || s.flag Reg.SCV.CTRL.REF_KEEP x || v.sysDue)
  if want = v.refOn then s
  else (s.setScv x { v with refOn := want }).wr Reg.SCV.STAT.REF_READY 0 x

/-- Start the injected run that is due, the system's first (R252). -/
def State.startRun (s : State) (x : Nat) : State :=
  let v := s.scvOf x
  if v.run ≠ 0 ∨ !s.refReady x then s
  else if v.sysDue then s.setScv x { v with run := 2 }
  else if v.hostWait.isEmpty then s
  else s.setScv x { v with run := 1 }

/-- A host trigger (R250): one may wait beside the run in progress; a further one is discarded. -/
def State.hostTrigger (s : State) (x : Nat) (o : Origin) : State :=
  let v := s.scvOf x
  if v.hostWait.length < (if v.run = 1 then 2 else 1) then
    (s.setScv x { v with hostWait := v.hostWait ++ [o] }).startRun x
  else s.wr Reg.SCV.STAT.INJ_OVR 1 x

/-- The entries the registers name for the next round (R249, R261): values above 95 act as 95. -/
def State.nextForce (s : State) (x : Nat) : List (Nat × Nat × Nat) :=
  (List.range (s.rd Reg.SCV.CTRL.SEQ_LEN x + 1)).map fun i =>
    let input := min 95 (s.rd Reg.SCV.SEQ.INPUT x i)
    (input, s.inAcq x input, s.inGain x input)

/-- The time of a list of entries in 5 ns units: each its acquisition and 150 ns. -/
def entriesTime (l : List (Nat × Nat × Nat)) : Nat := l.foldl (fun t e => t + 20 * e.2.1 + 30) 0

/-! ## Outputs still unsettled (R253, R255) -/

def unsettledInput : Nat → Nat
  | 0 => 0
  | 1 => 1
  | 2 => 4
  | _ => 8

def unsettledOwn : Nat → Nat
  | 2 => 3
  | 3 => 7
  | _ => 0

/-- The decimation channels of a converter. -/
def decChannels (x : Nat) : List Nat := (List.range 32).map fun i => 32 * x + i

/-- A round starts: what was written takes effect (R249), and the channels whose input changed are unsettled (R255). -/
def State.startRound (s : State) (x : Nat) : State :=
  let v := s.scvOf x
  let nf := s.nextForce x
  let s1 := s.setScv x { v with force := nf, shifted := none }
  let s2 := (List.range nf.length).foldl (fun t i =>
    t.wr Reg.SCV.SEQ.OFFSET (entriesTime (nf.take i) + 20 * (nf.getD i (0, 1, 0)).2.1) x i) s1
  let s3 := s2.wr Reg.SCV.ROUND.T_ROUND (max 800 (entriesTime nf)) x
  (decChannels x).foldl (fun t j =>
    let d := t.decOf j
    if t.flag Reg.DEC.CFG.EN j ∧ nf[d.src]? ≠ v.force[d.src]? then
      t.setDec j { d with unsettled := max d.unsettled (unsettledInput d.filt) }
    else t) s3

/-- REFERENCE_READY (R248): the buffer has been on for 20 µs. -/
def execReferenceReady (x : ScNo) (s : State) : Host.Outcome State Fault Refusal :=
  .next (
    if !s.coreOn || !(s.scvOf x).refOn || s.refReady x then s
    else
      let s1 := s.wr Reg.SCV.STAT.REF_READY 1 x
      (if s1.scEn x then s1.startRound x else s1).startRun x)

/-- INJECT_TIMER (R250): the timer triggers the host sequence where `TRIG` selects it. -/
def execInjectTimer (x : ScNo) (s : State) : Host.Outcome State Fault Refusal :=
  .next (
    if s.coreOn && (s.rd Reg.SCV.INJ_CTRL.TRIG x == 1 || s.rd Reg.SCV.INJ_CTRL.TRIG x == 2) then
      s.hostTrigger x .device
    else s)

/-- SYSTEM_INJECTION (R251): the system sequence falls due, whether or not the converter is enabled. -/
def execSystemInjection (x : ScNo) (s : State) : Host.Outcome State Fault Refusal :=
  .next (if s.coreOn then ((s.setScv x { s.scvOf x with sysDue := true }).refSettle x).startRun x else s)

/-- The word `INJ_RES[i]` reads as. -/
def State.injResWord (s : State) (x i : Nat) : Nat :=
  s.rd Reg.SCV.INJ_RES.CODE x i + 2 ^ 16 * s.rd Reg.SCV.INJ_RES.CLIP x i + 2 ^ 18 * s.rd Reg.SCV.INJ_RES.EARLY x i +
    2 ^ 24 * s.rd Reg.SCV.INJ_RES.COUNT x i

/-- Entry `i` of the host sequence converts `uv` (R250). -/
def State.injResult (s : State) (x i uv : Nat) : State :=
  let input := min 95 (s.rd Reg.SCV.INJ.INPUT x i)
  let code := scCode input (s.inGain x input) uv
  (((s.wr Reg.SCV.INJ_RES.CODE code x i).wrB Reg.SCV.INJ_RES.CLIP (scClip code) x i).wrB Reg.SCV.INJ_RES.EARLY
    (s.flag Reg.SCV.INJ.FAST x i && decide (1 < s.inAcq x input)) x i).countWrap Reg.SCV.INJ_RES.COUNT 1 x i

/-- The entry a run has aborted, and every later one of the round, are delayed (R252). -/
def State.markShifted (s : State) (x : Nat) (entry : Option Nat) : State :=
  let v := s.scvOf x
  if s.scRunning x then
    s.setScv x { v with shifted := match entry, v.shifted with
      | some a, some b => some (min a b)
      | some a, none => some a
      | none, o => o }
  else s

/-- A host run ends: its results are written and its command completes with them (R354). -/
def State.endHostRun (s : State) (x : Nat) (uv : List Nat) : State :=
  let v := s.scvOf x
  let s1 := (List.range (s.rd Reg.SCV.INJ_CTRL.INJ_LEN x + 1)).foldl (fun t i => t.injResult x i (uv.getD i 0)) s
  let s2 := s1.setScv x { v with run := 0, hostWait := v.hostWait.drop 1 }
  match v.hostWait with
  | [] => s2
  | o :: _ =>
    s2.finish o { r1 := s2.injResWord x 0, r2 := s2.injResWord x 1, r3 := s2.injResWord x 2, r4 := s2.injResWord x 3 }

/-- A system run ends: VDD_CORE at input 82 is taken for the AVS advice (R207, R247). -/
def State.endSystemRun (s : State) (x : Nat) (uv : List Nat) : State :=
  let code := scCode 82 0 (uv.getD 2 0)
  (s.setScv x { s.scvOf x with run := 0, sysDue := false }).wr Reg.GLB.AVS_MEAS.VCORE_MV
    ((code * 2500 + 32768) / 65536)

/-- INJECTED_RUN_END (R252): `uv` the voltages its entries met in µV, `entry` the regular entry it aborted. -/
def execInjectedRunEnd (x : ScNo) (uv : List Nat) (entry : Option Nat) (s : State) :
    Host.Outcome State Fault Refusal :=
  .next (
    let v := s.scvOf x
    if !s.coreOn || v.run == 0 then s
    else
      let s1 := s.markShifted x entry
      let s2 := if v.run = 1 then s1.endHostRun x uv else s1.endSystemRun x uv
      (s2.refSettle x).startRun x)

def chkScInject (s : State) (f : Flight) : Option Res :=
  let x := f.e.target.toNat
  if x = 2 ∨ s.rd Reg.SCV.INJ_CTRL.TRIG x = 1 then some { st := .badField }
  else if !(s.scvOf x).hostWait.isEmpty then some { st := .inUse }
  else none

/-- SC_INJECT (R354): it completes when its run ends. -/
def execScInject (r : RingNo) (e : Entry) (d : Dma) (s : State) : Host.Outcome State Fault Refusal :=
  .next (s.serve .scInject r e d chkScInject fun s g f => s.hostTrigger f.e.target.toNat g)

/-! ## Thresholds (R256, R257) -/

/-- The OR behind a course's SC_THRESHOLD. -/
def State.thrOr (s : State) (c : Nat) : Bool :=
  (List.range 64).any fun j => s.rd Reg.DEC.CFG.COURSE j == c && s.flag Reg.DEC.CFG.EVT_EN j &&
    s.flag Reg.DEC.THR_FLAG.FLAG j

/-- SC_THRESHOLD of the courses whose OR has risen since `old`. -/
def State.thrRaise (s old : State) : State :=
  (List.range 8).foldl (fun t c => t.raiseRise (old.thrOr c) (s.thrOr c) (courseSrc c 8) 0) s

/-- ABOVE or BELOW of a channel rises (R257). -/
def State.thrRise (s : State) (j : Nat) : State :=
  let s1 := (s.wr Reg.DEC.THR_FLAG.FLAG 1 j).thrRaise s
  if s1.flag Reg.DEC.CFG.QTRIG j ∧ s1.vbias then s1.quenchGroup (s1.rd Reg.DEC.CFG.QGRP j) 4 else s1

/-- One side of R256 at a settled output: `active` the condition, `n` the count so far, `up` and `down` what counts
toward rising and clearing; the condition and the count afterwards. -/
def dwellSide (active : Bool) (n dwell : Nat) (up down : Bool) : Bool × Nat :=
  if (if active then down else up) then (if dwell < n + 1 then (!active, 0) else (active, n + 1)) else (active, 0)

/-- The thresholds at a settled output `v` (R256). -/
def State.threshold (s : State) (j v : Nat) : State :=
  let d := s.decOf j
  let dw := s.rd Reg.DEC.CFG.DWELL j
  let hi := s.rd Reg.DEC.THR.HI j
  let lo := s.rd Reg.DEC.THR.LO j
  let hys := s.rd Reg.DEC.HYS.HYS j
  let (a, na) := dwellSide (s.flag Reg.DEC.HYS.ABOVE j) d.above dw (decide (hi < v)) (decide ((v : Int) ≤ (hi : Int) - hys))
  let (b, nb) := dwellSide (s.flag Reg.DEC.HYS.BELOW j) d.below dw (decide (v < lo)) (decide (lo + hys ≤ v))
  let s1 := ((s.setDec j { d with above := na, below := nb }).wrB Reg.DEC.HYS.ABOVE a j).wrB Reg.DEC.HYS.BELOW b j
  if (a && !s.flag Reg.DEC.HYS.ABOVE j) || (b && !s.flag Reg.DEC.HYS.BELOW j) then s1.thrRise j else s1

/-! ## Decimation (R253, R255) -/

/-- The taps of a filter's window. -/
def filterTaps (filt m : Nat) : Nat :=
  match filt with
  | 0 => 1
  | 1 => m
  | 2 => 4 * m
  | _ => 8 * m

/-- The value of an output, and whether it is one the spec gives no coefficients for. -/
def filterValue (filt m : Nat) (hist : List (Nat × Bool × Bool)) : Option Nat :=
  match filt with
  | 0 => some ((hist.headD (0, false, false)).1)
  | 1 => some (min 65535 ((2 * ((hist.take m).foldl (fun t h => t + h.1) 0) + m) / (2 * m)))
  | _ => none

/-- A channel's configuration as its registers hold it. -/
def State.decRegs (s : State) (j : Nat) : Nat × Nat × Nat :=
  (s.rd Reg.DEC.CFG.SRC_ENTRY j, s.rd Reg.DEC.CFG.FILT j, min 8 (s.rd Reg.DEC.CFG.M_LOG2 j))

/-- A channel emits an output (R253, R255), judges it, and takes a change of its own configuration. -/
def State.decOutput (s : State) (j : Nat) : State :=
  let d := s.decOf j
  let m := 2 ^ d.mlog
  let win := d.hist.take (filterTaps d.filt m)
  let (v, s1) := match filterValue d.filt m d.hist with
    | some v => (v, s)
    | none => (s.free % 65536, s.freed)
  let s2 := (((s1.wr Reg.DEC.OUT.VALUE v j).wrB Reg.DEC.OUT.UNSETTLED (d.unsettled != 0) j).wrB Reg.DEC.OUT.SHIFTED
    (win.any fun h => h.2.1) j).wrB Reg.DEC.OUT.CLIP (win.any fun h => h.2.2) j
  let s3 := (s2.wr Reg.DEC.OUT.VALID 1 j).countWrap Reg.DEC.OUT.SEQ 1 j
  let s4 := if d.unsettled = 0 then s3.threshold j v else s3.setDec j { d with unsettled := d.unsettled - 1 }
  let (src, filt, mlog) := s4.decRegs j
  let d4 := s4.decOf j
  if (src, filt, mlog) = (d4.src, d4.filt, d4.mlog) then s4
  else s4.setDec j { d4 with src := src, filt := filt, mlog := mlog, unsettled := max d4.unsettled (unsettledOwn filt) }

/-- A round's sample reaches a channel (R253): results are (code, shifted, clip) by entry. -/
def State.decRound (s : State) (j : Nat) (res : List (Nat × Bool × Bool)) : State :=
  if !s.flag Reg.DEC.CFG.EN j then s
  else
    let d := s.decOf j
    match res[d.src]? with
    | none => s.setDec j { d with rounds := d.rounds + 1 }
    | some h =>
      let s1 := s.setDec j { d with rounds := d.rounds + 1, hist := (h :: d.hist).take 2048 }
      if (d.rounds + 1) % 2 ^ d.mlog = 0 then s1.decOutput j else s1

/-- The results of a round are written (R249, R252). -/
def State.roundResult (s : State) (x i : Nat) (h : Nat × Bool × Bool) : State :=
  (((s.wr Reg.SCV.RES.CODE h.1 x i).wrB Reg.SCV.RES.CLIP h.2.2 x i).wrB Reg.SCV.RES.SHIFTED h.2.1 x i).countWrap
    Reg.SCV.RES.COUNT 1 x i

/-- SC_ROUND_END (R249): a round ends; `uv` are the voltages its entries met, in µV. -/
def execScRoundEnd (x : ScNo) (uv : List Nat) (s : State) : Host.Outcome State Fault Refusal :=
  .next (
    let v := s.scvOf x
    if !s.scRunning x || v.run != 0 then s
    else
      let res : List (Nat × Bool × Bool) := v.force.zipIdx.map fun p =>
        let code := scCode p.1.1 p.1.2.2 (uv.getD p.2 0)
        (code, (match v.shifted with | some k => decide (k ≤ p.2) | none => false), scClip code)
      let s1 := res.zipIdx.foldl (fun t p => t.roundResult x p.2 p.1) s
      let s2 := s1.countWrap Reg.SCV.STAT.ROUND_CNT 1 x
      ((decChannels x).foldl (fun t j => t.decRound j res) s2).startRound x)

/-! ## Writes that act (R248, R249, R253, R256) -/

/-- After a write of a converter's CTRL. -/
def State.scCtrlWritten (s old : State) (x : Nat) : State :=
  let s1 := s.refSettle x
  if s1.scEn x ∧ !old.scEn x ∧ s1.refReady x then s1.startRound x else s1

/-- After a write of a channel's CFG: EN starts or stops it, and SC_THRESHOLD follows the OR. -/
def State.decCfgWritten (s old : State) (j : Nat) : State :=
  let on := s.flag Reg.DEC.CFG.EN j
  let was := old.flag Reg.DEC.CFG.EN j
  let s1 :=
    if on && !was then
      let (src, filt, mlog) := s.decRegs j
      s.setDec j { src := src, filt := filt, mlog := mlog, unsettled := unsettledInput filt }
    else if !on && was then
      (((s.setDec j {}).wr Reg.DEC.OUT.VALID 0 j).wr Reg.DEC.HYS.ABOVE 0 j).wr Reg.DEC.HYS.BELOW 0 j
    else s
  s1.thrRaise old

/-- After a write of a channel's limits the dwell counts afresh (R256). -/
def State.decThrWritten (s : State) (j : Nat) : State := s.setDec j { s.decOf j with above := 0, below := 0 }

end Sys2Proof.Machine
end

