-- ==== Sys2Proof/Machine/Cmis.lean ====
section
/-! DEFINITION. CMIS management of the optical engines (R258 to R260, R355). -/

namespace Sys2Proof.Machine

def State.cmisOf (s : State) (c : Nat) : CmisX := Tab.get {} s.cmis c
def State.setCmis (s : State) (c : Nat) (x : CmisX) : State := { s with cmis := Tab.set {} s.cmis c x }

/-- CMIS runs on a course: C_ON or C_IDLE, and its optics engine runs (R18, R260). -/
def State.cmisOn (s : State) (c : Nat) : Bool := s.courseD c && s.engMapOf (opticsOf c) == .running

/-- `POLL_PAUSED` (R260). -/
def State.pollPaused (s : State) (c : Nat) : Bool := s.courseD c && s.engMapOf (opticsOf c) != .running

/-- An access as it goes out on the bus `CMIS_CTRL` selects (R258). -/
def State.cmisFrame (s : State) (c : Nat) (j : CmisJob) : Out :=
  .cmis c (s.flag Reg.CRS.CMIS_CTRL.BUS c) (s.rd Reg.CRS.CMIS_CTRL.ADDR c) j.write j.page j.ofs j.n j.data

/-- The access at the head of the queue goes out on the bus. -/
def State.cmisSend (s : State) (c : Nat) : State :=
  match (s.cmisOf c).jobs with
  | [] => s
  | j :: _ => s.emit (s.cmisFrame c j)

/-- The access on the bus ends, and the next one goes out. -/
def State.cmisNext (s : State) (c : Nat) : State :=
  let x := s.cmisOf c
  (s.setCmis c { x with jobs := x.jobs.drop 1, tries := 0 }).cmisSend c

/-- CMIS_POLL (R259): the optics engine has read the module's state and flags; a poll never interleaves an access. The
optics engine of a STANDBY course does not use the port (R275). -/
def execCmisPoll (c : CourseNo) (m : CmisSeen) (s : State) : Host.Outcome State Fault Refusal :=
  .next (
    let x := s.cmisOf c
    if !s.cmisOn c || !s.owns c || !s.flag Reg.CRS.CMIS_CTRL.POLL_EN c || !x.jobs.isEmpty then s
    else
      let modCh := m.modFlags != x.modFlags
      let lanes := (List.range 8).foldl (fun v i =>
        v + bitVal (m.laneFlags.getD i 0 != x.laneFlags.getD i 0) * 2 ^ i) 0
      let stCh := s.rd Reg.CRS.CMIS_STAT.MOD_STATE c != m.state.val
      let s1 := (((s.wrB Reg.CRS.CMIS_STAT.PRESENT m.present c).wrB Reg.CRS.CMIS_STAT.INT m.int c).wr
        Reg.CRS.CMIS_STAT.MOD_STATE m.state c).countWrap Reg.CRS.CMIS_STAT.POLLS 1 c
      let s2 := s1.setCmis c { x with polling := false, tries := 0, modFlags := m.modFlags, laneFlags := m.laneFlags }
      if modCh || stCh || lanes != 0 then
        s2.raise 3 (c.val + bitVal modCh * 8 + lanes * 16 + m.state.val * 4096)
      else s2)

/-- MOD_INT_ASSERT (R259): a poll follows within 1 ms. -/
def execModIntAssert (c : CourseNo) (s : State) : Host.Outcome State Fault Refusal :=
  .next (
    if !s.courseD c then s
    else (s.wr Reg.CRS.CMIS_STAT.INT 1 c).setCmis c { s.cmisOf c with
      polling := s.flag Reg.CRS.CMIS_CTRL.POLL_EN c })

/-- CMIS_BUS_TIMEOUT (R258): a transaction is not acknowledged or runs beyond 10 ms; the third failure sets BUS_FAULT
and ends the command with BUS_ERROR. -/
def execCmisBusTimeout (c : CourseNo) (s : State) : Host.Outcome State Fault Refusal :=
  .next (
    let x := s.cmisOf c
    if !s.cmisOn c then s
    else if x.tries + 1 < 3 then (s.setCmis c { x with tries := x.tries + 1 }).cmisSend c
    else
      let s1 := s.wr Reg.CRS.CMIS_STAT.BUS_FAULT 1 c
      match x.jobs with
      | [] => s1.setCmis c { x with tries := 0, polling := false }
      | j :: _ => (s1.cmisNext c).finishSt j.origin .busError)

/-- CMIS_ACCESS_DONE (R355): the access on the bus has succeeded, with the bytes a read returns. While the optics engine
is being replaced the result is discarded (R260). -/
def execCmisAccessDone (c : CourseNo) (data : List Byte) (s : State) : Host.Outcome State Fault Refusal :=
  .next (
    if !s.cmisOn c then s
    else
      match (s.cmisOf c).jobs with
      | [] => s
      | j :: _ =>
        let s1 := s.cmisNext c
        if j.write then s1.finishSt j.origin .ok
        else
          let bytes := (data ++ List.replicate (j.n - data.length) 0).take j.n
          let (s2, fail) := s1.hostWrite j.d j.addr bytes
          s2.finishSt j.origin (if fail.isSome then .dmaFault else .ok))

/-- The checks of a CMIS access (R260, R355): `top` is the most bytes it may move. -/
def chkCmis (top : Nat) (read : Bool) (s : State) (f : Flight) : Option Res :=
  let ofs := opByte f.e 18
  let n := opByte f.e 19
  if !s.owns f.e.target.toNat then some { st := .notOwner }
  else if opByte f.e 16 ≠ 0 ∨ n = 0 ∨ top < n ∨ 256 < ofs + n ∨ (ofs < 128 ∧ 128 < ofs + n) then some { st := .badField }
  else if read ∧ (op64 f.e 24 % 4 ≠ 0 ∨ 2 ^ 64 < op64 f.e 24 + n) then some { st := .badField }
  else none

/-- Queue a CMIS access for the bus. -/
def State.cmisQueue (s : State) (c : Nat) (j : CmisJob) : State :=
  let x := s.cmisOf c
  let s1 := s.setCmis c { x with jobs := x.jobs ++ [j] }
  if x.jobs.isEmpty then s1.cmisSend c else s1

def runCmis (wr : Bool) (s : State) (g : Origin) (f : Flight) : State :=
  let n := opByte f.e 19
  s.cmisQueue f.e.target.toNat {
    origin := g, write := wr, page := opByte f.e 17, ofs := opByte f.e 18, n := n
    data := if wr then opBytes f.e 32 n else [], addr := if wr then 0 else op64 f.e 24, d := f.d }

/-- CMIS_READ (R355). -/
def execCmisRead (r : RingNo) (e : Entry) (d : Dma) (s : State) : Host.Outcome State Fault Refusal :=
  .next (s.serve .cmisRead r e d (chkCmis 128 true) (runCmis false))

/-- CMIS_WRITE (R355). -/
def execCmisWrite (r : RingNo) (e : Entry) (d : Dma) (s : State) : Host.Outcome State Fault Refusal :=
  .next (s.serve .cmisWrite r e d (chkCmis 32 false) (runCmis true))

/-- Commands waiting for a bus whose course goes off end with a status. -/
def State.cmisStop (s : State) (c : Nat) (st : Status) : State :=
  let x := s.cmisOf c
  x.jobs.foldl (fun t j => t.finishSt j.origin st) (s.setCmis c {})

end Sys2Proof.Machine
end

