-- ==== Sys2Proof/Machine/TwinOps.lean ====
section
/-! DEFINITION. What the other chapters ask of the pair (10_twin_pairing): the levels of TWIN_SEL and the model of the
engine's side (R269 to R272), twin states and what takes the pair to DEGRADED (R274), yields (R283), and the states of
the Filkor link (R265 to R268). -/

namespace Sys2Proof.Machine

/-! ## Twin states (R274) -/

/-- `SOLO_CAUSE` (R289): in SOLO with pairing enabled and no ACTIVE link the cause is the missing link. -/
def State.soloCause (s : State) : Nat :=
  let v := s.rd Reg.FLK.TWIN_STAT.SOLO_CAUSE
  if s.twinState = 0 ∧ v = 0 ∧ s.rd Reg.FLK.TWIN_CFG.EN = 1 ∧ s.twin.strap ≠ 0 ∧ s.rd Reg.FLK.STAT.LINK_STATE ≠ 5 then 1
  else v

/-- Change the twin state; TWIN_STATE is raised at every change. -/
def State.twinTo (s : State) (st : Nat) : State :=
  let old := s.twinState
  if old = st then s
  else
    let s1 := s.wr Reg.FLK.TWIN_STAT.STATE st
    let s2 := if st = 1 ∨ st = 0 then s1.wr Reg.FLK.TWIN_STAT.DEG_CAUSE 0 else s1
    let s3 := if st = 0 then s2.wr Reg.FLK.TWIN_STAT.MIRROR_VER 0 else s2.wr Reg.FLK.TWIN_STAT.SOLO_CAUSE 0
    s3.raise 4 (st + 8 * old + 64 * s3.rd Reg.FLK.TWIN_STAT.DEG_CAUSE + 512 * s3.soloCause)

/-- A cause of DEGRADED arises: the first is named; during TAKEOVER the state follows once the move ends (R274). -/
def State.twinDegrade (s : State) (cause : Nat) : State :=
  let bad : UpdX := { s.upd with diverged := s.upd.diverged || cause == 3 || cause == 4 }
  match s.twinState with
  | 1 | 2 => (({ s with upd := bad } : State).wr Reg.FLK.TWIN_STAT.DEG_CAUSE cause).twinTo 3
  | 4 =>
    if s.twin.prev = 1 ∨ s.twin.prev = 2 then
      ({ s with upd := bad, twin := { s.twin with prev := 3 } } : State).wr Reg.FLK.TWIN_STAT.DEG_CAUSE cause
    else s
  | _ => s

/-- Ownership of a course starts to move: TAKEOVER, with the state to return to. -/
def State.startMove (s : State) : State :=
  if s.twinState = 4 then s else ({ s with twin := { s.twin with prev := s.twinState } } : State).twinTo 4

/-- With no move left the previous state returns. -/
def State.endMoves (s : State) : State :=
  if s.twinState = 4 ∧ s.twin.handovers = [] ∧ s.twin.takeovers = [] then s.twinTo s.twin.prev else s

/-! ## TWIN_SEL and the engine's side (R269, R270) -/

/-- The level of TWIN_SENSE[c]; a device with TWIN_ROLE NONE ignores it. -/
def State.sense (s : State) (c : Nat) : Bool := Tab.get false s.twin.sense c

/-- The engine of course c changes side where exactly one select input is high, and keeps its side otherwise. -/
def State.modelSide (s : State) (c : Nat) : State :=
  let a := if s.twin.strap = 2 then s.sense c else s.ownSel c
  let b := if s.twin.strap = 2 then s.ownSel c else s.sense c
  if a = b then s else { s with twin := { s.twin with sideB := Tab.set false s.twin.sideB c b } }

/-- Moves of a course end: a takeover when the course is this device's, a handover when it is the twin's (R285). -/
def State.settleMoves (s : State) (c : Nat) : State :=
  let own := s.owns c
  let s1 := if own then
      (s.twin.takeovers.filter fun m => m.course == c).foldl (fun t m => t.finish m.origin { r0 := 1 })
        { s with twin := { s.twin with takeovers := s.twin.takeovers.filter fun m => m.course != c } }
    else
      (s.twin.handovers.filter fun m => m.course == c).foldl (fun t m => t.finishSt m.origin .ok)
        { s with twin := {
          s.twin with
          handovers := s.twin.handovers.filter fun m => m.course != c
          ready := Tab.set false s.twin.ready c false } }
  s1.endMoves

/-- The levels of course c have changed: its role is modelled again, and TWIN_OWNERSHIP is raised where it changes
(R270, R288). With TWIN_ROLE NONE every course stays this device's. -/
def State.remodel (s : State) (c : Nat) : State :=
  if s.twin.strap = 0 then s
  else
    let s1 := s.modelSide c
    (if s1.owns c = s.owns c then s1 else s1.raise (courseSrc c 9) 0).settleMoves c

/-- Drive the device's own TWIN_SEL[c]; a level raised starts its lease (R272). -/
def State.setOwnSel (s : State) (c : Nat) (b : Bool) : State :=
  if s.ownSel c = b then s
  else
    ({ s with twin := {
        s.twin with
        ownSel := Tab.set false s.twin.ownSel c b
        lease := if b then Tab.set 0 s.twin.lease c s.time else s.twin.lease } } : State).remodel c

/-- A STANDBY course's level is raised to take it: it is ARMED until the twin's level falls, or ACTIVE at once. -/
def State.takeCourse (s : State) (c : Nat) (o : Origin) : State :=
  if s.ownSel c && s.owns c then s
  else
    let s1 := s.startMove
    let s2 : State := { s1 with twin := { s1.twin with takeovers := s1.twin.takeovers ++ [⟨c, o, s1.time⟩] } }
    if s2.ownSel c then s2.settleMoves c else s2.setOwnSel c true

/-- The owner yields a course (R283): the level falls, and the next HEARTBEAT carries the YIELD bit. -/
def State.courseYield (s : State) (c : Nat) : State :=
  if s.owns c && s.ownSel c then
    ({ s with twin := { s.twin with yields := Tab.set false s.twin.yields c true } } : State).setOwnSel c false
  else s.setOwnSel c false

/-- `TWIN_COURSE.ARMED` (R270). -/
def State.armed (s : State) (c : Nat) : Bool := s.ownSel c && !s.owns c

/-- A lane whose output is enabled (R146). -/
def State.transmits (s : State) (n : Nat) : Bool := s.flag Reg.LN.TX_STAT.TX_ACTIVE n

/-- `TWIN_COURSE.TX_ALIGN` (R276): every transmitting lane of a STANDBY course is aligned to the owner's. -/
def State.txAligned (s : State) (c : Nat) : Bool :=
  !s.owns c && (List.range 8).any (fun i => s.transmits (8 * c + i)) &&
    (List.range 8).all fun i => !s.transmits (8 * c + i) || Tab.get false s.twin.aligned (8 * c + i)

/-- The courses for which a property holds, as a mask. -/
def courseMask (p : Nat → Bool) : Nat := (List.range 8).foldl (fun (v c : Nat) => v + bitVal (p c) * 2 ^ c) 0

/-- `TWIN_COURSE.WARM` (R276). -/
def State.warm (s : State) (c : Nat) : Bool :=
  s.txAligned c && (List.range 8).all fun i =>
    let st := s.lane (8 * c + i)
    s.mode (8 * c + i) == 0 || st == 3 || st == 4

/-! ## The link (R265 to R268) -/

/-- The link blocks run: CORE and FLK on, and not in FL2. -/
def State.linkOn (s : State) : Bool := s.coreOn && s.pwr.flkOn && s.rd Reg.FLK.STAT.LP_STATE != 2

/-- K3 runs the link's bring-up and the twin manager (R16). -/
def State.k3On (s : State) : Bool := s.coreOn && s.coreRuns 3

/-- `LANE_STAT.STATE` in each link state. -/
def flkLaneState (l : Nat) : Nat :=
  match l with
  | 4 => 3
  | 5 => 4
  | 6 => 5
  | _ => l

/-- The link has left ACTIVE: an image of the twin that has not been verified is given up (R455). -/
def State.twinImageLost (s : State) : State :=
  if s.rd Reg.UPD.STAT.LOCK = 2 ∧ s.rd Reg.UPD.STAT.STATE = 1 then s.dropImage else s

/-- The link takes a state (`LINK_STATE`); FILKOR_LINK is raised at every entry to or exit from ACTIVE, and a pair whose
link leaves ACTIVE is DEGRADED. -/
def State.linkTo (s : State) (l : Nat) : State :=
  let old := s.rd Reg.FLK.STAT.LINK_STATE
  let s1 := (List.range 8).foldl (fun t i =>
    let t1 := t.wr Reg.FLK.LANE_STAT.STATE (flkLaneState l) i
    let t2 := if l = 0 ∨ l = 1 then t1.wr Reg.FLK.LANE_STAT.CDR_LOCK 0 i else t1
    if 3 ≤ l ∧ l ≤ 5 then t2 else (t2.wr Reg.FLK.LANE_STAT.BLOCK_LOCK 0 i).wr Reg.FLK.LANE_STAT.SKEW 0 i)
      (s.wr Reg.FLK.STAT.LINK_STATE l)
  let s2 : State := if l = 1 then { s1 with twin := { s1.twin with trainAt := s1.time } } else s1
  if old ≠ 5 ∧ l = 5 then s2.raise 5 (1 + 2 * l)
  else if old = 5 ∧ l ≠ 5 then
    let s3 := ((if s2.rd Reg.FLK.STAT.LP_STATE = 1 then s2.wr Reg.FLK.STAT.LP_STATE 0 else s2).raise 5 (2 * l)).twinDegrade 2
    s3.twinImageLost
  else s2

/-- The PRBS blocks of the Filkor lanes act: some lane has one enabled, in SOLO with pairing off (R268). -/
def State.flkTesting (s : State) : Bool :=
  s.twinState == 0 && s.rd Reg.FLK.TWIN_CFG.EN == 0 && (List.range 8).any fun i =>
    s.flag Reg.FLK.PRBS_CTRL.GEN_EN i || s.flag Reg.FLK.PRBS_CTRL.CHK_EN i ||
      s.rd Reg.FLK.PRBS_CTRL.LOOP i == 1 || s.rd Reg.FLK.PRBS_CTRL.LOOP i == 2

/-- While any of them acts the link is in TEST; after the last it restarts from TRAIN (R268). -/
def State.flkTestSettle (s : State) : State :=
  if !s.linkOn then s
  else if s.flkTesting then (if s.rd Reg.FLK.STAT.LINK_STATE = 6 then s else s.linkTo 6)
  else if s.rd Reg.FLK.STAT.LINK_STATE = 6 then s.linkTo 1 else s

/-- FLK loses its power (R274, R423): the link falls to DETECT, its registers go back to their values after cold reset,
and the pair is DEGRADED. -/
def State.flkDown (s : State) : State :=
  let s0 := s.twinDegrade 5
  let s1 := if s0.rd Reg.FLK.STAT.LINK_STATE = 5 then (s0.raise 5 0).twinImageLost else s0
  { (s1.clearRegs 0x340000 0x340008).clearRegs 0x340100 0x340200 with
    chk := s1.chk.filter fun (q : Nat × ChkX) => decide (q.1 < 192) }

/-- `TWIN_CFG` has been written: with `EN` at 0 the device is SOLO (R274). -/
def State.twinCfgWritten (s : State) : State :=
  (if s.rd Reg.FLK.TWIN_CFG.EN = 0 then
    (((s.twin.handovers ++ s.twin.takeovers).foldl (fun (t : State) (m : Move) => t.finishSt m.origin .twinNotSynced)
      { s with twin := { s.twin with handovers := [], takeovers := [], ready := [] } }).twinTo 0).wr Reg.FLK.TWIN_STAT.SOLO_CAUSE 0
  else s).flkTestSettle

end Sys2Proof.Machine
end

