-- ==== Sys2Proof/Machine/Bist.lean ====
section
/-! DEFINITION. Built-in test (17_test, R360, R466 to R475): the runs a command starts, their results, and what stops
them. Test patterns act inside partitions that are isolated; signatures and failing cells come from outside the
block. -/

namespace Sys2Proof.Machine

/-- The partition a target names (R360, R466); the device's run covers both engine clusters. -/
def bistCode (cls t : Nat) : Nat :=
  match cls with
  | 1 => t
  | 2 => 64 + t
  | 3 => 8 + t / 32
  | _ => 12

/-- The target number of logic patterns (R467). -/
def bistPatterns (code : Nat) : Nat :=
  if 64 ≤ code then 65536 else if code < 8 ∨ 12 ≤ code then 262144 else 131072

/-- The registers a run that ended leaves (R469, R470, R478), and its completion (R474). -/
def State.bistRecord (s : State) (t : BistRun) (logic mem pats misr : Nat) (f : Option BistFail) (aborted : Bool) :
    State :=
  let s1 := (((((s.wr Reg.BIST.LAST.TARGET t.code).wr Reg.BIST.LAST.LOGIC logic).wr Reg.BIST.LAST.MEM mem).wrB
    Reg.BIST.LAST.ABORTED aborted).countWrap Reg.BIST.LAST.COUNT)
  let s2 := if logic = 3 then s1 else (s1.wr Reg.BIST.LAST_PAT.PATTERNS pats).wr Reg.BIST.MISR.SIGNATURE misr
  let c := match f with | some x => x | none => ⟨0, 0, 0, 0, 0⟩
  let s3 := if mem = 3 then s2 else
    ((((s2.wr Reg.BIST.FAIL_MEM.CLASS c.cls).wr Reg.BIST.FAIL_MEM.INSTANCE c.inst).wr Reg.BIST.FAIL_MEM.BIT c.bit).wr
      Reg.BIST.FAIL_MEM.SLICE c.slice).wr Reg.BIST.FAIL_ADDR.ADDR c.addr
  s3.finish t.origin {
    st := if aborted then .aborted else .ok, r0 := logic + 4 * mem, r1 := c.cls + 256 * c.inst, r2 := c.addr
    r3 := c.bit + 256 * c.slice }

/-- The engines a run of the clusters has tested are reloaded from their images (R360). -/
def State.reloadClusters (s : State) : State :=
  { s with eng := Tab.clear (Tab.clear s.eng 82 87) 88 96 }

/-- What a partition does once its test is over: a lane's elastic buffers are flushed (R472) and it rotates again, the
clusters run again. -/
def State.bistAfter (s : State) (code : Nat) : State :=
  if 64 ≤ code then
    let n := code - 64
    (((s.setRx n { s.rxOf n with bobbin := [], late := 0 }).flushBufs n).txCheck n).calSettle n
  else if code = 12 then s.reloadClusters.judgeHeldAll else s

/-- The tests `p` picks are cut short: each kind that ran is INCOMPLETE. How far memory BIST of a KIND 2 run had come,
the patterns applied and the signature are not known here (free values). -/
def State.stopTests (s : State) (p : BistRun → Bool) : State :=
  (s.tests.filter p).foldl (fun (t : State) (x : BistRun) =>
    let m := t.free % 3
    let t1 : State := { t.freed.freed.freed with tests := t.tests.filter fun y => y.code != x.code }
    (t1.bistRecord x (if x.kind = 1 then 3 else 2) (if x.kind = 0 then 3 else if x.kind = 1 then 2 else m)
      (t.freed.free % bistPatterns x.code) t.freed.freed.free none true).bistAfter x.code) s

/-- A slice fails its test (R471): in a lane test it is retired at once. In C_OFF the retire map takes it, where the MRAM
window lets it be written (R120) and four are not in it yet (R119), and the retirement takes effect at the next C_ON. -/
def State.bistRetire (s : State) (n i : Nat) : State :=
  if s.coursePow (courseOf n) = .off then
    let m := Tab.get [] s.retire n
    if m.contains i then s
    else if s.nvmOpen && decide (m.length < 4) then
      { s with retire := Tab.set [] s.retire n ((List.range 68).filter fun j => m.contains j || j == i) }
    else s.setCal n { s.calOf n with tested := (s.calOf n).tested ++ [i] }
  else s.testRetire n i

def chkBistRun (s : State) (f : Flight) : Option Res :=
  let t := f.e.target.toNat
  let ok := match f.e.cls.toNat with
    | 1 => s.coursePow t == .off && !s.inTransition 1 t
    | 2 => s.lane t == 5
    | 3 => !s.quadOn (t / 32) && !s.inTransition 2 (t / 32)
    | _ => true
  if 2 < opByte f.e 16 ∨ !ok then some { st := .badField }
  else if 4 ≤ s.tests.length then some { st := .inUse }
  else none

/-- A run starts (R360, R473): a lane in test sends nothing and rotates no slice; with the clusters in test K4 takes no
raises. -/
def runBistRun (s : State) (g : Origin) (f : Flight) : State :=
  let code := bistCode f.e.cls.toNat f.e.target.toNat
  let s1 : State := { s with tests := s.tests ++ [⟨code, opByte f.e 16, g⟩] }
  if 64 ≤ code then (s1.txCheck (code - 64)).calSettle (code - 64) else if code = 12 then s1.holdRaises else s1

/-- BIST_RUN (R360). -/
def execBistRun (r : RingNo) (e : Entry) (d : Dma) (s : State) : Host.Outcome State Fault Refusal :=
  .next (s.serve .bistRun r e d chkBistRun runBistRun)

/-- BIST_RUN_END (R469 to R474): the run of a partition has ended by itself. -/
def execBistRunEnd (code : Fin 128) (q : BistEnd) (s : State) : Host.Outcome State Fault Refusal :=
  .next (
    match s.tests.find? fun t => t.code == code.val with
    | none => s
    | some t =>
      let logic := if t.kind = 1 then 3 else match q.golden with
        | none => 3
        | some g => if q.misr = g then 0 else 1
      let mem := if t.kind = 0 then 3 else if q.fail.isSome then 1 else 0
      let bad := (if mem = 1 then
          (match q.fail with | some x => if x.cls = 4 then [(x.inst % 64, x.slice % 68)] else [] | none => [])
          else []) ++ (if logic = 1 then q.diag.map fun p => (p.1.val, p.2.val) else [])
      let inside := bad.filter fun (p : Nat × Nat) =>
        if 64 ≤ t.code then p.1 == t.code - 64 else decide (t.code < 8) && courseOf p.1 == t.code
      let s1 := inside.foldl (fun (u : State) (p : Nat × Nat) => u.bistRetire p.1 p.2) s
      let s2 : State := { s1 with tests := s1.tests.filter fun y => y.code != t.code }
      (s2.bistRecord t logic mem (bistPatterns t.code) q.misr.toNat (if mem = 1 then q.fail else none) false).bistAfter
        t.code)

end Sys2Proof.Machine
end

