-- ==== Sys2Proof/Machine/EngineOps.lean ====
section
/-! DEFINITION. The engines as units (01_organisation, 13_asyan_engines): which engine runs, declared failures and their
substitution (R17 to R20, R31, R377), keep-core faults (R21, R22), and the lane programs as far as starts, stops and
reloads of an engine concern them (R384). -/

namespace Sys2Proof.Machine

def State.engOf (s : State) (e : Nat) : EngX := Tab.get {} s.eng e
def State.setEng (s : State) (e : Nat) (x : EngX) : State := { s with eng := Tab.set {} s.eng e x }

/-! ## Lane programs at the edges of an engine's life (R384, R396) -/

/-- Program states (R384): 0 NONE, 1 LOADED, 2 RUNNING, 3 STOPPED, 4 FAULTED. -/
def State.progState (s : State) (n : Nat) : Nat := s.rd Reg.ENG.PROG_STAT.STATE n

/-- The start of a lane engine's slot in the lane-program region of the hod (R393). -/
def progSlot (n : Nat) : Nat := 0x0B400000 + 65536 * n

/-- Code goes to the instruction window, data to the data window with the rest of it zero (R379, R380). Offsets are
those of the two memories. -/
def EngX.loadProg (x : EngX) (code data : List Byte) : EngX :=
  { x with
    code := Tab.setList 0 x.code 0xC000 code
    data := Tab.setList 0 (Tab.clear x.data 0x18000 0x20000) 0x18000 data }

/-- A program enters user mode at its entry (R380, R384). -/
def EngX.enterProg (x : EngX) (entry : Nat) : EngX :=
  { x with
    pc := BitVec.ofNat 32 (0xC000 + entry), status := (x.status &&& 0xFF) ||| 0x300, slots := none, oldReg := none
    rep := none, asleep := none }

/-- The engine leaves user mode: where firmware goes on is not the spec's to say here (a free value). -/
def State.leaveUser (s : State) (e : Nat) : State :=
  let x := s.engOf e
  s.freed.setEng e { x with
    pc := BitVec.ofNat 32 (4 * s.free), status := x.status &&& 0x1FF, slots := none, oldReg := none, rep := none }

/-- The program of lane engine `n` is reloaded from its hod copy and placed in the state it had; a running program
restarts at its entry. A copy that reads with an uncorrectable word, or that differs from the image loaded, fails its
hash check: FAULTED with cause 5 (R384, R396). -/
def State.progReload (s : State) (n : Nat) : State :=
  let x := s.engOf n
  match x.prog with
  | none => s
  | some p =>
    let img := p.header ++ p.code ++ p.data
    let (s1, got, bad) := s.hodReads 1 [] (progSlot n / 8) ((img.length + 7) / 8)
    let s2 := s1.count Reg.ENG.PROG_STAT.RESTARTS 1 n
    if bad.isSome || got.take img.length != img then
      ((s2.wr Reg.ENG.PROG_STAT.STATE 4 n).wr Reg.ENG.PROG_STAT.CAUSE 5 n).setEng n { x with prog := some { p with used := 0 } }
    else
      let y := x.loadProg p.code p.data
      let z := if s.progState n = 2 then y.enterProg p.entry else y
      s2.setEng n { z with prog := some { p with used := 0, suspended := false, stopDue := none } }

/-! ## State blocks (R376, R393, R396, R458) -/

/-- A slot of an engine's state blocks in the hod. -/
def blockOfs (e slot : Nat) : Nat := 0x0B800000 + 16384 * (2 * e + slot)

/-- The device reads a slot of an engine's state blocks; second: whether it holds a block that reads without an
uncorrectable word. -/
def State.readBlock (s : State) (ecc : List EccHit) (e slot : Nat) : State × Bool :=
  let n := Tab.get 0 (s.engOf e).blockLens slot
  let (s1, _, bad) := s.hodReads 1 ecc (blockOfs e slot / 8) ((n + 7) / 8)
  (s1, n != 0 && bad.isNone)

/-- An engine goes on from the last block written, else from the other slot, else from firmware defaults (R17, R396). -/
def State.resumeBlock (s : State) (ecc : List EccHit) (e : Nat) : State :=
  let first := 1 - (s.engOf e).blockSlot
  match s.readBlock ecc e first with
  | (s1, true) => s1.setEng e { s1.engOf e with resumed := some first }
  | (s1, false) =>
    match s1.readBlock ecc e (1 - first) with
    | (s2, true) => s2.setEng e { s2.engOf e with resumed := some (1 - first) }
    | (s2, false) => s2.setEng e { s2.engOf e with resumed := none }

/-- The blocks in one of the two slots are dropped for every engine that has one in the other (R459, R460). -/
def State.dropBlocks (s : State) (slot : Nat) : State :=
  (List.range 80).foldl (fun (t : State) (e : Nat) =>
    let x := t.engOf e
    if Tab.get 0 x.blockLens (1 - slot) = 0 then t
    else t.setEng e { x with blockSlot := slot, blockLens := Tab.set 0 x.blockLens slot 0 }) s

/-! ## A fault while an image is on trial (R459, R460, R464) -/

/-- A fallback starts. An activation that has not ended ends here without success. -/
def State.startFallback (s : State) (o : Origin) : State :=
  let s1 : State := { s with upd := { s.upd with activate := none, fallback := some o } }
  let s2 := (s1.wr Reg.UPD.STAT.HEALTH_OK 0).updTo 5
  match s.upd.activate with
  | some (g, _, _) => s2.finishSt g .aborted
  | none => s2

/-- An image in boot trial fails: the device falls back to the other slot if its image is proven; otherwise it keeps
running this one, and `BOOT_TRIAL` stays set. -/
def State.bootFallback (s : State) : State :=
  let s1 : State := { s with upd := { s.upd with bootTrial := false } }
  if (match s.upd.record with | some r => r.prevOk | none => false) then
    ({ s1 with upd := { s1.upd with fallbackBoot := true } } : State).startFallback .device
  else s1

/-- An engine or keep core has faulted. -/
def State.updFault (s : State) : State :=
  let s1 : State := { s with upd := { s.upd with faulted := true } }
  let st := s.rd Reg.UPD.STAT.STATE
  if st = 3 ∨ st = 4 then s1.startFallback .device
  else if s.upd.bootTrial ∧ st ≠ 5 then s1.bootFallback
  else s1

/-! ## Substitution (R17 to R20, R31, R377) -/

/-- The course of a lane or course engine hears of a failure: ENGINE_FAULT with the detail of R377. -/
def State.engineEvent (s : State) (e cause : Nat) (spare : Option Nat) : State :=
  s.raise (courseSrc (courseOfEngine e) 11)
    (e + 256 * cause + (match spare with | some i => 128 + 65536 * (88 + i) | none => 0))

/-- The lowest free spare: not mapped, and not taken out of the pool. -/
def State.freeSpare (s : State) : Option Nat :=
  (List.range 8).find? fun i => !s.flag Reg.GLB.ENG_SPARE_MAP.MAPPED i && s.engMapOf (88 + i) == .running

/-- What follows when an engine stops serving its lane or course (R18, R19): the loops of a lane are held from now on (R92,
R103), and its rotation and groups stop. -/
def State.engineLost (s : State) (e : Nat) : State :=
  if e < 64 then (s.setRx e { s.rxOf e with partialNow := true }).calSettle e else s

/-- An engine is left unmapped (R19): ENGINE_FAULT without a spare; a course without its framer or optics engine is
yielded (R283). -/
def State.engineUnmapped (s : State) (e cause : Nat) : State :=
  let s1 := (s.setEngMap e .unmapped).engineLost e
  let s2 := s1.engineEvent e cause none
  if 64 ≤ e then s2.courseYield (courseOfEngine e) else s2

/-- The failed engine with the lowest logical number. -/
def lowestFailed : List FailedEng → Option FailedEng
  | [] => none
  | x :: xs =>
    match lowestFailed xs with
    | none => some x
    | some y => if x.e ≤ y.e then some x else some y

/-- The foreman takes the next failed engine in ascending logical number: the lowest free spare is mapped, or the engine
stays unmapped. The spare of a course that is off is only mapped; it loads at the next C_ON (R20, R31). A power
transition of the engine's course comes first (R31). `fuel` bounds the engines looked at. -/
def State.startSubst (s : State) : Nat → State
  | 0 => s
  | fuel + 1 =>
    if s.subst.isSome || !s.coreRuns 0 then s
    else
      match lowestFailed s.failed with
      | none => s
      | some f =>
        let rest := s.failed.filter fun g => g.e != f.e
        if s.inTransition 1 (courseOfEngine f.e) || s.goingOff (courseOfEngine f.e) then s
        else
        match s.freeSpare with
        | none => ((({ s with failed := rest } : State).engineUnmapped f.e f.cause)).startSubst fuel
        | some i =>
          let s1 := (s.wr Reg.GLB.ENG_SPARE_MAP.LOGICAL f.e i).wr Reg.GLB.ENG_SPARE_MAP.MAPPED 1 i
          if s.courseD (courseOfEngine f.e) then { s1 with subst := some (f.e, i) }
          else
            ((({ s1 with failed := rest } : State).setEngMap f.e .running).engineEvent f.e f.cause (some i)).startSubst
              fuel

/-- A spare that replaced an engine is given up when that engine fails again: its spare is a failed engine. -/
def State.dropSpare (s : State) (e : Nat) : State :=
  (List.range 8).foldl (fun t i =>
    if t.flag Reg.GLB.ENG_SPARE_MAP.MAPPED i && t.rd Reg.GLB.ENG_SPARE_MAP.LOGICAL i == e then
      (t.wr Reg.GLB.ENG_SPARE_MAP.MAPPED 0 i).setEngMap (88 + i) .unmapped
    else t) s

/-- A lane, framer or optics engine that runs is declared failed (R377). An activation or trial sees the fault (R459,
R460, R464). While K0 is left stopped it stays unmapped (R22). -/
def State.engineFail (s : State) (e cause : Nat) (pc : Nat) : State :=
  if !s.coreOn || !s.courseD (courseOfEngine e) || s.engMapOf e != .running then s
  else
    let s1 := (s.wr Reg.ENG.STAT.LAST_CAUSE cause e).dropSpare e
    let s2 := s1.updFault
    if (s2.core 0).stopped then s2.engineUnmapped e cause
    else
      let s3 : State := { s2 with failed := s2.failed ++ [⟨e, cause, pc⟩] }
      ((s3.setEngMap e .substituting).engineLost e).startSubst 96

/-- An engine of a course in C_IDLE sleeps until the course wakes (R424). -/
def State.sleepIdle (s : State) (e : Nat) : State :=
  if e < 80 ∧ s.coursePow (courseOfEngine e) = .idle then s.setEng e { s.engOf e with asleep := some s.time } else s

/-- The substitute of an engine runs (R17): zeroed, gone on from its state block, its program reloaded, its counters'
interval partial. -/
def State.engineFresh (s : State) (ecc : List EccHit) (e : Nat) : State :=
  let x := s.engOf e
  let s1 := (List.range 4).foldl (fun t i => t.wr Reg.ENG.PMC_SEL.PARTIAL 1 e i)
    (s.setEng e { prog := x.prog, blockSlot := x.blockSlot, blockLens := x.blockLens })
  let s2 := if e < 80 then s1.resumeBlock ecc e else s1
  (if e < 64 then s2.progReload e else s2).sleepIdle e

/-- ENGINE_SUBSTITUTED (R17, R18): the spare runs with image and state block; what waited goes on, and the next failed
engine is taken. -/
def execEngineSubstituted (ecc : List EccHit) (s : State) : Host.Outcome State Fault Refusal :=
  .next (
    match s.subst with
    | none => s
    | some (e, i) =>
      if !s.coreRuns 0 then s
      else
        let cause := match s.failed.find? fun f => f.e == e with | some f => f.cause | none => 0
        let s1 : State := { s with subst := none, failed := s.failed.filter fun f => f.e != e }
        let s2 := ((s1.setEngMap e .running).engineFresh ecc e).engineEvent e cause (some i)
        let s3 := if e < 64 then s2.calSettle e else if e % 2 = 1 then s2.cmisSend (courseOfEngine e) else s2
        s3.startSubst 96)

/-! ## Engines and the power of their course (R20, R31, R384) -/

/-- The engines of a course: eight lane engines, the framer and the optics engine. -/
def courseEngines (c : Nat) : List Nat := (List.range 8).map (fun i => 8 * c + i) ++ [framerOf c, opticsOf c]

/-- A course goes off: its engines stop and their memory is lost; a substitution in progress ends with the spare mapped,
and ENGINE_FAULT is raised for it now (R31). What a program is comes back from its hod copy. -/
def State.enginesOff (s : State) (c : Nat) : State :=
  let s1 := (courseEngines c).foldl (fun (t : State) (e : Nat) =>
    let x := t.engOf e
    let p := x.prog.map fun p => { p with
      held := some (t.progState e, t.rd Reg.ENG.PROG_STAT.FN e, t.rd Reg.ENG.PROG_STAT.RESTARTS e) }
    (t.clearRegs (0x1000000 + 0x20000 * e) (0x1000000 + 0x20000 * (e + 1))).setEng e { prog := p, blockSlot := x.blockSlot, blockLens := x.blockLens }) s
  match s1.subst with
  | some (e, i) =>
    if courseOfEngine e = c then
      let cause := match s1.failed.find? fun f => f.e == e with | some f => f.cause | none => 0
      let s2 : State := { s1 with subst := none, failed := s1.failed.filter fun f => f.e != e }
      ((s2.setEngMap e .running).engineEvent e cause (some i)).startSubst 96
    else s1.startSubst 96
  | none => s1.startSubst 96

/-- A course comes back to C_ON: the foreman loads its engines, and programs are reloaded (R20, R384). -/
def State.enginesOn (s : State) (c : Nat) : State :=
  (courseEngines c).foldl (fun (t : State) (e : Nat) =>
    let x := t.engOf e
    match x.prog with
    | none => t
    | some p =>
      match p.held with
      | none => t
      | some (st, fn, n) =>
        (((((t.wr Reg.ENG.PROG_STAT.STATE st e).wr Reg.ENG.PROG_STAT.FN fn e).wr Reg.ENG.PROG_STAT.RESTARTS n e).setEng e
          { x with prog := some { p with held := none } }).progReload e)) s

/-! ## Keep cores (R21, R22) -/

/-- A command K3 ran is judged again once K3 runs, or ends while it is stopped. -/
def State.requeue (s : State) (o : Origin) : State :=
  match o with
  | .host r fid =>
    let x := s.ring r
    s.setRing r { x with
      flights := x.flights.map fun f => if f.fid = fid then { f with phase := .waiting, mirrored := none } else f }
  | _ => s

/-- K3 has faulted (R274, R286, R287): mirrored commands in flight and moves are judged again, every lease expires while
it restarts, and CAPS runs anew. -/
def State.k3Lost (s : State) (restarts : Bool) : State :=
  let s1 := s.twin.outs.foldl (fun (t : State) (m : MirrorOut) => t.requeue (.host m.ring m.fid)) s
  let s2 := (s.twin.handovers ++ s.twin.takeovers).foldl (fun (t : State) (m : Move) => t.requeue m.origin) s1
  let s3 : State := { s2 with twin := { s2.twin with
    outs := [], handovers := [], takeovers := [], ready := [], capsDue := true } }
  let s4 := s3.endMoves.twinDegrade 6
  if restarts then
    (List.range 8).foldl (fun (t : State) (c : Nat) => t.setOwnSel c false) s4
  else s4

/-- Keep core K1 to K7 faults (R21): restarted once, left stopped at the next fault or while K0 is left stopped. -/
def State.keepFault (s : State) (k cause : Nat) : State :=
  let x := s.core k
  if !s.coreOn || x.stopped || x.restarting then s
  else
    let again := decide (1 ≤ x.faults) || (s.core 0).stopped
    let s0 := if k = 4 then s.holdRaises else s
    let s1 := s0.setCore k { x with
      faults := x.faults + 1, stopped := again || (s.core 0).restarting
      restarting := !again && (s.core 0).restarting }
    let s2 := (s1.wr Reg.ENG.STAT.LAST_CAUSE cause (80 + k)).setEng (80 + k) {}
    let s3 := s2.raise 0 (k + 8 * bitVal (!again) + 256 * cause)
    let s4 := s3.updFault
    let s5 := if k = 3 then s4.k3Lost (!again) else s4
    let s6 := if k = 7 then s5.stopTests fun _ => true else s5
    if k = 4 then s6.judgeHeldAll else s6

/-- K0 faults (R22): the KEEP hardware restarts it once; left stopped, engines declared failed stay unmapped. The spare
of a substitution in progress is free again. An activation in progress falls back once K0 runs again. -/
def State.foremanFault (s : State) (cause : Nat) : State :=
  let x := s.core 0
  if x.stopped || s.phase == .inReset || s.phase == .brownout then s
  else
    let again := decide (1 ≤ x.faults)
    let s1 := (s.setCore 0 { faults := x.faults + 1, stopped := again, restarting := !again }).setEng 80 {}
    let s2 := (s1.wr Reg.ENG.STAT.LAST_CAUSE cause 80).raise 0 (8 * bitVal (!again) + 256 * cause)
    let s3 : State :=
      if s2.rd Reg.UPD.STAT.STATE = 3 then { s2 with upd := { s2.upd with faulted := true } } else s2.updFault
    if again then
      let s4 := match s3.subst with | some (_, i) => s3.wr Reg.GLB.ENG_SPARE_MAP.MAPPED 0 i | none => s3
      s4.failed.foldl (fun (t : State) (f : FailedEng) => t.engineUnmapped f.e f.cause)
        { s4 with failed := [], subst := none }
    else s3

/-- A fault is detected in engine `e` while it executes (R377): lane and course engines are substituted, keep cores
restart, and a spare that runs for no engine leaves the pool. -/
def State.anyEngineFail (s : State) (e cause pc : Nat) : State :=
  if e < 80 then s.engineFail e cause pc
  else if e = 80 then s.foremanFault cause
  else if e < 88 then s.keepFault (e - 80) cause
  else s

/-- ENGINE_FAILURE (R377): a fault detected outside the instructions of the table; a free spare in which one is detected
leaves the pool without an event. -/
def execEngineFailure (e : EngineNo) (cause : Fin 5) (s : State) : Host.Outcome State Fault Refusal :=
  .next (
    if cause.val = 0 then s
    else if e.val < 80 then s.engineFail e cause (s.engOf e).pc.toNat
    else if e.val < 88 ∨ !s.coreOn then s
    else if s.flag Reg.GLB.ENG_SPARE_MAP.MAPPED (e - 88) ∨ s.engMapOf e ≠ .running then s
    else if cause.val = 1 ∨ cause.val = 4 then (s.wr Reg.ENG.STAT.LAST_CAUSE cause e).setEngMap e .unmapped
    else s)

/-- KEEP_CORE_FAULT (R21): `k` numbers K1 to K7 from 0. -/
def execKeepCoreFault (k : Fin 7) (cause : Fin 4) (s : State) : Host.Outcome State Fault Refusal :=
  .next (if cause.val = 0 then s else s.keepFault (k.val + 1) cause)

/-- FOREMAN_FAULT (R22). -/
def execForemanFault (cause : Fin 4) (s : State) : Host.Outcome State Fault Refusal :=
  .next (if cause.val = 0 then s else s.foremanFault cause)

/-- WATCHDOG_EXPIRY (R377): 2^22 beats have run without a write of WDT; sleep is not counted. -/
def execWatchdogExpiry (e : EngineNo) (s : State) : Host.Outcome State Fault Refusal :=
  .next (
    let x := s.engOf e
    if x.asleep.isSome then s else s.anyEngineFail e 2 x.pc.toNat)

end Sys2Proof.Machine
end

