-- ==== Sys2Proof/Machine/Asyan.lean ====
section
/-! DEFINITION. How an Asyan engine executes one instruction (13_asyan_engines): when it may, operands under the load
shadow, delay slots, `REP` units, faults of user and supervisor mode, and what every retirement counts (R363, R369 to
R371, R380 to R382, R385, R389). A row of the table is the instruction the engine finds at its PC. -/

namespace Sys2Proof.Machine

/-! ## Status bits (R365) -/

def EngX.user (x : EngX) : Bool := x.status.toNat / 512 % 2 == 1
def EngX.ie (x : EngX) : Bool := x.status.toNat / 256 % 2 == 1

/-- STATUS with bit `i` set to `b`. -/
def EngX.setFlag (x : EngX) (i : Nat) (b : Bool) : EngX :=
  { x with status := BitVec.ofNat 32 (putBits x.status.toNat i 1 (bitVal b)) }

/-- Carry and overflow together. -/
def EngX.setCV (x : EngX) (c v : Bool) : EngX := (x.setFlag 2 c).setFlag 3 v

/-! ## Registers -/

/-- A general register as the instruction after a load reads it (R369). -/
def EngX.reg (x : EngX) (r : Nat) : Word :=
  match x.oldReg with
  | some (q, v) => if q = r then v else Tab.get 0 x.g r
  | none => Tab.get 0 x.g r

def EngX.setReg (x : EngX) (r : Nat) (v : Word) : EngX := { x with g := Tab.set 0 x.g r v }

def EngX.acc (x : EngX) (a : Nat) : Int := (Tab.get (0 : Acc40) x.a a).toInt

/-- An accumulator takes a value: it wraps modulo 2^40 and sets AV when it does (R366). -/
def EngX.setAcc (x : EngX) (a : Nat) (v : Int) : EngX :=
  let y := { x with a := Tab.set 0 x.a a (BitVec.ofInt 40 v) }
  if v < -(2 ^ 39) ∨ 2 ^ 39 ≤ v then y.setFlag 4 true else y

/-! ## When an instruction executes -/

/-- Engine `e` is powered, loaded and serving (R16, R20): a lane or course engine runs while its course has power and
it is not being replaced; keep cores run while CORE is on; K0 is in KEEP, which is on in every device state (R27), and
starts from ROM when a reset ends or is held for the sensors (R437, R448). -/
def State.engPowered (s : State) (e : Nat) : Bool :=
  if e < 80 then s.coreOn && s.courseD (courseOfEngine e) && s.engMapOf e == .running
  else if e = 80 then s.coreRuns 0 && s.phase != .inReset && s.phase != .brownout
  else if e < 88 then s.coreOn && s.coreRuns (e - 80)
  else false

/-- The beats a program may run in a period (R381, R390). -/
def State.progBudget (s : State) (n : Nat) : Nat :=
  1024 * max 1 (min 64 (s.rd Reg.ENG.PROG_BUDGET.BEATS n))

/-- A boundary that R371 permits: not inside delay slots or a `REP` unit. -/
def EngX.boundary (x : EngX) : Bool := x.slots.isNone && x.rep.isNone

/-- A program holds no beats now: its course is not in C_ON (R384), it is suspended, or its budget is spent at a
permitted boundary (R381). -/
def State.progBlocked (s : State) (n : Nat) (x : EngX) : Bool :=
  match x.prog with
  | none => false
  | some p =>
    x.user && (!s.courseOn (courseOf n) || p.suspended || (x.boundary && decide (s.progBudget n ≤ p.used)))

/-- The engine issues an instruction. -/
def State.engIssues (s : State) (e : Nat) : Bool :=
  let x := s.engOf e
  s.engPowered e && x.asleep.isNone && !(decide (e < 64) && s.progBlocked e x)

/-- The bytes of an engine's instruction memory (R375). -/
def codeBytes (e : Nat) : Nat := if e < 64 then 0x10000 else 0x40000
def dataBytes' (e : Nat) : Nat := if e < 64 then 0x20000 else 0x80000

/-- The PC may be fetched from (R363, R375, R380): word-aligned, in the instruction memory, for a program in its
instruction window. -/
def fetchOk (e : Nat) (x : EngX) : Bool :=
  x.pc.toNat % 4 == 0 &&
    (if decide (e < 64) && x.user then decide (0xC000 ≤ x.pc.toNat) && decide (x.pc.toNat < 0x10000)
     else decide (x.pc.toNat < codeBytes e))

/-! ## Faults (R377, R382) -/

/-- A sandbox violation of a lane program: FAULTED with cause and address, LANE_PROGRAM_FAULT; firmware goes on. -/
def State.sandboxViolation (s : State) (n cause : Nat) (pc : Nat) : State :=
  let s1 := ((s.wr Reg.ENG.PROG_STAT.STATE 4 n).wr Reg.ENG.PROG_STAT.CAUSE cause n).wr Reg.ENG.FAULT_PC.PC pc n
  let x := s1.engOf n
  let s2 := match x.prog with
    | some p =>
      let t := s1.setEng n { x with prog := some { p with stopDue := none, suspended := false } }
      match p.stopDue with
      | some o => t.finishSt o .ok
      | none => t
    | none => s1
  (s2.raise 7 (n + 256 * cause + 65536 * pc)).leaveUser n

/-- What an instruction that may not execute does: a violation in a lane program, a declared fault of the engine in
supervisor mode (cause 3, or 1 for an uncorrectable error). -/
def State.engTrap (s : State) (e cause pc : Nat) : State :=
  let x := s.engOf e
  if e < 64 ∧ x.user then s.sandboxViolation e cause pc
  else s.anyEngineFail e (if cause = 5 then 1 else 3) pc

/-! ## What a body answers -/

/-- What an instruction did beside its registers: beats spent waiting, MAC products, stores that saturated, corrected
words, the branch it takes or leaves (target after two slots, taken), the register a load wrote with its old value,
where the PC goes at once, whether the PC stays for `WAIT`, and more beats charged. -/
structure Acct where
  wait : Nat := 0
  products : Nat := 0
  sat : Nat := 0
  ecc : Nat := 0
  branch : Option (Word × Bool) := none
  load : Option (Nat × Word) := none
  jump : Option Word := none
  extra : Nat := 0
  deriving DecidableEq, Repr

/-- The meaning of an instruction: a new engine state with what it did, or the cause it may not execute for (codes of
`PROG_STAT.CAUSE`). -/
abbrev Body := State → EngX → Except Nat (State × EngX × Acct)

/-- What may stand where: plain instructions everywhere; `MTS` to IEN or `ENG_SLEEP` not under `REP`; branches, `REP`,
`WAIT`, `SVC` and `RTI` neither under `REP` nor in a delay slot (R369, R370). -/
inductive InstrKind where
  | plain | noRep | control
  deriving DecidableEq, Repr

/-! ## Tagging (R389, R524) -/

/-- One step of x^32 + x^22 + x^2 + x + 1: stage k holds the bit that entered k steps ago, stage 1 in bit 0. -/
def lfsrStep (v : Word) : Word :=
  (v <<< 1) ||| ((v >>> 31 ^^^ v >>> 21 ^^^ v >>> 1 ^^^ v) &&& 1)

/-- A retirement passes the tagger; the tagged one writes its record. -/
def State.tagRetire (s : State) (e : Nat) (pc beats : Nat) (user inRep waited : Bool) : State :=
  if !s.flag Reg.ENG.TAG_CTRL.EN e then s
  else
    let x := s.engOf e
    let k := max 4 (min 20 (s.rd Reg.ENG.TAG_CTRL.TAG_K e))
    let j := s.rd Reg.ENG.TAG_CTRL.WR_PTR e
    let s1 :=
      if x.tagCnt = x.lfsr.toNat % 2 ^ k then
        let t := if x.unread.contains j then s.count Reg.ENG.TAG_CTRL.LOST 1 e else s
        ((((((((t.wr Reg.ENG.TAG_BUF.PC pc e j).wr Reg.ENG.TAG_BUF.LATENCY (min 4095 beats) e j).wrB
          Reg.ENG.TAG_BUF.USER user e j).wrB Reg.ENG.TAG_BUF.IN_REP inRep e j).wrB Reg.ENG.TAG_BUF.MEM_WAIT waited e
          j).wr Reg.ENG.TAG_BUF.VALID 1 e j).wr Reg.ENG.TAG_BUF.STAMP t.time e j).wr Reg.ENG.TAG_CTRL.WR_PTR (j + 1)
          e).setEng e { x with unread := if x.unread.contains j then x.unread else x.unread ++ [j] }
      else s
    let y := s1.engOf e
    if y.tagCnt + 1 < 2 ^ k then s1.setEng e { y with tagCnt := y.tagCnt + 1 }
    else s1.setEng e { y with tagCnt := 0, lfsr := lfsrStep y.lfsr }

/-! ## Retirement -/

/-- The sum of what the iterations of a unit did; the last one's branch, load and jump count. -/
def Acct.add (a b : Acct) : Acct :=
  { b with wait := a.wait + b.wait, products := a.products + b.products, sat := a.sat + b.sat, ecc := a.ecc + b.ecc
           extra := a.extra + b.extra }

/-- Run a body `n` times; a fault ends the unit at its iteration, with the earlier ones done. -/
def runUnit (body : Body) : Nat → State → EngX → Acct → State × EngX × Acct × Option Nat
  | 0, s, x, a => (s, x, a, none)
  | n + 1, s, x, a =>
    match body s x with
    | .error c => (s, x, a, some c)
    | .ok (s1, y, b) => runUnit body n s1 { y with oldReg := b.load } (a.add b)

/-- The PC and the delay slots after an instruction (R369). -/
def EngX.advance (x : EngX) (a : Acct) : EngX :=
  match a.jump with
  | some t => { x with pc := t, slots := none }
  | none =>
    match x.slots with
    | some (1, t) => { x with pc := t, slots := none }
    | some (k, t) => { x with pc := x.pc + 4, slots := some (k - 1, t) }
    | none => { x with pc := x.pc + 4, slots := a.branch.map fun b => (2, b.1) }

/-- Beats pass on an engine: its counter, its watchdog and the budget of a program in user mode. -/
def EngX.spend (x : EngX) (user : Bool) (beats : Nat) : EngX :=
  { x with
    beat := x.beat + BitVec.ofNat 64 beats, wdt := x.wdt + beats
    prog := x.prog.map fun p => if user then { p with used := p.used + beats } else p }

/-- A stop that waited for the boundary is made (R384). -/
def State.stopSettle (s : State) (n : Nat) : State :=
  let x := s.engOf n
  match x.prog with
  | some p =>
    match p.stopDue with
    | some o =>
      if x.boundary then
        ((((s.setEng n { x with prog := some { p with stopDue := none } }).wr Reg.ENG.PROG_STAT.STATE 3 n).leaveUser
          n)).finishSt o .ok
      else s
    | none => s
  | none => s

/-- The largest overrun in 16-beat units (R381, R390). -/
def State.noteOverrun (s : State) (n : Nat) : State :=
  match (s.engOf n).prog with
  | none => s
  | some p => s.wr Reg.ENG.PROG_STAT.OVERRUN
      (max (s.rd Reg.ENG.PROG_STAT.OVERRUN n) (min 255 ((p.used - s.progBudget n) / 16))) n

/-- Engine `e` executes an instruction of a kind with a meaning, alone or as the body of a `REP` unit. -/
def State.engExec (s : State) (e : Nat) (k : InstrKind) (body : Body) : State :=
  let x := s.engOf e
  if !s.engIssues e then s
  else if !fetchOk e x then s.engTrap e 2 x.pc.toNat
  else
    let bad := match x.rep with
      | some (_, rpc) => if k = InstrKind.plain then none else some rpc
      | none => if k = InstrKind.control ∧ x.slots.isSome then some x.pc else none
    match bad with
    | some pc => (s.setEng e { x with rep := none }).engTrap e 1 pc.toNat
    | none =>
      let n := match x.rep with | some (n, _) => n | none => 1
      let u := x.user
      let pend := x.ipend != 0 && !x.ie
      let (s1, y, a, fault) := runUnit body n s { x with rep := none } {}
      match fault with
      | some c => (s1.setEng e { y with rep := none, oldReg := none }).engTrap e c x.pc.toNat
      | none =>
        let beats := n + a.wait + a.extra
        let isRep := x.rep.isSome
        let s2 := s1.setEng e (((y.advance a).spend u beats))
        let s3 := (((((s2.engCount e 1 beats).engCount e 2 n).engCount e 3 (if u then n else 0)).engCount e 4
          a.wait).engCount e 5 (match a.branch with | some (_, true) => 1 | _ => 0)).engCount e 6 (if isRep then n else 0)
        let s4 := (((s3.engCount e 9 a.ecc).engCount e 10 a.products).engCount e 11 a.sat).engCount e 13
          (if pend then beats else 0)
        let s5 := (if a.ecc = 0 then s4 else s4.count Reg.ENG.STAT.ECC_CORR a.ecc e).tagRetire e x.pc.toNat beats u isRep
          (a.wait != 0)
        if e < 64 ∧ u then (s5.noteOverrun e).stopSettle e else s5

/-- A body that only computes on the engine. -/
def pureBody (f : EngX → EngX) : Body := fun s x => .ok (s, f x, {})

/-- A body that uses one free value of the state. -/
def freeBody (f : Nat → EngX → EngX) : Body := fun s x => .ok (s.freed, f s.free x, {})

end Sys2Proof.Machine
end

