-- ==== Sys2Proof/Machine/AsyanAlu.lean ====
section
/-! DEFINITION. The arithmetic instructions of the Asyan engines (R364 to R367): the ALU in its register and immediate
forms, products and accumulators. -/

namespace Sys2Proof.Machine

/-! ## ALU register forms (R364) -/

/-- A register form: `f` of rs and rt goes to rd, no flag changes. -/
def State.alu (s : State) (e rd rs rt : Nat) (f : Word → Word → Word) : State :=
  s.engExec e .plain (pureBody fun x => x.setReg rd (f (x.reg rs) (x.reg rt)))

/-- Signed overflow of an exact result. -/
def overflow32 (v : Int) : Bool := decide (v < -(2 ^ 31)) || decide (2 ^ 31 ≤ v)

/-- The value clamped to the signed 32-bit range. -/
def clamp32 (v : Int) : Int := max (-(2 ^ 31)) (min (2 ^ 31 - 1) v)

/-- A wrapping sum with its carry and overflow. -/
def EngX.addInto (x : EngX) (rd : Nat) (a b : Word) : EngX :=
  (x.setReg rd (a + b)).setCV (decide (2 ^ 32 ≤ a.toNat + b.toNat)) (overflow32 (a.toInt + b.toInt))

/-- A saturating result; SV is sticky. -/
def EngX.satInto (x : EngX) (rd : Nat) (v : Int) : EngX :=
  let y := x.setReg rd (BitVec.ofInt 32 (clamp32 v))
  if overflow32 v then y.setFlag 5 true else y

/-- ADD (R364). -/
def execEngAdd (e : EngineNo) (rd rs rt : GReg) (s : State) : Host.Outcome State Fault Refusal :=
  .next (s.engExec e .plain (pureBody fun x => x.addInto rd (x.reg rs) (x.reg rt)))

/-- SUB (R364): whether C is a carry or a borrow is not stated (a free value). -/
def execEngSub (e : EngineNo) (rd rs rt : GReg) (s : State) : Host.Outcome State Fault Refusal :=
  .next (s.engExec e .plain (freeBody fun v x =>
    (x.setReg rd (x.reg rs - x.reg rt)).setCV (bitOf v 0) (overflow32 ((x.reg rs).toInt - (x.reg rt).toInt))))

/-- AND (R364). -/
def execEngAnd (e : EngineNo) (rd rs rt : GReg) (s : State) : Host.Outcome State Fault Refusal :=
  .next (s.alu e rd rs rt fun a b => a &&& b)

/-- OR (R364). -/
def execEngOr (e : EngineNo) (rd rs rt : GReg) (s : State) : Host.Outcome State Fault Refusal :=
  .next (s.alu e rd rs rt fun a b => a ||| b)

/-- XOR (R364). -/
def execEngXor (e : EngineNo) (rd rs rt : GReg) (s : State) : Host.Outcome State Fault Refusal :=
  .next (s.alu e rd rs rt fun a b => a ^^^ b)

/-- SLL (R364): shift by rt[4:0]. -/
def execEngSll (e : EngineNo) (rd rs rt : GReg) (s : State) : Host.Outcome State Fault Refusal :=
  .next (s.alu e rd rs rt fun a b => a <<< (b.toNat % 32))

/-- SRL (R364). -/
def execEngSrl (e : EngineNo) (rd rs rt : GReg) (s : State) : Host.Outcome State Fault Refusal :=
  .next (s.alu e rd rs rt fun a b => a >>> (b.toNat % 32))

/-- SRA (R364). -/
def execEngSra (e : EngineNo) (rd rs rt : GReg) (s : State) : Host.Outcome State Fault Refusal :=
  .next (s.alu e rd rs rt fun a b => a.sshiftRight (b.toNat % 32))

/-- MIN (R364). -/
def execEngMin (e : EngineNo) (rd rs rt : GReg) (s : State) : Host.Outcome State Fault Refusal :=
  .next (s.alu e rd rs rt fun a b => if a.toInt ≤ b.toInt then a else b)

/-- MAX (R364). -/
def execEngMax (e : EngineNo) (rd rs rt : GReg) (s : State) : Host.Outcome State Fault Refusal :=
  .next (s.alu e rd rs rt fun a b => if a.toInt ≤ b.toInt then b else a)

/-- SLT (R364). -/
def execEngSlt (e : EngineNo) (rd rs rt : GReg) (s : State) : Host.Outcome State Fault Refusal :=
  .next (s.alu e rd rs rt fun a b => if a.toInt < b.toInt then 1 else 0)

/-- SLTU (R364). -/
def execEngSltu (e : EngineNo) (rd rs rt : GReg) (s : State) : Host.Outcome State Fault Refusal :=
  .next (s.alu e rd rs rt fun a b => if a.toNat < b.toNat then 1 else 0)

/-- ADDS (R364). -/
def execEngAdds (e : EngineNo) (rd rs rt : GReg) (s : State) : Host.Outcome State Fault Refusal :=
  .next (s.engExec e .plain (pureBody fun x => x.satInto rd ((x.reg rs).toInt + (x.reg rt).toInt)))

/-- SUBS (R364). -/
def execEngSubs (e : EngineNo) (rd rs rt : GReg) (s : State) : Host.Outcome State Fault Refusal :=
  .next (s.engExec e .plain (pureBody fun x => x.satInto rd ((x.reg rs).toInt - (x.reg rt).toInt)))

/-- Leading zeros of a word. -/
def clz (v : Word) : Nat := if v = 0 then 32 else 31 - Nat.log2 v.toNat

/-- CLZ (R364). -/
def execEngClz (e : EngineNo) (rd rs : GReg) (s : State) : Host.Outcome State Fault Refusal :=
  .next (s.engExec e .plain (pureBody fun x => x.setReg rd (BitVec.ofNat 32 (clz (x.reg rs)))))

/-- ABS (R364): of the most negative number no value is stated (a free value). -/
def execEngAbs (e : EngineNo) (rd rs : GReg) (s : State) : Host.Outcome State Fault Refusal :=
  .next (s.engExec e .plain (freeBody fun v x =>
    x.setReg rd (if (x.reg rs).toInt = -(2 ^ 31) then BitVec.ofNat 32 v
      else BitVec.ofNat 32 (x.reg rs).toInt.natAbs)))

/-! ## ALU immediate forms (R364): C and V are those of the sum for ADDI; for the others their values are not stated -/

/-- An immediate form whose C and V are free values. -/
def State.aluImm (s : State) (e rd rs : Nat) (f : Word → Word) : State :=
  s.engExec e .plain (freeBody fun v x => (x.setReg rd (f (x.reg rs))).setCV (bitOf v 0) (bitOf v 1))

/-- ADDI (R364). -/
def execEngAddi (e : EngineNo) (rd rs : GReg) (imm : Half) (s : State) : Host.Outcome State Fault Refusal :=
  .next (s.engExec e .plain (pureBody fun x => x.addInto rd (x.reg rs) (imm.signExtend 32)))

/-- SLTI (R364). -/
def execEngSlti (e : EngineNo) (rd rs : GReg) (imm : Half) (s : State) : Host.Outcome State Fault Refusal :=
  .next (s.aluImm e rd rs fun a => if a.toInt < imm.toInt then 1 else 0)

/-- ANDI (R364). -/
def execEngAndi (e : EngineNo) (rd rs : GReg) (imm : Half) (s : State) : Host.Outcome State Fault Refusal :=
  .next (s.aluImm e rd rs fun a => a &&& imm.setWidth 32)

/-- ORI (R364). -/
def execEngOri (e : EngineNo) (rd rs : GReg) (imm : Half) (s : State) : Host.Outcome State Fault Refusal :=
  .next (s.aluImm e rd rs fun a => a ||| imm.setWidth 32)

/-- XORI (R364). -/
def execEngXori (e : EngineNo) (rd rs : GReg) (imm : Half) (s : State) : Host.Outcome State Fault Refusal :=
  .next (s.aluImm e rd rs fun a => a ^^^ imm.setWidth 32)

/-- SLLI (R364). -/
def execEngSlli (e : EngineNo) (rd rs : GReg) (imm : Half) (s : State) : Host.Outcome State Fault Refusal :=
  .next (s.aluImm e rd rs fun a => a <<< (imm.toNat % 32))

/-- SRLI (R364). -/
def execEngSrli (e : EngineNo) (rd rs : GReg) (imm : Half) (s : State) : Host.Outcome State Fault Refusal :=
  .next (s.aluImm e rd rs fun a => a >>> (imm.toNat % 32))

/-- SRAI (R364). -/
def execEngSrai (e : EngineNo) (rd rs : GReg) (imm : Half) (s : State) : Host.Outcome State Fault Refusal :=
  .next (s.aluImm e rd rs fun a => a.sshiftRight (imm.toNat % 32))

/-- LUI (R364). -/
def execEngLui (e : EngineNo) (rd : GReg) (imm : Half) (s : State) : Host.Outcome State Fault Refusal :=
  .next (s.aluImm e rd rd fun _ => BitVec.ofNat 32 (imm.toNat * 65536))

/-! ## Products (R366) -/

/-- A 16-bit half of a register, signed. -/
def halfOf (v : Word) (high : Bool) : Int := signedOf (bitsOf v.toNat (if high then 16 else 0) 16) 16

/-- A body that forms products. -/
def macBody (n : Nat) (f : EngX → EngX) : Body := fun s x => .ok (s, f x, { products := n })

/-- The product `MUL`, `MAC` and `MSU` form. -/
def EngX.product (x : EngX) (rs rt : Nat) (hs ht : Bool) : Int := halfOf (x.reg rs) hs * halfOf (x.reg rt) ht

/-- MUL (R366). -/
def execEngMul (e : EngineNo) (a : AccNo) (rs rt : GReg) (hs ht : Bool) (s : State) :
    Host.Outcome State Fault Refusal :=
  .next (s.engExec e .plain (macBody 1 fun x => x.setAcc a (x.product rs rt hs ht)))

/-- MAC (R366). -/
def execEngMac (e : EngineNo) (a : AccNo) (rs rt : GReg) (hs ht : Bool) (s : State) :
    Host.Outcome State Fault Refusal :=
  .next (s.engExec e .plain (macBody 1 fun x => x.setAcc a (x.acc a + x.product rs rt hs ht)))

/-- MSU (R366). -/
def execEngMsu (e : EngineNo) (a : AccNo) (rs rt : GReg) (hs ht : Bool) (s : State) :
    Host.Outcome State Fault Refusal :=
  .next (s.engExec e .plain (macBody 1 fun x => x.setAcc a (x.acc a - x.product rs rt hs ht)))

/-- DMAC (R366): acc must be 0 or 2 and hs and ht 0, or the word is illegal. -/
def execEngDmac (e : EngineNo) (a : AccNo) (rs rt : GReg) (hs ht : Bool) (s : State) :
    Host.Outcome State Fault Refusal :=
  .next (s.engExec e .plain (fun s x =>
    if a.val % 2 = 1 ∨ hs ∨ ht then .error 1
    else .ok (s, (x.setAcc a (x.acc a + x.product rs rt false false)).setAcc (a.val + 1)
      (x.acc (a.val + 1) + x.product rs rt true true), { products := 2 })))

/-- DMACS (R366). -/
def execEngDmacs (e : EngineNo) (a : AccNo) (rs rt : GReg) (_hs _ht : Bool) (s : State) :
    Host.Outcome State Fault Refusal :=
  .next (s.engExec e .plain (macBody 2 fun x =>
    x.setAcc a (x.acc a + x.product rs rt false false + x.product rs rt true true)))

/-! ## Accumulators (R367) -/

/-- Round half up and shift right: floor((a + 2^(sh − 1)) / 2^sh); with 0 no rounding. -/
def roundShift (a : Int) (sh : Nat) : Int := if sh = 0 then a else (a + 2 ^ (sh - 1)) / 2 ^ sh

/-- EXT (R367): V is set if the result did not fit in 32 bits; a shift above 39 is illegal. -/
def execEngExt (e : EngineNo) (rd : GReg) (a : AccNo) (sh : Fin 64) (s : State) : Host.Outcome State Fault Refusal :=
  .next (s.engExec e .plain (fun s x =>
    if 39 < sh.val then .error 1
    else
      let v := roundShift (x.acc a) sh
      .ok (s, (x.setReg rd (BitVec.ofInt 32 v)).setFlag 3 (overflow32 v), {})))

/-- CLRA (R367). -/
def execEngClra (e : EngineNo) (a : AccNo) (s : State) : Host.Outcome State Fault Refusal :=
  .next (s.engExec e .plain (pureBody fun x => x.setAcc a 0))

/-- MOVA (R367). -/
def execEngMova (e : EngineNo) (a : AccNo) (rs : GReg) (s : State) : Host.Outcome State Fault Refusal :=
  .next (s.engExec e .plain (pureBody fun x => x.setAcc a (x.reg rs).toInt))

/-- ADDA (R367). -/
def execEngAdda (e : EngineNo) (a b : AccNo) (s : State) : Host.Outcome State Fault Refusal :=
  .next (s.engExec e .plain (pureBody fun x => x.setAcc a (x.acc a + x.acc b)))

/-- ASRA (R367). -/
def execEngAsra (e : EngineNo) (a : AccNo) (sh : Fin 64) (s : State) : Host.Outcome State Fault Refusal :=
  .next (s.engExec e .plain (pureBody fun x => x.setAcc a (x.acc a / 2 ^ sh.val)))

/-- GRDA (R367): a[39:32], sign-extended. -/
def execEngGrda (e : EngineNo) (rd : GReg) (a : AccNo) (s : State) : Host.Outcome State Fault Refusal :=
  .next (s.engExec e .plain (pureBody fun x => x.setReg rd (BitVec.ofInt 32 (x.acc a / 2 ^ 32))))

end Sys2Proof.Machine
end

