-- ==== Sys2Proof/Machine/AsyanMem.lean ====
section
/-! DEFINITION. Loads and stores of the Asyan engines (R367, R368, R375, R380): addressing modes, what each mode of the
engine may reach, and the data memory. Role-interface contents and firmware images are not the spec's to give here:
loads of them read free values. -/

namespace Sys2Proof.Machine

/-! ## Addresses (R368) -/

def EngX.preg (x : EngX) (p : Nat) : Word := Tab.get 0 x.p p
def EngX.setPreg (x : EngX) (p : Nat) (v : Word) : EngX := { x with p := Tab.set 0 x.p p v }

/-- The address an access uses; none: mode 3 is illegal. -/
def EngX.ea (x : EngX) (m : AddrMode) : Option Word :=
  match m.mode.val with
  | 0 => some (x.preg m.p + m.imm.signExtend 32)
  | 1 | 2 => some (x.preg m.p)
  | _ => none

/-- The circular step of mode 2: inside the buffer it wraps, elsewhere it is linear. -/
def circStep (p cb cl : Word) (imm : Half) : Word :=
  if cl ≠ 0 ∧ cb.toNat ≤ p.toNat ∧ p.toNat < cb.toNat + cl.toNat then
    BitVec.ofInt 32 (cb.toNat + ((p.toNat : Int) - cb.toNat + imm.toInt) % (cl.toNat : Int))
  else p + imm.signExtend 32

/-- The address register after the access. -/
def EngX.step (x : EngX) (m : AddrMode) : EngX :=
  match m.mode.val with
  | 1 => x.setPreg m.p (x.preg m.p + m.imm.signExtend 32)
  | 2 => x.setPreg m.p (circStep (x.preg m.p) (Tab.get 0 x.cb m.p) (Tab.get 0 x.cl m.p) m.imm)
  | _ => x

/-! ## What an address reaches (R375, R380) -/

/-- The memories of an engine. -/
inductive Space where
  | code | data | role | none
  deriving DecidableEq, Repr

/-- The memory an access of `n` bytes may use; `Space.none`: an access fault. -/
def spaceOf (e : Nat) (user : Bool) (a n : Nat) (store : Bool) : Space :=
  if a % n ≠ 0 then .none
  else if e < 64 ∧ user then
    if 0x10018000 ≤ a ∧ a < 0x10020000 then .data
    else if 0x20008000 ≤ a ∧ a < 0x20009000 ∧ !store then .role
    else .none
  else if a < codeBytes e then (if store then .none else .code)
  else if 0x10000000 ≤ a ∧ a < 0x10000000 + dataBytes' e then .data
  else if 0x20000000 ≤ a ∧ a < 0x20010000 then .role
  else .none

/-- An address inside the windows of a lane program (R380). -/
def inWindow (e a : Nat) : Bool :=
  decide (e < 64) && ((decide (0xC000 ≤ a) && decide (a < 0x10000)) || (decide (0x10018000 ≤ a) && decide (a < 0x10020000)))

/-- The value a load of `n` bytes finds. -/
def State.loadValue (s : State) (e : Nat) (x : EngX) (sp : Space) (a n : Nat) : State × Nat :=
  match sp with
  | .data => (s, leNat (Tab.getList 0 x.data (a - 0x10000000) n))
  | .code =>
    if decide (e < 64) && x.prog.isSome && decide (0xC000 ≤ a) then (s, leNat (Tab.getList 0 x.code a n))
    else (s.freed, s.free % 2 ^ (8 * n))
  | _ => (s.freed, s.free % 2 ^ (8 * n))

/-- A load: the value goes through `f` to rd, whose old value the next instruction still reads (R369). An uncorrectable
word (`ecc` 2) is cause 5, but for firmware that reads a program's window the word's value is open. -/
def loadBody (e n rd : Nat) (m : AddrMode) (busy : Bool) (ecc : Nat) (f : Nat → Word) : Body := fun s x =>
  match x.ea m with
  | none => .error 1
  | some a =>
    let sp := spaceOf e x.user a.toNat n false
    let hit := if sp = Space.data ∨ sp = Space.code then ecc else 0
    if sp = Space.none then .error 2
    else if hit = 2 ∧ (x.user ∨ !inWindow e a.toNat) then .error 5
    else
      let (s1, v) := if hit = 2 then (s.freed, s.free % 2 ^ (8 * n)) else s.loadValue e x sp a.toNat n
      .ok (s1, (x.step m).setReg rd (f v), {
        wait := bitVal busy, ecc := if hit = 1 then 1 else 0, load := some (rd, Tab.get 0 x.g rd) })

/-- A store of `n` bytes: to data memory, or out to the role interface. -/
def storeBody (e n : Nat) (m : AddrMode) (busy : Bool) (v : EngX → Nat × Bool) (bad : Bool) : Body := fun s x =>
  match (if bad then none else x.ea m) with
  | none => .error 1
  | some a =>
    let (w, sat) := v x
    let y := if sat then (x.step m).setFlag 5 true else x.step m
    let acct : Acct := { wait := bitVal busy, sat := bitVal sat }
    match spaceOf e x.user a.toNat n true with
    | .data => .ok (s, { y with data := Tab.setList 0 y.data (a.toNat - 0x10000000) (leBytes n w) }, acct)
    | .role => .ok (s.emit (.roleStore e a.toNat n (w % 2 ^ (8 * n))), y, acct)
    | _ => .error 2

/-- LW (R368). -/
def execEngLw (e : EngineNo) (rd : GReg) (m : AddrMode) (busy : Bool) (ecc : Fin 3) (s : State) :
    Host.Outcome State Fault Refusal :=
  .next (s.engExec e .plain (loadBody e 4 rd m busy ecc fun v => BitVec.ofNat 32 v))

/-- LH (R368). -/
def execEngLh (e : EngineNo) (rd : GReg) (m : AddrMode) (busy : Bool) (ecc : Fin 3) (s : State) :
    Host.Outcome State Fault Refusal :=
  .next (s.engExec e .plain (loadBody e 2 rd m busy ecc fun v => (BitVec.ofNat 16 v).signExtend 32))

/-- LHU (R368). -/
def execEngLhu (e : EngineNo) (rd : GReg) (m : AddrMode) (busy : Bool) (ecc : Fin 3) (s : State) :
    Host.Outcome State Fault Refusal :=
  .next (s.engExec e .plain (loadBody e 2 rd m busy ecc fun v => BitVec.ofNat 32 v))

/-- SW (R368). -/
def execEngSw (e : EngineNo) (r : GReg) (m : AddrMode) (busy : Bool) (s : State) : Host.Outcome State Fault Refusal :=
  .next (s.engExec e .plain (storeBody e 4 m busy (fun x => ((x.reg r).toNat, false)) false))

/-- SH (R368). -/
def execEngSh (e : EngineNo) (r : GReg) (m : AddrMode) (busy : Bool) (s : State) : Host.Outcome State Fault Refusal :=
  .next (s.engExec e .plain (storeBody e 2 m busy (fun x => ((x.reg r).toNat, false)) false))

/-- An accumulator rounded by ASH and saturated to `w` bits (R367). -/
def EngX.satAcc (x : EngX) (a w : Nat) : Nat × Bool :=
  let v := roundShift (x.acc a) x.ash.toNat
  let c := max (-(2 ^ (w - 1))) (min (2 ^ (w - 1) - 1) v)
  (patternOf c w, v != c)

/-- SACW (R367): bits [23:22] of the word must be zero. -/
def execEngSacw (e : EngineNo) (r : GReg) (m : AddrMode) (busy : Bool) (s : State) :
    Host.Outcome State Fault Refusal :=
  .next (s.engExec e .plain (storeBody e 4 m busy (fun x => x.satAcc (r % 4) 32) (decide (4 ≤ r.val))))

/-- SACH (R367). -/
def execEngSach (e : EngineNo) (r : GReg) (m : AddrMode) (busy : Bool) (s : State) :
    Host.Outcome State Fault Refusal :=
  .next (s.engExec e .plain (storeBody e 2 m busy (fun x => x.satAcc (r % 4) 16) (decide (4 ≤ r.val))))

end Sys2Proof.Machine
end

