-- ==== Sys2Proof/Machine/AsyanFlow.lean ====
section
/-! DEFINITION. Branches, `REP`, system registers, sleep, interrupts and firmware calls of the Asyan engines (R365,
R369 to R374, R381, R383, R387, R388). -/

namespace Sys2Proof.Machine

/-! ## Branches (R369) and REP (R370) -/

/-- The target of a branch: its own address plus 4 times the offset. -/
def EngX.target (x : EngX) (ofs : BitVec 20) : Word := x.pc + ofs.signExtend 32 * 4

/-- A branch: the two instructions after it execute in either case; not taken, the path goes on after them. -/
def branchBody (taken : EngX → Bool) (to_ : EngX → Word) : Body := fun s x =>
  .ok (s, x, { branch := some (if taken x then to_ x else x.pc + 12, taken x) })

/-- BRA (R369). -/
def execEngBra (e : EngineNo) (ofs : BitVec 20) (s : State) : Host.Outcome State Fault Refusal :=
  .next (s.engExec e .control (branchBody (fun _ => true) fun x => x.target ofs))

/-- BEQZ (R369). -/
def execEngBeqz (e : EngineNo) (rs : GReg) (ofs : BitVec 20) (s : State) : Host.Outcome State Fault Refusal :=
  .next (s.engExec e .control (branchBody (fun x => x.reg rs == 0) fun x => x.target ofs))

/-- BNEZ (R369). -/
def execEngBnez (e : EngineNo) (rs : GReg) (ofs : BitVec 20) (s : State) : Host.Outcome State Fault Refusal :=
  .next (s.engExec e .control (branchBody (fun x => x.reg rs != 0) fun x => x.target ofs))

/-- BLTZ (R369). -/
def execEngBltz (e : EngineNo) (rs : GReg) (ofs : BitVec 20) (s : State) : Host.Outcome State Fault Refusal :=
  .next (s.engExec e .control (branchBody (fun x => decide ((x.reg rs).toInt < 0)) fun x => x.target ofs))

/-- BGEZ (R369). -/
def execEngBgez (e : EngineNo) (rs : GReg) (ofs : BitVec 20) (s : State) : Host.Outcome State Fault Refusal :=
  .next (s.engExec e .control (branchBody (fun x => decide (0 ≤ (x.reg rs).toInt)) fun x => x.target ofs))

/-- BAL (R369): g15 receives the branch address + 12. -/
def execEngBal (e : EngineNo) (ofs : BitVec 20) (s : State) : Host.Outcome State Fault Refusal :=
  .next (s.engExec e .control fun s x =>
    .ok (s, x.setReg 15 (x.pc + 12), { branch := some (x.target ofs, true) }))

/-- JR (R369). -/
def execEngJr (e : EngineNo) (rs : GReg) (s : State) : Host.Outcome State Fault Refusal :=
  .next (s.engExec e .control (branchBody (fun _ => true) fun x => x.reg rs))

/-- REP (R370): form 0 counts from the word, form 1 from g[rs][9:0]. -/
def execEngRep (e : EngineNo) (form : Bool) (rs : GReg) (cnt : BitVec 10) (s : State) :
    Host.Outcome State Fault Refusal :=
  .next (s.engExec e .control (pureBody fun x =>
    { x with rep := some ((if form then (x.reg rs).toNat % 1024 else cnt.toNat) + 1, x.pc) }))

/-! ## Counters (R385 to R388) -/

/-- Zero a counter of engine `e` and clear its flags. -/
def State.pmcClear (s : State) (e i : Nat) : State :=
  ((s.wr Reg.ENG.PMC_CNT.COUNT 0 e i).wr Reg.ENG.PMC_SEL.OVF 0 e i).wr Reg.ENG.PMC_SEL.PARTIAL 0 e i

/-- A write of `PMC_SEL` of an engine: a change of select leaves the count and makes the interval partial. -/
def State.pmcSelWrite (s : State) (e i v : Nat) : State :=
  let s1 := if s.rd Reg.ENG.PMC_SEL.EVENT e i = v % 32 then s else s.wr Reg.ENG.PMC_SEL.PARTIAL 1 e i
  let s2 := (((s1.wr Reg.ENG.PMC_SEL.EVENT v e i).wr Reg.ENG.PMC_SEL.CHAIN (bitsOf v 5 1) e i).wr
    Reg.ENG.PMC_SEL.THR (bitsOf v 8 8) e i).wr Reg.ENG.PMC_SEL.INST (bitsOf v 16 7) e i
  if bitOf v 6 then s2.pmcClear e i else s2

/-- What `PMC_SEL` of an engine reads as. -/
def State.pmcSelRead (s : State) (e i : Nat) : Nat :=
  s.rd Reg.ENG.PMC_SEL.EVENT e i + 2 ^ 5 * s.rd Reg.ENG.PMC_SEL.CHAIN e i + 2 ^ 8 * s.rd Reg.ENG.PMC_SEL.THR e i +
    2 ^ 16 * s.rd Reg.ENG.PMC_SEL.INST e i + 2 ^ 30 * s.rd Reg.ENG.PMC_SEL.OVF e i +
    2 ^ 31 * s.rd Reg.ENG.PMC_SEL.PARTIAL e i

/-- A lane program may use its engine's counters (R388). -/
def State.pmcUser (s : State) (n : Nat) : Bool := s.flag Reg.PMC.ACCESS.USER 0 (s.rd Reg.ENG.PROG_STAT.FN n)

/-! ## System registers (R365) -/

/-- Numbers a program may not name. -/
def sysForbidden (num : Nat) : Bool := (decide (1 ≤ num) && decide (num ≤ 5)) || num == 0x40

/-- Read a system register: the value, and the engine after a read that captures. None: no such register. -/
def State.sysRead (s : State) (e : Nat) (x : EngX) (num : Nat) : Option (State × EngX × Word) :=
  let pmc := fun (v : Nat) => if x.user && !s.pmcUser e then (0 : Word) else BitVec.ofNat 32 v
  if num = 0 then some (s, x, x.status)
  else if num = 1 then some (s, x, x.epc)
  else if num = 2 then some (s, x, x.estatus)
  else if num = 3 then some (s, x, x.ien.setWidth 32)
  else if num = 4 then some (s, x, x.ipend.setWidth 32)
  else if num = 5 then
    some (s, x, BitVec.ofNat 32 (s.rd Reg.ENG.SLEEP.MODE e + 65536 * s.rd Reg.ENG.SLEEP.WAKE_MASK e))
  else if num = 6 then some (s, x, x.ash.setWidth 32)
  else if 0x10 ≤ num ∧ num < 0x14 then some (s, x, Tab.get 0 x.cb (num - 0x10))
  else if 0x14 ≤ num ∧ num < 0x18 then some (s, x, Tab.get 0 x.cl (num - 0x14))
  else if num = 0x20 then some (s, { x with beatHi := (x.beat >>> 32).setWidth 32 }, x.beat.setWidth 32)
  else if num = 0x21 then some (s, x, x.beatHi)
  else if 0x30 ≤ num ∧ num < 0x34 then some (s, x, pmc (s.pmcSelRead e (num - 0x30)))
  else if 0x34 ≤ num ∧ num < 0x3C then
    let i := (num - 0x34) / 2
    if num % 2 = 0 then
      let v := s.rd Reg.ENG.PMC_CNT.COUNT e i
      some (s, { x with pmcHi := Tab.set 0 x.pmcHi i (BitVec.ofNat 32 (v / 2 ^ 32 + 65536 * (s.time % 65536))) }, pmc v)
    else some (s, x, pmc (Tab.get 0 x.pmcHi i).toNat)
  else if num = 0x40 then some (s.freed, x, BitVec.ofNat 32 s.free)
  else none

/-- MFS (R365). What a read of WDT returns is not stated (a free value). -/
def execEngMfs (e : EngineNo) (rd : GReg) (num : Half) (s : State) : Host.Outcome State Fault Refusal :=
  .next (s.engExec e .plain fun s x =>
    if x.user && sysForbidden num.toNat then .error 3
    else
      match s.sysRead e x num.toNat with
      | none => .error 1
      | some (s1, y, v) => .ok (s1, y.setReg rd v, {}))

/-- Write a system register. None: no such register. Counts are not writable. -/
def State.sysWrite (s : State) (e : Nat) (x : EngX) (num : Nat) (v : Word) : Option (State × EngX) :=
  if num = 0 then
    some (s, { x with status := if x.user then (x.status &&& ~~~0x3F) ||| (v &&& 0x3F) else v &&& 0x33F })
  else if num = 1 then some (s, { x with epc := v })
  else if num = 2 then some (s, { x with estatus := v &&& 0x33F })
  else if num = 3 then some (s, { x with ien := v.setWidth 16 })
  else if num = 4 then some (s, { x with ipend := v.setWidth 16 })
  else if num = 5 then
    some ((s.wr Reg.ENG.SLEEP.MODE v.toNat e).wr Reg.ENG.SLEEP.WAKE_MASK (bitsOf v.toNat 16 16) e, x)
  else if num = 6 then some (s, { x with ash := v.setWidth 5 })
  else if 0x10 ≤ num ∧ num < 0x14 then some (s, { x with cb := Tab.set 0 x.cb (num - 0x10) v })
  else if 0x14 ≤ num ∧ num < 0x18 then some (s, { x with cl := Tab.set 0 x.cl (num - 0x14) v })
  else if num = 0x20 ∨ num = 0x21 then some (s, x)
  else if 0x30 ≤ num ∧ num < 0x34 then
    some (if x.user && !s.pmcUser e then s else s.pmcSelWrite e (num - 0x30) v.toNat, x)
  else if 0x34 ≤ num ∧ num < 0x3C then some (s, x)
  else if num = 0x40 then some (s, { x with wdt := 0 })
  else none

/-- MTS (R365, R370). -/
def execEngMts (e : EngineNo) (rs : GReg) (num : Half) (s : State) : Host.Outcome State Fault Refusal :=
  .next (s.engExec e (if num.toNat = 3 ∨ num.toNat = 5 then .noRep else .plain) fun s x =>
    if x.user && sysForbidden num.toNat then .error 3
    else
      match s.sysWrite e x num.toNat (x.reg rs) with
      | none => .error 1
      | some (s1, y) => .ok (s1, y, {}))

/-! ## Sleep and interrupts (R371 to R374) -/

/-- WAIT (R373, R374): the pipeline stops unless a source of the wake mask is pending; in user mode a violation. -/
def execEngWait (e : EngineNo) (s : State) : Host.Outcome State Fault Refusal :=
  .next (s.engExec e .control fun s x =>
    if x.user then .error 4
    else if x.ipend.toNat &&& s.rd Reg.ENG.SLEEP.WAKE_MASK e ≠ 0 then .ok (s, x, {})
    else .ok (s, { x with asleep := some s.time }, {}))

/-- ENGINE_WAKE (R372, R373): a source becomes pending; one of the wake mask wakes a sleeping engine. An edge that falls
in the 3 beats after `WAIT` issues (`early`) is lost. -/
def execEngineWake (e : EngineNo) (src : Fin 16) (level early : Bool) (s : State) : Host.Outcome State Fault Refusal :=
  .next (
    let x := s.engOf e
    if !s.engPowered e then s
    else if early && !level && x.asleep.isSome then s
    else
      let y := { x with ipend := x.ipend ||| BitVec.ofNat 16 (2 ^ src.val) }
      match x.asleep with
      | some t =>
        if bitOf (s.rd Reg.ENG.SLEEP.WAKE_MASK e) src then (s.setEng e { y with asleep := none }).engCount e 8 (s.time - t)
        else s.setEng e y
      | none => s.setEng e y)

/-- The lowest-numbered set bit of the 16 sources. -/
def lowestSource (v : Nat) : Option Nat := (List.range 16).find? fun i => bitOf v i

/-- ENGINE_INTERRUPT (R371): the lowest pending enabled source is taken at a permitted boundary while IE is 1. -/
def execEngineInterrupt (e : EngineNo) (s : State) : Host.Outcome State Fault Refusal :=
  .next (
    let x := s.engOf e
    if !s.engPowered e || x.asleep.isSome || !x.ie || !x.boundary then s
    else
      match lowestSource ((x.ien &&& x.ipend).toNat) with
      | none => s
      | some i =>
        ((s.setEng e ({ x with
          epc := x.pc, estatus := x.status, status := x.status &&& 0xFF, pc := BitVec.ofNat 32 (4 * i)
          oldReg := none }.spend false 3)).engCount e 1 3).engCount e 7 1)

/-- RTI (R371): PC and STATUS come back; 3 beats, no delay slots. -/
def execEngRti (e : EngineNo) (s : State) : Host.Outcome State Fault Refusal :=
  .next (s.engExec e .control fun s x =>
    .ok (s, { x with status := x.estatus }, { jump := some x.epc, extra := 2 }))

/-- SYNC (R364): stores reach memory at once here, so nothing is left to wait for. -/
def execEngSync (e : EngineNo) (s : State) : Host.Outcome State Fault Refusal :=
  .next (s.engExec e .plain (pureBody fun x => x))

/-- NOP (R364). -/
def execEngNop (e : EngineNo) (s : State) : Host.Outcome State Fault Refusal :=
  .next (s.engExec e .plain (pureBody fun x => x))

/-! ## A program's budget and its firmware calls (R381, R383) -/

/-- A suspended program leaves the engine to firmware at a permitted boundary, its registers kept. -/
def State.suspendSettle (s : State) (n : Nat) : State :=
  let x := s.engOf n
  match x.prog with
  | some p =>
    if p.suspended ∧ x.user ∧ x.boundary then
      (s.setEng n { x with prog := some { p with
        g := x.g, a := x.a, p := x.p, cb := x.cb, cl := x.cl, ash := x.ash, pc := x.pc, status := x.status } }).leaveUser n
    else s
  | none => s

/-- BUDGET_EXHAUSTED (R381). -/
def execBudgetExhausted (n : LaneNo) (s : State) : Host.Outcome State Fault Refusal :=
  .next (
    let x := s.engOf n
    match x.prog with
    | some p =>
      if x.user ∧ x.boundary ∧ s.progState n = 2 ∧ s.progBudget n ≤ p.used then
        (s.setEng n { x with prog := some { p with suspended := true } }).suspendSettle n
      else s
    | none => s)

/-- BUDGET_PERIOD (R381): a new 100 µs period; a suspended program goes on. -/
def execBudgetPeriod (n : LaneNo) (s : State) : Host.Outcome State Fault Refusal :=
  .next (
    let x := s.engOf n
    match x.prog with
    | some p =>
      let q := { p with used := 0, suspended := false }
      if p.suspended ∧ !x.user ∧ s.progState n = 2 then
        s.setEng n { x with
          prog := some q, g := p.g, a := p.a, p := p.p, cb := p.cb, cl := p.cl, ash := p.ash, pc := p.pc
          status := p.status, slots := none, oldReg := none, rep := none }
      else s.setEng n { x with prog := some q }
    | none => s)

/-- A freeze condition of R92 holds for a loop with this freeze bit. -/
def State.loopFrozen (s : State) (n : Nat) (bit : Fld) : Bool := s.freezeCause n != 0 || s.flag bit n

/-- The 48 taps a program proposes, clamped to the range of R83. -/
def proposedTaps (x : EngX) (ptr : Nat) : List Int :=
  (List.range 48).map fun i =>
    max (-512) (min 511 (signedOf (leNat (Tab.getList 0 x.data (ptr - 0x10000000 + 2 * i) 2)) 16)) * 2 ^ 14

/-- Taps firmware matches to a target: not the spec's to give (free values). -/
def State.matchedTaps (s : State) : State × List Int :=
  ({ s with freeCtr := s.freeCtr + 48 },
    (List.range 48).map fun i => signedOf (Config.freeNat (s.freeCtr + i)) 10 * 2 ^ 14)

/-- A firmware call of lane program `n`: the status of g0 with the state after; none: an unknown number. -/
def State.firmwareCall (s : State) (n num : Nat) (x : EngX) : Option (State × EngX × Nat) :=
  let g1 := (x.reg 1).toNat
  match num with
  | 0 => some (s, { x with prog := x.prog.map fun p => { p with suspended := true } }, 0)
  | 1 => some (s, x.setReg 1 (BitVec.ofNat 32 s.time), 0)
  | 2 =>
    if !s.flag Reg.ENG.PROG_CTRL.OWN_FFE n || s.loopFrozen n Reg.LN.RX_CTRL.FFE_FREEZE then some (s, x, 1)
    else if g1 % 2 ≠ 0 ∨ g1 < 0x10018000 ∨ 0x10020000 < g1 + 96 then some (s, x, 2)
    else some (s.setTaps n (proposedTaps x g1), x, 0)
  | 3 =>
    if !s.flag Reg.ENG.PROG_CTRL.OWN_TGT n || s.loopFrozen n Reg.LN.RX_CTRL.TGT_FREEZE then some (s, x, 1)
    else if s.rd Reg.LN.MLSE_CTRL.ALPHA1_MAX n < g1 % 16 then some (s, x, 2)
    else
      let (s1, taps) := s.matchedTaps
      some (((s1.wr Reg.LN.MLSE_CTRL.ALPHA1 (g1 % 16) n).wr Reg.LN.MLSE_CTRL.ALPHA2 (bitsOf g1 4 3) n).setTaps n taps, x, 0)
  | _ => none

/-- SVC (R365, R381, R383): from a lane program a call into firmware, whose service is charged to the program; in
supervisor mode PC and STATUS are saved, and where firmware goes on is not stated (a free value). -/
def execEngSvc (e : EngineNo) (num : Half) (beats : Fin 401) (s : State) : Host.Outcome State Fault Refusal :=
  .next (
    let t := s.engExec e .control fun s x =>
      let y := { x with epc := x.pc + 4, estatus := x.status }
      if e.val < 64 ∧ x.user then
        match s.firmwareCall e num.toNat x with
        | none => .error 6
        | some (s1, z, st) =>
          .ok (s1, { z.setReg 0 (BitVec.ofNat 32 st) with epc := y.epc, estatus := y.estatus }, { extra := beats.val })
      else .ok (s.freed, { y with status := y.status &&& 0x1FF }, { jump := some (BitVec.ofNat 32 (4 * s.free)) })
    if e.val < 64 then t.suspendSettle e else t)

end Sys2Proof.Machine
end

