-- ==== Sys2Proof/Machine/Sign.lean ====
section
/-! DEFINITION. Signatures, images and records as byte formats (R378, R445 to R447, R453): signature blocks and their
sets, image headers, commit records and CRC-32. The cryptographic functions themselves are opaque (Config). -/

namespace Sys2Proof.Machine

/-- The bytes of an ASCII text. -/
def ascii (t : String) : List Byte := t.toList.map fun c => BitVec.ofNat 8 c.toNat

/-- `n` bytes from offset `i`. -/
def cut (l : List Byte) (i n : Nat) : List Byte := (l.drop i).take n

/-- The little-endian number of `n` bytes from offset `i`. -/
def numAt (l : List Byte) (i n : Nat) : Nat := leNat (cut l i n)

def allZero (l : List Byte) : Bool := l.all fun b => b == 0

/-! ## Signature blocks (R447) -/

/-- A set of a signature block. -/
structure SigSet where
  root : Nat
  key : List Byte
  rsa : List Byte
  slh : List Byte
  deriving DecidableEq, Repr

def setBytes : Nat := 17048

/-- The set at position `k` of a block. -/
def sigSetAt (b : List Byte) (k : Nat) : SigSet :=
  let t := cut b (16 + setBytes * k) setBytes
  { root := numAt t 0 1, key := cut t 4 436, rsa := cut t 440 384, slh := cut t 824 16224 }

/-- The sets of a well-formed block; none: malformed. -/
def sigSets (b : List Byte) : Option (List SigSet) :=
  let n := numAt b 4 1
  if cut b 0 4 = ascii "TRSG" ∧ 1 ≤ n ∧ n ≤ 2 ∧ allZero (cut b 5 11) ∧ b.length = 16 + setBytes * n ∧
      (List.range n).all fun k => allZero (cut b (16 + setBytes * k + 1) 3) then
    some ((List.range n).map (sigSetAt b))
  else none

/-- A set verifies over a message under a root hash: the keys hash to it, and both signatures verify. -/
def sigSetOk (x : SigSet) (hash msg : List Byte) : Bool :=
  Config.sha384 x.key == hash && leNat (cut x.key 384 4) == 65537 &&
    Config.rsaPssVerify (x.key.take 384) (cut x.key 384 4) msg x.rsa &&
    Config.slhDsaVerify (cut x.key 388 48) msg x.slh

/-- The block holds a set of the root ID that verifies under its fused hash. -/
def signedBy (b msg : List Byte) (root : Nat) (hash : Option (List Byte)) : Bool :=
  match sigSets b, hash with
  | some xs, some h => xs.any fun x => x.root == root && sigSetOk x h msg
  | _, _ => false

/-- What both signatures of a set cover for an image or lane program. -/
def signMessage (img : List Byte) : List Byte := ascii "TREHIROK-SIGN-V1" ++ img.take 80

/-! ## CRC-32 (R445) -/

/-- One step of the IEEE 802.3 CRC on its reflected register. -/
def crc32Bit (r : Nat) (b : Bool) : Nat :=
  if (r % 2 == 1) != b then (r / 2) ^^^ 0xEDB88320 else r / 2

def crc32Byte (r : Nat) (b : Byte) : Nat := (List.range 8).foldl (fun v i => crc32Bit v (bitOf b.toNat i)) r

/-- CRC-32 of a byte list. -/
def crc32 (l : List Byte) : Nat := (l.foldl crc32Byte 0xFFFFFFFF) ^^^ 0xFFFFFFFF

/-! ## Images (R446, R447) -/

/-- Why an image is refused, codes of `SEC.BOOT_STAT.FAIL_A`: 2 header, 3 hash, 4 signature, 5 rollback. -/
abbrev ImageFail := Nat

/-- The header of an image is valid; the sizes agree with the bytes there are. -/
def imageHeaderOk (img : List Byte) : Bool :=
  let sig := numAt img 20 4
  let kind := numAt img 6 1
  cut img 0 4 == ascii "TRIM" && numAt img 4 2 == 1 && decide (kind ≤ 2) && numAt img 7 1 == 0 &&
    decide (numAt img 12 1 ≤ 64) && (kind == 0 || numAt img 12 1 == 0) && allZero (cut img 13 3) &&
    numAt img 16 4 == img.length && decide (img.length ≤ 2 ^ 25) && decide (96 ≤ sig) && decide (sig ≤ img.length) &&
    decide (96 + 16 * numAt img 24 4 ≤ sig || kind ≠ 0) && allZero (cut img 80 16)

/-- What the device keeps of an image's header. -/
def imageInfo (img : List Byte) : ImageInfo :=
  { version := numAt img 8 4, secVer := numAt img 12 1, kind := numAt img 6 1, formats := numAt img 28 4,
    imgBytes := img.length, hash := Config.sha384 img }

/-- `HASH` matches: over bytes 96 to `SIG_OFS` − 1. -/
def imageHashOk (img : List Byte) : Bool :=
  Config.sha384 (cut img 96 (numAt img 20 4 - 96)) == cut img 32 48

/-- The signature block of an image. -/
def imageSigs (img : List Byte) : List Byte := img.drop (numAt img 20 4)

/-- The customer root hash while it is fused and in force; in RETURN the Ulikin root alone counts (R442). -/
def State.custRoot (s : State) : Option (List Byte) := if s.lc = 3 ∨ s.lc = 0 then none else s.sec.custRoot

/-- The sets a firmware image or token needs verify (R443, R447). A root token is signed by the customer root it names;
a token to FIELD by the customer root if fused, else the Ulikin root. -/
def State.imageSigned (s : State) (img : List Byte) : Bool :=
  let b := imageSigs img
  let m := signMessage img
  let ulk := signedBy b m 0 (some s.sec.ulkRoot)
  let cust := match s.custRoot with | some h => signedBy b m 1 (some h) | none => true
  match numAt img 6 1 with
  | 2 => signedBy b m 1 (some (cut img 104 48))
  | 1 => if numAt img 104 1 = 2 then (if s.custRoot.isSome then cust else ulk) else ulk && cust
  | _ => ulk && cust

/-- Judge an image: the cause it is refused for; none: accepted (R447). -/
def State.imageFail (s : State) (img : List Byte) : Option ImageFail :=
  if !imageHeaderOk img then some 2
  else if !imageHashOk img then some 3
  else if !s.imageSigned img then some 4
  else if numAt img 6 1 = 0 ∧ numAt img 12 1 < s.rd Reg.SEC.ARB.COUNTER then some 5
  else none

/-! ## Commit records (R445) -/

/-- A valid copy of a commit record. -/
def recordOf (l : List Byte) : Option CommitRec :=
  if cut l 0 4 = ascii "TRCR" ∧ numAt l 72 4 = crc32 (l.take 72) ∧ 76 ≤ l.length then
    some {
      seq := numAt l 4 4, active := numAt l 8 1 % 2, state := numAt l 9 1, prevOk := numAt l 10 1 == 1
      version := numAt l 12 4, secVer := numAt l 16 1, imgBytes := numAt l 20 4, hash := cut l 24 48 }
  else none

/-- The bytes of a commit record. -/
def recordBytes (r : CommitRec) : List Byte :=
  let b := ascii "TRCR" ++ leBytes 4 r.seq ++ leBytes 1 r.active ++ leBytes 1 r.state ++ leBytes 1 (bitVal r.prevOk) ++
    leBytes 1 0 ++ leBytes 4 r.version ++ leBytes 1 r.secVer ++ leBytes 3 0 ++ leBytes 4 r.imgBytes ++ r.hash
  b ++ leBytes 4 (crc32 b)

end Sys2Proof.Machine
end

