-- ==== Sys2Proof/Machine/Programs.lean ====
section
/-! DEFINITION. Lane programs and the engines' records (R362, R376, R378, R379, R384 to R386): loading, starting and
stopping a program, state blocks, and clearing and wrapping counters. -/

namespace Sys2Proof.Machine

/-! ## Lane programs (R362, R378, R379) -/

/-- The header of a lane program and the size the command names are valid. -/
def progHeaderOk (img : List Byte) (n : Nat) : Bool :=
  let code := numAt img 8 4
  let data := numAt img 12 4
  let entry := numAt img 16 4
  cut img 0 4 == ascii "TRLP" && numAt img 4 2 == 1 && numAt img 6 2 == 0 && code % 4 == 0 && decide (4 ≤ code) &&
    decide (code ≤ 16384) && data % 4 == 0 && decide (data ≤ 32768) && entry % 4 == 0 && decide (entry < code) &&
    allZero (cut img 28 4) && allZero (cut img 80 16) && n == 96 + code + data + numAt img 24 4

/-- The bytes a command has read from host memory. -/
def dataOf (f : Flight) (n : Nat) : List Byte := (f.d.data ++ List.replicate (n - f.d.data.length) 0).take n

/-- Both signatures of a lane program's customer set verify (R379, R447). -/
def State.progSigned (s : State) (img : List Byte) : Bool :=
  signedBy (img.drop (96 + numAt img 8 4 + numAt img 12 4)) (signMessage img) 1 s.sec.custRoot

/-- The first check of PROGRAM_LOAD that fails (R325, R362, R379). -/
def chkProgramLoad (s : State) (f : Flight) : Option Res :=
  let t := f.e.target.toNat
  let n := op32 f.e 16
  let img := dataOf f n
  let st := s.progState t
  let sig := numAt img 24 4
  if 64 ≤ t ∨ !addrOk (op64 f.e 24) n then some { st := .badField }
  else if st = 1 ∨ st = 2 then some { st := .badField }
  else if !s.hodOn then some { st := .domainOff }
  else if (match f.d.failAt with | some k => decide (k < n) | none => false) then some { st := .dmaFault }
  else if !progHeaderOk img n then some { st := .badField }
  else if Config.sha384 (cut img 96 (numAt img 8 4 + numAt img 12 4)) ≠ cut img 32 48 then some { st := .sigFail }
  else if s.lc = 2 ∧ s.sec.custRoot.isNone then some { st := .lcDenied }
  else if (s.lc = 2 ∧ sig = 0) ∨ (sig ≠ 0 ∧ !s.progSigned img) then some { st := .sigFail }
  else none

/-- A program is stored in its hod slot and loaded into the engine's windows: LOADED. -/
def runProgramLoad (s : State) (g : Origin) (f : Flight) : State :=
  let t := f.e.target.toNat
  let img := dataOf f (op32 f.e 16)
  let nc := numAt img 8 4
  let nd := numAt img 12 4
  let p : ProgX := { header := img.take 96, code := cut img 96 nc, data := cut img (96 + nc) nd, entry := numAt img 16 4 }
  let s1 := s.hodStore (progSlot t) (img.take (96 + nc + nd)) []
  let s2 := s1.setEng t { (s1.engOf t).loadProg p.code p.data with prog := some p }
  (((s2.wr Reg.ENG.PROG_STAT.STATE 1 t).wr Reg.ENG.PROG_STAT.CAUSE 0 t).wr Reg.ENG.PROG_STAT.FN f.fn t).finishSt g .ok

/-- PROGRAM_LOAD (R362, R379). -/
def execProgramLoad (r : RingNo) (e : Entry) (d : Dma) (s : State) : Host.Outcome State Fault Refusal :=
  .next (s.serve .programLoad r e d chkProgramLoad runProgramLoad)

/-- The checks of PROGRAM_CTRL (R362, R384). -/
def chkProgramCtrl (s : State) (f : Flight) : Option Res :=
  let t := f.e.target.toNat
  let a := opByte f.e 16
  let st := s.progState t
  if 64 ≤ t ∨ 2 < a ∨ st = 0 ∨ (a = 1 ∧ st = 2) ∨ (a = 2 ∧ st = 2) then some { st := .badField } else none

/-- Stop, start or unload (R384): a stop of a running program is made at the next permitted boundary. -/
def runProgramCtrl (s : State) (g : Origin) (f : Flight) : State :=
  let t := f.e.target.toNat
  let x := s.engOf t
  match x.prog with
  | none => s.finishSt g .ok
  | some p =>
    match opByte f.e 16 with
    | 0 =>
      if x.user ∧ s.progState t = 2 then (s.setEng t { x with prog := some { p with stopDue := some g } }).stopSettle t
      else ((s.setEng t { x with prog := some { p with suspended := false } }).wr Reg.ENG.PROG_STAT.STATE 3 t).finishSt g .ok
    | 1 =>
      let y := x.enterProg p.entry
      ((s.setEng t { y with prog := some { p with suspended := false } }).wr Reg.ENG.PROG_STAT.STATE 2 t).finishSt g .ok
    | _ => ((s.setEng t { x with prog := none }).wr Reg.ENG.PROG_STAT.STATE 0 t).finishSt g .ok

/-- PROGRAM_CTRL (R362). -/
def execProgramCtrl (r : RingNo) (e : Entry) (d : Dma) (s : State) : Host.Outcome State Fault Refusal :=
  .next (s.serve .programCtrl r e d chkProgramCtrl runProgramCtrl)

/-! ## State blocks (R376, R393, R458) -/

/-- The engine's state block is stored in a slot of its own; the other slot is then the next. -/
def State.storeBlock (s : State) (e slot : Nat) (b : List Byte) : State :=
  let x := s.engOf e
  (s.hodStore (blockOfs e slot) b []).setEng e { x with
    blockSlot := 1 - slot, blockLens := Tab.set 0 x.blockLens slot b.length }

/-- STATE_BLOCK_WRITE (R376, R458): the two slots alternate. Until K0 has swapped, an activation keeps slot 0 in the old
format; after that, and until confirmation or fallback, both slots are written, slot 0 as the last. -/
def execStateBlockWrite (e : EngineNo) (data : List Byte) (s : State) : Host.Outcome State Fault Refusal :=
  .next (
    let b := data.take 16384
    if 80 ≤ e.val ∨ !s.engPowered e ∨ !s.hodOn then s
    else if !s.upd.dual then s.storeBlock e (s.engOf e).blockSlot b
    else if s.rd Reg.UPD.STAT.STATE = 3 then s.storeBlock e 0 b
    else (s.storeBlock e 1 b).storeBlock e 0 b)

/-! ## Counters (R385, R386) -/

/-- Zero datapath counter `i` and clear its flags. -/
def State.dpClear (s : State) (i : Nat) : State :=
  ((s.wr Reg.PMC.DP_CNT.COUNT 0 i).wr Reg.PMC.DP_SEL.OVF 0 i).wr Reg.PMC.DP_SEL.PARTIAL 0 i

/-- PMC_CLEAR (R386): a write of `CLEAR` to a select register. -/
def execPmcClear (p : CounterRef) (s : State) : Host.Outcome State Fault Refusal :=
  .next (
    match p with
    | .eng e i => s.regAccess Reg.ENG.PMC_SEL.CLEAR e i true fun s => s.pmcClear e i
    | .dp i => s.regAccess Reg.PMC.DP_SEL.CLEAR i 0 true fun s => s.dpClear i)

/-- DP_CLEAR (R390): all datapath counters are zeroed together. -/
def execDpClear (s : State) : Host.Outcome State Fault Refusal :=
  .next (s.regAccess Reg.PMC.CTRL.DP_CLEAR 0 0 true fun s =>
    (List.range 32).foldl (fun (t : State) (i : Nat) => t.wr Reg.PMC.DP_CNT.COUNT 0 i) s)

/-- PMC_COUNTER_WRAP (R386): a counter passes 2^48 on events this model does not count one by one. -/
def execPmcCounterWrap (p : CounterRef) (s : State) : Host.Outcome State Fault Refusal :=
  .next (
    match p with
    | .eng e i => if s.engPowered e then s.pmcAdd e i (2 ^ 48 - s.rd Reg.ENG.PMC_CNT.COUNT e i) else s
    | .dp i => if s.coreOn then s.dpAdd i (2 ^ 48 - s.rd Reg.PMC.DP_CNT.COUNT i) else s)

end Sys2Proof.Machine
end

