-- ==== Sys2Proof/Machine/RingRows.lean ====
section
/-! DEFINITION. The commands of the ring family (11_rings_and_sessions): context writes, doorbells, the service of work
units, event records, messages, the event map, and sessions (R295 to R320, R333, R334, R503). -/

namespace Sys2Proof.Machine

/-! ## CFG writes (R295, R299) -/

/-- A ring rests with a held enable (R299): the enable takes place now, with its checks. -/
def State.heldEnable (s : State) (r : Nat) : State :=
  if s.rd Reg.RING.CFG.EN r = 1 then s.enable r else s

/-- The owner part of a CFG write (R295): only PF0 changes it, and only while the ring is at rest; otherwise the error
log records OWNER_BUSY. -/
def State.writeOwner (s : State) (f r v : Nat) : State :=
  let o := bitsOf v 7 6
  if f ≠ 0 ∨ o = s.ringOwner r then s
  else if s.atRest r then s.wr Reg.RING.CFG.OWNER o r
  else ((s.wr Reg.RING.ERR_LOG.RING r).wr Reg.RING.ERR_LOG.CAUSE 6).wr Reg.RING.ERR_LOG.VALID 1

/-- TYPE and SIZE take effect only while the ring is at rest (R299). -/
def State.writeShape (s : State) (r v : Nat) : State :=
  if s.atRest r then (s.wr Reg.RING.CFG.TYPE (bitsOf v 1 1) r).wr Reg.RING.CFG.SIZE (bitsOf v 2 5) r else s

/-- The EN part of a CFG write (R299). -/
def State.writeEn (s : State) (r : Nat) (en : Bool) : State :=
  if en then
    if s.ringState r = 1 then s
    else if s.atRest r then s.enable r
    else s.wr Reg.RING.CFG.EN 1 r
  else if s.ringState r = 1 then s.disable r
  else s.wr Reg.RING.CFG.EN 0 r

/-- A write of `v` to `RING[r].CFG` by function `f` (R294, R295, R299): a VF reaches only the rings it owns. -/
def State.writeCfg (s : State) (f r v : Nat) : State :=
  if f ≠ 0 ∧ s.ringOwner r ≠ f then s
  else ((s.writeOwner f r v).writeShape r v).writeEn r (bitOf v 0)

/-- RING_ENABLE (R299): a write of CFG with EN = 1. -/
def execRingEnable (f : FnNo) (r : RingNo) (v : Word) (s : State) : Host.Outcome State Fault Refusal :=
  .next (if s.coreOn then (s.setShadow f none).writeCfg f r (v ||| 1).toNat else s.unsupported f (0x3C0010 + 0x40 * r))

/-- RING_DISABLE (R299): a write of CFG with EN = 0. -/
def execRingDisable (f : FnNo) (r : RingNo) (v : Word) (s : State) : Host.Outcome State Fault Refusal :=
  .next (if s.coreOn then (s.setShadow f none).writeCfg f r (v &&& 0xFFFFFFFE).toNat
    else s.unsupported f (0x3C0010 + 0x40 * r))

/-- RING_OWNER_WRITE (R295): a write of CFG that names an owner. -/
def execRingOwnerWrite (f : FnNo) (r : RingNo) (v : Word) (s : State) : Host.Outcome State Fault Refusal :=
  .next (if s.coreOn then (s.setShadow f none).writeCfg f r v.toNat else s.unsupported f (0x3C0010 + 0x40 * r))

/-- RING_QUIESCED (R299): with nothing in flight a QUIESCING ring becomes DISABLED, and an enable held for a ring now
at rest takes place. -/
def execRingQuiesced (r : RingNo) (s : State) : Host.Outcome State Fault Refusal :=
  .next (
    if !(s.ring r).flights.isEmpty then s
    else if s.ringState r = 3 then (s.wr Reg.RING.STAT.STATE 0 r).heldEnable r
    else if s.ringState r = 2 then s.heldEnable r
    else s)

/-! ## Doorbells (R300, R301, R302) -/

/-- A doorbell is dropped and counted with its page and function (R300, R301). -/
def State.dropDoorbell (s : State) (f r : Nat) : State :=
  ((s.count Reg.RING.DB_DROP.COUNT).wr Reg.RING.DB_DROP.LAST_PAGE r).wr Reg.RING.DB_DROP.LAST_FN f

/-- A new SQ tail (R302): nothing when equal, the tail when valid, else the ring enters ERROR with SQ_OVERRUN. -/
def State.sqTail (s : State) (r t : Nat) : State :=
  let s := s.dpCount 11 (s.ringOwner r) 1
  let n := s.ringSize r
  let prev := s.rd Reg.RING.SQ_PTR.TAIL r
  let head := s.rd Reg.RING.SQ_PTR.HEAD r
  if t = prev then s
  else if t < n ∧ (t + n - prev) % n ≤ (head + 2 * n - 1 - prev) % n then s.wr Reg.RING.SQ_PTR.TAIL t r
  else s.ringError r 2

/-- A new CQ head (R302): it releases records the device has written, then pending event sources are written (R308);
otherwise the ring enters ERROR with CQ_OVERRUN. -/
def State.cqHead (s : State) (r h : Nat) : State :=
  let s := s.dpCount 11 (s.ringOwner r) 1
  let n := s.ringSize r
  let prev := s.rd Reg.RING.CQ_PTR.HEAD r
  if h < n ∧ (h + n - prev) % n ≤ s.cqUsed r then
    let s1 := s.wr Reg.RING.CQ_PTR.HEAD h r
    s1.drainPend r (s1.ring r).pend.length
  else s.ringError r 3

/-- A write to a doorbell page of ring r by function f (R300, R301): offset 0x000 the SQ tail, 0x004 the CQ head. While
CORE is not yet running after a return to D_ACTIVE the capture in KEEP holds the latest one of each ring; it is judged,
and dropped, when the ring engine starts. -/
def State.doorbell (s : State) (f r ofs width v : Nat) : State :=
  if s.phase = .booting ∨ s.phase = .waking then { s with doorHeld := Tab.set 0 s.doorHeld r (f + 1) }
  else if !s.coreOn then s
  else if width ≠ 4 ∨ (ofs ≠ 0 ∧ ofs ≠ 4) then s.dropDoorbell f r
  else if s.ringState r ≠ 1 ∨ s.ringOwner r ≠ f then s.dropDoorbell f r
  else if ofs = 0 then
    if s.rd Reg.RING.CFG.TYPE r = 1 then s.dropDoorbell f r else s.sqTail r (v % 65536)
  else s.cqHead r (v % 65536)

/-- SQ_TAIL_DOORBELL (R302). -/
def execSqTailDoorbell (f : FnNo) (r : RingNo) (ofs width : Nat) (v : Word) (s : State) :
    Host.Outcome State Fault Refusal :=
  .next (s.doorbell f r ofs width v.toNat)

/-- CQ_HEAD_DOORBELL (R302). -/
def execCqHeadDoorbell (f : FnNo) (r : RingNo) (ofs width : Nat) (v : Word) (s : State) :
    Host.Outcome State Fault Refusal :=
  .next (s.doorbell f r ofs width v.toNat)

/-! ## Work units (R310, R311, R312) -/

/-- The entry the ring engine has read ahead for a ring. -/
def peekOf (u : List Peek) (r : Nat) : Option Peek := u.find? fun p => p.ring.val == r

/-- The data bytes of an entry: a dry run moves none (R324). -/
def entryBytes (q : SqEntry) : Nat :=
  if q.e.flags.toNat / 2 % 2 = 1 then 0
  else
    match opOfCode q.op.toNat with
    | some o => dataBytes o q.e
    | none => 0

/-- The oldest command in execution with a further data transfer (R312). -/
def dataFlight (fs : List Flight) : Option Flight := fs.find? fun f => f.xfer != 0

/-- The cost of a ring's next work unit (R310, R312); none: the ring has no work. -/
def State.unitCost (s : State) (u : List Peek) (r : Nat) : Option Nat :=
  match dataFlight (s.ring r).flights with
  | some f => some (min 4096 f.xfer)
  | none =>
    if s.mayFetch r then (peekOf u r).map fun p => 64 + min 4096 (entryBytes p.q) else none

/-- Insert a number into a rising list. -/
def insertNat (x : Nat) : List Nat → List Nat
  | [] => [x]
  | y :: ys => if x ≤ y then x :: y :: ys else y :: insertNat x ys

/-- The rings of function `f` that have work, lowest first. -/
def State.workRings (s : State) (u : List Peek) (f : Nat) : List Nat :=
  (s.knownRings.filter fun r => s.ringOwner r == f && (s.unitCost u r).isSome).foldr insertNat []

/-- The ring whose work unit function `f` serves next (R312): the first with work from where the last turn ended. -/
def State.nextUnit (s : State) (u : List Peek) (f : Nat) : Option Nat :=
  let rs := s.workRings u f
  match rs.find? fun r => decide (Tab.get 0 s.arb.nextRing f ≤ r) with
  | some r => some r
  | none => rs.head?

/-- A new round (R311; a function without work then loses its credit): the functions with work, in ascending number, each with the credit it gains; functions of
weight 0 only when no weighted function has work, each as if its weight were 1. -/
def State.newRound (s : State) (u : List Peek) : List (Nat × Nat) :=
  let q := 64 * max 1 (s.rd Reg.RING.ARB_CTRL.QUANTUM)
  let fs := (List.range 64).filter fun f => (s.nextUnit u f).isSome
  let ws := fs.filter fun f => s.rd Reg.RING.FN_WEIGHT.WEIGHT f != 0
  if ws.isEmpty then fs.map fun f => (f, q) else ws.map fun f => (f, q * s.rd Reg.RING.FN_WEIGHT.WEIGHT f)

def State.setArb (s : State) (a : Arb) : State := { s with arb := a }

/-- Run the round robin of R311 until it serves a unit: the ring served and the state, or none when no function has
work. `fuel` bounds the turns. -/
def State.arbitrate (s : State) (u : List Peek) : Nat → Option (Nat × State)
  | 0 => none
  | fuel + 1 =>
    match s.arb.members with
    | [] =>
      match s.newRound u with
      | [] => none
      | ms =>
        (s.setArb { s.arb with
          deficit := s.arb.deficit.filter fun p => (s.nextUnit u p.1).isSome
          members := ms, credited := false }).arbitrate u fuel
    | (f, q) :: ms =>
      match s.nextUnit u f with
      | none =>
        (s.setArb { s.arb with deficit := Tab.set 0 s.arb.deficit f 0, members := ms, credited := false }).arbitrate
          u fuel
      | some r =>
        let credit := Tab.get 0 s.arb.deficit f + (if s.arb.credited then 0 else q)
        let cost := (s.unitCost u r).getD 0
        if cost ≤ credit then
          some (r, s.setArb { s.arb with
            deficit := Tab.set 0 s.arb.deficit f (credit - cost)
            nextRing := Tab.set 0 s.arb.nextRing f (r + 1)
            credited := true })
        else
          (s.setArb { s.arb with
            deficit := Tab.set 0 s.arb.deficit f credit, members := ms, credited := false }).arbitrate u fuel

/-- Serve the work unit of ring `r` (R303, R305, R310): a further data transfer of the oldest command that has one, or
the fetch of the next entry, with its judgement unless an earlier command of the ring has still to start; a fetch whose read fails puts the ring in ERROR. -/
def State.serveUnit (s : State) (u : List Peek) (r : Nat) : State :=
  match dataFlight (s.ring r).flights with
  | some f =>
    let x := s.ring r
    s.setRing r { x with
      flights := x.flights.map fun g => if g.fid = f.fid then { g with xfer := g.xfer - min 4096 g.xfer } else g }
  | none =>
    match peekOf u r with
    | none => s
    | some p =>
      if !p.ok then s.ringError r 4
      else
        let n := entryBytes p.q
        let fid := (s.ring r).nextFid
        let s1 := s.fetch r p.q.op.toNat p.q.e ⟨[], none⟩ (n - min 4096 n)
        match firstWaiting (s1.ring r).flights with
        | none => s1
        | some f =>
          if f.fid ≠ fid ∨ !startable (s1.ring r).flights { f with xfer := 0 } then s1
          else
            match s1.judge f with
            | .fails st => s1.finishSt (.host r fid) st
            | .parks t => s1.setPhase r fid (.parked t)
            | _ => s1

/-- WORK_UNIT_SERVE (R311). -/
def execWorkUnitServe (u : List Peek) (s : State) : Host.Outcome State Fault Refusal :=
  .next (
    if s.coreOn then
      match s.arbitrate u 16384 with
      | some (r, s1) =>
        ((s1.serveUnit u r).dpCount 9 (s.ringOwner r) 1).dpCount 10 (s.ringOwner r) ((s.unitCost u r).getD 0)
      | none => s.setArb { s.arb with deficit := [], members := [], credited := false }
    else s)

/-! ## Events and messages (R307, R309, R503) -/

/-- EVENT_RECORD_WRITE (R307): K4 takes the oldest raise. -/
def execEventRecordWrite (s : State) : Host.Outcome State Fault Refusal :=
  .next (
    if s.k4On then
      match s.raises with
      | [] => s
      | x :: xs => ({ s with raises := xs } : State).deliver x
    else s)

/-- COALESCE_TIMER_EXPIRY (R309): COAL_US has passed since the first record not yet signalled. -/
def execCoalesceTimerExpiry (r : RingNo) (s : State) : Host.Outcome State Fault Refusal :=
  .next (
    if (s.ring r).coalCount = 0 then s
    else (s.upTo ((s.ring r).coalFirst + 1000 * s.rd Reg.RING.INTR.COAL_US r)).sendOwed r)

/-- Clear the mask of a vector; a message held in its pending bit goes out (R309). -/
def State.unmask (s : State) (f v : Nat) : State :=
  let x := s.vec f v
  let s1 := s.setVec f v { x with masked := false, pend := false }
  if x.pend then s1.emit (.msix f v) else s1

/-- MSIX_VECTOR_UNMASK (R309). An index outside the function's table names no vector. -/
def execMsixVectorUnmask (f : FnNo) (v : Nat) (s : State) : Host.Outcome State Fault Refusal :=
  .next (if v < msixSize f then s.unmask f v else s)

/-- Deliver, under the old map, the raises of a source that K4 has not yet taken (R503). -/
def State.deliverSrc (s : State) (src : Nat) : State :=
  let xs := s.raises.filter fun x => x.src == src
  xs.foldl (fun t x => t.deliver x) { s with raises := s.raises.filter fun x => x.src != src }

/-- A write of `v` to `EVT.MAP[src]` (R503, R504): it takes effect for raises after it, and discards a held raise of
the source. -/
def State.writeMap (s : State) (src v : Nat) : State :=
  let s1 := s.deliverSrc src
  let s2 := { s1 with held := s1.held.filter fun x => x.src != src }
  ((((s2.wr Reg.EVT.MAP.RING (bitsOf v 0 12) src).wr Reg.EVT.MAP.EN (bitsOf v 12 1) src).wr
    Reg.EVT.MAP.OWN_VEC (bitsOf v 13 1) src).wr Reg.EVT.MAP.VECTOR (bitsOf v 14 11) src).wr
    Reg.EVT.MAP.INTR (bitsOf v 25 1) src

/-- EVT_MAP_WRITE (R503): only PF0 reaches the register (R294). -/
def execEvtMapWrite (f : FnNo) (src : SourceNo) (v : Word) (s : State) : Host.Outcome State Fault Refusal :=
  .next (
    if !s.coreOn then s.unsupported f (0x8000 + 4 * src)
    else if f.val ≠ 0 then s.setShadow f none
    else (s.setShadow f none).writeMap src v.toNat)

/-! ## Sessions (R314 to R320, R333) -/

/-- The 32-byte message of R317. -/
def sessionMessage (nonce : BitVec 128) (ring owner : Nat) (e : Entry) : List Byte :=
  leBytes 16 nonce.toNat ++ leBytes 2 ring ++ leBytes 1 owner ++ leBytes 1 (opByte e 17) ++ leBytes 1 (opByte e 18) ++
    [0] ++ leBytes 2 (op16 e 20) ++ [0x54, 0x52, 0x45, 0x48, 0x53, 0x45, 0x53, 0x53]

def State.keySlot (s : State) (k : Nat) : Option KeySlot := Tab.get none s.sec.keys k

/-- The nonce held for a ring and slot, while it is valid (R317). -/
def State.validNonce (s : State) (r slot : Nat) : Option Nonce :=
  match (s.ring r).nonce with
  | some x => if x.slot = slot ∧ s.time < x.until_ then some x else none
  | none => none

/-- The checks of R318 in their order: the status of a response. -/
def State.openStatus (s : State) (r : Nat) (f : Flight) : Status :=
  if s.time < (s.fn f.fn).lockUntil then .roleDenied
  else
    match s.validNonce r (opByte f.e 17) with
    | none => .noSession
    | some x =>
      match s.keySlot (opByte f.e 17) with
      | none => .roleDenied
      | some k =>
        if (k.binding ≠ 255 ∧ k.binding ≠ f.fn) ∨ k.ceiling < opByte f.e 18 then .roleDenied
        else if opBytes f.e 32 32 = (Config.hmacSha384 k.key (sessionMessage x.value r f.fn f.e)).take 32 then .ok
        else .sigFail

/-- The nonce of a ring is used up by every check from the third on (R318). -/
def State.consumeNonce (s : State) (r : Nat) : State := s.setRing r { s.ring r with nonce := none }

/-- A SIG_FAIL response (R319): the count rises; the 8th in a row, and each one after a lockout, locks the function
out, for 1 s first and then twice as long each time, up to 64 s. -/
def State.sigFail (s : State) (f : Nat) : State :=
  let s1 := s.count Reg.RING.AUTH.FAILS 1 f
  let x := s1.fn f
  let len := if x.lockLen ≠ 0 then min 64 (2 * x.lockLen) else if 8 ≤ s1.rd Reg.RING.AUTH.FAILS f then 1 else 0
  if len = 0 then s1 else s1.setFn f { x with lockLen := len, lockUntil := s1.time + len * 1000000000 }

/-- Bind a session to a ring (R318); an idle time of 0 selects 600 s (R317). -/
def State.bindSession (s : State) (r f slot role idle : Nat) : State :=
  let i := if idle = 0 then 600 else idle
  let s0 := s.endSession r
  let s1 := s0.setRing r { s0.ring r with session := some ⟨slot, role, i, s.time + i * 1000000000⟩ }
  (s1.wr Reg.RING.AUTH.FAILS 0 f).setFn f { s1.fn f with lockLen := 0 }

/-- The ring of a command's origin. -/
def ringOfOrigin : Origin → Nat
  | .host r _ => r
  | .mirror _ r _ => r
  | _ => 0

/-- The operand checks of SESSION_OPEN (R317, R333); a dry run also gets the status of R318. -/
def chkSessionOpen (r : Nat) (s : State) (f : Flight) : Option Res :=
  let e := f.e
  if 1 < opByte e 16 ∨ 63 < opByte e 17 then some { st := .badField }
  else if opByte e 16 = 1 ∧ (3 < opByte e 18 ∨ (1 ≤ op16 e 20 ∧ op16 e 20 ≤ 9)) then some { st := .badField }
  else if opByte e 16 = 1 ∧ e.flags.toNat / 2 % 2 = 1 ∧ s.openStatus r f ≠ .ok then some { st := s.openStatus r f }
  else none

/-- The effect of SESSION_OPEN (R317, R318, R319): the challenge draws a nonce, a free value, valid for 10 s; the
response binds a session or is refused. -/
def runSessionOpen (s : State) (o : Origin) (f : Flight) : State :=
  let r := ringOfOrigin o
  if opByte f.e 16 = 0 then
    let v := BitVec.ofNat 128 s.free
    let s1 := s.freed.setRing r { s.ring r with nonce := some ⟨opByte f.e 17, v, s.time + 10000000000⟩ }
    s1.finish o { r1 := bitsOf v.toNat 0 32, r2 := bitsOf v.toNat 32 32, r3 := bitsOf v.toNat 64 32,
                  r4 := bitsOf v.toNat 96 32 }
  else
    let st := s.openStatus r f
    let s1 :=
      if s.time < (s.fn f.fn).lockUntil then s
      else if (s.validNonce r (opByte f.e 17)).isNone then s
      else s.consumeNonce r
    let s2 :=
      match st with
      | .ok => s1.bindSession r f.fn (opByte f.e 17) (opByte f.e 18) (op16 f.e 20)
      | .sigFail => s1.sigFail f.fn
      | _ => s1
    s2.finishSt o st

/-- SESSION_OPEN (R317, R333). -/
def execSessionOpen (r : RingNo) (e : Entry) (d : Dma) (s : State) : Host.Outcome State Fault Refusal :=
  .next (s.serve .sessionOpen r e d (chkSessionOpen r) runSessionOpen)

/-- No conditions of its own. -/
def chkNone (_ : State) (_ : Flight) : Option Res := none

/-- The effect of SESSION_CLOSE (R320, R333): the ring's session ends, bound or not. -/
def runSessionClose (s : State) (o : Origin) (_ : Flight) : State :=
  let r := ringOfOrigin o
  (s.endSession r).finishSt o .ok

/-- SESSION_CLOSE (R333). -/
def execSessionClose (r : RingNo) (e : Entry) (d : Dma) (s : State) : Host.Outcome State Fault Refusal :=
  .next (s.serve .sessionClose r e d chkNone runSessionClose)

/-- LOCKOUT_EXPIRY (R319): the lockout time of a function runs out; its length is kept for the next. -/
def execLockoutExpiry (f : FnNo) (s : State) : Host.Outcome State Fault Refusal :=
  .next ((s.upTo (s.fn f).lockUntil).setFn f { s.fn f with lockUntil := 0 })

/-- NONCE_EXPIRY (R317): the challenge of a ring expires 10 s after it was drawn. -/
def execNonceExpiry (r : RingNo) (s : State) : Host.Outcome State Fault Refusal :=
  .next (
    match (s.ring r).nonce with
    | none => s
    | some x => (s.upTo x.until_).setRing r { s.ring r with nonce := none })

/-- SESSION_IDLE_EXPIRY (R320): the idle time passes with no command fetched, and the session ends. -/
def execSessionIdleExpiry (r : RingNo) (s : State) : Host.Outcome State Fault Refusal :=
  .next (
    match (s.ring r).session with
    | none => s
    | some x => (s.upTo x.until_).endSession r)

/-- The effect of NOP (R334): the KEEP timebase in RES1 and RES2. -/
def runNop (s : State) (o : Origin) (_ : Flight) : State :=
  s.finish o { r1 := bitsOf s.time 0 32, r2 := bitsOf s.time 32 32 }

/-- NOP (R334). -/
def execNop (r : RingNo) (e : Entry) (d : Dma) (s : State) : Host.Outcome State Fault Refusal :=
  .next (s.serve .nop r e d chkNone runNop)

end Sys2Proof.Machine
end

