-- ==== Sys2Proof/Machine/Ladder.lean ====
section
/-! DEFINITION. The effort ladder (15_power_and_thermal, R430 to R435): scopes of the sensors, steps and their
effects on the lanes, shedding, and reversal. -/

namespace Sys2Proof.Machine

def State.ladder (s : State) (c : Nat) : LadderX := Tab.get {} s.therm.ladder c

def State.setLadder (s : State) (c : Nat) (x : LadderX) : State :=
  { s with therm := { s.therm with ladder := Tab.set {} s.therm.ladder c x } }

/-- Course `c` lies in the scope of sensor `t` (R425). -/
def inScope (t c : Nat) : Bool :=
  if t < 8 then c == t else if t < 16 then c == t - 8 else if t < 20 then c / 2 == t - 16 else true

/-- The lowest sensor with an active THROTTLE condition in a course's scope. -/
def State.throttling (s : State) (c : Nat) : Option Nat :=
  (List.range 24).find? fun t => inScope t c && s.flag Reg.THM.SENSOR.THROTTLE t && !s.flag Reg.THM.SENSOR.FAIL t

/-- The highest step authorised and the most lanes shed (R431, R440). -/
def State.maxStep (s : State) : Nat := min 5 (s.rd Reg.THM.LADDER_AUTH.MAX_STEP)
def State.shedMax (s : State) : Nat := min 64 (s.rd Reg.THM.LADDER_AUTH.SHED_MAX)

/-- The lanes shed and not reversed, on all courses. -/
def State.shedTotal (s : State) : Nat :=
  ((List.range 8).map fun c => (s.ladder c).shed.length).foldl (· + ·) 0

/-- The lane a step 5 of course `c` sheds (R434). -/
def State.shedNext (s : State) (c : Nat) : Option Nat :=
  ((List.range 64).filter fun i => s.flag Reg.THM.SHED.VALID i).findSome? fun i =>
    let n := s.rd Reg.THM.SHED.LANE i
    if courseOf n = c ∧ 2 ≤ s.lane n ∧ !(s.ladder c).shed.contains n then some n else none

/-- The lowest step of a course not in force; step 5 is taken once more for each further lane. -/
def State.nextStep (s : State) (c : Nat) : Nat :=
  ((List.range 4).find? fun i => !s.ladderStep c (i + 1)).getD 4 + 1

/-- `DETAIL` of THERM_THROTTLE (R429). -/
def throttleDetail (step lane sensor : Nat) : Nat := step + 8 * lane + 512 * sensor

/-- A lane is shed (R434): the owner of a twin-paired course yields first. -/
def State.shedLane (s : State) (c n : Nat) : State :=
  let s1 := if s.twin.strap ≠ 0 ∧ s.owns c then s.courseYield c else s
  (s1.setLane n 1).clearConfig n

/-- The gradient block in progress of a lane counts for nothing in its FFE (R85, R87, R92). -/
def State.cutBlock (s : State) (n : Nat) : State :=
  if s.lane n = 3 ∨ (s.lane n = 2 ∧ 6 ≤ s.rd Reg.LN.RX_STAT.ACQ_STEP n) then
    s.setRx n { s.rxOf n with cut := true, partialNow := true }
  else s

/-- The FFE cut on the taps of a lane, those a near loop has put aside among them (R85, R155): a step reversed later brings
taps back that start from zero. -/
def State.cutLane (s : State) (n : Nat) : State :=
  let s1 := if (s.rxOf n).taps = [] then s else s.setTaps n (s.rxOf n).taps
  let x := s1.rxOf n
  s1.setRx n { x with nearSet := x.nearSet.map fun q => (q.1, q.2.1, q.2.2.1, s1.cutTaps n q.2.2.2) }

/-- What a change of a step does to the lanes of a course: the MLSE halving and the FFE cut discard the gradient block in
progress, the FFE cut sets taps to zero, and the rotation of slices and the group runs stop or go on; the Chase limit
is read where it matters. In C_IDLE the coefficients are held, so the cut acts on them too. -/
def State.ladderApply (s : State) (c step : Nat) : State :=
  (List.range 8).foldl (fun (t : State) (i : Nat) =>
    let n := 8 * c + i
    let u := if step = 2 then t.cutLane n else t
    if !s.courseOn c then u
    else if step = 1 ∨ step = 2 then u.cutBlock n
    else if step = 4 then u.calSettle n else u) s

/-- A step falls due and none is authorised or possible (R433). -/
def State.ladderExhausted (s : State) (c sensor : Nat) : State :=
  (s.wr Reg.THM.LADDER.EXHAUSTED 1 c).raise (courseSrc c 3) (throttleDetail 0 0 sensor)

/-- The next step of a course is taken (R432, R433, R434). -/
def State.ladderTake (s : State) (c sensor : Nat) : State :=
  if s.flag Reg.THM.LADDER.EXHAUSTED c then s
  else
    let st := s.nextStep c
    let x := s.ladder c
    let mark := fun (t : State) (shed : List Nat) =>
      (t.setLadder c { x with last := t.time, running := true, due := false, sensor := sensor, shed := shed }).wr
        Reg.THM.LADDER.STEPS (putBits (t.rd Reg.THM.LADDER.STEPS c) (st - 1) 1 1) c
    if s.maxStep < st then s.ladderExhausted c sensor
    else if st = 5 then
      match s.shedNext c with
      | none => s.ladderExhausted c sensor
      | some n =>
        if s.shedMax ≤ s.shedTotal then s.ladderExhausted c sensor
        else
          let s1 := mark (s.shedLane c n) (n :: x.shed)
          (s1.wr Reg.THM.LADDER.SHED_CNT (x.shed.length + 1) c).raise (courseSrc c 3) (throttleDetail 5 n sensor)
    else ((mark s x.shed).ladderApply c st).raise (courseSrc c 3) (throttleDetail st 0 sensor)

/-- A step falls due (R432, R435): while K2 is stopped, CORE is off or a transition of the course is in flight it is
taken later; conditions that rise at the moment of the last step take none. -/
def State.ladderDue (s : State) (c sensor : Nat) : State :=
  let x := s.ladder c
  if !s.coreOn || !s.coreRuns 2 || s.inTransition 1 c || s.goingOff c then
    s.setLadder c { x with due := true, sensor := sensor }
  else if x.running && x.last == s.time then s
  else s.ladderTake c sensor

/-- A step that fell due is taken once nothing stands in its way, if a THROTTLE condition is still active. -/
def State.ladderResume (s : State) (c : Nat) : State :=
  let x := s.ladder c
  if !x.due then s
  else
    match s.throttling c with
    | some t => s.ladderDue c t
    | none => s.setLadder c { x with due := false, running := false }

def State.ladderResumeAll (s : State) : State := (List.range 8).foldl (fun (t : State) (c : Nat) => t.ladderResume c) s

/-- STEP_WAIT_EXPIRY (R432): `STEP_WAIT` has passed since the course's last step. -/
def execStepWaitExpiry (c : CourseNo) (s : State) : Host.Outcome State Fault Refusal :=
  .next (
    let x := s.ladder c
    if !x.running then s
    else
      match s.throttling c with
      | none => s.setLadder c { x with running := false }
      | some t =>
        let s1 := s.upTo (x.last + max 1 (s.rd Reg.THM.CTRL.STEP_WAIT) * 10000000)
        s1.ladderDue c (if s.flag Reg.THM.SENSOR.THROTTLE x.sensor ∧ inScope x.sensor c then x.sensor else t))

/-- The highest step in force on a course is removed (R435). -/
def State.ladderReverse (s : State) (c : Nat) : State :=
  if (s.throttling c).isSome then s.wr Reg.THM.STAT.REV_REJECT 1
  else
    let x := s.ladder c
    let s1 := s.wr Reg.THM.LADDER.EXHAUSTED 0 c
    let v := s.rd Reg.THM.LADDER.STEPS c
    if bitOf v 4 then
      let shed := x.shed.drop 1
      let s2 := (s1.setLadder c { x with shed := shed }).wr Reg.THM.LADDER.SHED_CNT shed.length c
      if shed = [] then s2.wr Reg.THM.LADDER.STEPS (putBits v 4 1 0) c else s2
    else
      match (List.range 4).reverse.find? fun i => bitOf v i with
      | some i => (s1.wr Reg.THM.LADDER.STEPS (putBits v i 1 0) c).ladderApply c (i + 1)
      | none => s1

/-- The courses a write of `LADDER_CTRL` names, in order. -/
def State.reverseWrite (s : State) (v : Nat) : State :=
  (List.range 8).foldl (fun (t : State) (c : Nat) => if bitOf v c then t.ladderReverse c else t) s

/-- LADDER_REVERSE (R435): a write of `THM.LADDER_CTRL`. -/
def execLadderReverse (f : FnNo) (v : Word) (s : State) : Host.Outcome State Fault Refusal :=
  .next (if f.val ≠ 0 then s
    else s.regAccess Reg.THM.LADDER_CTRL.REVERSE 0 0 true fun s => s.reverseWrite v.toNat)

end Sys2Proof.Machine
end

