-- ==== Sys2Proof/Machine/Power.lean ====
section
/-! DEFINITION. Power transitions of courses, quads and the Filkor link (15_power_and_thermal, R414 to R424, R341 to
R343, R514): requests, the one transition in flight, what each transition does, `COURSE_OFF_IMMEDIATE` and the pads. -/

namespace Sys2Proof.Machine

/-! ## Courses -/

/-- A program of a lane engine that is to stop at the next boundary stops now that its engine does. -/
def State.stopNow (s : State) (n : Nat) : State :=
  let x := s.engOf n
  match x.prog with
  | some p => if p.stopDue.isSome then (s.setEng n { x with slots := none, rep := none }).stopSettle n else s
  | none => s

def courseLanes (c : Nat) : List Nat := (List.range 8).map fun i => 8 * c + i

/-- The slack measurement of a course that leaves C_ON ends (R204). -/
def State.slackEnd (s : State) (c : Nat) : State :=
  let s1 := s.surveyNone c
  s1.setMortar c { spoiled := true }

/-- The pads of a course are held at the levels they have (R421, R422). -/
def State.latchCourse (s : State) (c : Nat) : State :=
  if s.padHeldC c then s
  else
    (s.setPadLatch c {
      resetLow := s.flag Reg.CRS.MOD_PINS.RESET c, lpHigh := s.flag Reg.CRS.MOD_PINS.LPMODE c, txIdle := true }).setPadHeldC
        c true

/-- The receive half a course that is off keeps: the survey records, which lie in the hod (R345), and whether
its one automatic seed has been written (R95). -/
def RxX.kept (x : RxX) : RxX := { hist := x.hist, seq := x.seq, seedAuto := x.seedAuto }

/-- A course goes to C_OFF (R416, R421): its lanes go through IDLE to OFF, its engines stop, pads latch, and what Cc.D
held is lost; its registers stand at their values after cold reset. -/
def State.courseDown (s : State) (c : Nat) : State :=
  let ls := courseLanes c
  let s1 := ls.foldl (fun (t : State) (n : Nat) => (t.stopNow n).setLane n 0) s
  let s2 := (s1.cmisStop c .domainOff).latchCourse c
  let s3 := (s2.setCoursePow c .off).enginesOff c
  let s4 := (s3.clearRegs (0x100000 + 0x10000 * c) (0x110000 + 0x10000 * c)).clearRegs (0x200000 + 0x20000 * c)
    (0x220000 + 0x20000 * c)
  let s5 := ls.foldl (fun (t : State) (n : Nat) =>
    ((((t.setRx n (t.rxOf n).kept).setTx n {}).setCal n {}).setBst n {}).setChk n {}) s4
  ((s5.setEpoch c {}).setMortar c {}).setCmis c {}

/-- A course goes to C_IDLE (R416): lanes keep what they have, clocks stop and engines sleep. -/
def State.courseSleep (s : State) (c : Nat) : State :=
  let s1 := (courseLanes c).foldl (fun (t : State) (n : Nat) =>
    let t1 := t.stopNow n
    let was := t1.lane n
    let t2 := t1.setLane n 0
    t2.setRx n { t2.rxOf n with wasState := was }) s
  let s2 := ((s1.wr Reg.CRS.EPOCH_STAT.STATE 0 c).commitOff c).slackEnd c
  let s3 := (courseEngines c).foldl (fun (t : State) (e : Nat) =>
    let x := t.engOf e
    t.setEng e { x with asleep := some (x.asleep.getD t.time) }) s2
  (courseLanes c).foldl (fun (t : State) (n : Nat) => t.calSettle n) (s3.setCoursePow c .idle)

/-- The transmit path of a lane starts at step 1 of R147. -/
def State.txRestart (s : State) (n : Nat) : State :=
  let x := s.txOf n
  if x.configured then
    (s.setTx n { x with retime := some s.time, frame := 0, path := x.path.restart true }).txCheck n
  else s

/-- A lane comes back from C_IDLE (R68, R416): ACQUIRE at step 2 with the held coefficients, or BURST; a lane that was
in IDLE, or whose quad is off, is in IDLE (R25). -/
def State.laneWake (s : State) (n : Nat) : State :=
  let was := (s.rxOf n).wasState
  let m := s.mode n
  let s0 := s.setLane n 1
  let s1 := if (s0.rxOf n).taps = [] then s0 else s0.setTaps n (s0.rxOf n).taps
  if was < 2 ∨ 5 < was ∨ m = 0 ∨ !s.quadOn (quadOfLane n) then s1
  else ((if m = 6 then s1.enterBurst n else (s1.dropLocks n).enterAcquire n 2)).txRestart n

/-- A course comes back to C_ON from C_IDLE (R126, R170, R416). -/
def State.courseWake (s : State) (c : Nat) : State :=
  let s1 := (courseEngines c).foldl (fun (t : State) (e : Nat) =>
    t.setEng e { t.engOf e with asleep := none }) (s.setCoursePow c .on)
  let s2 := (courseLanes c).foldl (fun (t : State) (n : Nat) => t.laneWake n) s1
  let s3 := (courseLanes c).foldl (fun (t : State) (n : Nat) => t.calSettle n) (s2.epochRefresh c)
  s3.calTriggers c

/-- A course comes up from C_OFF (R20, R126, R416): engines loaded, the first calibration made, lanes in IDLE. -/
def State.courseUp (s : State) (c : Nat) (cal : List FirstCal) : State :=
  let s1 := (s.setCoursePow c .on).enginesOn c
  let s2 := (courseLanes c).zipIdx.foldl (fun (t : State) (p : Nat × Nat) =>
    (t.setLane p.1 1).firstCal p.1 (cal.getD p.2 ⟨true, [], []⟩)) s1
  if s2.padHeldC c then s2.raise (courseSrc c 5) 0 else s2

/-! ## Quads and FLK -/

/-- Host lanes of a quad. -/
def quadLanes (q : Nat) : List Nat := (List.range 32).map fun i => 32 * q + i

/-- A quad goes off (R215, R416, R421): the line lanes that own its host lanes go to IDLE first. -/
def State.quadDown (s : State) (q : Nat) : State :=
  let s1 := (List.range 16).foldl (fun (t : State) (i : Nat) =>
    let n := 16 * q + i
    if 2 ≤ t.lane n ∧ t.lane n ≤ 5 then t.setLane n 1 else t) s
  let s2 := (quadLanes q).foldl (fun (t : State) (k : Nat) => t.refreshHost k) ((s1.setQuadOn q false).setPadHeldQ q true)
  let s3 := s2.clearRegs (0x300000 + 0x10000 * q) (0x310000 + 0x10000 * q)
  (quadLanes q).foldl (fun (t : State) (k : Nat) => ((t.setHost k {}).setHtx k {}).setChk (64 + k) {}) s3

/-- A quad comes up (R215, R416). -/
def State.quadUp (s : State) (q : Nat) : State :=
  let s1 := (s.setQuadOn q true).wr Reg.HL.QUAD_STAT.PLL_LOCK 1 q
  let s2 := (quadLanes q).foldl (fun (t : State) (k : Nat) => t.refreshHost k) s1
  if s2.padHeldQ q then (s2.raise (courseSrc (2 * q) 5) 0).raise (courseSrc (2 * q + 1) 5) 0 else s2

def State.setFlk (s : State) (b : Bool) : State := { s with pwr := { s.pwr with flkOn := b } }

/-! ## Requests (R341, R416, R417) -/

/-- The state a domain stands in, with the codes of POWER_SET. -/
def State.domainState (s : State) (dtype i : Nat) : Nat :=
  match dtype with
  | 1 => (match s.coursePow i with | .off => 0 | .idle => 1 | .on => 2)
  | 2 => if s.quadOn i then 2 else 0
  | _ => if s.pwr.flkOn then 2 else 0

/-- A request names a domain and a state of it, and no transition R416 refuses. -/
def State.requestOk (s : State) (dtype i to_ : Nat) : Bool :=
  match dtype with
  | 1 => decide (i < 8) && decide (to_ < 3) && !(to_ == 1 && s.coursePow i == .off)
  | 2 => decide (i < 4) && (to_ == 0 || to_ == 2)
  | 3 => i == 0 && (to_ == 0 || to_ == 2)
  | _ => false

/-- A substitution is under way on a course (R31). -/
def State.substOn (s : State) (c : Nat) : Bool :=
  match s.subst with
  | some (e, _) => courseOfEngine e == c
  | none => false

/-- A POWER_SET of this device waits for the twin's ACK (R278). -/
def State.powerAsked (s : State) : Bool := s.twin.outs.any fun m => m.op == opCode .powerSet

/-- A request must be turned away because another runs, or waits for the twin's ACK before it runs (R31, R417, R420). -/
def State.powerBusy (s : State) (dtype i : Nat) : Bool :=
  s.pwr.trans.isSome || s.powerAsked || !s.pwr.offNow.isEmpty || s.pwr.d3Wait || (dtype == 1 && s.substOn i)

/-- The courses that a power-down of a domain takes from the optics (R283, R341). -/
def coursesOfDomain (dtype i : Nat) : List Nat := if dtype = 1 then [i] else if dtype = 2 then [2 * i, 2 * i + 1] else []

/-- A transition starts; one that powers a domain down on this device alone yields its courses first (R283). -/
def State.startTransition (s : State) (dtype i to_ : Nat) (o : Origin) (alone : Bool) : State :=
  let s1 := if alone ∧ to_ < s.domainState dtype i then
      (coursesOfDomain dtype i).foldl (fun (t : State) (c : Nat) => if t.owns c then t.courseYield c else t) s
    else s
  { s1 with pwr := { s1.pwr with trans := some ⟨dtype, i, to_, o⟩ } }

/-- A command acts on this device alone: it was neither sent to nor received from the twin, and there is a twin. -/
def State.alone (s : State) (g : Origin) (f : Flight) (local_ : Bool) : Bool :=
  match g with
  | .mirror _ _ _ => false
  | _ => local_ || (f.mirrored.isNone && s.twin.strap != 0)

def chkPowerSet (s : State) (f : Flight) : Option Res :=
  let dt := opByte f.e 16
  let i := opByte f.e 17
  if !s.requestOk dt i (opByte f.e 18) then some { st := .badField }
  else if s.powerBusy dt i then some { st := .pwrBusy }
  else none

def runPowerSet (s : State) (g : Origin) (f : Flight) : State :=
  let dt := opByte f.e 16
  let i := opByte f.e 17
  if s.domainState dt i = opByte f.e 18 then s.finish g {}
  else s.startTransition dt i (opByte f.e 18) g (s.alone g f (opBits f.e 19 0 1 == 1))

/-- POWER_SET (R341). -/
def execPowerSet (r : RingNo) (e : Entry) (d : Dma) (s : State) : Host.Outcome State Fault Refusal :=
  .next (s.serve .powerSet r e d chkPowerSet runPowerSet)

/-- A write of `PWR.CTRL.GO` is refused where POWER_SET would be (R417, R419). -/
def State.goRefused (s : State) (dtype i to_ : Nat) : Bool :=
  !s.requestOk dtype i to_ || s.powerBusy dtype i || !s.coreRuns 2 || (s.core 1).stopped || s.updateHolds .powerSet ||
    (dtype == 1 && (s.inTest i || (to_ == 2 && s.coursePow i != .on && (s.core 0).stopped))) ||
    (dtype == 2 && s.inTest (8 + i))

/-- A write of `PWR.CTRL` (R417, R440); a request by register acts on this device alone. -/
def State.pwrCtrlWrite (s : State) (v : Nat) : State :=
  let dt := bitsOf v 0 2
  let i := bitsOf v 2 3
  let to_ := bitsOf v 5 2
  let s1 := ((s.wr Reg.PWR.CTRL.DTYPE dt).wr Reg.PWR.CTRL.INDEX i).wr Reg.PWR.CTRL.STATE to_
  if !bitOf v 7 then s1
  else if s1.goRefused dt i to_ then s1.wr Reg.PWR.STAT.PWR_REJECT 1
  else if s1.domainState dt i = to_ then s1
  else s1.startTransition dt i to_ .register true

/-- PWR_GO (R416, R417): a write of `PWR.CTRL`. -/
def execPwrGo (f : FnNo) (v : Word) (s : State) : Host.Outcome State Fault Refusal :=
  .next (if f.val ≠ 0 then s
    else s.regAccess Reg.PWR.CTRL.GO 0 0 true fun s => s.pwrCtrlWrite v.toNat)

/-! ## The end of a transition (R416, R418, R514) -/

/-- What a transition does to its domain. -/
def State.moveDomain (s : State) (x : Transition) (cal : List FirstCal) : State :=
  match x.dtype with
  | 1 =>
    if x.to_ = 0 then s.courseDown x.index
    else if x.to_ = 1 then s.courseSleep x.index
    else if s.coursePow x.index = .idle then s.courseWake x.index else s.courseUp x.index cal
  | 2 => if x.to_ = 0 then s.quadDown x.index else s.quadUp x.index
  | _ => if x.to_ = 0 then s.flkDown.setFlk false else (s.setFlk true).flkTestSettle

/-- POWER_DONE for the course, or for both courses of a quad (R416). -/
def State.powerDone (s : State) (dtype i : Nat) : State :=
  (coursesOfDomain dtype i).foldl (fun (t : State) (c : Nat) => t.raise (courseSrc c 4) 0) s

/-- The transition in flight ends, and a substitution that waited for it starts (R31): with the clocks of its PLLs missing, or K0 left stopped before it could load a
course's engines, the domain is back in its previous state and the command completes with DOMAIN_OFF. -/
def State.endTransition (s : State) (x : Transition) (pll : Bool) (cal : List FirstCal) : State :=
  let s0 : State := { s with pwr := { s.pwr with trans := none } }
  let s1 := s0.wr Reg.PWR.STAT.LAST_ABORTED 0
  let good := x.to_ != 2 || (pll && !(x.dtype == 1 && s.coursePow x.index == .off && (s.core 0).stopped))
  let s2 := if good then s1.moveDomain x cal else s1
  let s3 := (s2.powerDone x.dtype x.index).finish x.origin (if good then { r0 := 1 } else { st := .domainOff })
  if x.dtype = 1 then (s3.startSubst 96).ladderResume x.index else s3

/-- A course being taken off at once is off; otherwise the transition in flight ends. The loading of a course's engines
waits while K0 restarts (R22). -/
def State.powerEnd (s : State) (pll : Bool) (cal : List FirstCal) : State :=
  match s.pwr.offNow with
  | (c, os) :: rest =>
    let s1 : State := { s with pwr := { s.pwr with offNow := rest } }
    let s2 := (s1.courseDown c).powerDone 1 c
    (os.foldl (fun (t : State) (o : Origin) => t.finishSt o .ok) s2).ladderResume c
  | [] =>
    match s.pwr.trans with
    | none => s
    | some x =>
      if x.dtype = 1 ∧ x.to_ = 2 ∧ s.coursePow x.index = .off ∧ (s.core 0).restarting then s
      else s.endTransition x pll cal

/-! ## COURSE_OFF_IMMEDIATE (R342, R418) -/

/-- The transition in flight is pre-empted. -/
def State.abortTransition (s : State) : State :=
  match s.pwr.trans with
  | none => s
  | some x =>
    (({ s with pwr := { s.pwr with trans := none } } : State).wr Reg.PWR.STAT.LAST_ABORTED 1).finishSt x.origin .aborted

/-- One more request joins the course being taken off, or the course starts to go off. -/
def joinOff (c : Nat) (g : Origin) : List (Nat × List Origin) → List (Nat × List Origin)
  | [] => [(c, [g])]
  | (d, os) :: rest => if d = c then (d, os ++ [g]) :: rest else (d, os) :: joinOff c g rest

/-- While an entry to D_KEEP waits for a transition, every power command is turned away (R420). -/
def chkCourseOff (s : State) (_ : Flight) : Option Res := if s.pwr.d3Wait then some { st := .pwrBusy } else none

def runCourseOffImmediate (s : State) (g : Origin) (f : Flight) : State :=
  let c := f.e.target.toNat
  let s1 := s.stopTests fun t => t.code == c || (decide (64 ≤ t.code) && courseOf (t.code - 64) == c)
  let s2 := if s1.inTransition 1 c then s1.abortTransition else s1
  if s2.coursePow c = .off ∧ !s.inTransition 1 c then s2.finishSt g .ok
  else
    let s3 := if s2.alone g f (opBits f.e 16 0 1 == 1) && s2.owns c && !s2.goingOff c then s2.courseYield c else s2
    { s3 with pwr := { s3.pwr with offNow := joinOff c g s3.pwr.offNow } }

/-- COURSE_OFF_IMMEDIATE (R342). -/
def execCourseOffImmediate (r : RingNo) (e : Entry) (d : Dma) (s : State) : Host.Outcome State Fault Refusal :=
  .next (s.serve .courseOffImmediate r e d chkCourseOff runCourseOffImmediate)

/-! ## Pads (R343, R421, R422) -/

def chkPadRelease (_ : State) (f : Flight) : Option Res :=
  let dt := opByte f.e 16
  if (dt = 1 ∧ opByte f.e 17 < 8) ∨ (dt = 2 ∧ opByte f.e 17 < 4) then none else some { st := .badField }

/-- Every held pad of the domain takes its internal level in one step; outputs leave idle at their next block boundary. -/
def runPadRelease (s : State) (g : Origin) (f : Flight) : State :=
  let i := opByte f.e 17
  if opByte f.e 16 = 1 then (s.setPadHeldC i false).finish g { r0 := bitVal (s.padHeldC i) }
  else (s.setPadHeldQ i false).finish g { r0 := bitVal (s.padHeldQ i) }

/-- PAD_RELEASE (R343). -/
def execPadRelease (r : RingNo) (e : Entry) (d : Dma) (s : State) : Host.Outcome State Fault Refusal :=
  .next (s.serve .padRelease r e d chkPadRelease runPadRelease)

end Sys2Proof.Machine
end

