-- ==== Sys2Proof/Machine/Update.lean ====
section
/-! DEFINITION. Field update (16_boot_security_update, R356, R357, R443, R454 to R464): staging and verification, tokens,
activation, trial, confirmation and fallback, commit, boot trial, and images from the twin. -/

namespace Sys2Proof.Machine

/-- The offset of the staging slot in the hod and its size (R454). -/
def stagingBase : Nat := 0x09000000
def stagingBytes : Nat := 0x02000000

def State.updState (s : State) : Nat := s.rd Reg.UPD.STAT.STATE

/-- A swatch, or a capture that runs, holds rows of the staging slot (R454). -/
def State.stagingTaken (s : State) : Bool :=
  (s.hod.swatches.any fun w => w.rows.any fun r => decide (stagingRow ≤ r)) ||
    s.hod.caps.any fun c => c.rows.any fun r => decide (stagingRow ≤ r)

/-- An image is running that is confirmed and not committed (R454). -/
def State.uncommitted (s : State) : Bool := s.updState == 6 || s.updState == 7

/-! ## Staging (R356, R454, R456) -/

/-- How UPDATE_STAGE meets the lock: a status, or none. -/
def State.stageLock (s : State) (r : Nat) (first : Bool) (ofs : Nat) : Option Status :=
  let lock := s.rd Reg.UPD.STAT.LOCK
  if lock = 2 ∨ (lock = 1 ∧ s.upd.lockRing ≠ some r) then some .updateBusy
  else if 3 ≤ s.updState ∧ s.updState ≤ 5 then some .updateBusy
  else if s.uncommitted then some .badField
  else if first then (if ofs ≠ 0 then some .badField else if s.stagingTaken then some .noSpace else none)
  else if lock = 0 ∨ s.updState ≠ 1 ∨ s.upd.verify.isSome ∨ ofs ≠ s.upd.staged then some .badField
  else none

def chkUpdateStage (r : Nat) (s : State) (f : Flight) : Option Res :=
  let n := op32 f.e 20
  let ofs := op32 f.e 16
  if n < 4 ∨ 2 ^ 20 < n ∨ stagingBytes < ofs + n ∨ !addrOk (op64 f.e 32) n then some { st := .badField }
  else if !s.hodOn then some { st := .domainOff }
  else
    match s.stageLock r (opBits f.e 24 0 1 == 1) ofs with
    | some st => some { st := st }
    | none =>
      match f.d.failAt with
      | some k => if k < n then some { st := .dmaFault } else none
      | none => none

/-- FIRST takes the lock for the session of ring `r` and empties the slot. -/
def State.takeLock (s : State) (r fn : Nat) : State :=
  let s1 := s.emptySlot
  let s2 : State := { s1 with upd := { s1.upd with lockRing := some r, reserved := true } }
  ((s2.wr Reg.UPD.STAT.LOCK 1).wr Reg.UPD.STAT.LOCK_FN fn).updTo 1

def runUpdateStage (s : State) (g : Origin) (f : Flight) : State :=
  let n := op32 f.e 20
  let s1 := if opBits f.e 24 0 1 = 1 then s.takeLock (ringOfOrigin g) f.fn else s
  let s2 := s1.hodStore (stagingBase + op32 f.e 16) (dataOf f n) []
  let s3 : State := { s2 with upd := { s2.upd with staged := op32 f.e 16 + n } }
  if opBits f.e 24 1 1 = 1 then { s3 with upd := { s3.upd with verify := some g } } else s3.finishSt g .ok

/-- UPDATE_STAGE (R356). -/
def execUpdateStage (r : RingNo) (e : Entry) (d : Dma) (s : State) : Host.Outcome State Fault Refusal :=
  .next (s.serve .updateStage r e d (chkUpdateStage r) runUpdateStage)

/-! ## Verification (R356, R443, R447) -/

/-- A token's serial, target and state match (R443). -/
def State.tokenOk (s : State) (img : List Byte) : Bool :=
  numAt img 96 8 == s.rd Reg.SEC.SERIAL.SERIAL &&
    (if numAt img 6 1 = 2 then s.lc == 1 && s.sec.custRoot.isNone && decide (152 ≤ numAt img 20 4)
     else (numAt img 104 1 == 2 && s.lc == 1) || (numAt img 104 1 == 3 && (s.lc == 1 || s.lc == 2)))

/-- The verdict on a staged image. -/
def State.stageVerdict (s : State) (img : List Byte) (bad : Bool) : Status :=
  if bad then .sigFail
  else
    match s.imageFail img with
    | some 5 => .rollback
    | some _ => .sigFail
    | none => if numAt img 6 1 ≠ 0 ∧ !s.tokenOk img then .badField else .ok

/-- The image in the staging slot as the hod holds it; `ecc`: the bit errors its words show. -/
def State.stagedImage (s : State) (ecc : List EccHit) : State × List Byte × Bool :=
  let (s1, bs, bad) := s.hodReads 1 ecc (stagingBase / 8) ((s.upd.staged + 7) / 8)
  (s1, bs.take s.upd.staged, bad.isSome)

/-- IMAGE_VERIFY_DONE (R356, R455): the verification of the staged image ends. A failure empties the slot and frees the
lock. -/
def execImageVerifyDone (ecc : List EccHit) (s : State) : Host.Outcome State Fault Refusal :=
  .next (
    if s.upd.verify.isNone && !s.upd.verifyTwin then s
    else
      let g := s.upd.verify.getD .device
      let (s1, img, bad) := s.stagedImage ecc
      let st := if (s.core 6).stopped then Status.domainOff else s1.stageVerdict img bad
      let s2 : State := { s1 with upd := { s1.upd with verify := none, verifyTwin := false } }
      if st = .ok then
        let i := imageInfo img
        let s3 : State := { s2 with upd := { s2.upd with stagedInfo := some i } }
        ((s3.wr Reg.UPD.VERSION.STAGED i.version).updTo 2).finish g { r0 := i.version }
      else s2.dropImage.finishSt g st)

/-! ## Tokens (R443) -/

/-- Erase key slots picked by `p`; every session taken from one ends (R320). -/
def State.eraseKeys (s : State) (p : Nat → Bool) : State :=
  let s1 := (List.range 64).foldl (fun (t : State) (k : Nat) =>
    if p k then
      { t with sec := { t.sec with keys := Tab.set none t.sec.keys k none } }
    else t) s
  s1.knownRings.foldl (fun (t : State) (r : Nat) =>
    match (t.ring r).session with
    | some x => if p x.slot then t.endSession r else t
    | none => t) s1

/-- Every session ends. -/
def State.endAllSessions (s : State) : State := s.knownRings.foldl (fun (t : State) (r : Nat) => t.endSession r) s

/-- The life-cycle token is spent: the state it names takes effect at the next reset. -/
def State.lifeToken (s : State) (target : Nat) : State :=
  let s1 := ({ s with sec := { s.sec with nextLc := some target } } : State).wr Reg.SEC.LC.LC_PENDING 1
  if target = 2 then
    (if s.sec.ks0Factory then
      let s2 := s1.eraseKeys fun k => k == 0
      { s2 with sec := { s2.sec with ks0Factory := false } }
     else s1)
  else
    let s2 := (s1.eraseKeys fun _ => true).endAllSessions
    let s3 : State := { s2 with seeds := [], retire := [], hod := { s2.hod with saved := [] } }
    ({ s3 with sec := { s3.sec with ks0Factory := false } } : State).wr Reg.SEC.LC.IDENTITY_OK 0

/-- A token in the staging slot writes its fuses. -/
def State.spendToken (s : State) (img : List Byte) : State :=
  if numAt img 6 1 = 2 then
    ({ s with sec := { s.sec with custRoot := some (cut img 104 48) } } : State).wr Reg.SEC.LC.CUST_ROOT 1
  else s.lifeToken (numAt img 104 1)

/-! ## Activation (R457, R459) -/

/-- The formats of the new image cover what the running one wrote (R457). -/
def State.formatsOk (s : State) (i : ImageInfo) : Bool :=
  decide (bitsOf i.formats 16 8 ≤ bitsOf s.upd.running.formats 0 8) &&
    decide (bitsOf i.formats 24 8 ≤ s.storeFormat)

/-- Another session holds the lock. -/
def State.lockedOut (s : State) (r : Nat) : Bool :=
  s.rd Reg.UPD.STAT.LOCK == 1 && s.upd.lockRing != some r

def chkUpdateActivate (r : Nat) (s : State) (f : Flight) : Option Res :=
  let w := op16 f.e 16
  if 3 ≤ s.updState ∧ s.updState ≤ 5 then some { st := .updateBusy }
  else
    match s.upd.stagedInfo with
    | none => some { st := .badField }
    | some i =>
      if s.updState ≠ 2 then some { st := .badField }
      else if s.lockedOut r then some { st := .updateBusy }
      else if i.kind ≠ 0 then chkNvm s f
      else if (w ≠ 0 ∧ w < 30) ∨ 3600 < w ∨ !s.formatsOk i then some { st := .badField }
      else none

def runUpdateActivate (s : State) (g : Origin) (f : Flight) : State :=
  let w := op16 f.e 16
  match s.upd.stagedInfo with
  | none => s.finishSt g .badField
  | some i =>
    if i.kind ≠ 0 then
      let (s1, img, _) := s.stagedImage []
      ((s1.spendToken img).dropImage).finishSt g .ok
    else
      let s1 : State := { s with upd := { s.upd with
        activate := some (g, if w = 0 then 180 else w, opBits f.e 18 0 1 == 1)
        faulted := false, diverged := false, wasSynced := s.twinState == 2, dual := true
        trialLanes := ((List.range 64).filter fun n => s.lane n == 3).map fun n => ⟨n, 0, true⟩ } }
      ((s1.wr Reg.UPD.PROGRESS.SWAPPED 0).wr Reg.UPD.STAT.HEALTH_OK 0).updTo 3

/-- UPDATE_ACTIVATE (R357, R443, R457). -/
def execUpdateActivate (r : RingNo) (e : Entry) (d : Dma) (s : State) : Host.Outcome State Fault Refusal :=
  .next (s.serve .updateActivate r e d (chkUpdateActivate r) runUpdateActivate)

/-- Every engine that runs takes the image in force and goes on from its state block; lane programs are reloaded (R384,
R457). -/
def State.swapEngines (s : State) : State :=
  let s1 := (List.range 80).foldl (fun (t : State) (e : Nat) =>
    if t.courseD (courseOfEngine e) && t.engMapOf e == .running then
      (if e < 64 then (t.engineFresh [] e).rotationCut e else t.engineFresh [] e)
    else t) s
  (List.range 16).foldl (fun (t : State) (i : Nat) => t.engineFresh [] (80 + i)) s1

/-- The image the engines run. -/
def State.setRunning (s : State) (i : ImageInfo) : State :=
  ({ s with upd := { s.upd with running := i }, twin := { s.twin with capsDue := true } } : State).wr Reg.UPD.VERSION.RUNNING
    i.version

/-- Seeds follow the live store's format (R458). -/
def State.seedFormat (s : State) : State :=
  { s with seeds := s.seeds.map fun (p : Nat × Option Seed) =>
      (p.1, p.2.map fun x => { x with version := s.storeFormat }) }

/-- ACTIVATION_COMPLETE (R457): K0 has swapped; the image is in TRIAL and the command completes. Nothing completes while
K0 does not run (R22). -/
def execActivationComplete (s : State) : Host.Outcome State Fault Refusal :=
  .next (
    match s.upd.activate, s.upd.stagedInfo with
    | some (g, w, hc), some i =>
      if s.updState ≠ 3 ∨ !s.coreRuns 0 then s
      else
        let s1 := (s.setRunning i).swapEngines.wr Reg.UPD.PROGRESS.SWAPPED 96
        let s2 : State := { s1 with upd := { s1.upd with
          activate := none, hostConfirm := hc, trialStart := s1.time
          windowEnd := s1.time + w * 1000000000
          trialLanes := s1.upd.trialLanes.map fun (x : TrialLane) => { x with surveys := 0 } } }
        (s2.updTo 4).finishSt g .ok
    | _, _ => s)

/-! ## Trial, confirmation and fallback (R459, R460) -/

/-- A lane does not hold up the trial: its surveys are done, or it waits without signal, or the host has taken it out of
ACTIVE. -/
def State.trialLaneOk (s : State) (x : TrialLane) : Bool :=
  decide (4 ≤ x.surveys) || (s.lane x.lane == 2 && s.los x.lane) || (s.lane x.lane != 2 && s.lane x.lane != 3)

/-- The conditions of R459, the time apart. -/
def State.trialGood (s : State) : Bool :=
  !s.upd.faulted && s.upd.trialLanes.all (fun x => s.trialLaneOk x) && !(s.upd.wasSynced && s.upd.diverged)

/-- The trial image is kept (R459): one format remains, seeds are written for lanes that stayed ACTIVE (R95), the lock is
free. The image stays staged until it is committed. -/
def State.confirm (s : State) : State :=
  let s1 : State := { s with upd := { s.upd with dual := false, hostConfirm := false, committed := false } }
  let s2 := s1.seedFormat.dropBlocks 0
  let s3 := (s2.upd.trialLanes.filter fun x => x.stayed && s2.lane x.lane == 3).foldl (fun (t : State) (x : TrialLane) =>
    if !t.anyFreeze x.lane && t.nvmOpen then t.writeSeed x.lane else t) s2
  let s4 : State := { s3 with upd := { s3.upd with trialLanes := [] } }
  (s4.wr Reg.UPD.STAT.HEALTH_OK 0).freeLock.updTo 6

/-- TRIAL_HEALTHY (R459): at least 2 s into the trial every condition holds. -/
def execTrialHealthy (s : State) : Host.Outcome State Fault Refusal :=
  .next (
    if s.updState ≠ 4 ∨ !s.trialGood then s
    else
      let s1 := (s.upTo (s.upd.trialStart + 2000000000)).wr Reg.UPD.STAT.HEALTH_OK 1
      if s.upd.hostConfirm then s1 else s1.confirm)

def chkUpdateConfirm (s : State) (_ : Flight) : Option Res :=
  if s.updState ≠ 4 ∨ !s.flag Reg.UPD.STAT.HEALTH_OK ∨ !s.trialGood ∨ s.upd.windowEnd ≤ s.time then
    some { st := .badField }
  else none

def runUpdateConfirm (s : State) (g : Origin) (_ : Flight) : State := s.confirm.finish g { r0 := 1 }

/-- UPDATE_CONFIRM (R357, R460). -/
def execUpdateConfirm (r : RingNo) (e : Entry) (d : Dma) (s : State) : Host.Outcome State Fault Refusal :=
  .next (s.serve .updateConfirm r e d chkUpdateConfirm runUpdateConfirm)

def chkUpdateAbort (r : Nat) (s : State) (_ : Flight) : Option Res :=
  match s.updState with
  | 1 | 2 => if s.lockedOut r then some { st := .updateBusy } else none
  | 3 => some { st := .updateBusy }
  | 4 => none
  | _ => some { st := .badField }

def runUpdateAbort (s : State) (g : Origin) (_ : Flight) : State :=
  if s.updState = 4 then s.startFallback g
  else
    let s1 := s.dropImage
    (match s.upd.verify with | some o => s1.finishSt o .aborted | none => s1).finishSt g .ok

/-- UPDATE_ABORT (R357). -/
def execUpdateAbort (r : RingNo) (e : Entry) (d : Dma) (s : State) : Host.Outcome State Fault Refusal :=
  .next (s.serve .updateAbort r e d (chkUpdateAbort r) runUpdateAbort)

/-- CONFIRM_WINDOW_EXPIRY (R460). -/
def execConfirmWindowExpiry (s : State) : Host.Outcome State Fault Refusal :=
  .next (if s.updState = 4 then (s.upTo s.upd.windowEnd).startFallback .device else s)

/-- SWAP_BOUND_EXPIRY (R460): K0 or K6 has not completed a swap within its bound. -/
def execSwapBoundExpiry (s : State) : Host.Outcome State Fault Refusal :=
  .next (if s.updState = 3 then s.startFallback .device else s)

/-! ## Records and the NVM (R439, R445, R464) -/

/-- The slot the newest record names; with no valid record slot A is PROVEN (R445). -/
def State.activeSlot (s : State) : Nat := match s.upd.record with | some r => r.active | none => 0

/-- A new record is written into the other copy. -/
def State.putRecord (s : State) (r : CommitRec) : State :=
  let c := 1 - s.upd.copy
  let s1 : State := { s with upd := { s.upd with record := some r, copy := c } }
  (s1.wr Reg.UPD.RECORD.SEQ r.seq).emit (.flash "record" (0x04000000 + 0x1000 * c) (recordBytes r))

/-- The anti-rollback counter is fused up (R464). -/
def State.fuseArb (s : State) (v : Nat) : State := s.wr Reg.SEC.ARB.COUNTER (max v (s.rd Reg.SEC.ARB.COUNTER))

/-- Perform one NVM write. The record of a healthy trial, which keeps its slot, clears the trial count (R464). -/
def State.nvmDo (s : State) (j : NvmJob) : State :=
  match j with
  | .record r =>
    let t := s.putRecord r
    if r.active = s.activeSlot then ({ t with upd := { t.upd with trialTries := 0 } } : State).wr Reg.SEC.BOOT_STAT.TRIES 0
    else t
  | .arb v => s.fuseArb v
  | .overlay => s.saveOverlay

/-- Write now, or keep for the retry of every 1 s while the window is closed. -/
def State.nvmWrite (s : State) (j : NvmJob) : State :=
  if s.nvmOpen then s.nvmDo j else { s with upd := { s.upd with retry := s.upd.retry ++ [j] } }

/-- NVM_WRITE_RETRY (R402, R464). -/
def execNvmWriteRetry (s : State) : Host.Outcome State Fault Refusal :=
  .next (
    if s.upd.retry = [] ∨ !s.nvmOpen then s
    else s.upd.retry.foldl (fun (t : State) (j : NvmJob) => t.nvmDo j) { s with upd := { s.upd with retry := [] } })

/-- FALLBACK_END (R460, R464): every engine runs the old image again; after a boot trial it is the other slot's, and a
record names that slot PROVEN. K0 must run. -/
def execFallbackEnd (s : State) : Host.Outcome State Fault Refusal :=
  .next (
    match s.upd.fallback with
    | none => s
    | some g =>
      if !s.coreRuns 0 then s
      else
        let boot := s.upd.fallbackBoot
        let img := if boot then s.upd.other.getD {} else s.upd.bootImage
        let s1 : State := { s with upd := { s.upd with
          fallback := none, fallbackBoot := false, dual := false, trialLanes := [], hostConfirm := false, faulted := false } }
        let s0 := (s1.setRunning img).swapEngines.seedFormat
        let s2 := (if s.upd.dual then s0.dropBlocks 1 else s0).wr Reg.UPD.STAT.LAST_FALLBACK 1
        let s3 := s2.emptySlot.freeLock.updTo 0 true
        let s4 :=
          if boot then
            let r : CommitRec := s3.upd.record.getD ⟨0, 0, 1, false, 0, 0, 0, []⟩
            let t : State := { s3 with upd := { s3.upd with
              bootImage := img, bootSlot := 1 - s3.upd.bootSlot, other := some s3.upd.bootImage } }
            (t.wr Reg.SEC.BOOT_STAT.BOOT_TRIAL 0).nvmWrite (.record {
              seq := r.seq + 1, active := 1 - r.active, state := 2, prevOk := false, version := img.version
              secVer := img.secVer, imgBytes := img.imgBytes, hash := img.hash })
          else s3
        s4.finishSt g .ok)

/-! ## Commit (R462) -/

def chkUpdateCommit (s : State) (_ : Flight) : Option Res :=
  if s.updState ≠ 6 ∨ s.upd.stagedInfo.isNone then some { st := .badField }
  else if !s.nvmOpen then some { st := .nvmTemp }
  else none

def runUpdateCommit (s : State) (g : Origin) (_ : Flight) : State :=
  (({ s with upd := { s.upd with commit := some g } } : State).wr Reg.UPD.PROGRESS.PERCENT 0).updTo 7

/-- UPDATE_COMMIT (R357, R462). -/
def execUpdateCommit (r : RingNo) (e : Entry) (d : Dma) (s : State) : Host.Outcome State Fault Refusal :=
  .next (s.serve .updateCommit r e d chkUpdateCommit runUpdateCommit)

/-- COMMIT_RECORD_WRITTEN (R462): the slot has been programmed and read back (`good`: it equals the staged image); the
record is written, or the commit fails with the image still staged. `ecc`: the errors the staged copy shows. -/
def execCommitRecordWritten (good : Bool) (ecc : List EccHit) (s : State) : Host.Outcome State Fault Refusal :=
  .next (
    match s.upd.commit, s.upd.stagedInfo with
    | some g, some i =>
      let (s1, img, bad) := s.stagedImage ecc
      let slot := 1 - s.activeSlot
      let s2 : State := ({ s1 with upd := { s1.upd with commit := none } } : State).emit
        (.flash "slot" (0x02000000 * slot) img)
      if bad then (s2.updTo 6).finishSt g .eccUncorr
      else if !good then (s2.updTo 6).finishSt g .partialDone
      else
        let r : CommitRec := {
          seq := (match s.upd.record with | some r => r.seq | none => 0) + 1, active := slot, state := 1, prevOk := true
          version := i.version, secVer := i.secVer, imgBytes := i.imgBytes, hash := i.hash }
        let s3 := (s2.putRecord r).emptySlot.wr Reg.UPD.PROGRESS.PERCENT 100
        (({ s3 with upd := { s3.upd with committed := true } } : State).updTo 0).finishSt g .ok
    | _, _ => s)

/-! ## Boot trial (R464) -/

/-- BOOT_TRIAL_HEALTHY (R464): 2 s after the start with no fault: the image is PROVEN, and rollback behind it is barred. -/
def execBootTrialHealthy (s : State) : Host.Outcome State Fault Refusal :=
  .next (
    if !s.upd.bootTrial ∨ s.upd.faulted ∨ !s.coreOn then s
    else
      let r : CommitRec := s.upd.record.getD ⟨0, 0, 1, false, 0, 0, 0, []⟩
      let arb := max r.secVer (s.rd Reg.SEC.ARB.COUNTER)
      let ok := match s.upd.other with | some i => decide (arb ≤ i.secVer) | none => false
      let s1 := s.upTo (s.upd.trialStart + 2000000000)
      let s2 := ({ s1 with upd := { s1.upd with bootTrial := false } } : State).wr Reg.SEC.BOOT_STAT.BOOT_TRIAL 0
      let s3 := s2.nvmWrite (.record { r with seq := r.seq + 1, state := 2, prevOk := ok })
      if s.rd Reg.SEC.ARB.COUNTER < r.secVer then s3.nvmWrite (.arb r.secVer) else s3)

/-- BOOT_TRIAL_WINDOW_EXPIRY (R464): the window of 180 s runs out. -/
def execBootTrialWindowExpiry (s : State) : Host.Outcome State Fault Refusal :=
  .next (if s.upd.bootTrial then (s.upTo s.upd.bootTrialEnd).bootFallback else s)

/-! ## K0 runs again (R22) -/

/-- FOREMAN_RESTART_DONE (R22): keep cores that waited are restarted too, waiting substitutions start, and an activation
that ran meanwhile falls back. -/
def execForemanRestartDone (s : State) : Host.Outcome State Fault Refusal :=
  .next (
    if !(s.core 0).restarting then s
    else
      let s1 := (List.range 8).foldl (fun (t : State) (k : Nat) =>
        let x := t.core k
        t.setCore k { x with stopped := x.stopped && !x.restarting, restarting := false }) s
      let s2 := s1.judgeHeldAll.startSubst 96
      let s3 := if s2.updState = 3 then s2.startFallback .device else s2
      s3.ladderResumeAll)

/-! ## Images from the twin (R455, R456) -/

/-- TWIN_IMAGE_PUSH (R455): a write of 1 to `UPD.CTRL.PUSH` offers the verified staged image; `accepted` is the twin's
answer. -/
def State.pushWrite (s : State) (accepted : Bool) : State :=
  if s.upd.stagedInfo.isNone then s
  else if s.rd Reg.FLK.STAT.LINK_STATE ≠ 5 ∨ !accepted then s.wr Reg.UPD.STAT.PUSH_REFUSED 1
  else
    let (s1, img, _) := s.stagedImage []
    ((s1.filkorQueued.emit (.filkor "IMAGE_OFFER" img.length)).emit (.twinImage img)).wr
      Reg.UPD.PROGRESS.PERCENT 100

def execTwinImagePush (f : FnNo) (accepted : Bool) (s : State) : Host.Outcome State Fault Refusal :=
  .next (if f.val ≠ 0 then s
    else s.regAccess Reg.UPD.CTRL.PUSH 0 0 true fun s => s.pushWrite accepted)

/-- The device accepts an offer of an image of `n` bytes (R454 to R456). -/
def State.offerOk (s : State) (n : Nat) : Bool :=
  s.coreOn && s.flag Reg.UPD.CTRL.TWIN_SRC_EN && decide (1 ≤ s.twinState) && decide (s.twinState ≤ 3) &&
    s.rd Reg.FLK.STAT.LINK_STATE == 5 && s.rd Reg.UPD.STAT.LOCK == 0 && s.updState == 0 && !s.stagingTaken &&
    s.hodOn && decide (n ≤ stagingBytes)

/-- TWIN_IMAGE_OFFER (R455): the offer takes the lock for the twin, or is refused. -/
def execTwinImageOffer (n : Nat) (s : State) : Host.Outcome State Fault Refusal :=
  .next (
    if s.offerOk n then
      let s1 := s.emptySlot
      let s2 : State := { s1 with upd := { s1.upd with reserved := true, receiving := some n } }
      ((s2.wr Reg.UPD.STAT.LOCK 2).updTo 1).filkorQueued.emit (.filkor "IMAGE_ACCEPT" n)
    else if s.linkOn && s.rd Reg.FLK.STAT.LINK_STATE == 5 then s.filkorQueued.emit (.filkor "IMAGE_REFUSE" n)
    else s)

/-- TWIN_IMAGE_RECEIVED (R455): the image has arrived; it is verified as under LAST. -/
def execTwinImageReceived (data : List Byte) (s : State) : Host.Outcome State Fault Refusal :=
  .next (
    match s.upd.receiving with
    | none => s
    | some n =>
      let img := (data ++ List.replicate (n - data.length) 0).take n
      let s1 := s.hodStore stagingBase img []
      ({ s1 with upd := { s1.upd with receiving := none, staged := n, verifyTwin := true } } : State).wr
        Reg.UPD.PROGRESS.PERCENT 100)

end Sys2Proof.Machine
end

