-- ==== Sys2Proof/Machine/Identity.lean ====
section
/-! DEFINITION. Identity, attestation and key slots (16_boot_security_update, R451 to R453; 12_command_set, R358,
R359). -/

namespace Sys2Proof.Machine

/-- A list of bytes brought to a length: zeros are added, or the rest is left out. -/
def fitBytes (n : Nat) (l : List Byte) : List Byte := (l ++ List.replicate (n - l.length) 0).take n

/-- A buffer that is too small or that no command may name (R325, R358). -/
def bufferChk (need len addr : Nat) : Option Res :=
  if len < need then some { st := .badField, r0 := need }
  else if !addrOk addr len then some { st := .badField }
  else none

/-- Write command data and complete; the bytes that arrived before a failing write are counted (R325). -/
def State.deliver' (s : State) (g : Origin) (d : Dma) (a : Nat) (data : List Byte) : State :=
  match s.hostWrite d a data with
  | (s1, none) => s1.finishSt g .ok
  | (s1, some k) => s1.finish g { st := .dmaFault, r0 := k }

/-! ## ATTEST (R452) -/

/-- The size of a report. -/
def reportBytes : Nat := 16864

/-- The 256-byte body of a report over a caller nonce. -/
def State.attestBody (s : State) (nonce : List Byte) : List Byte :=
  let root := match s.sec.custRoot with | some h => fitBytes 48 h | none => List.replicate 48 0
  ascii "TRAT" ++ leBytes 8 (s.rd Reg.SEC.SERIAL.SERIAL) ++ leBytes 1 s.lc ++ leBytes 1 (s.rd Reg.SEC.ARB.COUNTER) ++
    leBytes 1 (bitVal s.sec.custRoot.isSome + 2 * s.rd Reg.SEC.BOOT_STAT.BOOT_TRIAL + 4 * bitVal (s.updState == 4) +
      8 * bitVal s.upd.committed) ++
    leBytes 1 (s.rd Reg.SEC.BOOT_STAT.SLOT) ++ leBytes 4 s.upd.running.version ++ fitBytes 48 s.upd.running.hash ++
    root ++ nonce ++ leBytes 8 s.time ++ leBytes 4 (match s.upd.record with | some r => r.seq | none => 0) ++
    List.replicate 96 0

/-- The report: the body and both signatures. -/
def State.attestReport (s : State) (nonce : List Byte) : List Byte :=
  let body := s.attestBody nonce
  let msg := ascii "TREHIROK-ATTS-V1" ++ body
  body ++ fitBytes 384 (Config.identityRsaSign msg) ++ fitBytes 16224 (Config.identitySlhSign msg)

def chkAttest (_ : State) (f : Flight) : Option Res := bufferChk reportBytes (op32 f.e 56) (op64 f.e 48)

/-- K1 signs; the command completes when it has (ATTESTATION_SIGNED). -/
def runAttest (s : State) (_ : Origin) (_ : Flight) : State := s

/-- ATTEST (R358, R452). -/
def execAttest (r : RingNo) (e : Entry) (d : Dma) (s : State) : Host.Outcome State Fault Refusal :=
  .next (s.serve .attest r e d chkAttest runAttest)

/-- The oldest running command of an opcode on a ring. -/
def State.runningOp (s : State) (r op : Nat) : Option Flight :=
  (s.ring r).flights.find? fun f => f.op == op && f.phase == .running

/-- ATTESTATION_SIGNED (R452): the report of the ring's ATTEST is written. -/
def execAttestationSigned (r : RingNo) (s : State) : Host.Outcome State Fault Refusal :=
  .next (
    match s.runningOp r (opCode .attest) with
    | none => s
    | some f =>
      let g := Origin.host r f.fid
      if (s.core 1).stopped then s.finishSt g .domainOff
      else s.deliver' g f.d (op64 f.e 48) (s.attestReport (opBytes f.e 16 32)))

/-! ## IDENTITY_READ (R451) -/

/-- The header with the number of certificates and their lengths, the certificates, and the CA chain. -/
def identityData : List Byte :=
  let cs := Config.identityCerts
  ascii "TRID" ++ leBytes 4 2 ++ leBytes 4 (cs.getD 0 []).length ++ leBytes 4 (cs.getD 1 []).length ++ cs.flatten

def chkIdentityRead (_ : State) (f : Flight) : Option Res :=
  bufferChk identityData.length (op32 f.e 24) (op64 f.e 16)

def runIdentityRead (s : State) (g : Origin) (f : Flight) : State := s.deliver' g f.d (op64 f.e 16) identityData

/-- IDENTITY_READ (R358, R451). -/
def execIdentityRead (r : RingNo) (e : Entry) (d : Dma) (s : State) : Host.Outcome State Fault Refusal :=
  .next (s.serve .identityRead r e d chkIdentityRead runIdentityRead)

/-! ## Key slots (R359, R453) -/

/-- A key record needs a customer signature (R453). -/
def State.keyNeedsSig (s : State) : Bool := s.lc == 2 && s.sec.custRoot.isSome

/-- The record's signature verifies, where one is required. -/
def State.keySigned (s : State) (rec : List Byte) : Bool :=
  !s.keyNeedsSig ||
    signedBy (rec.drop 400)
      (ascii "TREHIROK-KEYS-V1" ++ rec.take 400 ++ leBytes 8 (s.rd Reg.SEC.SERIAL.SERIAL)) 1 s.sec.custRoot

/-- The key a record carries; none: decryption fails. -/
def recordKey (rec : List Byte) : Option (List Byte) :=
  match Config.oaepDecrypt (cut rec 16 384) with
  | some k => if k.length = 48 then some k else none
  | none => none

/-- The bytes of the record the device reads. -/
def State.keyRecBytes (s : State) : Nat := if s.keyNeedsSig then 400 + 16 + setBytes else 400

def chkKeyslotWrite (s : State) (f : Flight) : Option Res :=
  let t := f.e.target.toNat
  let ceil := opByte f.e 16
  let bind := opByte f.e 17
  let n := s.keyRecBytes
  let rec_ := dataOf f n
  if 3 < ceil ∨ (63 < bind ∧ bind ≠ 255) ∨ !addrOk (op64 f.e 24) n then some { st := .badField }
  else if (match f.d.failAt with | some k => decide (k < n) | none => false) then some { st := .dmaFault }
  else if cut rec_ 0 4 ≠ ascii "TRKY" ∨ numAt rec_ 4 1 ≠ t ∨ numAt rec_ 5 1 ≠ ceil ∨ numAt rec_ 6 1 ≠ bind ∨
      !allZero (cut rec_ 7 9) then some { st := .badField }
  else if !s.keySigned rec_ ∨ (recordKey rec_).isNone then some { st := .sigFail }
  else chkNvm s f

def runKeyslotWrite (s : State) (g : Origin) (f : Flight) : State :=
  let t := f.e.target.toNat
  let key := (recordKey (dataOf f s.keyRecBytes)).getD []
  let s1 := s.eraseKeys fun k => k == t
  let s2 : State := { s1 with sec := { s1.sec with
    keys := Tab.set none s1.sec.keys t (some ⟨key, opByte f.e 16, opByte f.e 17⟩)
    ks0Factory := s1.sec.ks0Factory && t != 0 } }
  s2.finishSt g .ok

/-- KEYSLOT_WRITE (R359, R453). -/
def execKeyslotWrite (r : RingNo) (e : Entry) (d : Dma) (s : State) : Host.Outcome State Fault Refusal :=
  .next (s.serve .keyslotWrite r e d chkKeyslotWrite runKeyslotWrite)

def runKeyslotErase (s : State) (g : Origin) (f : Flight) : State :=
  let t := f.e.target.toNat
  let s1 := s.eraseKeys fun k => k == t
  ({ s1 with sec := { s1.sec with ks0Factory := s1.sec.ks0Factory && t != 0 } } : State).finishSt g .ok

/-- KEYSLOT_ERASE (R359). -/
def execKeyslotErase (r : RingNo) (e : Entry) (d : Dma) (s : State) : Host.Outcome State Fault Refusal :=
  .next (s.serve .keyslotErase r e d chkNvm runKeyslotErase)

end Sys2Proof.Machine
end

