-- ==== Sys2Proof/Machine/Restart.lean ====
section
/-! DEFINITION. Resets and starts: function-level resets (R297), CORE losing its power (R27, R420), cold and warm reset
(R6, R9, R404, R415, R427, R438, R508, R509), the start from PERST# release to DEVICE_READY (R406, R415, R437, R438,
R448 to R450, R519), D_KEEP (R420), and the PCIe link (R291, R498). -/

namespace Sys2Proof.Machine

/-! ## Function-level resets (R295, R297) -/

/-- What a function keeps through a reset: its lockout (R319). -/
def FnX.kept (x : FnX) : FnX := { lockUntil := x.lockUntil, lockLen := x.lockLen }

/-- FLR of a VF. -/
def State.flrVf (s : State) (f : Nat) : State :=
  let s1 := (s.knownRings.filter fun r => s.ringOwner r == f).foldl (fun (t : State) (r : Nat) => t.killRing r) s
  ({ s1 with vecs := Tab.clear s1.vecs (vecKey f 0) (vecKey (f + 1) 0) } : State).setFn f (s1.fn f).kept

/-- FLR of PF0: VF Enable clears, and every ring is disabled and PF0's. -/
def State.flrPf (s : State) : State :=
  let s1 := s.knownRings.foldl (fun (t : State) (r : Nat) => (t.killRing r).wr Reg.RING.CFG.OWNER 0 r) s
  (List.range 64).foldl (fun (t : State) (f : Nat) => t.setFn f (t.fn f).kept)
    { s1 with vecs := [], vfEnable := false, arb := {} }

/-- Configuration space answers, so a function can be reset or enabled. -/
def State.pcieUp (s : State) : Bool := s.phase == .active || s.phase == .dkeep || s.phase == .halted || s.phase == .waking

/-- FUNCTION_LEVEL_RESET (R297). -/
def execFunctionLevelReset (f : FnNo) (s : State) : Host.Outcome State Fault Refusal :=
  .next (if !s.pcieUp then s else if f.val = 0 then s.flrPf else s.flrVf f)

/-- VF_D3HOT (R297): while a VF is in D3hot its rings fetch nothing; the rest is kept. -/
def execVfD3hot (f : FnNo) (enter : Bool) (s : State) : Host.Outcome State Fault Refusal :=
  .next (if f.val = 0 ∨ !s.pcieUp then s else s.setFn f { s.fn f with d3hot := enter })

/-- VF_ENABLE_WRITE (R295): clearing VF Enable disables every ring a VF owns, which keeps its owner. -/
def execVfEnableWrite (en : Bool) (s : State) : Host.Outcome State Fault Refusal :=
  .next (
    if !s.pcieUp then s
    else
      let s1 := if en then s
        else (s.knownRings.filter fun r => s.ringOwner r != 0 && s.ringState r == 1).foldl
          (fun (t : State) (r : Nat) => t.disable r) s
      { s1 with vfEnable := en })

/-! ## CORE off (R27, R420) -/

/-- The pair's state when K3 has no power: the strap, the levels and what the pads hold. -/
def TwinX.kept (x : TwinX) : TwinX :=
  { strap := x.strap, ownSel := x.ownSel, sense := x.sense, sideB := x.sideB, lease := x.lease, senseLow := x.senseLow }

/-- The update state without CORE: records and images in flash and fuses remain, everything staged or tried is over. -/
def UpdX.kept (x : UpdX) : UpdX :=
  { record := x.record, copy := x.copy, running := x.running, bootImage := x.bootImage, bootSlot := x.bootSlot
    other := x.other, trialTries := x.trialTries, retry := x.retry.filter fun j => j != .overlay }

/-- Spares the overlay's entries take (R402). -/
def spareCounts (l : List (Nat × Bool × Nat)) (col : Bool) : Tab Nat :=
  l.foldl (fun t e => if e.2.1 = col then Tab.set 0 t e.1 (Tab.get 0 t e.1 + 1) else t) []

/-- The hod after a loss of its contents: the overlay that MRAM holds is in force (R402, R408). -/
def HodX.fresh (x : HodX) : HodX :=
  { overlay := x.saved, saved := x.saved, rowSpares := spareCounts x.saved false, colSpares := spareCounts x.saved true }

/-- The key of a decimation channel's `QTRIG` or `QGRP`, the `RWL` fields of the block: only cold reset clears them
(R9, R261). -/
def keptDec (k : Nat) : Bool :=
  decide (8 * 0x378100 ≤ k) && decide (k < 8 * 0x378500) && decide (17 ≤ k % 128) && decide (k % 128 < 21)

/-- Registers of blocks in CORE, PCIE and FLK go back to their values after cold reset. The log of failed opens and its
lockouts are in KEEP (R319), and so are K0 with its window, and the spare mapping, which lasts until the next reset
(R20). -/
def State.clearCore (s : State) : State :=
  let s1 := ((((s.clearRegs 0x200 0x208).clearRegs 0xC00 0xF00).clearRegs 0x1840 0x2200).clearRegs 0x4400
    0x4418).clearRegs 0x100000 0x360000
  let left := s1.regs.filter fun (q : Nat × Nat) =>
    decide (q.1 < 8 * 0x370000) || decide (8 * 0x380000 ≤ q.1) || keptDec q.1
  let s2 : State := { s1 with regs := left }
  (s2.clearRegs 0x390000 0x1A00000).clearRegs 0x1A20000 0x1C00000

/-- The keep cores when CORE loses its power: K0 goes on in KEEP (R27), the others lose all but the count of their
faults since the last reset (R21). -/
def coresKept (l : Tab CoreX) : Tab CoreX :=
  l.filterMap fun (p : Nat × CoreX) =>
    if p.1 = 0 then some p else if p.2.faults = 0 then none else some (p.1, { faults := p.2.faults })

/-- CORE and every domain below it go off: pads latch, lanes, engines and rings lose their state. `hodKept`: the hod
stays in self-refresh (R407); else its contents are lost (R408). -/
def State.coreDown (s : State) (hodKept : Bool) : State :=
  let s1 := s.flrPf
  let s2 := (List.range 8).foldl (fun (t : State) (c : Nat) => if t.courseD c then t.courseDown c else t) s1
  let s3 := (List.range 4).foldl (fun (t : State) (q : Nat) => if t.quadOn q then t.quadDown q else t) s2
  let s4 := (if s3.pwr.flkOn then s3.flkDown.setFlk false else s3).holdRaises
  let s5 := s4.clearCore
  let s6 : State := { s5 with
    tests := [], eng := s5.eng.filter fun (q : Nat × EngX) => q.1 == 80, scv := [], dec := [], cmis := [], host := [], htx := []
    bst := [], chk := [], shots := [], epoch := [], mortar := [], bgHigh := 0, bgLow := 0, twin := s5.twin.kept, upd := s5.upd.kept
    cores := coresKept s5.cores
    pwr := { s5.pwr with trans := none, offNow := [], d3Wait := false } }
  if hodKept then
    (({ s6 with hod := { s6.hod with caps := [] } } : State).wr Reg.HOD.STAT.READY 0).wr Reg.HOD.STAT.SELF_REFRESH 1
  else
    let ex := s6.rd Reg.HOD.REPAIR_STAT.EXHAUSTED
    ({ s6.clearRegs 0x380000 0x390000 with hod := s6.hod.fresh, rx := [] } : State).wr Reg.HOD.REPAIR_STAT.EXHAUSTED ex

/-! ## Resets (R6, R9) -/

/-- Every TWIN_SEL[c] goes low (R272). -/
def State.dropSel (s : State) : State := (List.range 8).foldl (fun (t : State) (c : Nat) => t.setOwnSel c false) s

/-- A life-cycle state a token has fused takes effect (R443). -/
def State.nextLife (s : State) : State :=
  match s.sec.nextLc with
  | some v => (({ s with sec := { s.sec with nextLc := none } } : State).wr Reg.SEC.LC.LC_STATE v).wr
      Reg.SEC.LC.LC_PENDING 0
  | none => s

/-- Fuses and the bias block, which a cold reset leaves as they are (R1, R28, R441, R489). -/
def keepsCold (k : Nat) : Bool :=
  let within := fun lo hi => decide (8 * lo ≤ k) && decide (k < 8 * hi)
  within 0x0 0x8 || within 0xF00 0xF04 || within 0x4000 0x4004 || within 0x4008 0x4020 || within 0x360000 0x360500

/-- Registers that only cold reset clears, or nothing but their own rule (R9, R319, R427, R428, R438, R504, R244): RWL
and RWS fields with their LOCK, the trip record, SHUTDOWN conditions, lockouts, event map and latches, fuses (the grade of
`GLB.CAP` among them, R1, and `GLB.ADC_CHAR`, R489), bias. -/
def keepsWarm (k : Nat) : Bool :=
  let within := fun lo hi => decide (8 * lo ≤ k) && decide (k < 8 * hi)
  within 0x3400 0x3408 || within 0x340C 0x3410 || within 0x3418 0x3420 || k == Reg.THM.STAT.TRIP_VALID.key 0 0 ||
    k == Reg.THM.STAT.TRIP_FROM_MRAM.key 0 0 || (within 0x3420 0x3480 && k % 32 == 18) || within 0x2200 0x2300 ||
    within 0x7E00 0x7F00 || within 0x8000 0x8980 || keepsCold k || keptDec k ||
    k == Reg.HOD.REPAIR_STAT.EXHAUSTED.key 0 0

/-- Warm reset: CORE goes off, TWIN_SEL falls, pads take their reset levels, and all but what `keepsWarm` names stands at
its value after cold reset. -/
def State.warmReset (s : State) (p : Phase) : State :=
  let s1 := (s.coreDown false).dropSel.biasThermReset.nextLife
  let s2 : State := { s1 with
    regs := s1.regs.filter fun (q : Nat × Nat) => keepsWarm q.1
    pwr := {}, cores := [], engMap := [], failed := [], subst := none, eng := [], doorHeld := [], vfEnable := false
    therm := { s1.therm with sensor := [], ladder := [] }
    upd := { s1.upd with trialTries := s1.upd.trialTries } }
  { s2 with phase := p }

/-- Cold reset (R6): VDD_KEEP has been applied. What MRAM, flash and fuses hold remains, and the bias domain; the time
starts at 0 (R497). -/
def State.coldReset (s : State) : State :=
  let s1 := (s.coreDown false).dropSel.biasThermReset.nextLife
  { State.reset with
    pending := s.pending, freeCtr := s.freeCtr, out := s1.out
    regs := s1.regs.filter fun (q : Nat × Nat) => keepsCold q.1
    therm := { mram := s1.therm.mram, trips := match s1.therm.mram with | r :: _ => r.count | [] => 0 }
    sec := s1.sec, upd := { trialTries := s1.upd.trialTries }, twin := { sense := s1.twin.sense }
    hod := { saved := s1.hod.saved }, seeds := s1.seeds, retire := s1.retire
    bgFused := s1.bgFused, bias := s1.bias.map fun (q : Nat × BiasX) => (q.1, { q.2 with connAt := 0 }) }

/-- COLD_RESET (R6). -/
def execColdReset (s : State) : Host.Outcome State Fault Refusal := .next s.coldReset

/-- WARM_RESET (R6): PERST# is asserted; with a rail missing the device stays held for it (R509). -/
def execWarmReset (s : State) : Host.Outcome State Fault Refusal :=
  .next (s.warmReset (if s.phase = .brownout then .brownout else .inReset))

/-- SUPPLY_LOSS (R509): without VDD_KEEP all but the bias domain loses its state, and the cold reset of its return
follows; without another rail a warm reset is held until all are back. -/
def execSupplyLoss (keep : Bool) (s : State) : Host.Outcome State Fault Refusal :=
  .next (if keep then s.coldReset else s.warmReset .brownout)

/-! ## The start (R448, R449) -/

/-- Some valid sensor reads `SHUTDOWN` − 15.0 °C or more, or has a SHUTDOWN condition that has not re-armed (R427,
R437). -/
def State.tooHot (s : State) : Bool :=
  (List.range 24).any fun t =>
    !s.flag Reg.THM.SENSOR.FAIL t && (s.flag Reg.THM.SENSOR.SHUTDOWN t ||
      decide ((5 * s.rd Reg.THM.THRESH.SHUTDOWN : Int) - 150 ≤ signedOf (s.rd Reg.THM.SENSOR.READING t) 16))

/-- The newest valid commit record and its copy (R445). -/
def newestRecord (b : BootIn) : Option (CommitRec × Nat) :=
  match recordOf b.rec0, recordOf b.rec1 with
  | some x, some y => if x.seq < y.seq then some (y, 1) else some (x, 0)
  | some x, none => some (x, 0)
  | none, some y => some (y, 1)
  | none, none => none

/-- Verify a slot: the cause it fails with, codes of `BOOT_STAT`; 0: it verifies (R447, R449). -/
def State.slotFail (s : State) (img : Option (List Byte)) : Nat :=
  match img with
  | none => 1
  | some l =>
    match s.imageFail l with
    | some c => c
    | none => if numAt l 6 1 = 0 then 0 else 2

/-- The image of a slot as the boot finds it, if it verifies. -/
def State.slotImage (s : State) (b : BootIn) (slot : Nat) : Option ImageInfo :=
  let img := if slot = 0 then b.imgA else b.imgB
  if s.slotFail img = 0 then img.map imageInfo else none

/-- Record why a slot was not booted. -/
def State.noteFail (s : State) (slot cause : Nat) : State :=
  if slot = 0 then s.wr Reg.SEC.BOOT_STAT.FAIL_A cause else s.wr Reg.SEC.BOOT_STAT.FAIL_B cause

/-- The record that names a fallback slot PROVEN (R449), written while the window is open. -/
def State.recordFallback (s : State) (slot : Nat) (i : ImageInfo) : State :=
  if s.nvmOpen then
    s.putRecord {
      seq := (match s.upd.record with | some r => r.seq | none => 0) + 1, active := slot, state := 2, prevOk := false
      version := i.version, secVer := i.secVer, imgBytes := i.imgBytes, hash := i.hash }
  else s

/-- The choice before verification: slot, boot trial, and the state with the try counted (R449). -/
def State.firstChoice (s : State) (b : BootIn) : Nat × Bool × State :=
  match s.upd.record with
  | none => (0, false, s)
  | some r =>
    if r.state ≠ 1 then (r.active, false, s)
    else if !s.nvmOpen then (1 - r.active, false, s)
    else
      let n := s.upd.trialTries + 1
      let s1 := ({ s with upd := { s.upd with trialTries := n } } : State).wr Reg.SEC.BOOT_STAT.TRIES (min 4 n)
      if 3 < n then
        let i := (s1.slotImage b (1 - r.active)).getD {}
        (1 - r.active, false, (s1.noteFail r.active 6).recordFallback (1 - r.active) i)
      else (r.active, true, s1)

/-- The image of a slot is loaded. -/
def State.loadSlot (s : State) (b : BootIn) (slot : Nat) (i : ImageInfo) (trial : Bool) (active : Nat) : State :=
  let s1 : State := { s with upd := { s.upd with
    running := i, bootImage := i, bootSlot := slot, other := s.slotImage b (1 - slot), bootTrial := trial, committed := true } }
  (((s1.wr Reg.UPD.VERSION.RUNNING i.version).wr Reg.SEC.BOOT_STAT.SLOT slot).wrB Reg.SEC.BOOT_STAT.BOOT_TRIAL trial).wrB
    Reg.SEC.BOOT_STAT.FALLBACK_BOOT (slot != active)

/-- No slot verifies: the device halts in KEEP and gives the flash free (R450). -/
def State.haltKeep (s : State) : State := { s.wr Reg.SEC.BOOT_STAT.FLASH_RELEASED 1 with phase := .halted }

/-- The foreman chooses a slot, verifies it and loads the engines (R449). -/
def State.chooseSlot (s : State) (b : BootIn) : State :=
  let active := s.activeSlot
  let (slot, trial, s1) := s.firstChoice b
  let img := if slot = 0 then b.imgA else b.imgB
  match s1.slotImage b slot with
  | some i => s1.loadSlot b slot i trial active
  | none =>
    let s2 := s1.noteFail slot (s1.slotFail img)
    let prev := match s1.upd.record with | some r => r.prevOk | none => true
    let o := 1 - active
    match (if slot != o && prev then s2.slotImage b o else none) with
    | some i => (s2.recordFallback o i).loadSlot b o i false active
    | none => (if slot != o && prev then s2.noteFail o (s2.slotFail (if o = 0 then b.imgA else b.imgB)) else s2).haltKeep

/-- A keep core K1 to K7 whose start test found a fault: the foreman restarts it once (R21, R377); a core that has
faulted since the last reset stays stopped. -/
def State.keepTestFault (s : State) (k : Nat) : State :=
  let x := s.core k
  let again := decide (1 ≤ x.faults)
  (s.setCore k { x with faults := x.faults + 1, stopped := again }).raise 0 (k + 8 * bitVal (!again) + 256 * 4)

/-- A lane, framer or optics engine the start tests found faulty: the lowest good spare is mapped, or it stays unmapped. -/
def State.mapTested (s : State) (bad : List Nat) (e : Nat) : State :=
  match (List.range 8).find? fun i => !bad.contains (88 + i) && !s.flag Reg.GLB.ENG_SPARE_MAP.MAPPED i with
  | some i => ((s.wr Reg.GLB.ENG_SPARE_MAP.LOGICAL e i).wr Reg.GLB.ENG_SPARE_MAP.MAPPED 1 i).engineEvent e 4 (some i)
  | none => (s.setEngMap e .unmapped).engineEvent e 4 none

/-- A spare the start tests found faulty leaves the pool; the engine it replaced since the last reset takes another. -/
def State.spareTested (s : State) (bad : List Nat) (i : Nat) : State :=
  let s1 := s.setEngMap (88 + i) .unmapped
  if s.flag Reg.GLB.ENG_SPARE_MAP.MAPPED i then
    (s1.wr Reg.GLB.ENG_SPARE_MAP.MAPPED 0 i).mapTested bad (s.rd Reg.GLB.ENG_SPARE_MAP.LOGICAL i)
  else s1

/-- The start tests (R20, R31, R406): bank checkers, and engines, for which the lowest good spares are mapped. Spares
taken out of the pool are tested again; a mapping of this reset lasts. -/
def State.startTests (s : State) (b : BootIn) : State :=
  let bad := (List.range 96).filter fun e => b.badEng.any fun x => x.val == e
  let s0 : State := { s with engMap := s.engMap.filter fun (p : Nat × EngMap) => decide (p.1 < 88) }
  let s1 := ((s0.wr Reg.HOD.STAT.CHK_FAIL b.chkFail.toNat).wr Reg.HOD.ECC_TEST.DONE 1).wr Reg.HOD.ECC_TEST.BANK_PASS
    (255 - b.chkFail.toNat)
  let s2 := if b.chkFail = 0 then s1 else s1.raise 12 b.chkFail.toNat
  let s3 := bad.foldl (fun (t : State) (e : Nat) => (t.wr Reg.HOD.ENG_ECC_FAIL.FAIL 1 e 0 |>.wr Reg.ENG.STAT.LAST_CAUSE 4 e)) s2
  bad.foldl (fun (t : State) (e : Nat) =>
    if 88 ≤ e then t.spareTested bad (e - 88)
    else if e = 80 then t
    else if 80 < e then t.keepTestFault (e - 80)
    else if t.engMapOf e != .running || (List.range 8).any fun i =>
        t.flag Reg.GLB.ENG_SPARE_MAP.MAPPED i && t.rd Reg.GLB.ENG_SPARE_MAP.LOGICAL i == e then t
    else t.mapTested bad e) s3

/-- What of MRAM fails its CRC at a start: such a seed is not valid (R94), such a retire map counts as empty (R120). -/
def State.readMram (s : State) (b : BootIn) : State :=
  { s with
    seeds := s.seeds.map fun (p : Nat × Option Seed) =>
      if b.badSeeds.any fun x => x.val == p.1 then (p.1, p.2.map fun v => { v with crcOk := false }) else p
    retire := s.retire.filter fun (p : Nat × List Nat) => !b.badMaps.any fun x => x.val == p.1 }

/-- A field-repair overlay whose CRC fails at the start of the hod is ignored and cleared (R403). -/
def State.readOverlay (s : State) (b : BootIn) : State :=
  if b.badOverlay then
    ({ s with hod := { s.hod with overlay := [], saved := [], rowSpares := [], colSpares := [] } } : State).wr
      Reg.HOD.REPAIR_STAT.OVERLAY_BAD 1
  else s

/-- The start from its first step (R448): the newest record is found, the tests run, the slot is chosen. -/
def State.boot (s : State) (b : BootIn) (p : Phase) : State :=
  let rec_ := newestRecord b
  let s1 : State := { s with
    phase := p, therm := { s.therm with tripL := false }
    upd := { s.upd with record := rec_.map fun x => x.1, copy := match rec_ with | some x => x.2 | none => 1 } }
  let s2 := (s1.readMram b).clearRegs 0x4004 0x4008
  let s3 := s2.wr Reg.UPD.RECORD.SEQ (match rec_ with | some x => x.1.seq | none => 0)
  (s3.startTests b).chooseSlot b

/-- The straps are sampled (R519). -/
def State.sampleStrap (s : State) (b : BootIn) : State :=
  ({ s with twin := { s.twin with strap := b.strap.val } } : State).wr Reg.FLK.TWIN_STAT.ROLE_STRAP b.strap.val

/-- At cold reset the foreman loads the newest trip record from MRAM, where none has been latched since (R438). -/
def State.loadTrip (s : State) : State :=
  match s.therm.mram with
  | r :: _ =>
    if s.therm.latched.isSome ∨ s.flag Reg.THM.STAT.TRIP_VALID then s
    else
      ((((s.wr Reg.THM.TRIP_INFO.READING r.reading).wr Reg.THM.TRIP_INFO.SENSOR r.sensor).wr Reg.THM.TRIP_INFO.COUNT
        (min 255 r.count)).wr Reg.THM.TRIP_INFO.TIME r.timeMs).wr Reg.THM.STAT.TRIP_FROM_MRAM 1
  | [] => s

/-- A reset ends: the device starts, or the reset is held while a sensor is too hot (R437). -/
def State.leaveReset (s : State) (b : BootIn) : State :=
  if s.tooHot then { s with phase := .heldHot } else (((s.sampleStrap b).loadTrip).readOverlay b).boot b .booting

/-- PERST_RELEASE (R448). -/
def execPerstRelease (b : BootIn) (s : State) : Host.Outcome State Fault Refusal :=
  .next (if s.phase = .inReset then s.leaveReset b else s)

/-- SUPPLY_RESTORED (R509): every rail has been in range for 1 ms. -/
def execSupplyRestored (b : BootIn) (s : State) : Host.Outcome State Fault Refusal :=
  .next (if s.phase = .brownout then s.leaveReset b else s)

/-- RESET_HOLD_RELEASE (R437): every sensor has re-armed. -/
def execResetHoldRelease (b : BootIn) (s : State) : Host.Outcome State Fault Refusal :=
  .next (if s.phase = .heldHot then s.leaveReset b else s)

/-- The trip record as one number, as `TRIP_INFO` lays it out. -/
def State.tripInfo (s : State) : Nat :=
  s.rd Reg.THM.TRIP_INFO.READING + 65536 * s.rd Reg.THM.TRIP_INFO.SENSOR + 2 ^ 24 * s.rd Reg.THM.TRIP_INFO.COUNT +
    2 ^ 32 * s.rd Reg.THM.TRIP_INFO.TIME

/-- Doorbells the capture held are judged with every ring disabled: all are dropped (R301). -/
def State.judgeDoorbells (s : State) : State :=
  s.doorHeld.foldl (fun (t : State) (p : Nat × Nat) => t.dropDoorbell (p.2 - 1) p.1) { s with doorHeld := [] }

/-- DEVICE_READY (R415, R438, R448, R504): CORE serves; FLK is on for a device of a pair; a PRIMARY, and a device with
no twin, raises its TWIN_SEL levels (R271, R482). -/
def execDeviceReady (s : State) : Host.Outcome State Fault Refusal :=
  .next (
    if s.phase ≠ .booting ∧ s.phase ≠ .waking then s
    else
      let s1 : State := { s with
        phase := .active
        twin := { s.twin with readyAt := s.time, lastHb := s.time }
        upd := { s.upd with trialStart := s.time, bootTrialEnd := s.time + 180000000000, faulted := false } }
      let s2 := (((s1.wr Reg.SEC.BOOT_STAT.READY 1).wr Reg.HOD.STAT.READY 1).wr Reg.HOD.STAT.SELF_REFRESH 0).wr
        Reg.HOD.REPAIR_STAT.ENTRIES s1.hod.overlay.length
      let s3 := if s2.twin.strap ≠ 0 then (s2.setFlk true).flkTestSettle else s2
      let s4 := s3.judgeDoorbells.judgeHeldAll
      let s5 := if s4.flag Reg.THM.STAT.TRIP_VALID then s4.raise 9 s4.tripInfo else s4
      let s6 := (List.range 8).foldl (fun (t : State) (c : Nat) =>
        if t.twin.strap = 2 then t.remodel c else t.setOwnSel c true) s5
      s6.ladderResumeAll)

/-! ## D_KEEP (R420) -/

/-- PF0 is in D3hot and nothing is in flight: rings and sessions are reset, and CORE goes off. -/
def State.enterDKeep (s : State) : State := { (s.coreDown true).wr Reg.SEC.BOOT_STAT.READY 0 with phase := .dkeep }

/-- D_KEEP_ENTRY (R420): a transition in flight ends first; power commands meanwhile find the device busy. -/
def execDKeepEntry (s : State) : Host.Outcome State Fault Refusal :=
  .next (
    if !s.coreOn then s
    else if s.pwr.trans.isSome || !s.pwr.offNow.isEmpty then { s with pwr := { s.pwr with d3Wait := true } }
    else s.enterDKeep)

/-- D_KEEP_EXIT (R415, R420): PF0 returns to D0 and the device starts anew, its straps as they were and every pad latched
at its reset level; the hold of R481 belongs to cold and warm resets. K0 starts from ROM (R22), and every engine is
loaded anew. -/
def execDKeepExit (b : BootIn) (s : State) : Host.Outcome State Fault Refusal :=
  .next (
    if s.phase = .dkeep then
      let s1 : State := { s with
        twin := { s.twin with holdOver := true }
        pwr := { s.pwr with heldC := [], heldQ := [], latch := [] }
        cores := s.cores.filterMap fun (p : Nat × CoreX) =>
          if p.2.faults = 0 then none else some (p.1, { faults := p.2.faults })
        eng := [] }
      (((s1.clearRegs 0x1A00000 0x1A20000).wr Reg.FLK.TWIN_STAT.ROLE_STRAP s.twin.strap).boot b .waking).startSubst 96
    else s)

/-- POWER_TRANSITION_END (R416): a course being taken off at once is off, or the transition in flight ends. `pll`: its
reference clock is there; `cal`: the first calibration of the eight lanes. An entry to D_KEEP that waited goes on. -/
def execPowerTransitionEnd (pll : Bool) (cal : List FirstCal) (s : State) : Host.Outcome State Fault Refusal :=
  .next (
    if !s.coreOn then s
    else
      let s1 := s.powerEnd pll cal
      if s1.pwr.d3Wait && s1.pwr.trans.isNone && s1.pwr.offNow.isEmpty then s1.enterDKeep else s1)

/-! ## The PCIe link (R291, R497, R498) -/

/-- PCIE_LINK_TRAINED: speed code of `GLB.LINK`, lanes, FLIT mode. -/
def execPcieLinkTrained (speed width : Nat) (flit : Bool) (s : State) : Host.Outcome State Fault Refusal :=
  .next (
    if s.phase = .inReset ∨ s.phase = .heldHot ∨ s.phase = .brownout ∨ s.phase = .shutdown then s
    else
      let old := s.flag Reg.GLB.LINK.DEGRADED
      let deg := decide (speed < 3) || decide (width < 16)
      let s1 := (((s.wr Reg.GLB.LINK.SPEED speed).wr Reg.GLB.LINK.WIDTH width).wrB Reg.GLB.LINK.FLIT flit).wrB
        Reg.GLB.LINK.DEGRADED deg
      let s2 := if deg = old then s1 else s1.wr Reg.GLB.LINK.DEG_CHG 1
      s2.raiseRise old deg 14 (speed % 8 + 8 * (width % 32) + 256 * bitVal flit + 512 * bitVal deg))

/-! ## Test access port (R475 to R477) -/

/-- What an instruction in the TAP's register does now: private instructions are BYPASS outside VENDOR_TEST and RETURN,
and while CORE is on nothing drives the balls. -/
def State.tapDecode (s : State) (i : TapIns) : TapIns :=
  match i with
  | .privateTest => if s.lc = 0 ∨ s.lc = 3 then i else .bypass
  | .extest | .extestPulse | .extestTrain | .highz => if s.coreOn then .bypass else i
  | _ => i

/-- TAP_INSTRUCTION (R476, R477): the instruction register is loaded; IDCODE shows the device's code. -/
def execTapInstruction (i : TapIns) (s : State) : Host.Outcome State Fault Refusal :=
  .next (
    let d := s.tapDecode i
    let s1 : State := { s with tapIr := d }
    match d with
    | .idcode => s1.emit (.tap "IDCODE" 0x1644856B)
    | .bypass => s1.emit (.tap "BYPASS" 0)
    | .samplePreload => s1.emit (.tap "SAMPLE/PRELOAD" 0)
    | .extest => s1.emit (.tap "EXTEST" 0)
    | .extestPulse => s1.emit (.tap "EXTEST_PULSE" 0)
    | .extestTrain => s1.emit (.tap "EXTEST_TRAIN" 0)
    | .highz => s1.emit (.tap "HIGHZ" 0)
    | .privateTest => s1.emit (.tap "PRIVATE" 0))

end Sys2Proof.Machine
end

