-- ==== Sys2Proof/Machine/Thermal.lean ====
section
/-! DEFINITION. Temperature sensors, thresholds, thermal shutdown and the trip record (15_power_and_thermal, R425 to
R429, R436 to R438). -/

namespace Sys2Proof.Machine

/-! ## Events and conditions -/

def State.sensorOf (s : State) (t : Nat) : SensorX := Tab.get {} s.therm.sensor t

def State.setSensor (s : State) (t : Nat) (x : SensorX) : State :=
  { s with therm := { s.therm with sensor := Tab.set {} s.therm.sensor t x } }

/-- The OR of the WARN conditions of T00 to T19 whose scope holds course c (R429). -/
def State.warnOf (s : State) (c : Nat) : Bool :=
  (List.range 20).any fun t => inScope t c && s.flag Reg.THM.SENSOR.WARN t

/-- The OR of the WARN and THROTTLE conditions of T20 to T23 (R429). -/
def State.globalHot (s : State) : Bool :=
  (List.range 24).any fun t => decide (20 ≤ t) && (s.flag Reg.THM.SENSOR.WARN t || s.flag Reg.THM.SENSOR.THROTTLE t)

/-- Courses in a sensor's scope, in order. -/
def scopeOf (t : Nat) : List Nat := (List.range 8).filter fun c => inScope t c

/-- A sensor fails (R426): it takes no further part in any comparison, so its conditions end. -/
def State.sensorFail (s : State) (t : Nat) : State :=
  let s1 := ((((s.wr Reg.THM.SENSOR.FAIL 1 t).wr Reg.THM.STAT.SENSOR_FAIL
    (putBits (s.rd Reg.THM.STAT.SENSOR_FAIL) t 1 1)).wr Reg.THM.SENSOR.WARN 0 t).wr Reg.THM.SENSOR.THROTTLE 0 t).wr
      Reg.THM.SENSOR.SHUTDOWN 0 t
  let s2 := (s1.wr Reg.THM.SENSOR.FAST 0 t).setSensor t { seen := true }
  if 20 ≤ t then s2.raise 8 (t + 128)
  else (scopeOf t).foldl (fun (u : State) (c : Nat) => u.raise (courseSrc c 2) 0) s2

/-- One comparison of a condition: its state, its count and whether the comparison that would change it holds give the
new state and count; `need` consecutive samples change it (R427). -/
def dwellStep (need : Nat) (on : Bool) (n : Nat) (holds : Bool) : Bool × Nat :=
  if !holds then (on, 0) else if need ≤ n + 1 then (!on, 0) else (on, n + 1)

/-! ## Shutdown (R436, R438) -/

/-- The trip record is latched. -/
def State.latchTrip (s : State) (t : Nat) (reading : Nat) : State :=
  let n := s.therm.trips + 1
  let r : TripRec := ⟨t, reading, s.time / 1000000, n⟩
  let s1 : State := { s with therm := { s.therm with trips := n, latched := some r, copyDue := true, tripL := true } }
  (((((s1.wr Reg.THM.TRIP_INFO.READING reading).wr Reg.THM.TRIP_INFO.SENSOR t).wr Reg.THM.TRIP_INFO.COUNT (min 255 n)).wr
    Reg.THM.TRIP_INFO.TIME r.timeMs).wr Reg.THM.STAT.TRIP_VALID 1).wr Reg.THM.STAT.TRIP_FROM_MRAM 0

/-- Every transition in flight is pre-empted (R418, R436). -/
def State.preemptAll (s : State) : State :=
  let s1 := s.abortTransition
  (s1.pwr.offNow.flatMap fun p => p.2).foldl (fun (t : State) (o : Origin) => t.finishSt o .aborted)
    { s1 with pwr := { s1.pwr with offNow := [] } }

/-- Every TWIN_SEL falls; a HEARTBEAT that yields every owned course is queued where the link runs. -/
def State.yieldAll (s : State) : State :=
  let owned := (List.range 8).filter fun c => s.owns c && s.ownSel c
  let m := owned.foldl (fun (v : Nat) (c : Nat) => v + 2 ^ c) 0
  let s1 := (List.range 8).foldl (fun (t : State) (c : Nat) => t.courseYield c) s
  if s.linkOn ∧ s.twin.strap ≠ 0 then s1.filkorQueued.emit (.filkorBlock (heartbeatBlock ((s.twin.hbCount + 1) % 256)
    (courseMask s1.owns) m (courseMask s1.warm) s.twinState)) else s1

/-- Autonomous thermal shutdown (R436). In reset there is nothing left to power down, and a device that has shut down
stays so (R437). -/
def State.thermalShutdown (s : State) (t reading : Nat) : State :=
  let s1 := s.latchTrip t reading
  match s.phase with
  | .inReset | .heldHot | .brownout => s1.biasThermOff
  | _ =>
    let s2 := (s1.preemptAll.stopTests fun _ => true).yieldAll
    let s3 := s2.biasThermOff.coreDown false
    { s3 with phase := .shutdown, pwr := { s3.pwr with hiZ := true } }

/-! ## Samples (R426, R427, R429, R432) -/

/-- One sample of a working sensor. -/
def State.sensorSample (s : State) (t : Nat) (v : Int) : State :=
  let x := s.sensorOf t
  let need := s.rd Reg.THM.CTRL.DWELL + 1
  let warn : Int := 5 * s.rd Reg.THM.THRESH.WARN
  let thr : Int := 5 * s.rd Reg.THM.THRESH.THROTTLE
  let shut : Int := 5 * s.rd Reg.THM.THRESH.SHUTDOWN
  let w := s.flag Reg.THM.SENSOR.WARN t
  let h := s.flag Reg.THM.SENSOR.THROTTLE t
  let d := s.flag Reg.THM.SENSOR.SHUTDOWN t
  let (w', wn) := dwellStep need w x.warnCnt
    (if w then decide (v ≤ warn - 5 * s.rd Reg.THM.THRESH.WARN_HYS) else decide (warn < v))
  let (h', hn) := dwellStep need h x.thrCnt
    (if h then decide (v ≤ thr - 5 * s.rd Reg.THM.THRESH.THR_HYS) else decide (thr < v))
  let (d', dn) := dwellStep need d x.shutCnt (if d then decide (v < shut - 150) else decide (shut < v))
  let raw := patternOf v 16
  let s1 := ((s.setSensor t { warnCnt := wn, thrCnt := hn, shutCnt := dn, seen := true }).wr Reg.THM.SENSOR.READING raw
    t).countWrap Reg.THM.SENSOR.SEQ 1 t
  let s2 := (((s1.wrB Reg.THM.SENSOR.WARN w' t).wrB Reg.THM.SENSOR.THROTTLE h' t).wrB Reg.THM.SENSOR.SHUTDOWN d' t).wrB
    Reg.THM.SENSOR.FAST (decide (thr - 50 < v) || decide (shut - 50 < v)) t
  let s3 := (scopeOf t).foldl (fun (u : State) (c : Nat) =>
    u.raiseRise (s.warnOf c) (s2.warnOf c) (courseSrc c 2) 0) s2
  let s4 := s3.raiseRise s.globalHot s2.globalHot 8 (t + 32 * bitVal w' + 64 * bitVal h')
  let s5 := if !h && h' then (scopeOf t).foldl (fun (u : State) (c : Nat) => u.ladderDue c t) s4 else s4
  let s6 := if decide (8 ≤ t) && decide (t < 16) && s5.courseOn (t - 8) then s5.calTriggers (t - 8) else s5
  if !d && d' && s6.phase != .shutdown then s6.thermalShutdown t raw else s6

/-- SENSOR_SAMPLE (R426): sensor, reading in 0.1 °C, and whether its count was outside the plausibility range. -/
def execSensorSample (t : SensorNo) (v : Int) (bad : Bool) (s : State) : Host.Outcome State Fault Refusal :=
  .next (
    if s.flag Reg.THM.SENSOR.FAIL t.val then s
    else
      let last := signedOf (s.rd Reg.THM.SENSOR.READING t.val) 16
      if bad || ((s.sensorOf t.val).seen && decide (100 < (v - last).natAbs)) then s.sensorFail t.val
      else s.sensorSample t.val v)

/-! ## Thresholds (R428) -/

/-- Every dwell count restarts from zero. -/
def State.restartDwell (s : State) : State :=
  (List.range 24).foldl (fun (u : State) (t : Nat) => u.setSensor t { seen := (u.sensorOf t).seen }) s

/-- The thresholds of a write satisfy R428. -/
def thresholdsOk (warn thr shut : Nat) : Bool :=
  decide (120 ≤ warn) && decide (warn < thr) && decide (thr < shut) && decide (shut ≤ 240) && decide (140 ≤ thr) &&
    decide (200 ≤ shut)

/-- A write of `THM.THRESH`: dropped in full where it breaks R428, and without effect under `THM.CTRL.LOCK`. -/
def State.threshWrite (s : State) (v : Nat) : State :=
  if s.flag Reg.THM.CTRL.LOCK then s
  else if !thresholdsOk (bitsOf v 0 8) (bitsOf v 8 8) (bitsOf v 16 8) then s.wr Reg.THM.STAT.THR_REJECT 1
  else
    (((((s.wr Reg.THM.THRESH.WARN (bitsOf v 0 8)).wr Reg.THM.THRESH.THROTTLE (bitsOf v 8 8)).wr Reg.THM.THRESH.SHUTDOWN
      (bitsOf v 16 8)).wr Reg.THM.THRESH.WARN_HYS (bitsOf v 24 4)).wr Reg.THM.THRESH.THR_HYS (bitsOf v 28 4)).restartDwell

/-- THRESH_WRITE (R428). -/
def execThreshWrite (f : FnNo) (v : Word) (s : State) : Host.Outcome State Fault Refusal :=
  .next (if f.val ≠ 0 then s
    else s.regAccess Reg.THM.THRESH.WARN 0 0 true fun s => s.threshWrite v.toNat)

/-! ## The trip record (R438) -/

/-- TRIP_RECORD_COPY (R438): K0 copies the record into MRAM once the NVM window permits; it keeps the last 8. -/
def execTripRecordCopy (s : State) : Host.Outcome State Fault Refusal :=
  .next (
    match s.therm.latched with
    | some r =>
      if s.therm.copyDue && s.nvmOpen && s.coreRuns 0 then
        { s with therm := { s.therm with mram := (r :: s.therm.mram).take 8, copyDue := false } }
      else s
    | none => s)

end Sys2Proof.Machine
end

