-- ==== Sys2Proof/Machine/TwinLink.lean ====
section
/-! DEFINITION. The Filkor link and the twin states (10_twin_pairing): bring-up and low power (R265 to R268), CAPS and
the transfer of mirrored sets at PAIRING (R273, R277, R281), heartbeats, silence and leases (R272, R282 to R284), the
levels of TWIN_SEL (R270, R271), and the standby's transmit timing (R276, R285). -/

namespace Sys2Proof.Machine

/-! ## Bring-up (R265, R266) -/

def State.linkState (s : State) : Nat := s.rd Reg.FLK.STAT.LINK_STATE

/-- FILKOR_DETECT_PROBE (R265): `far` has a bit for each lane whose far termination is there; with all eight the link
enters TRAIN. -/
def execFilkorDetectProbe (far : BitVec 8) (s : State) : Host.Outcome State Fault Refusal :=
  .next (
    if !s.linkOn || !s.k3On || s.linkState != 0 then s
    else
      let s1 := (List.range 8).foldl (fun (t : State) (i : Nat) =>
        t.wrB Reg.FLK.LANE_STAT.LOS (!bitOf far.toNat i) i) s
      if far = 255 then s1.linkTo 1 else s1)

/-- FILKOR_BITLOCK (R264, R265): every lane has set READY and received it; the first DFE taps are free values. -/
def execFilkorBitlock (s : State) : Host.Outcome State Fault Refusal :=
  .next (
    if !s.linkOn || !s.k3On || s.linkState != 1 then s
    else
      (List.range 8).foldl (fun (t : State) (i : Nat) =>
        ((t.wr Reg.FLK.LANE_STAT.CDR_LOCK 1 i).wr Reg.FLK.LANE_STAT.DFE_TAP1 t.free i).freed) (s.linkTo 2))

/-- The capability frame of this device (R4, R273): grade, silicon revision, role, running version, the mirror formats it
supports, the round-trip time, which the ACK exchange of CAPS measures (a free value), and the courses whose engine it
sees on its own side (R270). -/
def State.ownCaps (s : State) : CapsFrame where
  grade := s.rd Reg.GLB.CAP.GRADE
  rev := s.rd Reg.GLB.ID.REV_MAJOR + 16 * s.rd Reg.GLB.ID.REV_MINOR
  role := if s.twin.strap = 1 then 1 else if s.twin.strap = 2 then 2 else 0
  version := s.upd.running.version
  mirrorHi := (Config.mirrorFormats s.upd.running.version).1
  mirrorLo := (Config.mirrorFormats s.upd.running.version).2
  rtt := s.free
  view := BitVec.ofNat 8 ((List.range 8).foldl (fun (v c : Nat) => v + bitVal (s.owns c) * 2 ^ c) 0)

/-- The device sends its capability frame. -/
def State.sendCaps (s : State) : State := s.freed.emit (.caps s.ownCaps)

/-- FILKOR_BLOCKLOCK (R262, R265): sync headers and an ALIGN block on every lane, with at most 32 blocks of skew removed;
the link goes on to CAPS, where the device sends its capability frame. -/
def execFilkorBlocklock (skew : List Nat) (s : State) : Host.Outcome State Fault Refusal :=
  .next (
    if !s.linkOn || !s.k3On || s.linkState != 2 || skew.any fun v => decide (32 < v) then s
    else
      (List.range 8).foldl (fun (t : State) (i : Nat) =>
        (t.wr Reg.FLK.LANE_STAT.BLOCK_LOCK 1 i).wr Reg.FLK.LANE_STAT.SKEW (skew.getD i 0) i) (s.linkTo 4).sendCaps)

/-- FILKOR_TRAIN_TIMEOUT (R265): 500 ms in TRAIN without step 5; the link restarts from DETECT. -/
def execFilkorTrainTimeout (s : State) : Host.Outcome State Fault Refusal :=
  .next (
    if !s.linkOn || !s.k3On || !(s.linkState == 1 || s.linkState == 2) then s
    else ((s.upTo (s.twin.trainAt + 500000000)).linkTo 0).count Reg.FLK.STAT.RETRIES)

/-- BLOCK_LOCK_LOSS (R266): lane i has lost block lock, with `hdr` invalid headers seen, and the whole link goes back to
TRAIN. -/
def execBlockLockLoss (i : Fin 8) (hdr : Nat) (s : State) : Host.Outcome State Fault Refusal :=
  .next (
    if !s.linkOn || !(decide (3 ≤ s.linkState) && decide (s.linkState ≤ 5)) then s
    else (s.count Reg.FLK.LANE_STAT.HDR_ERR hdr i).linkTo 1)

/-- FAR_TERMINATION_LOSS (R265): a far termination disappears and the link returns to DETECT. -/
def execFarTerminationLoss (i : Fin 8) (s : State) : Host.Outcome State Fault Refusal :=
  .next (
    if !s.linkOn || s.linkState == 0 || s.linkState == 6 then s
    else (s.linkTo 0).wr Reg.FLK.LANE_STAT.LOS 1 i)

/-- A write of 1 to `RETRAIN` (R266, R273): the link goes back to TRAIN, and CAPS runs anew. -/
def State.retrain (s : State) : State :=
  if s.linkOn && decide (2 ≤ s.linkState) && decide (s.linkState ≤ 5) then
    ({ s with twin := { s.twin with capsDue := true } } : State).linkTo 1
  else s

/-- FILKOR_RETRAIN (R266). -/
def execFilkorRetrain (s : State) : Host.Outcome State Fault Refusal :=
  .next (s.regAccess Reg.FLK.CTRL.RETRAIN 0 0 true fun s => s.retrain)

/-! ## Low power (R267) -/

/-- FL1_ENTRY: an ACTIVE link has had nothing but IDLE to send for 500 ns. -/
def execFl1Entry (s : State) : Host.Outcome State Fault Refusal :=
  .next (
    if s.linkOn && s.linkState == 5 && s.flag Reg.FLK.CTRL.FL1_EN && s.rd Reg.FLK.STAT.LP_STATE == 0 then
      (s.upTo (s.twin.lastQueued + 500)).wr Reg.FLK.STAT.LP_STATE 1
    else s)

/-- A write of 1 to `FL2_REQ`: taken only in SOLO with pairing off. -/
def State.fl2Enter (s : State) : State :=
  if s.twinState = 0 ∧ s.rd Reg.FLK.TWIN_CFG.EN = 0 ∧ s.rd Reg.FLK.STAT.LP_STATE ≠ 2 then
    let s1 : State := { s with twin := { s.twin with fl2Active := s.linkState == 5 } }
    ((s1.linkTo 0).wr Reg.FLK.CTRL.FL2_REQ 1).wr Reg.FLK.STAT.LP_STATE 2
  else s

/-- A write of 0 to `FL2_REQ`: a link that went to FL2 from ACTIVE is ACTIVE again. -/
def State.fl2Leave (s : State) : State :=
  if s.rd Reg.FLK.STAT.LP_STATE = 2 then
    let s1 := (s.wr Reg.FLK.CTRL.FL2_REQ 0).wr Reg.FLK.STAT.LP_STATE 0
    let s2 := if s1.twin.fl2Active then
        (List.range 8).foldl (fun (t : State) (i : Nat) =>
          (t.wr Reg.FLK.LANE_STAT.CDR_LOCK 1 i).wr Reg.FLK.LANE_STAT.BLOCK_LOCK 1 i) (s1.linkTo 5)
      else s1
    ({ s2 with twin := { s2.twin with fl2Active := false } } : State).flkTestSettle
  else s

/-- FL2_ENTER (R267). -/
def execFl2Enter (s : State) : Host.Outcome State Fault Refusal :=
  .next (s.regAccess Reg.FLK.CTRL.FL2_REQ 0 0 true fun s => s.fl2Enter)

/-- FL2_EXIT (R267). -/
def execFl2Exit (s : State) : Host.Outcome State Fault Refusal :=
  .next (s.regAccess Reg.FLK.CTRL.FL2_REQ 0 0 true fun s => s.fl2Leave)

/-- A write of `v` to `FLK.CTRL` (R289). -/
def State.flkCtrlWrite (s : State) (v : Nat) : State :=
  let s1 := s.wrB Reg.FLK.CTRL.FL1_EN (bitOf v 1)
  let s2 := if !bitOf v 1 && s1.rd Reg.FLK.STAT.LP_STATE == 1 then s1.wr Reg.FLK.STAT.LP_STATE 0 else s1
  let s3 := if bitOf v 2 then s2.fl2Enter else s2.fl2Leave
  if bitOf v 0 then s3.retrain else s3

/-- A write of `v` to `FLK.PRBS_CTRL[i]` (R153, R154, R268): the blocks act, and bits are inverted, only in TEST. -/
def State.flkPrbsWrite (s : State) (i v : Nat) : State :=
  let s1 := ((s.wr Reg.FLK.PRBS_CTRL.PAT (bitsOf v 0 2) i).wr Reg.FLK.PRBS_CTRL.GEN_EN (bitsOf v 2 1) i).wr
    Reg.FLK.PRBS_CTRL.CHK_EN (bitsOf v 3 1) i
  let s2 := (s1.wr Reg.FLK.PRBS_CTRL.LOOP (bitsOf v 4 2) i).wr Reg.FLK.PRBS_CTRL.INJ_K (bitsOf v 6 6) i
  let s3 := if bitOf v 3 ∧ bitsOf v 0 2 = s.rd Reg.FLK.PRBS_CTRL.PAT i then s2
    else (s2.wr Reg.FLK.PRBS_CTRL.CHK_LOCK 0 i).setChk (192 + i) {}
  let s4 := s3.flkTestSettle
  let s5 := if bitOf v 12 ∧ s4.linkState = 6 ∧ bitOf v 2 ∧ bitsOf v 4 2 ≠ 2 then s4.emit (.injectBit 2 i) else s4
  if bitOf v 14 then s5.wr Reg.FLK.PRBS_ERR.COUNT 0 i else s5

/-! ## The mirrored set of a course (R277, R281) -/

/-- The registers CFG_WRITE reaches (R339), by the BAR0 offset of their first copy. -/
def cfgAddrs : List Nat :=
  [0x200000, 0x200008, 0x20000C, 0x200010, 0x200014, 0x20001C, 0x200024, 0x200028, 0x200610, 0x200618, 0x200200,
    0x200400, 0x20040C, 0x200800, 0x200804, 0x100200, 0x100300, 0x100504, 0x100600, 0x100700, 0x301000, 0x301008,
    0x301010, 0x301018, 0x360000, 0x360100, 0x36010C, 0x370000, 0x370008, 0x370400, 0x370600, 0x370A00, 0x378000,
    0x378100, 0x378104, 0x378108, 0xC00, 0xE00, 0xE04, 0xD00, 0x2000, 0x2100]

/-- A field CFG_WRITE writes (R339). -/
def cfgField (f : Fld) : Bool :=
  cfgAddrs.contains f.addr && (f.acc == .rw || f.acc == .rwl || f.acc == .wo || f.acc == .w1c) &&
    f != Reg.LN.TX_CTRL.FIR_COMMIT

/-- A configuration field that a set carries: what CFG_WRITE stores, the lane configuration, and what BIAS_SET records. -/
def setField (f : Fld) : Bool :=
  (cfgField f && (f.acc == .rw || f.acc == .rwl)) || f.addr == Reg.LN.FMT_CFG.MODE.addr ||
    f == Reg.LN.TX_CTRL.DRIVE || f == Reg.HL.STAT.RATE || f == Reg.BIAS.TARGET.CODE || f == Reg.BIAS.TARGET.RANGE ||
    f == Reg.BIAS.STAT.WRITTEN || f == Reg.BIAS.STAT.ENABLED

/-- The copies `i` of a block that belong to course c; decimation channels by their `COURSE` field. -/
def State.courseCopies (s : State) (b : Blk) (c : Nat) : List Nat :=
  match b with
  | .crs => [c]
  | .ln | .biasCh => courseLanes c
  | .hl => (List.range 16).map fun i => 16 * c + i
  | .decCh => (List.range 64).filter fun j => s.rd Reg.DEC.CFG.COURSE j == c
  | _ => []

/-- The fields of the set of course c, each with its copy and index. -/
def State.setSlots (s : State) (c : Nat) : List (Fld × Nat × Nat) :=
  [Blk.crs, Blk.ln, Blk.hl, Blk.biasCh, Blk.decCh].flatMap fun b =>
    (b.fields.filter fun f => setField f).flatMap fun f =>
      (s.courseCopies b c).flatMap fun i => (List.range f.jcnt).map fun j => (f, i, j)

/-- The set this device sends of a course it owns. -/
def State.mirrorSet (s : State) (c : CourseNo) : MirrorSet :=
  { course := c
    regs := (s.setSlots c.val).filterMap fun p =>
      let v := s.rd p.1 p.2.1 p.2.2
      if v = p.1.rst then none else some (p.1.key p.2.1 p.2.2, v)
    firs := (courseLanes c.val).map fun n => (s.txOf n).bank
    bank0 := (s.epochOf c.val).bank0, bank1 := (s.epochOf c.val).bank1
    pow := (match s.coursePow c.val with | .off => 0 | .idle => 1 | .on => 2)
    held := s.padHeldC c.val, quadOn := s.quadOn (c.val / 2), quadHeld := s.padHeldQ (c.val / 2) }

/-- A set's value of a field. -/
def setValue (m : MirrorSet) (f : Fld) (i j : Nat) : Nat := Tab.get f.rst m.regs (f.key i j)

/-- The configuration fields of a set are in force; bias fields are applied by `setBiases`. -/
def State.setFields (s : State) (m : MirrorSet) : State :=
  (s.setSlots m.course.val).foldl (fun (t : State) (p : Fld × Nat × Nat) =>
    if p.1.blk = .biasCh ∧ p.1.addr ≠ Reg.BIAS.CFG.RAMP.addr then t
    else t.wr p.1 (setValue m p.1 p.2.1 p.2.2) p.2.1 p.2.2) s

/-- The lanes of a set: one whose mode or constellation changes passes through ACQUIRE (R281). -/
def State.setLanes (s old : State) (m : MirrorSet) : State :=
  let s1 := (courseLanes m.course.val).zipIdx.foldl (fun (t : State) (p : Nat × Nat) =>
    let n := p.1
    let fresh := old.mode n != t.mode n || old.rd Reg.LN.FMT_CFG.CONST n != t.rd Reg.LN.FMT_CFG.CONST n
    if !fresh then t
    else
      let t1 := t.clearCounts n
      if t1.mode n = 0 then t1.setLane n 1
      else
        let t2 := (t1.txConfigure n (setValue m Reg.LN.TX_CTRL.DRIVE n 0) true (old.lane n == 1)).setFields m
        let t3 := if t2.mode n = 6 then t2.enterBurst n else t2.startAcquire n
        (t3.hostReconfigure (2 * n) old).hostReconfigure (2 * n + 1) old) s
  (courseLanes m.course.val).zipIdx.foldl (fun (t : State) (p : Nat × Nat) =>
    if t.mode p.1 = 0 then t
    else
      let b := eight (m.firs.getD p.2 [])
      (t.setTx p.1 { t.txOf p.1 with stage := b, pend := some (b, none) }).txCheck p.1) s1

/-- The bias channels of a set (R275): recorded ranges and codes, and which are enabled. Quench states stay (R277). -/
def State.setBiases (s : State) (m : MirrorSet) : State :=
  if !s.vbias || s.flag Reg.BIAS.STAT.THERM_OFF then s
  else
    (courseLanes m.course.val).foldl (fun (t : State) (b : Nat) =>
      let code := if t.biasQuenched b then 0 else setValue m Reg.BIAS.TARGET.CODE b 0
      let t1 := if setValue m Reg.BIAS.STAT.WRITTEN b 0 = 1 then
          t.biasWrite b (setValue m Reg.BIAS.TARGET.RANGE b 0) code
        else t
      if setValue m Reg.BIAS.STAT.ENABLED b 0 = 1 then
        (if t1.flag Reg.BIAS.STAT.ENABLED b then t1 else t1.biasEnable b)
      else if t1.flag Reg.BIAS.STAT.ENABLED b then t1.biasDisable b else t1) s

/-- First calibrations that all succeed (R126). -/
def goodCal : List FirstCal :=
  let zeros := fun (k : Nat) => List.replicate k [((0 : Int), (0 : Int))]
  List.replicate 8 ⟨true, List.replicate 68 (zeros 8), [zeros 1, zeros 128, zeros 128, zeros 1, List.replicate 2 [(3200, 3200)]]⟩

/-- The power state and pad latch of a set (R281, R341). -/
def State.setPower (s : State) (m : MirrorSet) : State :=
  let c := m.course.val
  let q := c / 2
  let s1 :=
    if c % 2 = 1 then s
    else
      let t := if m.quadOn = s.quadOn q then s else if m.quadOn then s.quadUp q else s.quadDown q
      t.setPadHeldQ q m.quadHeld
  let s2 :=
    if s1.domainState 1 c = m.pow.val then s1
    else if m.pow.val = 0 then s1.courseDown c
    else
      let t := if s1.coursePow c = .off then s1.courseUp c goodCal
        else if s1.coursePow c = .idle then s1.courseWake c else s1
      if m.pow.val = 1 then t.courseSleep c else t
  s2.setPadHeldC c m.held

/-- A course the twin owns takes the twin's set in full (R281). -/
def State.takeSet (s : State) (m : MirrorSet) : State :=
  let c := m.course.val
  if s.owns c then s
  else
    let s1 := s.setPower m
    let s2 := (s1.setFields m).setBiases m
    if s2.coursePow c = .off then s2
    else
      let s3 := s2.setLanes s1 m
      (s3.setEpoch c { s3.epochOf c with bank0 := m.bank0, bank1 := m.bank1 }).epochRefresh c

/-! ## Twin states (R273, R274, R281) -/

/-- The pair takes a state; while ownership moves it follows once the move ends (R274). -/
def State.pairTo (s : State) (st : Nat) : State :=
  if s.twinState = 4 then { s with twin := { s.twin with prev := st } } else s.twinTo st

/-- The twin state aside from a move in progress. -/
def State.pairState (s : State) : Nat := if s.twinState = 4 then s.twin.prev else s.twinState

/-- What CAPS finds wrong, codes of `SOLO_CAUSE` in their order of precedence (R273); 0: nothing. -/
def State.capsCause (s : State) (q : CapsFrame) : Nat :=
  let (hi, lo) := Config.mirrorFormats s.upd.running.version
  if q.grade ≠ s.rd Reg.GLB.CAP.GRADE then 2
  else if !((s.twin.strap == 1 && q.role.val == 2) || (s.twin.strap == 2 && q.role.val == 1)) then 3
  else if min hi q.mirrorHi < max lo q.mirrorLo then 4
  else 0

/-- CAPS succeeds: PAIRING, with the mirrored set of every course this device owns sent (R273, R281). -/
def State.startPairing (s : State) (q : CapsFrame) : State :=
  let s1 := (s.pairTo 1).wr Reg.FLK.TWIN_STAT.MIRROR_VER (min (Config.mirrorFormats s.upd.running.version).1 q.mirrorHi)
  let s2 : State := { s1 with twin := {
    s1.twin with capsFailed := false, lastHb := s1.time, nextSeq := 0, rxSeq := 0, outs := [] } }
  let s3 := if s2.twin.strap = 2 then
      (List.range 8).foldl (fun (t : State) (c : Nat) =>
        if bitOf q.view.toNat c && t.owns c then t.setOwnSel c false else t) s2
    else s2
  (List.finRange 8).foldl (fun (t : State) (c : CourseNo) =>
    if t.owns c.val then t.filkorQueued.emit (.mirrorSet (t.mirrorSet c)) else t)
      (s3.wr Reg.FLK.TWIN_STAT.TWIN_SILENT 0)

/-- CAPS fails: both devices stay SOLO (R273). -/
def State.capsFail (s : State) (cause : Nat) : State :=
  (({ s with twin := { s.twin with capsFailed := true } } : State).pairTo 0).wr Reg.FLK.TWIN_STAT.SOLO_CAUSE cause

/-- A capability frame is awaited (R273, R274): in CAPS, or on an ACTIVE link of a DEGRADED pair, or of a device in SOLO
after a change of its image. -/
def State.capsAwaited (s : State) : Bool :=
  s.linkState == 4 || (s.linkState == 5 && (s.pairState == 3 || (s.pairState == 0 && s.twin.capsDue)))

/-- CAPS_FRAME_RECEIVED (R273). Where CAPS runs anew on an ACTIVE link, the device sends its own frame now. -/
def execCapsFrameReceived (q : CapsFrame) (s : State) : Host.Outcome State Fault Refusal :=
  .next (
    if !s.linkOn || !s.k3On || !s.capsAwaited then s
    else
      let s0 := if s.linkState = 5 then s.sendCaps else s
      let s1 := (({ s0 with twin := { s0.twin with capsDue := false } } : State).linkTo 5).wr Reg.FLK.STAT.RTT q.rtt
      if s1.rd Reg.FLK.TWIN_CFG.EN = 0 then s1
      else
        let k := s1.capsCause q
        if k = 0 then s1.startPairing q else s1.capsFail k)

/-- PAIRING_TRANSFER_DONE (R281): every course has been transferred and acknowledged; `sets` are the twin's. -/
def execPairingTransferDone (sets : List MirrorSet) (s : State) : Host.Outcome State Fault Refusal :=
  .next (
    if !s.linkOn || !s.k3On || s.linkState != 5 || s.pairState != 1 then s
    else (sets.foldl (fun (t : State) (m : MirrorSet) => t.takeSet m) s).pairTo 2)

/-! ## Heartbeats, silence and leases (R272, R282 to R284) -/

/-- A HEARTBEAT is queued (R263): count, own and yielded and warm courses, twin state. -/
def State.heartbeat (s : State) : State :=
  let n := (s.twin.hbCount + 1) % 256
  let y := courseMask fun c => Tab.get false s.twin.yields c
  (({ s with twin := { s.twin with hbCount := n, yields := [] } } : State).filkorQueued).emit
    (.filkorBlock (heartbeatBlock n (courseMask s.owns) y (courseMask s.warm) s.twinState))

/-- The symbol position a lane stands at (R263): within the frame on an Isyon lane, and 0 elsewhere, where the model counts
whole blocks. -/
def State.symbolPos (s : State) (n : Nat) : Nat :=
  let p := (s.txOf n).path.pos
  if !isyon (s.mode n) then 0 else if s.rd Reg.LN.FMT_CFG.CONST n = 1 then p * 2 / 5 else p / 2

/-- The TX_TIME blocks of the lanes that transmit on the courses this device owns (R263, R276). -/
def State.txTimes (s : State) : List Out :=
  ((List.range 64).filter fun n => s.owns (courseOf n) && s.transmits n).map fun n =>
    .filkorBlock (txTimeBlock n (s.txOf n).frame (s.symbolPos n) (s.txOf n).phase)

/-- HEARTBEAT_SEND (R272, R282): K3 renews the lease of every course it keeps high, and outside SOLO sends a HEARTBEAT;
2 µs have passed since the last. The TX_TIME blocks go with it (DESIGN CHOICE, notes/assumptions/174). -/
def execHeartbeatSend (s : State) : Host.Outcome State Fault Refusal :=
  .next (
    if !s.k3On then s
    else
      let s1 := s.upTo (s.twin.hbSent + 2000)
      let s2 : State := { s1 with twin := {
        s1.twin with
        hbSent := s1.time
        lease := (List.range 8).foldl (fun (l : Tab Nat) (c : Nat) =>
          if s1.ownSel c then Tab.set 0 l c s1.time else l) s1.twin.lease } }
      if s2.twinState ≠ 0 ∧ s2.linkOn ∧ s2.linkState = 5 then s2.txTimes.foldl State.emit s2.heartbeat else s2)

/-- A handover's standby has raised its level (R285): with nothing to send, the owner lowers its own at once; otherwise
at the next boundary. -/
def State.handoverReady (s : State) (c : Nat) : State :=
  if s.twin.handovers.any (fun m => m.course == c) && s.sense c then
    if (courseLanes c).any fun n => s.transmits n then
      { s with twin := { s.twin with ready := Tab.set false s.twin.ready c true } }
    else s.setOwnSel c false
  else s

/-- An ARMED course the twin owns is released in PAIRING (R284); a takeover of it ends there. -/
def State.releaseArmed (s : State) (c : Nat) : State :=
  let ms := s.twin.takeovers.filter fun m => m.course == c
  let s1 := (ms.foldl (fun (t : State) (m : Move) => t.finish m.origin { st := .partialDone })
    { s with twin := { s.twin with takeovers := s.twin.takeovers.filter fun m => m.course != c } })
  (s1.setOwnSel c false).endMoves

/-- HEARTBEAT_RECEIVED (R282 to R285). -/
def execHeartbeatReceived (h : Heartbeat) (s : State) : Host.Outcome State Fault Refusal :=
  .next (
    if !s.linkOn || !s.k3On || s.linkState != 5 || s.twinState == 0 then s
    else
      let s1 := ({ s with twin := {
        s.twin with lastHb := s.time, peerWarm := h.warm.toNat } } : State).wr
          Reg.FLK.TWIN_STAT.TWIN_SILENT 0
      (List.range 8).foldl (fun (t : State) (c : Nat) =>
        let t1 := if bitOf h.yields.toNat c && t.flag Reg.FLK.TWIN_CFG.AUTO && !t.owns c then t.takeCourse c .device else t
        let t2 := if t1.pairState = 1 && t1.armed c && bitOf h.own.toNat c && !bitOf h.yields.toNat c then t1.releaseArmed c
          else t1
        t2.handoverReady c) s1)

/-- TWIN_SILENCE (R274, R282, R284): no valid HEARTBEAT for 6 µs. -/
def execTwinSilence (s : State) : Host.Outcome State Fault Refusal :=
  .next (
    if !s.k3On || s.twinState == 0 || s.flag Reg.FLK.TWIN_STAT.TWIN_SILENT then s
    else
      let s1 := ((s.upTo (s.twin.lastHb + 6000)).wr Reg.FLK.TWIN_STAT.TWIN_SILENT 1).twinDegrade 1
      let s2 := (s1.twin.handovers.foldl (fun (t : State) (m : Move) => t.finishSt m.origin .twinNotSynced)
        { s1 with twin := { s1.twin with handovers := [], ready := [] } }).endMoves
      if s2.flag Reg.FLK.TWIN_CFG.AUTO then
        (List.range 8).foldl (fun (t : State) (c : Nat) => if t.owns c then t else t.takeCourse c .device) s2
      else s2)

/-- LEASE_EXPIRY (R272): 20 µs without a renewal; the pad drives the level low. -/
def execLeaseExpiry (c : CourseNo) (s : State) : Host.Outcome State Fault Refusal :=
  .next (
    if s.ownSel c.val && !s.k3On then (s.upTo (Tab.get 0 s.twin.lease c.val + 20000)).setOwnSel c.val false else s)

/-! ## Levels (R270, R271, R481) -/

/-- TWIN_SENSE_CHANGE (R270): the twin's TWIN_SEL[c] has changed. -/
def execTwinSenseChange (c : CourseNo) (level : Bool) (s : State) : Host.Outcome State Fault Refusal :=
  .next (
    let s1 : State := { s with twin := {
      s.twin with
      sense := Tab.set false s.twin.sense c.val level
      senseLow := if level then s.twin.senseLow else Tab.set 0 s.twin.senseLow c.val s.time } }
    if s1.coreOn then s1.remodel c.val else if s1.twin.strap = 0 then s1 else s1.modelSide c.val)

/-- SECONDARY_SOLO_RAISE (R271, R481): TWIN_SENSE[c] of a SECONDARY in SOLO has stayed low for 100 µs. With pairing on
it waits for CAPS to fail or for the hold of R481 to end. -/
def execSecondarySoloRaise (c : CourseNo) (s : State) : Host.Outcome State Fault Refusal :=
  .next (
    if s.twin.strap = 2 && s.twinState == 0 && s.k3On && !s.sense c.val && !s.ownSel c.val &&
        (s.rd Reg.FLK.TWIN_CFG.EN == 0 || s.twin.capsFailed || s.twin.holdOver) then
      (s.upTo (Tab.get 0 s.twin.senseLow c.val + 100000)).setOwnSel c.val true
    else s)

/-- SECONDARY_HOLD_TIMEOUT (R481): 1 s after DEVICE_READY without an ACTIVE link. -/
def execSecondaryHoldTimeout (s : State) : Host.Outcome State Fault Refusal :=
  .next (
    if s.coreOn && s.twin.strap == 2 && s.rd Reg.FLK.TWIN_CFG.EN == 1 && s.twinState == 0 && s.linkState != 5 &&
        !s.twin.capsFailed && !s.twin.holdOver then
      let s1 := s.upTo (s.twin.readyAt + 1000000000)
      { s1 with twin := { s1.twin with holdOver := true } }
    else s)

/-! ## Transmit timing of the standby (R276) and boundaries (R285) -/

/-- What half of one unit of `RTT` (0.25 ns) is in 1/256 of the lane's symbol. -/
def State.halfTrip (s : State) (n : Nat) : Nat :=
  match s.mode n with
  | 1 => 1700
  | 4 => 7260
  | 5 => 5808
  | 6 => if s.rd Reg.LN.FMT_CFG.CONST n = 2 then 1815 else 3630
  | _ => 3630

/-- The owner's position in symbols and its phase in 1/128 UI, corrected for half the round trip of CAPS (R276). -/
def State.corrected (s : State) (n pos phase : Nat) : Nat × Nat :=
  let p := 256 * pos + 2 * phase + s.rd Reg.FLK.STAT.RTT * s.halfTrip n
  (p / 256, p % 256 / 2)

/-- TX_TIME_RECEIVED (R263, R276): the owner's frame count, position and phase of lane n, corrected for half the round
trip; the standby's lane and its interpolator are steered there. `near` is whether it now stands at the owner's
position, within ±0.05 UI of its phase. -/
def execTxTimeReceived (n : LaneNo) (fcount pos phase : Nat) (near : Bool) (s : State) :
    Host.Outcome State Fault Refusal :=
  .next (
    if !s.linkOn || !s.k3On || s.linkState != 5 || s.twin.strap == 0 || s.owns (courseOf n) || !s.transmits n then s
    else
      let q := s.corrected n pos phase
      let s0 := s.pathTo n fcount q.1
      let s1 := s0.setTx n { s0.txOf n with phase := q.2 }
      { s1 with twin := { s1.twin with aligned := Tab.set false s1.twin.aligned n.val near } })

/-- TX_BLOCK_BOUNDARY (R134 to R139, R144 to R146, R151, R285): a transmit block boundary of lane n; the block of 64
symbols goes out, and with it a block of each host lane of the bond (R219; notes/assumptions/173). A handover that is
ready lowers the level at a frame boundary, or at any block boundary outside the Isyon modes. -/
def execTxBlockBoundary (n : LaneNo) (m : HostBits) (s : State) : Host.Outcome State Fault Refusal :=
  .next (
    let c := courseOf n
    let s1 := (s.txBoundary n).pathArrive n m.a m.b
    let s2 := (s1.sendBlock n).hostBlocks n m
    if Tab.get false s2.twin.ready c && s2.transmits n && (s1.frameBegins n || !isyon (s2.mode n)) then
      s2.setOwnSel c false
    else s2)

/-- COURSE_PLL_FAILURE (R283): the PLL of a course, or its Cc.A, fails: the owner yields, and its lanes lose CDR lock. -/
def execCoursePllFailure (c : CourseNo) (s : State) : Host.Outcome State Fault Refusal :=
  .next (
    if !s.courseOn c.val then s
    else
      let s1 := if s.twin.strap != 0 && s.owns c.val then s.courseYield c.val else s
      (courseLanes c.val).foldl (fun (t : State) (n : Nat) => t.cdrLost n) s1)

end Sys2Proof.Machine
end

