-- ==== Sys2Proof/Machine/Mmio.lean ====
section
/-! DEFINITION. The address map of BAR0 (R490, R491) and what a read of a register returns (R8 to R10, R492 to R494):
where a register shows a piece of state that has its home elsewhere, the read computes it here. -/

namespace Sys2Proof.Machine

/-! ## The map (R490, R494) -/

/-- The block an offset lies in, with its copy where the block repeats at a stride of its own. -/
def blkAt (a : Nat) : Option (Blk × Option Nat) :=
  if a < 0x100000 then some (.glb, none)
  else if a < 0x180000 then some (.crs, some ((a - 0x100000) / 0x10000))
  else if a < 0x200000 then none
  else if a < 0x300000 then some (.ln, some ((a - 0x200000) / 0x4000))
  else if a < 0x340000 then
    let q := (a - 0x300000) / 0x10000
    let o := a % 0x10000
    if o < 0x1000 then some (.hq, some q)
    else if o < 0x9000 then some (.hl, some (32 * q + (o - 0x1000) / 0x400)) else none
  else if a < 0x360000 then
    if 0x340100 ≤ a ∧ a < 0x340200 then some (.flkLane, some ((a - 0x340100) / 0x20)) else some (.flk, none)
  else if a < 0x370000 then
    if 0x360100 ≤ a ∧ a < 0x360500 then some (.biasCh, some ((a - 0x360100) / 0x10)) else some (.bias, none)
  else if a < 0x374000 then some (.scv, some ((a - 0x370000) / 0x2000))
  else if a < 0x378000 then none
  else if a < 0x380000 then
    if 0x378100 ≤ a ∧ a < 0x378500 then some (.decCh, some ((a - 0x378100) / 0x10)) else some (.dec, none)
  else if a < 0x390000 then some (.hod, none)
  else if a < 0x3A0000 then some (.pmc, none)
  else if a < 0x3B0000 then some (.bist, none)
  else if a < 0x3C0000 then none
  else if a < 0x400000 then some (.ring, some ((a - 0x3C0000) / 0x40))
  else if a < 0x1000000 then none
  else if a < 0x1C00000 then some (.eng, some ((a - 0x1000000) / 0x20000))
  else none

/-- The copies, at a distance of `step` bits from `k0` on, that may reach into the dword at bit `w`. -/
def idxs (step cnt k0 w : Nat) : List Nat :=
  if step = 0 then [0]
  else
    let lo := (w - k0) / step
    ((List.range ((w + 31 - k0) / step + 1 - lo)).map fun i => lo + i).filter fun i => decide (i < cnt)

/-- A field, the copy of its block and the index inside it. -/
abbrev Slot' := Fld × Nat × Nat

/-- The slots of a field that reach into the dword at bit `w`. -/
def Fld.slots (f : Fld) (copy : Option Nat) (w : Nat) : List Slot' :=
  (match copy with
    | some i => (idxs f.jstep f.jcnt (f.key i 0) w).map fun j => (f, i, j)
    | none => (idxs f.istep f.icnt (f.key 0 0) w).map fun i => (f, i, 0)).filter fun p =>
    decide (f.key p.2.1 p.2.2 < w + 32) && decide (w < f.key p.2.1 p.2.2 + f.w)

/-- The slots of the dword at offset `d`; none: a reserved offset. -/
def slotsAt (d : Nat) : List Slot' :=
  match blkAt d with
  | none => []
  | some (b, copy) => b.fields.flatMap fun f => f.slots copy (8 * d)

/-- The lower half of a 64-bit register. -/
def isLo (d : Nat) : Bool :=
  match blkAt d with
  | some (.glb, _) => [0x208, 0x1800, 0x3418, 0x4010, 0x4018, 0x4408].contains d
  | some (.ln, _) =>
    [0x30, 0x38, 0x40, 0x410, 0x620, 0x628, 0x630, 0x638, 0x810, 0x818, 0x820, 0x828, 0xA00].contains (d % 0x4000)
  | some (.hl, _) => d % 0x400 == 0x20
  | some (.flkLane, _) => d % 0x20 == 8
  | some (.pmc, _) => decide (0x390800 ≤ d) && decide (d < 0x390900) && d % 8 == 0
  | some (.bist, _) => d == 0x3A0018 || d == 0x3A0020
  | some (.ring, _) => d % 0x40 == 0 || d % 0x40 == 8
  | some (.eng, _) =>
    let o := d % 0x20000
    o % 8 == 0 && ((decide (0x120 ≤ o) && decide (o < 0x140)) || (decide (0x200 ≤ o) && decide (o < 0x300)))
  | _ => false

/-! ## What registers show -/

/-- Whole seconds until a time, rounded up, at most `top`. -/
def State.secsTo (s : State) (t top : Nat) : Nat := min top ((t - s.time + 999999999) / 1000000000)

/-- A mask of the indices below `n` for which `p` holds. -/
def maskOf (n : Nat) (p : Nat → Bool) : Nat := (List.range n).foldl (fun (v i : Nat) => v + bitVal (p i) * 2 ^ i) 0

/-- The transition PWR.STAT shows (R440): domain type and index. -/
def State.busyDomain (s : State) : Option (Nat × Nat) :=
  match s.pwr.trans, s.pwr.offNow with
  | some t, _ => some (t.dtype, t.index)
  | none, (c, _) :: _ => some (1, c)
  | none, [] => none

/-- The code of a course in `PWR.DOMAIN` (R440). -/
def State.courseCode (s : State) (c : Nat) : Nat :=
  if s.inTransition 1 c || s.goingOff c then 3
  else
    match s.coursePow c with
    | .off => 0
    | .idle => 1
    | .on => 2

/-- Fields of the global block that show other state. -/
def State.seeGlb (s : State) (f : Fld) (i : Nat) : Nat :=
  if f = Reg.GLB.TIME.NS then s.time
  else if f = Reg.RING.AUTH.LOCK_LEFT then s.secsTo (s.fn i).lockUntil 127
  else if f = Reg.PWR.STAT.BUSY then bitVal s.busyDomain.isSome
  else if f = Reg.PWR.STAT.BUSY_DTYPE then (match s.busyDomain with | some p => p.1 | none => 0)
  else if f = Reg.PWR.STAT.BUSY_INDEX then (match s.busyDomain with | some p => p.2 | none => 0)
  else if f = Reg.PWR.STAT.PAD_HELD_C then maskOf 8 s.padHeldC
  else if f = Reg.PWR.STAT.PAD_HELD_Q then maskOf 4 s.padHeldQ
  else if f = Reg.PWR.DOMAIN.COURSE then (List.range 8).foldl (fun (v c : Nat) => v + s.courseCode c * 4 ^ c) 0
  else if f = Reg.PWR.DOMAIN.QUAD_ON then maskOf 4 s.quadOn
  else if f = Reg.PWR.DOMAIN.FLK_ON then bitVal s.pwr.flkOn
  else if f = Reg.THM.STAT.NVM_OK then bitVal s.nvmOpen
  else if f = Reg.UPD.STAT.WINDOW_LEFT then (if s.updState = 4 then s.secsTo s.upd.windowEnd 65535 else 0)
  else if f = Reg.EVT.STAT.HELD then bitVal (!s.held.isEmpty)
  else if f = Reg.SEC.KEYSLOTS.FULL then bitVal (s.keySlot i).isSome
  else if f = Reg.GLB.AVS_ADV.VALID then (if s.coreRuns 2 then s.rd f else 0)
  else s.rd f i

/-- Fields of a course block. -/
def State.seeCrs (s : State) (f : Fld) (c j : Nat) : Nat :=
  if f = Reg.CRS.CMIS_STAT.POLL_PAUSED then bitVal (s.pollPaused c)
  else if f = Reg.CRS.MOD_PINS.BALL_RESET then
    (if s.padHeldC c then bitVal (s.padLatch c).resetLow else s.rd Reg.CRS.MOD_PINS.RESET c)
  else if f = Reg.CRS.MOD_PINS.BALL_LPMODE then
    (if s.padHeldC c then bitVal (s.padLatch c).lpHigh else s.rd Reg.CRS.MOD_PINS.LPMODE c)
  else if f = Reg.CRS.MOD_PINS.HELD then bitVal (s.padHeldC c)
  else s.rd f c j

/-- The codes of `SLICE_INFO.STATE` (R133). -/
def sliceCode : SliceSt → Nat
  | .active => 0 | .queued => 1 | .cal => 2 | .ready => 3 | .shadow => 4 | .retired => 5

/-- Fields of `SLICE_INFO`, for the slice `SEL` names (R133); a slice that does not exist reads as zero. -/
def State.seeSlice (s : State) (f : Fld) (n : Nat) : Nat :=
  let i := s.rd Reg.LN.SLICE_CTRL.SEL n
  let x := s.slice n i
  if 67 < i then 0
  else if f = Reg.LN.SLICE_INFO.STATE then sliceCode x.st
  else if f = Reg.LN.SLICE_INFO.POS then (if x.st = .active then x.pos else 0)
  else if f = Reg.LN.SLICE_INFO.SUSPECT then bitVal x.suspect
  else if f = Reg.LN.SLICE_INFO.SUSPECT_RUN then x.run
  else if f = Reg.LN.SLICE_INFO.FROM_MAP then bitVal x.fromMap
  else if x.coeff then min 65535 ((s.time - x.calAt) / 1000000) else 65535

/-- Fields of a lane block: receive and slices. -/
def State.seeRx (s : State) (f : Fld) (n : Nat) : Nat :=
  if f = Reg.LN.FMT_CFG.CHASE_L then s.chaseL n
  else if f = Reg.LN.RX_STAT.SEED_VALID then bitVal (s.validSeed n).isSome
  else if f = Reg.LN.RX_STAT.FREEZE_CAUSE then s.freezeCause n
  else if f = Reg.LN.BST_STAT.RX_PHASE then
    (if s.rd f n = 5 ∧ (s.bstOf n).rearmAt < s.time then 1 else s.rd f n)
  else if f = Reg.LN.CDR.LOCK then s.rd Reg.LN.RX_STAT.CDR_LOCK n
  else if f = Reg.LN.FFE_CTRL.TAPS32 then bitVal (s.ladderStep (courseOf n) 2)
  else if f = Reg.LN.FFE_TAP.VALUE then patternOf ((s.rxOf n).bank.getD (s.rd Reg.LN.FFE_TAP.INDEX n) 0) 10
  else if f = Reg.LN.MLSE_CTRL.STATES8 then bitVal (s.ladderStep (courseOf n) 1)
  else if f = Reg.LN.CAL_STAT.DT_MAX then s.dtMax n
  else if f = Reg.LN.SLICE_STAT.SPARES then s.spares n
  else if f = Reg.LN.SLICE_STAT.ROTATING then bitVal (s.stopCause n == 0)
  else if f = Reg.LN.SLICE_STAT.STOP_CAUSE then s.stopCause n
  else if f = Reg.LN.SLICE_STAT.RETIRED then s.retired n
  else if f.addr = Reg.LN.SLICE_INFO.STATE.addr then s.seeSlice f n
  else if f = Reg.LN.CAL_STAT.FROZEN then s.rd Reg.GLB.BG_STAT.FREEZE
  else s.rd f n

/-- Fields of a lane block. -/
def State.seeLn (s : State) (f : Fld) (n j : Nat) : Nat :=
  let x := s.txOf n
  if f = Reg.LN.TX_STAT.IDLE_CAUSE then s.idleCause n
  else if f = Reg.LN.TX_STAT.FIR_PENDING then bitVal x.pend.isSome
  else if f = Reg.LN.TX_STAT.SKEW_SLEWING then bitVal (x.skew != s.skewTarget n)
  else if f = Reg.LN.TX_STAT.BOOST_MAX then boostMax (eight x.bank)
  else if f = Reg.LN.TX_FIR.VALUE then
    patternOf ((eight (if s.flag Reg.LN.TX_FIR.SRC n then x.stage else x.bank)).getD (s.rd Reg.LN.TX_FIR.INDEX n) 0) 10
  else if f.jcnt = 1 then s.seeRx f n
  else s.rd f n j

/-- Fields of the host-lane quads and host lanes. -/
def State.seeHost (s : State) (f : Fld) (i j : Nat) : Nat :=
  if f = Reg.HL.QUAD_STAT.PWR_ON then bitVal (s.quadOn i)
  else if f = Reg.HL.QUAD_STAT.PAD_HELD then bitVal (s.padHeldQ i)
  else if f = Reg.HL.QUAD_STAT.LOCKED then ((List.range 32).filter fun k => s.flag Reg.HL.STAT.SIG_LOCK (32 * i + k)).length
  else if f = Reg.HL.QUAD_LOCK.LANE then s.rd Reg.HL.STAT.SIG_LOCK (32 * i + j)
  else if f = Reg.HL.STAT.TX_SRC then s.hostTxSrc i
  else if f = Reg.HL.TX_EQ.VALUE then s.txEqRead i
  else s.rd f i j

/-- Fields of the twin and link block. -/
def State.seeFlk (s : State) (f : Fld) (i : Nat) : Nat :=
  if f = Reg.FLK.TWIN_STAT.SOLO_CAUSE then s.soloCause
  else if f = Reg.FLK.TWIN_COURSE.ACTIVE then bitVal (s.owns i)
  else if f = Reg.FLK.TWIN_COURSE.ARMED then bitVal (s.armed i)
  else if f = Reg.FLK.TWIN_COURSE.WARM then bitVal (s.warm i)
  else if f = Reg.FLK.TWIN_COURSE.TX_ALIGN then bitVal (s.txAligned i)
  else s.rd f i

/-- Fields of bias channels and supervisory converters. -/
def State.seeBias (s : State) (f : Fld) (i j : Nat) : Nat :=
  if f = Reg.BIAS.STAT.RAMPING then bitVal (s.biasRamping i)
  else if f = Reg.BIAS.STAT.PARKING then bitVal (s.biasParking i)
  else if f = Reg.BIAS.STAT.QUENCHED then bitVal (s.biasQuenched i)
  else if f = Reg.SCV.STAT.RUNNING then bitVal (s.scRunning i)
  else if f = Reg.SCV.STAT.REF_WAIT then bitVal (s.refWait i)
  else if f = Reg.SCV.STAT.INJ_H_BUSY then bitVal ((s.scvOf i).run == 1 || !(s.scvOf i).hostWait.isEmpty)
  else if f = Reg.SCV.STAT.INJ_S_BUSY then bitVal ((s.scvOf i).run == 2 || (s.scvOf i).sysDue)
  else s.rd f i j

/-- Fields of the hod, counter and test blocks. -/
def State.seeCore (s : State) (f : Fld) (i : Nat) : Nat :=
  if f = Reg.HOD.WRITTEN.GRANULE then (if 512 ≤ i ∧ s.hodOn then 1 else s.rd f i)
  else if f = Reg.PMC.DP_CNT.STAMP then s.time % 65536
  else if f = Reg.BIST.STAT.BUSY then bitVal (!s.tests.isEmpty)
  else if f = Reg.BIST.STAT.RUNS then s.tests.length
  else if f = Reg.BIST.STAT.BUSY_PART then maskOf 15 fun p => s.inTest (if p = 13 then 12 else p)
  else if f = Reg.BIST.BUSY_LANE.LANE then bitVal (s.inTest (64 + i))
  else s.rd f i

/-- Fields of a ring's context (R321). -/
def State.seeRing (s : State) (f : Fld) (r : Nat) : Nat :=
  let x := s.ring r
  let live := s.liveSession r
  if f = Reg.RING.STAT.EVT_OVF then bitVal (!x.pend.isEmpty)
  else if f = Reg.RING.STAT.IN_FLIGHT then min 65535 x.flights.length
  else if f = Reg.RING.SESSION.OPEN then bitVal live.isSome
  else if f = Reg.RING.SESSION.ROLE then (match live with | some v => v.role | none => 0)
  else if f = Reg.RING.SESSION.SLOT then (match live with | some v => v.slot | none => 0)
  else if f = Reg.RING.SESSION.CHALLENGE then
    bitVal (match x.nonce with | some v => decide (s.time < v.until_) | none => false)
  else if f = Reg.RING.SESSION.IDLE_LEFT then (match live with | some v => s.secsTo v.until_ 65535 | none => 0)
  else s.rd f r

/-- `ENG[e].STAT.RUN` (R19, R390): a spare engine runs only while it is mapped. -/
def State.engRun (s : State) (e : Nat) : Nat :=
  if 88 ≤ e then s.rd Reg.GLB.ENG_SPARE_MAP.MAPPED (e - 88)
  else
    match s.engMapOf e with
    | .unmapped => 3
    | .substituting => 0
    | .running => if !s.engPowered e then 0 else if (s.engOf e).asleep.isSome then 2 else 1

/-- Fields of an engine's debug window (R390). Only lane engines have a lane program. -/
def State.seeEng (s : State) (f : Fld) (e j : Nat) : Nat :=
  if f = Reg.ENG.STAT.RUN then s.engRun e
  else if f = Reg.ENG.PMC_CNT.STAMP then s.time % 65536
  else if 64 ≤ e ∧ 0x1000010 ≤ f.addr ∧ f.addr < 0x100001C then 0
  else s.rd f e j

/-- What a read of a field returns (R9): write-only fields read as zero. -/
def State.see (s : State) (f : Fld) (i j : Nat) : Nat :=
  if f.acc = .wo then 0
  else
    match f.blk with
    | .glb => s.seeGlb f i
    | .crs => s.seeCrs f i j
    | .ln => s.seeLn f i j
    | .hq | .hl => s.seeHost f i j
    | .flk => s.seeFlk f i
    | .bias | .biasCh | .scv => s.seeBias f i j
    | .hod | .pmc | .bist => s.seeCore f i
    | .ring => s.seeRing f i
    | .eng => s.seeEng f i j
    | .flkLane | .dec | .decCh => s.rd f i j

/-- A slot's share of the dword at bit `w`. -/
def State.slotBits (s : State) (w : Nat) (p : Slot') : Nat :=
  let k := p.1.key p.2.1 p.2.2
  let v := s.see p.1 p.2.1 p.2.2 % 2 ^ p.1.w
  if w ≤ k then v * 2 ^ (k - w) % 2 ^ 32 else v / 2 ^ (w - k) % 2 ^ 32

/-- The value of the dword at offset `d` where its block answers; reserved bits are zero (R8, R493). -/
def State.readDword (s : State) (d : Nat) : Nat := ((slotsAt d).map fun p => s.slotBits (8 * d) p).foldl (· + ·) 0

/-- The dword lies in a listed register whose domain is off (R423). -/
def State.dwordOff (s : State) (d : Nat) : Bool :=
  match slotsAt d with
  | p :: _ => !s.fieldOn p.1 p.2.1
  | [] => false

/-- What reading a dword clears or uses up (R9, R389): its RC fields, and the entry of a tag buffer. -/
def State.readEffect (s : State) (d : Nat) : State :=
  (slotsAt d).foldl (fun (t : State) (p : Slot') =>
    if p.1.acc = .rc then t.wr p.1 0 p.2.1 p.2.2
    else if p.1 = Reg.ENG.TAG_BUF.VALID then
      t.setEng p.2.1 { t.engOf p.2.1 with unread := (t.engOf p.2.1).unread.filter fun j => j != p.2.2 }
    else t) s

/-! ## Reading BAR0 (R294, R492, R493, R494) -/

/-- What a dword of a function's BAR0 is. -/
inductive Place where
  | reg (d : Nat)
  | msix (v k : Nat)
  | pba (k : Nat)
  | nothing
  deriving DecidableEq, Repr

/-- The dword at an offset of function f's BAR0 (R294, R490). A VF sees the contexts of its own rings alone. -/
def State.placeOf (s : State) (f d : Nat) : Place :=
  if f = 0 then
    if 0x3F00000 ≤ d ∧ d < 0x3F00000 + 16 * msixSize 0 then .msix ((d - 0x3F00000) / 16) (d / 4 % 4)
    else if 0x3F08000 ≤ d ∧ d < 0x3F08000 + 8 * 17 then .pba ((d - 0x3F08000) / 4)
    else .reg d
  else if d < 0x40000 then (if s.ringOwner (d / 0x40) = f then .reg (0x3C0000 + d) else .nothing)
  else if d < 0x40000 + 16 * msixSize f then .msix ((d - 0x40000) / 16) (d / 4 % 4)
  else if d = 0x41000 ∨ d = 0x41004 then .pba ((d - 0x41000) / 4)
  else .nothing

/-- A request of `n` bytes that BAR0 accepts (R492): within one aligned 8-byte unit of the function's window. -/
def State.barOk (s : State) (f a n : Nat) : Bool :=
  decide (1 ≤ n) && decide (a % 8 + n ≤ 8) &&
    (if f = 0 then decide (a < 0x4000000) else decide (a < 0x80000) && s.vfEnable && !(s.fn f).d3hot)

/-- A dword of an MSI-X table entry: address low and high, data, vector control with the mask bit. -/
def vecDword (x : Vec) (k : Nat) : Nat :=
  if k = 0 then x.addr % 2 ^ 32
  else if k = 1 then x.addr / 2 ^ 32 % 2 ^ 32
  else if k = 2 then x.data % 2 ^ 32
  else bitVal x.masked

/-- The value a place reads as. -/
def State.placeRead (s : State) (f : Nat) : Place → Nat
  | .reg d => if s.dwordOff d then 0xFFFFFFFF else s.readDword d
  | .msix v k => vecDword (s.vec f v) k
  | .pba k => maskOf 32 fun i => decide (32 * k + i < msixSize f) && (s.vec f (32 * k + i)).pend
  | .nothing => 0

/-- What reading a place does. -/
def State.placeEffect (s : State) : Place → State
  | .reg d => if s.dwordOff d then s else s.readEffect d
  | _ => s

/-- A place whose block is off. -/
def State.placeOff (s : State) : Place → Bool
  | .reg d => s.dwordOff d
  | _ => false

/-- The offset in the register map that the log of R498 names. -/
def placeAddr : Place → Nat
  | .reg d => d
  | _ => 0

/-- The dwords a request of `n` bytes at `a` covers. -/
def dwordsOf (a n : Nat) : List Nat :=
  if a / 4 = (a + n - 1) / 4 then [a / 4 * 4] else [a / 4 * 4, a / 4 * 4 + 4]

/-- Whether a place is the lower half of a 64-bit register. -/
def placeLo : Place → Bool
  | .reg d => isLo d
  | _ => false

/-- Log an access to the first of the dwords whose block is off; once for the access (R498). -/
def State.logOff (s : State) (ps : List Place) (wr : Bool) : State :=
  match ps.find? s.placeOff with
  | some p => s.logOffDomain (placeAddr p) wr
  | none => s

/-- The read of live values: one moment for all dwords, then the side effects. -/
def State.mmioLive (s : State) (f a n d : Nat) (ps : List Place) : State :=
  let v := (ps.zipIdx.map fun p => s.placeRead f p.1 * 2 ^ (32 * p.2)).foldl (· + ·) 0
  let s1 := (ps.foldl (fun (t : State) (p : Place) => t.placeEffect p) s).logOff ps false
  let s2 := s1.setShadow f (match ps with
    | [p] => if placeLo p && !s.placeOff p then some (d + 4, s.placeRead f (s.placeOf f (d + 4))) else none
    | _ => none)
  s2.emit (.readData f a n (v / 2 ^ (8 * (a - d)) % 2 ^ (8 * n)))

/-- The vendor-specific extended capability of a function's configuration space (R3, R465, R495), by dword offset: every
function reads `GLB.ID` and `GLB.CAP` there, PF0 its boot status too. A read of configuration space changes nothing, so
the table has no row for it. The bits of the capability header above its ID are its version and the next
capability's offset, which the spec does not give. -/
def State.vsecRead (s : State) (f ofs : Nat) : Option Nat :=
  match ofs with
  | 0x00 => some 0x000B
  | 0x04 => some (0x0001 + 2 ^ 16 * 1 + 2 ^ 20 * (if f = 0 then 0x18 else 0x10))
  | 0x08 => some (s.readDword 0x0)
  | 0x0C => some (s.readDword 0x4)
  | 0x10 => if f = 0 then some (s.readDword 0x4000) else none
  | 0x14 => if f = 0 then some (s.readDword 0x4004) else none
  | _ => none

/-- A read of `n` bytes at offset `a` of BAR0 by function `f` (R492 to R494). -/
def State.mmioRead (s : State) (f a n : Nat) : State :=
  if !s.coreOn || !s.barOk f a n then s.unsupported f a
  else
    let ds := dwordsOf a n
    let ps := ds.map fun d => s.placeOf f d
    match ds, ps, (s.fn f).shadow with
    | [d], [_], some (h, v) =>
      if d = h then (s.setShadow f none).emit (.readData f a n (v / 2 ^ (8 * (a % 4)) % 2 ^ (8 * n)))
      else s.mmioLive f a n d ps
    | d :: _, _, _ => s.mmioLive f a n d ps
    | [], _, _ => s
/-- REG_READ_CLEAR (R9, R492): a read of `n` bytes. -/
def execRegReadClear (f : FnNo) (a n : Nat) (s : State) : Host.Outcome State Fault Refusal := .next (s.mmioRead f a n)

/-- REG_LO_READ (R494): a read of one dword. -/
def execRegLoRead (f : FnNo) (a : Nat) (s : State) : Host.Outcome State Fault Refusal := .next (s.mmioRead f a 4)

/-- OFF_DOMAIN_ACCESS (R423, R498): an access to a register whose domain is off. Where the domain is on the row finds
nothing to do. -/
def execOffDomainAccess (f : FnNo) (a : Nat) (wr : Bool) (s : State) : Host.Outcome State Fault Refusal :=
  .next (
    if !s.coreOn || !s.barOk f (a / 4 * 4) 4 then s.unsupported f a
    else if !s.placeOff (s.placeOf f (a / 4 * 4)) then s
    else if wr then (s.setShadow f none).logOff [s.placeOf f (a / 4 * 4)] true
    else s.mmioRead f (a / 4 * 4) 4)

end Sys2Proof.Machine
end

