-- ==== Sys2Proof/Machine/MmioWrite.lean ====
section
/-! DEFINITION. What a write of a register does: the access codes of R9, the registers whose write has an effect of its
own, and the rules of BAR0 for writes (R492, R493). -/

namespace Sys2Proof.Machine

/-! ## Access codes (R9) -/

/-- The LOCK bits: once set they stay. -/
def lockBit (f : Fld) : Bool := f == Reg.THM.CTRL.LOCK || f == Reg.BIAS.CTRL.LOCK

/-- The LOCK of a field's block is set. -/
def State.locked (s : State) (f : Fld) : Bool :=
  match f.blk with
  | .glb => s.flag Reg.THM.CTRL.LOCK
  | .bias | .biasCh => s.flag Reg.BIAS.CTRL.LOCK
  | _ => false

/-- The share of a slot in a write of `v` to the dword at bit `w`; `old` is the state before the write. -/
def State.writeSlot (old : State) (w v : Nat) (s : State) (p : Slot') : State :=
  let (f, i, j) := p
  let k := f.key i j
  let lo := max k w
  let n := min (k + f.w) (w + 32) - lo
  let x := bitsOf v (lo - w) n
  let new := putBits (s.rd f i j) (lo - k) n x
  match f.acc with
  | .rw => s.wr f (if lockBit f ∧ old.flag f i j then 1 else new) i j
  | .rwl => if old.locked f then s else s.wr f new i j
  | .w1c => if x % 2 = 1 then s.wr f 0 i j else s
  | .ro | .wo | .rc | .rws => s

/-- A write of `v` to the dword at offset `d`, field by field. -/
def State.plainWrite (s : State) (d v : Nat) : State := (slotsAt d).foldl (s.writeSlot (8 * d) v) s

/-! ## Registers whose write does more -/

/-- A write of `TX_CTRL` (R138, R142, R144, R146, R156). The mask in force written again is no write of the mask, and a new
mask is judged before the commit of the same write (DESIGN CHOICE, notes/assumptions/163). -/
def State.txCtrlWrite (s : State) (n v : Nat) : State :=
  let cm := bitsOf v 12 1
  let retime := cm != s.rd Reg.LN.TX_CTRL.CM_SEL n && s.rd Reg.LN.TX_CTRL.DRIVE n == 0 && (s.txOf n).configured
  let s1 := (((s.wr Reg.LN.TX_CTRL.SQUELCH (bitsOf v 1 1) n).wr Reg.LN.TX_CTRL.SWING (bitsOf v 6 6) n).wr
    Reg.LN.TX_CTRL.CM_SEL cm n).wr Reg.LN.TX_CTRL.LVL_OUTER (bitsOf v 14 6) n
  let s2 := if retime then s1.setTx n { s1.txOf n with retime := some s1.time } else s1
  let s3 := if bitsOf v 4 2 = s2.rd Reg.LN.TX_CTRL.MASK n then s2 else s2.maskWrite n (bitsOf v 4 2)
  let s4 := s3.txCheck n
  if bitOf v 0 then s4.firCommit n else s4

/-- Zero all burst counters together (R188). -/
def State.burstCntClear (s : State) (n : Nat) : State :=
  [Reg.LN.BST_BURSTS.OK, Reg.LN.BST_EXC_A.FALSE_START, Reg.LN.BST_EXC_A.RESTART, Reg.LN.BST_EXC_A.OVERLAP,
    Reg.LN.BST_EXC_A.PREEMPTED, Reg.LN.BST_EXC_B.TRUNCATED, Reg.LN.BST_EXC_B.NO_END, Reg.LN.BST_EXC_B.MISSED,
    Reg.LN.BST_EXC_B.TX_MISSED, Reg.LN.BST_EXC_C.TX_LATE, Reg.LN.BST_EXC_C.TX_BAD,
    Reg.LN.BST_EXC_C.TX_UNDERRUN].foldl (fun (t : State) (f : Fld) => t.wr f 0 n) s

/-- After a write of `BST_CTRL` (R177, R188): FORCE_WIDE takes every source out of narrow mode. -/
def State.bstCtrlWritten (s : State) (n v : Nat) : State :=
  let s1 := if bitOf v 3 then s.burstCntClear n else s
  if s1.flag Reg.LN.BST_CTRL.FORCE_WIDE n then
    let x := s1.bstOf n
    (s1.setBst n { x with recs := x.recs.map fun (p : Nat × SrcRec) => (p.1, { p.2 with narrow := false, good := 0 }) }).wr
      Reg.LN.BST_STAT.SOURCES_NARROW 0 n
  else s1

/-- A write of a datapath select register (R386): a change of the event marks the interval as partial. -/
def State.dpSelWrite (s : State) (i v : Nat) : State :=
  let s1 := if s.rd Reg.PMC.DP_SEL.EVENT i = v % 32 then s else s.wr Reg.PMC.DP_SEL.PARTIAL 1 i
  let s2 := (((s1.wr Reg.PMC.DP_SEL.EVENT v i).wr Reg.PMC.DP_SEL.CHAIN (bitsOf v 5 1) i).wr
    Reg.PMC.DP_SEL.THR (bitsOf v 8 8) i).wr Reg.PMC.DP_SEL.INST (bitsOf v 16 7) i
  if bitOf v 6 then s2.dpClear i else s2

/-- A write of `PMC.CTRL` (R390). -/
def State.pmcCtrlWrite (s : State) (v : Nat) : State :=
  let s1 := s.wr Reg.PMC.CTRL.DP_FREEZE v
  if bitOf v 1 then (List.range 32).foldl (fun (t : State) (i : Nat) => t.wr Reg.PMC.DP_CNT.COUNT 0 i) s1 else s1

/-- After a write of `TAG_CTRL` (R389): the LFSR is seeded and the window starts when EN rises. -/
def State.tagCtrlWritten (s old : State) (e : Nat) : State :=
  if s.flag Reg.ENG.TAG_CTRL.EN e && !old.flag Reg.ENG.TAG_CTRL.EN e then
    s.setEng e { s.engOf e with tagCnt := 0, lfsr := BitVec.ofNat 32 (max 1 (s.rd Reg.ENG.TAG_CTRL.TAG_SEED e)) }
  else s

/-- A write of 1 to `UPD.CTRL.PUSH`: the twin's answer is free here; the table's own row names it. -/
def State.updCtrlWrite (s : State) (v : Nat) : State :=
  let s1 := s.wr Reg.UPD.CTRL.TWIN_SRC_EN v
  if bitOf v 1 then s1.freed.pushWrite (s1.free % 2 == 1) else s1

/-- A write to the global block. -/
def State.writeGlb (s : State) (d v : Nat) (f : Fld) (i : Nat) : State :=
  let s1 := s.plainWrite d v
  let a := f.addr
  if a = Reg.PWR.CTRL.GO.addr then s.pwrCtrlWrite v
  else if a = Reg.THM.THRESH.WARN.addr then s.threshWrite v
  else if a = Reg.THM.CTRL.LOCK.addr then (if s.flag Reg.THM.CTRL.LOCK then s1 else s1.restartDwell)
  else if a = Reg.THM.LADDER_CTRL.REVERSE.addr then s.reverseWrite v
  else if a = Reg.UPD.CTRL.PUSH.addr then s.updCtrlWrite v
  else if a = Reg.EVT.MAP.RING.addr then s.writeMap i v
  else if a = Reg.GLB.BG_CTRL.RELEASE.addr then (if bitOf v 0 then s1.bandgapRelease else s1)
  else s1

/-- A write to a course block. -/
def State.writeCrs (s : State) (d v : Nat) (f : Fld) (c : Nat) : State :=
  let s1 := s.plainWrite d v
  let a := f.addr
  if a = Reg.CRS.SLACK_CFG.FLOOR.addr then
    let s2 := s1.setMortar c { s1.mortarOf c with lowRun := 0 }
    if bitOf v 8 then s2.slackMinClr c else s2
  else s1

/-- A write of `RX_CTRL`: a freeze bit that rises makes the survey in progress partial (R103). -/
def State.rxCtrlWritten (s old : State) (n : Nat) : State :=
  let rose := [Reg.LN.RX_CTRL.AGC_FREEZE, Reg.LN.RX_CTRL.CTLE_FREEZE, Reg.LN.RX_CTRL.CDR_FREEZE, Reg.LN.RX_CTRL.FFE_FREEZE,
    Reg.LN.RX_CTRL.TGT_FREEZE, Reg.LN.RX_CTRL.LEVEL_FREEZE, Reg.LN.RX_CTRL.SOFT_FREEZE].any fun f =>
      s.flag f n && !old.flag f n
  if rose then s.setRx n { s.rxOf n with partialNow := true } else s

/-- A write to a lane block. -/
def State.writeLn (s : State) (d v : Nat) (f : Fld) (n : Nat) : State :=
  let s1 := s.plainWrite d v
  let a := f.addr
  if a = Reg.LN.RX_CTRL.AGC_FREEZE.addr then s1.rxCtrlWritten s n
  else if a = Reg.LN.RX_GAP.GAP_SET.addr then s1.setRx n { s1.rxOf n with gapUp := 0, gapDown := 0 }
  else if a = Reg.LN.RX_THRESH.DEG_SET.addr then s1.setRx n { s1.rxOf n with degUp := 0, degDown := 0 }
  else if a = Reg.LN.CTLE.MIN.addr then s1.ctleForce n
  else if a = Reg.LN.MLSE_CTRL.ALPHA1_MAX.addr then
    s1.setTarget n (s1.rd Reg.LN.MLSE_CTRL.ALPHA1 n) (s1.rd Reg.LN.MLSE_CTRL.ALPHA2 n)
  else if a = Reg.LN.SLICE_CTRL.SEL.addr then s1.slicesSettle n
  else if a = Reg.LN.TX_CTRL.SWING.addr then s.txCtrlWrite n v
  else if a = Reg.LN.TX_FIR.INDEX.addr then s.stageWrite n v
  else if a = Reg.LN.PRBS_CTRL.GEN_PAT.addr then s.prbsWrite n v
  else if a = Reg.LN.OCM_CTRL.CLEAR.addr then
    let s2 := s.ocmFreeze n (bitOf v 1)
    if bitOf v 0 then s2.ocmZero n else s2
  else if a = Reg.LN.BST_CTRL.POLICY.addr then s1.bstCtrlWritten n v
  else s1

/-- A write of a host lane's `CTRL`: a receiver whose polarity changes loses its CDR lock (R214). -/
def State.hostCtrlWritten (s old : State) (k : Nat) : State :=
  if s.rd Reg.HL.CTRL.RX_INV k = old.rd Reg.HL.CTRL.RX_INV k then s else (s.wr Reg.HL.STAT.CDR_LOCK 0 k).refreshSig k

/-- A write to a host lane's block. -/
def State.writeHl (s : State) (d v : Nat) (f : Fld) (k : Nat) : State :=
  let a := f.addr
  if a = Reg.HL.CTRL.RX_INV.addr then (s.plainWrite d v).hostCtrlWritten s k
  else if a = Reg.HL.TRAIN_CTRL.EN.addr then
    (if bitOf v 1 then (s.plainWrite d v).trainRestart k else s.plainWrite d v)
  else if a = Reg.HL.TX_EQ.INDEX.addr then s.txEqWrite k v
  else if a = Reg.HL.PRBS_CTRL.GEN_PAT.addr then s.hostPrbsWrite k v
  else s.plainWrite d v

/-- A write to the Filkor and twin block. -/
def State.writeFlk (s : State) (d v : Nat) (f : Fld) (i : Nat) : State :=
  let a := f.addr
  if a = Reg.FLK.CTRL.RETRAIN.addr then s.flkCtrlWrite v
  else if a = Reg.FLK.TWIN_CFG.EN.addr then (s.plainWrite d v).twinCfgWritten
  else if a = Reg.FLK.PRBS_CTRL.PAT.addr then s.flkPrbsWrite i v
  else s.plainWrite d v

/-- A write to the bias array, a converter or the decimation block. -/
def State.writeSupervise (s : State) (d v : Nat) (f : Fld) (i : Nat) : State :=
  let s1 := s.plainWrite d v
  let a := f.addr
  if a = Reg.BIAS.FLAG.COMP.addr then s.biasFlagWrite i v
  else if a = Reg.SCV.CTRL.EN.addr then s1.scCtrlWritten s i
  else if a = Reg.DEC.CFG.EN.addr then s1.decCfgWritten s i
  else if a = Reg.DEC.THR.HI.addr ∨ a = Reg.DEC.HYS.HYS.addr then s1.decThrWritten i
  else s1

/-- A write to a ring's context by function `fn` (R298, R299): bases only while the ring is at rest. -/
def State.writeRing (s : State) (fn d v : Nat) (f : Fld) (r : Nat) : State :=
  let a := f.addr
  if a = Reg.RING.CFG.EN.addr then s.writeCfg fn r v
  else if a = Reg.RING.SQ_BASE.ADDR.addr ∨ a = Reg.RING.CQ_BASE.ADDR.addr then
    (if s.atRest r then s.plainWrite d v else s)
  else s.plainWrite d v

/-- A write to an engine's debug window. -/
def State.writeEng (s : State) (d v : Nat) (f : Fld) (e j : Nat) : State :=
  let a := f.addr
  if a = Reg.ENG.PMC_SEL.EVENT.addr then s.pmcSelWrite e j v
  else if a = Reg.ENG.TAG_CTRL.EN.addr then (s.plainWrite d v).tagCtrlWritten s e
  else if 64 ≤ e ∧ (a = Reg.ENG.PROG_CTRL.OWN_FFE.addr ∨ a = Reg.ENG.PROG_BUDGET.BEATS.addr) then s
  else s.plainWrite d v

/-- A write of the dword at offset `d` of the register map by function `fn`, where its block answers. -/
def State.writeDword (s : State) (fn d v : Nat) : State :=
  match slotsAt d with
  | [] => s
  | (f, i, j) :: _ =>
    match f.blk with
    | .glb => s.writeGlb d v f i
    | .crs => s.writeCrs d v f i
    | .ln => s.writeLn d v f i
    | .hl => s.writeHl d v f i
    | .flk | .flkLane => s.writeFlk d v f i
    | .bias | .biasCh | .scv | .dec | .decCh => s.writeSupervise d v f i
    | .pmc =>
      if f.addr = Reg.PMC.DP_SEL.EVENT.addr then s.dpSelWrite i v
      else if f.addr = Reg.PMC.CTRL.DP_FREEZE.addr then s.pmcCtrlWrite v
      else s.plainWrite d v
    | .ring => s.writeRing fn d v f i
    | .eng => s.writeEng d v f i j
    | .hq | .hod | .bist => s.plainWrite d v

/-! ## Writing BAR0 (R492, R493) -/

/-- A write of a dword of an MSI-X table entry; clearing the mask sends what is pending (R309). -/
def State.vecWrite (s : State) (f v k x : Nat) : State :=
  let e := s.vec f v
  if k = 0 then s.setVec f v { e with addr := e.addr / 2 ^ 32 * 2 ^ 32 + x }
  else if k = 1 then s.setVec f v { e with addr := e.addr % 2 ^ 32 + x * 2 ^ 32 }
  else if k = 2 then s.setVec f v { e with data := x }
  else if bitOf x 0 then s.setVec f v { e with masked := true }
  else s.unmask f v

/-- A write of a dword at a place. -/
def State.placeWrite (s : State) (f : Nat) (p : Place) (v : Nat) : State :=
  match p with
  | .reg d => if s.dwordOff d then s else s.writeDword f d v
  | .msix x k => s.vecWrite f x k v
  | .pba _ | .nothing => s

/-- A write of `n` bytes at offset `a` of BAR0 by function `f`: whole dwords, or it is dropped and counted. The halves of
an 8-byte write take effect in one beat, the lower first. -/
def State.mmioWrite (s : State) (f a n v : Nat) : State :=
  if !s.coreOn || !s.barOk f a n then s.unsupported f a
  else
    let s0 := s.setShadow f none
    if a % 4 ≠ 0 ∨ n % 4 ≠ 0 then s0.count Reg.GLB.ACC_ERR.COUNT
    else
      let ps := (dwordsOf a n).map fun d => s0.placeOf f d
      (ps.zipIdx.foldl (fun (t : State) (p : Place × Nat) => t.placeWrite f p.1 (bitsOf v (32 * p.2) 32)) s0).logOff
        (ps.filter s0.placeOff) true

/-- REG_WRITE (R9, R492). -/
def execRegWrite (f : FnNo) (a n v : Nat) (s : State) : Host.Outcome State Fault Refusal := .next (s.mmioWrite f a n v)

end Sys2Proof.Machine
end

