-- ==== Sys2Proof/Machine/CfgCmds.lean ====
section
/-! DEFINITION. The commands that reach registers and survey records as a whole (12_command_set): CFG_WRITE, SNAPSHOT and
SURVEY_READ (R338, R339, R344, R345). -/

namespace Sys2Proof.Machine

/-! ## CFG_WRITE (R338, R339) -/

/-- Where the block of a CFG_WRITE or SNAPSHOT target starts in BAR0, and its size. -/
def blockOf (cls t : Nat) : Nat × Nat :=
  match cls with
  | 0 => (0, 0x100000)
  | 1 => (0x100000 + 0x10000 * t, 0x10000)
  | 2 => (0x200000 + 0x4000 * t, 0x4000)
  | 3 => (0x301000 + 0x10000 * (t / 32) + 0x400 * (t % 32), 0x400)
  | 4 => (0x360000, 0x10000)
  | 5 => if t = 2 then (0x378000, 0x8000) else (0x370000 + 0x2000 * t, 0x2000)
  | 6 => (0x380000, 0x10000)
  | _ => (0x1000000 + 0x20000 * t, 0x20000)

/-- The bits of the dword at bit `w` that a field holds. -/
def slotMask (w : Nat) (p : Slot') : Nat :=
  let k := p.1.key p.2.1 p.2.2
  if w ≤ k then (2 ^ p.1.w - 1) * 2 ^ (k - w) % 2 ^ 32 else (2 ^ p.1.w - 1) / 2 ^ (w - k) % 2 ^ 32

/-- The bits CFG_WRITE may write in a dword. -/
def cfgMask (d : Nat) : Nat :=
  ((slotsAt d).filter fun p => cfgField p.1).foldl (fun (m : Nat) (p : Slot') => m ||| slotMask (8 * d) p) 0

/-- A triple names a register of R339 and bits it may write; `FN_WEIGHT` belongs to PF0's sessions alone. -/
def tripleOk (fn cls t ofs mask : Nat) : Bool :=
  let d := (blockOf cls t).1 + ofs
  ofs % 4 == 0 && decide (ofs < (blockOf cls t).2) && mask &&& cfgMask d == mask &&
    !(fn != 0 && cls == 0 && (slotsAt d).any fun p => p.1 == Reg.RING.FN_WEIGHT.WEIGHT)

/-- The course a triple belongs to; none: no course. -/
def State.tripleCourse (s : State) (cls t ofs : Nat) : Option Nat :=
  match cls with
  | 1 => some t
  | 2 => some (t / 8)
  | 3 => some (t / 16)
  | 4 => (biasOfOfs ofs).map fun b => b / 8
  | 5 => if t = 2 then (decOfOfs ofs).map fun j => s.rd Reg.DEC.CFG.COURSE j else none
  | _ => none

def chkCfgWrite (s : State) (f : Flight) : Option Res :=
  let cls := f.e.cls.toNat
  let t := f.e.target.toNat
  let ts := usedTriples f.e
  if !(ts.all fun x => tripleOk f.fn cls t x.2.1 x.2.2.1) then some { st := .badField }
  else if 1 < (ts.filterMap fun x => s.tripleCourse cls t x.2.1).eraseDups.length then some { st := .badField }
  else none

/-- What the writable bits of a dword hold now. -/
def State.cfgOld (s : State) (d : Nat) : Nat :=
  (((slotsAt d).filter fun p => p.1.acc == .rw || p.1.acc == .rwl).map fun p => s.slotBits (8 * d) p).foldl (· + ·) 0

/-- A masked field is locked. -/
def State.maskLocked (s : State) (d mask : Nat) : Bool :=
  (slotsAt d).any fun p => p.1.acc == .rwl && s.locked p.1 && mask &&& slotMask (8 * d) p != 0

/-- Apply one triple: old value and result bits, and the state after. -/
def State.applyTriple (cls t : Nat) (a : State × Nat) (x : Nat × Nat × Nat × Nat) : State × Nat :=
  let (s, res) := a
  let (i, ofs, mask, value) := x
  let d := (blockOf cls t).1 + ofs
  let old := s.cfgOld d
  let new := (old ^^^ (old &&& mask)) ||| (value &&& mask)
  (s.writeDword 0 d new, res + bitVal (s.maskLocked d mask) * 2 ^ i)

def runCfgWrite (s : State) (g : Origin) (f : Flight) : State :=
  let (s1, res) := (usedTriples f.e).foldl (State.applyTriple f.e.cls.toNat f.e.target.toNat) (s, 0)
  s1.finish g { r0 := res }

/-- CFG_WRITE (R338, R339). -/
def execCfgWrite (r : RingNo) (e : Entry) (d : Dma) (s : State) : Host.Outcome State Fault Refusal :=
  .next (s.serve .cfgWrite r e d chkCfgWrite runCfgWrite)

/-! ## SNAPSHOT (R331, R344) -/

/-- The target of a snapshot is in test. -/
def State.snapInTest (s : State) (cls t : Nat) : Bool :=
  match cls with
  | 1 => s.inTest t
  | 2 => s.laneInTest t
  | 3 => s.inTest (8 + t / 32) || s.inTest (t / 16)
  | _ => false

/-- The registers with those of a byte range replaced. -/
def State.withRegs (s : State) (lo hi : Nat) (r : Tab Nat) : State :=
  { s with regs := (s.regs.filter fun p => decide (p.1 < 8 * lo)) ++ r ++ s.regs.filter fun p => decide (8 * hi ≤ p.1) }

/-- The state as a block in test showed it at its last survey (R331). -/
def State.atShot (s : State) (cls t : Nat) : State :=
  let b := blockOf cls t
  match cls with
  | 1 => s.withRegs b.1 (b.1 + b.2) (s.shot (courseShotKey t)).regs
  | 2 =>
    let x := s.shot t
    ((((s.withRegs b.1 (b.1 + b.2) x.regs).setRx t x.rx).setTx t x.tx).setCal t x.cal).setBst t x.bst
  | _ => s

def chkSnapshot (s : State) (f : Flight) : Option Res :=
  let cls := f.e.cls.toNat
  let t := f.e.target.toNat
  let ofs := op32 f.e 16
  let n := op32 f.e 20
  let b := blockOf cls t
  if ofs % 4 ≠ 0 ∨ n < 4 ∨ 4096 < n ∨ !addrOk (op64 f.e 24) n ∨ b.2 < ofs + n then some { st := .badField }
  else if !s.snapInTest cls t && (List.range (n / 4)).any fun i => s.dwordOff (b.1 + ofs + 4 * i) then
    some { st := .domainOff }
  else none

/-- The image of a snapshot: every dword at one moment, without side effects. -/
def State.snapData (s : State) (d n : Nat) : List Byte :=
  (List.range (n / 4)).flatMap fun i => leBytes 4 (s.readDword (d + 4 * i))

def runSnapshot (s : State) (g : Origin) (f : Flight) : State :=
  let cls := f.e.cls.toNat
  let t := f.e.target.toNat
  let test := s.snapInTest cls t
  let v := if test then s.atShot cls t else s
  match s.hostWrite f.d (op64 f.e 24) (v.snapData ((blockOf cls t).1 + op32 f.e 16) (op32 f.e 20)) with
  | (s1, none) => s1.finish g { stale := test }
  | (s1, some k) => s1.finish g { st := .dmaFault, r0 := k }

/-- SNAPSHOT (R344). -/
def execSnapshot (r : RingNo) (e : Entry) (d : Dma) (s : State) : Host.Outcome State Fault Refusal :=
  .next (s.serve .snapshot r e d chkSnapshot runSnapshot)

/-! ## SURVEY_READ (R102, R345) -/

/-- The 48 bytes of a survey record (R102). -/
def surveyBytes (x : SurveyRec) : List Byte :=
  leBytes 2 x.flags ++ leBytes 2 x.snrEq ++ leBytes 2 x.snrMfb ++ leBytes 2 x.gap ++ leBytes 1 x.vga ++ leBytes 1 x.ctle ++
    leBytes 1 x.target ++ leBytes 1 x.soft ++ leBytes 4 x.freq ++ leBytes 4 x.cw ++ leBytes 4 x.corr ++
    leBytes 4 x.uncorr ++ leBytes 2 x.phaseRms ++ leBytes 2 x.retry ++
    ((List.range 6).flatMap fun i => leBytes 2 (x.levels.getD i 0)) ++ leBytes 4 x.seq

def chkSurveyRead (_ : State) (f : Flight) : Option Res :=
  let n := op16 f.e 20
  if n = 0 ∨ 1024 < n ∨ !addrOk (op64 f.e 24) (48 * n) then some { st := .badField } else none

/-- The records a SURVEY_READ returns, oldest first. -/
def RxX.surveysFrom (x : RxX) (fromSeq count : Nat) : List SurveyRec :=
  let d := (x.seq + 2 ^ 33 - 1 - fromSeq) % 2 ^ 32
  if 2 ^ 31 ≤ d then [] else ((x.hist.take (d + 1)).reverse).take count

/-- The records are read from the hod, oldest first: their bytes as read, and whether a word was uncorrectable. -/
def State.readSurveys (s : State) (ecc : List EccHit) (n : Nat) : List SurveyRec → State × List Byte × Bool
  | [] => (s, [], false)
  | v :: vs =>
    let (s1, us, bad) := s.hodReadsOf ecc (surveyWord n v.seq) (wordsOf (surveyBytes v) 6)
    let (s2, bs, b2) := s1.readSurveys ecc n vs
    (s2, us.flatMap (leBytes 8) ++ bs, bad || b2)

def runSurveyRead (ecc : List EccHit) (s : State) (g : Origin) (f : Flight) : State :=
  let n := f.e.target.toNat
  let x := s.rxOf n
  let rs := x.surveysFrom (op32 f.e 16) (op16 f.e 20)
  let (s0, bs, bad) := s.readSurveys ecc n rs
  match s0.hostWrite f.d (op64 f.e 24) bs with
  | (s1, some k) => s1.finish g { st := .dmaFault, r0 := k }
  | (s1, none) =>
    s1.finish g { st := if bad then .eccUncorr else .ok, r0 := rs.length, r1 := (match rs with | v :: _ => v.seq | [] => x.seq)
                  stale := s.laneInTest n }

/-- SURVEY_READ (R345, R396). -/
def execSurveyRead (r : RingNo) (e : Entry) (d : Dma) (ecc : List EccHit) (s : State) : Host.Outcome State Fault Refusal :=
  .next (s.serve .surveyRead r e d chkSurveyRead (runSurveyRead ecc))

end Sys2Proof.Machine
end

