-- ==== Sys2Proof/Machine/Mirror.lean ====
section
/-! DEFINITION. Mirrored commands between the twins (10_twin_pairing, R278 to R280) and the commands on ownership (R285,
R361): frames, acknowledgements and their time limits, handover, takeover and the query of the mirror log. -/

namespace Sys2Proof.Machine

/-! ## Applying a mirrored command -/

/-- The own conditions and the effect of each mirrored command (R277, R332). -/
def mirrorRun : Op → Option ((State → Flight → Option Res) × (State → Origin → Flight → State))
  | .laneConfig => some (chkLaneConfig, runLaneConfig)
  | .laneState => some (chkLaneState, runLaneState)
  | .laneFir => some (chkLaneFir, runLaneFir)
  | .cfgWrite => some (chkCfgWrite, runCfgWrite)
  | .schedWrite => some (chkSchedWrite, runSchedWrite)
  | .powerSet => some (chkPowerSet, runPowerSet)
  | .courseOffImmediate => some (chkCourseOff, runCourseOffImmediate)
  | .padRelease => some (chkPadRelease, runPadRelease)
  | .calibrate => some (chkCalibrate, runCalibrate)
  | .biasSet => some (chkBiasSet, runBiasSet)
  | .quench => some (chkQuench, runQuench)
  | _ => none

/-- A command as a mirror frame carries it. -/
def frameFlight (op : Nat) (e : Entry) (d : Dma) : Flight :=
  { fid := 0, op := op, e := e, d := d, role := some 3, fn := 0, sqHead := 0, xfer := 0, phase := .running }

/-- The opcode of the owner's request to raise TWIN_SEL (R285); the frame carries the handover command. -/
def askOp : Nat := opCode .twinHandover

/-- How the standby judges a frame (R278, R328): none, it waits; else a status that fails it, or none, it applies. -/
def State.judgeFrame (s : State) (o : Op) (e : Entry) : Option (Option Status) :=
  if !fieldsOk o e then some (some .badField)
  else if !s.lcOk o e then some (some .lcDenied)
  else
    match s.serverState (s.server o e) with
    | .off => some (some .domainOff)
    | .waits => none
    | .runs =>
      if s.updateHolds o then none
      else if !s.domainOk o e then some (some .domainOff)
      else if s.testBlocks o e then some (some .blockInTest)
      else some none

/-- The frame `q` has been taken: the next one is awaited. -/
def State.frameTaken (s : State) (q : Nat) : State :=
  ({ s with twin := { s.twin with rxSeq := (q + 1) % 2 ^ 24 } } : State).wr Reg.FLK.MIRROR_STAT.LAST_SEQ q

/-- Mirror frames are exchanged: the link is ACTIVE and the pair SYNCED. -/
def State.mirrorOn (s : State) : Bool := s.linkOn && s.k3On && s.linkState == 5 && s.pairState == 2

/-- MIRROR_FRAME_RECEIVED (R278): frames are applied strictly in sequence, and others ignored. -/
def execMirrorFrameReceived (q : BitVec 24) (r : RingNo) (op : BitVec 16) (e : Entry) (d : Dma) (s : State) :
    Host.Outcome State Fault Refusal :=
  .next (
    if !s.mirrorOn || q.toNat != s.twin.rxSeq then s
    else
      let g := Origin.mirror q.toNat r.val e.tag
      let c := e.target.toNat % 8
      if op.toNat = askOp then
        let s1 := s.frameTaken q.toNat
        (if s1.owns c then s1 else s1.takeCourse c .device).filkorQueued.emit (.filkorBlock (ackBlock q.toNat 0))
      else
        match opOfCode op.toNat with
        | none => (s.frameTaken q.toNat).finishSt g .badOpcode
        | some o =>
          match mirrorRun o with
          | none => (s.frameTaken q.toNat).finishSt g .badOpcode
          | some (chk, run) =>
            match s.judgeFrame o e with
            | none => s
            | some (some st) => (s.frameTaken q.toNat).finishSt g st
            | some none =>
              let f := frameFlight op.toNat e d
              match chk s f with
              | some res => (s.frameTaken q.toNat).finish g res
              | none => run (s.frameTaken q.toNat) g f)

/-! ## Acknowledgements (R278) -/

/-- The frame sent for a flight no longer waits. -/
def State.dropOut (s : State) (q : Nat) : State :=
  { s with twin := { s.twin with outs := s.twin.outs.filter fun m => m.seq != q } }

/-- The flight counts as not mirrored: it was applied on neither device, or on this one alone. -/
def State.unmirror (s : State) (r fid : Nat) : State :=
  let x := s.ring r
  s.setRing r { x with flights := x.flights.map fun f => if f.fid = fid then { f with mirrored := none } else f }

/-- A mirrored command fails on the twin's side (R278): it is not applied here, and completes with TWIN_NOT_SYNCED. -/
def State.mirrorFails (s : State) (m : MirrorOut) (cause : Nat) : State :=
  let o := Origin.host m.ring m.fid
  let s1 := (s.dropOut m.seq).twinDegrade cause
  let s2 : State := { s1 with twin := { s1.twin with handovers := s1.twin.handovers.filter fun h => h.origin != o } }
  ((s2.unmirror m.ring m.fid).finishSt o .twinNotSynced).endMoves

/-- MIRROR_ACK_RECEIVED (R278). -/
def execMirrorAckReceived (q : BitVec 24) (st : BitVec 8) (s : State) : Host.Outcome State Fault Refusal :=
  .next (
    if !s.linkOn || !s.k3On then s
    else
      match s.twin.outs.find? fun m => m.seq == q.toNat with
      | none => s
      | some m =>
        let s0 := s.wr Reg.FLK.MIRROR_STAT.LAST_SEQ q.toNat
        if st.toNat ≠ 0 then s0.mirrorFails m 4
        else
          let s1 := s0.dropOut m.seq
          match (opOfCode m.op).bind mirrorRun with
          | none => s1
          | some (_, run) =>
            run s1 (.host m.ring m.fid) { frameFlight m.op m.e m.d with mirrored := some q.toNat })

/-- MIRROR_ACK_TIMEOUT (R278): 20 µs without an ACK for the oldest frame: it is resent, at most 3 times. -/
def execMirrorAckTimeout (s : State) : Host.Outcome State Fault Refusal :=
  .next (
    match s.twin.outs with
    | [] => s
    | m :: ms =>
      let s1 := s.upTo (m.sent + 20000)
      if !s1.k3On then s
      else if m.resends < 3 then
        ((({ s1 with twin := { s1.twin with
          outs := { m with sent := s1.time, resends := m.resends + 1 } :: ms } } : State).count
            Reg.FLK.MIRROR_STAT.RESENDS).filkorQueued).emit (.mirrorFrame m.seq m.ring m.op m.e m.d)
      else s1.mirrorFails m 3)

/-- PAIRING_WAIT_TIMEOUT (R279): the first command of a ring that waits for the pair has waited its time. -/
def execPairingWaitTimeout (r : RingNo) (s : State) : Host.Outcome State Fault Refusal :=
  .next (
    match (s.ring r).flights.findSome? fun f => match f.phase with | .parked t => some (f, t) | _ => none with
    | none => s
    | some (f, t) =>
      let s1 := s.upTo t
      match s1.judge f with
      | .fails st => s1.finishSt (.host r f.fid) st
      | _ => s)

/-! ## Handover and takeover (R285, R361) -/

/-- A handover's conditions; `WARM` is what the twin's last HEARTBEAT said of the course. -/
def chkTwinHandover (s : State) (f : Flight) : Option Res :=
  let c := f.e.target.toNat
  if !s.owns c then some { st := .notOwner }
  else if s.pairState = 0 ∨ s.pairState = 3 then some { st := .twinNotSynced }
  else if !bitOf s.twin.peerWarm c ∧ opBits f.e 16 0 1 = 0 then some { st := .twinNotSynced }
  else none

/-- The owner asks the standby to raise its level, and waits (R285). -/
def runTwinHandover (s : State) (g : Origin) (f : Flight) : State :=
  let c := f.e.target.toNat
  let q := s.twin.nextSeq
  let s1 := s.startMove
  let s2 : State := { s1 with twin := { s1.twin with
    handovers := s1.twin.handovers ++ [⟨c, g, s1.time⟩], nextSeq := (q + 1) % 2 ^ 24
    outs := s1.twin.outs ++
      (match g with
        | .host r fid => [(⟨q, r, fid, askOp, f.e, f.d, s1.time, 0⟩ : MirrorOut)]
        | _ => []) } }
  s2.filkorQueued.emit (.mirrorFrame q (ringOfOrigin g) askOp f.e f.d)

/-- TWIN_HANDOVER (R285, R361). -/
def execTwinHandover (r : RingNo) (e : Entry) (d : Dma) (s : State) : Host.Outcome State Fault Refusal :=
  .next (s.serve .twinHandover r e d chkTwinHandover runTwinHandover)

def chkTwinTakeover (s : State) (f : Flight) : Option Res :=
  if s.owns f.e.target.toNat then some { r0 := 0 } else none

def runTwinTakeover (s : State) (g : Origin) (f : Flight) : State := s.takeCourse f.e.target.toNat g

/-- TWIN_TAKEOVER (R285, R361). -/
def execTwinTakeover (r : RingNo) (e : Entry) (d : Dma) (s : State) : Host.Outcome State Fault Refusal :=
  .next (s.serve .twinTakeover r e d chkTwinTakeover runTwinTakeover)

/-- TAKEOVER_TIMEOUT (R285): 30 µs with the twin's level still high; the course stays ARMED. -/
def execTakeoverTimeout (c : CourseNo) (s : State) : Host.Outcome State Fault Refusal :=
  .next (
    match s.twin.takeovers.find? fun m => m.course == c.val with
    | none => s
    | some m =>
      let s1 := s.upTo (m.since + 30000)
      let ms := s1.twin.takeovers.filter fun m => m.course == c.val
      (ms.foldl (fun (t : State) (m : Move) => t.finish m.origin { st := .partialDone })
        { s1 with twin := { s1.twin with takeovers := s1.twin.takeovers.filter fun m => m.course != c.val } }).endMoves)

/-! ## The mirror log (R280, R361) -/

/-- An entry of the log as its two words in the hod, and back (R280; notes/assumptions/135). -/
def logWords (x : MirrorLog) : List Nat := [x.tag.toNat, x.ring % 2 ^ 16 + 2 ^ 16 * (x.seq % 2 ^ 24) + 2 ^ 40 * statusCode x.status]
def logOfWords : List Nat → Nat × Nat × Nat × Nat
  | [t, v] => (v % 2 ^ 16, t, v / 2 ^ 16 % 2 ^ 24, v / 2 ^ 40 % 256)
  | _ => (0, 0, 0, 0)

/-- The search reads every entry held, newest first: ring, tag, sequence and status as read, and whether a word was
uncorrectable. `k` is the place of the first in the log's ring of 4,096 entries. -/
def State.readLog (s : State) (ecc : List EccHit) : Nat → List MirrorLog → State × List (Nat × Nat × Nat × Nat) × Bool
  | _, [] => (s, [], false)
  | k, x :: xs =>
    let (s1, us, bad) := s.hodReadsOf ecc (logWord k) (logWords x)
    let (s2, ys, b2) := s1.readLog ecc (k + 4095) xs
    (s2, logOfWords us :: ys, bad || b2)

def runTwinLogQuery (ecc : List EccHit) (s : State) (g : Origin) (f : Flight) : State :=
  let (s1, all, bad) := s.readLog ecc (s.twin.logAt + 4095) s.twin.log
  let st : Status := if bad then .eccUncorr else .ok
  let ms := all.filter fun x => x.1 == op16 f.e 16 && x.2.1 == op64 f.e 24
  match ms with
  | [] => s1.finish g { st := st }
  | x :: _ => s1.finish g { st := st, r0 := min 255 ms.length, r1 := x.2.2.1, r2 := x.2.2.2 }

/-- TWIN_LOG_QUERY (R361, R396). -/
def execTwinLogQuery (r : RingNo) (e : Entry) (d : Dma) (ecc : List EccHit) (s : State) : Host.Outcome State Fault Refusal :=
  .next (s.serve .twinLogQuery r e d chkNone (runTwinLogQuery ecc))

end Sys2Proof.Machine
end

