-- ==== Sys2Proof/Machine/Dispatch.lean ====
section
/-! DEFINITION. The dispatch of commands: one arm per constructor of `Instr`, in the order of
spec/opcode_table.json. An arm calls the meaning of its command. -/

namespace Sys2Proof.Machine

def exec (i : Instr) (s : State) : Host.Outcome State Fault Refusal :=
  match i with
  | .coldReset => Sys2Proof.Machine.execColdReset s
  | .warmReset => Sys2Proof.Machine.execWarmReset s
  | .perstRelease b => Sys2Proof.Machine.execPerstRelease b s
  | .deviceReady => Sys2Proof.Machine.execDeviceReady s
  | .supplyLoss keep => Sys2Proof.Machine.execSupplyLoss keep s
  | .supplyRestored b => Sys2Proof.Machine.execSupplyRestored b s
  | .vbiasPowerUp => Sys2Proof.Machine.execVbiasPowerUp s
  | .vbiasLoss => Sys2Proof.Machine.execVbiasLoss s
  | .functionLevelReset f => Sys2Proof.Machine.execFunctionLevelReset f s
  | .dKeepEntry => Sys2Proof.Machine.execDKeepEntry s
  | .dKeepExit b => Sys2Proof.Machine.execDKeepExit b s
  | .vfD3hot f enter => Sys2Proof.Machine.execVfD3hot f enter s
  | .pcieLinkTrained speed width flit => Sys2Proof.Machine.execPcieLinkTrained speed width flit s
  | .regWrite f a n v => Sys2Proof.Machine.execRegWrite f a n v s
  | .regReadClear f a n => Sys2Proof.Machine.execRegReadClear f a n s
  | .regLoRead f a => Sys2Proof.Machine.execRegLoRead f a s
  | .offDomainAccess f a wr => Sys2Proof.Machine.execOffDomainAccess f a wr s
  | .ringEnable f r v => Sys2Proof.Machine.execRingEnable f r v s
  | .ringDisable f r v => Sys2Proof.Machine.execRingDisable f r v s
  | .ringQuiesced r => Sys2Proof.Machine.execRingQuiesced r s
  | .ringOwnerWrite f r v => Sys2Proof.Machine.execRingOwnerWrite f r v s
  | .sqTailDoorbell f r ofs width v => Sys2Proof.Machine.execSqTailDoorbell f r ofs width v s
  | .cqHeadDoorbell f r ofs width v => Sys2Proof.Machine.execCqHeadDoorbell f r ofs width v s
  | .workUnitServe u => Sys2Proof.Machine.execWorkUnitServe u s
  | .eventRecordWrite => Sys2Proof.Machine.execEventRecordWrite s
  | .coalesceTimerExpiry r => Sys2Proof.Machine.execCoalesceTimerExpiry r s
  | .msixVectorUnmask f v => Sys2Proof.Machine.execMsixVectorUnmask f v s
  | .evtMapWrite f src v => Sys2Proof.Machine.execEvtMapWrite f src v s
  | .sessionOpen r e d => Sys2Proof.Machine.execSessionOpen r e d s
  | .lockoutExpiry f => Sys2Proof.Machine.execLockoutExpiry f s
  | .nonceExpiry r => Sys2Proof.Machine.execNonceExpiry r s
  | .sessionClose r e d => Sys2Proof.Machine.execSessionClose r e d s
  | .sessionIdleExpiry r => Sys2Proof.Machine.execSessionIdleExpiry r s
  | .nop r e d => Sys2Proof.Machine.execNop r e d s
  | .laneConfig r e d => Sys2Proof.Machine.execLaneConfig r e d s
  | .laneState r e d => Sys2Proof.Machine.execLaneState r e d s
  | .laneFir r e d => Sys2Proof.Machine.execLaneFir r e d s
  | .cfgWrite r e d => Sys2Proof.Machine.execCfgWrite r e d s
  | .schedWrite r e d => Sys2Proof.Machine.execSchedWrite r e d s
  | .powerSet r e d => Sys2Proof.Machine.execPowerSet r e d s
  | .powerTransitionEnd pll cal => Sys2Proof.Machine.execPowerTransitionEnd pll cal s
  | .pwrGo f v => Sys2Proof.Machine.execPwrGo f v s
  | .courseOffImmediate r e d => Sys2Proof.Machine.execCourseOffImmediate r e d s
  | .padRelease r e d => Sys2Proof.Machine.execPadRelease r e d s
  | .snapshot r e d => Sys2Proof.Machine.execSnapshot r e d s
  | .surveyRead r e d ecc => Sys2Proof.Machine.execSurveyRead r e d ecc s
  | .captureStart r e d => Sys2Proof.Machine.execCaptureStart r e d s
  | .captureTrigger n sym => Sys2Proof.Machine.execCaptureTrigger n sym s
  | .captureComplete n w => Sys2Proof.Machine.execCaptureComplete n w s
  | .captureTimeout n w => Sys2Proof.Machine.execCaptureTimeout n w s
  | .captureDrain r e d ecc => Sys2Proof.Machine.execCaptureDrain r e d ecc s
  | .captureFree r e d => Sys2Proof.Machine.execCaptureFree r e d s
  | .hodFill r e d => Sys2Proof.Machine.execHodFill r e d s
  | .hodWrite r e d ecc => Sys2Proof.Machine.execHodWrite r e d ecc s
  | .hodRead r e d ecc => Sys2Proof.Machine.execHodRead r e d ecc s
  | .seedSave r e d => Sys2Proof.Machine.execSeedSave r e d s
  | .seedErase r e d => Sys2Proof.Machine.execSeedErase r e d s
  | .retireMapClear r e d => Sys2Proof.Machine.execRetireMapClear r e d s
  | .calibrate r e d => Sys2Proof.Machine.execCalibrate r e d s
  | .foregroundCalDone n slices groups => Sys2Proof.Machine.execForegroundCalDone n slices groups s
  | .biasSet r e d => Sys2Proof.Machine.execBiasSet r e d s
  | .quench r e d => Sys2Proof.Machine.execQuench r e d s
  | .scInject r e d => Sys2Proof.Machine.execScInject r e d s
  | .cmisRead r e d => Sys2Proof.Machine.execCmisRead r e d s
  | .cmisWrite r e d => Sys2Proof.Machine.execCmisWrite r e d s
  | .updateStage r e d => Sys2Proof.Machine.execUpdateStage r e d s
  | .imageVerifyDone ecc => Sys2Proof.Machine.execImageVerifyDone ecc s
  | .updateActivate r e d => Sys2Proof.Machine.execUpdateActivate r e d s
  | .activationComplete => Sys2Proof.Machine.execActivationComplete s
  | .trialHealthy => Sys2Proof.Machine.execTrialHealthy s
  | .updateConfirm r e d => Sys2Proof.Machine.execUpdateConfirm r e d s
  | .updateAbort r e d => Sys2Proof.Machine.execUpdateAbort r e d s
  | .confirmWindowExpiry => Sys2Proof.Machine.execConfirmWindowExpiry s
  | .fallbackEnd => Sys2Proof.Machine.execFallbackEnd s
  | .updateCommit r e d => Sys2Proof.Machine.execUpdateCommit r e d s
  | .commitRecordWritten good ecc => Sys2Proof.Machine.execCommitRecordWritten good ecc s
  | .bootTrialHealthy => Sys2Proof.Machine.execBootTrialHealthy s
  | .bootTrialWindowExpiry => Sys2Proof.Machine.execBootTrialWindowExpiry s
  | .nvmWriteRetry => Sys2Proof.Machine.execNvmWriteRetry s
  | .twinImagePush f accepted => Sys2Proof.Machine.execTwinImagePush f accepted s
  | .twinImageOffer n => Sys2Proof.Machine.execTwinImageOffer n s
  | .twinImageReceived data => Sys2Proof.Machine.execTwinImageReceived data s
  | .attest r e d => Sys2Proof.Machine.execAttest r e d s
  | .identityRead r e d => Sys2Proof.Machine.execIdentityRead r e d s
  | .keyslotWrite r e d => Sys2Proof.Machine.execKeyslotWrite r e d s
  | .keyslotErase r e d => Sys2Proof.Machine.execKeyslotErase r e d s
  | .bistRun r e d => Sys2Proof.Machine.execBistRun r e d s
  | .bistRunEnd code q => Sys2Proof.Machine.execBistRunEnd code q s
  | .twinHandover r e d => Sys2Proof.Machine.execTwinHandover r e d s
  | .twinTakeover r e d => Sys2Proof.Machine.execTwinTakeover r e d s
  | .takeoverTimeout c => Sys2Proof.Machine.execTakeoverTimeout c s
  | .twinLogQuery r e d ecc => Sys2Proof.Machine.execTwinLogQuery r e d ecc s
  | .programLoad r e d => Sys2Proof.Machine.execProgramLoad r e d s
  | .programCtrl r e d => Sys2Proof.Machine.execProgramCtrl r e d s
  | .engineFailure e cause => Sys2Proof.Machine.execEngineFailure e cause s
  | .engineSubstituted ecc => Sys2Proof.Machine.execEngineSubstituted ecc s
  | .keepCoreFault k cause => Sys2Proof.Machine.execKeepCoreFault k cause s
  | .foremanFault cause => Sys2Proof.Machine.execForemanFault cause s
  | .foremanRestartDone => Sys2Proof.Machine.execForemanRestartDone s
  | .watchdogExpiry e => Sys2Proof.Machine.execWatchdogExpiry e s
  | .engineInterrupt e => Sys2Proof.Machine.execEngineInterrupt e s
  | .engineWake e src level early => Sys2Proof.Machine.execEngineWake e src level early s
  | .engAdd e rd rs rt => Sys2Proof.Machine.execEngAdd e rd rs rt s
  | .engSub e rd rs rt => Sys2Proof.Machine.execEngSub e rd rs rt s
  | .engAnd e rd rs rt => Sys2Proof.Machine.execEngAnd e rd rs rt s
  | .engOr e rd rs rt => Sys2Proof.Machine.execEngOr e rd rs rt s
  | .engXor e rd rs rt => Sys2Proof.Machine.execEngXor e rd rs rt s
  | .engSll e rd rs rt => Sys2Proof.Machine.execEngSll e rd rs rt s
  | .engSrl e rd rs rt => Sys2Proof.Machine.execEngSrl e rd rs rt s
  | .engSra e rd rs rt => Sys2Proof.Machine.execEngSra e rd rs rt s
  | .engMin e rd rs rt => Sys2Proof.Machine.execEngMin e rd rs rt s
  | .engMax e rd rs rt => Sys2Proof.Machine.execEngMax e rd rs rt s
  | .engSlt e rd rs rt => Sys2Proof.Machine.execEngSlt e rd rs rt s
  | .engSltu e rd rs rt => Sys2Proof.Machine.execEngSltu e rd rs rt s
  | .engAdds e rd rs rt => Sys2Proof.Machine.execEngAdds e rd rs rt s
  | .engSubs e rd rs rt => Sys2Proof.Machine.execEngSubs e rd rs rt s
  | .engClz e rd rs => Sys2Proof.Machine.execEngClz e rd rs s
  | .engAbs e rd rs => Sys2Proof.Machine.execEngAbs e rd rs s
  | .engAddi e rd rs imm => Sys2Proof.Machine.execEngAddi e rd rs imm s
  | .engSlti e rd rs imm => Sys2Proof.Machine.execEngSlti e rd rs imm s
  | .engAndi e rd rs imm => Sys2Proof.Machine.execEngAndi e rd rs imm s
  | .engOri e rd rs imm => Sys2Proof.Machine.execEngOri e rd rs imm s
  | .engXori e rd rs imm => Sys2Proof.Machine.execEngXori e rd rs imm s
  | .engSlli e rd rs imm => Sys2Proof.Machine.execEngSlli e rd rs imm s
  | .engSrli e rd rs imm => Sys2Proof.Machine.execEngSrli e rd rs imm s
  | .engSrai e rd rs imm => Sys2Proof.Machine.execEngSrai e rd rs imm s
  | .engLui e rd imm => Sys2Proof.Machine.execEngLui e rd imm s
  | .engMul e a rs rt hs ht => Sys2Proof.Machine.execEngMul e a rs rt hs ht s
  | .engMac e a rs rt hs ht => Sys2Proof.Machine.execEngMac e a rs rt hs ht s
  | .engMsu e a rs rt hs ht => Sys2Proof.Machine.execEngMsu e a rs rt hs ht s
  | .engDmac e a rs rt hs ht => Sys2Proof.Machine.execEngDmac e a rs rt hs ht s
  | .engDmacs e a rs rt hs ht => Sys2Proof.Machine.execEngDmacs e a rs rt hs ht s
  | .engExt e rd a sh => Sys2Proof.Machine.execEngExt e rd a sh s
  | .engClra e a => Sys2Proof.Machine.execEngClra e a s
  | .engMova e a rs => Sys2Proof.Machine.execEngMova e a rs s
  | .engAdda e a b => Sys2Proof.Machine.execEngAdda e a b s
  | .engAsra e a sh => Sys2Proof.Machine.execEngAsra e a sh s
  | .engGrda e rd a => Sys2Proof.Machine.execEngGrda e rd a s
  | .engLw e rd m busy ecc => Sys2Proof.Machine.execEngLw e rd m busy ecc s
  | .engLh e rd m busy ecc => Sys2Proof.Machine.execEngLh e rd m busy ecc s
  | .engLhu e rd m busy ecc => Sys2Proof.Machine.execEngLhu e rd m busy ecc s
  | .engSw e r m busy => Sys2Proof.Machine.execEngSw e r m busy s
  | .engSh e r m busy => Sys2Proof.Machine.execEngSh e r m busy s
  | .engSacw e r m busy => Sys2Proof.Machine.execEngSacw e r m busy s
  | .engSach e r m busy => Sys2Proof.Machine.execEngSach e r m busy s
  | .engBra e ofs => Sys2Proof.Machine.execEngBra e ofs s
  | .engBeqz e rs ofs => Sys2Proof.Machine.execEngBeqz e rs ofs s
  | .engBnez e rs ofs => Sys2Proof.Machine.execEngBnez e rs ofs s
  | .engBltz e rs ofs => Sys2Proof.Machine.execEngBltz e rs ofs s
  | .engBgez e rs ofs => Sys2Proof.Machine.execEngBgez e rs ofs s
  | .engBal e ofs => Sys2Proof.Machine.execEngBal e ofs s
  | .engJr e rs => Sys2Proof.Machine.execEngJr e rs s
  | .engRep e form rs cnt => Sys2Proof.Machine.execEngRep e form rs cnt s
  | .engMfs e rd num => Sys2Proof.Machine.execEngMfs e rd num s
  | .engMts e rs num => Sys2Proof.Machine.execEngMts e rs num s
  | .engWait e => Sys2Proof.Machine.execEngWait e s
  | .engSvc e num beats => Sys2Proof.Machine.execEngSvc e num beats s
  | .engRti e => Sys2Proof.Machine.execEngRti e s
  | .engSync e => Sys2Proof.Machine.execEngSync e s
  | .engNop e => Sys2Proof.Machine.execEngNop e s
  | .budgetExhausted n => Sys2Proof.Machine.execBudgetExhausted n s
  | .budgetPeriod n => Sys2Proof.Machine.execBudgetPeriod n s
  | .stateBlockWrite e data => Sys2Proof.Machine.execStateBlockWrite e data s
  | .pmcClear p => Sys2Proof.Machine.execPmcClear p s
  | .dpClear => Sys2Proof.Machine.execDpClear s
  | .losAssert n => Sys2Proof.Machine.execLosAssert n s
  | .losClear n => Sys2Proof.Machine.execLosClear n s
  | .agcBlockEnd n rms => Sys2Proof.Machine.execAgcBlockEnd n rms s
  | .gradientBlockEnd n g mse lev => Sys2Proof.Machine.execGradientBlockEnd n g mse lev s
  | .cdrLock n det => Sys2Proof.Machine.execCdrLock n det s
  | .cdrLockLoss n => Sys2Proof.Machine.execCdrLockLoss n s
  | .acqStepComplete n xs lev p95 => Sys2Proof.Machine.execAcqStepComplete n xs lev p95 s
  | .acqRetry n => Sys2Proof.Machine.execAcqRetry n s
  | .apbReceived n syms at_ => Sys2Proof.Machine.execApbReceived n syms at_ s
  | .frameLockLoss n => Sys2Proof.Machine.execFrameLockLoss n s
  | .frameLockTimeout n => Sys2Proof.Machine.execFrameLockTimeout n s
  | .codewordDecode n llr std => Sys2Proof.Machine.execCodewordDecode n llr std s
  | .ocmCodeword n errs => Sys2Proof.Machine.execOcmCodeword n errs s
  | .ocmClear n => Sys2Proof.Machine.execOcmClear n s
  | .ocmFreeze n on => Sys2Proof.Machine.execOcmFreeze n on s
  | .surveyEnd n m => Sys2Proof.Machine.execSurveyEnd n m s
  | .calStepDone n m => Sys2Proof.Machine.execCalStepDone n m s
  | .shadowStart n => Sys2Proof.Machine.execShadowStart n s
  | .shadowCompareDone n ms win => Sys2Proof.Machine.execShadowCompareDone n ms win s
  | .calGroupDone n ms => Sys2Proof.Machine.execCalGroupDone n ms s
  | .bandgapCheck r0 r1 => Sys2Proof.Machine.execBandgapCheck r0 r1 s
  | .bandgapRelease => Sys2Proof.Machine.execBandgapRelease s
  | .firCommit n => Sys2Proof.Machine.execFirCommit n s
  | .txFirStageWrite n v => Sys2Proof.Machine.execTxFirStageWrite n v s
  | .maskWrite n v => Sys2Proof.Machine.execMaskWrite n v s
  | .txOutputEnable n => Sys2Proof.Machine.execTxOutputEnable n s
  | .prbsInjOne p => Sys2Proof.Machine.execPrbsInjOne p s
  | .prbsErrClear p => Sys2Proof.Machine.execPrbsErrClear p s
  | .checkerLock p count bits => Sys2Proof.Machine.execCheckerLock p count bits s
  | .epochSyncEdge t => Sys2Proof.Machine.execEpochSyncEdge t s
  | .epochBoundary c => Sys2Proof.Machine.execEpochBoundary c s
  | .slotArm n k => Sys2Proof.Machine.execSlotArm n k s
  | .burstOnset n level => Sys2Proof.Machine.execBurstOnset n level s
  | .burstDetect n m => Sys2Proof.Machine.execBurstDetect n m s
  | .sdMatch n peaks sd m => Sys2Proof.Machine.execSdMatch n peaks sd m s
  | .falseStart n at_ => Sys2Proof.Machine.execFalseStart n at_ s
  | .acqRestart m => Sys2Proof.Machine.execAcqRestart m s
  | .burstPolicyTrigger m => Sys2Proof.Machine.execBurstPolicyTrigger m s
  | .burstTruncated m => Sys2Proof.Machine.execBurstTruncated m s
  | .edTest n r g lev p95 => Sys2Proof.Machine.execEdTest n r g lev p95 s
  | .slotMissed n => Sys2Proof.Machine.execSlotMissed n s
  | .txHeaderReceived n block at_ => Sys2Proof.Machine.execTxHeaderReceived n block at_ s
  | .txSlotStart n k => Sys2Proof.Machine.execTxSlotStart n k s
  | .hostFramingLock n lock => Sys2Proof.Machine.execHostFramingLock n lock s
  | .blockDrop c b rate => Sys2Proof.Machine.execBlockDrop c b rate s
  | .slackSurvey c bufs => Sys2Proof.Machine.execSlackSurvey c bufs s
  | .avsAdvice => Sys2Proof.Machine.execAvsAdvice s
  | .slackMinClr f c => Sys2Proof.Machine.execSlackMinClr f c s
  | .hostTrainReady k a => Sys2Proof.Machine.execHostTrainReady k a s
  | .hostTrainTimeout k => Sys2Proof.Machine.execHostTrainTimeout k s
  | .hostTrainRestart k => Sys2Proof.Machine.execHostTrainRestart k s
  | .sigLockChange k pll los cdr => Sys2Proof.Machine.execSigLockChange k pll los cdr s
  | .txEqWrite k v => Sys2Proof.Machine.execTxEqWrite k v s
  | .biasConnect b => Sys2Proof.Machine.execBiasConnect b s
  | .biasRampTick b vbias m => Sys2Proof.Machine.execBiasRampTick b vbias m s
  | .biasParkStep b => Sys2Proof.Machine.execBiasParkStep b s
  | .biasComplianceDetect m => Sys2Proof.Machine.execBiasComplianceDetect m s
  | .biasOpenDetect m => Sys2Proof.Machine.execBiasOpenDetect m s
  | .biasFlagClear b v vbias m => Sys2Proof.Machine.execBiasFlagClear b v vbias m s
  | .referenceReady x => Sys2Proof.Machine.execReferenceReady x s
  | .scRoundEnd x uv => Sys2Proof.Machine.execScRoundEnd x uv s
  | .injectTimer x => Sys2Proof.Machine.execInjectTimer x s
  | .systemInjection x => Sys2Proof.Machine.execSystemInjection x s
  | .injectedRunEnd x uv entry => Sys2Proof.Machine.execInjectedRunEnd x uv entry s
  | .cmisPoll c m => Sys2Proof.Machine.execCmisPoll c m s
  | .modIntAssert c => Sys2Proof.Machine.execModIntAssert c s
  | .cmisBusTimeout c => Sys2Proof.Machine.execCmisBusTimeout c s
  | .filkorDetectProbe far => Sys2Proof.Machine.execFilkorDetectProbe far s
  | .filkorBitlock => Sys2Proof.Machine.execFilkorBitlock s
  | .filkorBlocklock skew => Sys2Proof.Machine.execFilkorBlocklock skew s
  | .filkorTrainTimeout => Sys2Proof.Machine.execFilkorTrainTimeout s
  | .blockLockLoss k hdr => Sys2Proof.Machine.execBlockLockLoss k hdr s
  | .farTerminationLoss k => Sys2Proof.Machine.execFarTerminationLoss k s
  | .filkorRetrain => Sys2Proof.Machine.execFilkorRetrain s
  | .fl1Entry => Sys2Proof.Machine.execFl1Entry s
  | .fl2Enter => Sys2Proof.Machine.execFl2Enter s
  | .fl2Exit => Sys2Proof.Machine.execFl2Exit s
  | .capsFrameReceived q => Sys2Proof.Machine.execCapsFrameReceived q s
  | .pairingTransferDone sets => Sys2Proof.Machine.execPairingTransferDone sets s
  | .heartbeatSend => Sys2Proof.Machine.execHeartbeatSend s
  | .heartbeatReceived h => Sys2Proof.Machine.execHeartbeatReceived h s
  | .twinSilence => Sys2Proof.Machine.execTwinSilence s
  | .leaseExpiry c => Sys2Proof.Machine.execLeaseExpiry c s
  | .twinSenseChange c level => Sys2Proof.Machine.execTwinSenseChange c level s
  | .secondarySoloRaise c => Sys2Proof.Machine.execSecondarySoloRaise c s
  | .secondaryHoldTimeout => Sys2Proof.Machine.execSecondaryHoldTimeout s
  | .txTimeReceived n fcount pos phase near => Sys2Proof.Machine.execTxTimeReceived n fcount pos phase near s
  | .mirrorFrameReceived q r op e d => Sys2Proof.Machine.execMirrorFrameReceived q r op e d s
  | .mirrorAckReceived q st => Sys2Proof.Machine.execMirrorAckReceived q st s
  | .mirrorAckTimeout => Sys2Proof.Machine.execMirrorAckTimeout s
  | .pairingWaitTimeout r => Sys2Proof.Machine.execPairingWaitTimeout r s
  | .sensorSample t v bad => Sys2Proof.Machine.execSensorSample t v bad s
  | .stepWaitExpiry c => Sys2Proof.Machine.execStepWaitExpiry c s
  | .ladderReverse f v => Sys2Proof.Machine.execLadderReverse f v s
  | .threshWrite f v => Sys2Proof.Machine.execThreshWrite f v s
  | .tripRecordCopy => Sys2Proof.Machine.execTripRecordCopy s
  | .resetHoldRelease b => Sys2Proof.Machine.execResetHoldRelease b s
  | .scrubRead word hit bit last => Sys2Proof.Machine.execScrubRead word hit bit last s
  | .coursePllFailure c => Sys2Proof.Machine.execCoursePllFailure c s
  | .hostAlignmentMarkerLock k lock at_ => Sys2Proof.Machine.execHostAlignmentMarkerLock k lock at_ s
  | .ocmCodewordLock n lock => Sys2Proof.Machine.execOcmCodewordLock n lock s
  | .txBlockBoundary n m => Sys2Proof.Machine.execTxBlockBoundary n m s
  | .txUnderrun n => Sys2Proof.Machine.execTxUnderrun n s
  | .runningMeanBelowCrit c buf busy => Sys2Proof.Machine.execRunningMeanBelowCrit c buf busy s
  | .pulseLost c => Sys2Proof.Machine.execPulseLost c s
  | .vfEnableWrite en => Sys2Proof.Machine.execVfEnableWrite en s
  | .tapInstruction k => Sys2Proof.Machine.execTapInstruction k s
  | .cmisAccessDone c data => Sys2Proof.Machine.execCmisAccessDone c data s
  | .attestationSigned r => Sys2Proof.Machine.execAttestationSigned r s
  | .swapBoundExpiry => Sys2Proof.Machine.execSwapBoundExpiry s
  | .pmcCounterWrap p => Sys2Proof.Machine.execPmcCounterWrap p s

end Sys2Proof.Machine
end

