-- ==== Sys2Proof/Safety.lean ====
section
/-! DEFINITION. The terms the statements about the block are written in: that a command answers a next state, what a
command leaves alone, how a ring command is taken up and finished, and the conditions of the spec that statements share. -/

namespace Sys2Proof.Machine

/-- The command answers a next state, of which `P` holds. -/
def Gives (c : Instr) (s : State) (P : State → Prop) : Prop := ∃ t, exec c s = .next t ∧ P t

/-- Every register field away from the places `keys` reads as before. -/
def RegsBut (s t : State) (keys : List Nat) : Prop := ∀ k d, k ∉ keys → Tab.get d t.regs k = Tab.get d s.regs k

/-- Nothing but the register file differs, and of it only the places `keys`. -/
def OnlyRegs (s t : State) (keys : List Nat) : Prop := t = { s with regs := t.regs } ∧ RegsBut s t keys

/-- The places of the datapath counters and their overflow flags (R385), which count events of every family. -/
def dpKeys : List Nat :=
  (List.range 32).map (fun i => Reg.PMC.DP_CNT.COUNT.key i 0) ++ (List.range 32).map fun i => Reg.PMC.DP_SEL.OVF.key i 0

/-- The ring command of opcode `o` in ring `r` is taken up (R303, R328): the flight `f` is the ring's next to start,
fetched from its head where nothing waited; every check of R328 up to the eighth passes in the state `u` it is judged
in; it is no dry run (R324) and is not sent to a twin first (R279). -/
def Taken (s : State) (o : Op) (r : Nat) (e : Entry) (d : Dma) (u : State) (f : Flight) : Prop :=
  s.takeUp r (opCode o) e d = some (u, f) ∧ startable (u.ring r).flights f = true ∧ u.judge f = .applies ∧
    f.e.flags.toNat / 2 % 2 = 0

/-- The command in flight `f` of ring `r` finishes with `res`, in a state of which `P` holds. -/
def Finishes (c : Instr) (s : State) (r : Nat) (f : Flight) (res : Res) (P : State → Prop) : Prop :=
  ∃ u, exec c s = .next (u.finish (.host r f.fid) res) ∧ P u

/-- R299: what RING_ENABLE finds in order for a ring, with the SIZE and TYPE the write carries and the owner it leaves. -/
def ringShapeOk (s : State) (r : Nat) (v : Word) (owner : Nat) : Prop :=
  4 ≤ bitsOf v.toNat 2 5 ∧ bitsOf v.toNat 2 5 ≤ 16 ∧ s.rd Reg.RING.CQ_BASE.ADDR r ≠ 0 ∧
    (bitsOf v.toNat 1 1 = 1 ∨ s.rd Reg.RING.SQ_BASE.ADDR r ≠ 0) ∧
    (s.rd Reg.RING.INTR.IE r = 0 ∨ s.rd Reg.RING.INTR.VECTOR r < msixSize owner)

/-- The owner a CFG write by function `f` leaves to a ring at rest (R295). -/
def ownerAfter (s : State) (f : FnNo) (r : Nat) (v : Word) : Nat :=
  if f.val = 0 then bitsOf v.toNat 7 6 else s.ringOwner r

/-- No image is being activated, on trial or in boot trial (R459, R460, R464). -/
def State.updQuiet (s : State) : Prop :=
  s.rd Reg.UPD.STAT.STATE ≠ 3 ∧ s.rd Reg.UPD.STAT.STATE ≠ 4 ∧ s.upd.bootTrial = false

/-- What a program sees of an engine beside where it stands: the registers, accumulators and memories, without the PC,
what is pending in the pipeline, the counts of beats and the tagger's state. -/
def EngX.arch (x : EngX) : EngX :=
  { x with pc := 0, slots := none, oldReg := none, rep := none, beat := 0, wdt := 0, prog := none, tagCnt := 0, lfsr := 0
           unread := [] }

/-- Where an engine goes after an instruction that is no branch (R369): on, or to the target after the second delay
slot. -/
def EngX.nextPc (x : EngX) : Word :=
  match x.slots with
  | some (1, t) => t
  | _ => x.pc + 4

/-- The delay slots left after an instruction that is no branch. -/
def EngX.nextSlots (x : EngX) : Option (Nat × Word) :=
  match x.slots with
  | some (1, _) => none
  | some (k, t) => some (k - 1, t)
  | none => none

/-- Engine `e` issues the instruction at its PC, alone, with no stop of its program waiting. -/
def State.engFree (s : State) (e : Nat) : Prop :=
  s.engIssues e = true ∧ fetchOk e (s.engOf e) = true ∧ (s.engOf e).rep = none ∧
    (∀ p, (s.engOf e).prog = some p → p.stopDue = none) ∧ s.rd Reg.ENG.TAG_CTRL.WR_PTR e < 32

/-- Only engine `e` and the registers of its window differ (R390), and free values may have been used. -/
def OnlyEngine (s t : State) (e : Nat) : Prop :=
  t = { s with regs := t.regs, eng := t.eng, freeCtr := t.freeCtr } ∧ (∀ j, j ≠ e → t.engOf j = s.engOf j) ∧
    ∀ k d, (k < 8 * (0x1000000 + 0x20000 * e) ∨ 8 * (0x1000000 + 0x20000 * (e + 1)) ≤ k) →
      Tab.get d t.regs k = Tab.get d s.regs k

/-- Command `c` retires in engine `e`, which then holds `y` and stands at `pc` with the delay slots `slots`; it took
`beats` beats, and `load` is the register whose old value the next instruction still reads (R369). -/
def RetiresTo (c : Instr) (s : State) (e : Nat) (y : EngX) (beats : Nat) (load : Option (Nat × Word)) (pc : Word)
    (slots : Option (Nat × Word)) : Prop :=
  Gives c s fun t => (t.engOf e).arch = y.arch ∧ (t.engOf e).beat = (s.engOf e).beat + BitVec.ofNat 64 beats ∧
    (t.engOf e).oldReg = load ∧ (t.engOf e).pc = pc ∧ (t.engOf e).slots = slots ∧ OnlyEngine s t e

/-- Command `c` retires in engine `e` in one beat and goes on in order; the engine then holds `y`. -/
def Retires (c : Instr) (s : State) (e : Nat) (y : EngX) : Prop :=
  RetiresTo c s e y 1 none (s.engOf e).nextPc (s.engOf e).nextSlots

/-- Command `c` is a sandbox violation of the program of lane engine `n` (R382): the state becomes FAULTED with the
cause and the PC, LANE_PROGRAM_FAULT is raised, the engine leaves user mode with its registers, accumulators and
memories as they were, and it goes on serving its lane. -/
def Violates (c : Instr) (s : State) (n cause : Nat) : Prop :=
  let x := s.engOf n
  Gives c s fun t =>
    t.rd Reg.ENG.PROG_STAT.STATE n = 4 ∧ t.rd Reg.ENG.PROG_STAT.CAUSE n = cause ∧
      t.rd Reg.ENG.FAULT_PC.PC n = x.pc.toNat ∧ t.flag Reg.EVT.LATCH.RAISED 7 = true ∧
      (s.k4On = true → t.raises = s.raises ++ [⟨7, s.time, n + 256 * cause + 65536 * x.pc.toNat, false⟩]) ∧
      (t.engOf n).arch = { x with status := x.status &&& 0x1FF }.arch ∧ (t.engOf n).user = false ∧
      t.engMapOf n = s.engMapOf n ∧ t.upd = s.upd ∧ t.out = s.out ∧ (∀ j, j ≠ n → t.engOf j = s.engOf j)

/-- A load of `n` bytes through address mode `m` leaves `v` in rd: the address register steps, and the next
instruction still reads the register's old value. -/
def LoadsValue (c : Instr) (s : State) (e : Nat) (rd : GReg) (m : AddrMode) (busy : Bool) (v : Word) : Prop :=
  let x := s.engOf e
  RetiresTo c s e ((x.step m).setReg rd v) (1 + bitVal busy) (some (rd.val, Tab.get 0 x.g rd)) x.nextPc x.nextSlots

/-- A store puts the bytes `b` into the data memory at byte address `a`: every byte there is the value's, every other
one reads as before, and beside the address register and SV (set with `sat`) the engine is unchanged. -/
def StoresBytes (c : Instr) (s : State) (e : Nat) (m : AddrMode) (busy sat : Bool) (a : Nat) (b : List Byte) : Prop :=
  let x := s.engOf e
  Gives c s fun t =>
    (∀ k, Tab.get 0 (t.engOf e).data k =
      (if a - 0x10000000 ≤ k ∧ k < a - 0x10000000 + b.length then b.getD (k - (a - 0x10000000)) 0 else Tab.get 0 x.data k)) ∧
    { (t.engOf e).arch with data := [] } =
      { (if sat then (x.step m).setFlag 5 true else x.step m).arch with data := [] } ∧
    (t.engOf e).beat = x.beat + BitVec.ofNat 64 (1 + bitVal busy) ∧ (t.engOf e).pc = x.nextPc ∧
    (t.engOf e).slots = x.nextSlots ∧ OnlyEngine s t e

/-- The bytes of a load as the engine finds them in its data memory, little-endian (R7). -/
def EngX.dataAt (x : EngX) (a n : Nat) : Nat := leNat (Tab.getList 0 x.data (a - 0x10000000) n)

/-- The places an event raise of source `src` writes: its latch and the number of the last source (R501, R503). -/
def raiseKeys (src : Nat) : List Nat := [Reg.EVT.LATCH.RAISED.key src 0, Reg.EVT.STAT.LAST_SRC.key 0 0]

/-- From `s` to `t` the event of source `src` is raised with `detail`: latched, and sent on where core K4 runs (R501). -/
def RaisesEvent (s t : State) (src detail : Nat) : Prop :=
  t.flag Reg.EVT.LATCH.RAISED src = true ∧ t.rd Reg.EVT.STAT.LAST_SRC = src ∧
    (s.k4On = true → t.raises = s.raises ++ [⟨src, s.time, detail, false⟩])

/-- No event is raised from `s` to `t`. -/
def NoRaise (s t : State) : Prop := t.raises = s.raises ∧ t.held = s.held

/-- A burst exception of lane `n` (R182): the first of an epoch raises BURST_EXCEPTION, a later one raises nothing. -/
def Excepts (s t : State) (n : Nat) : Prop :=
  (t.bstOf n).raised = true ∧ ((s.bstOf n).raised = true → NoRaise s t) ∧
    ((s.bstOf n).raised = false → RaisesEvent s t (laneSrc n 5) 0)

/-- A saturating 16-bit counter of lane `n` goes up by one. -/
def Counts (s t : State) (f : Fld) (n : Nat) : Prop := t.rd f n = min (s.rd f n + 1) 65535

/-- The burst of slot `b` on lane `n` ends with `status` (R176, R181, R187): the codewords it did not deliver are
replaced by fill of the lane's PRBS31, the trailer follows, and the next record takes the next sequence number. -/
def EndsBurst (s t : State) (n : Nat) (b : Slot) (status : Nat) : Prop :=
  let x := s.bstOf n
  let left := (if s.rd Reg.LN.FMT_CFG.CONST n = 2 then 960 else 240) * (b.len - (x.cwLine + x.cwFill))
  t.rd Reg.LN.BST_LAST.STATUS n = status ∧ (t.bstOf n).seq = (x.seq + 1) % 65536 ∧
    t.out = s.out ++ (if left = 0 then [] else [.payload n 0 left (s.rxFill n left).1]) ++
      [.ctlBlock (2 * n) [framedBlock 0xE1 (blockField 72 8 status + blockField 80 16 x.seq + blockField 96 16 x.cwLine +
        blockField 112 16 x.cwUncorr + blockField 128 24 (min (2 ^ 24 - 1) x.bits))]]

/-- The command `c` ends the waiting command of origin `o` with `res`, in a state of which `P` holds. -/
def EndsWith (c : Instr) (s : State) (o : Origin) (res : Res) (P : State → Prop) : Prop :=
  ∃ u, exec c s = .next (u.finish o res) ∧ P u

/-- Every register field in the byte range `[lo, hi)` reads its value after cold reset. -/
def AtReset (t : State) (lo hi : Nat) : Prop := ∀ k d, 8 * lo ≤ k → k < 8 * hi → Tab.get d t.regs k = d

/-- The command `c` ends the waiting command of origin `o` with `res`, after a state of which `P` holds, and then the slices
of lane `n` settle. -/
def EndsAndSettles (c : Instr) (s : State) (n : Nat) (o : Origin) (res : Res) (P : State → Prop) : Prop :=
  ∃ u, exec c s = .next ((u.finish o res).slicesSettle n) ∧ P u

end Sys2Proof.Machine
end

