-- ==== Sys2Proof/WellFormed.lean ====
section
/-! DEFINITION. Well-formed commands: operands that the source of a command can send. Numbers fit the width the spec
gives them, lists have the length of what they report, and no two entries of a list name one thing. What the device
turns away (an unaligned access, a bad field of an entry) is well-formed: the device answers it. -/

namespace Sys2Proof

/-- An offset in PF0's BAR0 of 64 MiB (R294). -/
def inBar0 (a : Nat) : Bool := decide (a < 0x4000000)

/-- A hod word and the failing bit of a hit (R391, R395). -/
def EccHit.wf (x : EccHit) : Bool := decide (x.word < 0x1800000) && (match x.bit with | some b => decide (b < 64) | none => true)

/-- The hits of a read, at most one a word. -/
def eccWf (l : List EccHit) : Bool := l.all EccHit.wf && (l.map fun x => x.word).Nodup

/-- A run of `k` parameters, each measured with one to four pairs (R121, R122). -/
def measWf (k : Nat) (ms : List Meas) : Bool :=
  ms.length == k && ms.all fun m => decide (1 ≤ m.length) && decide (m.length ≤ 4)

/-- What a lane's 68 slices and its groups A, P, D, C and T are measured at (R107, R121). -/
def calWf (slices groups : List (List Meas)) : Bool :=
  slices.length == 68 && slices.all (measWf 8) && groups.length == 5 &&
    (groups.zip [1, 128, 128, 1, 2]).all fun p => measWf p.2 p.1

/-- What a start finds: the first 76 bytes of both commit records (R449). -/
def BootIn.wf (b : BootIn) : Bool := b.rec0.length == 76 && b.rec1.length == 76


/-- The operands of a command are values its source can send. -/
def Instr.wf : Instr → Bool
  | .coldReset => true
  | .warmReset => true
  | .perstRelease b => b.wf
  | .deviceReady => true
  | .supplyLoss _ => true
  | .supplyRestored b => b.wf
  | .vbiasPowerUp => true
  | .vbiasLoss => true
  | .functionLevelReset _ => true
  | .dKeepEntry => true
  | .dKeepExit b => b.wf
  | .vfD3hot _ _ => true
  | .pcieLinkTrained _ _ _ => true
  | .regWrite _ a n v => inBar0 a && decide (v < 2 ^ (8 * n))
  | .regReadClear _ a _ => inBar0 a
  | .regLoRead _ a => inBar0 a
  | .offDomainAccess _ a _ => inBar0 a
  | .ringEnable _ _ _ => true
  | .ringDisable _ _ _ => true
  | .ringQuiesced _ => true
  | .ringOwnerWrite _ _ _ => true
  | .sqTailDoorbell _ _ ofs width _ => decide (ofs < 4096) && decide (1 ≤ width) && decide (width ≤ 8)
  | .cqHeadDoorbell _ _ ofs width _ => decide (ofs < 4096) && decide (1 ≤ width) && decide (width ≤ 8)
  | .workUnitServe u => (u.map fun p => p.ring).Nodup
  | .eventRecordWrite => true
  | .coalesceTimerExpiry _ => true
  | .msixVectorUnmask _ v => decide (v < 2048)
  | .evtMapWrite _ _ _ => true
  | .sessionOpen _ _ _ => true
  | .lockoutExpiry _ => true
  | .nonceExpiry _ => true
  | .sessionClose _ _ _ => true
  | .sessionIdleExpiry _ => true
  | .nop _ _ _ => true
  | .laneConfig _ _ _ => true
  | .laneState _ _ _ => true
  | .laneFir _ _ _ => true
  | .cfgWrite _ _ _ => true
  | .schedWrite _ _ _ => true
  | .powerSet _ _ _ => true
  | .powerTransitionEnd _ cal => cal.all fun x => calWf x.slices x.groups
  | .pwrGo _ _ => true
  | .courseOffImmediate _ _ _ => true
  | .padRelease _ _ _ => true
  | .snapshot _ _ _ => true
  | .surveyRead _ _ _ ecc => eccWf ecc
  | .captureStart _ _ _ => true
  | .captureTrigger _ _ => true
  | .captureComplete _ _ => true
  | .captureTimeout _ _ => true
  | .captureDrain _ _ _ ecc => eccWf ecc
  | .captureFree _ _ _ => true
  | .hodFill _ _ _ => true
  | .hodWrite _ _ _ ecc => eccWf ecc
  | .hodRead _ _ _ ecc => eccWf ecc
  | .seedSave _ _ _ => true
  | .seedErase _ _ _ => true
  | .retireMapClear _ _ _ => true
  | .calibrate _ _ _ => true
  | .foregroundCalDone _ slices groups => calWf slices groups
  | .biasSet _ _ _ => true
  | .quench _ _ _ => true
  | .scInject _ _ _ => true
  | .cmisRead _ _ _ => true
  | .cmisWrite _ _ _ => true
  | .updateStage _ _ _ => true
  | .imageVerifyDone ecc => eccWf ecc
  | .updateActivate _ _ _ => true
  | .activationComplete => true
  | .trialHealthy => true
  | .updateConfirm _ _ _ => true
  | .updateAbort _ _ _ => true
  | .confirmWindowExpiry => true
  | .fallbackEnd => true
  | .updateCommit _ _ _ => true
  | .commitRecordWritten _ ecc => eccWf ecc
  | .bootTrialHealthy => true
  | .bootTrialWindowExpiry => true
  | .nvmWriteRetry => true
  | .twinImagePush _ _ => true
  | .twinImageOffer _ => true
  | .twinImageReceived _ => true
  | .attest _ _ _ => true
  | .identityRead _ _ _ => true
  | .keyslotWrite _ _ _ => true
  | .keyslotErase _ _ _ => true
  | .bistRun _ _ _ => true
  | .bistRunEnd _ _ => true
  | .twinHandover _ _ _ => true
  | .twinTakeover _ _ _ => true
  | .takeoverTimeout _ => true
  | .twinLogQuery _ _ _ ecc => eccWf ecc
  | .programLoad _ _ _ => true
  | .programCtrl _ _ _ => true
  | .engineFailure _ _ => true
  | .engineSubstituted ecc => eccWf ecc
  | .keepCoreFault _ _ => true
  | .foremanFault _ => true
  | .foremanRestartDone => true
  | .watchdogExpiry _ => true
  | .engineInterrupt _ => true
  | .engineWake _ _ _ _ => true
  | .engAdd _ _ _ _ => true
  | .engSub _ _ _ _ => true
  | .engAnd _ _ _ _ => true
  | .engOr _ _ _ _ => true
  | .engXor _ _ _ _ => true
  | .engSll _ _ _ _ => true
  | .engSrl _ _ _ _ => true
  | .engSra _ _ _ _ => true
  | .engMin _ _ _ _ => true
  | .engMax _ _ _ _ => true
  | .engSlt _ _ _ _ => true
  | .engSltu _ _ _ _ => true
  | .engAdds _ _ _ _ => true
  | .engSubs _ _ _ _ => true
  | .engClz _ _ _ => true
  | .engAbs _ _ _ => true
  | .engAddi _ _ _ _ => true
  | .engSlti _ _ _ _ => true
  | .engAndi _ _ _ _ => true
  | .engOri _ _ _ _ => true
  | .engXori _ _ _ _ => true
  | .engSlli _ _ _ _ => true
  | .engSrli _ _ _ _ => true
  | .engSrai _ _ _ _ => true
  | .engLui _ _ _ => true
  | .engMul _ _ _ _ _ _ => true
  | .engMac _ _ _ _ _ _ => true
  | .engMsu _ _ _ _ _ _ => true
  | .engDmac _ _ _ _ _ _ => true
  | .engDmacs _ _ _ _ _ _ => true
  | .engExt _ _ _ _ => true
  | .engClra _ _ => true
  | .engMova _ _ _ => true
  | .engAdda _ _ _ => true
  | .engAsra _ _ _ => true
  | .engGrda _ _ _ => true
  | .engLw _ _ _ _ _ => true
  | .engLh _ _ _ _ _ => true
  | .engLhu _ _ _ _ _ => true
  | .engSw _ _ _ _ => true
  | .engSh _ _ _ _ => true
  | .engSacw _ _ _ _ => true
  | .engSach _ _ _ _ => true
  | .engBra _ _ => true
  | .engBeqz _ _ _ => true
  | .engBnez _ _ _ => true
  | .engBltz _ _ _ => true
  | .engBgez _ _ _ => true
  | .engBal _ _ => true
  | .engJr _ _ => true
  | .engRep _ _ _ _ => true
  | .engMfs _ _ _ => true
  | .engMts _ _ _ => true
  | .engWait _ => true
  | .engSvc _ _ _ => true
  | .engRti _ => true
  | .engSync _ => true
  | .engNop _ => true
  | .budgetExhausted _ => true
  | .budgetPeriod _ => true
  | .stateBlockWrite _ _ => true
  | .pmcClear _ => true
  | .dpClear => true
  | .losAssert _ => true
  | .losClear _ => true
  | .agcBlockEnd _ _ => true
  | .gradientBlockEnd _ _ _ _ => true
  | .cdrLock _ _ => true
  | .cdrLockLoss _ => true
  | .acqStepComplete _ _ _ _ => true
  | .acqRetry _ => true
  | .apbReceived _ _ _ => true
  | .frameLockLoss _ => true
  | .frameLockTimeout _ => true
  | .codewordDecode _ _ _ => true
  | .ocmCodeword _ _ => true
  | .ocmClear _ => true
  | .ocmFreeze _ _ => true
  | .surveyEnd _ _ => true
  | .calStepDone _ m => measWf 6 m.ms && (m.pm.isEmpty || measWf 128 m.pm)
  | .shadowStart _ => true
  | .shadowCompareDone _ ms win =>
    measWf 2 ms && win.length == 16384 && win.all fun p => decide (p.1 < 256) && decide (p.2 < 256)
  | .calGroupDone _ ms => measWf 1 ms || measWf 128 ms
  | .bandgapCheck _ _ => true
  | .bandgapRelease => true
  | .firCommit _ => true
  | .txFirStageWrite _ _ => true
  | .maskWrite _ _ => true
  | .txOutputEnable _ => true
  | .prbsInjOne _ => true
  | .prbsErrClear _ => true
  | .checkerLock _ count bits => decide (bits < 2 ^ count)
  | .epochSyncEdge _ => true
  | .epochBoundary _ => true
  | .slotArm _ _ => true
  | .burstOnset _ _ => true
  | .burstDetect _ _ => true
  | .sdMatch _ _ _ _ => true
  | .falseStart _ _ => true
  | .acqRestart _ => true
  | .burstPolicyTrigger _ => true
  | .burstTruncated _ => true
  | .edTest _ _ _ _ _ => true
  | .slotMissed _ => true
  | .txHeaderReceived _ _ _ => true
  | .txSlotStart _ _ => true
  | .hostFramingLock _ _ => true
  | .blockDrop _ _ _ => true
  | .slackSurvey _ bufs => (bufs.map fun b => b.buf).Nodup
  | .avsAdvice => true
  | .slackMinClr _ _ => true
  | .hostTrainReady _ _ => true
  | .hostTrainTimeout _ => true
  | .hostTrainRestart _ => true
  | .sigLockChange _ _ _ _ => true
  | .txEqWrite _ _ => true
  | .biasConnect _ => true
  | .biasRampTick _ _ _ => true
  | .biasParkStep _ => true
  | .biasComplianceDetect _ => true
  | .biasOpenDetect _ => true
  | .biasFlagClear _ _ _ _ => true
  | .referenceReady _ => true
  | .scRoundEnd _ _ => true
  | .injectTimer _ => true
  | .systemInjection _ => true
  | .injectedRunEnd _ _ _ => true
  | .cmisPoll _ _ => true
  | .modIntAssert _ => true
  | .cmisBusTimeout _ => true
  | .filkorDetectProbe _ => true
  | .filkorBitlock => true
  | .filkorBlocklock _ => true
  | .filkorTrainTimeout => true
  | .blockLockLoss _ _ => true
  | .farTerminationLoss _ => true
  | .filkorRetrain => true
  | .fl1Entry => true
  | .fl2Enter => true
  | .fl2Exit => true
  | .capsFrameReceived _ => true
  | .pairingTransferDone _ => true
  | .heartbeatSend => true
  | .heartbeatReceived _ => true
  | .twinSilence => true
  | .leaseExpiry _ => true
  | .twinSenseChange _ _ => true
  | .secondarySoloRaise _ => true
  | .secondaryHoldTimeout => true
  | .txTimeReceived _ _ _ _ _ => true
  | .mirrorFrameReceived _ _ _ _ _ => true
  | .mirrorAckReceived _ _ => true
  | .mirrorAckTimeout => true
  | .pairingWaitTimeout _ => true
  | .sensorSample _ _ _ => true
  | .stepWaitExpiry _ => true
  | .ladderReverse _ _ => true
  | .threshWrite _ _ => true
  | .tripRecordCopy => true
  | .resetHoldRelease b => b.wf
  | .scrubRead word _ bit _ => decide (word < 0x1800000) && (match bit with | some b => decide (b < 64) | none => true)
  | .coursePllFailure _ => true
  | .hostAlignmentMarkerLock _ _ _ => true
  | .ocmCodewordLock _ _ => true
  | .txBlockBoundary _ _ => true
  | .txUnderrun _ => true
  | .runningMeanBelowCrit _ _ _ => true
  | .pulseLost _ => true
  | .vfEnableWrite _ => true
  | .tapInstruction _ => true
  | .cmisAccessDone _ _ => true
  | .attestationSigned _ => true
  | .swapBoundExpiry => true
  | .pmcCounterWrap _ => true

/-- Every command that waits is well-formed. -/
def pendingWf (cs : List Instr) : Bool := cs.all Instr.wf

end Sys2Proof
end

