-- ==== Sys2Proof/Certificates/Slice0/Obligations.lean ====
section
/-! DEFINITION. The statements about the block, from the numbered rules of spec/: what each command does, what it leaves
alone, and what every step keeps. -/

open Sys2Proof Sys2Proof.Machine

/-! ## The block as a whole -/

/-- A step takes the command at the front of the queue and runs it on the state with the queue's rest. -/
def Obligations.StepRunsTheCommandInFront : Prop :=
  ∀ (c : Instr) (cs : List Instr) (s : State), s.pending = c :: cs → step s = exec c { s with pending := cs }

/-- With nothing waiting a step lets 1 ns of the KEEP timebase pass and changes nothing else: the model's choice
(notes/assumptions/1). -/
def Obligations.IdleStepMovesOnlyTheTimebase : Prop :=
  ∀ s : State, s.pending = [] → step s = .next { s with time := s.time + 1 }

/-- No command stops the block, and none touches the queue of those behind it. -/
def Obligations.EveryCommandAnswersAndLeavesTheQueue : Prop :=
  ∀ (c : Instr) (s : State), Gives c s fun t => t.pending = s.pending

/-- Every step keeps the register file canonical: one place at most per field, in rising order. -/
def Obligations.StepKeepsTheRegisterFileCanonical : Prop :=
  ∀ s t : State, Tab.sorted s.regs = true → step s = .next t → Tab.sorted t.regs = true

/-- Right after the application of VDD_KEEP every register field reads its reset value, nothing waits, nothing has been
sent, every course and quad is off with its pads latched, every MSI-X vector is masked, and time is 0. -/
def Obligations.ResetHoldsTheResetValues : Prop :=
  (∀ (f : Fld) (i j : Nat), State.reset.rd f i j = f.rst) ∧ Tab.sorted State.reset.regs = true ∧
    State.reset.pending = [] ∧ State.reset.out = [] ∧ State.reset.time = 0 ∧
    (∀ c, State.reset.coursePow c = .off ∧ State.reset.padHeldC c = true) ∧
    (∀ q, State.reset.quadOn q = false ∧ State.reset.padHeldQ q = true) ∧
    (∀ f v, (State.reset.vec f v).masked = true) ∧ (∀ n, (State.reset.rxOf n).hist = [])

/-! ## Rings (11_rings_and_sessions) -/

/-- R299: a write of 1 to EN of a disabled ring that the function reaches enables it when the checks hold, with its
pointers at 0 and PHASE at 1; otherwise EN stays 0 and ERR_CAUSE reads CFG (1). TYPE and SIZE take the values written.

R299: a write of 0 to EN stops an enabled ring: it ends the ring's session and sets QUIESCING (3) while commands
are in flight, DISABLED (0) otherwise; the commands stay. With EN at 1 again, a ring that comes to rest is enabled or
refused at RING_QUIESCED; with EN at 0 it stays at rest. RING_OWNER_WRITE by PF0 moves a resting ring to the function
named; one that is not at rest keeps its owner and the error log records OWNER_BUSY (6). -/
def Obligations.RingsEnableDisableAndOwner : Prop :=
  (
  ∀ (f : FnNo) (r : RingNo) (v : Word) (s : State), s.coreOn = true → (f.val = 0 ∨ s.ringOwner r = f.val) →
    s.ringState r = 0 → s.held = [] →
    (ringShapeOk s r v (ownerAfter s f r v) → Gives (.ringEnable f r v) s fun t =>
      t.ringState r = 1 ∧ t.rd Reg.RING.CFG.EN r = 1 ∧ t.rd Reg.RING.SQ_PTR.TAIL r = 0 ∧
      t.rd Reg.RING.SQ_PTR.HEAD r = 0 ∧ t.rd Reg.RING.CQ_PTR.TAIL r = 0 ∧ t.rd Reg.RING.CQ_PTR.HEAD r = 0 ∧
      t.rd Reg.RING.STAT.PHASE r = 1 ∧ t.rd Reg.RING.STAT.ERR_CAUSE r = 0 ∧ t.rd Reg.RING.CFG.SIZE r = bitsOf v.toNat 2 5 ∧
      t.rd Reg.RING.CFG.TYPE r = bitsOf v.toNat 1 1 ∧ t.ringOwner r = ownerAfter s f r v) ∧
    (¬ ringShapeOk s r v (ownerAfter s f r v) → Gives (.ringEnable f r v) s fun t =>
      t.ringState r = 0 ∧ t.rd Reg.RING.CFG.EN r = 0 ∧ t.rd Reg.RING.STAT.ERR_CAUSE r = 1)
  ) ∧ (
  (∀ (f : FnNo) (r : RingNo) (v : Word) (s : State), s.coreOn = true → (f.val = 0 ∨ s.ringOwner r = f.val) →
    s.ringState r = 1 → s.upd.lockRing ≠ some r.val → Gives (.ringDisable f r v) s fun t =>
      t.rd Reg.RING.CFG.EN r = 0 ∧ (t.ring r).session = none ∧ (t.ring r).flights = (s.ring r).flights ∧
      t.ringState r = (if (s.ring r).flights.isEmpty then 0 else 3)) ∧
  (∀ (r : RingNo) (s : State), (s.ring r).flights = [] → s.ringState r = 3 → s.rd Reg.RING.CFG.EN r = 0 →
    Gives (.ringQuiesced r) s fun t => t.ringState r = 0 ∧ OnlyRegs s t [Reg.RING.STAT.STATE.key r 0]) ∧
  (∀ (r : RingNo) (s : State), (s.ring r).flights = [] → (s.ringState r = 3 ∨ s.ringState r = 2) → s.held = [] →
    s.rd Reg.RING.CFG.EN r = 1 → Gives (.ringQuiesced r) s fun t =>
      if s.enableOk r then t.ringState r = 1 ∧ t.rd Reg.RING.CQ_PTR.TAIL r = 0 ∧ t.rd Reg.RING.STAT.PHASE r = 1
      else t.rd Reg.RING.CFG.EN r = 0 ∧ t.rd Reg.RING.STAT.ERR_CAUSE r = 1) ∧
  (∀ (r : RingNo) (v : Word) (s : State), s.coreOn = true → s.ringState r = 0 → v.toNat % 2 = 0 →
    Gives (.ringOwnerWrite 0 r v) s fun t => t.ringOwner r = bitsOf v.toNat 7 6 ∧ t.ringState r = 0) ∧
  (∀ (r : RingNo) (v : Word) (s : State), s.coreOn = true → s.ringState r = 1 → bitsOf v.toNat 7 6 ≠ s.ringOwner r →
    v.toNat % 2 = 1 → Gives (.ringOwnerWrite 0 r v) s fun t => t.ringOwner r = s.ringOwner r ∧
      t.rd Reg.RING.ERR_LOG.CAUSE = 6 ∧ t.rd Reg.RING.ERR_LOG.RING = r ∧ t.rd Reg.RING.ERR_LOG.VALID = 1)
  )

/-- R301, R302: a doorbell of the owner of an enabled ring. A new SQ tail is taken when it reaches no further than the
slot before the head, a new CQ head when it releases only records written; otherwise the ring goes to ERROR (2) with
SQ_OVERRUN (2) or CQ_OVERRUN (3). A doorbell of another function, or to a ring that is not enabled, is dropped and counted
with its page. -/
def Obligations.DoorbellsMoveThePointers : Prop :=
  (∀ (f : FnNo) (r : RingNo) (v : Word) (s : State), s.coreOn = true → s.ringState r = 1 → s.ringOwner r = f.val →
    s.rd Reg.RING.CFG.TYPE r = 0 →
    let T := v.toNat % 65536
    let prev := s.rd Reg.RING.SQ_PTR.TAIL r
    let head := s.rd Reg.RING.SQ_PTR.HEAD r
    let n := s.ringSize r
    T ≠ prev →
    (T < n ∧ (T + n - prev) % n ≤ (head + 2 * n - 1 - prev) % n →
      Gives (.sqTailDoorbell f r 0 4 v) s fun t => t.rd Reg.RING.SQ_PTR.TAIL r = T ∧
        OnlyRegs s t (Reg.RING.SQ_PTR.TAIL.key r 0 :: dpKeys)) ∧
    (¬ (T < n ∧ (T + n - prev) % n ≤ (head + 2 * n - 1 - prev) % n) →
      Gives (.sqTailDoorbell f r 0 4 v) s fun t => t.ringState r = 2 ∧
        t.rd Reg.RING.STAT.ERR_CAUSE r = 2 ∧ t.rd Reg.RING.ERR_LOG.RING = r ∧ t.rd Reg.RING.ERR_LOG.CAUSE = 2 ∧
        t.flag Reg.EVT.LATCH.RAISED 6 = true)) ∧
  (∀ (f : FnNo) (r : RingNo) (v : Word) (s : State), s.coreOn = true → s.ringState r = 1 → s.ringOwner r = f.val →
    let H := v.toNat % 65536
    let prev := s.rd Reg.RING.CQ_PTR.HEAD r
    let n := s.ringSize r
    (H < n ∧ (H + n - prev) % n ≤ s.cqUsed r → (s.ring r).pend = [] →
      Gives (.cqHeadDoorbell f r 4 4 v) s fun t => t.rd Reg.RING.CQ_PTR.HEAD r = H ∧
        OnlyRegs s t (Reg.RING.CQ_PTR.HEAD.key r 0 :: dpKeys)) ∧
    (¬ (H < n ∧ (H + n - prev) % n ≤ s.cqUsed r) →
      Gives (.cqHeadDoorbell f r 4 4 v) s fun t => t.ringState r = 2 ∧
        t.rd Reg.RING.STAT.ERR_CAUSE r = 3 ∧ t.rd Reg.RING.ERR_LOG.RING = r ∧ t.rd Reg.RING.ERR_LOG.CAUSE = 3)) ∧
  (∀ (f : FnNo) (r : RingNo) (ofs : Nat) (v : Word) (s : State), s.coreOn = true → (ofs = 0 ∨ ofs = 4) →
    (s.ringState r ≠ 1 ∨ s.ringOwner r ≠ f.val) →
    Gives (.sqTailDoorbell f r ofs 4 v) s fun t =>
      t.rd Reg.RING.DB_DROP.COUNT = min (s.rd Reg.RING.DB_DROP.COUNT + 1) 65535 ∧
      t.rd Reg.RING.DB_DROP.LAST_PAGE = r ∧ t.rd Reg.RING.DB_DROP.LAST_FN = f.val % 16 ∧
      OnlyRegs s t [Reg.RING.DB_DROP.COUNT.key 0 0, Reg.RING.DB_DROP.LAST_PAGE.key 0 0, Reg.RING.DB_DROP.LAST_FN.key 0 0])

/-- R311: at the start of a round in which one function alone has work, with the credit it keeps and gains covering
the cost of its next unit, WORK_UNIT_SERVE fetches the entry at the head of the ring whose turn it is and charges the
function the unit's cost. -/
def Obligations.WorkUnitServeFetchesAndCharges : Prop :=
  ∀ (u : List Peek) (s : State) (f r c : Nat) (p : Peek), s.coreOn = true → s.arb.members = [] → f < 64 → r < 4096 →
    (∀ g < 64, g ≠ f → s.nextUnit u g = none) → s.nextUnit u f = some r → s.unitCost u r = some c →
    dataFlight (s.ring r).flights = none → peekOf u r = some p → p.ok = true →
    let w := if s.rd Reg.RING.FN_WEIGHT.WEIGHT f = 0 then 1 else s.rd Reg.RING.FN_WEIGHT.WEIGHT f
    let gain := 64 * max 1 (s.rd Reg.RING.ARB_CTRL.QUANTUM) * w
    c ≤ Tab.get 0 s.arb.deficit f + gain →
    Gives (.workUnitServe u) s fun t =>
      t.rd Reg.RING.SQ_PTR.HEAD r = (s.rd Reg.RING.SQ_PTR.HEAD r + 1) % s.ringSize r % 65536 ∧
      Tab.get 0 t.arb.deficit f = Tab.get 0 s.arb.deficit f + gain - c ∧ (t.ring r).nextFid = (s.ring r).nextFid + 1

/-- R7, R304, R307, R503: with a free slot in the enabled event ring its source is mapped to, K4 writes the oldest raise
as one record of 32 bytes, little-endian, at the CQ tail, with the ring's phase and its next sequence number; a source that is mapped to no ring
delivers nothing.

R309: at COALESCE_TIMER_EXPIRY the message owed for a vector goes out, or waits in the pending bit of a masked
vector, and the count starts afresh; MSIX_VECTOR_UNMASK lets a message held in the pending bit go. R503:
EVT_MAP_WRITE by PF0 sets the map of a source and discards its held raise. -/
def Obligations.EventRecordsMessagesAndTheMap : Prop :=
  (
  (∀ (s : State) (x : Raise) (xs : List Raise), s.k4On = true → s.raises = x :: xs → s.rd Reg.EVT.MAP.EN x.src = 0 →
    Gives .eventRecordWrite s fun t => t = { s with raises := xs }) ∧
  (∀ (s : State) (x : Raise) (xs : List Raise) (r : Nat), s.k4On = true → s.raises = x :: xs →
    s.rd Reg.EVT.MAP.EN x.src = 1 → s.rd Reg.EVT.MAP.RING x.src = r → s.eventRing r = true → s.eventFree r = true →
    (∀ y ∈ (s.ring r).pend, y.src ≠ x.src) → s.rd Reg.EVT.MAP.INTR x.src = 0 →
    Gives .eventRecordWrite s fun t => t.raises = xs ∧
      t.out = s.out ++ [.event r (s.rd Reg.RING.CQ_PTR.TAIL r) (s.rd Reg.RING.STAT.PHASE r) x (s.ring r).rseq,
        .hostWrite (4096 * s.rd Reg.RING.CQ_BASE.ADDR r + 32 * s.rd Reg.RING.CQ_PTR.TAIL r)
          (eventBytes (s.rd Reg.RING.STAT.PHASE r) x (s.ring r).rseq)] ∧
      (t.ring r).rseq = ((s.ring r).rseq + 1) % 2 ^ 32 ∧
      t.rd Reg.RING.CQ_PTR.TAIL r = (if s.rd Reg.RING.CQ_PTR.TAIL r + 1 = s.ringSize r then 0
        else (s.rd Reg.RING.CQ_PTR.TAIL r + 1) % 65536) ∧
      OnlyRegs { s with raises := xs, out := t.out, rings := t.rings } t
        [Reg.RING.CQ_PTR.TAIL.key r 0, Reg.RING.STAT.PHASE.key r 0])
  ) ∧ (
  (∀ (r : RingNo) (v : Nat) (s : State), (s.ring r).coalCount ≠ 0 → (s.ring r).coalVecs = [v] →
    Gives (.coalesceTimerExpiry r) s fun t =>
      t.time = max s.time ((s.ring r).coalFirst + 1000 * s.rd Reg.RING.INTR.COAL_US r) ∧ (t.ring r).coalCount = 0 ∧
      (t.ring r).coalVecs = [] ∧ t.regs = s.regs ∧
      (if (s.vec (s.ringOwner r) v).masked then t.out = s.out ∧ (t.vec (s.ringOwner r) v).pend = true
       else t.out = s.out ++ [.msix (s.ringOwner r) v] ∧ t.vecs = s.vecs)) ∧
  (∀ (f : FnNo) (v : Nat) (s : State), v < msixSize f → Gives (.msixVectorUnmask f v) s fun t =>
      (t.vec f v).masked = false ∧ (t.vec f v).pend = false ∧ t.regs = s.regs ∧
      t.out = (if (s.vec f v).pend then s.out ++ [.msix f v] else s.out)) ∧
  (∀ (src : SourceNo) (v : Word) (s : State), s.coreOn = true → (∀ x ∈ s.raises, x.src ≠ src.val) →
    Gives (.evtMapWrite 0 src v) s fun t =>
      t.rd Reg.EVT.MAP.RING src = bitsOf v.toNat 0 12 ∧ t.rd Reg.EVT.MAP.EN src = bitsOf v.toNat 12 1 ∧
      t.rd Reg.EVT.MAP.OWN_VEC src = bitsOf v.toNat 13 1 ∧ t.rd Reg.EVT.MAP.VECTOR src = bitsOf v.toNat 14 11 ∧
      t.rd Reg.EVT.MAP.INTR src = bitsOf v.toNat 25 1 ∧
      OnlyRegs { s.setShadow 0 none with raises := t.raises, held := s.held.filter fun x => x.src != src.val } t
        [Reg.EVT.MAP.RING.key src 0, Reg.EVT.MAP.EN.key src 0, Reg.EVT.MAP.OWN_VEC.key src 0,
         Reg.EVT.MAP.VECTOR.key src 0, Reg.EVT.MAP.INTR.key src 0] ∧ t.raises = s.raises)
  )

/-! ## Sessions (R314 to R320, R333, R334) -/

/-- R303, R320, R328: an entry at the head of a ring with nothing in flight is fetched under the ring's session and
taken up when every check of R328 passes: the SQ head moves on by one slot and the session's idle time starts afresh.

R328: a command in flight that fails one of the checks before its own conditions is finished with the status of
the first that fails, and nothing else happens. -/
def Obligations.EntriesAreTakenUpOrRefused : Prop :=
  (
  ∀ (s : State) (o : Op) (r : RingNo) (e : Entry) (d : Dma) (x : Session), s.mayFetch r = true → (s.ring r).flights = [] →
    (s.ring r).session = some x → s.time < x.until_ → opRole o e ≤ x.role → e.flags.toNat / 2 % 2 = 0 →
    (s.core 1).stopped = false → fieldsOk o e = true → s.lcOk o e = true → s.serverState (s.server o e) = .runs →
    s.updateHolds o = false → s.domainOk o e = true → s.testBlocks o e = false → s.mirroredCmd o e = false →
    ∃ u f, Taken s o r e d u f ∧ f.e = e ∧ f.d = d ∧ f.role = some x.role ∧ f.fn = s.ringOwner r ∧
      u.rd Reg.RING.SQ_PTR.HEAD r = (s.rd Reg.RING.SQ_PTR.HEAD r + 1) % s.ringSize r % 65536 ∧
      f.sqHead = (s.rd Reg.RING.SQ_PTR.HEAD r + 1) % s.ringSize r ∧
      (u.ring r).session = some { x with until_ := s.time + x.idle * 1000000000 } ∧
      OnlyRegs { s with rings := u.rings } u [Reg.RING.SQ_PTR.HEAD.key r 0]
  ) ∧ (
  (∀ (s : State) (f : Flight), (s.core 1).stopped = true → s.judge f = .fails .domainOff) ∧
  (∀ (s : State) (f : Flight), (s.core 1).stopped = false → f.role = none → opOfCode f.op ≠ some .sessionOpen →
    opOfCode f.op ≠ some .sessionClose → s.judge f = .fails .noSession) ∧
  (∀ (s : State) (f : Flight) (p : Nat), (s.core 1).stopped = false → f.role = some p → opOfCode f.op = none →
    s.judge f = .fails .badOpcode) ∧
  (∀ (s : State) (f : Flight) (o : Op) (p : Nat), (s.core 1).stopped = false → f.role = some p →
    opOfCode f.op = some o → o ≠ .sessionOpen → o ≠ .sessionClose →
    (p < opRole o f.e → s.judge f = .fails .roleDenied) ∧
    (opRole o f.e ≤ p → fieldsOk o f.e = false → s.judge f = .fails .badField) ∧
    (opRole o f.e ≤ p → fieldsOk o f.e = true → s.lcOk o f.e = false → s.judge f = .fails .lcDenied) ∧
    (opRole o f.e ≤ p → fieldsOk o f.e = true → s.lcOk o f.e = true → s.serverState (s.server o f.e) = .off →
      s.judge f = .fails .domainOff)) ∧
  (∀ (s u : State) (r : RingNo) (e : Entry) (d : Dma) (f : Flight) (st : Status), s.takeUp r 0x0003 e d = some (u, f) →
    startable (u.ring r).flights f = true → u.judge f = .fails st →
    exec (.nop r e d) s = .next (u.finish (.host r f.fid) { st := st }))
  )

/-- R303, R304, R326: when the oldest command in flight of a ring finishes and it is alone, its completion is written
as 32 bytes at the CQ tail with the ring's phase, its tag and its SQ head, and the tail moves on; a command that finishes behind one
still running writes nothing yet. -/
def Obligations.CompletionsAreWrittenInOrder : Prop :=
  (∀ (s : State) (r : Nat) (f : Flight) (res : Res), (s.ring r).flights = [f] → f.mirrored = none →
    s.rd Reg.RING.INTR.IE r = 0 →
    let t := s.finish (.host r f.fid) res
    t.out = s.out ++ [.completion r (s.rd Reg.RING.CQ_PTR.TAIL r) (s.rd Reg.RING.STAT.PHASE r) res f.sqHead f.e.tag,
      .hostWrite (4096 * s.rd Reg.RING.CQ_BASE.ADDR r + 32 * s.rd Reg.RING.CQ_PTR.TAIL r)
        (completionBytes (s.rd Reg.RING.STAT.PHASE r) res f.sqHead f.e.tag)] ∧
      (t.ring r).flights = [] ∧
      t.rd Reg.RING.CQ_PTR.TAIL r = (if s.rd Reg.RING.CQ_PTR.TAIL r + 1 = s.ringSize r then 0
        else (s.rd Reg.RING.CQ_PTR.TAIL r + 1) % 65536) ∧
      OnlyRegs { s with out := t.out, rings := t.rings } t [Reg.RING.CQ_PTR.TAIL.key r 0, Reg.RING.STAT.PHASE.key r 0]) ∧
  (∀ (s : State) (r : Nat) (g f : Flight) (res : Res), (s.ring r).flights = [g, f] → g.fid ≠ f.fid → g.phase = .running →
    f.mirrored = none →
    let t := s.finish (.host r f.fid) res
    t.out = s.out ∧ t.regs = s.regs ∧ (t.ring r).flights = [g, { f with phase := .done res }])

/-- R317, R318, R319, R333: a challenge draws a nonce that is valid for 10 s and returns it in the result words; a
response is judged in the order of R318, and from the third check on its nonce is used up.

R317, R319, R320: SESSION_CLOSE ends the session of its ring and completes OK; an idle time that passes ends it; a
nonce expires 10 s after it was drawn; a lockout that ends keeps its length for the next. -/
def Obligations.SessionsOpenAndEnd : Prop :=
  (
  (∀ (s u : State) (r : RingNo) (e : Entry) (d : Dma) (f : Flight), Taken s .sessionOpen r e d u f →
    opByte f.e 16 = 0 → opByte f.e 17 ≤ 63 →
    let v := BitVec.ofNat 128 u.free
    Finishes (.sessionOpen r e d) s r f
      { r1 := bitsOf v.toNat 0 32, r2 := bitsOf v.toNat 32 32, r3 := bitsOf v.toNat 64 32, r4 := bitsOf v.toNat 96 32 }
      fun t => (t.ring r).nonce = some ⟨opByte f.e 17, v, u.time + 10000000000⟩ ∧ t.regs = u.regs) ∧
  (∀ (s u : State) (r : RingNo) (e : Entry) (d : Dma) (f : Flight), Taken s .sessionOpen r e d u f →
    opByte f.e 16 = 1 → opByte f.e 17 ≤ 63 → opByte f.e 18 ≤ 3 → (op16 f.e 20 = 0 ∨ 10 ≤ op16 f.e 20) →
    (u.time < (u.fn f.fn).lockUntil → Finishes (.sessionOpen r e d) s r f { st := .roleDenied } fun t =>
      (t.ring r).nonce = (u.ring r).nonce ∧ (t.ring r).session = (u.ring r).session ∧ t.regs = u.regs) ∧
    ((u.fn f.fn).lockUntil ≤ u.time → u.validNonce r (opByte f.e 17) = none →
      Finishes (.sessionOpen r e d) s r f { st := .noSession } fun t =>
        (t.ring r).session = (u.ring r).session ∧ t.regs = u.regs) ∧
    (∀ (x : Nonce), (u.fn f.fn).lockUntil ≤ u.time → u.validNonce r (opByte f.e 17) = some x →
      (u.keySlot (opByte f.e 17) = none → Finishes (.sessionOpen r e d) s r f { st := .roleDenied } fun t =>
        (t.ring r).nonce = none ∧ (t.ring r).session = (u.ring r).session ∧ t.regs = u.regs) ∧
      (∀ k, u.keySlot (opByte f.e 17) = some k → ((k.binding ≠ 255 ∧ k.binding ≠ f.fn) ∨ k.ceiling < opByte f.e 18) →
        Finishes (.sessionOpen r e d) s r f { st := .roleDenied } fun t =>
          (t.ring r).nonce = none ∧ (t.ring r).session = (u.ring r).session ∧ t.regs = u.regs) ∧
      (∀ k, u.keySlot (opByte f.e 17) = some k → (k.binding = 255 ∨ k.binding = f.fn) → opByte f.e 18 ≤ k.ceiling →
        (opBytes f.e 32 32 ≠ (Config.hmacSha384 k.key (sessionMessage x.value r f.fn f.e)).take 32 →
          Finishes (.sessionOpen r e d) s r f { st := .sigFail } fun t =>
            (t.ring r).nonce = none ∧ (t.ring r).session = (u.ring r).session ∧
            t.rd Reg.RING.AUTH.FAILS f.fn = min (u.rd Reg.RING.AUTH.FAILS f.fn + 1) 255) ∧
        (opBytes f.e 32 32 = (Config.hmacSha384 k.key (sessionMessage x.value r f.fn f.e)).take 32 →
          u.upd.lockRing ≠ some r.val → Finishes (.sessionOpen r e d) s r f {} fun t =>
            (t.ring r).nonce = none ∧ t.rd Reg.RING.AUTH.FAILS f.fn = 0 ∧
            (t.ring r).session = some ⟨opByte f.e 17, opByte f.e 18, (if op16 f.e 20 = 0 then 600 else op16 f.e 20),
              u.time + (if op16 f.e 20 = 0 then 600 else op16 f.e 20) * 1000000000⟩))))
  ) ∧ (
  (∀ (s u : State) (r : RingNo) (e : Entry) (d : Dma) (f : Flight), Taken s .sessionClose r e d u f →
    u.upd.lockRing ≠ some r.val → Finishes (.sessionClose r e d) s r f {} fun t =>
      (t.ring r).session = none ∧ t.regs = u.regs ∧ t.out = u.out) ∧
  (∀ (r : RingNo) (s : State) (x : Session), (s.ring r).session = some x → s.upd.lockRing ≠ some r.val →
    Gives (.sessionIdleExpiry r) s fun t => (t.ring r).session = none ∧ t.time = max s.time x.until_ ∧
      t.regs = s.regs ∧ (t.ring r).flights = (s.ring r).flights) ∧
  (∀ (r : RingNo) (s : State) (x : Nonce), (s.ring r).nonce = some x → Gives (.nonceExpiry r) s fun t =>
      (t.ring r).nonce = none ∧ t.time = max s.time x.until_ ∧ t = { s with time := t.time, rings := t.rings }) ∧
  (∀ (f : FnNo) (s : State), Gives (.lockoutExpiry f) s fun t => (t.fn f).lockUntil = 0 ∧
      (t.fn f).lockLen = (s.fn f).lockLen ∧ t.time = max s.time (s.fn f).lockUntil ∧
      t = { s with time := t.time, fns := t.fns })
  )

/-- R334: NOP returns the KEEP-domain timebase in ns since cold reset in RES1 (low word) and RES2 (high word), and changes
nothing else. With FENCE set it is taken up only once every earlier command of the ring has completed: none is in flight
before it. -/
def Obligations.NopReturnsTheTimebase : Prop :=
  ∀ (s u : State) (r : RingNo) (e : Entry) (d : Dma) (f : Flight), Taken s .nop r e d u f →
    (Finishes (.nop r e d) s r f { r1 := u.time % 2 ^ 32, r2 := u.time / 2 ^ 32 % 2 ^ 32 } fun t =>
      t = u.setPhase r f.fid .running) ∧
    (f.e.flags.toNat % 2 = 1 → ∃ g gs, (u.ring r).flights = g :: gs ∧ g.fid = f.fid)

/-! ## Engines and keep cores as units (01_organisation R16 to R22) -/

/-- R17, R19, R31, R377: a framer or optics engine that is declared failed while the foreman is free gets the lowest free
spare, which is mapped to its logical number; while its course is in a power transition it waits for the end of that; without a free spare it stays unmapped and ENGINE_FAULT is raised for its
course. A free spare in which a fault is detected leaves the pool.

R17, R377, R396: when the spare of a framer engine runs, the engine serves again under its number, with its memory
fresh; it goes on from the last state block written, from the other slot where that one reads with an uncorrectable word,
and from firmware defaults where both do; and ENGINE_FAULT is raised for the course with the engine, the cause and the spare. A watchdog that expires in an
engine of this kind fails it with cause 2. -/
def Obligations.FailedEnginesAreSubstituted : Prop :=
  (
  (∀ (e : EngineNo) (cause : Fin 5) (s : State) (i : Nat), 64 ≤ e.val → e.val < 80 → cause.val ≠ 0 → s.coreOn = true →
    s.courseD (courseOfEngine e) = true → s.engMapOf e = .running → s.coreRuns 0 = true → s.subst = none →
    s.failed = [] → s.updQuiet → s.freeSpare = some i → (∀ j < 8, s.flag Reg.GLB.ENG_SPARE_MAP.MAPPED j = true →
      s.rd Reg.GLB.ENG_SPARE_MAP.LOGICAL j ≠ e.val) →
    (s.inTransition 1 (courseOfEngine e) = false → s.goingOff (courseOfEngine e) = false →
    Gives (.engineFailure e cause) s fun t => t.subst = some (e.val, i) ∧ t.engMapOf e = .substituting ∧
      t.flag Reg.GLB.ENG_SPARE_MAP.MAPPED i = true ∧ t.rd Reg.GLB.ENG_SPARE_MAP.LOGICAL i = e.val ∧
      t.rd Reg.ENG.STAT.LAST_CAUSE e = cause.val ∧
      OnlyRegs { s with upd := t.upd, engMap := t.engMap, failed := t.failed, subst := t.subst } t
        [Reg.GLB.ENG_SPARE_MAP.MAPPED.key i 0, Reg.GLB.ENG_SPARE_MAP.LOGICAL.key i 0, Reg.ENG.STAT.LAST_CAUSE.key e 0]) ∧
    (s.inTransition 1 (courseOfEngine e) = true → Gives (.engineFailure e cause) s fun t => t.subst = none ∧
      t.engMapOf e = .substituting ∧ t.failed = [⟨e, cause, (s.engOf e).pc.toNat⟩] ∧
      OnlyRegs { s with upd := t.upd, engMap := t.engMap, failed := t.failed } t [Reg.ENG.STAT.LAST_CAUSE.key e 0])) ∧
  (∀ (e : EngineNo) (cause : Fin 5) (s : State), 88 ≤ e.val → (cause.val = 1 ∨ cause.val = 4) → s.coreOn = true →
    s.flag Reg.GLB.ENG_SPARE_MAP.MAPPED (e - 88) = false → s.engMapOf e = .running →
    Gives (.engineFailure e cause) s fun t => t.engMapOf e = .unmapped ∧ t.rd Reg.ENG.STAT.LAST_CAUSE e = cause.val ∧
      OnlyRegs { s with engMap := t.engMap } t [Reg.ENG.STAT.LAST_CAUSE.key e 0])
  ) ∧ (
  (∀ (s : State) (e i cause pc : Nat) (ecc : List EccHit), 64 ≤ e → e < 80 → e % 2 = 0 → i < 8 → s.coreRuns 0 = true →
    s.subst = some (e, i) → s.failed = [⟨e, cause, pc⟩] → (s.engOf e).blockLens = [] →
    Gives (.engineSubstituted ecc) s fun t => t.engMapOf e = .running ∧ t.subst = none ∧ t.failed = [] ∧
      (t.engOf e).g = [] ∧ t.rd Reg.EVT.STAT.LAST_SRC = courseSrc (courseOfEngine e) 11 ∧
      (s.k4On = true → t.raises = s.raises ++
        [⟨courseSrc (courseOfEngine e) 11, s.time, e + 256 * cause + (128 + 65536 * (88 + i)), false⟩])) ∧
  (∀ (s : State) (e i cause pc k : Nat), 64 ≤ e → e < 80 → e % 2 = 0 → i < 8 → s.coreRuns 0 = true →
    s.subst = some (e, i) → s.failed = [⟨e, cause, pc⟩] → s.rd Reg.HOD.STAT.CHK_FAIL = 0 →
    k ≤ 1 → (s.engOf e).blockSlot = 1 - k → Tab.get 0 (s.engOf e).blockLens k = 8 →
    (∀ v, s.hodWord (blockOfs e k / 8) = some ⟨v, false⟩ → Gives (.engineSubstituted []) s fun t =>
      (t.engOf e).resumed = some k ∧ t.rd Reg.HOD.ECC_UNCORR.COUNT = s.rd Reg.HOD.ECC_UNCORR.COUNT) ∧
    (∀ v, s.hodWord (blockOfs e k / 8) = some ⟨v, true⟩ → Tab.get 0 (s.engOf e).blockLens (1 - k) = 8 →
      (∀ v', s.hodWord (blockOfs e (1 - k) / 8) = some ⟨v', false⟩ → Gives (.engineSubstituted []) s fun t =>
        (t.engOf e).resumed = some (1 - k) ∧ t.rd Reg.HOD.ECC_LOG.SOURCE = 1) ∧
      (∀ v', s.hodWord (blockOfs e (1 - k) / 8) = some ⟨v', true⟩ → Gives (.engineSubstituted []) s fun t =>
        (t.engOf e).resumed = none))) ∧
  (∀ (e : EngineNo) (s : State), 64 ≤ e.val → e.val < 80 → (s.engOf e).asleep = none →
    exec (.watchdogExpiry e) s = exec (.engineFailure e 2) s)
  )

/-- R21, R22: a keep core K1 to K7 that faults for the first time since the last reset restarts, and KEEP_CORE_FAULT is
raised with bit 3 of its detail at 1; at its next fault, or while K0 is left stopped, it stays stopped; one that faults
while K0 restarts stands stopped until K0 runs again (the model's choice, notes/assumptions/116). K0 restarts once from ROM
and is left stopped at its next fault; an activation in progress waits for it before it falls back. -/
def Obligations.KeepCoreRestartsOnceThenStaysStopped : Prop :=
  (∀ (k : Fin 7) (cause : Fin 4) (s : State), cause.val ≠ 0 → s.coreOn = true →
    (s.core (k.val + 1)).stopped = false → (s.core (k.val + 1)).restarting = false → s.updQuiet →
    let again := 1 ≤ (s.core (k.val + 1)).faults ∨ (s.core 0).stopped = true
    Gives (.keepCoreFault k cause) s fun t =>
      (again → (t.core (k.val + 1)).stopped = true) ∧
      (¬ again → (s.core 0).restarting = false → (t.core (k.val + 1)).stopped = false) ∧
      (¬ again → (s.core 0).restarting = true →
        (t.core (k.val + 1)).stopped = true ∧ (t.core (k.val + 1)).restarting = true) ∧
      (t.core (k.val + 1)).faults = (s.core (k.val + 1)).faults + 1) ∧
  (∀ (k : Fin 7) (cause : Fin 4) (s : State), cause.val ≠ 0 → s.k4On = true → k.val ≠ 2 → k.val ≠ 3 → k.val ≠ 6 →
    (s.core (k.val + 1)).stopped = false → (s.core (k.val + 1)).restarting = false → s.updQuiet →
    let again := 1 ≤ (s.core (k.val + 1)).faults ∨ (s.core 0).stopped = true
    Gives (.keepCoreFault k cause) s fun t => t.flag Reg.EVT.LATCH.RAISED 0 = true ∧
      t.rd Reg.ENG.STAT.LAST_CAUSE (81 + k.val) = cause.val ∧
      ∃ b, (b = 8 ∧ ¬ again ∨ b = 0 ∧ again) ∧
        t.raises = s.raises ++ [⟨0, s.time, k.val + 1 + b + 256 * cause.val, false⟩]) ∧
  (∀ (cause : Fin 4) (s : State), cause.val ≠ 0 → s.phase = .active → (s.core 0).stopped = false → s.updQuiet →
    Gives (.foremanFault cause) s fun t =>
      if (s.core 0).faults = 0 then t.core 0 = ⟨1, false, true⟩ ∧ t.failed = s.failed
      else (t.core 0).stopped = true ∧ (t.core 0).restarting = false) ∧
  (∀ (cause : Fin 4) (s : State), cause.val ≠ 0 → s.phase = .active → (s.core 0).stopped = false →
    (s.core 0).faults = 0 → s.updState = 3 →
    Gives (.foremanFault cause) s fun t => t.core 0 = ⟨1, false, true⟩ ∧ t.updState = 3 ∧ t.upd.faulted = true)

/-! ## Asyan engines (13_asyan_engines) -/

/-- R364: the ALU register forms. ADD and SUB set C and V, the saturating forms SV; the others change no flag. Whether
C of SUB is a carry or a borrow, and ABS of the most negative number, are not stated (notes/assumptions/2): there any
value may stand.

R364: the ALU immediate forms. ADDI sets C and V; what the others leave in C and V is not stated (notes/assumptions/2):
there any value may stand. -/
def Obligations.AluForms : Prop :=
  (
  ∀ (e : EngineNo) (rd rs rt : GReg) (s : State), s.engFree e →
    let x := s.engOf e
    let a := x.reg rs
    let b := x.reg rt
    Retires (.engAdd e rd rs rt) s e
      ((x.setReg rd (a + b)).setCV (decide (2 ^ 32 ≤ a.toNat + b.toNat)) (decide ((a + b).toInt ≠ a.toInt + b.toInt))) ∧
    (∃ c : Bool, Retires (.engSub e rd rs rt) s e
      ((x.setReg rd (a - b)).setCV c (decide ((a - b).toInt ≠ a.toInt - b.toInt)))) ∧
    Retires (.engAnd e rd rs rt) s e (x.setReg rd (a &&& b)) ∧
    Retires (.engOr e rd rs rt) s e (x.setReg rd (a ||| b)) ∧
    Retires (.engXor e rd rs rt) s e (x.setReg rd (a ^^^ b)) ∧
    Retires (.engSll e rd rs rt) s e (x.setReg rd (a <<< (b &&& 31))) ∧
    Retires (.engSrl e rd rs rt) s e (x.setReg rd (a >>> (b &&& 31))) ∧
    Retires (.engSra e rd rs rt) s e (x.setReg rd (BitVec.ofInt 32 (a.toInt / 2 ^ (b.toNat % 32)))) ∧
    Retires (.engMin e rd rs rt) s e (x.setReg rd (if b.slt a then b else a)) ∧
    Retires (.engMax e rd rs rt) s e (x.setReg rd (if a.slt b then b else a)) ∧
    Retires (.engSlt e rd rs rt) s e (x.setReg rd (if a.slt b then 1 else 0)) ∧
    Retires (.engSltu e rd rs rt) s e (x.setReg rd (if a.ult b then 1 else 0)) ∧
    Retires (.engAdds e rd rs rt) s e
      (if (a + b).toInt = a.toInt + b.toInt then x.setReg rd (a + b)
       else (x.setReg rd (if a.toInt < 0 then 0x80000000 else 0x7FFFFFFF)).setFlag 5 true) ∧
    Retires (.engSubs e rd rs rt) s e
      (if (a - b).toInt = a.toInt - b.toInt then x.setReg rd (a - b)
       else (x.setReg rd (if a.toInt < 0 then 0x80000000 else 0x7FFFFFFF)).setFlag 5 true) ∧
    (∃ k : Nat, Retires (.engClz e rd rs) s e (x.setReg rd (BitVec.ofNat 32 k)) ∧
      (a = 0 → k = 32) ∧ (a ≠ 0 → k < 32 ∧ 2 ^ (31 - k) ≤ a.toNat ∧ a.toNat < 2 ^ (32 - k))) ∧
    (a ≠ 0x80000000 → Retires (.engAbs e rd rs) s e (x.setReg rd (if a.toInt < 0 then -a else a))) ∧
    (a = 0x80000000 → ∃ v : Word, Retires (.engAbs e rd rs) s e (x.setReg rd v))
  ) ∧ (
  ∀ (e : EngineNo) (rd rs : GReg) (imm : Half) (s : State), s.engFree e →
    let x := s.engOf e
    let a := x.reg rs
    let i := imm.signExtend 32
    let z := imm.setWidth 32
    let R (c : Instr) (v : Word) := ∃ k o : Bool, Retires c s e ((x.setReg rd v).setCV k o)
    Retires (.engAddi e rd rs imm) s e
      ((x.setReg rd (a + i)).setCV (decide (2 ^ 32 ≤ a.toNat + i.toNat)) (decide ((a + i).toInt ≠ a.toInt + i.toInt))) ∧
    R (.engSlti e rd rs imm) (if a.slt i then 1 else 0) ∧
    R (.engAndi e rd rs imm) (a &&& z) ∧ R (.engOri e rd rs imm) (a ||| z) ∧ R (.engXori e rd rs imm) (a ^^^ z) ∧
    R (.engSlli e rd rs imm) (a <<< (z &&& 31)) ∧ R (.engSrli e rd rs imm) (a >>> (z &&& 31)) ∧
    R (.engSrai e rd rs imm) (BitVec.ofInt 32 (a.toInt / 2 ^ (imm.toNat % 32))) ∧
    R (.engLui e rd imm) (z <<< 16)
  )

/-- R366, R367: products and accumulators. Accumulators wrap modulo 2^40 and set AV when they do; DMAC with an odd
accumulator or a half bit set, and EXT with a shift above 39, are illegal: a lane program's violation of cause 1. -/
def Obligations.ProductsAndAccumulators : Prop :=
  ∀ (e : EngineNo) (rd rs rt : GReg) (a b : AccNo) (hs ht : Bool) (sh : Fin 64) (s : State), s.engFree e →
    let x := s.engOf e
    let half (v : Word) (h : Bool) : Int := if h then (v.extractLsb' 16 16).toInt else (v.extractLsb' 0 16).toInt
    let p := half (x.reg rs) hs * half (x.reg rt) ht
    let lo := half (x.reg rs) false * half (x.reg rt) false
    let hi := half (x.reg rs) true * half (x.reg rt) true
    let A (i : Nat) : Int := (Tab.get (0 : Acc40) x.a i).toInt
    let put (y : EngX) (i : Nat) (v : Int) : EngX :=
      let z := { y with a := Tab.set 0 y.a i (BitVec.ofInt 40 v) }
      if (BitVec.ofInt 40 v).toInt = v then z else z.setFlag 4 true
    Retires (.engMul e a rs rt hs ht) s e (put x a p) ∧
    Retires (.engMac e a rs rt hs ht) s e (put x a (A a + p)) ∧
    Retires (.engMsu e a rs rt hs ht) s e (put x a (A a - p)) ∧
    (a.val % 2 = 0 → Retires (.engDmac e a rs rt false false) s e
      (put (put x a (A a + lo)) (a + 1) (A (a + 1) + hi))) ∧
    (e.val < 64 → x.user = true → (a.val % 2 = 1 ∨ hs = true ∨ ht = true) →
      Violates (.engDmac e a rs rt hs ht) s e 1) ∧
    Retires (.engDmacs e a rs rt hs ht) s e (put x a (A a + lo + hi)) ∧
    Retires (.engExt e rd a 0) s e
      ((x.setReg rd (BitVec.ofInt 32 (A a))).setFlag 3 (decide ((BitVec.ofInt 32 (A a)).toInt ≠ A a))) ∧
    (0 < sh.val → sh.val ≤ 39 → let v := (A a + 2 ^ (sh.val - 1)) / 2 ^ sh.val
      Retires (.engExt e rd a sh) s e
        ((x.setReg rd (BitVec.ofInt 32 v)).setFlag 3 (decide ((BitVec.ofInt 32 v).toInt ≠ v)))) ∧
    (e.val < 64 → x.user = true → 39 < sh.val → Violates (.engExt e rd a sh) s e 1) ∧
    Retires (.engClra e a) s e { x with a := Tab.set 0 x.a a 0 } ∧
    Retires (.engMova e a rs) s e { x with a := Tab.set 0 x.a a ((x.reg rs).signExtend 40) } ∧
    Retires (.engAdda e a b) s e (put x a (A a + A b)) ∧
    Retires (.engAsra e a sh) s e { x with a := Tab.set 0 x.a a (BitVec.ofInt 40 (A a / 2 ^ sh.val)) } ∧
    Retires (.engGrda e rd a) s e (x.setReg rd (((Tab.get 0 x.a a).extractLsb' 32 8).signExtend 32))

/-- R367, R368: loads from and stores to the data memory of an engine. The address is p + imm in mode 0 and p in modes 1
and 2, after which p steps; LH extends the sign, LHU zeros; SACW and SACH store the accumulator rounded by ASH and
saturated, with SV set when it saturated. A store changes the bytes it stores to and no others. -/
def Obligations.LoadsAndStores : Prop :=
  ∀ (e : EngineNo) (r : GReg) (m : AddrMode) (busy : Bool) (a : Word) (s : State), s.engFree e →
    let x := s.engOf e
    x.ea m = some a →
    (spaceOf e x.user a.toNat 4 false = .data →
      LoadsValue (.engLw e r m busy 0) s e r m busy (BitVec.ofNat 32 (x.dataAt a.toNat 4))) ∧
    (spaceOf e x.user a.toNat 2 false = .data →
      LoadsValue (.engLh e r m busy 0) s e r m busy ((BitVec.ofNat 16 (x.dataAt a.toNat 2)).signExtend 32) ∧
      LoadsValue (.engLhu e r m busy 0) s e r m busy ((BitVec.ofNat 16 (x.dataAt a.toNat 2)).setWidth 32)) ∧
    (spaceOf e x.user a.toNat 4 true = .data →
      StoresBytes (.engSw e r m busy) s e m busy false a.toNat (leBytes 4 (x.reg r).toNat) ∧
      (r.val < 4 → let v := roundShift (x.acc r) x.ash.toNat
        (-(2 ^ 31) ≤ v ∧ v < 2 ^ 31 → StoresBytes (.engSacw e r m busy) s e m busy false a.toNat (leBytes 4 (patternOf v 32))) ∧
        (2 ^ 31 ≤ v → StoresBytes (.engSacw e r m busy) s e m busy true a.toNat (leBytes 4 0x7FFFFFFF)) ∧
        (v < -(2 ^ 31) → StoresBytes (.engSacw e r m busy) s e m busy true a.toNat (leBytes 4 0x80000000)))) ∧
    (spaceOf e x.user a.toNat 2 true = .data →
      StoresBytes (.engSh e r m busy) s e m busy false a.toNat (leBytes 2 (x.reg r).toNat) ∧
      (r.val < 4 → let v := roundShift (x.acc r) x.ash.toNat
        (-(2 ^ 15) ≤ v ∧ v < 2 ^ 15 → StoresBytes (.engSach e r m busy) s e m busy false a.toNat (leBytes 2 (patternOf v 16))) ∧
        (2 ^ 15 ≤ v → StoresBytes (.engSach e r m busy) s e m busy true a.toNat (leBytes 2 0x7FFF)) ∧
        (v < -(2 ^ 15) → StoresBytes (.engSach e r m busy) s e m busy true a.toNat (leBytes 2 0x8000))))

/-- R369: a branch moves nothing but the PC: the two instructions after it execute in either case, and the path then
goes on at the branch's own address plus 4 times the offset, at rs for JR, or after the two where it is not taken. BAL
puts the branch address + 12 into g15. R370: REP holds the count for the instruction that follows.

R366, R370: under REP the instruction executes the counted number of times, a beat each: MAC adds its product that
often. With at most 511 products of one sign from an accumulator of zero no wrap is possible, and AV stays as it was. -/
def Obligations.BranchesRepeatAndRepeatedMac : Prop :=
  (
  ∀ (e : EngineNo) (rs : GReg) (ofs : BitVec 20) (cnt : BitVec 10) (s : State), s.engFree e → (s.engOf e).slots = none →
    let x := s.engOf e
    let a := x.reg rs
    let far := x.pc + 4 * ofs.signExtend 32
    let B (c : Instr) (y : EngX) (t : Word) := RetiresTo c s e y 1 none (x.pc + 4) (some (2, t))
    B (.engBra e ofs) x far ∧
    B (.engBeqz e rs ofs) x (if a = 0 then far else x.pc + 12) ∧
    B (.engBnez e rs ofs) x (if a = 0 then x.pc + 12 else far) ∧
    B (.engBltz e rs ofs) x (if a.msb then far else x.pc + 12) ∧
    B (.engBgez e rs ofs) x (if a.msb then x.pc + 12 else far) ∧
    B (.engBal e ofs) (x.setReg 15 (x.pc + 12)) far ∧
    B (.engJr e rs) x a ∧
    (Gives (.engRep e false rs cnt) s fun t => (t.engOf e).rep = some (cnt.toNat + 1, x.pc) ∧
      (t.engOf e).pc = x.pc + 4 ∧ (t.engOf e).arch = x.arch ∧ OnlyEngine s t e) ∧
    (Gives (.engRep e true rs cnt) s fun t => (t.engOf e).rep = some (a.toNat % 1024 + 1, x.pc) ∧
      (t.engOf e).pc = x.pc + 4 ∧ (t.engOf e).arch = x.arch ∧ OnlyEngine s t e)
  ) ∧ (
  ∀ (e : EngineNo) (a : AccNo) (rs rt : GReg) (hs ht : Bool) (s : State) (n : Nat) (rpc : Word), s.engIssues e = true →
    fetchOk e (s.engOf e) = true → (s.engOf e).rep = some (n, rpc) → 1 ≤ n → (s.engOf e).oldReg = none →
    (∀ p, (s.engOf e).prog = some p → p.stopDue = none) →
    let x := s.engOf e
    Gives (.engMac e a rs rt hs ht) s fun t =>
      (t.engOf e).acc a = (BitVec.ofInt 40 (x.acc a + n * x.product rs rt hs ht)).toInt ∧ (t.engOf e).rep = none ∧
      (t.engOf e).beat = x.beat + BitVec.ofNat 64 n ∧ (t.engOf e).g = x.g ∧ (t.engOf e).data = x.data ∧
      (x.acc a = 0 → n ≤ 511 → (t.engOf e).status = x.status)
  )

/-- R365: MFS and MTS in supervisor mode, and in user mode for the registers a program may name. A read of BEAT_LO
captures BEAT_HI; in user mode MTS to STATUS changes the flag bits alone.

R371, R373, R374: WAIT stops an engine unless a source of its wake mask is pending; a source wakes it and stays
pending; an edge within the three beats after WAIT is lost. An interrupt saves PC and STATUS, clears U and IE, and goes
to 4 times the lowest pending enabled source; RTI restores both, with no delay slots, in 3 beats. SYNC and NOP retire
with no effect. -/
def Obligations.SystemRegistersSleepAndReturn : Prop :=
  (
  ∀ (e : EngineNo) (rd rs : GReg) (i : Fin 4) (s : State), s.engFree e →
    let x := s.engOf e
    let v := x.reg rs
    let num (k : Nat) : Half := BitVec.ofNat 16 k
    (Retires (.engMfs e rd (num 0)) s e (x.setReg rd x.status) ∧
      Retires (.engMfs e rd (num 6)) s e (x.setReg rd (x.ash.setWidth 32)) ∧
      Retires (.engMfs e rd (num (0x10 + i))) s e (x.setReg rd (Tab.get 0 x.cb i)) ∧
      Retires (.engMfs e rd (num (0x14 + i))) s e (x.setReg rd (Tab.get 0 x.cl i)) ∧
      Retires (.engMfs e rd (num 0x20)) s e
        ({ x with beatHi := (x.beat >>> 32).setWidth 32 }.setReg rd (x.beat.setWidth 32)) ∧
      Retires (.engMfs e rd (num 0x21)) s e (x.setReg rd x.beatHi) ∧
      Retires (.engMts e rs (num 6)) s e { x with ash := v.setWidth 5 } ∧
      Retires (.engMts e rs (num (0x10 + i))) s e { x with cb := Tab.set 0 x.cb i v } ∧
      Retires (.engMts e rs (num (0x14 + i))) s e { x with cl := Tab.set 0 x.cl i v }) ∧
    (x.user = true → Retires (.engMts e rs (num 0)) s e { x with status := (x.status &&& 0xFFFFFFC0) ||| (v &&& 0x3F) }) ∧
    (x.user = false →
      Retires (.engMfs e rd (num 1)) s e (x.setReg rd x.epc) ∧
      Retires (.engMfs e rd (num 2)) s e (x.setReg rd x.estatus) ∧
      Retires (.engMfs e rd (num 3)) s e (x.setReg rd (x.ien.setWidth 32)) ∧
      Retires (.engMfs e rd (num 4)) s e (x.setReg rd (x.ipend.setWidth 32)) ∧
      Retires (.engMfs e rd (num 5)) s e
        (x.setReg rd (BitVec.ofNat 32 (s.rd Reg.ENG.SLEEP.MODE e + 65536 * s.rd Reg.ENG.SLEEP.WAKE_MASK e))) ∧
      Retires (.engMts e rs (num 0)) s e { x with status := v &&& 0x33F } ∧
      Retires (.engMts e rs (num 1)) s e { x with epc := v } ∧
      Retires (.engMts e rs (num 2)) s e { x with estatus := v &&& 0x33F } ∧
      Retires (.engMts e rs (num 3)) s e { x with ien := v.setWidth 16 } ∧
      Retires (.engMts e rs (num 4)) s e { x with ipend := v.setWidth 16 } ∧
      (Gives (.engMts e rs (num 5)) s fun t => (t.engOf e).arch = x.arch ∧
        t.rd Reg.ENG.SLEEP.MODE e = v.toNat % 2 ^ Reg.ENG.SLEEP.MODE.w ∧ t.rd Reg.ENG.SLEEP.WAKE_MASK e = bitsOf v.toNat 16 16 ∧
        OnlyEngine s t e) ∧
      (Gives (.engMts e rs (num 0x40)) s fun t => (t.engOf e).arch = x.arch ∧ (t.engOf e).wdt = 1 ∧ OnlyEngine s t e))
  ) ∧ (
  ∀ (e : EngineNo) (s : State),
    let x := s.engOf e
    (s.engFree e → x.slots = none → x.user = false →
      (x.ipend.toNat &&& s.rd Reg.ENG.SLEEP.WAKE_MASK e = 0 → Retires (.engWait e) s e { x with asleep := some s.time }) ∧
      (x.ipend.toNat &&& s.rd Reg.ENG.SLEEP.WAKE_MASK e ≠ 0 → Retires (.engWait e) s e x)) ∧
    (s.engFree e → x.slots = none → RetiresTo (.engRti e) s e { x with status := x.estatus } 3 none x.epc none) ∧
    (s.engFree e → Retires (.engSync e) s e x ∧ Retires (.engNop e) s e x) ∧
    (s.engPowered e = true → ∀ (src : Fin 16) (level early : Bool),
      (early = true ∧ level = false ∧ x.asleep ≠ none → exec (.engineWake e src level early) s = .next s) ∧
      (¬ (early = true ∧ level = false ∧ x.asleep ≠ none) → Gives (.engineWake e src level early) s fun t =>
        let y := { x with ipend := x.ipend ||| BitVec.ofNat 16 (2 ^ src.val) }
        t.engOf e = (if bitOf (s.rd Reg.ENG.SLEEP.WAKE_MASK e) src then { y with asleep := none } else y) ∧ OnlyEngine s t e)) ∧
    (s.engPowered e = true → x.asleep = none → x.ie = true → x.boundary = true → ∀ i : Fin 16,
      (x.ien &&& x.ipend).getLsbD i = true → (∀ j, j < i → (x.ien &&& x.ipend).getLsbD j.val = false) →
      Gives (.engineInterrupt e) s fun t =>
        (t.engOf e).arch = { x with epc := x.pc, estatus := x.status, status := x.status &&& 0xFF }.arch ∧
        (t.engOf e).pc = BitVec.ofNat 32 (4 * i) ∧ (t.engOf e).beat = x.beat + 3 ∧ OnlyEngine s t e)
  )

/-- R365, R368, R369, R374, R380, R382, R383: what a lane program may not do is a sandbox violation with its cause: a
fetch outside the instruction window (2), a control instruction in a delay slot (1), WAIT (4), a system register it may
not name (3), a misaligned access or one outside its windows (2), an uncorrectable word inside them (5), an SVC number
that is not listed (6). -/
def Obligations.SandboxViolations : Prop :=
  ∀ (n : EngineNo) (s : State), n.val < 64 → (s.engOf n).user = true → s.engIssues n = true → (s.engOf n).rep = none →
    (∀ p, (s.engOf n).prog = some p → p.stopDue = none) →
    let x := s.engOf n
    (fetchOk n x = false → Violates (.engNop n) s n 2) ∧
    (fetchOk n x = true →
      (x.slots ≠ none → ∀ ofs, Violates (.engBra n ofs) s n 1) ∧
      (x.slots = none → Violates (.engWait n) s n 4) ∧
      (∀ rd num, 1 ≤ BitVec.toNat num → (num.toNat ≤ 5 ∨ num.toNat = 0x40) →
        Violates (.engMfs n rd num) s n 3 ∧ Violates (.engMts n rd num) s n 3) ∧
      (∀ (r : GReg) (m : AddrMode) (busy : Bool) (a : Word), x.ea m = some a →
        (a.toNat % 4 ≠ 0 ∨ ¬ (0x10018000 ≤ a.toNat ∧ a.toNat < 0x10020000 ∨ 0x20008000 ≤ a.toNat ∧ a.toNat < 0x20009000) →
          ∀ ecc, Violates (.engLw n r m busy ecc) s n 2) ∧
        (a.toNat % 4 ≠ 0 ∨ ¬ (0x10018000 ≤ a.toNat ∧ a.toNat < 0x10020000) → Violates (.engSw n r m busy) s n 2) ∧
        (a.toNat % 4 = 0 → 0x10018000 ≤ a.toNat → a.toNat < 0x10020000 → Violates (.engLw n r m busy 2) s n 5)) ∧
      (∀ (num : Half) (b : Fin 401), x.slots = none → 4 ≤ num.toNat → Violates (.engSvc n num b) s n 6))

/-- R381, R383: firmware calls of a lane program with its budget unspent: READ_TIME puts the timebase into g1; FFE_PROPOSE
and TARGET_PROPOSE answer 1 in g0 while the program does not own the loop or a freeze condition holds, and 2 for a bad
argument; a valid FFE_PROPOSE hands the clamped taps over. YIELD suspends the program. In supervisor mode SVC saves the
next PC and STATUS and clears U.

R381: at a permitted boundary with its budget spent a running program is suspended with its registers kept, and the
next period resumes it with them and with a fresh budget. -/
def Obligations.FirmwareCallsAndBudget : Prop :=
  (
  ∀ (n : EngineNo) (b : Fin 401) (s : State), s.engFree n → (s.engOf n).slots = none →
    let x := s.engOf n
    let g1 := (x.reg 1).toNat
    (n.val < 64 → x.user = true → (∀ p, x.prog = some p → p.suspended = false) →
      (Gives (.engSvc n 1 b) s fun t => Tab.get 0 (t.engOf n).g 0 = 0 ∧
        Tab.get 0 (t.engOf n).g 1 = BitVec.ofNat 32 s.time ∧ (∀ k, 2 ≤ k → Tab.get 0 (t.engOf n).g k = Tab.get 0 x.g k) ∧
        (t.engOf n).pc = x.pc + 4 ∧ (t.engOf n).beat = x.beat + BitVec.ofNat 64 (1 + b) ∧ OnlyEngine s t n) ∧
      (s.flag Reg.ENG.PROG_CTRL.OWN_FFE n = false → Gives (.engSvc n 2 b) s fun t => Tab.get 0 (t.engOf n).g 0 = 1 ∧
        OnlyEngine s t n) ∧
      (s.flag Reg.ENG.PROG_CTRL.OWN_FFE n = true → s.loopFrozen n Reg.LN.RX_CTRL.FFE_FREEZE = false →
        (g1 % 2 ≠ 0 ∨ g1 < 0x10018000 ∨ 0x10020000 < g1 + 96 → Gives (.engSvc n 2 b) s fun t =>
          Tab.get 0 (t.engOf n).g 0 = 2 ∧ OnlyEngine s t n) ∧
        (g1 % 2 = 0 → 0x10018000 ≤ g1 → g1 + 96 ≤ 0x10020000 → Gives (.engSvc n 2 b) s fun t =>
          Tab.get 0 (t.engOf n).g 0 = 0 ∧ t.rxOf n = (s.setTaps n (proposedTaps x g1)).rxOf n)) ∧
      (s.flag Reg.ENG.PROG_CTRL.OWN_TGT n = false → Gives (.engSvc n 3 b) s fun t => Tab.get 0 (t.engOf n).g 0 = 1 ∧
        OnlyEngine s t n) ∧
      (s.flag Reg.ENG.PROG_CTRL.OWN_TGT n = true → s.loopFrozen n Reg.LN.RX_CTRL.TGT_FREEZE = false →
        (s.rd Reg.LN.MLSE_CTRL.ALPHA1_MAX n < g1 % 16 → Gives (.engSvc n 3 b) s fun t =>
          Tab.get 0 (t.engOf n).g 0 = 2 ∧ OnlyEngine s t n) ∧
        (g1 % 16 ≤ s.rd Reg.LN.MLSE_CTRL.ALPHA1_MAX n → Gives (.engSvc n 3 b) s fun t =>
          Tab.get 0 (t.engOf n).g 0 = 0 ∧ t.rd Reg.LN.MLSE_CTRL.ALPHA1 n = g1 % 16 ∧
          t.rd Reg.LN.MLSE_CTRL.ALPHA2 n = bitsOf g1 4 3)) ∧
      (∀ p, x.prog = some p → Gives (.engSvc n 0 b) s fun t => (t.engOf n).user = false ∧
        ∃ q, (t.engOf n).prog = some q ∧ q.suspended = true ∧ q.pc = x.pc + 4 ∧ q.p = x.p)) ∧
    (x.user = false → Gives (.engSvc n 0 b) s fun t =>
      (t.engOf n).epc = x.pc + 4 ∧ (t.engOf n).estatus = x.status ∧ (t.engOf n).user = false ∧ (t.engOf n).g = x.g ∧
      (t.engOf n).data = x.data ∧ OnlyEngine s t n)
  ) ∧ (
  ∀ (n : LaneNo) (s : State) (p : ProgX),
    let x := s.engOf n
    x.prog = some p → s.progState n = 2 →
    (x.user = true → x.boundary = true → s.progBudget n ≤ p.used → Gives (.budgetExhausted n) s fun t =>
      (t.engOf n).user = false ∧ t.regs = s.regs ∧ (∀ j, j ≠ n.val → t.engOf j = s.engOf j) ∧
      ∃ q, (t.engOf n).prog = some q ∧ q.suspended = true ∧ q.g = x.g ∧ q.a = x.a ∧ q.p = x.p ∧ q.cb = x.cb ∧
        q.cl = x.cl ∧ q.ash = x.ash ∧ q.pc = x.pc ∧ q.status = x.status) ∧
    (x.user = false → p.suspended = true → Gives (.budgetPeriod n) s fun t =>
      (t.engOf n).g = p.g ∧ (t.engOf n).a = p.a ∧ (t.engOf n).p = p.p ∧ (t.engOf n).pc = p.pc ∧
      (t.engOf n).status = p.status ∧ (t.engOf n).data = x.data ∧ t.regs = s.regs ∧
      (∃ q, (t.engOf n).prog = some q ∧ q.used = 0 ∧ q.suspended = false) ∧ ∀ j, j ≠ n.val → t.engOf j = s.engOf j)
  )

/-- R378, R379, R384: a lane program that passes the checks is LOADED with its code and data in the windows of the
engine and the rest of the data window zero; start runs it in user mode at its entry with the data window kept, unload
forgets it; of a program that does not exist or runs, start and unload are refused.

R376, R386, R390, R458: a state block goes to its slot in the hod, and the next to the other; an activation keeps slot 0
until K0 has swapped, and a trial writes both; a counter is cleared with
its flags, all datapath counters together by DP_CLEAR; a counter that passes 2^48 wraps with OVF, and the carry goes
into a chained odd counter above. -/
def Obligations.ProgramsStateBlocksAndCounters : Prop :=
  (
  (∀ (s u : State) (r : RingNo) (e : Entry) (d : Dma) (f : Flight), Taken s .programLoad r e d u f →
    chkProgramLoad u f = none →
    let n := f.e.target.toNat
    let img := dataOf f (op32 f.e 16)
    let nc := numAt img 8 4
    let nd := numAt img 12 4
    Finishes (.programLoad r e d) s r f {} fun t => t.progState n = 1 ∧ t.rd Reg.ENG.PROG_STAT.CAUSE n = 0 ∧
      t.rd Reg.ENG.PROG_STAT.FN n = f.fn % 64 ∧ (t.engOf n).g = (u.engOf n).g ∧ (t.engOf n).pc = (u.engOf n).pc ∧
      (∀ k < nc, Tab.get 0 (t.engOf n).code (0xC000 + k) = img.getD (96 + k) 0) ∧
      (∀ k < 0x8000, Tab.get 0 (t.engOf n).data (0x18000 + k) = if k < nd then img.getD (96 + nc + k) 0 else 0) ∧
      (∀ k < 0x18000, Tab.get 0 (t.engOf n).data k = Tab.get 0 (u.engOf n).data k)) ∧
  (∀ (s u : State) (r : RingNo) (e : Entry) (d : Dma) (f : Flight) (p : ProgX), Taken s .programCtrl r e d u f →
    f.e.target.toNat < 64 → (u.engOf f.e.target.toNat).prog = some p →
    let n := f.e.target.toNat
    let st := u.progState n
    (opByte f.e 16 = 1 → (st = 1 ∨ st = 3 ∨ st = 4) → Finishes (.programCtrl r e d) s r f {} fun t =>
      t.progState n = 2 ∧ (t.engOf n).user = true ∧ (t.engOf n).ie = true ∧
      (t.engOf n).pc = BitVec.ofNat 32 (0xC000 + p.entry) ∧ (t.engOf n).data = (u.engOf n).data ∧ t.out = u.out) ∧
    (opByte f.e 16 = 2 → (st = 1 ∨ st = 3 ∨ st = 4) → Finishes (.programCtrl r e d) s r f {} fun t =>
      t.progState n = 0 ∧ (t.engOf n).prog = none ∧ (t.engOf n).data = (u.engOf n).data ∧ t.out = u.out) ∧
    (opByte f.e 16 = 0 → st = 2 → (u.engOf n).user = true → (u.engOf n).boundary = true →
      Finishes (.programCtrl r e d) s r f {} fun t => t.progState n = 3 ∧ (t.engOf n).user = false) ∧
    ((st = 0 ∨ (st = 2 ∧ (opByte f.e 16 = 1 ∨ opByte f.e 16 = 2))) →
      Finishes (.programCtrl r e d) s r f { st := .badField } fun t => t = u))
  ) ∧ (
  (∀ (e : EngineNo) (b : List Byte) (s : State), e.val < 80 → s.engPowered e = true → s.hodOn = true →
    s.upd.dual = false → b.length ≤ 16384 → (s.engOf e).blockSlot ≤ 1 →
    let x := s.engOf e
    Gives (.stateBlockWrite e b) s fun t => t = { s with hod := t.hod, eng := t.eng, regs := t.regs } ∧
      t.hod = (s.hodStore (blockOfs e x.blockSlot) b []).hod ∧
      t.engOf e = { x with blockSlot := 1 - x.blockSlot, blockLens := Tab.set 0 x.blockLens x.blockSlot b.length } ∧
      ∀ j, j ≠ e.val → t.engOf j = s.engOf j) ∧
  (∀ (e : EngineNo) (b : List Byte) (s : State), e.val < 80 → s.engPowered e = true → s.hodOn = true →
    s.upd.dual = true → b.length ≤ 16384 →
    (s.updState = 3 → Gives (.stateBlockWrite e b) s fun t => t = s.storeBlock e 0 b ∧ (t.engOf e).blockSlot = 1 ∧
      t.hod = (s.hodStore (blockOfs e 0) b []).hod) ∧
    (s.updState ≠ 3 → Gives (.stateBlockWrite e b) s fun t => t = (s.storeBlock e 1 b).storeBlock e 0 b ∧
      (t.engOf e).blockSlot = 1 ∧ Tab.get 0 (t.engOf e).blockLens 0 = b.length ∧
      Tab.get 0 (t.engOf e).blockLens 1 = b.length)) ∧
  (∀ (e : EngineNo) (i : Fin 4) (s : State), s.engPowered e = true → s.coreOn = true → e.val < 80 →
    Gives (.pmcClear (.eng e i)) s fun t => t.rd Reg.ENG.PMC_CNT.COUNT e i = 0 ∧ t.rd Reg.ENG.PMC_SEL.OVF e i = 0 ∧
      t.rd Reg.ENG.PMC_SEL.PARTIAL e i = 0 ∧ OnlyRegs (s.setShadow 0 none) t [Reg.ENG.PMC_CNT.COUNT.key e i, Reg.ENG.PMC_SEL.OVF.key e i,
        Reg.ENG.PMC_SEL.PARTIAL.key e i]) ∧
  (∀ (i : Fin 32) (s : State), s.coreOn = true → Gives (.pmcClear (.dp i)) s fun t => t.rd Reg.PMC.DP_CNT.COUNT i = 0 ∧
      t.rd Reg.PMC.DP_SEL.OVF i = 0 ∧ t.rd Reg.PMC.DP_SEL.PARTIAL i = 0 ∧
      OnlyRegs (s.setShadow 0 none) t [Reg.PMC.DP_CNT.COUNT.key i 0, Reg.PMC.DP_SEL.OVF.key i 0, Reg.PMC.DP_SEL.PARTIAL.key i 0]) ∧
  (∀ s : State, s.coreOn = true → Gives .dpClear s fun t => (∀ i < 32, t.rd Reg.PMC.DP_CNT.COUNT i = 0) ∧
      OnlyRegs (s.setShadow 0 none) t ((List.range 32).map fun i => Reg.PMC.DP_CNT.COUNT.key i 0)) ∧
  (∀ (i : Fin 32) (s : State), i.val % 2 = 0 → s.coreOn = true → s.rd Reg.PMC.DP_CNT.COUNT i < 2 ^ 48 →
    s.flag Reg.PMC.DP_SEL.CHAIN (i.val + 1) = true → s.rd Reg.PMC.DP_CNT.COUNT (i.val + 1) < 2 ^ 48 - 1 →
    Gives (.pmcCounterWrap (.dp i)) s fun t => t.rd Reg.PMC.DP_CNT.COUNT i = 0 ∧ t.rd Reg.PMC.DP_SEL.OVF i = 1 ∧
      t.rd Reg.PMC.DP_CNT.COUNT (i.val + 1) = s.rd Reg.PMC.DP_CNT.COUNT (i.val + 1) + 1 ∧
      t.rd Reg.PMC.DP_SEL.OVF (i.val + 1) = s.rd Reg.PMC.DP_SEL.OVF (i.val + 1) % 2)
  )

/-! ## Resets, starts and the PCIe link (11, 15, 16 and 20) -/

/-- R1, R6, R9, R272, R421: cold reset leaves every register outside the fuses and the bias block at its reset value, no
ring, engine or lane state, the fused grade as it is, every course off with its pads latched and its TWIN_SEL low, and time at 0; the loss of
VDD_KEEP leads to it (the model's choice, notes/assumptions/41). Warm reset leaves every register that R9 does not keep at its reset
value, all keep cores running, nothing powered and every TWIN_SEL low; the loss of another rail is a warm reset that is
held. -/
def Obligations.ResetsClearTheDevice : Prop :=
  (∀ s : State, Gives .coldReset s fun t => t.phase = State.reset.phase ∧ t.time = 0 ∧ t.pending = s.pending ∧
    (∀ r, t.ring r = {}) ∧ (∀ e, t.engOf e = {}) ∧ (∀ n, t.rxOf n = {} ∧ t.txOf n = {}) ∧
    (∀ c, t.ownSel c = false ∧ t.coursePow c = .off ∧ t.padHeldC c = true) ∧
    t.rd Reg.GLB.CAP.GRADE = s.rd Reg.GLB.CAP.GRADE ∧ t.bgFused = s.bgFused ∧ t.pwr.hiZ = false ∧
    ∀ (f : Fld) (i j : Nat), keepsCold (f.key i j) = false → t.rd f i j = f.rst) ∧
  (∀ s : State, exec (.supplyLoss true) s = exec .coldReset s) ∧
  (∀ s : State, Gives .warmReset s fun t => t.phase = (if s.phase = .brownout then .brownout else .inReset) ∧
    (∀ (f : Fld) (i j : Nat), keepsWarm (f.key i j) = false → t.rd f i j = f.rst) ∧
    (∀ k, (t.core k).stopped = false ∧ (t.core k).faults = 0) ∧ t.vfEnable = false ∧
    (∀ c : CourseNo, t.ownSel c = false ∧ t.coursePow c = .off ∧ t.padHeldC c = true) ∧ ∀ q, t.quadOn q = false) ∧
  (∀ s : State, Gives (.supplyLoss false) s fun t => t.phase = .brownout ∧
    ∀ (f : Fld) (i j : Nat), keepsWarm (f.key i j) = false → t.rd f i j = f.rst)

/-- R415, R437, R448, R449, R450, R509: at the release of a reset the device is held while a sensor reads too hot; otherwise it
boots. With no commit record slot A is booted as proven; when neither slot can be read it halts in KEEP and releases the
flash. A field-repair overlay whose CRC fails at a start from reset is cleared and OVERLAY_BAD set (R403). D_KEEP_EXIT
starts the device in the same way, without the hold (the model's choice, notes/assumptions/37), and with every pad latched
at its reset level.

R20, R27, R415, R420, R438, R448, R482: at DEVICE_READY the device serves, the hod is ready, and a device with no twin raises
its eight TWIN_SEL levels; THERM_TRIP is raised where a trip record is held. D_KEEP_ENTRY waits for a power transition in
flight; otherwise the device is in D_KEEP with its hod in self-refresh, K0 as it was, and the spares mapped as they were. -/
def Obligations.StartsDeviceReadyAndDKeep : Prop :=
  (
  (∀ (b : BootIn) (s : State), s.tooHot = true →
    (s.phase = .inReset → exec (.perstRelease b) s = .next { s with phase := .heldHot }) ∧
    (s.phase = .brownout → exec (.supplyRestored b) s = .next { s with phase := .heldHot }) ∧
    (s.phase = .heldHot → exec (.resetHoldRelease b) s = .next { s with phase := .heldHot })) ∧
  (∀ (b : BootIn) (s : State), recordOf b.rec0 = none → recordOf b.rec1 = none →
    let A (p : Phase) (t : State) :=
      (∀ img, b.imgA = some img → s.slotFail b.imgA = 0 → t.phase = p ∧ t.rd Reg.SEC.BOOT_STAT.SLOT = 0 ∧
        t.rd Reg.SEC.BOOT_STAT.BOOT_TRIAL = 0 ∧ t.rd Reg.UPD.VERSION.RUNNING = (imageInfo img).version % 2 ^ 32 ∧
        t.upd.running = imageInfo img ∧ t.upd.bootTrial = false) ∧
      (b.imgA = none → b.imgB = none → t.phase = .halted ∧ t.rd Reg.SEC.BOOT_STAT.FLASH_RELEASED = 1 ∧
        t.rd Reg.SEC.BOOT_STAT.FAIL_A = 1 ∧ t.rd Reg.SEC.BOOT_STAT.FAIL_B = 1) ∧
      (b.badOverlay = true → p = .booting → t.hod.overlay = [] ∧ t.hod.saved = [] ∧ t.rd Reg.HOD.REPAIR_STAT.OVERLAY_BAD = 1)
    (s.tooHot = false →
      (s.phase = .inReset → Gives (.perstRelease b) s (A .booting)) ∧
      (s.phase = .brownout → Gives (.supplyRestored b) s (A .booting)) ∧
      (s.phase = .heldHot → Gives (.resetHoldRelease b) s (A .booting))) ∧
    (s.phase = .dkeep → Gives (.dKeepExit b) s fun t => A .waking t ∧
      (∀ c : CourseNo, t.padHeldC c = true ∧ t.padLatch c = {}) ∧ ∀ q, t.padHeldQ q = true))
  ) ∧ (
  (∀ s : State, (s.phase = .booting ∨ s.phase = .waking) → s.twin.strap = 0 → s.held = [] → s.doorHeld = [] →
    (∀ c : CourseNo, (s.ladder c).due = false) → Gives .deviceReady s fun t =>
      t.phase = .active ∧ t.rd Reg.SEC.BOOT_STAT.READY = 1 ∧ t.rd Reg.HOD.STAT.READY = 1 ∧
      t.rd Reg.HOD.STAT.SELF_REFRESH = 0 ∧ (∀ c : CourseNo, t.ownSel c = true) ∧
      (s.flag Reg.THM.STAT.TRIP_VALID = true → t.flag Reg.EVT.LATCH.RAISED 9 = true) ∧
      (s.flag Reg.THM.STAT.TRIP_VALID = false → t.raises = s.raises ∧ OnlyRegs
        { s with phase := .active, twin := t.twin, upd := t.upd } t
        [Reg.SEC.BOOT_STAT.READY.key 0 0, Reg.HOD.STAT.READY.key 0 0, Reg.HOD.STAT.SELF_REFRESH.key 0 0,
         Reg.HOD.REPAIR_STAT.ENTRIES.key 0 0])) ∧
  (∀ s : State, s.coreOn = true → (s.pwr.trans ≠ none ∨ s.pwr.offNow ≠ []) →
    exec .dKeepEntry s = .next { s with pwr := { s.pwr with d3Wait := true } }) ∧
  (∀ s : State, s.coreOn = true → s.pwr.trans = none → s.pwr.offNow = [] → Gives .dKeepEntry s fun t =>
    t.phase = .dkeep ∧ t.rd Reg.SEC.BOOT_STAT.READY = 0 ∧ t.rd Reg.HOD.STAT.READY = 0 ∧
    t.rd Reg.HOD.STAT.SELF_REFRESH = 1 ∧ (∀ e, e ≠ 80 → t.engOf e = {}) ∧ t.engOf 80 = s.engOf 80 ∧ t.core 0 = s.core 0 ∧
    (s.failed = [] → s.subst = none → ∀ i < 8,
      t.flag Reg.GLB.ENG_SPARE_MAP.MAPPED i = s.flag Reg.GLB.ENG_SPARE_MAP.MAPPED i ∧
      t.rd Reg.GLB.ENG_SPARE_MAP.LOGICAL i = s.rd Reg.GLB.ENG_SPARE_MAP.LOGICAL i) ∧ t.pwr.trans = none)
  )

/-- R295, R297: an FLR of a VF disables its rings at once, drops what they had fetched, ends their sessions and resets
its MSI-X table, and leaves every other ring and the owners alone; an FLR of PF0 does this to every ring, clears VF
Enable and gives all rings to PF0. D3hot is a function's own bit; clearing VF Enable disables the rings of the VFs. -/
def Obligations.FunctionResets : Prop :=
  (∀ (f : FnNo) (s : State), f.val ≠ 0 → s.pcieUp = true → s.upd.lockRing = none →
    Gives (.functionLevelReset f) s fun t =>
      (∀ r : RingNo, s.ringOwner r = f.val → t.ringState r = 0 ∧ t.rd Reg.RING.CFG.EN r = 0 ∧ t.ringOwner r = f.val ∧
        (t.ring r).flights = [] ∧ (t.ring r).session = none ∧ (t.ring r).nonce = none) ∧
      (∀ r : RingNo, s.ringOwner r ≠ f.val → t.ring r = s.ring r ∧ t.ringState r = s.ringState r) ∧
      (∀ v < 2048, t.vec f v = {}) ∧ (t.fn f).lockUntil = (s.fn f).lockUntil ∧ (t.fn f).d3hot = false ∧
      t.vfEnable = s.vfEnable ∧ t.out = s.out) ∧
  (∀ s : State, s.pcieUp = true → s.upd.lockRing = none → Gives (.functionLevelReset 0) s fun t =>
      (∀ r : RingNo, t.ringState r = 0 ∧ t.ringOwner r = 0 ∧ (t.ring r).flights = [] ∧ (t.ring r).session = none) ∧
      t.vfEnable = false ∧ (∀ f v, t.vec f v = {}) ∧ (∀ f : FnNo, (t.fn f).lockUntil = (s.fn f).lockUntil) ∧ t.out = s.out) ∧
  (∀ (f : FnNo) (enter : Bool) (s : State), f.val ≠ 0 → s.pcieUp = true → Gives (.vfD3hot f enter) s fun t =>
      (t.fn f).d3hot = enter ∧ t = { s with fns := t.fns } ∧ ∀ g, g ≠ f.val → t.fn g = s.fn g) ∧
  (∀ s : State, s.pcieUp = true → exec (.vfEnableWrite true) s = .next { s with vfEnable := true }) ∧
  (∀ s : State, s.pcieUp = true → s.upd.lockRing = none → Gives (.vfEnableWrite false) s fun t => t.vfEnable = false ∧
      (∀ r : RingNo, s.ringOwner r ≠ 0 → s.ringState r = 1 → t.rd Reg.RING.CFG.EN r = 0 ∧ (t.ring r).session = none ∧
        t.ringState r = (if (s.ring r).flights.isEmpty then 0 else 3) ∧ t.ringOwner r = s.ringOwner r) ∧
      (∀ r : RingNo, s.ringOwner r = 0 → t.ring r = s.ring r ∧ t.ringState r = s.ringState r))

/-- R498, R475 to R477: PCIE_LINK_TRAINED shows the link; a link below 64 GT/s or x16 is degraded, DEG_CHG sets where that
changes, and PCIE_LINK is raised where it rises. A TAP instruction goes to the instruction register: IDCODE shows
the device's code, private ones are BYPASS outside VENDOR_TEST and RETURN, and while CORE is on none drives the
balls. -/
def Obligations.PcieLinkAndTestPort : Prop :=
  (∀ (speed width : Nat) (flit : Bool) (s : State), s.phase = .active →
    Gives (.pcieLinkTrained speed width flit) s fun t =>
      t.rd Reg.GLB.LINK.SPEED = speed % 2 ^ Reg.GLB.LINK.SPEED.w ∧ t.rd Reg.GLB.LINK.WIDTH = width % 2 ^ Reg.GLB.LINK.WIDTH.w ∧
      t.rd Reg.GLB.LINK.FLIT = bitVal flit ∧ t.flag Reg.GLB.LINK.DEGRADED = (decide (speed < 3) || decide (width < 16)) ∧
      (t.flag Reg.GLB.LINK.DEGRADED ≠ s.flag Reg.GLB.LINK.DEGRADED → t.flag Reg.GLB.LINK.DEG_CHG = true) ∧
      (t.flag Reg.GLB.LINK.DEGRADED = true → s.flag Reg.GLB.LINK.DEGRADED = false → t.flag Reg.EVT.LATCH.RAISED 14 = true) ∧
      ((t.flag Reg.GLB.LINK.DEGRADED = false ∨ s.flag Reg.GLB.LINK.DEGRADED = true) → OnlyRegs s t
        [Reg.GLB.LINK.SPEED.key 0 0, Reg.GLB.LINK.WIDTH.key 0 0, Reg.GLB.LINK.FLIT.key 0 0, Reg.GLB.LINK.DEGRADED.key 0 0,
         Reg.GLB.LINK.DEG_CHG.key 0 0])) ∧
  (∀ s : State, Gives (.tapInstruction .idcode) s fun t => t.tapIr = .idcode ∧ t.out = s.out ++ [.tap "IDCODE" 0x1644856B]) ∧
  (∀ (i : TapIns) (s : State), s.coreOn = true → i = .extest ∨ i = .extestPulse ∨ i = .extestTrain ∨ i = .highz →
    Gives (.tapInstruction i) s fun t => t.tapIr = .bypass ∧ t = { s with tapIr := .bypass, out := t.out }) ∧
  (∀ s : State, s.lc ≠ 0 → s.lc ≠ 3 → Gives (.tapInstruction .privateTest) s fun t => t.tapIr = .bypass) ∧
  (∀ (i : TapIns) (s : State), s.coreOn = false → i ≠ .privateTest → Gives (.tapInstruction i) s fun t => t.tapIr = i)

/-! ## Bias channels (09_optics_bias_and_supervision) -/

/-- R234, R236, R237, R242, R243, R352: BIAS_SET applies all of its entries or none. An entry that names a channel of
another course, a reserved or masked range, a code above CODE_MAX or above 0 for a quenched member, an enable before any
write, a write or enable after thermal shutdown, or a reserved action, is refused. One entry that writes records range
and code; with ACT 1 a channel in OFF starts to connect, with ACT 2 a connected one starts to ramp down. -/
def Obligations.BiasSetAppliesAllOrNothing : Prop :=
  (∀ (s u : State) (r : RingNo) (e : Entry) (d : Dma) (f : Flight) (i : Nat), Taken s .biasSet r e d u f →
    i < opByte f.e 16 →
    let b := opByte f.e (20 + 4 * i)
    let rng := opBits f.e (21 + 4 * i) 0 3
    let w := opBits f.e (21 + 4 * i) 3 1
    let act := opBits f.e (21 + 4 * i) 4 2
    let code := opBits f.e (22 + 4 * i) 0 12
    (b / 8 ≠ f.e.target.toNat ∨ act = 3 ∨ (w = 0 ∧ (rng ≠ 0 ∨ code ≠ 0)) ∨ (w = 1 ∧ 5 ≤ rng) ∨
      (w = 1 ∧ rng ≠ 0 ∧ bitOf (u.rd Reg.BIAS.CFG.RANGE_MASK b) rng = false) ∨
      (w = 1 ∧ u.rd Reg.BIAS.CFG.CODE_MAX b < code) ∨ (w = 1 ∧ 0 < code ∧ u.biasQuenched b = true) ∨
      (act = 1 ∧ w = 0 ∧ u.flag Reg.BIAS.STAT.WRITTEN b = false) ∨
      ((w = 1 ∨ act = 1) ∧ u.flag Reg.BIAS.STAT.THERM_OFF = true)) →
    Finishes (.biasSet r e d) s r f { st := .badField } fun t => t = u) ∧
  (∀ (s u : State) (r : RingNo) (e : Entry) (d : Dma) (f : Flight), Taken s .biasSet r e d u f → opByte f.e 16 = 1 →
    let b := opByte f.e 20
    let rng := opBits f.e 21 0 3
    let act := opBits f.e 21 4 2
    let code := opBits f.e 22 0 12
    b / 8 = f.e.target.toNat → opBits f.e 21 3 1 = 1 → rng < 5 →
    (rng = 0 ∨ bitOf (u.rd Reg.BIAS.CFG.RANGE_MASK b) rng = true) → code ≤ u.rd Reg.BIAS.CFG.CODE_MAX b →
    (code = 0 ∨ u.biasQuenched b = false) → u.flag Reg.BIAS.STAT.THERM_OFF = false → act ≠ 3 →
    Finishes (.biasSet r e d) s r f {} fun t =>
      t.rd Reg.BIAS.TARGET.RANGE b = rng ∧ t.rd Reg.BIAS.TARGET.CODE b = code ∧ t.flag Reg.BIAS.STAT.WRITTEN b = true ∧
      (act = 1 → t.flag Reg.BIAS.STAT.ENABLED b = true ∧ ((u.biasOf b).ph = .off → (t.biasOf b).ph = .connecting)) ∧
      (act = 2 → t.flag Reg.BIAS.STAT.ENABLED b = false ∧ ((u.biasOf b).ph = .live → (t.biasOf b).ph = .disabling)) ∧
      (act = 0 → (u.biasOf b).ph = .live → u.rd Reg.BIAS.STAT.RANGE b ≠ rng → (t.biasOf b).ph = .parkDown) ∧
      (∀ c, c ≠ b → t.biasOf c = u.biasOf c) ∧ t.rd Reg.BIAS.STAT.CODE b = u.rd Reg.BIAS.STAT.CODE b)

/-- R241, R242, R353: QUENCH latches its groups; every member's recorded code becomes 0 and a connected one ramps down
fast and stays connected, and channels of no named group are unaffected. A release clears the groups, all or none: it
is refused while a trigger of one of them holds. -/
def Obligations.QuenchGroups : Prop :=
  ∀ (s u : State) (r : RingNo) (e : Entry) (d : Dma) (f : Flight), Taken s .quench r e d u f →
    let m := opByte f.e 16
    (opByte f.e 17 = 0 → Finishes (.quench r e d) s r f {} fun t =>
      (∀ g < 8, t.groupQuenched g = (bitOf m g || u.groupQuenched g)) ∧
      (∀ g < 8, bitOf m g = true → u.groupQuenched g = false → bitsOf (t.rd Reg.BIAS.QUENCH_STAT.CAUSE) (3 * g) 3 = 1) ∧
      (∀ (b : BiasNo) (g : Nat), g < 8 → bitOf m g = true → u.inGroup b g = true →
        t.rd Reg.BIAS.TARGET.CODE b = 0 ∧ t.rd Reg.BIAS.TARGET.RANGE b = u.rd Reg.BIAS.TARGET.RANGE b ∧
        t.rd Reg.BIAS.STAT.CODE b = u.rd Reg.BIAS.STAT.CODE b ∧
        (((u.biasOf b).ph = .live ∨ (u.biasOf b).ph = .parkDown ∨ (u.biasOf b).ph = .parkDwell) →
          (t.biasOf b).ph = .live ∧ (t.biasOf b).quick = true)) ∧
      (∀ b : BiasNo, (∀ g < 8, bitOf m g = true → u.inGroup b g = false) →
        t.biasOf b = u.biasOf b ∧ t.rd Reg.BIAS.TARGET.CODE b = u.rd Reg.BIAS.TARGET.CODE b)) ∧
    (opByte f.e 17 = 1 → (∀ g < 8, bitOf m g = true → u.triggerHolds g = false) → Finishes (.quench r e d) s r f {} fun t =>
      (∀ g < 8, t.groupQuenched g = (u.groupQuenched g && !bitOf m g)) ∧ t.bias = u.bias ∧
      OnlyRegs (u.setPhase r f.fid .running) t [Reg.BIAS.QUENCH_STAT.QUENCHED.key 0 0, Reg.BIAS.QUENCH_STAT.CAUSE.key 0 0]) ∧
    (opByte f.e 17 = 1 → ∀ g < 8, bitOf m g = true → u.triggerHolds g = true →
      Finishes (.quench r e d) s r f { st := .badField } fun t => t = u)

/-- R233, R235, R236, R237: at each µs a connected channel moves toward its goal by at most the step of RAMP, or 128 codes
where the device itself takes it down, and lands on it exactly; a channel being disabled comes to code 0 and then to
high impedance; a park ramps to 0, dwells, opens the ball and reconnects it in the recorded range at code 0. No other
channel moves. -/
def Obligations.BiasRampsParksAndConnects : Prop :=
  ∀ (b : BiasNo) (s : State), s.vbias = true →
    let x := s.biasOf b
    let code := s.rd Reg.BIAS.STAT.CODE b
    let goal := s.biasGoal b
    (∀ (vbias : Nat) (m : Ball), x.ph = .live → code < 4096 → goal < 4096 →
      let n := if x.quick = true ∧ goal < code then 128 else if s.rd Reg.BIAS.CFG.RAMP b = 0 then 1
        else if s.rd Reg.BIAS.CFG.RAMP b = 1 then 4 else if s.rd Reg.BIAS.CFG.RAMP b = 2 then 16
        else if s.rd Reg.BIAS.CFG.RAMP b = 3 then 64 else 128
      Gives (.biasRampTick b vbias m) s fun t =>
        (code ≤ goal → t.rd Reg.BIAS.STAT.CODE b = min goal (code + n)) ∧
        (goal ≤ code → t.rd Reg.BIAS.STAT.CODE b = max goal (code - n)) ∧ (t.biasOf b).ph = .live ∧
        OnlyRegs { s with bias := t.bias } t [Reg.BIAS.STAT.CODE.key b 0, Reg.BIAS.FLAG.COMP_NOW.key b 0,
          Reg.BIAS.FLAG.OPEN_NOW.key b 0] ∧ ∀ c, c ≠ b.val → t.biasOf c = s.biasOf c) ∧
    (∀ (vbias : Nat) (m : Ball), x.ph = .disabling → code < 4096 → Gives (.biasRampTick b vbias m) s fun t =>
      t.rd Reg.BIAS.STAT.CODE b = code - 128 ∧
      (128 < code → (t.biasOf b).ph = .disabling ∧ t.rd Reg.BIAS.STAT.RANGE b = s.rd Reg.BIAS.STAT.RANGE b) ∧
      (code ≤ 128 → (t.biasOf b).ph = .off ∧ t.rd Reg.BIAS.STAT.RANGE b = 0)) ∧
    (∀ (vbias : Nat) (m : Ball), x.ph = .parkDown → code < 4096 → Gives (.biasRampTick b vbias m) s fun t =>
      t.rd Reg.BIAS.STAT.CODE b = code - 128 ∧ (t.biasOf b).ph = (if code ≤ 128 then .parkDwell else .parkDown)) ∧
    (x.ph = .parkDwell → Gives (.biasParkStep b) s fun t => t.rd Reg.BIAS.STAT.RANGE b = 0 ∧ (t.biasOf b).ph = .parkOpen) ∧
    (x.ph = .parkOpen → Gives (.biasParkStep b) s fun t =>
      t.rd Reg.BIAS.STAT.RANGE b = s.rd Reg.BIAS.TARGET.RANGE b % 8 ∧ t.rd Reg.BIAS.STAT.CODE b = 0 ∧ (t.biasOf b).ph = .live) ∧
    (x.ph = .connecting → Gives (.biasConnect b) s fun t =>
      t.rd Reg.BIAS.STAT.RANGE b = s.rd Reg.BIAS.TARGET.RANGE b % 8 ∧ t.rd Reg.BIAS.STAT.CODE b = 0 ∧
      (t.biasOf b).ph = .live ∧ t.out = s.out)

/-- R238, R239, R240: a compliance or open-load condition on a watched channel latches its flag, raises the course's event
where the OR of the flags rises, and applies the action: report, hold, or quench the channel's group (hold where it has
none). In a current range an open load takes the place of compliance. A written flag clears only where its condition has
ended, and HOLD with it.

R233, R244: without VBIAS every channel is open and has lost its state; when it returns every channel is in OFF and
VBIAS_LOST is set. Nothing outside the bias block changes. -/
def Obligations.ComplianceOpenLoadAndBiasSupply : Prop :=
  (
  (∀ (b : BiasNo) (vbias volt : Nat) (load : Int) (s : State), 0 < s.rd Reg.BIAS.STAT.RANGE b → s.rd Reg.BIAS.STAT.RANGE b < 5 →
    let range := s.rd Reg.BIAS.STAT.RANGE b
    let code := s.rd Reg.BIAS.STAT.CODE b
    (s.biasComp b vbias ⟨volt, load⟩ = true ↔
      if range < 3 then ((if range = 1 then (30000000 : Int) else 20000000) ≤ load ∨ load ≤ -5000000)
      else (16 ≤ code ∧ vbias < volt + (if range = 3 then 400000 else 600000))) ∧
    (s.biasOpen b vbias ⟨volt, load⟩ = true ↔ s.rd Reg.BIAS.CFG.OPEN_ACT b ≠ 0 ∧ 64 ≤ code ∧
      if range < 3 then load < 20000
      else (vbias < volt + 150000 ∧ 10 * load * 4096 < (if range = 3 then 20000000 else 80000000) * code))) ∧
  (∀ (m : BallHeld) (s : State), s.biasWatched m.b = true → s.flag Reg.BIAS.FLAG.COMP_NOW m.b = false → 10 ≤ m.held →
    s.biasComp m.b m.vbias m.ball = true → (s.biasCurrent m.b = false ∨ s.biasOpen m.b m.vbias m.ball = false) →
    let b := m.b
    Gives (.biasComplianceDetect m) s fun t =>
      let act := s.rd Reg.BIAS.CFG.COMP_ACT b
      let grp := s.flag Reg.BIAS.CFG.QG_EN b
      t.flag Reg.BIAS.FLAG.COMP b = true ∧ t.flag Reg.BIAS.FLAG.COMP_NOW b = true ∧
      (s.courseFlag Reg.BIAS.FLAG.COMP (b / 8) = false → t.flag Reg.EVT.LATCH.RAISED (64 + 12 * (b / 8) + 6) = true) ∧
      (s.courseFlag Reg.BIAS.FLAG.COMP (b / 8) = true → t.raises = s.raises ∧ t.held = s.held) ∧
      (act = 0 → t.rd Reg.BIAS.STAT.HOLD b = s.rd Reg.BIAS.STAT.HOLD b) ∧
      ((act = 1 ∨ (2 ≤ act ∧ grp = false)) → t.flag Reg.BIAS.STAT.HOLD b = true ∧ t.bias = s.bias) ∧
      (2 ≤ act → grp = true → s.rd Reg.BIAS.CFG.QGRP b < 8 → t.groupQuenched (s.rd Reg.BIAS.CFG.QGRP b) = true ∧
        t.rd Reg.BIAS.TARGET.CODE b = 0)) ∧
  (∀ (m : BallHeld) (s : State), s.biasWatched m.b = true → s.flag Reg.BIAS.FLAG.OPEN_NOW m.b = false →
    (if s.biasCurrent m.b then 10 else 100) ≤ m.held → s.biasOpen m.b m.vbias m.ball = true →
    let b := m.b
    Gives (.biasOpenDetect m) s fun t =>
      let act := s.rd Reg.BIAS.CFG.OPEN_ACT b
      let grp := s.flag Reg.BIAS.CFG.QG_EN b
      t.flag Reg.BIAS.FLAG.OPEN b = true ∧ t.flag Reg.BIAS.FLAG.OPEN_NOW b = true ∧
      (s.biasCurrent b = true → t.flag Reg.BIAS.FLAG.COMP_NOW b = false) ∧
      (s.courseFlag Reg.BIAS.FLAG.OPEN (b / 8) = false → t.flag Reg.EVT.LATCH.RAISED (64 + 12 * (b / 8) + 7) = true) ∧
      (act = 1 → t.rd Reg.BIAS.STAT.HOLD b = s.rd Reg.BIAS.STAT.HOLD b) ∧
      ((act = 2 ∨ (act = 3 ∧ grp = false)) → t.flag Reg.BIAS.STAT.HOLD b = true ∧ t.bias = s.bias) ∧
      (act = 3 → grp = true → s.rd Reg.BIAS.CFG.QGRP b < 8 → t.groupQuenched (s.rd Reg.BIAS.CFG.QGRP b) = true)) ∧
  (∀ (m : BallHeld) (s : State), m.held < 10 ∨ s.biasWatched m.b = false →
    exec (.biasComplianceDetect m) s = .next s ∧ exec (.biasOpenDetect m) s = .next s) ∧
  (∀ (b : BiasNo) (vbias : Nat) (m : Ball) (s : State), s.coreOn = true → s.vbias = true →
    (s.biasComp b vbias m = false → Gives (.biasFlagClear b 1 vbias m) s fun t => t.flag Reg.BIAS.FLAG.COMP b = false ∧
      t.rd Reg.BIAS.FLAG.OPEN b = s.rd Reg.BIAS.FLAG.OPEN b ∧
      (s.flag Reg.BIAS.FLAG.OPEN b = false → t.flag Reg.BIAS.STAT.HOLD b = false)) ∧
    (s.flag Reg.BIAS.FLAG.COMP_NOW b = true → s.flag Reg.BIAS.FLAG.COMP b = true → s.rd Reg.BIAS.CFG.COMP_ACT b = 1 →
      s.biasComp b vbias m = true → s.biasWatched b = true → Gives (.biasFlagClear b 1 vbias m) s fun t => t.flag Reg.BIAS.FLAG.COMP b = true ∧
        t.flag Reg.BIAS.STAT.HOLD b = s.flag Reg.BIAS.STAT.HOLD b))
  ) ∧ (
  ∀ s : State,
    let clean (t : State) := (∀ b : BiasNo, t.biasOf b = {} ∧ t.rd Reg.BIAS.STAT.RANGE b = 0 ∧ t.rd Reg.BIAS.STAT.CODE b = 0 ∧
      t.flag Reg.BIAS.STAT.ENABLED b = false ∧ t.flag Reg.BIAS.STAT.WRITTEN b = false) ∧
      t = { s with regs := t.regs, bias := t.bias } ∧
      ∀ k d, (k < 8 * 0x360000 ∨ 8 * 0x360500 ≤ k) → Tab.get d t.regs k = Tab.get d s.regs k
    (s.vbias = true → Gives .vbiasLoss s fun t => t.vbias = false ∧ clean t) ∧
    (s.vbias = false → Gives .vbiasPowerUp s fun t => t.vbias = true ∧ t.flag Reg.BIAS.STAT.VBIAS_LOST = true ∧
      t.flag Reg.BIAS.CTRL.LOCK = false ∧ clean t)
  )

/-! ## Temperature and the effort ladder (15_power_and_thermal) -/

/-- R426, R427, R429: a sample below the THROTTLE and SHUTDOWN thresholds of a working sensor. WARN rises when its
comparison has held in DWELL + 1 samples in a row and clears when the clearing one has; a sample that fails the
comparison starts the count afresh. THERM_WARN is raised for a course where the OR over its sensors rises. A sensor that
is implausible or jumps by more than 10 °C fails, and its conditions end.

R148, R436, R437: the SHUTDOWN condition that rises when its comparison has held in DWELL + 1 samples shuts a running
device down: everything but KEEP, with K0, and BIAS is off, and the line outputs are high-impedance and send nothing. -/
def Obligations.SensorsWarningsAndShutdown : Prop :=
  (
  (∀ (x : SensorNo) (v : Int) (s : State), s.flag Reg.THM.SENSOR.FAIL x = false → (x.val < 8 ∨ (16 ≤ x.val ∧ x.val < 20)) →
    ((s.sensorOf x).seen = false ∨ (v - signedOf (s.rd Reg.THM.SENSOR.READING x) 16).natAbs ≤ 100) →
    s.flag Reg.THM.SENSOR.THROTTLE x = false → s.flag Reg.THM.SENSOR.SHUTDOWN x = false →
    v ≤ 5 * s.rd Reg.THM.THRESH.THROTTLE → v ≤ 5 * s.rd Reg.THM.THRESH.SHUTDOWN →
    let n := (s.sensorOf x).warnCnt
    let need := s.rd Reg.THM.CTRL.DWELL + 1
    let w : Int := 5 * s.rd Reg.THM.THRESH.WARN
    Gives (.sensorSample x v false) s fun t =>
      t.rd Reg.THM.SENSOR.READING x = (v % 65536).toNat ∧
      (s.flag Reg.THM.SENSOR.WARN x = false →
        (v ≤ w → t.flag Reg.THM.SENSOR.WARN x = false ∧ (t.sensorOf x).warnCnt = 0) ∧
        (w < v → n + 1 < need → t.flag Reg.THM.SENSOR.WARN x = false ∧ (t.sensorOf x).warnCnt = n + 1) ∧
        (w < v → need ≤ n + 1 → t.flag Reg.THM.SENSOR.WARN x = true ∧ (t.sensorOf x).warnCnt = 0 ∧
          ∀ c : CourseNo, inScope x c = true → s.warnOf c = false →
            t.flag Reg.EVT.LATCH.RAISED (64 + 12 * c + 2) = true)) ∧
      (s.flag Reg.THM.SENSOR.WARN x = true → t.raises = s.raises ∧ t.held = s.held ∧
        (v ≤ w - 5 * s.rd Reg.THM.THRESH.WARN_HYS → t.flag Reg.THM.SENSOR.WARN x = decide (n + 1 < need)) ∧
        (w - 5 * s.rd Reg.THM.THRESH.WARN_HYS < v → t.flag Reg.THM.SENSOR.WARN x = true ∧ (t.sensorOf x).warnCnt = 0)) ∧
      t = { s with regs := t.regs, therm := t.therm, raises := t.raises, held := t.held }) ∧
  (∀ (x : SensorNo) (v : Int) (bad : Bool) (s : State), s.flag Reg.THM.SENSOR.FAIL x = false →
    (bad = true ∨ ((s.sensorOf x).seen = true ∧ 100 < (v - signedOf (s.rd Reg.THM.SENSOR.READING x) 16).natAbs)) →
    Gives (.sensorSample x v bad) s fun t => t.flag Reg.THM.SENSOR.FAIL x = true ∧
      bitOf (t.rd Reg.THM.STAT.SENSOR_FAIL) x = true ∧ t.flag Reg.THM.SENSOR.WARN x = false ∧
      t.flag Reg.THM.SENSOR.THROTTLE x = false ∧ t.flag Reg.THM.SENSOR.SHUTDOWN x = false ∧
      t.rd Reg.THM.SENSOR.READING x = s.rd Reg.THM.SENSOR.READING x ∧
      (20 ≤ x.val → t.flag Reg.EVT.LATCH.RAISED 8 = true) ∧
      (∀ c : CourseNo, x.val < 20 → inScope x c = true → t.flag Reg.EVT.LATCH.RAISED (64 + 12 * c + 2) = true)) ∧
  (∀ (x : SensorNo) (v : Int) (bad : Bool) (s : State), s.flag Reg.THM.SENSOR.FAIL x = true →
    exec (.sensorSample x v bad) s = .next s)
  ) ∧ (
  ∀ (x : SensorNo) (v : Int) (s : State), s.flag Reg.THM.SENSOR.FAIL x = false → s.phase = .active →
    (x.val < 8 ∨ 16 ≤ x.val) →
    ((s.sensorOf x).seen = false ∨ (v - signedOf (s.rd Reg.THM.SENSOR.READING x) 16).natAbs ≤ 100) →
    s.flag Reg.THM.SENSOR.SHUTDOWN x = false → s.flag Reg.THM.SENSOR.THROTTLE x = true →
    5 * (s.rd Reg.THM.THRESH.SHUTDOWN : Int) < v → s.rd Reg.THM.CTRL.DWELL ≤ (s.sensorOf x).shutCnt →
    Gives (.sensorSample x v false) s fun t => t.phase = .shutdown ∧
      (∀ e, e ≠ 80 → t.engOf e = {}) ∧ t.engOf 80 = s.engOf 80 ∧ t.tests = [] ∧ t.pwr.trans = none ∧ t.pwr.offNow = [] ∧
      (s.failed = [] → t.failed = []) ∧ t.coreOn = false ∧ t.pwr.hiZ = true ∧ ∀ n : LaneNo, t.pathRuns n = false
  )

/-- R428, R438: THRESH_WRITE by PF0 takes thresholds that satisfy R428, restarts every dwell count, drops any other write in
full with THR_REJECT, and does nothing under LOCK. K0 copies a latched trip record into MRAM, which keeps the last 8. -/
def Obligations.ThresholdsAndTripRecords : Prop :=
  (∀ (v : Word) (s : State), s.coreOn = true →
    let warn := bitsOf v.toNat 0 8
    let thr := bitsOf v.toNat 8 8
    let shut := bitsOf v.toNat 16 8
    let ok := 120 ≤ warn ∧ warn < thr ∧ thr < shut ∧ shut ≤ 240 ∧ 140 ≤ thr ∧ 200 ≤ shut
    (s.flag Reg.THM.CTRL.LOCK = true → exec (.threshWrite 0 v) s = .next (s.setShadow 0 none)) ∧
    (s.flag Reg.THM.CTRL.LOCK = false → ¬ ok → Gives (.threshWrite 0 v) s fun t =>
      t.flag Reg.THM.STAT.THR_REJECT = true ∧ OnlyRegs (s.setShadow 0 none) t [Reg.THM.STAT.THR_REJECT.key 0 0]) ∧
    (s.flag Reg.THM.CTRL.LOCK = false → ok → Gives (.threshWrite 0 v) s fun t =>
      t.rd Reg.THM.THRESH.WARN = warn ∧ t.rd Reg.THM.THRESH.THROTTLE = thr ∧ t.rd Reg.THM.THRESH.SHUTDOWN = shut ∧
      t.rd Reg.THM.THRESH.WARN_HYS = bitsOf v.toNat 24 4 ∧ t.rd Reg.THM.THRESH.THR_HYS = bitsOf v.toNat 28 4 ∧
      (∀ x : SensorNo, (t.sensorOf x).warnCnt = 0 ∧ (t.sensorOf x).thrCnt = 0 ∧ (t.sensorOf x).shutCnt = 0))) ∧
  (∀ (s : State) (r : TripRec), s.therm.latched = some r → s.therm.copyDue = true → s.nvmOpen = true →
    s.coreRuns 0 = true → Gives .tripRecordCopy s fun t => t.therm.mram = (r :: s.therm.mram).take 8 ∧
      t.therm.copyDue = false ∧ t = { s with therm := t.therm }) ∧
  (∀ s : State, s.nvmOpen = false → exec .tripRecordCopy s = .next s)

/-- R432, R433, R435: STEP_WAIT after the last step, with a THROTTLE condition still active, the lowest step not in force
is taken; beyond MAX_STEP the course is EXHAUSTED instead, and THERM_THROTTLE is raised in either case. A reversal
removes the highest step in force and clears EXHAUSTED, and is ignored with REV_REJECT while a THROTTLE condition in the
course's scope is active. -/
def Obligations.EffortLadder : Prop :=
  (∀ (c : CourseNo) (s : State) (x : Nat), (s.ladder c).running = true → s.throttling c = some x → s.coreOn = true →
    s.coreRuns 2 = true → s.inTransition 1 c = false → s.goingOff c = false → s.flag Reg.THM.LADDER.EXHAUSTED c = false →
    (s.ladder c).last < s.time →
    let st := s.nextStep c
    (s.maxStep < st → Gives (.stepWaitExpiry c) s fun t => t.flag Reg.THM.LADDER.EXHAUSTED c = true ∧
      t.rd Reg.THM.LADDER.STEPS c = s.rd Reg.THM.LADDER.STEPS c ∧ t.flag Reg.EVT.LATCH.RAISED (64 + 12 * c + 3) = true) ∧
    (st ≤ s.maxStep → (st = 1 ∨ st = 3) → Gives (.stepWaitExpiry c) s fun t =>
      t.rd Reg.THM.LADDER.STEPS c = putBits (s.rd Reg.THM.LADDER.STEPS c) (st - 1) 1 1 % 2 ^ Reg.THM.LADDER.STEPS.w ∧
      (t.ladder c).last = t.time ∧ t.flag Reg.EVT.LATCH.RAISED (64 + 12 * c + 3) = true)) ∧
  (∀ (c : CourseNo) (s : State), (s.ladder c).running = true → s.throttling c = none → Gives (.stepWaitExpiry c) s fun t =>
    (t.ladder c).running = false ∧ t = { s with therm := t.therm }) ∧
  (∀ (c : CourseNo) (s : State), s.coreOn = true →
    let v : Word := BitVec.ofNat 32 (2 ^ c.val)
    (s.throttling c ≠ none → Gives (.ladderReverse 0 v) s fun t => t.flag Reg.THM.STAT.REV_REJECT = true ∧
      OnlyRegs (s.setShadow 0 none) t [Reg.THM.STAT.REV_REJECT.key 0 0]) ∧
    (s.throttling c = none → bitOf (s.rd Reg.THM.LADDER.STEPS c) 4 = true → Gives (.ladderReverse 0 v) s fun t =>
      t.flag Reg.THM.LADDER.EXHAUSTED c = false ∧ (t.ladder c).shed = (s.ladder c).shed.drop 1 ∧
      ((s.ladder c).shed.length ≤ 1 → bitOf (t.rd Reg.THM.LADDER.STEPS c) 4 = false)) ∧
    (s.throttling c = none → s.rd Reg.THM.LADDER.STEPS c % 32 = 7 → Gives (.ladderReverse 0 v) s fun t =>
      t.flag Reg.THM.LADDER.EXHAUSTED c = false ∧ t.rd Reg.THM.LADDER.STEPS c % 32 = 3))

/-! ## Register accesses (00_scope, 15, 19) -/

/-- R3, R8, R9, R492, R493, R494, R495: in the configuration space of every function stand `GLB.ID` and `GLB.CAP`. A request outside one aligned 8-byte unit, or before DEVICE_READY, is answered Unsupported
Request. A reserved offset reads as zero; a read of an RC field returns it and clears it; a read of the lower half of
GLB.TIME captures the upper half of the same moment, which the function's next read returns.

R9, R298, R423, R492, R498: a write that does not cover whole dwords is dropped and counted. A read-only register keeps
its value, W1C bits clear where 1 is written, RWL fields keep their value under LOCK, and a ring's base is written only
while the ring is at rest. An access to a lane whose course is off changes nothing of it: a read returns ones, the access
is counted, the first one is logged, and OFF_DOMAIN is raised when VALID rises. -/
def Obligations.RegisterReadsAndWrites : Prop :=
  (
  (∀ (f : FnNo) (a n : Nat) (s : State), (s.coreOn = false ∨ n = 0 ∨ 8 < a % 8 + n) →
    exec (.regReadClear f a n) s = .next { s with out := s.out ++ [.unsupported f a] }) ∧
  (∀ (d : Nat) (s : State), s.coreOn = true → d % 4 = 0 → d < 0x3F00000 → slotsAt d = [] → (s.fn 0).shadow = none →
    Gives (.regReadClear 0 d 4) s fun t => t.out = s.out ++ [.readData 0 d 4 0] ∧ t = { s with out := t.out, fns := t.fns }) ∧
  (∀ s : State, s.coreOn = true → (s.fn 0).shadow = none → Gives (.regReadClear 0 0x108 4) s fun t =>
    t.out = s.out ++ [.readData 0 0x108 4 (s.rd Reg.GLB.ACC_ERR.COUNT % 65536)] ∧ t.rd Reg.GLB.ACC_ERR.COUNT = 0 ∧
    OnlyRegs { s with out := t.out, fns := t.fns } t [Reg.GLB.ACC_ERR.COUNT.key 0 0]) ∧
  (∀ s : State, s.coreOn = true → (s.fn 0).shadow = none → Gives (.regLoRead 0 0x208) s fun t =>
    t.out = s.out ++ [.readData 0 0x208 4 (s.time % 2 ^ 32)] ∧
    (t.fn 0).shadow = some (0x20C, s.time / 2 ^ 32 % 2 ^ 32) ∧ t.regs = s.regs) ∧
  (∀ (v : Nat) (s : State), s.coreOn = true → (s.fn 0).shadow = some (0x20C, v) → v < 2 ^ 32 →
    Gives (.regLoRead 0 0x20C) s fun t => t.out = s.out ++ [.readData 0 0x20C 4 v] ∧ (t.fn 0).shadow = none ∧ t.regs = s.regs) ∧
  (∀ (f : FnNo) (s : State), s.vsecRead f 0x08 = some (s.readDword 0) ∧ s.vsecRead f 0x0C = some (s.readDword 4))
  ) ∧ (
  (∀ (a n v : Nat) (s : State), s.coreOn = true → a < 0x4000000 → 1 ≤ n → a % 8 + n ≤ 8 → (a % 4 ≠ 0 ∨ n % 4 ≠ 0) →
    Gives (.regWrite 0 a n v) s fun t =>
      t.rd Reg.GLB.ACC_ERR.COUNT = min (s.rd Reg.GLB.ACC_ERR.COUNT + 1) 65535 ∧
      OnlyRegs { s with fns := t.fns } t [Reg.GLB.ACC_ERR.COUNT.key 0 0]) ∧
  (∀ (v : Nat) (s : State), s.coreOn = true → Gives (.regWrite 0 0 4 v) s fun t => t = { s with fns := t.fns }) ∧
  (∀ s : State, s.coreOn = true → Gives (.regWrite 0 0x100 4 0x80000000) s fun t => t.rd Reg.GLB.OFFDOM.VALID = 0 ∧
    OnlyRegs { s with fns := t.fns } t [Reg.GLB.OFFDOM.VALID.key 0 0]) ∧
  (∀ (b : BiasNo) (v : Nat) (s : State), s.coreOn = true → s.vbias = true → s.flag Reg.BIAS.CTRL.LOCK = true →
    Gives (.regWrite 0 (0x360100 + 16 * b) 4 v) s fun t =>
      t.rd Reg.BIAS.CFG.CODE_MAX b = s.rd Reg.BIAS.CFG.CODE_MAX b ∧
      t.rd Reg.BIAS.CFG.RANGE_MASK b = s.rd Reg.BIAS.CFG.RANGE_MASK b ∧ t.bias = s.bias) ∧
  (∀ (r : RingNo) (v : Nat) (s : State), s.coreOn = true → s.ringState r = 1 →
    Gives (.regWrite 0 (0x3C0000 + 64 * r) 8 v) s fun t => t = { s with fns := t.fns }) ∧
  (∀ (n : LaneNo) (v : Nat) (s : State), s.coreOn = true → s.courseD (courseOf n) = false →
    Gives (.regWrite 0 (0x200000 + 0x4000 * n) 4 v) s fun t =>
      t.rd Reg.GLB.OFFDOM_CNT.COUNT = min (s.rd Reg.GLB.OFFDOM_CNT.COUNT + 1) 65535 ∧ t.flag Reg.GLB.OFFDOM.VALID = true ∧
      (s.flag Reg.GLB.OFFDOM.VALID = false → t.rd Reg.GLB.OFFDOM.OFFSET = 0x80000 + 0x1000 * n ∧
        t.flag Reg.GLB.OFFDOM.WRITE = true ∧ t.flag Reg.EVT.LATCH.RAISED 15 = true) ∧
      (s.flag Reg.GLB.OFFDOM.VALID = true → OnlyRegs { s with fns := t.fns } t [Reg.GLB.OFFDOM_CNT.COUNT.key 0 0]) ∧
      t.lane n = s.lane n) ∧
  (∀ (n : LaneNo) (s : State), s.coreOn = true → s.courseD (courseOf n) = false → (s.fn 0).shadow = none →
    Gives (.offDomainAccess 0 (0x200000 + 0x4000 * n) false) s fun t =>
      t.out = s.out ++ [.readData 0 (0x200000 + 0x4000 * n) 4 0xFFFFFFFF] ∧
      t.rd Reg.GLB.OFFDOM_CNT.COUNT = min (s.rd Reg.GLB.OFFDOM_CNT.COUNT + 1) 65535 ∧ t.lane n = s.lane n) ∧
  (∀ (n : LaneNo) (s : State), s.coreOn = true → s.courseD (courseOf n) = true → s.laneInTest n = false →
    exec (.offDomainAccess 0 (0x200000 + 0x4000 * n) false) s = .next s)
  )

/-! ## Line lanes: configuration, transmit banks and register images (03, 05, 12) -/

/-- R2, R60, R143, R324, R335: LANE_CONFIG refuses a mode the grade disables, a lane in MAINT or FAULT, options the
mode does not permit and operands with MODE 0; otherwise the mode is in force and the lane enters ACQUIRE, BURST in MB,
or IDLE with MODE 0, and outside the Isyon modes the Isyon status reads 0 (R38). R25, R336: LANE_STATE refuses a TO the
lane's state does not permit, has no effect where the lane is in the target state already, and otherwise takes it to IDLE
or MAINT; where the lane would enter ACQUIRE or BURST, or leaves IDLE for MAINT (model's choice, log entry 143), it needs its
quad. -/
def Obligations.LaneConfigAndLaneState : Prop :=
  (∀ (s u : State) (r : RingNo) (e : Entry) (d : Dma) (f : Flight), Taken s .laneConfig r e d u f →
    let n := f.e.target.toNat
    let m := opByte f.e 16
    let bit (i : Nat) : Bool := opBits f.e 17 i 1 == 1
    let bad := 6 < m ∨ (0 < m ∧ bitOf (u.rd Reg.GLB.CAP.MODES) (m - 1) = false) ∨ u.lane n = 5 ∨ u.lane n = 6 ∨
      (m = 0 ∧ (opByte f.e 17 ≠ 0 ∨ opByte f.e 18 ≠ 0)) ∨ (m ≠ 0 ∧ bit 0 = true ∧ m ≠ 3 ∧ m ≠ 4) ∨
      (m ≠ 0 ∧ driveOk m (opBits f.e 17 4 2) = false) ∨ (bit 2 = true ∧ m = 6) ∨ (bit 3 = true ∧ m ≠ 0 ∧ m ≠ 6) ∨
      (bit 1 = true ∧ (m = 1 ∨ m = 6))
    (bad → Finishes (.laneConfig r e d) s r f { st := .badField } fun t => t = u) ∧
    (¬ bad → ∃ res : Res, res.st = .ok ∧ res.r0 % 2 = (if m = 0 then 0 else 1) ∧
      Finishes (.laneConfig r e d) s r f res fun t => t.mode n = m ∧
        t.lane n = (if m = 0 then 1 else if m = 6 then 4 else 2) ∧
        t.flag Reg.LN.FMT_CFG.PRECODE n = bit 0 ∧ t.flag Reg.LN.FMT_CFG.OCM_EN n = bit 2 ∧
        (m < 3 ∨ m = 6 → ∀ g : Fld, g ∈ [Reg.LN.FMT_STAT.SF_PHASE, Reg.LN.FMT_STAT.FAR_RDI, Reg.LN.FMT_STAT.FAR_DEGRADE,
          Reg.LN.FMT_STAT.FAR_SRC_FAULT, Reg.LN.FMT_STAT.FAR_LANE, Reg.LN.FMT_STAT.FAR_CONST,
          Reg.LN.CONST_ADV.MARGIN_P4, Reg.LN.CONST_ADV.MARGIN_P6] → t.rd g n = 0))) ∧
  (∀ (s u : State) (r : RingNo) (e : Entry) (d : Dma) (f : Flight), Taken s .laneState r e d u f →
    let n := f.e.target.toNat
    let to_ := opByte f.e 16
    let st := u.lane n
    let ok := (to_ = 1 ∧ 1 ≤ st ∧ st ≤ 6) ∨ (to_ = 5 ∧ 1 ≤ st ∧ st ≤ 5) ∨ (to_ = 3 ∧ 2 ≤ st ∧ st ≤ 5)
    (¬ ok → Finishes (.laneState r e d) s r f { st := .badField } fun t => t = u) ∧
    (ok → (st = to_ ∨ (to_ = 3 ∧ st ≠ 5)) → Finishes (.laneState r e d) s r f {} fun t =>
      t = u.setPhase r f.fid .running) ∧
    (ok → to_ ≠ 3 → st ≠ to_ → (to_ = 5 → st = 1 → u.quadOn (quadOfLane n) = true) →
      Finishes (.laneState r e d) s r f {} fun t => t.lane n = to_) ∧
    (ok → (to_ = 5 ∧ st = 1) ∨ (to_ = 3 ∧ st = 5 ∧ u.mode n ≠ 0) → u.quadOn (quadOfLane n) = false →
      Finishes (.laneState r e d) s r f { st := .domainOff } fun t => t = u) ∧
    (ok → to_ = 3 → st = 5 → u.quadOn (quadOfLane n) = true → Finishes (.laneState r e d) s r f {} fun t =>
      t.lane n = (if u.mode n = 6 then 4 else if u.mode n = 0 then 1 else 2)))

/-- R54: a LANE_CONFIG that requests precoding in a mode where the table of R53 fixes it off (M100, M200, MB) or has none
(M400-P6) completes with BAD_FIELD, once the checks of R328 before that one pass, and has no side effect: beside its
completion the state is the one its fetch left. It is so in a dry run and where the pair is to be told first, too. -/
def Obligations.PrecodingIsRefusedWhereTheModeFixesIt : Prop :=
  ∀ (s u : State) (r : RingNo) (e : Entry) (d : Dma) (f : Flight), s.takeUp r (opCode .laneConfig) e d = some (u, f) →
    startable (u.ring r).flights f = true → u.judge f = .applies ∨ u.judge f = .mirrors →
    opBits f.e 17 0 1 = 1 → opByte f.e 16 = 1 ∨ opByte f.e 16 = 2 ∨ opByte f.e 16 = 5 ∨ opByte f.e 16 = 6 →
    Finishes (.laneConfig r e d) s r f { st := .badField } fun t => t = u

/-- R137, R138, R141, R142, R147, R337: a bank is pending once it passes the three checks in their order, and a failed one
is named and changes no bank; a mask is refused where the bank in force does not meet it, and discards a pending one that
does not; the staging bank takes the tap written. LANE_FIR judges its taps before it writes anything. RETIME ends at a
block boundary, and the output sends where no other cause holds it in idle. -/
def Obligations.TransmitBanksAndOutput : Prop :=
  (∀ (n : LaneNo) (s : State), s.coreOn = true → s.courseD (courseOf n) = true → s.laneInTest n = false →
    let x := s.txOf n
    let c := eight x.stage
    let sum := (c.map fun v => v.natAbs).foldl (· + ·) 0
    let dc := c.foldl (· + ·) 0
    let mask := s.rd Reg.LN.TX_CTRL.MASK n
    let refused (k : Nat) := Gives (.firCommit n) s fun t => t.flag Reg.LN.TX_STAT.FIR_REJECT n = true ∧
      t.rd Reg.LN.TX_STAT.REJECT_CAUSE n = k ∧
      OnlyRegs (s.setShadow 0 none) t [Reg.LN.TX_STAT.FIR_REJECT.key n 0, Reg.LN.TX_STAT.REJECT_CAUSE.key n 0]
    (sum ≤ 256 → 0 < dc → meetsMask c mask = true → Gives (.firCommit n) s fun t =>
      t.txOf n = { x with pend := some (c, none) } ∧ t = { s.setShadow 0 none with tx := t.tx } ∧ ∀ k, k ≠ n.val → t.txOf k = s.txOf k) ∧
    (256 < sum → refused 1) ∧ (sum ≤ 256 → dc ≤ 0 → refused 2) ∧
    (sum ≤ 256 → 0 < dc → meetsMask c mask = false → refused 3) ∧
    (∀ v : Fin 4, meetsMask (eight x.bank) v = false → Gives (.maskWrite n v) s fun t =>
      t.rd Reg.LN.TX_STAT.REJECT_CAUSE n = 3 ∧ t.rd Reg.LN.TX_CTRL.MASK n = mask ∧ t.tx = s.tx) ∧
    (∀ v : Fin 4, meetsMask (eight x.bank) v = true → Gives (.maskWrite n v) s fun t =>
      t.rd Reg.LN.TX_CTRL.MASK n = v ∧ (t.txOf n).bank = x.bank ∧
      (∀ c m, x.pend = some (c, m) → meetsMask c v = false → (t.txOf n).pend = none ∧
        t.rd Reg.LN.TX_STAT.REJECT_CAUSE n = 3)) ∧
    (∀ v : Word, bitOf v.toNat 30 = true → Gives (.txFirStageWrite n v) s fun t =>
      (∀ j < 8, (t.txOf n).stage.getD j 0 =
        if j = v.toNat % 8 then (v.extractLsb' 8 10).toInt else (eight x.stage).getD j 0) ∧
      (t.txOf n).bank = x.bank ∧ (t.txOf n).pend = x.pend) ∧
    (x.retime ≠ none → s.courseOn (courseOf n) = true → Gives (.txOutputEnable n) s fun t =>
      (t.txOf n).retime = none ∧ (t.txOf n).pend = none ∧
      (∀ c m, x.pend = some (c, m) → (t.txOf n).bank = c) ∧
      (s.idleCause n = 16 → s.rd Reg.LN.PRBS_CTRL.LOOP n ≠ 1 → t.flag Reg.LN.TX_STAT.TX_ACTIVE n = true))) ∧
  (∀ (s u : State) (r : RingNo) (e : Entry) (d : Dma) (f : Flight) (c : List Int), Taken s .laneFir r e d u f →
    c = ((List.range 8).map fun j => signedOf (op16 f.e (16 + 2 * j)) 16) →
    let n := f.e.target.toNat
    let set := opBits f.e 32 0 1
    let mask := if set = 1 then opByte f.e 33 else u.rd Reg.LN.TX_CTRL.MASK n
    ((∃ x ∈ c, x < -512 ∨ 511 < x) ∨ 3 < opByte f.e 33 →
      Finishes (.laneFir r e d) s r f { st := .badField } fun t => t = u) ∧
    ((∀ x ∈ c, -512 ≤ x ∧ x ≤ 511) → opByte f.e 33 ≤ 3 →
      (firCause c mask ≠ 0 → Finishes (.laneFir r e d) s r f { st := .badField, r0 := firCause c mask } fun t => t = u) ∧
      (firCause c mask = 0 → Finishes (.laneFir r e d) s r f {} fun t => (t.txOf n).stage = c ∧
        (t.txOf n).pend = some (c, if set = 1 then some (opByte f.e 33) else none) ∧
        (t.txOf n).bank = (u.txOf n).bank ∧ t.regs = u.regs)))

/-- R338, R339, R344, R345: one CFG_WRITE triple on RX_CTRL of a lane changes the masked bits alone; a triple that masks a
bit it may not write is refused. SNAPSHOT writes the register image of one moment to the host, and SURVEY_READ the
records from a sequence number on, oldest first; both refuse sizes and addresses outside their ranges. -/
def Obligations.RegisterImagesAndSurveys : Prop :=
  (∀ (s u : State) (r : RingNo) (e : Entry) (d : Dma) (f : Flight) (mask value : Nat), Taken s .cfgWrite r e d u f →
    f.e.cls = 2 → u.courseD (courseOf f.e.target.toNat) = true → usedTriples f.e = [(0, 0, mask, value)] →
    let n := f.e.target.toNat
    (mask < 2 ^ 11 → Finishes (.cfgWrite r e d) s r f {} fun t =>
      (∀ (g : Fld) (i : Nat), (g, i) ∈ [(Reg.LN.RX_CTRL.AGC_FREEZE, 0), (Reg.LN.RX_CTRL.CTLE_FREEZE, 1),
          (Reg.LN.RX_CTRL.CDR_FREEZE, 2), (Reg.LN.RX_CTRL.FFE_FREEZE, 3), (Reg.LN.RX_CTRL.TGT_FREEZE, 4),
          (Reg.LN.RX_CTRL.LEVEL_FREEZE, 5), (Reg.LN.RX_CTRL.SOFT_FREEZE, 6), (Reg.LN.RX_CTRL.CTLE_TRACK, 7),
          (Reg.LN.RX_CTRL.SEED_USE, 10)] →
        t.flag g n = if bitOf mask i then bitOf value i else u.flag g n) ∧
      t.rxOf n = { u.rxOf n with partialNow := (t.rxOf n).partialNow } ∧ (∀ k, k ≠ n → t.rxOf k = u.rxOf k) ∧
      t.tx = u.tx ∧ t.lane n = u.lane n) ∧
    (2 ^ 11 ≤ mask → mask < 2 ^ 32 → Finishes (.cfgWrite r e d) s r f { st := .badField } fun t => t = u)) ∧
  (∀ (s u : State) (r : RingNo) (e : Entry) (d : Dma) (f : Flight), Taken s .snapshot r e d u f → f.e.cls = 2 →
    let n := f.e.target.toNat
    let ofs := op32 f.e 16
    let len := op32 f.e 20
    let a := op64 f.e 24
    ((ofs % 4 ≠ 0 ∨ len < 4 ∨ 4096 < len ∨ a % 4 ≠ 0 ∨ len % 4 ≠ 0 ∨ 2 ^ 64 < a + len ∨ 0x4000 < ofs + len) →
      Finishes (.snapshot r e d) s r f { st := .badField } fun t => t = u) ∧
    (ofs % 4 = 0 → 4 ≤ len → len ≤ 4096 → a % 4 = 0 → len % 4 = 0 → a + len ≤ 2 ^ 64 → ofs + len ≤ 0x4000 →
      u.courseD (courseOf n) = true → u.laneInTest n = false → f.d.failAt = none →
      Finishes (.snapshot r e d) s r f {} fun t =>
        t.out = u.out ++ [.hostWrite a ((List.range (len / 4)).flatMap fun i =>
          leBytes 4 (u.readDword (0x200000 + 0x4000 * n + ofs + 4 * i)))] ∧ t.regs = u.regs)) ∧
  (∀ (s u : State) (r : RingNo) (e : Entry) (d : Dma) (ecc : List EccHit) (f : Flight), Taken s .surveyRead r e d u f →
    let n := f.e.target.toNat
    let cnt := op16 f.e 20
    let a := op64 f.e 24
    ((cnt = 0 ∨ 1024 < cnt ∨ a % 4 ≠ 0 ∨ 2 ^ 64 < a + 48 * cnt) →
      Finishes (.surveyRead r e d ecc) s r f { st := .badField } fun t => t = u) ∧
    (1 ≤ cnt → cnt ≤ 1024 → a % 4 = 0 → a + 48 * cnt ≤ 2 ^ 64 → f.d.failAt = none →
      ∀ (v : SurveyRec) (vs : List SurveyRec), (u.rxOf n).hist = v :: vs → v.seq = op32 f.e 16 →
        (u.rxOf n).seq = v.seq + 1 → v.seq + 1 < 2 ^ 32 → ecc = [] → u.rd Reg.HOD.STAT.CHK_FAIL = 0 →
        let w := surveyWord n v.seq
        (∀ k, 1 ≤ k → k < 6 → Tab.get none u.hod.words (w + k) = none) →
        (Tab.get none u.hod.words w = none →
          Finishes (.surveyRead r e d ecc) s r f { r0 := 1, r1 := v.seq, stale := u.laneInTest n } fun t =>
            t.out = u.out ++ [.hostWrite a (surveyBytes v)] ∧ t.regs = u.regs) ∧
        (∀ y, Tab.get none u.hod.words w = some ⟨y, true⟩ → u.flag Reg.HOD.ECC_LOG.VALID = true →
          Finishes (.surveyRead r e d ecc) s r f { st := .eccUncorr, r0 := 1, r1 := v.seq, stale := u.laneInTest n } fun t =>
            t.out = u.out ++ [.hostWrite a (leBytes 8 y ++ (surveyBytes v).drop 8)] ∧
            t.rd Reg.HOD.ECC_LOG.SOURCE = 1 ∧ t.rd Reg.HOD.ECC_LOG.WORD = w)))

/-! ## Burst acquisition (06_burst_acquisition) -/

/-- R164, R165, R166, R167, R170, R340: SCHED_WRITE puts a valid image into the inactive bank, which takes effect at once
in OFF and otherwise waits. An EPOCH_SYNC edge in WAIT_SYNC, or 1,024 ticks after a slip, defines the boundary `EPOCH_OFS`
ticks later; in RUN an edge within 128 ticks moves the epoch in progress by its error, and a larger one slips the epoch.
At a boundary the grid goes on by the epoch's length, the count advances, EPOCH_OUT pulses, and a bank committed at least
1,024 ticks before is in force. -/
def Obligations.EpochGridAndSchedule : Prop :=
  (∀ (s u : State) (r : RingNo) (e : Entry) (d : Dma) (f : Flight), Taken s .schedWrite r e d u f →
    let c := f.e.target.toNat
    let len := op32 f.e 24
    let i := if u.flag Reg.CRS.EPOCH_STAT.BANK c then 0 else 1
    addrOk (op64 f.e 16) len = true → f.d.failAt = none → u.rd Reg.CRS.EPOCH_STAT.BANK c < 2 →
    (∀ b, u.parseBank c (f.d.data.take len) len = some b → u.bankOk c b = true →
      Finishes (.schedWrite r e d) s r f {} fun t =>
        (if i = 1 then (t.epochOf c).bank1 = some b ∧ (t.epochOf c).bank0 = (u.epochOf c).bank0
          else (t.epochOf c).bank0 = some b ∧ (t.epochOf c).bank1 = (u.epochOf c).bank1) ∧
        (u.epochState c ≠ 0 → t.rd Reg.CRS.EPOCH_STAT.COMMIT_PENDING c = 1 ∧ t.bank c = u.bank c ∧
          (t.epochOf c).pendingBank = some (i, u.tick + 1024)) ∧
        (u.epochState c = 0 → t.bank c = some b ∧ t.rd Reg.CRS.EPOCH_STAT.COMMIT_PENDING c = 0 ∧
          (t.epochOf c).pendingBank = none)) ∧
    ((∀ b, u.parseBank c (f.d.data.take len) len = some b → u.bankOk c b = false) →
      Finishes (.schedWrite r e d) s r f { st := .badField } fun t => t = u)) ∧
  (∀ (c : CourseNo) (t : Nat) (s : State) (b : Bank), s.courseOn c = true → s.bank c = some b → b.syncEn = true →
    let x := s.epochOf c
    (s.epochState c = 1 ∨ (s.epochState c = 3 ∧ x.slipAt + 1024 ≤ t) → Gives (.epochSyncEdge t) s fun u =>
      u.epochState c = 2 ∧ (u.epochOf c).boundary = t + b.ofs ∧ (u.epochOf c).index = 0) ∧
    (s.epochState c = 3 → t < x.slipAt + 1024 → Gives (.epochSyncEdge t) s fun u =>
      u.epochOf c = x ∧ u.epochState c = 3) ∧
    (∀ err : Int, s.epochState c = 2 → b.div = 1 → x.fresh = false → x.owed = 0 → x.owedNext = 0 →
      x.evaluated ≠ some x.index → (t : Int) + b.ofs = x.boundary + err → 2 * err.natAbs < b.len →
      (err.natAbs ≤ 128 → t + 256 < x.boundary + b.len → Gives (.epochSyncEdge t) s fun u =>
        u.epochState c = 2 ∧ (u.epochOf c).owed = err ∧ (u.epochOf c).boundary = x.boundary ∧
        u.rd Reg.CRS.EPOCH_STAT.SYNC_AGE c = 0 ∧ u.rd Reg.CRS.EPOCH_STAT.LAST_ERR c = patternOf err 16) ∧
      (128 < err.natAbs → Gives (.epochSyncEdge t) s fun u =>
        u.epochState c = 3 ∧ u.rd Reg.CRS.EPOCH_CNT.COUNT c = 0 ∧ (u.epochOf c).slipAt = t ∧
        u.flag Reg.EVT.LATCH.RAISED (courseSrc c 10) = true))) ∧
  (∀ (c : CourseNo) (s : State) (b : Bank), s.bank c = some b → s.epochState c = 2 → s.courseOn c = true →
    let x := s.epochOf c
    let nb : Int := x.boundary + b.len + x.owed
    x.fresh = false → 0 ≤ nb →
    (x.pendingBank = none → Gives (.epochBoundary c) s fun t =>
      ((t.epochOf c).boundary : Int) = nb ∧ (t.epochOf c).index = x.index + 1 ∧ (t.epochOf c).owed = x.owedNext ∧
      t.rd Reg.CRS.EPOCH_CNT.COUNT c = (s.rd Reg.CRS.EPOCH_CNT.COUNT c + 1) % 2 ^ 32 ∧
      t.rd Reg.CRS.EPOCH_STAT.SYNC_AGE c = min (s.rd Reg.CRS.EPOCH_STAT.SYNC_AGE c + 1) 255 ∧
      t.bank c = s.bank c ∧ t.epochState c = 2 ∧
      t.out = s.out ++ (if s.flag Reg.GLB.EPOCH_OUT_CTRL.EN = true ∧ s.rd Reg.GLB.EPOCH_OUT_CTRL.SRC = c.val then
        [.epochPulse c (max 1 (s.rd Reg.GLB.EPOCH_OUT_CTRL.WIDTH))] else [])) ∧
    (∀ (i after : Nat) (b' : Bank), x.pendingBank = some (i, after) → i < 2 → (after : Int) ≤ nb → b'.len < 2 ^ 27 →
      (if i = 1 then x.bank1 = some b' else x.bank0 = some b') → Gives (.epochBoundary c) s fun t =>
        t.bank c = some b' ∧ t.rd Reg.CRS.EPOCH_STAT.COMMIT_PENDING c = 0 ∧ t.rd Reg.CRS.EPOCH_LEN.TICKS c = b'.len) ∧
    (∀ i after : Nat, x.pendingBank = some (i, after) → nb < after → Gives (.epochBoundary c) s fun t =>
      t.bank c = s.bank c ∧ (t.epochOf c).pendingBank = some (i, after)))

/-- R171, R172, R173, R174, R177, R178, R179, R181, R182, R187, R188: the window of a slot arms the receiver, or is kept while
a burst is acquired or received; a level above ONSET_THR starts the AGC from the source's stored gain and frequency or from
AGC_START and 0; a peak that declares detection freezes the AGC and loads the source's or the common settings; the matched
start delimiter freezes the estimates, the frequency moving by the slope of the peaks, and sends the header. A false start
is counted and re-arms while the slot is open, a restart on a stronger peak is counted and raises nothing, and a slot that
closes with no acquisition in progress is MISSED; while the framer is replaced a slot only raises an exception.

R160, R161, R162, R176, R180, R181, R182, R183, R184, R185, R187: a burst in its payload ends with one status: OK or
NO_END at its end delimiter, TRUNCATED after 32 levels below ONSET_THR, OVERLAP under HOLD, PREEMPTED under CAPTURE, or OK
where its last codeword is already in. A transmit slot is sent when its TX_HEADER was valid and in time, and otherwise is
quiet; a late or bad header, a missed slot and an underrun are each counted as an exception. A transmit burst begins with
its picots on the outer levels and its start delimiter, their first half inverted. -/
def Obligations.BurstsAcquireEndAndAreSent : Prop :=
  (
  (∀ (n : LaneNo) (i : Fin 64) (s : State) (b : Slot), s.slotsDue n = true →
    ((s.slotsOf n false).find? fun t => t.slot == i.val) = some b →
    (s.framerUp n = true → (s.rxPhase n < 2 ∨ 4 < s.rxPhase n) → (s.bstOf n).onset = false → Gives (.slotArm n i) s fun t =>
      t.rxPhase n = 1 ∧ t.rd Reg.LN.BST_STAT.SLOT n = i ∧ (t.bstOf n).slot = some b ∧ (t.bstOf n).reacq = false ∧
      OnlyRegs { s with bst := t.bst } t [Reg.LN.BST_STAT.RX_PHASE.key n 0, Reg.LN.BST_STAT.SLOT.key n 0]) ∧
    (s.framerUp n = true → (s.rxPhase n < 2 ∨ 4 < s.rxPhase n) → (s.bstOf n).onset = true → Gives (.slotArm n i) s fun t =>
      t.rxPhase n = 2 ∧ (t.bstOf n).slot = some b ∧ (t.bstOf n).onset = false) ∧
    (s.framerUp n = true → 2 ≤ s.rxPhase n → s.rxPhase n ≤ 4 → Gives (.slotArm n i) s fun t =>
      t = { s with bst := t.bst } ∧ t.bstOf n = { s.bstOf n with next := some b }) ∧
    (s.framerUp n = false → Gives (.slotArm n i) s fun t => Excepts s t n ∧ (t.bstOf n).slot = (s.bstOf n).slot ∧
      t.rxPhase n = s.rxPhase n)) ∧
  (∀ (n : LaneNo) (s : State) (b : Slot), (s.bstOf n).slot = some b → s.lane n = 4 → s.framerUp n = true →
    (s.bstOf n).next = none → (s.calOf n).swapDue = false →
    let x := s.bstOf n
    let src := s.srcRec n b.src
    (∀ mv, s.rxPhase n = 1 ∨ s.rxPhase n = 5 → mv ≤ s.rd Reg.LN.BST_CTRL.ONSET_THR n →
      exec (.burstOnset n mv) s = .next s) ∧
    (∀ mv, s.rxPhase n = 1 ∨ s.rxPhase n = 5 → s.rd Reg.LN.BST_CTRL.ONSET_THR n < mv →
      let nar := src.narrow = true ∧ s.flag Reg.LN.BST_CTRL.FORCE_WIDE n = false ∧ x.reacq = false
      Gives (.burstOnset n mv) s fun t => t.rxPhase n = 2 ∧ (t.flag Reg.LN.BST_STAT.NARROW n = true ↔ nar) ∧
        (nar → t.rd Reg.LN.AGC.GAIN n = min 240 src.vga ∧ t.rd Reg.LN.CDR.FREQ n = src.freq % 2 ^ 16) ∧
        (¬ nar → t.rd Reg.LN.AGC.GAIN n = min 240 (s.rd Reg.LN.BST_DET.AGC_START n) ∧ t.rd Reg.LN.CDR.FREQ n = 0) ∧
        OnlyRegs { s with bst := t.bst } t [Reg.LN.BST_STAT.RX_PHASE.key n 0, Reg.LN.BST_STAT.NARROW.key n 0,
          Reg.LN.AGC.GAIN.key n 0, Reg.LN.CDR.FREQ.key n 0]) ∧
    (∀ m : PeakIn, s.rxPhase n = 2 →
      if detects m.r m.since (x.arm.getD 256) (s.rd Reg.LN.BST_DET.DET_THR n) (confOf (s.rd Reg.LN.BST_DET.DET_CONF n))
      then Gives (.burstDetect n m) s fun t => t.rxPhase n = 3 ∧
        (t.bstOf n).gain = min 240 (s.rd Reg.LN.AGC.GAIN n) ∧ t.rd Reg.LN.AGC.GAIN n = s.rd Reg.LN.AGC.GAIN n ∧
        (t.rxOf n).levels = (if x.narrow then src.levels else nominalLevels (s.rd Reg.LN.FMT_CFG.CONST n)) ∧
        NoRaise s t ∧ t.out = s.out
      else exec (.burstDetect n m) s = .next s) ∧
    (∀ (peaks sd : List Int) (m : SdIn), s.rxPhase n = 3 → sdMatches sd = true → Gives (.sdMatch n peaks sd m) s fun t =>
      let ep := s.rd Reg.CRS.EPOCH_CNT.COUNT (courseOf n) % 65536
      let freq := max (-3000) (min 3000 (signedOf (s.rd Reg.LN.CDR.FREQ n) 16 + (peakFit peaks).1))
      let q := qualOf m.n1 m.n0 m.s1 m.s0 m.sq s.free
      t.rxPhase n = 4 ∧ t.rd Reg.LN.BST_LAST.QUAL n = q ∧ t.rd Reg.LN.CDR.FREQ n = patternOf freq 16 ∧
      t.rd Reg.LN.BST_LAST.ARRIVAL n = patternOf m.arrival 16 ∧ (t.bstOf n).cwLine = 0 ∧ (t.bstOf n).cwFill = 0 ∧
      t.out = s.out ++ [.ctlBlock (2 * n) [framedBlock 0x1E (blockField 72 6 b.slot + blockField 80 16 b.src +
        blockField 96 16 x.seq + blockField 128 16 ep + blockField 78 1 (bitVal x.reacq) +
        blockField 79 1 (bitVal x.narrow) + blockField 112 16 b.len + blockField 144 8 q +
        blockField 152 16 (patternOf freq 16) + blockField 168 16 (patternOf m.arrival 16) + blockField 184 8 x.gain)]]) ∧
    (∀ (peaks sd : List Int) (m : SdIn), sdMatches sd = false → exec (.sdMatch n peaks sd m) s = .next s) ∧
    (∀ at_ : Int, s.rxPhase n = 3 → at_ ≤ s.closing n b → Gives (.falseStart n at_) s fun t =>
      Counts s t Reg.LN.BST_EXC_A.FALSE_START n ∧ Excepts s t n ∧
      t.rxPhase n = 5 ∧ (t.bstOf n).reacq = true ∧ (t.bstOf n).slot = some b ∧ t.out = s.out) ∧
    (∀ at_ : Int, s.rxPhase n = 3 → s.closing n b < at_ → Gives (.falseStart n at_) s fun t =>
      Counts s t Reg.LN.BST_EXC_A.FALSE_START n ∧ Excepts s t n ∧
      Counts s t Reg.LN.BST_EXC_B.MISSED n ∧ t.rxPhase n = 0 ∧ (t.bstOf n).slot = none) ∧
    (∀ prim sec : List Int, s.rxPhase n = 3 →
      let old := correlate (signs picotBits) prim
      let new := correlate (signs picotBits) sec
      if atLeast new (s.rd Reg.LN.BST_DET.DET_THR n) 64 ∧
          stronger (max 1 (s.rd Reg.LN.BST_DET.RESTART_DB n)) (new.1.natAbs ^ 2) (old.1.natAbs ^ 2)
      then Gives (.acqRestart ⟨n, prim, sec⟩) s fun t => Counts s t Reg.LN.BST_EXC_A.RESTART n ∧ t.rxPhase n = 2 ∧
        t.bstOf n = { x with arm := some 0 } ∧
        OnlyRegs { s with bst := t.bst } t [Reg.LN.BST_EXC_A.RESTART.key n 0, Reg.LN.BST_STAT.RX_PHASE.key n 0]
      else exec (.acqRestart ⟨n, prim, sec⟩) s = .next s) ∧
    (s.rxPhase n = 1 ∨ s.rxPhase n = 5 → x.reacq = false → Gives (.slotMissed n) s fun t =>
      Counts s t Reg.LN.BST_EXC_B.MISSED n ∧
      Excepts s t n ∧ t.rxPhase n = 0 ∧ (t.bstOf n).slot = none ∧
      (s.flag Reg.LN.BST_CTRL.MISS_REC n = false → t.out = s.out ∧ (t.bstOf n).seq = x.seq) ∧
      (s.flag Reg.LN.BST_CTRL.MISS_REC n = true → t.rd Reg.LN.BST_LAST.STATUS n = 5 ∧
        (t.bstOf n).seq = (x.seq + 1) % 65536 ∧ t.out.length = s.out.length + 1)) ∧
    (s.rxPhase n = 1 ∨ s.rxPhase n = 5 → x.reacq = true → b.slot ∈ x.rxDone → Gives (.slotMissed n) s fun t =>
      t.rxPhase n = 0 ∧ (t.bstOf n).slot = none ∧ NoRaise s t ∧ t.out = s.out)) ∧
  (∀ (n : LaneNo) (s : State), s.lane n = 4 → s.framerUp n = false → s.rxPhase n = 1 ∨ s.rxPhase n = 5 →
    (∀ mv, exec (.burstOnset n mv) s = .next s) ∧
    Gives (.slotMissed n) s fun t => Excepts s t n ∧ t.rxPhase n = 0 ∧ (t.bstOf n).slot = none ∧ t.out = s.out ∧
      t.rd Reg.LN.BST_EXC_B.MISSED n = s.rd Reg.LN.BST_EXC_B.MISSED n)
  ) ∧ (
  (∀ (n : LaneNo) (s : State) (b : Slot), (s.bstOf n).slot = some b → s.rxPhase n = 4 → s.lane n = 4 →
    (s.bstOf n).next = none → (s.calOf n).swapDue = false →
    let x := s.bstOf n
    (∀ (r g lev : List Int) (p95 : Nat), b.len ≤ x.cwLine + x.cwFill → Gives (.edTest n r g lev p95) s fun t =>
      t.rxPhase n = 0 ∧ (t.bstOf n).slot = none ∧
      (edMatches r = true → EndsBurst s t n b 0 ∧ NoRaise s t ∧ t.flag Reg.LN.BST_STAT.LOS n = false ∧
        t.rd Reg.LN.BST_BURSTS.OK n = (s.rd Reg.LN.BST_BURSTS.OK n + 1) % 2 ^ 64) ∧
      (edMatches r = false → EndsBurst s t n b 4 ∧ Counts s t Reg.LN.BST_EXC_B.NO_END n ∧ Excepts s t n)) ∧
    (∀ (r g lev : List Int) (p95 : Nat), x.cwLine + x.cwFill < b.len → exec (.edTest n r g lev p95) s = .next s) ∧
    (∀ v : List Nat, if 32 ≤ v.length ∧ ∀ l ∈ v, l < s.rd Reg.LN.BST_CTRL.ONSET_THR n
      then Gives (.burstTruncated ⟨n, v⟩) s fun t => EndsBurst s t n b 3 ∧ Counts s t Reg.LN.BST_EXC_B.TRUNCATED n ∧
        Excepts s t n ∧ t.rxPhase n = 0 ∧ (t.bstOf n).slot = none
      else exec (.burstTruncated ⟨n, v⟩) s = .next s) ∧
    (∀ (rms : List Nat) (r : List Int) (mark : Bool),
      if s.policyTriggers n rms r mark
      then Gives (.burstPolicyTrigger ⟨n, rms, r, mark⟩) s fun t =>
        if b.len ≤ x.cwLine + x.cwFill then EndsBurst s t n b 0 ∧ NoRaise s t ∧ t.rxPhase n = 0 ∧
          (t.bstOf n).slot = none ∧ (t.bstOf n).onset = true
        else if s.flag Reg.LN.BST_CTRL.POLICY n then EndsBurst s t n b 2 ∧ Counts s t Reg.LN.BST_EXC_A.PREEMPTED n ∧
          Excepts s t n ∧ t.rxPhase n = 2 ∧ (t.bstOf n).reacq = true ∧ (t.bstOf n).narrow = false ∧
          t.flag Reg.LN.BST_STAT.NARROW n = false ∧ (t.bstOf n).slot = some b
        else EndsBurst s t n b 1 ∧ Counts s t Reg.LN.BST_EXC_A.OVERLAP n ∧ Excepts s t n ∧ t.rxPhase n = 5 ∧
          (t.bstOf n).reacq = true ∧ (t.bstOf n).slot = some b
      else exec (.burstPolicyTrigger ⟨n, rms, r, mark⟩) s = .next s)) ∧
  (∀ (n : LaneNo) (words : List Nat) (s : State), s.lane n = 4 → Gives (.hostFramingLock n words) s fun t =>
    t = { s with bst := t.bst } ∧ (∀ k, k ≠ n.val → t.bstOf k = s.bstOf k) ∧
    ((s.bstOf n).hostLock = false → words = [syncWord, syncWord, syncWord] → (t.bstOf n).hostLock = true) ∧
    ((s.bstOf n).hostLock = false → syncWord ∉ words → (t.bstOf n).hostLock = false) ∧
    ((s.bstOf n).hostLock = true → words.length = 4 → syncWord ∉ words → (t.bstOf n).hostLock = false) ∧
    ((s.bstOf n).hostLock = true → (∀ w ∈ words, w = syncWord) → (t.bstOf n).hostLock = true)) ∧
  (∀ (n : LaneNo) (slot len crc : Nat) (at_ : Int) (s : State) (b : Slot), s.slotsRun n = true →
    (s.bstOf n).hostLock = true → s.txDue n = some b → (s.bstOf n).txHdr = none → slot < 64 → len < 65536 →
    crc < 65536 →
    let blk := blockField 64 8 0x2D + blockField 72 6 slot + blockField 80 16 len + blockField 208 16 crc
    let good := crc = crc16 144 (bitsOf blk 48 144) ∧ slot = b.slot ∧ len = b.len
    let late := (b.start : Int) + s.ticksPerSymbol n * (64 * b.pre) - 4096 < at_
    (good → ¬ late → Gives (.txHeaderReceived n blk at_) s fun t => (t.bstOf n).txHdr = some slot ∧
      t = { s with bst := t.bst }) ∧
    (good → late → Gives (.txHeaderReceived n blk at_) s fun t => (t.bstOf n).txHdr = none ∧
      Counts s t Reg.LN.BST_EXC_C.TX_LATE n ∧ Excepts s t n) ∧
    (¬ good → Gives (.txHeaderReceived n blk at_) s fun t => (t.bstOf n).txHdr = none ∧
      Counts s t Reg.LN.BST_EXC_C.TX_BAD n ∧ Excepts s t n)) ∧
  (∀ (n : LaneNo) (i : Fin 64) (s : State) (b : Slot), s.slotsDue n = true → i.val ∉ (s.bstOf n).txDone →
    ((s.slotsOf n true).find? fun t => t.slot == i.val) = some b → Gives (.txSlotStart n i) s fun t =>
      (s.framerUp n = true → (s.bstOf n).txHdr = some i.val → (t.bstOf n).txSlot = some b ∧
        (t.txOf n).path.burst = some (b.len, b.pre) ∧ (t.txOf n).path.unit = 0 ∧ NoRaise s t ∧ t.regs = s.regs) ∧
      (s.framerUp n = true → (s.bstOf n).txHdr ≠ some i.val → (t.bstOf n).txSlot = none ∧
        Counts s t Reg.LN.BST_EXC_B.TX_MISSED n ∧ Excepts s t n ∧ t.tx = s.tx) ∧
      (s.framerUp n = false → Excepts s t n ∧ t.tx = s.tx)) ∧
  (∀ (n : LaneNo) (s : State), s.lane n = 4 → (s.bstOf n).txSlot ≠ none → Gives (.txUnderrun n) s fun t =>
    Counts s t Reg.LN.BST_EXC_C.TX_UNDERRUN n ∧ Excepts s t n ∧ (t.bstOf n).txSlot = (s.bstOf n).txSlot ∧
    (t.txOf n).path.fillDue = (s.txOf n).path.fillDue + 1) ∧
  (∀ (n : LaneNo) (s : State) (len pre : Nat), s.mode n = 6 → (s.txOf n).path.burst = some (len, pre) →
    let p := (s.txOf n).path
    let outer := fun b => if b then levelCount (s.rd Reg.LN.FMT_CFG.CONST n) - 1 else 0
    (p.unit < pre → ((s.formUnit n).txOf n).path.syms = p.syms ++ picotBits.map outer) ∧
    (p.unit = pre → ((s.formUnit n).txOf n).path.syms = p.syms ++ (picotBits.take 32).map fun b => outer !b))
  )

/-- R343: PAD_RELEASE names a course (DTYPE 1) or a quad (2) and its index; any other operand is refused. It releases the
pads of that domain alone, with RES0 [0] at 1 when they were held and 0 when not; for a domain that is off it completes
with DOMAIN_OFF once the checks of R328 before that one pass. -/
def Obligations.PadReleaseReleasesOneDomain : Prop :=
  (∀ (s u : State) (r : RingNo) (e : Entry) (d : Dma) (f : Flight), Taken s .padRelease r e d u f →
    let dt := opByte f.e 16
    let i := opByte f.e 17
    (¬ ((dt = 1 ∧ i < 8) ∨ (dt = 2 ∧ i < 4)) → Finishes (.padRelease r e d) s r f { st := .badField } fun t => t = u) ∧
    (dt = 1 → i < 8 → Finishes (.padRelease r e d) s r f { r0 := bitVal (u.padHeldC i) } fun t =>
      t.padHeldC i = false ∧ (∀ c, c ≠ i → t.padHeldC c = u.padHeldC c) ∧ t.regs = u.regs) ∧
    (dt = 2 → i < 4 → Finishes (.padRelease r e d) s r f { r0 := bitVal (u.padHeldQ i) } fun t =>
      t.padHeldQ i = false ∧ (∀ q, q ≠ i → t.padHeldQ q = u.padHeldQ q) ∧ t.regs = u.regs)) ∧
  (∀ (s u : State) (r : RingNo) (e : Entry) (d : Dma) (f : Flight) (p : Nat),
    s.takeUp r (opCode .padRelease) e d = some (u, f) → startable (u.ring r).flights f = true → (u.core 1).stopped = false →
    f.role = some p → opRole .padRelease f.e ≤ p → fieldsOk .padRelease f.e = true → u.lcOk .padRelease f.e = true →
    u.serverState (u.server .padRelease f.e) = .runs → u.updateHolds .padRelease = false →
    ((opByte f.e 16 = 1 ∧ opByte f.e 17 < 8 ∧ u.courseD (opByte f.e 17) = false) ∨
      (opByte f.e 16 = 2 ∧ opByte f.e 17 < 4 ∧ u.quadOn (opByte f.e 17) = false)) →
    Finishes (.padRelease r e d) s r f { st := .domainOff } fun t => t = u)

/-! ## Power states (15_power_and_thermal, 12_command_set) -/

/-- R341, R342, R417, R418, R420, R422: POWER_SET refuses a transition R416 has not, is turned away while one runs, ends
at once for a domain already there, and otherwise starts the one transition in flight; a write of GO that would be
refused sets PWR_REJECT alone. COURSE_OFF_IMMEDIATE is turned away while an entry to D_KEEP waits, ends at
once for a course that is off and otherwise pre-empts the course's own transition.

R416, R418, R421, R422: what the end of a transition does. A domain without its reference clock stays as it was and
the command completes with DOMAIN_OFF; a quad or course that goes off latches its pads and its registers return to their
reset values; one that comes up with its latch holding raises PAD_HELD; POWER_DONE is raised for the course, or for both
courses of a quad. A course taken off at once is off when the commands that asked for it complete. -/
def Obligations.PowerRequestsAndTransitions : Prop :=
  (
  (∀ (s u : State) (r : RingNo) (e : Entry) (d : Dma) (f : Flight), Taken s .powerSet r e d u f →
    let dt := opByte f.e 16
    let i := opByte f.e 17
    let to_ := opByte f.e 18
    let ok := (dt = 1 ∧ i < 8 ∧ to_ < 3 ∧ ¬ (to_ = 1 ∧ u.coursePow i = .off)) ∨ (dt = 2 ∧ i < 4 ∧ (to_ = 0 ∨ to_ = 2)) ∨
      (dt = 3 ∧ i = 0 ∧ (to_ = 0 ∨ to_ = 2))
    let busy := u.pwr.trans ≠ none ∨ u.powerAsked = true ∨ u.pwr.offNow ≠ [] ∨ u.pwr.d3Wait = true ∨ (dt = 1 ∧ u.substOn i = true)
    (¬ ok → Finishes (.powerSet r e d) s r f { st := .badField } fun t => t = u) ∧
    (ok → busy → Finishes (.powerSet r e d) s r f { st := .pwrBusy } fun t => t = u) ∧
    (ok → ¬ busy → u.domainState dt i = to_ → Finishes (.powerSet r e d) s r f {} fun t =>
      t = u.setPhase r f.fid .running) ∧
    (ok → ¬ busy → u.domainState dt i < to_ → Gives (.powerSet r e d) s fun t =>
      t.pwr = { u.pwr with trans := some ⟨dt, i, to_, .host r f.fid⟩ } ∧ t.regs = u.regs ∧ t.out = u.out) ∧
    (ok → ¬ busy → to_ < u.domainState dt i → u.twin.strap = 0 → opBits f.e 19 0 1 = 0 → Gives (.powerSet r e d) s fun t =>
      t.pwr = { u.pwr with trans := some ⟨dt, i, to_, .host r f.fid⟩ } ∧ t.regs = u.regs ∧ t.out = u.out)) ∧
  (∀ (v : Word) (s : State), s.coreOn = true →
    let dt := bitsOf v.toNat 0 2
    let i := bitsOf v.toNat 2 3
    let to_ := bitsOf v.toNat 5 2
    let keys := [Reg.PWR.CTRL.DTYPE.key 0 0, Reg.PWR.CTRL.INDEX.key 0 0, Reg.PWR.CTRL.STATE.key 0 0]
    (bitOf v.toNat 7 = false → Gives (.pwrGo 0 v) s fun t => OnlyRegs (s.setShadow 0 none) t keys ∧ t.rd Reg.PWR.CTRL.INDEX = i) ∧
    (bitOf v.toNat 7 = true → (s.pwr.trans ≠ none ∨ dt = 0 ∨ s.requestOk dt i to_ = false) → Gives (.pwrGo 0 v) s fun t =>
      t.flag Reg.PWR.STAT.PWR_REJECT = true ∧ OnlyRegs (s.setShadow 0 none) t (Reg.PWR.STAT.PWR_REJECT.key 0 0 :: keys)) ∧
    (bitOf v.toNat 7 = true → s.goRefused dt i to_ = false → s.domainState dt i < to_ → Gives (.pwrGo 0 v) s fun t =>
      t.pwr = { s.pwr with trans := some ⟨dt, i, to_, .register⟩ } ∧ OnlyRegs { s.setShadow 0 none with pwr := t.pwr } t keys)) ∧
  (∀ (s u : State) (r : RingNo) (e : Entry) (d : Dma) (f : Flight), Taken s .courseOffImmediate r e d u f →
    let c := f.e.target.toNat
    (u.pwr.d3Wait = true → Finishes (.courseOffImmediate r e d) s r f { st := .pwrBusy } fun t => t = u) ∧
    (u.tests = [] → u.pwr.d3Wait = false →
    (u.coursePow c = .off → u.inTransition 1 c = false → Finishes (.courseOffImmediate r e d) s r f {} fun t =>
      t = u.setPhase r f.fid .running) ∧
    (u.coursePow c ≠ .off → u.inTransition 1 c = false → u.pwr.offNow = [] → u.twin.strap = 0 → opBits f.e 16 0 1 = 0 →
      Gives (.courseOffImmediate r e d) s fun t =>
        t.pwr = { u.pwr with offNow := [(c, [.host r f.fid])] } ∧ t.regs = u.regs) ∧
    (∀ to_, u.pwr.trans = some ⟨1, c, to_, .register⟩ → u.pwr.offNow = [] → u.twin.strap = 0 → opBits f.e 16 0 1 = 0 →
      Gives (.courseOffImmediate r e d) s fun t => t.pwr.trans = none ∧ t.flag Reg.PWR.STAT.LAST_ABORTED = true ∧
        t.pwr.offNow = [(c, [.host r f.fid])])))
  ) ∧ (
  (∀ (s : State) (x : Transition) (pll : Bool) (cal : List FirstCal), s.coreOn = true → s.pwr.offNow = [] →
    s.pwr.trans = some x → s.pwr.d3Wait = false →
    (x.dtype = 2 → x.index < 4 →
      (x.to_ = 2 → pll = false → EndsWith (.powerTransitionEnd pll cal) s x.origin { st := .domainOff } fun t =>
        t.pwr = { s.pwr with trans := none } ∧ t.flag Reg.EVT.LATCH.RAISED (courseSrc (2 * x.index) 4) = true ∧
        t.flag Reg.EVT.LATCH.RAISED (courseSrc (2 * x.index + 1) 4) = true) ∧
      (x.to_ = 2 → pll = true → EndsWith (.powerTransitionEnd pll cal) s x.origin { r0 := 1 } fun t =>
        t.quadOn x.index = true ∧ t.pwr.trans = none ∧ t.padHeldQ x.index = s.padHeldQ x.index ∧
        t.flag Reg.EVT.LATCH.RAISED (courseSrc (2 * x.index) 4) = true ∧
        t.flag Reg.EVT.LATCH.RAISED (courseSrc (2 * x.index + 1) 4) = true ∧
        (s.padHeldQ x.index = true → t.flag Reg.EVT.LATCH.RAISED (courseSrc (2 * x.index) 5) = true ∧
          t.flag Reg.EVT.LATCH.RAISED (courseSrc (2 * x.index + 1) 5) = true)) ∧
      (x.to_ = 0 → EndsWith (.powerTransitionEnd pll cal) s x.origin { r0 := 1 } fun t =>
        t.quadOn x.index = false ∧ t.padHeldQ x.index = true ∧
        AtReset t (0x300000 + 0x10000 * x.index) (0x310000 + 0x10000 * x.index) ∧
        ∀ k < 32, t.hostOf (32 * x.index + k) = {})) ∧
    (x.dtype = 1 → x.index < 8 → (s.ladder x.index).due = false → s.failed = [] →
      (x.to_ = 2 → pll = false → s.coursePow x.index ≠ .off → EndsWith (.powerTransitionEnd pll cal) s x.origin
        { st := .domainOff } fun t => t.pwr = { s.pwr with trans := none } ∧ t.rx = s.rx ∧ t.tx = s.tx) ∧
      (x.to_ = 0 → EndsWith (.powerTransitionEnd pll cal) s x.origin { r0 := 1 } fun t =>
        t.coursePow x.index = .off ∧ t.padHeldC x.index = true ∧
        t.flag Reg.EVT.LATCH.RAISED (courseSrc x.index 4) = true ∧
        AtReset t (0x100000 + 0x10000 * x.index) (0x110000 + 0x10000 * x.index) ∧
        AtReset t (0x200000 + 0x20000 * x.index) (0x220000 + 0x20000 * x.index) ∧ t.epochOf x.index = {}) ∧
      (x.to_ = 1 → s.coursePow x.index = .on → EndsWith (.powerTransitionEnd pll cal) s x.origin { r0 := 1 } fun t =>
        t.coursePow x.index = .idle ∧ t.padHeldC x.index = s.padHeldC x.index) ∧
      (x.to_ = 2 → pll = true → s.coursePow x.index = .off → (s.core 0).stopped = false → (s.core 0).restarting = false →
        EndsWith (.powerTransitionEnd pll cal) s x.origin { r0 := 1 } fun t =>
          t.coursePow x.index = .on ∧ t.flag Reg.EVT.LATCH.RAISED (courseSrc x.index 4) = true ∧
          (s.padHeldC x.index = true → t.padHeldC x.index = true ∧
            t.flag Reg.EVT.LATCH.RAISED (courseSrc x.index 5) = true))) ∧
    (x.dtype = 1 → x.index < 8 → x.to_ = 2 → s.coursePow x.index = .off → (s.core 0).restarting = true →
      exec (.powerTransitionEnd pll cal) s = .next s)) ∧
  (∀ (s : State) (c : CourseNo) (o : Origin) (pll : Bool) (cal : List FirstCal), s.coreOn = true → s.pwr.d3Wait = false →
    s.pwr.offNow = [(c.val, [o])] → (s.ladder c).due = false →
    EndsWith (.powerTransitionEnd pll cal) s o {} fun t => t.coursePow c = .off ∧ t.pwr.offNow = [] ∧
      t.pwr.trans = s.pwr.trans ∧ t.padHeldC c = true ∧ t.flag Reg.EVT.LATCH.RAISED (courseSrc c 4) = true ∧
      AtReset t (0x200000 + 0x20000 * c) (0x220000 + 0x20000 * c))
  )

/-! ## The hod and captures (14_hod_and_memory_protection, 12_command_set) -/

/-- R348, R349, R394, R395, R397, R398, R400, R404, R405: HOD_FILL writes its pattern over the range and nothing else;
HOD_WRITE writes the bytes of host memory, a part of a word by read-modify-write in which a never-written granule counts
as zero; HOD_READ delivers what the words hold, with UNINIT for a never-written granule, and with ECC_UNCORR and the
offset for a word that is uncorrectable. A single-bit error is counted and corrected. All three refuse ranges outside
the regions they may touch. A scrub read corrects alike, and the last one ends the pass.

R114, R346, R347, R409: a capture is refused for operands outside their ranges, IN_USE while one runs on the lane, and
NO_SPACE where the capture region has no room; otherwise it runs, and its trigger is taken once. It ends at completion,
or at TIMEOUT without a trigger, with the ID of the swatch it stored, or 0, and a swap of slices
that waited for it is made. CAPTURE_FREE releases one swatch or all, and
CAPTURE_DRAIN of an unknown one is refused. -/
def Obligations.HodAndCaptures : Prop :=
  (
  (∀ (s u : State) (r : RingNo) (e : Entry) (d : Dma) (f : Flight), Taken s .hodFill r e d u f → u.hodOn = true →
    let o := op32 f.e 16
    let n := op32 f.e 20
    ((o % 8 ≠ 0 ∨ n % 8 ≠ 0 ∨ 2 ^ 24 < n ∨ generalBytes < o + n) →
      Finishes (.hodFill r e d) s r f { st := .badField } fun t => t = u) ∧
    (o % 8 = 0 → n % 8 = 0 → n ≤ 2 ^ 24 → o + n ≤ generalBytes → Finishes (.hodFill r e d) s r f {} fun t =>
      (∀ w, o ≤ 8 * w → 8 * w < o + n → t.hodWord w = some ⟨op64 f.e 24, false⟩ ∧ t.granule w = true) ∧
      (∀ w, (8 * w < o ∨ o + n ≤ 8 * w) → t.hodWord w = u.hodWord w) ∧ t.out = u.out ∧ NoRaise u t)) ∧
  (∀ (s u : State) (r : RingNo) (e : Entry) (d : Dma) (ecc : List EccHit) (f : Flight), Taken s .hodWrite r e d u f →
    u.hodOn = true →
    let o := op32 f.e 16
    let n := op32 f.e 20
    let a := op64 f.e 24
    ((n = 0 ∨ 2 ^ 24 < n ∨ generalBytes < o + n ∨ a % 4 ≠ 0 ∨ 2 ^ 64 < a + n) →
      Finishes (.hodWrite r e d ecc) s r f { st := .badField } fun t => t = u) ∧
    (0 < n → n ≤ 2 ^ 24 → o + n ≤ generalBytes → a % 4 = 0 → a + n ≤ 2 ^ 64 → f.d.failAt = none → f.d.data.length = n →
      (o % 8 = 0 → n % 8 = 0 → Finishes (.hodWrite r e d ecc) s r f {} fun t =>
        (∀ k < n / 8, t.hodWord (o / 8 + k) = some ⟨leNat ((f.d.data.drop (8 * k)).take 8), false⟩) ∧
        (∀ w, (8 * w < o ∨ o + n ≤ 8 * w) → t.hodWord w = u.hodWord w)) ∧
      (o % 8 + n < 8 → u.granule (o / 8) = false → Finishes (.hodWrite r e d ecc) s r f {} fun t =>
        t.hodWord (o / 8) = some ⟨leNat (List.replicate (o % 8) 0 ++ f.d.data ++ List.replicate (8 - o % 8 - n) 0), false⟩ ∧
        t.granule (o / 8) = true ∧ NoRaise u t ∧ ∀ w, w ≠ o / 8 → t.hodWord w = u.hodWord w))) ∧
  (∀ (s u : State) (r : RingNo) (e : Entry) (d : Dma) (ecc : List EccHit) (f : Flight), Taken s .hodRead r e d u f →
    u.hodOn = true →
    let o := op32 f.e 16
    let n := op32 f.e 20
    let a := op64 f.e 24
    let w := o / 8
    ((2 ^ 24 < n ∨ 0x0B000000 < o + n ∨ a % 4 ≠ 0 ∨ n % 4 ≠ 0 ∨ 2 ^ 64 < a + n) →
      Finishes (.hodRead r e d ecc) s r f { st := .badField } fun t => t = u) ∧
    (n = 8 → o % 8 = 0 → o + n ≤ 0x0B000000 → a % 4 = 0 → a + n ≤ 2 ^ 64 → f.d.failAt = none →
      (u.granule w = false → Finishes (.hodRead r e d ecc) s r f { st := .uninit, r1 := o } fun t =>
        t = (u.setPhase r f.fid .running).emit (.hostWrite a (List.replicate 8 0))) ∧
      (∀ x : HodWord, u.granule w = true → u.hodWord w = some x → bitOf (u.rd Reg.HOD.STAT.CHK_FAIL) (hodBank o) = false →
        (x.bad = true → Finishes (.hodRead r e d ecc) s r f { st := .eccUncorr, r1 := o } fun t =>
          t.out = u.out ++ [.hostWrite a (leBytes 8 x.v)] ∧ t.rd Reg.HOD.ECC_LOG.WORD = w ∧
          t.flag Reg.HOD.ECC_LOG.VALID = true ∧ t.hod = u.hod ∧
          (u.flag Reg.HOD.ECC_LOG.VALID = false → RaisesEvent u t 10 w)) ∧
        (x.bad = false → (∀ h ∈ ecc, h.word ≠ w) → Finishes (.hodRead r e d ecc) s r f {} fun t =>
          t = (u.setPhase r f.fid .running).emit (.hostWrite a (leBytes 8 x.v))) ∧
        (∀ b, x.bad = false → ecc = [⟨w, some b⟩] → Finishes (.hodRead r e d ecc) s r f {} fun t =>
          t.out = u.out ++ [.hostWrite a (leBytes 8 x.v)] ∧ t.hodWord w = some x ∧
          t.rd Reg.HOD.ECC_CORR.COUNT = min (u.rd Reg.HOD.ECC_CORR.COUNT + 1) (2 ^ 32 - 1))))) ∧
  (∀ (w : Nat) (last : Bool) (s : State) (x : HodWord), s.coreOn = true → s.hodOn = true → s.granule w = true →
    s.flag Reg.HOD.CTRL.SCRUB_EN = true → w < hodBytes / 8 → s.hodWord w = some x → x.bad = false →
    bitOf (s.rd Reg.HOD.STAT.CHK_FAIL) (hodBank (8 * w)) = false →
    (Gives (.scrubRead w false none last) s fun t =>
      t.rd Reg.HOD.STAT.PASSES = (if last then (s.rd Reg.HOD.STAT.PASSES + 1) % 65536 else s.rd Reg.HOD.STAT.PASSES) ∧
      OnlyRegs s t [Reg.HOD.STAT.PASSES.key 0 0]) ∧
    (∀ b, Gives (.scrubRead w true (some b) last) s fun t => t.hodWord w = some x ∧
      t.rd Reg.HOD.ECC_CORR.COUNT = min (s.rd Reg.HOD.ECC_CORR.COUNT + 1) (2 ^ 32 - 1)) ∧
    Gives (.scrubRead w true none last) s fun t => t.flag Reg.HOD.ECC_LOG.VALID = true ∧
      (s.flag Reg.HOD.CTRL.REPAIR_EN = false → t.rd Reg.HOD.ECC_LOG.WORD = w ∧ t.rd Reg.HOD.ECC_LOG.SOURCE = 2))
  ) ∧ (
  (∀ (s u : State) (r : RingNo) (e : Entry) (d : Dma) (f : Flight), Taken s .captureStart r e d u f → u.hodOn = true →
    let n := f.e.target.toNat
    let point := opByte f.e 16
    let trig := opByte f.e 17
    let kib := op32 f.e 20
    let mode := u.mode n
    let bad := 4 < point ∨ 3 < trig ∨ kib = 0 ∨ 65536 < kib ∨ 607 < op16 f.e 24 ∨ u.lane n < 2 ∨ 5 < u.lane n ∨
      (trig = 2 ∧ mode ≠ 6) ∨ (point = 2 ∧ mode = 1) ∨
      (trig = 3 ∧ (mode = 1 ∨ u.flag Reg.LN.FMT_CFG.INNER_BYPASS n = true))
    (bad → Finishes (.captureStart r e d) s r f { st := .badField } fun t => t = u) ∧
    (¬ bad → u.capOn n ≠ none → Finishes (.captureStart r e d) s r f { st := .inUse } fun t => t = u) ∧
    (¬ bad → u.capOn n = none → u.freeRows.length < max 2 ((kib + 3) / 4) →
      Finishes (.captureStart r e d) s r f { st := .noSpace } fun t => t = u) ∧
    (¬ bad → u.capOn n = none → max 2 ((kib + 3) / 4) ≤ u.freeRows.length → Gives (.captureStart r e d) s fun t =>
      t.regs = u.regs ∧ t.out = u.out ∧ ∃ c : Capture, t.hod = { u.hod with caps := u.hod.caps ++ [c] } ∧ c.lane = n ∧
        c.point = point ∧ c.rows.length = max 2 ((kib + 3) / 4) ∧ (∀ x ∈ c.rows, x ∈ u.freeRows) ∧
        c.timeout = (if op16 f.e 26 = 0 then 1000 else op16 f.e 26) ∧ c.origin = .host r f.fid ∧
        (trig = 0 ↔ c.trigAt ≠ none))) ∧
  (∀ (n : LaneNo) (sym : Nat) (s : State) (c : Capture), s.hod.caps = [c] → c.lane = n.val →
    Gives (.captureTrigger n sym) s fun t => t = { s with hod := t.hod } ∧
      t.capOn n = some (if c.trigAt = none then { c with trigAt := some (sym, s.time) } else c)) ∧
  (∀ (n : LaneNo) (w : SwatchData) (s : State) (c : Capture), s.hod.caps = [c] → c.lane = n.val →
    (c.trigAt ≠ none → w.rows ≠ [] → 2 ≤ c.rows.length → EndsAndSettles (.captureComplete n w) s n c.origin
      { r0 := s.hod.nextId, r1 := 1, r2 := 4096 * (min w.rows.length (c.rows.length - 1) + 1) } fun t =>
        t.hod.caps = [] ∧ t.hod.nextId = s.hod.nextId % (2 ^ 32 - 2) + 1 ∧
        t.hod.swatches = s.hod.swatches ++ [⟨s.hod.nextId, c.rows.take (min w.rows.length (c.rows.length - 1) + 1)⟩]) ∧
    (c.trigAt ≠ none → w.rows = [] → EndsAndSettles (.captureComplete n w) s n c.origin { r1 := 1 } fun t =>
      t.hod = { s.hod with caps := [] } ∧ t.regs = s.regs) ∧
    (c.trigAt = none → exec (.captureComplete n w) s = .next s) ∧
    (c.trigAt = none → w.rows = [] → EndsAndSettles (.captureTimeout n w) s n c.origin {} fun t =>
      t.hod = { s.hod with caps := [] } ∧ t.regs = s.regs ∧ t.time = max s.time (c.start + c.timeout * 1000000)) ∧
    (c.trigAt ≠ none → exec (.captureTimeout n w) s = .next s)) ∧
  (∀ (s u : State) (r : RingNo) (e : Entry) (d : Dma) (ecc : List EccHit) (f : Flight), Taken s .captureDrain r e d u f →
    u.hodOn = true → (∀ x ∈ u.hod.swatches, x.id ≠ op32 f.e 16) →
    Finishes (.captureDrain r e d ecc) s r f { st := .badField } fun t => t = u) ∧
  (∀ (s u : State) (r : RingNo) (e : Entry) (d : Dma) (f : Flight) (x : Swatch) (row w v : Nat),
    Taken s .captureDrain r e d u f → u.hodOn = true → u.hod.swatches = [x] → x.id = op32 f.e 16 → x.rows = [row] →
    op32 f.e 20 = 0 → op32 f.e 24 = 8 → op64 f.e 32 % 4 = 0 → op64 f.e 32 + 8 ≤ 2 ^ 64 → f.d.failAt = none →
    u.rd Reg.HOD.STAT.CHK_FAIL = 0 → w = (captureBase + 4096 * row) / 8 → u.hodWord w = some ⟨v, false⟩ →
    Finishes (.captureDrain r e d []) s r f { r0 := 8 } fun t =>
      t = (u.setPhase r f.fid .running).emit (.hostWrite (op64 f.e 32) (leBytes 8 v))) ∧
  (∀ (s u : State) (r : RingNo) (e : Entry) (d : Dma) (f : Flight), Taken s .captureFree r e d u f → u.hodOn = true →
    let id := op32 f.e 16
    (id ≠ 0xFFFFFFFF → (∀ x ∈ u.hod.swatches, x.id ≠ id) →
      Finishes (.captureFree r e d) s r f { st := .badField } fun t => t = u) ∧
    (id = 0xFFFFFFFF → Finishes (.captureFree r e d) s r f {} fun t =>
      t.hod = { u.hod with swatches := [] } ∧ t.regs = u.regs) ∧
    (id ≠ 0xFFFFFFFF → (∃ x ∈ u.hod.swatches, x.id = id) → Finishes (.captureFree r e d) s r f {} fun t =>
      t.hod = { u.hod with swatches := u.hod.swatches.filter fun x => x.id != id } ∧ t.regs = u.regs))
  )

/-! ## Receiving a line lane (03_line_receive, 02_line_formats) -/

/-- R75, R76, R79, R80, R81, R82, R104: LOS shows and raises its event, holds acquisition at step 2 and takes an ACTIVE lane
back to ACQUIRE; when it clears, acquisition goes on from step 3. A block whose level is off the target by more than the
deadband moves the gain by one code, within 0 to 240. CDR lock is declared with the accumulator within range; its loss
takes an ACTIVE lane to step 5. A freeze bit holds its loop. The accumulator gains 2^-KI of the detector's outputs, held at
±300 ppm, where no lock is declared. In BURST a block of 16 moves the gain by at most 32 codes (R172). -/
def Obligations.SignalGainAndClockRecovery : Prop :=
  ∀ (n : LaneNo) (s : State), s.courseOn (courseOf n) = true →
    let st := s.lane n
    let live := st = 1 ∨ st = 2 ∨ st = 3 ∨ st = 5
    let step := s.rd Reg.LN.RX_STAT.ACQ_STEP n
    ((s.los n = true ∨ s.rd Reg.LN.AGC.LOS_THR n = 0 ∨ ¬ live) → exec (.losAssert n) s = .next s) ∧
    (live → s.los n = false → s.rd Reg.LN.AGC.LOS_THR n ≠ 0 → Gives (.losAssert n) s fun t => t.los n = true ∧
      t.flag Reg.EVT.LATCH.RAISED (laneSrc n 0) = true ∧ t.lane n = (if st = 3 then 2 else st) ∧
      (st = 2 → t.rd Reg.LN.RX_STAT.ACQ_STEP n = if 2 < step then 2 else step) ∧
      (st = 3 → t.rd Reg.LN.RX_STAT.ACQ_STEP n = 2) ∧ (t.rxOf n).taps = (s.rxOf n).taps) ∧
    (live → s.los n = true → Gives (.losClear n) s fun t => t.los n = false ∧ t.lane n = st ∧
      ((s.calOf n).swapDue = false → NoRaise s t) ∧
      (st = 2 → t.rd Reg.LN.RX_STAT.ACQ_STEP n = if step = 2 then 3 else step)) ∧
    (∀ rms, (s.flag Reg.LN.RX_CTRL.AGC_FREEZE n = true ∨ (st ≠ 4 ∧ (s.los n = true ∨ ¬ (st = 2 ∨ st = 3 ∨ st = 5))) ∨
        (st = 4 ∧ s.rd Reg.LN.BST_STAT.RX_PHASE n ≠ 2)) → exec (.agcBlockEnd n rms) s = .next s) ∧
    (∀ rms, s.flag Reg.LN.RX_CTRL.AGC_FREEZE n = false → st = 4 → s.rd Reg.LN.BST_STAT.RX_PHASE n = 2 →
      let target := s.rd Reg.LN.AGC.TARGET n * 256
      let g := min 240 (s.rd Reg.LN.AGC.GAIN n)
      Gives (.agcBlockEnd n rms) s fun t =>
        t.rd Reg.LN.AGC.GAIN n = min 240 (g + codesUp target rms) - codesUp rms target ∧
        (t.bstOf n).blocks = (s.bstOf n).blocks + 1 ∧ (t.bstOf n).lastRms = some (rms, g) ∧
        (16 ≤ (s.bstOf n).blocks + 1 → (t.bstOf n).arm.isSome = true) ∧
        OnlyRegs { s with bst := t.bst } t [Reg.LN.AGC.GAIN.key n 0]) ∧
    (∀ rms, s.flag Reg.LN.RX_CTRL.AGC_FREEZE n = false → s.los n = false → (st = 3 ∨ st = 5) →
      let target := s.rd Reg.LN.AGC.TARGET n * 256
      let d := s.rd Reg.LN.AGC.DEADBAND n
      let g := min 240 (s.rd Reg.LN.AGC.GAIN n)
      Gives (.agcBlockEnd n rms) s fun t =>
        (10 ^ d * target ^ 160 < rms ^ 160 → t.rd Reg.LN.AGC.GAIN n = g - 1) ∧
        (10 ^ d * rms ^ 160 < target ^ 160 → t.rd Reg.LN.AGC.GAIN n = min 240 (g + 1)) ∧
        (rms ^ 160 ≤ 10 ^ d * target ^ 160 → target ^ 160 ≤ 10 ^ d * rms ^ 160 → t.rd Reg.LN.AGC.GAIN n = g) ∧
        OnlyRegs { s with rx := t.rx } t [Reg.LN.AGC.GAIN.key n 0]) ∧
    (∀ det : Int, s.flag Reg.LN.RX_CTRL.CDR_FREEZE n = false → (st = 2 ∨ st = 3 ∨ st = 5) →
      0 ≤ (s.rxOf n).cdrFrac → (s.rxOf n).cdrFrac < 2 ^ 20 →
      let acc := signedOf (s.rd Reg.LN.CDR.FREQ n) 16 * 2 ^ 20 + (s.rxOf n).cdrFrac
      let a := if s.los n = true then acc else
        max (-3000 * 2 ^ 20) (min (3000 * 2 ^ 20) (acc + det * 10000000 / 2 ^ s.rd Reg.LN.CDR.KI n))
      (-3000 * 2 ^ 20 < a ∧ a < 3000 * 2 ^ 20 → Gives (.cdrLock n det) s fun t =>
        t.flag Reg.LN.RX_STAT.CDR_LOCK n = true ∧
        t.rd Reg.LN.CDR.FREQ n = patternOf (a / 2 ^ 20) 16 ∧ (t.rxOf n).cdrFrac = a % 2 ^ 20 ∧ t.lane n = st ∧
        ((s.calOf n).swapDue = false → NoRaise s t) ∧
        (s.mode n = 1 → t.flag Reg.LN.RX_STAT.FRAME_LOCK n = true)) ∧
      (¬ (-3000 * 2 ^ 20 < a ∧ a < 3000 * 2 ^ 20) → Gives (.cdrLock n det) s fun t =>
        t.rd Reg.LN.CDR.FREQ n = patternOf (a / 2 ^ 20) 16 ∧
        OnlyRegs { s with rx := t.rx } t [Reg.LN.CDR.FREQ.key n 0])) ∧
    (∀ det : Int, s.flag Reg.LN.RX_CTRL.CDR_FREEZE n = true → exec (.cdrLock n det) s = .next s) ∧
    (s.flag Reg.LN.RX_CTRL.CDR_FREEZE n = true → exec (.cdrLockLoss n) s = .next s) ∧
    (s.flag Reg.LN.RX_CTRL.CDR_FREEZE n = false → s.flag Reg.LN.RX_STAT.CDR_LOCK n = true →
      Gives (.cdrLockLoss n) s fun t => t.flag Reg.LN.RX_STAT.CDR_LOCK n = false ∧
        (st = 3 → t.lane n = 2 ∧ (s.los n = false → t.rd Reg.LN.RX_STAT.ACQ_STEP n = 5)) ∧ (st ≠ 3 → t.lane n = st) ∧
        (s.mode n = 1 → t.flag Reg.LN.RX_STAT.FRAME_LOCK n = false) ∧ (t.rxOf n).taps = (s.rxOf n).taps)

/-- R67, R69, R70, R73, R74, R84, R88, R92: each step of acquisition ends on its own condition and the last one makes the lane
ACTIVE with ACQ_DONE. After 250 ms without ACTIVE the lane restarts at step 3 with its mode's defaults and the retry is
counted; without frame lock for 10 ms it restarts at step 3 with its present coefficients. A lost frame lock takes an
ACTIVE lane to step 8. A gradient block moves every tap by its gradient, leaks it and keeps it in range; one in which a
block was dropped, or the ladder cut the FFE or the MLSE, leaves the taps as they are. -/
def Obligations.AcquisitionAndAdaptation : Prop :=
  ∀ (n : LaneNo) (s : State), s.courseOn (courseOf n) = true →
    let x := s.rxOf n
    let step := s.rd Reg.LN.RX_STAT.ACQ_STEP n
    (∀ xs lev p95, s.lane n = 2 → s.los n = false → s.laneEngineOn n = true → Gives (.acqStepComplete n xs lev p95) s fun t =>
      let now := t.rd Reg.LN.RX_STAT.ACQ_STEP n
      (step = 2 → now = 3) ∧ (step = 3 → now = if x.agcOk then 4 else 3) ∧ (step = 4 → x.sweep = false → now = 5) ∧
      (step = 4 → x.sweep = true → s.flag Reg.LN.RX_CTRL.CTLE_FREEZE n = true → now = 4) ∧
      (step = 4 → x.sweep = true → s.flag Reg.LN.RX_CTRL.CTLE_FREEZE n = false →
        s.rd Reg.LN.CTLE.MIN n ≤ s.rd Reg.LN.CTLE.MAX n → s.rd Reg.LN.CTLE.MAX n < 16 → now = 5 ∧
        s.rd Reg.LN.CTLE.MIN n ≤ t.rd Reg.LN.CTLE.SETTING n ∧ t.rd Reg.LN.CTLE.SETTING n ≤ s.rd Reg.LN.CTLE.MAX n) ∧
      (step = 5 → now = if s.flag Reg.LN.RX_STAT.CDR_LOCK n then 6 else 5) ∧
      (step = 6 → now = if 8 ≤ x.mseRun then 7 else 6) ∧
      (step = 7 → now = 8 ∧ (s.flag Reg.LN.RX_CTRL.TGT_FREEZE n = false → s.rd Reg.LN.MLSE_CTRL.ALPHA1_MAX n < 16 →
        t.rd Reg.LN.MLSE_CTRL.ALPHA1 n ≤ s.rd Reg.LN.MLSE_CTRL.ALPHA1_MAX n)) ∧
      (step = 8 → s.mode n = 4 ∨ s.mode n = 5 ∨ s.mode n = 1 →
        now = if s.flag Reg.LN.RX_STAT.FRAME_LOCK n then 9 else 8) ∧
      (step = 9 → s.flag Reg.LN.RX_STAT.FRAME_LOCK n = true →
        t.lane n = 3 ∧ t.flag Reg.EVT.LATCH.RAISED (laneSrc n 1) = true) ∧
      (step = 9 → s.flag Reg.LN.RX_STAT.FRAME_LOCK n = false → now = 8 ∧ t.lane n = 2) ∧ (step ≠ 9 → t.lane n = 2)) ∧
    (s.lane n = 2 → s.los n = false → x.acqStopped = false → s.laneEngineOn n = true → Gives (.acqRetry n) s fun t =>
      t.rd Reg.LN.RX_STAT.ACQ_RETRY n = min (s.rd Reg.LN.RX_STAT.ACQ_RETRY n + 1) 255 ∧
      t.rd Reg.LN.RX_STAT.ACQ_STEP n = 3 ∧ t.flag Reg.LN.RX_STAT.SEED_LOADED n = false ∧ t.lane n = 2 ∧
      t.time = max s.time (x.acqRef + (250000000 - x.acqSpent)) ∧
      t.rd Reg.LN.AGC.GAIN n = (modeDefaults (s.mode n)).2.1) ∧
    (∀ at_, x.lossAt = some at_ → s.lane n = 2 → step = 8 → s.flag Reg.LN.RX_STAT.FRAME_LOCK n = false →
      Gives (.frameLockTimeout n) s fun t => t.rd Reg.LN.RX_STAT.ACQ_STEP n = 3 ∧ t.time = max s.time (at_ + 10000000) ∧
        (t.rxOf n).taps = x.taps ∧ OnlyRegs { s with rx := t.rx, time := t.time } t [Reg.LN.RX_STAT.ACQ_STEP.key n 0]) ∧
    ((s.mode n = 2 ∨ s.mode n = 3) → s.flag Reg.LN.RX_STAT.FRAME_LOCK n = true → Gives (.frameLockLoss n) s fun t =>
      t.flag Reg.LN.RX_STAT.FRAME_LOCK n = false ∧ t.flag Reg.LN.FMT_STAT.OCM_LOCK n = false ∧
      (s.lane n ≠ 3 → OnlyRegs s t [Reg.LN.RX_STAT.FRAME_LOCK.key n 0, Reg.LN.FMT_STAT.OCM_LOCK.key n 0,
          Reg.LN.RX_STAT.ACQ_STEP.key n 0] ∧
        t.rd Reg.LN.RX_STAT.ACQ_STEP n = if s.lane n = 2 ∧ step = 9 then 8 else step) ∧
      (s.lane n = 3 → s.los n = false → t.lane n = 2 ∧ t.rd Reg.LN.RX_STAT.ACQ_STEP n = 8 ∧
        (t.rxOf n).lossAt = some t.time ∧ (t.rxOf n).taps = x.taps)) ∧
    (∀ g mse lev, s.lane n = 3 → x.discard = false → x.cut = false → s.loopsHeld n = false → s.ladderStep (courseOf n) 2 = false →
      s.flag Reg.ENG.PROG_CTRL.OWN_FFE n = false → Gives (.gradientBlockEnd n g mse lev) s fun t =>
        OnlyRegs { s with rx := t.rx } t [] ∧ (t.rxOf n).mse = mse ∧
        (s.flag Reg.LN.RX_CTRL.FFE_FREEZE n = true → (t.rxOf n).taps = x.taps) ∧
        (s.flag Reg.LN.RX_CTRL.FFE_FREEZE n = false → ∀ i < x.taps.length,
          let mu := max 8 (min 20 (s.rd Reg.LN.FFE_CTRL.MU_TRK n))
          let leak := s.rd Reg.LN.FFE_CTRL.LEAK n
          let c := x.taps.getD i 0 - (g.getD i 0) / 2 ^ mu
          (t.rxOf n).taps.getD i 0 =
            max (-512 * 2 ^ 14) (min (511 * 2 ^ 14) (if leak = 0 then c else c - c / 2 ^ (leak + 12)))) ∧
        (s.flag Reg.LN.RX_CTRL.LEVEL_FREEZE n = false → ∀ i < x.levels.length,
          (t.rxOf n).levels.getD i 0 = x.levels.getD i 0 + (lev.getD i 0) / 2 ^ 10) ∧
        (s.flag Reg.LN.RX_CTRL.LEVEL_FREEZE n = true → (t.rxOf n).levels = x.levels)) ∧
    (∀ g mse lev, s.lane n = 3 → x.discard = true → Gives (.gradientBlockEnd n g mse lev) s fun t =>
      t = { s with rx := t.rx } ∧ t.rxOf n = { x with discard := false, cut := false }) ∧
    (∀ g mse lev, s.lane n = 3 → x.discard = false → x.cut = true → s.loopsHeld n = false →
      Gives (.gradientBlockEnd n g mse lev) s fun t => (t.rxOf n).taps = x.taps ∧ (t.rxOf n).bank = x.bank ∧
        (t.rxOf n).mse = x.mse ∧ (t.rxOf n).cut = false)

/-- R94, R95, R97, R99, R102, R103, R104, R105, R350: a survey ends with a record of the next sequence number in front of
the lane's history, and its figures show, the margins of both constellations (R57) and its latencies (R63) among them, unless
the clock recovery ends at a stop of its accumulator, which loses its lock (R82); FEC_DEGRADE rises after `DEG_N` surveys above its threshold and
raises its event. SEED_SAVE writes the lane's present adaptation and is refused outside ACTIVE, under a freeze, and with
the MRAM window closed; SEED_ERASE removes the lane's seed alone. -/
def Obligations.SurveysAndSeeds : Prop :=
  (∀ (n : LaneNo) (m : SurveyIn) (s : State), s.courseOn (courseOf n) = true → s.lane n ≠ 0 → s.laneEngineOn n = true →
    let x := s.rxOf n
    let lost := s.cdrOn n = true ∧ s.flag Reg.LN.RX_STAT.CDR_LOCK n = true ∧ s.flag Reg.LN.RX_CTRL.CDR_FREEZE n = false ∧
      (s.cdrRun n m.det m.syms).cdrAtStop n = true
    (lost → s.lane n = 3 → s.los n = false → Gives (.surveyEnd n m) s fun t =>
      t.flag Reg.LN.RX_STAT.CDR_LOCK n = false ∧ t.lane n = 2 ∧ t.rd Reg.LN.RX_STAT.ACQ_STEP n = 5) ∧
    (¬ lost → Gives (.surveyEnd n m) s fun t =>
      t.time = max s.time (x.startAt + surveyPeriod x.per) ∧ (t.rxOf n).seq = (x.seq + 1) % 2 ^ 32 ∧
      (∃ v : SurveyRec, (t.rxOf n).hist = (v :: x.hist).take 1024 ∧ v.seq = x.seq % 2 ^ 32 ∧ v.flags % 8 = s.lane n % 8 ∧
        v.cw = (s.rd Reg.LN.DEC_CW.COUNT n - x.cw0) % 2 ^ 32) ∧ t.lane n = s.lane n ∧
      (s.mode n ≠ 0 → t.rd Reg.LN.LATENCY.RX_LAT n = min 4095 m.rxLat ∧ t.rd Reg.LN.LATENCY.TX_LAT n = min 4095 m.txLat) ∧
      (s.lane n = 3 → t.flag Reg.LN.LATENCY.VALID n = true) ∧
      (s.mode n = 4 → s.rd Reg.LN.FMT_CFG.CONST n = 0 →
        let snr := snrEqOf 0 (s.rd Reg.LN.MLSE_CTRL.ALPHA1 n) (s.rd Reg.LN.MLSE_CTRL.ALPHA2 n) m.pe
        t.rd Reg.LN.RX_SNR.SNR_EQ n = snr ∧ t.rd Reg.LN.RX_SNR.SNR_MFB n = snrMfbOf 0 m.mfb ∧
        t.rd Reg.LN.CONST_ADV.MARGIN_P4 n = patternOf (max (-2048) (min 2047 ((snr : Int) - 1680))) 12 ∧
        t.rd Reg.LN.CONST_ADV.MARGIN_P6 n = patternOf (max (-2048) (min 2047 (m.other - 2090))) 12) ∧
      (s.lane n = 3 → s.mode n = 4 → s.flag Reg.LN.FMT_CFG.INNER_BYPASS n = false → s.flag Reg.LN.RX_STAT.FEC_DEG n = false →
        let cw := s.rd Reg.LN.DEC_CW.COUNT n - x.cw0
        let bits := s.rd Reg.LN.DEC_CORR.COUNT n - x.corr0 + 3 * (s.rd Reg.LN.DEC_UNCORR.COUNT n - x.uncorr0)
        let thr := s.rd Reg.LN.RX_THRESH.DEG_SET n
        0 < cw → thr % 16 * (256 * cw) < bits * 10 ^ (thr / 16) → thr % 16 ≠ 0 →
        max 1 (s.rd Reg.LN.RX_THRESH.DEG_N n) ≤ x.degUp + 1 →
        t.flag Reg.LN.RX_STAT.FEC_DEG n = true ∧ t.flag Reg.EVT.LATCH.RAISED (laneSrc n 2) = true))) ∧
  (∀ (s u : State) (r : RingNo) (e : Entry) (d : Dma) (f : Flight), Taken s .seedSave r e d u f →
    let n := f.e.target.toNat
    (u.lane n ≠ 3 ∨ u.anyFreeze n = true → Finishes (.seedSave r e d) s r f { st := .badField } fun t => t = u) ∧
    (u.lane n = 3 → u.anyFreeze n = false → u.nvmOpen = false →
      Finishes (.seedSave r e d) s r f { st := .nvmTemp } fun t => t = u) ∧
    (u.lane n = 3 → u.anyFreeze n = false → u.nvmOpen = true → Finishes (.seedSave r e d) s r f {} fun t =>
      t.regs = u.regs ∧ t.rx = u.rx ∧ (∀ k, k ≠ n → Tab.get none t.seeds k = Tab.get none u.seeds k) ∧
      ∃ v : Seed, Tab.get none t.seeds n = some v ∧ v.mode = u.mode n ∧ v.taps = (u.rxOf n).taps ∧
        v.levels = (u.rxOf n).levels ∧ v.ctle = u.rd Reg.LN.CTLE.SETTING n ∧ v.vga = u.rd Reg.LN.AGC.GAIN n ∧
        v.mainPos = (u.rxOf n).mainPos ∧ v.crcOk = true)) ∧
  (∀ (s u : State) (r : RingNo) (e : Entry) (d : Dma) (f : Flight), Taken s .seedErase r e d u f →
    let n := f.e.target.toNat
    (u.nvmOpen = false → Finishes (.seedErase r e d) s r f { st := .nvmTemp } fun t => t = u) ∧
    (u.nvmOpen = true → Finishes (.seedErase r e d) s r f {} fun t => Tab.get none t.seeds n = none ∧ t.regs = u.regs ∧
      ∀ k, k ≠ n → Tab.get none t.seeds k = Tab.get none u.seeds k))

/-! ## ADC slices and calibration (04_slices_and_calibration, 12_command_set) -/

/-- R111, R112, R114, R116, R122: the slice in CAL becomes READY with its new coefficients when its step is accepted; a READY
slice shadows the position whose slice has gone longest without a calibration, and at once a failed position; it takes
the position with its trims when the outputs agree, not before a burst has ended, and tries at most four times. While a
cause other than the want of signal stops rotation, a CAL step is abandoned and its slice goes back to the head of the
queue. A parameter is accepted by the first of four pairs that agrees, as their mean in its range; without one it is
suspect. (The rounding of a mean half away from zero and a swap that repeats only the comparison are the model's choices:
notes/assumptions/151 and 156.)

R120, R124, R127, R130, R131, R350, R351: a group that ends accepted takes the sensor's reading as its baseline and a
suspect one shows in SUSPECT and waits 1 s. CALIBRATE is refused by scope, lane state, freeze and a run in progress; a
foreground run ends with CAL_SUSPECT where anything was suspect. The band-gap freeze comes after `CHK_N` bad checks and
goes only when it is released after 16 good ones. RETIRE_MAP_CLEAR empties the lane's map and leaves its slices alone. -/
def Obligations.RotationGroupsAndTheFreeze : Prop :=
  (
  (∀ (n : LaneNo) (s : State) (i : Nat), s.flag Reg.LN.CAL_STAT.FIRST_DONE n = true → (s.calOf n).swapDue = false →
    let x := s.calOf n
    let y := s.slice n i
    (∀ m : CalStep, s.sliceIn n .cal = some i → s.calAllowed n = true → x.group = none →
      runRes (judgeRun calPars m.ms) = .accepted → bitOf (s.rd Reg.LN.CAL_STAT.PENDING n) 2 = false →
      Gives (.calStepDone n m) s fun t =>
        (t.slice n i).st = .ready ∧ (t.slice n i).calAt = s.time ∧ (t.slice n i).suspect = false ∧
        (t.slice n i).coef = takeCoefs y.coef 0 (judgeRun calPars m.ms) ++ y.coef.drop 6 ∧
        ∀ j, j ≠ i → (s.slice n j).st = .active → t.slice n j = s.slice n j) ∧
    (∀ m : CalStep, s.sliceIn n .cal = some i → s.calAllowed n = false → s.sliceIn n .shadow = none → x.group = none →
      Gives (.calStepDone n m) s fun t => (t.slice n i).st = .queued ∧ (t.calOf n).queue = i :: x.queue ∧
        t = { s with cal := t.cal }) ∧
    (s.sliceIn n .ready = some i → s.sliceIn n .shadow = none → s.adcCapture n = false →
      (∀ p ps, x.failed = p :: ps → s.shadowAllowed n true = true → Gives (.shadowStart n) s fun t =>
        (t.slice n i).st = .shadow ∧ (t.calOf n).shadowPos = p ∧ (t.calOf n).faultSwap = true ∧ t = { s with cal := t.cal }) ∧
      (∀ at_, x.failed = [] → s.shadowAllowed n false = true → x.swapAt = some at_ → Gives (.shadowStart n) s fun t =>
        (t.slice n i).st = .shadow ∧ t.time = max s.time (at_ + rotPeriod (s.rd Reg.LN.SLICE_CTRL.ROT_PER n)) ∧
        (∀ j p, s.sliceAt n (t.calOf n).shadowPos = some j → p < 64 → ∀ k, s.sliceAt n p = some k →
          (∀ q, (s.slice n q).calAt ≤ s.time) →
          (s.slice n j).calAt ≤ (s.slice n k).calAt)) ∧
      (s.shadowAllowed n true = false → exec (.shadowStart n) s = .next s)) ∧
    (s.sliceIn n .shadow = some i → s.shadowAllowed n x.faultSwap = true → s.adcCapture n = false → y.trims = none →
      (∀ ms win, runRes (judgeRun shadowPars ms) = .accepted →
        let trims := takeCoefs y.coef 6 (judgeRun shadowPars ms)
        let w := s.setSlice n i { y with trims := some trims }
        (w.shadowAgrees n i win = true → s.inBurst n = false → ∀ o, x.shadowPos < 64 → s.sliceAt n x.shadowPos = some o →
          i ∉ x.queue → Gives (.shadowCompareDone n ms win) s fun t =>
          (t.slice n i).st = .active ∧ (t.slice n i).pos = x.shadowPos ∧
          (t.slice n i).coef = (List.range 6).map (fun j => y.coef.getD j 0) ++ trims ∧
          ((t.slice n o).st = .queued ∨ (t.slice n o).st = .cal) ∧
          t.rd Reg.LN.SLICE_STAT.SWAPS n = (s.rd Reg.LN.SLICE_STAT.SWAPS n + 1) % 256 ∧
          (t.calOf n).swapAt = some s.time) ∧
        (w.shadowAgrees n i win = true → s.inBurst n = true → Gives (.shadowCompareDone n ms win) s fun t =>
          (t.calOf n).swapDue = true ∧ (t.slice n i).st = .shadow ∧
          t.rd Reg.LN.SLICE_STAT.SWAPS n = s.rd Reg.LN.SLICE_STAT.SWAPS n) ∧
        (w.shadowAgrees n i win = false → x.shadowTries < 3 → Gives (.shadowCompareDone n ms win) s fun t =>
          t.calOf n = { w.calOf n with shadowTries := x.shadowTries + 1 } ∧ t = { s with cal := t.cal })) ∧
      (∀ ms win, runRes (judgeRun shadowPars ms) = .suspect → y.run = 0 →
        (∀ q ∈ x.queue, (s.slice n q).st = .queued) → Gives (.shadowCompareDone n ms win) s fun t =>
        (t.slice n i).suspect = true ∧ (t.slice n i).trims = none ∧ ∀ j, (s.slice n j).st = .active →
          (t.slice n j).st = .active ∧ (t.slice n j).pos = (s.slice n j).pos))) ∧
  (∀ (p : Param) (m : Meas), (∀ x ∈ m.take 4, 16 * p.tol < (x.1 - x.2).natAbs) → judge p m = .suspect) ∧
  (∀ (p : Param) (m : Meas) (a b : Int), ((a - b).natAbs : Int) ≤ 16 * p.tol →
    let v := roundAway (a + b) 32
    judge p ((a, b) :: m) = if p.lo ≤ v ∧ v ≤ p.hi then .accept v else .outOfRange) ∧
  (∀ (old : List Int) (k : Nat) (js : List Judged), (takeCoefs old k js).length = js.length ∧
    ∀ i v, js[i]? = some (.accept v) → (takeCoefs old k js).getD i 0 = v)
  ) ∧ (
  (∀ (n : LaneNo) (ms : List Meas) (s : State) (g : Nat), (s.calOf n).group = some g → 1 ≤ g → g ≤ 4 →
    let js := judgeRun (groupPars g) ms
    let ok := runRes js = .accepted
    (s.groupsAllowed n = false → (s.calOf n).swapDue = false → Gives (.calGroupDone n ms) s fun t =>
      (t.calOf n).group = none ∧
      t.rd Reg.LN.CAL_STAT.SUSPECT n = s.rd Reg.LN.CAL_STAT.SUSPECT n ∧ (t.calOf n).base = (s.calOf n).base) ∧
    (s.groupsAllowed n = true → s.rd Reg.LN.CAL_STAT.SUSPECT n < 64 → (s.calOf n).base.length = 4 →
      (s.calOf n).notBefore.length = 4 → (g = 2 → exec (.calGroupDone n ms) s = .next s) ∧
      (g ≠ 2 → Gives (.calGroupDone n ms) s fun t =>
      (t.calOf n).groupCoef.getD (g - 1) [] = takeCoefs ((s.calOf n).groupCoef.getD (g - 1) []) 0 js ∧
      (ok → (t.calOf n).base.getD (g - 1) 0 = s.convTemp (courseOf n) ∧
        bitOf (t.rd Reg.LN.CAL_STAT.SUSPECT n) g = false) ∧
      (¬ ok → (t.calOf n).base = (s.calOf n).base ∧ bitOf (t.rd Reg.LN.CAL_STAT.SUSPECT n) g = true ∧
        (t.calOf n).notBefore.getD (g - 1) 0 = s.time + 1000000000)))) ∧
  (∀ (s u : State) (r : RingNo) (e : Entry) (d : Dma) (f : Flight), Taken s .calibrate r e d u f →
    let n := f.e.target.toNat
    let scope := opByte f.e 16
    let frozen := u.flag Reg.GLB.BG_STAT.FREEZE = true
    (1 < scope ∨ (scope = 0 ∧ u.lane n ≠ 5) → Finishes (.calibrate r e d) s r f { st := .badField } fun t => t = u) ∧
    ((scope = 1 ∨ (scope = 0 ∧ u.lane n = 5)) → frozen →
      Finishes (.calibrate r e d) s r f { st := .calSuspect } fun t => t = u) ∧
    (scope = 0 → u.lane n = 5 → ¬ frozen → (u.calOf n).foreground ≠ none →
      Finishes (.calibrate r e d) s r f { st := .inUse } fun t => t = u) ∧
    (scope = 0 → u.lane n = 5 → ¬ frozen → (u.calOf n).foreground = none → (u.calOf n).swapDue = false →
      Gives (.calibrate r e d) s fun t => (t.calOf n).foreground = some (.host r f.fid) ∧ (t.txOf n).cal = true ∧ t.out = u.out) ∧
    (scope = 1 → ¬ frozen → 0 < u.spares n → Finishes (.calibrate r e d) s r f
      { r0 := if opBits f.e 17 0 4 = 0 then 15 else opBits f.e 17 0 4 } fun t => t.lane n = u.lane n)) ∧
  (∀ (n : LaneNo) (slices groups : List (List Meas)) (s : State) (o : Origin), (s.calOf n).foreground = some o →
    let bad := (∃ g < 5, runRes (judgeRun (groupPars (g + 1)) (groups.getD g [])) ≠ .accepted) ∨
      ∃ i < 68, (s.slice n i).st ≠ .retired ∧ runRes (judgeRun (calPars ++ shadowPars) (slices.getD i [])) ≠ .accepted
    ∃ out : Res, (bad → out.st = .calSuspect) ∧ (¬ bad → out.st = .ok) ∧
      EndsWith (.foregroundCalDone n slices groups) s o out fun t =>
      (t.calOf n).foreground = none ∧ (t.txOf n).cal = false ∧ t.flag Reg.LN.SLICE_STAT.FG_DUE n = false ∧
      out.r0 = t.rd Reg.LN.CAL_STAT.SUSPECT n) ∧
  (∀ (r0 r1 : Nat) (s : State), s.coreOn = true → s.coreRuns 7 = true →
    let f := s.bgFused
    let d := fun (r : Nat) => (r - f) + (f - r)
    let high := 4 * f < 1000 * d r0 ∨ 4 * f < 1000 * d r1
    let low := 1000 * d r0 ≤ 3 * f ∧ 1000 * d r1 ≤ 3 * f
    Gives (.bandgapCheck r0 r1) s fun t =>
      t.rd Reg.GLB.BG_STAT.D_SC0 = min 4095 (100000 * d r0 / f) ∧
      t.rd Reg.GLB.BG_STAT.D_SC1 = min 4095 (100000 * d r1 / f) ∧
      (t.flag Reg.GLB.BG_STAT.SC_DISAGREE = true ↔ f < 1000 * ((d r0 - d r1) + (d r1 - d r0))) ∧
      (t.flag Reg.GLB.BG_STAT.RELEASE_OK = true ↔ low ∧ 15 ≤ s.bgLow) ∧
      (s.flag Reg.GLB.BG_STAT.FREEZE = true → t.flag Reg.GLB.BG_STAT.FREEZE = true) ∧
      (high → max 1 (s.rd Reg.GLB.BG_CTRL.CHK_N) ≤ s.bgHigh + 1 → t.flag Reg.GLB.BG_STAT.FREEZE = true ∧
        (s.flag Reg.GLB.BG_STAT.FREEZE = false → t.flag Reg.EVT.LATCH.RAISED 1 = true)) ∧
      (¬ high → s.flag Reg.GLB.BG_STAT.FREEZE = false → t.flag Reg.GLB.BG_STAT.FREEZE = false ∧ t.bgHigh = 0)) ∧
  (∀ s : State, s.coreOn = true →
    (s.flag Reg.GLB.BG_STAT.RELEASE_OK = false → exec .bandgapRelease s = .next (s.setShadow 0 none)) ∧
    (s.flag Reg.GLB.BG_STAT.RELEASE_OK = true → s.flag Reg.GLB.BG_STAT.FREEZE = true → Gives .bandgapRelease s fun t =>
      t.flag Reg.GLB.BG_STAT.FREEZE = false)) ∧
  (∀ (s u : State) (r : RingNo) (e : Entry) (d : Dma) (f : Flight), Taken s .retireMapClear r e d u f →
    (u.nvmOpen = false → Finishes (.retireMapClear r e d) s r f { st := .nvmTemp } fun t => t = u) ∧
    (u.nvmOpen = true → Finishes (.retireMapClear r e d) s r f {} fun t =>
      Tab.get [] t.retire f.e.target.toNat = [] ∧ t.cal = u.cal ∧ t.regs = u.regs ∧
      ∀ k, k ≠ f.e.target.toNat → Tab.get [] t.retire k = Tab.get [] u.retire k))
  )

/-! ## Line formats (02_line_formats) -/

/-- R40, R41, R45, R46, R47, R48, R49, R52, R53, R60, R61, R101: an aligned lane counts a matched APB with a wrong CRC and keeps
lock, takes the fields of a correct one, and loses alignment at the fourth position in a row without a match; the third
match in a row with a correct CRC among them aligns it. A codeword is counted and its decoded information bits are
delivered, or the hard decisions of an uncorrectable one; with bypass nothing is corrected or counted. Outer codewords
are counted by their errors, held while frozen, and cleared together. A codeword made of information bits holds them;
the receive maps give back the bits the PAM4 and PAM6 maps were given, and undone precoding the levels. -/
def Obligations.AlignmentCodewordsAndOuterCounts : Prop :=
  (∀ (n : LaneNo) (syms : List RxSym) (at_ : ApbAt) (s : State), (s.mode n = 4 ∨ s.mode n = 5) →
    (s.lane n = 2 ∨ s.lane n = 3 ∨ s.lane n = 5) → at_.expected = true → s.rd Reg.LN.PRBS_CTRL.LOOP n ≠ 2 →
    let x := s.rxOf n
    let bits := bitsNat (((s.lineBits n syms).drop at_.ofs).take 256)
    let aligned := s.flag Reg.LN.FMT_STAT.ALIGNED n = true
    (aligned → am0Match bits = true → apbCrcOk bits = false → Gives (.apbReceived n syms at_) s fun t =>
      t.rd Reg.LN.APB_CNT.CRC_ERR n = min (s.rd Reg.LN.APB_CNT.CRC_ERR n + 1) 65535 ∧ (t.rxOf n).amMiss = 0 ∧
      OnlyRegs { s with rx := t.rx } t [Reg.LN.APB_CNT.CRC_ERR.key n 0]) ∧
    (aligned → am0Match bits = true → apbCrcOk bits = true → Gives (.apbReceived n syms at_) s fun t =>
      t.rd Reg.LN.FMT_STAT.FAR_LANE n = apbField bits 80 8 % 64 ∧ t.rd Reg.LN.FMT_STAT.FAR_CONST n = apbField bits 80 8 / 64 ∧
      t.rd Reg.LN.FMT_STAT.FAR_DEGRADE n = apbField bits 88 8 / 2 % 2 ∧ (t.rxOf n).fcount = apbField bits 64 16 ∧
      t.flag Reg.LN.FMT_STAT.ALIGNED n = true ∧ NoRaise s t) ∧
    (aligned → am0Match bits = false → x.amMiss < 3 → Gives (.apbReceived n syms at_) s fun t =>
      t = { s with rx := t.rx } ∧ t.rxOf n = { x with amMiss := x.amMiss + 1 }) ∧
    (aligned → am0Match bits = false → 3 ≤ x.amMiss → Gives (.apbReceived n syms at_) s fun t =>
      t.flag Reg.LN.FMT_STAT.ALIGNED n = false ∧ t.flag Reg.LN.RX_STAT.FRAME_LOCK n = false ∧
      t.rd Reg.LN.APB_CNT.ALIGN_LOSS n = min (s.rd Reg.LN.APB_CNT.ALIGN_LOSS n + 1) 255 ∧
      (s.lane n = 3 → t.lane n = 2)) ∧
    (∀ a b : Bool, ¬ aligned → am0Match bits = true → apbCrcOk bits = true → x.amRun = [a, b] →
      Gives (.apbReceived n syms at_) s fun t => t.flag Reg.LN.FMT_STAT.ALIGNED n = true ∧
        t.flag Reg.LN.RX_STAT.FRAME_LOCK n = true ∧ t.lane n = s.lane n) ∧
    (¬ aligned → am0Match bits = true → x.amRun = [] → Gives (.apbReceived n syms at_) s fun t =>
      t.flag Reg.LN.FMT_STAT.ALIGNED n = false ∧ (t.rxOf n).amRun = [apbCrcOk bits])) ∧
  (∀ (n : LaneNo) (llr : List Int) (std : Option Nat) (s : State), s.lane n = 3 →
    s.flag Reg.LN.RX_STAT.FRAME_LOCK n = true → s.mode n = 4 → (s.rxOf n).bobbin.length < 3 →
    s.rd Reg.LN.PRBS_CTRL.LOOP n ≠ 2 →
    let v := (llr.map fun (x : Int) => softValue (s.rd Reg.LN.MLSE_CTRL.SOFT_SCALE n) x).take 256
    let hard := hardWord (llr.take 256) s.free
    let l := if s.ladderStep (courseOf n) 3 then 4 else 6
    (s.flag Reg.LN.FMT_CFG.INNER_BYPASS n = true → Gives (.codewordDecode n llr std) s fun t =>
      (t.rxOf n).bobbin = (s.rxOf n).bobbin ++ [hard / 65536] ∧ t.regs = s.regs ∧ t.out = s.out) ∧
    (s.flag Reg.LN.FMT_CFG.INNER_BYPASS n = false → Gives (.codewordDecode n llr std) s fun t =>
      t.rd Reg.LN.DEC_CW.COUNT n = min (s.rd Reg.LN.DEC_CW.COUNT n + 1) (2 ^ 64 - 1) ∧ t.out = s.out ∧
      (∀ c, chaseDecode v hard l = some c → (t.rxOf n).bobbin = (s.rxOf n).bobbin ++ [c / 65536] ∧
        t.rd Reg.LN.DEC_CORR.COUNT n = min (s.rd Reg.LN.DEC_CORR.COUNT n + wordDistance c hard) (2 ^ 64 - 1) ∧
        t.rd Reg.LN.DEC_UNCORR.COUNT n = s.rd Reg.LN.DEC_UNCORR.COUNT n) ∧
      (chaseDecode v hard l = none → (t.rxOf n).bobbin = (s.rxOf n).bobbin ++ [hard / 65536] ∧
        t.rd Reg.LN.DEC_CORR.COUNT n = s.rd Reg.LN.DEC_CORR.COUNT n ∧
        t.rd Reg.LN.DEC_UNCORR.COUNT n = min (s.rd Reg.LN.DEC_UNCORR.COUNT n + 1) (2 ^ 64 - 1)))) ∧
  (∀ w, isCodeword w = true → laceAlgebraic w = some w) ∧
  (∀ info, info < 2 ^ 240 → laceEncode info / 2 ^ 16 = info ∧ laceEncode info < 2 ^ 256) ∧
  (∀ (xs : List Nat) (y : Nat), (∀ x ∈ xs, x < 4) → unprecode (precode xs y).1 (y % 4) = xs ∧
    (precode xs y).1.length = xs.length) ∧
  (∀ bits : List Bool, ((mapBits 0 bits).1.flatMap grayBits) ++ (mapBits 0 bits).2 = bits ∧
    ((mapBits 1 bits).2.length < 5 ∧
      pam6Demap ((mapBits 1 bits).1.map fun l => ⟨l, 0⟩) ++ (mapBits 1 bits).2 = bits)) ∧
  (∀ (k : HostLaneNo) (m : MarkerAt) (s : State), s.rd Reg.HL.STAT.STATE k = 3 → k.val % 2 = 1 → s.mode (k / 2) = 4 →
    s.flag Reg.LN.FMT_STAT.HOST_A_ALIGNED (k / 2) = true → Gives (.hostAlignmentMarkerLock k true m) s fun t =>
      let p := (s.txOf (k / 2)).path
      let q := (t.txOf (k / 2)).path
      t.flag Reg.LN.FMT_STAT.HOST_B_ALIGNED (k / 2) = true ∧
      (m.skew.natAbs ≤ 512 → t.rd Reg.LN.FMT_STAT.DESKEW (k / 2) = m.skew.natAbs ∧
        t.flag Reg.LN.FMT_STAT.SKEW_OVR (k / 2) = false ∧
        (s.flag Reg.LN.FMT_STAT.HOST_B_ALIGNED (k / 2) = false →
          (q.skipA : Int) - q.skipB = p.skipA - p.skipB + (s.hostOf (2 * (k / 2))).rsOfs - m.ofs - 10 * m.skew)) ∧
      (512 < m.skew.natAbs → t.rd Reg.LN.FMT_STAT.DESKEW (k / 2) = 0 ∧ t.flag Reg.LN.FMT_STAT.SKEW_OVR (k / 2) = true)) ∧
  (∀ (n : LaneNo) (s : State), s.flag Reg.LN.FMT_CFG.OCM_EN n = true →
    (∀ lock, (s.lane n = 2 ∨ s.lane n = 3 ∨ s.lane n = 5) → Gives (.ocmCodewordLock n lock) s fun t =>
      t.flag Reg.LN.FMT_STAT.OCM_LOCK n = (lock && s.flag Reg.LN.RX_STAT.FRAME_LOCK n) ∧ OnlyRegs s t [Reg.LN.FMT_STAT.OCM_LOCK.key n 0]) ∧
    (∀ errs, s.flag Reg.LN.FMT_STAT.OCM_LOCK n = true → s.flag Reg.LN.RX_STAT.FRAME_LOCK n = true →
      s.flag Reg.LN.OCM_CTRL.FREEZE n = false →
      Gives (.ocmCodeword n errs) s fun t =>
        t.rd Reg.LN.OCM_CW.COUNT n = (s.rd Reg.LN.OCM_CW.COUNT n + 1) % 2 ^ 64 ∧
        (errs ≤ 15 → t.rd Reg.LN.OCM_SYM.COUNT n = (s.rd Reg.LN.OCM_SYM.COUNT n + errs) % 2 ^ 64 ∧
          t.rd Reg.LN.OCM_UNCORR.COUNT n = s.rd Reg.LN.OCM_UNCORR.COUNT n % 2 ^ 64) ∧
        (15 < errs → t.rd Reg.LN.OCM_SYM.COUNT n = s.rd Reg.LN.OCM_SYM.COUNT n % 2 ^ 64 ∧
          t.rd Reg.LN.OCM_UNCORR.COUNT n = (s.rd Reg.LN.OCM_UNCORR.COUNT n + 1) % 2 ^ 64)) ∧
    (∀ errs, s.flag Reg.LN.FMT_STAT.OCM_LOCK n = true → s.flag Reg.LN.RX_STAT.FRAME_LOCK n = true →
      s.flag Reg.LN.OCM_CTRL.FREEZE n = true →
      Gives (.ocmCodeword n errs) s fun t => t = { s with rx := t.rx } ∧
        (t.rxOf n).ocmHeld.getD 0 0 = (s.rxOf n).ocmHeld.getD 0 0 + 1)) ∧
  (∀ (n : LaneNo) (s : State), s.coreOn = true → s.courseD (courseOf n) = true → s.laneInTest n = false →
    (Gives (.ocmClear n) s fun t => t.rd Reg.LN.OCM_CW.COUNT n = 0 ∧ t.rd Reg.LN.OCM_SYM.COUNT n = 0 ∧
      t.rd Reg.LN.OCM_UNCORR.COUNT n = 0 ∧ t.rd Reg.LN.OCM_HIST.BIN_1_3 n = 0 ∧ t.rd Reg.LN.OCM_HIST.BIN_12_15 n = 0) ∧
    (Gives (.ocmFreeze n true) s fun t => t.flag Reg.LN.OCM_CTRL.FREEZE n = true ∧
      OnlyRegs (s.setShadow 0 none) t [Reg.LN.OCM_CTRL.FREEZE.key n 0]) ∧
    Gives (.ocmFreeze n false) s fun t => t.flag Reg.LN.OCM_CTRL.FREEZE n = false ∧ (t.rxOf n).ocmHeld = [] ∧
      t.rd Reg.LN.OCM_CW.COUNT n = (s.rd Reg.LN.OCM_CW.COUNT n + (s.rxOf n).ocmHeld.getD 0 0) % 2 ^ 64)

/-! ## Host lanes and test patterns (08_host_lanes, 05_line_transmit) -/

/-- R154, R220, R222, R223, R225, R228: training ends in DATA when both ends are ready, fails and is counted at TIMEOUT, and
starts afresh 1 ms later or at RESTART. SIG_LOCK follows the PLL, LOS, the CDR and DATA, and each change sets the lane's
QUAD_CHG bit. A TX_EQ write changes one tap unless training is on or the magnitudes would exceed 128. A checker counts
errors while it is locked, and its count is cleared by command; an injected error goes out where the generator drives. -/
def Obligations.HostLanesAndPatterns : Prop :=
  (∀ (k : HostLaneNo) (s : State), (s.hostOf k).training = true → s.rd Reg.HL.STAT.STATE k = 2 →
    let x := s.hostOf k
    (∀ a : HostAns, x.restartAt = none → Gives (.hostTrainReady k a) s fun t => t.rd Reg.HL.STAT.STATE k = 3 ∧
      t.rd Reg.HL.TRAIN_STAT.RESULT k = 2 ∧ (t.hostOf k).training = false ∧
      t.rd Reg.HL.TRAIN_STAT.LAST_TIME k = min 65535 ((s.time - x.trainAt) / 1000000) ∧
      t.flag Reg.HL.STAT.PRE_TX_ON k = a.precodeTx ∧
      (128 < absSum a.taps → (t.hostOf k).taps = x.taps)) ∧
    (x.restartAt = none → Gives (.hostTrainTimeout k) s fun t => t.rd Reg.HL.TRAIN_STAT.RESULT k = 3 ∧
      t.rd Reg.HL.TRAIN_STAT.ATTEMPTS k = min (s.rd Reg.HL.TRAIN_STAT.ATTEMPTS k + 1) 255 ∧
      t.time = max s.time (x.trainAt + max 1 (s.rd Reg.HL.TRAIN_CTRL.TIMEOUT k) * 10000000) ∧
      (t.hostOf k).restartAt = some (t.time + 1000000) ∧ t.rd Reg.HL.STAT.STATE k = 2) ∧
    (∀ at_, x.restartAt = some at_ → Gives (.hostTrainTimeout k) s fun t => t.rd Reg.HL.TRAIN_STAT.RESULT k = 1 ∧
      (t.hostOf k).restartAt = none ∧ (t.hostOf k).trainAt = t.time ∧ t.time = max s.time at_)) ∧
  (∀ (k : HostLaneNo) (s : State), s.coreOn = true → s.hostLaneOn k = true → s.inTest (8 + k / 32) = false →
    (2 ≤ s.rd Reg.HL.STAT.STATE k → s.flag Reg.HL.TRAIN_CTRL.EN k = true → s.mode (k / 2) ≠ 1 →
      Gives (.hostTrainRestart k) s fun t => t.rd Reg.HL.STAT.STATE k = 2 ∧ (t.hostOf k).training = true ∧
        t.rd Reg.HL.TRAIN_STAT.ATTEMPTS k = s.rd Reg.HL.TRAIN_STAT.ATTEMPTS k) ∧
    ((s.rd Reg.HL.STAT.STATE k < 2 ∨ s.flag Reg.HL.TRAIN_CTRL.EN k = false) →
      exec (.hostTrainRestart k) s = .next (s.setShadow 0 none)) ∧
    (∀ v : Word, s.flag Reg.HL.TRAIN_CTRL.EN k = true → Gives (.txEqWrite k v) s fun t =>
      t.flag Reg.HL.STAT.EQ_REJECT k = true ∧ OnlyRegs (s.setShadow 0 none) t [Reg.HL.STAT.EQ_REJECT.key k 0]) ∧
    (∀ v : Word, s.flag Reg.HL.TRAIN_CTRL.EN k = false → bitOf v.toNat 31 = true → (s.hostOf k).taps.length = 7 →
      let i := v.toNat % 8
      let new := ((s.hostOf k).taps.take i ++ [signedOf (bitsOf v.toNat 8 8) 8] ++ (s.hostOf k).taps.drop (i + 1)).take 7
      Gives (.txEqWrite k v) s fun t => t.rd Reg.HL.TX_EQ.INDEX k = i ∧
        (absSum new ≤ 128 → (t.hostOf k).taps = new) ∧
        (128 < absSum new → (t.hostOf k).taps = (s.hostOf k).taps ∧ t.flag Reg.HL.STAT.EQ_REJECT k = true))) ∧
  (∀ (k : HostLaneNo) (los cdr : Bool) (s : State), s.quadOn (k / 32) = true →
    s.flag Reg.HL.QUAD_STAT.PLL_LOCK (k / 32) = true → s.rd Reg.HL.STAT.STATE k = 3 →
    Gives (.sigLockChange k true los cdr) s fun t => t.flag Reg.HL.STAT.LOS k = los ∧
      t.flag Reg.HL.STAT.SIG_LOCK k = (cdr && !los) ∧
      ((cdr && !los) ≠ s.flag Reg.HL.STAT.SIG_LOCK k → t.flag Reg.HL.QUAD_CHG.LANE (k / 32) (k % 32) = true ∧
        (s.anyChg = false → t.flag Reg.EVT.LATCH.RAISED 2 = true)) ∧
      ((cdr && !los) = s.flag Reg.HL.STAT.SIG_LOCK k → NoRaise s t)) ∧
  (∀ (n : LaneNo) (s : State), s.coreOn = true → s.courseD (courseOf n) = true → s.laneInTest n = false →
    (Gives (.prbsInjOne (.line n)) s fun t =>
      if s.flag Reg.LN.PRBS_CTRL.GEN_EN n = true ∧ s.rd Reg.LN.PRBS_CTRL.LOOP n ≠ 2 then
        (t.txOf n).path = { (s.txOf n).path with inject := true } ∧ t.out = s.out ++ [.injectBit 0 n] ∧ t.regs = s.regs
      else t = s.setShadow 0 none) ∧
    (Gives (.prbsErrClear (.line n)) s fun t => t.rd Reg.LN.PRBS_ERR.COUNT n = 0 ∧
      OnlyRegs (s.setShadow 0 none) t [Reg.LN.PRBS_ERR.COUNT.key n 0])) ∧
  (∀ (n : LaneNo) (count bits : Nat) (s : State), s.flag Reg.LN.PRBS_CTRL.CHK_EN n = true → s.lane n = 5 →
    s.rd Reg.LN.PRBS_CTRL.CHK_PAT n < 6 →
    let d := patDegree (s.rd Reg.LN.PRBS_CTRL.CHK_PAT n)
    let q := chkRun d (prbsNext d) (natBits count bits) (s.flag Reg.LN.PRBS_CTRL.CHK_LOCK n) (s.chkOf n)
    Gives (.checkerLock (.line n) count bits) s fun t =>
      t.flag Reg.LN.PRBS_CTRL.CHK_LOCK n = q.1 ∧ t.chkOf n = q.2.1 ∧
      t.rd Reg.LN.PRBS_ERR.COUNT n = min (s.rd Reg.LN.PRBS_ERR.COUNT n + q.2.2) (2 ^ Reg.LN.PRBS_ERR.COUNT.w - 1) ∧
      OnlyRegs { s with chk := t.chk } t [Reg.LN.PRBS_CTRL.CHK_LOCK.key n 0, Reg.LN.PRBS_ERR.COUNT.key n 0]) ∧
  (∀ (d : Nat) (next : Nat → Bool) (bits : List Bool) (x : ChkX), (chkRun d next bits false x).2.2 = 0 ∨
    ∃ k < bits.length, (chkRun d next (bits.take k) false x).1 = true) ∧
  (∀ (k : HostLaneNo) (count bits : Nat) (s : State), s.coreOn = true → s.hostLaneOn k = true →
    s.inTest (8 + k / 32) = false →
    (Gives (.prbsInjOne (.host k)) s fun t =>
      t = if s.flag Reg.HL.PRBS_CTRL.GEN_EN k = true ∧ s.rd Reg.HL.PRBS_CTRL.LOOP k ≠ 2 then
        (s.setShadow 0 none).injectHost k else s.setShadow 0 none) ∧
    (Gives (.prbsErrClear (.host k)) s fun t => t.rd Reg.HL.PRBS_ERR.COUNT k = 0 ∧
      OnlyRegs (s.setShadow 0 none) t [Reg.HL.PRBS_ERR.COUNT.key k 0]) ∧
    (s.flag Reg.HL.PRBS_CTRL.CHK_EN k = true → s.lane (k / 2) = 5 → s.rd Reg.HL.STAT.STATE k = 3 →
      let c := checkPattern s (.host k)
      Gives (.checkerLock (.host k) count bits) s fun t => t.flag Reg.HL.PRBS_CTRL.CHK_LOCK k =
          (chkRun c.1 c.2 (natBits count bits) (s.flag Reg.HL.PRBS_CTRL.CHK_LOCK k) (s.chkOf (64 + k))).1 ∧
        OnlyRegs { s with chk := t.chk } t [Reg.HL.PRBS_CTRL.CHK_LOCK.key k 0, Reg.HL.PRBS_ERR.COUNT.key k 0])) ∧
  (∀ (i : Fin 8) (count bits : Nat) (s : State), s.coreOn = true → s.pwr.flkOn = true →
    (Gives (.prbsInjOne (.filkor i)) s fun t =>
      t = if s.flag Reg.FLK.PRBS_CTRL.GEN_EN i = true ∧ s.rd Reg.FLK.PRBS_CTRL.LOOP i ≠ 2 then
        (s.setShadow 0 none).emit (.injectBit 2 i) else s.setShadow 0 none) ∧
    (Gives (.prbsErrClear (.filkor i)) s fun t => t.rd Reg.FLK.PRBS_ERR.COUNT i = 0 ∧
      OnlyRegs (s.setShadow 0 none) t [Reg.FLK.PRBS_ERR.COUNT.key i 0]) ∧
    (s.flag Reg.FLK.PRBS_CTRL.CHK_EN i = true →
      let c := checkPattern s (.filkor i)
      Gives (.checkerLock (.filkor i) count bits) s fun t => t.flag Reg.FLK.PRBS_CTRL.CHK_LOCK i =
          (chkRun c.1 c.2 (natBits count bits) (s.flag Reg.FLK.PRBS_CTRL.CHK_LOCK i) (s.chkOf (192 + i))).1 ∧
        OnlyRegs { s with chk := t.chk } t [Reg.FLK.PRBS_CTRL.CHK_LOCK.key i 0, Reg.FLK.PRBS_ERR.COUNT.key i 0]))

/-! ## The mortar (07_mortar) -/

/-- R197, R198, R200, R201, R204, R207, R210, R213: a survey shows the lowest mean of the active buffers, rounded down and
saturating, and the buffer that has it; CUR below FLOOR raises SLACK_LOW. A course without an active buffer reports VALID
0 with CUR at 255 and its conditions clear. A dropped block is counted in the direction of its data, discards the gradient
block, forces SLACK_CRIT and is replaced by fill. Every 10 ms an advice is formed, a multiple of 5 mV no course's limits
forbid. A lost pulse shows, and XING_LOST is raised when the first one does. -/
def Obligations.SlackDropsAdviceAndPulses : Prop :=
  (∀ (c : CourseNo) (s : State), s.courseD c = true →
    (∀ bufs : List BufBlocks, (∀ b : Fin 48, s.bufActive c b = false ∧ (s.bufOf c b).low = none) → Gives (.slackSurvey c bufs) s fun t =>
      t.rd Reg.CRS.SLACK.CUR c = 255 ∧ t.flag Reg.CRS.SLACK.VALID c = false ∧ t.flag Reg.CRS.SLACK.LOW c = false ∧
      t.flag Reg.CRS.SLACK.CRIT c = false ∧ NoRaise s t) ∧
    (∀ (b : BufBlocks) (mean : Nat), s.bufActive c b.buf = true → (s.mortarOf c).spoiled = false →
      (((s.bufOf c b.buf).passAll b.busy).low = some mean) →
      (∀ (k : Fin 48) (v : Nat), k ≠ b.buf →
        (s.bufOf c k).low.or (if s.bufActive c k = true then (s.bufOf c k).mean else none) = some v →
        mean < v ∨ (mean = v ∧ b.buf.val < k.val)) →
      let cur := min 255 (mean / 256)
      let floor := max 8 (s.rd Reg.CRS.SLACK_CFG.FLOOR c)
      Gives (.slackSurvey c [b]) s fun t => t.rd Reg.CRS.SLACK.CUR c = cur ∧ t.rd Reg.CRS.SLACK.SRC c = b.buf.val ∧
        t.flag Reg.CRS.SLACK.VALID c = true ∧ t.rd Reg.CRS.SLACK.MIN c = min cur (s.rd Reg.CRS.SLACK.MIN c) % 256 ∧
        (cur < floor → t.flag Reg.CRS.SLACK.LOW c = true ∧
          (s.flag Reg.CRS.SLACK.LOW c = false → t.flag Reg.EVT.LATCH.RAISED (courseSrc c 0) = true)) ∧
        (floor ≤ cur → cur < floor + 4 → t.flag Reg.CRS.SLACK.LOW c = s.flag Reg.CRS.SLACK.LOW c ∧
          (t.mortarOf c).lowRun = 0) ∧
        (floor + 4 ≤ cur → t.flag Reg.CRS.SLACK.LOW c =
          (s.flag Reg.CRS.SLACK.LOW c && decide ((s.mortarOf c).lowRun < 3))) ∧
        (mean < 2048 → t.flag Reg.CRS.SLACK.CRIT c = true))) ∧
  (∀ (x : BufX) (busy : Nat), (x.pass busy).figures = (if busy + x.backlog ≤ 1024 then 1024 - busy else 0) :: x.figures.take 63 ∧
    (x.pass busy).backlog = min 2048 (x.backlog + busy - 1024) ∧
    ((x.pass busy).held = true ↔ x.held = true ∨ 1024 < x.backlog + busy)) ∧
  (∀ (c : CourseNo) (k : BufBlocks) (s : State), s.bufActive c k.buf = true →
    let b := k.buf
    let n := bufLane c b
    let y := (s.bufOf c b).passAll k.busy
    (y.backlog < 2048 → Gives (.blockDrop c k false) s fun t => t.bufOf c b = y ∧ t.regs = s.regs ∧ t.out = s.out) ∧
    (∀ rate, (rate = true ∨ 2048 ≤ y.backlog) → (s.mode n = 2 ∨ s.mode n = 1) → Gives (.blockDrop c k rate) s fun t =>
      let w := if s.mode n = 1 then 256 else 120
      t.flag Reg.CRS.SLACK.CRIT c = true ∧ (t.rxOf n).discard = true ∧ (t.mortarOf c).dropped = true ∧
      (t.bufOf c b).backlog = y.backlog - 1024 ∧
      (s.flag Reg.CRS.SLACK.CRIT c = false → RaisesEvent s t (courseSrc c 1) 0) ∧
      (bufRx b = true → t.rd Reg.LN.MORTAR_DROP.RX_BLOCKS n = min (s.rd Reg.LN.MORTAR_DROP.RX_BLOCKS n + 1)
          (2 ^ Reg.LN.MORTAR_DROP.RX_BLOCKS.w - 1) ∧
        t.rd Reg.LN.MORTAR_DROP.TX_BLOCKS n = s.rd Reg.LN.MORTAR_DROP.TX_BLOCKS n ∧
        t.out = s.out ++ [.payload n 0 w (s.rxFill n w).1] ∧
        (t.rxOf n).fill = (prbsRun 31 w (if (s.rxOf n).fill = 0 then 1 + s.free % (2 ^ 31 - 1) else (s.rxOf n).fill)).2) ∧
      (bufRx b = false → t.rd Reg.LN.MORTAR_DROP.TX_BLOCKS n = min (s.rd Reg.LN.MORTAR_DROP.TX_BLOCKS n + 1)
          (2 ^ Reg.LN.MORTAR_DROP.TX_BLOCKS.w - 1) ∧
        t.rd Reg.LN.MORTAR_DROP.RX_BLOCKS n = s.rd Reg.LN.MORTAR_DROP.RX_BLOCKS n ∧
        t.out = s.out ∧ (b.val < 16 → (t.txOf n).path.fillDue = (s.txOf n).path.fillDue + 1))) ∧
    (∀ mean, (({ s.bufOf c b with low := none } : BufX).passAll k.busy).low = some mean → mean < 2048 →
      Gives (.runningMeanBelowCrit c b k.busy) s fun t => t.flag Reg.CRS.SLACK.CRIT c = true ∧
      (s.flag Reg.CRS.SLACK.CRIT c = false → RaisesEvent s t (courseSrc c 1) 0) ∧
      (s.flag Reg.CRS.SLACK.CRIT c = true → NoRaise s t) ∧
      OnlyRegs { s with mortar := t.mortar, raises := t.raises, held := t.held } t
        (Reg.CRS.SLACK.CRIT.key c 0 :: raiseKeys (courseSrc c 1)))) ∧
  (∀ (c : CourseNo) (s : State), s.coreOn = true → s.courseD c = true → s.inTest c = false →
    Gives (.slackMinClr 0 c) s fun t => t.rd Reg.CRS.SLACK.MIN c = 255 ∧
      OnlyRegs (s.setShadow 0 none) t [Reg.CRS.SLACK.MIN.key c 0]) ∧
  (∀ s : State, s.coreOn = true → s.coreRuns 2 = true →
    let v := s.rd Reg.GLB.AVS_MEAS.VCORE_MV
    Gives .avsAdvice s fun t => t.flag Reg.GLB.AVS_ADV.VALID = true ∧
      t.rd Reg.GLB.AVS_ADV.SEQ = (s.rd Reg.GLB.AVS_ADV.SEQ + 1) % 2 ^ Reg.GLB.AVS_ADV.SEQ.w ∧
      ((∀ c < 8, s.flag Reg.CRS.SLACK.VALID c = false) → t.rd Reg.GLB.AVS_ADV.DIR = 0 ∧
        t.rd Reg.GLB.AVS_ADV.ADV_MV = (v + 2) / 5 * 5 % 2 ^ Reg.GLB.AVS_ADV.ADV_MV.w) ∧
      (t.rd Reg.GLB.AVS_ADV.DIR = 1 → v + 5 ≤ t.rd Reg.GLB.AVS_ADV.ADV_MV ∧ t.rd Reg.GLB.AVS_ADV.ADV_MV ≤ 800) ∧
      (t.rd Reg.GLB.AVS_ADV.DIR = 2 → t.rd Reg.GLB.AVS_ADV.ADV_MV + 5 ≤ v ∧ 700 ≤ t.rd Reg.GLB.AVS_ADV.ADV_MV) ∧
      ∀ k, k ∉ [Reg.GLB.AVS_ADV.VALID, Reg.GLB.AVS_ADV.SEQ, Reg.GLB.AVS_ADV.DIR, Reg.GLB.AVS_ADV.ADV_MV,
        Reg.GLB.AVS_ADV.AT_MAX, Reg.GLB.AVS_ADV.LIMIT_COURSE].map (fun f => f.key 0 0) →
        ∀ d, Tab.get d t.regs k = Tab.get d s.regs k) ∧
  (∀ (c : CourseNo) (s : State), s.courseD c = true → Gives (.pulseLost (some c)) s fun t =>
    t.flag Reg.CRS.XING_STAT.PULSE_LOST c = true ∧
    (s.lostBits = 0 → t.flag Reg.EVT.LATCH.RAISED 16 = true ∧ t.rd Reg.EVT.STAT.LAST_SRC = 16) ∧
    (s.lostBits ≠ 0 → OnlyRegs s t [Reg.CRS.XING_STAT.PULSE_LOST.key c 0])) ∧
  (∀ s : State, s.coreOn = true → s.lostBits ≠ 0 → Gives (.pulseLost none) s fun t =>
    t.flag Reg.GLB.XING_STAT.PULSE_LOST = true ∧ OnlyRegs s t [Reg.GLB.XING_STAT.PULSE_LOST.key 0 0])

/-! ## Supervisory converters, decimation and CMIS (09_optics_bias_and_supervision, 12_command_set) -/

/-- R246, R247, R248, R249, R250, R251, R252, R253, R256, R354: conversions wait for the reference. A round writes the code
of each of its entries and counts itself, and a channel that takes its sample emits it and judges it against its limits.
A host trigger waits while one run is pending or in progress and is discarded beyond that; a system run comes first and
brings the core voltage; a host run ends with its results, and SC_INJECT completes with them.

R258, R259, R260, R355: a CMIS command is refused for another bank, a length or range it does not permit, and on a
STANDBY course; otherwise it waits for the bus, which carries one access at a time. A transaction that fails is retried
twice, and the third failure sets BUS_FAULT and completes the command with BUS_ERROR. A read that succeeds writes its bytes
to the host. A poll shows what it read, and CMIS_FLAG is raised where a flag or the module state has changed. -/
def Obligations.ConvertersDecimationAndCmis : Prop :=
  (
  (∀ (x : ScNo) (s : State), s.coreOn = true →
    let v := s.scvOf x
    (v.refOn = true → s.refReady x = false → Gives (.referenceReady x) s fun t => t.refReady x = true ∧
      (v.run = 0 → v.sysDue = true → (t.scvOf x).run = 2) ∧
      (s.scEn x = false → v.sysDue = false → v.hostWait = [] → OnlyRegs s t [Reg.SCV.STAT.REF_READY.key x 0])) ∧
    ((v.refOn = false ∨ s.refReady x = true) → exec (.referenceReady x) s = .next s) ∧
    ((s.rd Reg.SCV.INJ_CTRL.TRIG x = 1 ∨ s.rd Reg.SCV.INJ_CTRL.TRIG x = 2) →
      (v.hostWait = [] → Gives (.injectTimer x) s fun t => (t.scvOf x).hostWait = [.device] ∧ t.regs = s.regs ∧
        (v.run = 0 → v.sysDue = false → s.refReady x = true → (t.scvOf x).run = 1)) ∧
      (2 ≤ v.hostWait.length → Gives (.injectTimer x) s fun t => t.flag Reg.SCV.STAT.INJ_OVR x = true ∧
        OnlyRegs s t [Reg.SCV.STAT.INJ_OVR.key x 0])) ∧
    ((s.rd Reg.SCV.INJ_CTRL.TRIG x = 0 ∨ s.rd Reg.SCV.INJ_CTRL.TRIG x = 3) → exec (.injectTimer x) s = .next s) ∧
    (Gives (.systemInjection x) s fun t => (t.scvOf x).sysDue = true ∧ (t.scvOf x).refOn = true ∧
      (v.run = 0 → v.refOn = true → s.refReady x = true → (t.scvOf x).run = 2)) ∧
    (∀ uv entry, v.run = 2 → v.hostWait = [] → Gives (.injectedRunEnd x uv entry) s fun t =>
      (t.scvOf x).run = 0 ∧ (t.scvOf x).sysDue = false ∧
      (uv.getD 2 0 ≤ 2499000 → t.rd Reg.GLB.AVS_MEAS.VCORE_MV = (uv.getD 2 0 * 65536 / 2500000 * 2500 + 32768) / 65536)) ∧
    (∀ uv entry (o : Origin), v.run = 1 → v.hostWait = [o] → v.sysDue = false → v.refOn = true → s.scEn x = true →
      s.rd Reg.SCV.INJ_CTRL.INJ_LEN x = 0 → ∃ res : Res, res.st = .ok ∧
        EndsWith (.injectedRunEnd x uv entry) s o res fun t => res.r1 = t.injResWord x 0 ∧ (t.scvOf x).run = 0 ∧
          (t.scvOf x).hostWait = [] ∧
          let input := min 95 (s.rd Reg.SCV.INJ.INPUT x 0)
          t.rd Reg.SCV.INJ_RES.CODE x 0 = min 65535 ((if 94 ≤ input then 0 else uv.getD 0 0) *
            2 ^ (if input < 80 then s.rd Reg.SCV.IN.GAIN x input else 0) * 65536 / 2500000)) ∧
    (∀ uv entry, v.run = 0 → exec (.injectedRunEnd x uv entry) s = .next s)) ∧
  (∀ (x : ScNo) (uv : List Nat) (s : State), s.scRunning x = true → (s.scvOf x).run = 0 →
    let v := s.scvOf x
    v.force.length ≤ 128 → Gives (.scRoundEnd x uv) s fun t =>
      t.rd Reg.SCV.STAT.ROUND_CNT x = (s.rd Reg.SCV.STAT.ROUND_CNT x + 1) % 2 ^ Reg.SCV.STAT.ROUND_CNT.w ∧
      (t.scvOf x).force = s.nextForce x ∧
      (∀ (i input acq gain : Nat), v.force[i]? = some (input, acq, gain) →
        t.rd Reg.SCV.RES.CODE x i = scCode input gain (uv.getD i 0) ∧
        t.flag Reg.SCV.RES.CLIP x i = (scCode input gain (uv.getD i 0) == 0 || scCode input gain (uv.getD i 0) == 65535)) ∧
      ∀ (j i input acq gain : Nat), j / 32 = x.val → v.force[i]? = some (input, acq, gain) →
        s.flag Reg.DEC.CFG.EN j = true → (s.decOf j).src = i → (s.decOf j).filt = 0 → (s.decOf j).mlog = 0 →
        let code := scCode input gain (uv.getD i 0)
        t.rd Reg.DEC.OUT.VALUE j = code ∧ t.flag Reg.DEC.OUT.VALID j = true ∧
        ((s.decOf j).unsettled = 0 → s.rd Reg.DEC.CFG.DWELL j = 0 → s.rd Reg.DEC.THR.HI j < code →
          s.flag Reg.DEC.HYS.ABOVE j = false →
          t.flag Reg.DEC.HYS.ABOVE j = true ∧ t.flag Reg.DEC.THR_FLAG.FLAG j = true)) ∧
  (∀ (s u : State) (r : RingNo) (e : Entry) (d : Dma) (f : Flight), Taken s .scInject r e d u f →
    let x := f.e.target.toNat
    (x = 2 ∨ u.rd Reg.SCV.INJ_CTRL.TRIG x = 1 → Finishes (.scInject r e d) s r f { st := .badField } fun t => t = u) ∧
    (x ≠ 2 → u.rd Reg.SCV.INJ_CTRL.TRIG x ≠ 1 → (u.scvOf x).hostWait ≠ [] →
      Finishes (.scInject r e d) s r f { st := .inUse } fun t => t = u) ∧
    (x ≠ 2 → u.rd Reg.SCV.INJ_CTRL.TRIG x ≠ 1 → (u.scvOf x).hostWait = [] → Gives (.scInject r e d) s fun t =>
      (t.scvOf x).hostWait = [.host r f.fid] ∧ t.regs = u.regs ∧ t.out = u.out))
  ) ∧ (
  (∀ (s u : State) (r : RingNo) (e : Entry) (d : Dma) (f : Flight) (wr : Bool),
    Taken s (if wr then .cmisWrite else .cmisRead) r e d u f →
    let c := f.e.target.toNat
    let cmd : Instr := if wr then .cmisWrite r e d else .cmisRead r e d
    let ofs := opByte f.e 18
    let n := opByte f.e 19
    let bad := opByte f.e 16 ≠ 0 ∨ n = 0 ∨ (if wr then 32 else 128) < n ∨ 256 < ofs + n ∨ (ofs < 128 ∧ 128 < ofs + n) ∨
      (wr = false ∧ (op64 f.e 24 % 4 ≠ 0 ∨ 2 ^ 64 < op64 f.e 24 + n))
    (u.owns c = false → Finishes cmd s r f { st := .notOwner } fun t => t = u) ∧
    (u.owns c = true → bad → Finishes cmd s r f { st := .badField } fun t => t = u) ∧
    (u.owns c = true → ¬ bad → Gives cmd s fun t => t.regs = u.regs ∧ ∃ j : CmisJob,
      (t.cmisOf c).jobs = (u.cmisOf c).jobs ++ [j] ∧ j.write = wr ∧ j.page = opByte f.e 17 ∧ j.ofs = ofs ∧ j.n = n ∧
      j.origin = .host r f.fid ∧ (wr = true → j.data = opBytes f.e 32 n) ∧ (wr = false → j.addr = op64 f.e 24) ∧
      t.out = (if (u.cmisOf c).jobs = [] then u.out ++ [u.cmisFrame c j] else u.out))) ∧
  (∀ (c : CourseNo) (s : State), s.cmisOn c = true →
    let x := s.cmisOf c
    (x.tries < 2 → Gives (.cmisBusTimeout c) s fun t => t.cmisOf c = { x with tries := x.tries + 1 } ∧ t.regs = s.regs ∧
      (∀ j js, x.jobs = j :: js → t.out = s.out ++ [s.cmisFrame c j])) ∧
    (∀ j, 2 ≤ x.tries → x.jobs = [j] → EndsWith (.cmisBusTimeout c) s j.origin { st := .busError } fun t =>
      t.flag Reg.CRS.CMIS_STAT.BUS_FAULT c = true ∧ (t.cmisOf c).jobs = [] ∧ (t.cmisOf c).tries = 0 ∧
      OnlyRegs { s with cmis := t.cmis } t [Reg.CRS.CMIS_STAT.BUS_FAULT.key c 0]) ∧
    (2 ≤ x.tries → x.jobs = [] → Gives (.cmisBusTimeout c) s fun t => t.flag Reg.CRS.CMIS_STAT.BUS_FAULT c = true ∧
      (t.cmisOf c).tries = 0) ∧
    (∀ data j, x.jobs = [j] → j.write = true → EndsWith (.cmisAccessDone c data) s j.origin {} fun t =>
      t = { s with cmis := t.cmis } ∧ (t.cmisOf c).jobs = []) ∧
    (∀ data j, x.jobs = [j] → j.write = false → j.d.failAt = none → data.length = j.n →
      EndsWith (.cmisAccessDone c data) s j.origin {} fun t =>
        t.out = s.out ++ [.hostWrite j.addr data] ∧ (t.cmisOf c).jobs = [] ∧ t.regs = s.regs) ∧
    (∀ m : CmisSeen, s.owns c = true → s.flag Reg.CRS.CMIS_CTRL.POLL_EN c = true → x.jobs = [] →
      Gives (.cmisPoll c m) s fun t =>
        t.flag Reg.CRS.CMIS_STAT.PRESENT c = m.present ∧ t.flag Reg.CRS.CMIS_STAT.INT c = m.int ∧
        t.rd Reg.CRS.CMIS_STAT.MOD_STATE c = m.state ∧ (t.cmisOf c).modFlags = m.modFlags ∧
        (m.modFlags ≠ x.modFlags ∨ s.rd Reg.CRS.CMIS_STAT.MOD_STATE c ≠ m.state → t.flag Reg.EVT.LATCH.RAISED 3 = true ∧
          t.rd Reg.EVT.STAT.LAST_SRC = 3) ∧
        (m.modFlags = x.modFlags → m.laneFlags = x.laneFlags → s.rd Reg.CRS.CMIS_STAT.MOD_STATE c = m.state → NoRaise s t) ∧
        t.bias = s.bias) ∧
    (∀ m : CmisSeen, (x.jobs ≠ [] ∨ s.owns c = false ∨ s.flag Reg.CRS.CMIS_CTRL.POLL_EN c = false) →
      exec (.cmisPoll c m) s = .next s)) ∧
  (∀ (c : CourseNo) (s : State), s.courseD c = true → Gives (.modIntAssert c) s fun t =>
    t.flag Reg.CRS.CMIS_STAT.INT c = true ∧ (t.cmisOf c).polling = s.flag Reg.CRS.CMIS_CTRL.POLL_EN c ∧
    OnlyRegs { s with cmis := t.cmis } t [Reg.CRS.CMIS_STAT.INT.key c 0])
  )

/-! ## Field update (16_boot_security_update, 12_command_set) -/

/-- R356, R443, R447, R454, R455: UPDATE_STAGE is refused for its operands, while the hod is off, and by the lock; FIRST
takes the lock and empties the slot, and a chunk is appended in the hod. The end of a verification accepts the image,
with its version, or empties the slot and frees the lock. A twin offers an image, the device takes the lock for it or
refuses, and verifies what arrives. (That the signature of a token is judged before its fit, and that an image of
the twin arrives at once, are the model's choices: notes/assumptions/56 and 60.) -/
def Obligations.ImagesAreStagedAndVerified : Prop :=
  (∀ (s u : State) (r : RingNo) (e : Entry) (d : Dma) (f : Flight), Taken s .updateStage r e d u f →
    let n := op32 f.e 20
    let ofs := op32 f.e 16
    let first := opBits f.e 24 0 1 = 1
    let last := opBits f.e 24 1 1 = 1
    let bad := n < 4 ∨ 2 ^ 20 < n ∨ 2 ^ 25 < ofs + n ∨ addrOk (op64 f.e 32) n = false
    let lock := u.rd Reg.UPD.STAT.LOCK
    let v := u.setPhase r f.fid .running
    (bad → Finishes (.updateStage r e d) s r f { st := .badField } fun t => t = u) ∧
    (¬ bad → u.hodOn = false → Finishes (.updateStage r e d) s r f { st := .domainOff } fun t => t = u) ∧
    (¬ bad → u.hodOn = true →
      (lock = 2 ∨ (lock = 1 ∧ u.upd.lockRing ≠ some r.val) →
        Finishes (.updateStage r e d) s r f { st := .updateBusy } fun t => t = u) ∧
      (lock = 0 → u.updState < 3 → ¬ first → Finishes (.updateStage r e d) s r f { st := .badField } fun t => t = u) ∧
      (lock = 0 → u.updState = 6 → Finishes (.updateStage r e d) s r f { st := .badField } fun t => t = u) ∧
      (lock = 0 → u.updState < 3 → first → ofs = 0 → u.stagingTaken = true →
        Finishes (.updateStage r e d) s r f { st := .noSpace } fun t => t = u) ∧
      (f.d.failAt = none →
        (lock = 0 → u.updState < 3 → first → ofs = 0 → u.stagingTaken = false → ¬ last →
          Finishes (.updateStage r e d) s r f {} fun t => t.rd Reg.UPD.STAT.LOCK = 1 ∧ t.upd.lockRing = some r.val ∧
            t.rd Reg.UPD.STAT.LOCK_FN = f.fn % 2 ^ Reg.UPD.STAT.LOCK_FN.w ∧ t.updState = 1 ∧ t.upd.staged = n ∧
            t.upd.stagedInfo = none ∧ t.upd.reserved = true) ∧
        (lock = 1 → u.upd.lockRing = some r.val → u.updState = 1 → u.upd.verify = none → ¬ first → ofs = u.upd.staged →
          let w := v.hodStore (0x09000000 + ofs) (dataOf f n) []
          (¬ last → Finishes (.updateStage r e d) s r f {} fun t =>
            t = { w with upd := { w.upd with staged := ofs + n } }) ∧
          (last → Gives (.updateStage r e d) s fun t =>
            t = { w with upd := { w.upd with staged := ofs + n, verify := some (.host r f.fid) } }))))) ∧
  (∀ (ecc : List EccHit) (s : State),
    let g := s.upd.verify.getD .device
    let img := (s.stagedImage ecc).2.1
    let fail := (s.stagedImage ecc).2.2 = true ∨ imageHeaderOk img = false ∨ imageHashOk img = false ∨
      s.imageSigned img = false
    let old := numAt img 6 1 = 0 ∧ numAt img 12 1 < s.rd Reg.SEC.ARB.COUNTER
    let misfit := numAt img 6 1 ≠ 0 ∧ s.tokenOk img = false
    let given (st : Status) := EndsWith (.imageVerifyDone ecc) s g { st := st } fun t => t.updState = 0 ∧
      t.rd Reg.UPD.STAT.LOCK = 0 ∧ t.upd.staged = 0 ∧ t.upd.stagedInfo = none ∧ t.upd.reserved = false ∧
      t.rd Reg.UPD.VERSION.STAGED = 0
    (s.upd.verify = none → s.upd.verifyTwin = false → exec (.imageVerifyDone ecc) s = .next s) ∧
    ((s.upd.verify.isSome = true ∨ s.upd.verifyTwin = true) → (s.core 6).stopped = false →
      (fail → given .sigFail) ∧ (¬ fail → old → given .rollback) ∧ (¬ fail → ¬ old → misfit → given .badField) ∧
      (¬ fail → ¬ old → ¬ misfit → EndsWith (.imageVerifyDone ecc) s g { r0 := numAt img 8 4 } fun t => t.updState = 2 ∧
        t.rd Reg.UPD.VERSION.STAGED = numAt img 8 4 ∧ t.upd.stagedInfo = some (imageInfo img) ∧ t.upd.verify = none ∧
        t.rd Reg.UPD.STAT.LOCK = s.rd Reg.UPD.STAT.LOCK ∧ t.upd.staged = s.upd.staged))) ∧
  (∀ (f : FnNo) (accepted : Bool) (s : State), (f.val ≠ 0 → exec (.twinImagePush f accepted) s = .next s) ∧
    (f.val = 0 → s.coreOn = true → (s.upd.stagedInfo = none →
      exec (.twinImagePush f accepted) s = .next (s.setShadow 0 none)) ∧
      (s.upd.stagedInfo ≠ none → (s.rd Reg.FLK.STAT.LINK_STATE ≠ 5 ∨ accepted = false) →
        Gives (.twinImagePush f accepted) s fun t => t.rd Reg.UPD.STAT.PUSH_REFUSED = 1 ∧
          OnlyRegs (s.setShadow 0 none) t [Reg.UPD.STAT.PUSH_REFUSED.key 0 0]) ∧
      (s.upd.stagedInfo ≠ none → s.rd Reg.FLK.STAT.LINK_STATE = 5 → accepted = true →
        let img := (s.stagedImage []).2.1
        Gives (.twinImagePush f accepted) s fun t => t.rd Reg.UPD.PROGRESS.PERCENT = 100 ∧
          t.out = s.out ++ [.filkor "IMAGE_OFFER" img.length, .twinImage img]))) ∧
  (∀ (n : Nat) (s : State), (s.offerOk n = true → Gives (.twinImageOffer n) s fun t => t.rd Reg.UPD.STAT.LOCK = 2 ∧
      t.updState = 1 ∧ t.upd.receiving = some n ∧ t.upd.reserved = true ∧ t.upd.staged = 0 ∧
      t.out = s.out ++ [.filkor "IMAGE_ACCEPT" n]) ∧
    (s.offerOk n = false → s.linkOn = true → s.linkState = 5 → Gives (.twinImageOffer n) s fun t =>
      t.upd = s.upd ∧ t.updState = s.updState ∧ t.out = s.out ++ [.filkor "IMAGE_REFUSE" n])) ∧
  (∀ (data : List Byte) (s : State), (s.upd.receiving = none → exec (.twinImageReceived data) s = .next s) ∧
    (∀ n, s.upd.receiving = some n → Gives (.twinImageReceived data) s fun t => t.upd.receiving = none ∧
      t.upd.staged = n ∧ t.upd.verifyTwin = true ∧ t.rd Reg.UPD.PROGRESS.PERCENT = 100))

/-- R357, R443, R457, R459, R460: UPDATE_ACTIVATE is refused during an activation, trial or fallback, with no verified
image, for its window or formats, and by the lock; a firmware image starts to activate, with the lanes and bias as they
stand, and a token writes its fuses under the NVM window. Once K0 has swapped the image is in TRIAL and the command
completes. A healthy trial is confirmed by the device or, with HOST_CONFIRM, by UPDATE_CONFIRM; an expired window, a
swap beyond its bound and UPDATE_ABORT fall back. The end of a fallback runs the booted image again. -/
def Obligations.ActivationTrialAndFallback : Prop :=
  (∀ (s u : State) (r : RingNo) (e : Entry) (d : Dma) (f : Flight), Taken s .updateActivate r e d u f →
    let w := op16 f.e 16
    let v := u.setPhase r f.fid .running
    let img := (v.stagedImage []).2.1
    (3 ≤ u.updState → u.updState ≤ 5 → Finishes (.updateActivate r e d) s r f { st := .updateBusy } fun t => t = u) ∧
    (¬ (3 ≤ u.updState ∧ u.updState ≤ 5) → (u.upd.stagedInfo = none ∨ u.updState ≠ 2) →
      Finishes (.updateActivate r e d) s r f { st := .badField } fun t => t = u) ∧
    (u.updState = 2 → ∀ i, u.upd.stagedInfo = some i →
      (u.lockedOut r = true → Finishes (.updateActivate r e d) s r f { st := .updateBusy } fun t => t = u) ∧
      (u.lockedOut r = false → i.kind = 0 →
        ((w ≠ 0 ∧ w < 30) ∨ 3600 < w ∨ bitsOf u.upd.running.formats 0 8 < bitsOf i.formats 16 8 ∨
          bitsOf u.upd.running.formats 8 8 < bitsOf i.formats 24 8) →
        Finishes (.updateActivate r e d) s r f { st := .badField } fun t => t = u) ∧
      (u.lockedOut r = false → i.kind = 0 → (w = 0 ∨ (30 ≤ w ∧ w ≤ 3600)) →
        bitsOf i.formats 16 8 ≤ bitsOf u.upd.running.formats 0 8 →
        bitsOf i.formats 24 8 ≤ bitsOf u.upd.running.formats 8 8 → Gives (.updateActivate r e d) s fun t =>
          t.updState = 3 ∧ t.rd Reg.UPD.PROGRESS.SWAPPED = 0 ∧ t.rd Reg.UPD.STAT.HEALTH_OK = 0 ∧
          t.upd.activate = some (.host r f.fid, if w = 0 then 180 else w, opBits f.e 18 0 1 == 1) ∧
          t.bias = u.bias ∧ t.rx = u.rx ∧ t.tx = u.tx ∧ t.epoch = u.epoch ∧ t.out = u.out) ∧
      (u.lockedOut r = false → i.kind ≠ 0 → u.nvmOpen = false →
        Finishes (.updateActivate r e d) s r f { st := .nvmTemp } fun t => t = u) ∧
      (u.lockedOut r = false → i.kind ≠ 0 → u.nvmOpen = true → Finishes (.updateActivate r e d) s r f {} fun t =>
        t.updState = 0 ∧ t.rd Reg.UPD.STAT.LOCK = 0 ∧ t.upd.staged = 0 ∧ t.upd.running = u.upd.running ∧
        (numAt img 6 1 = 2 → t.sec.custRoot = some (cut img 104 48) ∧ t.rd Reg.SEC.LC.CUST_ROOT = 1) ∧
        (numAt img 6 1 ≠ 2 → t.sec.nextLc = some (numAt img 104 1) ∧ t.rd Reg.SEC.LC.LC_PENDING = 1 ∧ t.lc = u.lc) ∧
        (numAt img 6 1 ≠ 2 → numAt img 104 1 ≠ 2 → t.rd Reg.SEC.LC.IDENTITY_OK = 0 ∧ t.seeds = [] ∧ t.retire = [] ∧
          ∀ k < 64, Tab.get none t.sec.keys k = none)))) ∧
  (∀ s : State, (s.updState ≠ 3 ∨ s.coreRuns 0 = false → exec .activationComplete s = .next s) ∧
    (∀ g w hc i, s.updState = 3 → s.coreRuns 0 = true → s.upd.activate = some (g, w, hc) → s.upd.stagedInfo = some i →
      EndsWith .activationComplete s g {} fun t => t.updState = 4 ∧ t.upd.running = i ∧ t.upd.activate = none ∧
        t.upd.hostConfirm = hc ∧ t.upd.windowEnd = t.time + w * 1000000000 ∧ t.upd.trialStart = t.time ∧
        t.rd Reg.UPD.PROGRESS.SWAPPED = 96)) ∧
  (∀ s : State, (s.updState ≠ 4 ∨ s.trialGood = false → exec .trialHealthy s = .next s) ∧
    (s.updState = 4 → s.trialGood = true → Gives .trialHealthy s fun t =>
      t.time = max s.time (s.upd.trialStart + 2000000000) ∧
      (s.upd.hostConfirm = true → t.rd Reg.UPD.STAT.HEALTH_OK = 1 ∧ t.updState = 4 ∧ t.upd = s.upd) ∧
      (s.upd.hostConfirm = false → t.updState = 6 ∧ t.rd Reg.UPD.STAT.LOCK = 0 ∧ t.upd.lockRing = none ∧
        t.upd.dual = false ∧ t.upd.stagedInfo = s.upd.stagedInfo ∧ t.upd.running = s.upd.running))) ∧
  (∀ (s u : State) (r : RingNo) (e : Entry) (d : Dma) (f : Flight), Taken s .updateConfirm r e d u f →
    let ok := u.updState = 4 ∧ u.flag Reg.UPD.STAT.HEALTH_OK = true ∧ u.trialGood = true ∧ u.time < u.upd.windowEnd
    (¬ ok → Finishes (.updateConfirm r e d) s r f { st := .badField } fun t => t = u) ∧
    (ok → Finishes (.updateConfirm r e d) s r f { r0 := 1 } fun t => t.updState = 6 ∧ t.rd Reg.UPD.STAT.LOCK = 0 ∧
      t.upd.dual = false ∧ t.upd.hostConfirm = false ∧ t.upd.stagedInfo = u.upd.stagedInfo)) ∧
  (∀ (s u : State) (r : RingNo) (e : Entry) (d : Dma) (f : Flight), Taken s .updateAbort r e d u f →
    (u.updState = 0 ∨ 5 ≤ u.updState → Finishes (.updateAbort r e d) s r f { st := .badField } fun t => t = u) ∧
    (u.updState = 1 ∨ u.updState = 2 → u.lockedOut r = true →
      Finishes (.updateAbort r e d) s r f { st := .updateBusy } fun t => t = u) ∧
    (u.updState = 1 ∨ u.updState = 2 → u.lockedOut r = false → u.upd.verify = none →
      Finishes (.updateAbort r e d) s r f {} fun t => t.updState = 0 ∧ t.upd.staged = 0 ∧ t.upd.stagedInfo = none ∧
        t.rd Reg.UPD.STAT.LOCK = 0) ∧
    (u.updState = 4 → u.upd.activate = none → Gives (.updateAbort r e d) s fun t => t.updState = 5 ∧
      t.upd.fallback = some (.host r f.fid) ∧ t.out = u.out)) ∧
  (∀ s : State, (s.updState ≠ 4 → exec .confirmWindowExpiry s = .next s) ∧
    (s.updState = 4 → s.upd.activate = none → Gives .confirmWindowExpiry s fun t => t.updState = 5 ∧
      t.upd.fallback = some .device ∧ t.time = max s.time s.upd.windowEnd ∧ t.rd Reg.UPD.STAT.HEALTH_OK = 0)) ∧
  (∀ s : State, (s.updState ≠ 3 → exec .swapBoundExpiry s = .next s) ∧
    (∀ g w hc, s.updState = 3 → s.upd.activate = some (g, w, hc) →
      EndsWith .swapBoundExpiry s g { st := .aborted } fun t => t.updState = 5 ∧ t.upd.fallback = some .device ∧
        t.upd.activate = none)) ∧
  (∀ s : State, (s.upd.fallback = none ∨ s.coreRuns 0 = false → exec .fallbackEnd s = .next s) ∧
    (∀ g, s.upd.fallback = some g → s.coreRuns 0 = true → s.upd.fallbackBoot = false →
      EndsWith .fallbackEnd s g {} fun t => t.updState = 0 ∧ t.upd.running = s.upd.bootImage ∧ t.upd.fallback = none ∧
        t.upd.staged = 0 ∧ t.upd.stagedInfo = none ∧ t.rd Reg.UPD.STAT.LOCK = 0 ∧ t.rd Reg.UPD.STAT.LAST_FALLBACK = 1) ∧
    (∀ g i, s.upd.fallback = some g → s.coreRuns 0 = true → s.upd.fallbackBoot = true → s.upd.other = some i →
      EndsWith .fallbackEnd s g {} fun t => t.updState = 0 ∧ t.upd.running = i ∧ t.upd.bootImage = i ∧
        t.upd.bootSlot = 1 - s.upd.bootSlot ∧ t.rd Reg.SEC.BOOT_STAT.BOOT_TRIAL = 0)) ∧
  (∀ s : State, ((s.core 0).restarting = false → exec .foremanRestartDone s = .next s) ∧
    ((s.core 0).restarting = true → s.failed = [] → s.held = [] → (∀ c : CourseNo, (s.ladder c).due = false) →
      (s.updState ≠ 3 → Gives .foremanRestartDone s fun t => t = { s with cores := t.cores } ∧
        ∀ k < 8, t.core k =
          { s.core k with stopped := (s.core k).stopped && !(s.core k).restarting, restarting := false }) ∧
      (∀ g w hc, s.updState = 3 → s.upd.activate = some (g, w, hc) →
        EndsWith .foremanRestartDone s g { st := .aborted } fun t => t.updState = 5 ∧ t.upd.fallback = some .device ∧
          ∀ k < 8, t.core k =
          { s.core k with stopped := (s.core k).stopped && !(s.core k).restarting, restarting := false })))

/-- R357, R445, R462, R464: UPDATE_COMMIT needs a confirmed image and, at its start alone, the NVM window. At its end the
record names the slot written, with SEQ one more, into the other copy; a read-back that fails leaves the image staged
with no record. A healthy boot trial writes a PROVEN record and fuses ARB up, and what the window refuses is retried
later; a window that runs out falls back to a proven image or keeps the trial image. -/
def Obligations.CommitAndBootTrial : Prop :=
  (∀ (s u : State) (r : RingNo) (e : Entry) (d : Dma) (f : Flight), Taken s .updateCommit r e d u f →
    (u.updState ≠ 6 ∨ u.upd.stagedInfo = none → Finishes (.updateCommit r e d) s r f { st := .badField } fun t => t = u) ∧
    (u.updState = 6 → u.upd.stagedInfo ≠ none → u.nvmOpen = false →
      Finishes (.updateCommit r e d) s r f { st := .nvmTemp } fun t => t = u) ∧
    (u.updState = 6 → u.upd.stagedInfo ≠ none → u.nvmOpen = true → Gives (.updateCommit r e d) s fun t =>
      t.updState = 7 ∧ t.rd Reg.UPD.PROGRESS.PERCENT = 0 ∧ t.upd = { u.upd with commit := some (.host r f.fid) } ∧
      t.out = u.out)) ∧
  (∀ (good : Bool) (ecc : List EccHit) (s : State),
    (s.upd.commit = none → exec (.commitRecordWritten good ecc) s = .next s) ∧
    (∀ g i, s.upd.commit = some g → s.upd.stagedInfo = some i →
      let img := (s.stagedImage ecc).2.1
      let bad := (s.stagedImage ecc).2.2
      let kept (st : Status) := EndsWith (.commitRecordWritten good ecc) s g { st := st } fun t => t.updState = 6 ∧
        t.upd.stagedInfo = some i ∧ t.upd.record = s.upd.record ∧ t.upd.commit = none ∧ t.upd.running = s.upd.running
      (bad = true → kept .eccUncorr) ∧ (bad = false → good = false → kept .partialDone) ∧
      (∀ q, bad = false → good = true → s.upd.record = some q →
        let n : CommitRec := ⟨q.seq + 1, 1 - q.active, 1, true, i.version, i.secVer, i.imgBytes, i.hash⟩
        EndsWith (.commitRecordWritten good ecc) s g {} fun t => t.updState = 0 ∧ t.upd.record = some n ∧
          t.upd.copy = 1 - s.upd.copy ∧ t.upd.committed = true ∧ t.upd.reserved = false ∧ t.upd.stagedInfo = none ∧
          t.rd Reg.UPD.PROGRESS.PERCENT = 100 ∧ t.rd Reg.UPD.RECORD.SEQ = (q.seq + 1) % 2 ^ Reg.UPD.RECORD.SEQ.w ∧
          t.out = s.out ++ [.flash "slot" (0x02000000 * (1 - q.active)) img,
            .flash "record" (0x04000000 + 0x1000 * (1 - s.upd.copy)) (recordBytes n)]))) ∧
  (∀ s : State, (s.upd.retry = [] ∨ s.nvmOpen = false → exec .nvmWriteRetry s = .next s) ∧
    (s.nvmOpen = true → (∀ q, s.upd.retry = [.record q] → Gives .nvmWriteRetry s fun t => t.upd.retry = [] ∧
        t.upd.record = some q ∧ t.upd.copy = 1 - s.upd.copy ∧
        t.rd Reg.SEC.BOOT_STAT.TRIES = if q.active = s.activeSlot then 0 else s.rd Reg.SEC.BOOT_STAT.TRIES) ∧
      (∀ v, s.upd.retry = [.arb v] → Gives .nvmWriteRetry s fun t => t.upd = { s.upd with retry := [] } ∧
        t.rd Reg.SEC.ARB.COUNTER = max v (s.rd Reg.SEC.ARB.COUNTER) % 2 ^ Reg.SEC.ARB.COUNTER.w) ∧
      (s.upd.retry = [.overlay] → Gives .nvmWriteRetry s fun t => t.upd.retry = [] ∧ t.hod.saved = s.hod.overlay ∧
        t.rd Reg.HOD.REPAIR_STAT.OVERLAY_PEND = 0))) ∧
  (∀ s : State, (s.upd.bootTrial = false ∨ s.upd.faulted = true → exec .bootTrialHealthy s = .next s) ∧
    (∀ q i, s.upd.bootTrial = true → s.upd.faulted = false → s.coreOn = true → s.upd.record = some q →
      s.upd.other = some i →
      let arb := s.rd Reg.SEC.ARB.COUNTER
      let n : CommitRec := { q with seq := q.seq + 1, state := 2, prevOk := decide (max q.secVer arb ≤ i.secVer) }
      Gives .bootTrialHealthy s fun t => t.time = max s.time (s.upd.trialStart + 2000000000) ∧ t.upd.bootTrial = false ∧
        t.rd Reg.SEC.BOOT_STAT.BOOT_TRIAL = 0 ∧
        (s.nvmOpen = true → t.upd.record = some n ∧ t.rd Reg.SEC.BOOT_STAT.TRIES = 0 ∧
          t.rd Reg.SEC.ARB.COUNTER = if arb < q.secVer then q.secVer % 2 ^ Reg.SEC.ARB.COUNTER.w else arb) ∧
        (s.nvmOpen = false → t.upd.record = s.upd.record ∧ t.rd Reg.SEC.ARB.COUNTER = arb ∧
          t.upd.retry = s.upd.retry ++ [.record n] ++ if arb < q.secVer then [.arb q.secVer] else []))) ∧
  (∀ s : State, (s.upd.bootTrial = false → exec .bootTrialWindowExpiry s = .next s) ∧
    (∀ q, s.upd.bootTrial = true → s.upd.record = some q →
      (q.prevOk = true → s.upd.activate = none → Gives .bootTrialWindowExpiry s fun t => t.updState = 5 ∧
        t.upd.fallback = some .device ∧ t.upd.fallbackBoot = true ∧ t.time = max s.time s.upd.bootTrialEnd) ∧
      (q.prevOk = false → Gives .bootTrialWindowExpiry s fun t => t.upd.bootTrial = false ∧ t.regs = s.regs ∧
        t.time = max s.time s.upd.bootTrialEnd)))

/-! ## Identity, key slots and built-in test (16_boot_security_update, 17_test, 12_command_set) -/

/-- R325, R358, R359, R439, R451, R452, R453: a buffer too small for the data completes with the size needed. ATTEST is
signed by K1: its report of 16,864 bytes carries the serial, the life cycle, the running version, the nonce and the time.
IDENTITY_READ writes the certificates. KEYSLOT_WRITE judges operands, record, signature and the NVM window in that order;
a write or an erase changes its slot alone and ends the sessions taken from it. -/
def Obligations.IdentityAndKeySlots : Prop :=
  (∀ (s u : State) (r : RingNo) (e : Entry) (d : Dma) (f : Flight), Taken s .attest r e d u f →
    (op32 f.e 56 < 16864 → Finishes (.attest r e d) s r f { st := .badField, r0 := 16864 } fun t => t = u) ∧
    (16864 ≤ op32 f.e 56 → addrOk (op64 f.e 48) (op32 f.e 56) = false →
      Finishes (.attest r e d) s r f { st := .badField } fun t => t = u) ∧
    (16864 ≤ op32 f.e 56 → addrOk (op64 f.e 48) (op32 f.e 56) = true → Gives (.attest r e d) s fun t =>
      t = u.setPhase r f.fid .running)) ∧
  (∀ (r : RingNo) (s : State), (s.runningOp r (opCode .attest) = none → exec (.attestationSigned r) s = .next s) ∧
    (∀ f, s.runningOp r (opCode .attest) = some f →
      ((s.core 1).stopped = true → EndsWith (.attestationSigned r) s (.host r f.fid) { st := .domainOff } fun t => t = s) ∧
      ((s.core 1).stopped = false → f.d.failAt = none → ∃ rep : List Byte,
        EndsWith (.attestationSigned r) s (.host r f.fid) {} (fun t =>
          t = { s with out := s.out ++ [.hostWrite (op64 f.e 48) rep] }) ∧
        rep.length = 16864 ∧ cut rep 0 4 = ascii "TRAT" ∧ numAt rep 4 8 = s.rd Reg.SEC.SERIAL.SERIAL % 2 ^ 64 ∧
        numAt rep 12 1 = s.lc % 256 ∧ numAt rep 16 4 = s.upd.running.version % 2 ^ 32 ∧
        cut rep 116 32 = opBytes f.e 16 32 ∧ numAt rep 148 8 = s.time % 2 ^ 64) ∧
      (∀ k, (s.core 1).stopped = false → f.d.failAt = some k → k < 16864 →
        EndsWith (.attestationSigned r) s (.host r f.fid) { st := .dmaFault, r0 := k } fun t => t = { s with out := t.out }))) ∧
  (∀ (s u : State) (r : RingNo) (e : Entry) (d : Dma) (f : Flight), Taken s .identityRead r e d u f →
    let need := identityData.length
    let v := u.setPhase r f.fid .running
    (op32 f.e 24 < need → Finishes (.identityRead r e d) s r f { st := .badField, r0 := need } fun t => t = u) ∧
    (need ≤ op32 f.e 24 → addrOk (op64 f.e 16) (op32 f.e 24) = true → f.d.failAt = none →
      Finishes (.identityRead r e d) s r f {} fun t =>
        t = { v with out := u.out ++ [.hostWrite (op64 f.e 16) identityData] })) ∧
  (∀ (s u : State) (r : RingNo) (e : Entry) (d : Dma) (f : Flight), Taken s .keyslotWrite r e d u f →
    let k := f.e.target.toNat
    let ceil := opByte f.e 16
    let bind := opByte f.e 17
    let n := u.keyRecBytes
    let rec_ := dataOf f n
    let bad := 3 < ceil ∨ (63 < bind ∧ bind ≠ 255) ∨ addrOk (op64 f.e 24) n = false
    let shaped := cut rec_ 0 4 = ascii "TRKY" ∧ numAt rec_ 4 1 = k ∧ numAt rec_ 5 1 = ceil ∧ numAt rec_ 6 1 = bind ∧
      allZero (cut rec_ 7 9) = true
    let signed := u.keySigned rec_ = true ∧ recordKey rec_ ≠ none
    (bad → Finishes (.keyslotWrite r e d) s r f { st := .badField } fun t => t = u) ∧
    (¬ bad → ∀ i < n, f.d.failAt = some i → Finishes (.keyslotWrite r e d) s r f { st := .dmaFault } fun t => t = u) ∧
    (¬ bad → f.d.failAt = none →
      (¬ shaped → Finishes (.keyslotWrite r e d) s r f { st := .badField } fun t => t = u) ∧
      (shaped → ¬ signed → Finishes (.keyslotWrite r e d) s r f { st := .sigFail } fun t => t = u) ∧
      (shaped → signed → u.nvmOpen = false → Finishes (.keyslotWrite r e d) s r f { st := .nvmTemp } fun t => t = u) ∧
      (∀ key, shaped → u.keySigned rec_ = true → recordKey rec_ = some key → u.nvmOpen = true →
        Finishes (.keyslotWrite r e d) s r f {} fun t => Tab.get none t.sec.keys k = some ⟨key, ceil, bind⟩ ∧
          (∀ j, j ≠ k → Tab.get none t.sec.keys j = Tab.get none u.sec.keys j) ∧
          ∀ (q : RingNo) x, (u.ring q).session = some x →
            (t.ring q).session = if x.slot = k then none else some x))) ∧
  (∀ (s u : State) (r : RingNo) (e : Entry) (d : Dma) (f : Flight), Taken s .keyslotErase r e d u f →
    let k := f.e.target.toNat
    (u.nvmOpen = false → Finishes (.keyslotErase r e d) s r f { st := .nvmTemp } fun t => t = u) ∧
    (u.nvmOpen = true → Finishes (.keyslotErase r e d) s r f {} fun t => Tab.get none t.sec.keys k = none ∧
      (∀ j, j ≠ k → Tab.get none t.sec.keys j = Tab.get none u.sec.keys j) ∧
      ∀ (q : RingNo) x, (u.ring q).session = some x → (t.ring q).session = if x.slot = k then none else some x))

/-- R119, R120, R360, R466 to R471, R473: BIST_RUN refuses a target in the wrong state and a fifth run; a run that starts takes its
partition, and a lane in test sends nothing. When a run ends its results are in BIST.LAST and in the completion, the
signature and first failing cell in their registers, and the partition is free. A slice that fails in C_OFF enters
the retire map, where the MRAM window is open and the map has room, or is noted for the next C_ON. No bias output
changes. -/
def Obligations.BuiltInTests : Prop :=
  (∀ (s u : State) (r : RingNo) (e : Entry) (d : Dma) (f : Flight), Taken s .bistRun r e d u f →
    let n := f.e.target.toNat
    let cls := f.e.cls.toNat
    let kind := opByte f.e 16
    let code := bistCode cls n
    let ok := (cls = 1 → u.coursePow n = .off ∧ u.inTransition 1 n = false) ∧ (cls = 2 → u.lane n = 5) ∧
      (cls = 3 → u.quadOn (n / 32) = false ∧ u.inTransition 2 (n / 32) = false)
    (2 < kind ∨ ¬ ok → Finishes (.bistRun r e d) s r f { st := .badField } fun t => t = u) ∧
    (kind ≤ 2 → ok → 4 ≤ u.tests.length → Finishes (.bistRun r e d) s r f { st := .inUse } fun t => t = u) ∧
    (kind ≤ 2 → ok → u.tests.length < 4 → Gives (.bistRun r e d) s fun t =>
      t.tests = u.tests ++ [⟨code, kind, .host r f.fid⟩] ∧ t.bias = u.bias ∧
      (cls = 1 ∨ cls = 3 → t = { u.setPhase r f.fid .running with tests := t.tests }) ∧
      (cls = 2 → t.rd Reg.LN.TX_STAT.TX_ACTIVE n = 0) ∧ (cls = 0 → t.raises = [] ∧ t.regs = u.regs))) ∧
  (∀ (code : Fin 128) (q : BistEnd) (s : State),
    (s.inTest code = false → exec (.bistRunEnd code q) s = .next s) ∧
    (∀ b, s.tests = [b] → b.code = code.val → b.kind ≤ 2 →
      let logic := if b.kind = 1 then 3 else match q.golden with
        | none => 3
        | some g => if q.misr = g then 0 else 1
      let mem := if b.kind = 0 then 3 else if q.fail = none then 0 else 1
      let c := if mem = 1 then q.fail.getD ⟨0, 0, 0, 0, 0⟩ else ⟨0, 0, 0, 0, 0⟩
      let res : Res := { r0 := logic + 4 * mem, r1 := c.cls + 256 * c.inst, r2 := c.addr, r3 := c.bit + 256 * c.slice }
      ∃ u : State, exec (.bistRunEnd code q) s = .next ((u.finish b.origin res).bistAfter code) ∧
        u.tests = [] ∧ u.bias = s.bias ∧ u.rd Reg.BIST.LAST.TARGET = code ∧ u.rd Reg.BIST.LAST.LOGIC = logic ∧
        u.rd Reg.BIST.LAST.MEM = mem ∧ u.rd Reg.BIST.LAST.ABORTED = 0 ∧
        u.rd Reg.BIST.LAST.COUNT = (s.rd Reg.BIST.LAST.COUNT + 1) % 65536 ∧
        (logic ≠ 3 → u.rd Reg.BIST.MISR.SIGNATURE = q.misr.toNat ∧ u.rd Reg.BIST.LAST_PAT.PATTERNS = bistPatterns code) ∧
        (mem ≠ 3 → u.rd Reg.BIST.FAIL_MEM.CLASS = c.cls % 256 ∧ u.rd Reg.BIST.FAIL_MEM.INSTANCE = c.inst % 256 ∧
          u.rd Reg.BIST.FAIL_ADDR.ADDR = c.addr % 2 ^ 32) ∧
        (code.val < 8 → s.coursePow code = .off → logic = 1 → ∀ p ∈ q.diag, courseOf p.1 = code.val →
          (s.nvmOpen = true → (Tab.get [] s.retire p.1).length + q.diag.length < 4 → p.2.val ∈ Tab.get [] u.retire p.1) ∧
          (s.nvmOpen = false → u.retire = s.retire ∧
            (p.2.val ∈ Tab.get [] s.retire p.1 ∨ p.2.val ∈ (u.calOf p.1).tested)))))

/-! ## Twins and the Filkor link (10_twin_pairing, 12_command_set) -/

/-- R278, R279, R280, R285, R361: a handover needs an owned, warm course in a pair that is not SOLO or DEGRADED, and asks the
twin in a mirror frame; a takeover raises TWIN_SEL and ends when the course is ACTIVE, or as PARTIAL after 30 µs. The
mirror log is read by ring and tag, with ECC_UNCORR where an entry reads with an uncorrectable word (its layout is the
model's choice: notes/assumptions/135). Frames are taken strictly in sequence, judged, applied and acknowledged; an ACK lets
the owner apply its command, and a refusal, or four frames without one, completes it with TWIN_NOT_SYNCED and degrades
the pair. (That the ask of a handover is a mirror frame is the model's choice: notes/assumptions/121.) -/
def Obligations.MirroringHandoverAndTakeover : Prop :=
  (∀ (s u : State) (r : RingNo) (e : Entry) (d : Dma) (f : Flight), Taken s .twinHandover r e d u f →
    let c := f.e.target.toNat
    let warm := bitOf u.twin.peerWarm c = true ∨ opBits f.e 16 0 1 = 1
    let q := u.twin.nextSeq
    (u.owns c = false → Finishes (.twinHandover r e d) s r f { st := .notOwner } fun t => t = u) ∧
    (u.owns c = true → (u.pairState = 0 ∨ u.pairState = 3 ∨ ¬ warm) →
      Finishes (.twinHandover r e d) s r f { st := .twinNotSynced } fun t => t = u) ∧
    (u.owns c = true → (u.pairState = 1 ∨ u.pairState = 2) → warm → Gives (.twinHandover r e d) s fun t =>
      t.twinState = 4 ∧ t.pairState = u.pairState ∧ t.owns c = true ∧ t.ownSel c = u.ownSel c ∧
      t.twin.handovers = u.twin.handovers ++ [⟨c, .host r f.fid, u.time⟩] ∧ t.twin.nextSeq = (q + 1) % 2 ^ 24 ∧
      t.out = u.out ++ [.mirrorFrame q r askOp f.e f.d])) ∧
  (∀ (s u : State) (r : RingNo) (e : Entry) (d : Dma) (f : Flight), Taken s .twinTakeover r e d u f →
    let c := f.e.target.toNat
    (u.owns c = true → Finishes (.twinTakeover r e d) s r f {} fun t => t = u) ∧
    ((u.twin.strap = 1 ∨ u.twin.strap = 2) → u.owns c = false → u.ownSel c = false → u.twin.handovers = [] →
      (u.sense c = true → Gives (.twinTakeover r e d) s fun t => t.armed c = true ∧ t.twinState = 4 ∧
        t.twin.takeovers = u.twin.takeovers ++ [⟨c, .host r f.fid, u.time⟩]) ∧
      (u.sense c = false → u.twin.takeovers = [] → u.twinState ≠ 4 → ∃ w : State,
        exec (.twinTakeover r e d) s = .next ((w.finish (.host r f.fid) { r0 := 1 }).endMoves) ∧
        w.owns c = true ∧ w.ownSel c = true ∧ w.twin.takeovers = [] ∧ w.twin.handovers = [] ∧
        w.twin.prev = u.twinState ∧ w.flag Reg.EVT.LATCH.RAISED (courseSrc c 9) = true))) ∧
  (∀ (c : CourseNo) (s : State), ((∀ m ∈ s.twin.takeovers, m.course ≠ c.val) → exec (.takeoverTimeout c) s = .next s) ∧
    (∀ m, s.twin.takeovers = [m] → m.course = c.val → ∃ w : State,
      exec (.takeoverTimeout c) s = .next ((w.finish m.origin { st := .partialDone }).endMoves) ∧
      w.time = max s.time (m.since + 30000) ∧ w.twin.takeovers = [] ∧ w.twin.ownSel = s.twin.ownSel ∧ w.regs = s.regs)) ∧
  (∀ (s u : State) (r : RingNo) (e : Entry) (d : Dma) (ecc : List EccHit) (f : Flight), Taken s .twinLogQuery r e d u f →
    let ms := u.twin.log.filter fun x => x.ring == op16 f.e 16 && x.tag.toNat == op64 f.e 24
    let v := u.setPhase r f.fid .running
    ecc = [] → u.rd Reg.HOD.STAT.CHK_FAIL = 0 → (∀ x ∈ u.twin.log, x.ring < 2 ^ 16 ∧ x.seq < 2 ^ 24) →
    ((∀ k < 8192, Tab.get none u.hod.words (0x0BC00000 / 8 + k) = none) →
      (ms = [] → Finishes (.twinLogQuery r e d ecc) s r f {} fun t => t = v) ∧
      (∀ x xs, ms = x :: xs → Finishes (.twinLogQuery r e d ecc) s r f
        { r0 := min 255 ms.length, r1 := x.seq, r2 := statusCode x.status } fun t => t = v)) ∧
    (∀ x, u.twin.log = [x] → ms = [x] → u.twin.logAt = 1 → Tab.get none u.hod.words (logWord 0) = none →
      Tab.get none u.hod.words (logWord 0 + 1) = some ⟨(logWords x).getD 1 0, true⟩ →
      Finishes (.twinLogQuery r e d ecc) s r f
        { st := .eccUncorr, r0 := 1, r1 := x.seq, r2 := statusCode x.status } fun t =>
        t = v.hodUncorr (logWord 0 + 1) 1 false)) ∧
  (∀ (q : BitVec 24) (r : RingNo) (op : BitVec 16) (e : Entry) (d : Dma) (s : State),
    let g := Origin.mirror q.toNat r.val e.tag
    let taken := s.frameTaken q.toNat
    (s.mirrorOn = false ∨ q.toNat ≠ s.twin.rxSeq → exec (.mirrorFrameReceived q r op e d) s = .next s) ∧
    (taken.twin.rxSeq = (q.toNat + 1) % 2 ^ 24 ∧ taken.rd Reg.FLK.MIRROR_STAT.LAST_SEQ = q.toNat ∧
      ∀ res, (s.finish g res).out = s.out ++ [.filkorBlock (0xA4 + 2 ^ 8 * (q.toNat + 2 ^ 24 * statusCode res.st))]) ∧
    (s.mirrorOn = true → q.toNat = s.twin.rxSeq →
      (op.toNat = askOp → s.owns (e.target.toNat % 8) = true → Gives (.mirrorFrameReceived q r op e d) s fun t =>
        t.twin.rxSeq = (q.toNat + 1) % 2 ^ 24 ∧ t.out = s.out ++ [.filkorBlock (0xA4 + 2 ^ 8 * q.toNat)]) ∧
      (op.toNat ≠ askOp → (opOfCode op.toNat).bind mirrorRun = none →
        EndsWith (.mirrorFrameReceived q r op e d) s g { st := .badOpcode } fun t => t = taken) ∧
      (∀ o chk run, op.toNat ≠ askOp → opOfCode op.toNat = some o → mirrorRun o = some (chk, run) →
        let f := frameFlight op.toNat e d
        (s.judgeFrame o e = none → exec (.mirrorFrameReceived q r op e d) s = .next s) ∧
        (∀ st, s.judgeFrame o e = some (some st) →
          EndsWith (.mirrorFrameReceived q r op e d) s g { st := st } fun t => t = taken) ∧
        (∀ res, s.judgeFrame o e = some none → chk s f = some res →
          EndsWith (.mirrorFrameReceived q r op e d) s g res fun t => t = taken) ∧
        (s.judgeFrame o e = some none → chk s f = none →
          Gives (.mirrorFrameReceived q r op e d) s fun t => t = run taken g f)))) ∧
  (∀ (q : BitVec 24) (st : BitVec 8) (s : State),
    (s.linkOn = false ∨ s.k3On = false ∨ (∀ m ∈ s.twin.outs, m.seq ≠ q.toNat) →
      exec (.mirrorAckReceived q st) s = .next s) ∧
    (∀ m, s.linkOn = true → s.k3On = true → s.twin.outs = [m] → m.seq = q.toNat →
      (st.toNat ≠ 0 → s.twinState = 2 → ∃ w : State,
        exec (.mirrorAckReceived q st) s = .next ((w.finish (.host m.ring m.fid) { st := .twinNotSynced }).endMoves) ∧
        w.twinState = 3 ∧ w.rd Reg.FLK.TWIN_STAT.DEG_CAUSE = 4 ∧ w.twin.outs = []) ∧
      (∀ o chk run, st.toNat = 0 → opOfCode m.op = some o → mirrorRun o = some (chk, run) →
        Gives (.mirrorAckReceived q st) s fun t => t = run ((s.wr Reg.FLK.MIRROR_STAT.LAST_SEQ q.toNat).dropOut m.seq)
          (.host m.ring m.fid) { frameFlight m.op m.e m.d with mirrored := some q.toNat }))) ∧
  (∀ s : State, (s.twin.outs = [] ∨ s.k3On = false → exec .mirrorAckTimeout s = .next s) ∧
    (∀ m ms, s.twin.outs = m :: ms → s.k3On = true →
      (m.resends < 3 → Gives .mirrorAckTimeout s fun t => t.time = max s.time (m.sent + 20000) ∧
        t.twin.outs = { m with sent := t.time, resends := m.resends + 1 } :: ms ∧
        t.rd Reg.FLK.MIRROR_STAT.RESENDS = min (s.rd Reg.FLK.MIRROR_STAT.RESENDS + 1) 255 ∧
        t.out = s.out ++ [.mirrorFrame m.seq m.ring m.op m.e m.d]) ∧
      (3 ≤ m.resends → s.twinState = 2 → ∃ w : State,
        exec .mirrorAckTimeout s = .next ((w.finish (.host m.ring m.fid) { st := .twinNotSynced }).endMoves) ∧
        w.twinState = 3 ∧ w.rd Reg.FLK.TWIN_STAT.DEG_CAUSE = 3))) ∧
  (∀ (r : RingNo) (s : State), ((∀ f ∈ (s.ring r).flights, ∀ t, f.phase ≠ .parked t) →
      exec (.pairingWaitTimeout r) s = .next s) ∧
    (∀ f fs t st, (s.ring r).flights = f :: fs → f.phase = .parked t → (s.upTo t).judge f = .fails st →
      EndsWith (.pairingWaitTimeout r) s (.host r f.fid) { st := st } fun w => w = s.upTo t))

/-- R265, R266, R267, R268, R273: the Filkor link goes from DETECT through TRAIN, BITLOCK and BLOCKLOCK to CAPS, each step
on its own condition on all eight lanes; 500 ms in training restart it from DETECT and count. A lost block lock and
RETRAIN lead back to TRAIN, a lost termination to DETECT, and a pair whose link leaves ACTIVE is DEGRADED. FL1 follows
500 ns without a block; FL2 is taken only in SOLO with pairing off, and leads back to ACTIVE. -/
def Obligations.FilkorLinkComesUp : Prop :=
  (∀ (far : BitVec 8) (s : State),
    (s.linkOn = false ∨ s.k3On = false ∨ s.linkState ≠ 0 → exec (.filkorDetectProbe far) s = .next s) ∧
    (s.linkOn = true → s.k3On = true → s.linkState = 0 → Gives (.filkorDetectProbe far) s fun t =>
      t.linkState = (if far = 255 then 1 else 0) ∧
      (∀ i < 8, t.flag Reg.FLK.LANE_STAT.LOS i = !bitOf far.toNat i) ∧ (far = 255 → t.twin.trainAt = s.time) ∧
      NoRaise s t)) ∧
  (∀ s : State, (s.linkOn = false ∨ s.k3On = false ∨ s.linkState ≠ 1 → exec .filkorBitlock s = .next s) ∧
    (s.linkOn = true → s.k3On = true → s.linkState = 1 → Gives .filkorBitlock s fun t => t.linkState = 2 ∧
      (∀ i < 8, t.rd Reg.FLK.LANE_STAT.STATE i = 2 ∧ t.rd Reg.FLK.LANE_STAT.CDR_LOCK i = 1) ∧ NoRaise s t)) ∧
  (∀ (skew : List Nat) (s : State),
    (s.linkOn = false ∨ s.k3On = false ∨ s.linkState ≠ 2 ∨ (∃ v ∈ skew, 32 < v) →
      exec (.filkorBlocklock skew) s = .next s) ∧
    (s.linkOn = true → s.k3On = true → s.linkState = 2 → (∀ v ∈ skew, v ≤ 32) → Gives (.filkorBlocklock skew) s fun t =>
      t.linkState = 4 ∧ (∀ i < 8, t.rd Reg.FLK.LANE_STAT.BLOCK_LOCK i = 1 ∧
        t.rd Reg.FLK.LANE_STAT.SKEW i = skew.getD i 0 ∧ t.rd Reg.FLK.LANE_STAT.STATE i = 3) ∧ NoRaise s t ∧
      ∃ q : CapsFrame, t.out = s.out ++ [.caps q] ∧ q.grade = s.rd Reg.GLB.CAP.GRADE ∧
        q.version = s.upd.running.version ∧ q.mirrorHi = (Config.mirrorFormats s.upd.running.version).1 ∧
        q.mirrorLo = (Config.mirrorFormats s.upd.running.version).2 ∧
        q.role = (if s.twin.strap = 1 then 1 else if s.twin.strap = 2 then 2 else 0) ∧
        ∀ c < 8, bitOf q.view.toNat c = s.owns c)) ∧
  (∀ s : State, (¬ (s.linkState = 1 ∨ s.linkState = 2) → exec .filkorTrainTimeout s = .next s) ∧
    (s.linkOn = true → s.k3On = true → (s.linkState = 1 ∨ s.linkState = 2) → Gives .filkorTrainTimeout s fun t =>
      t.linkState = 0 ∧ t.rd Reg.FLK.STAT.RETRIES = min (s.rd Reg.FLK.STAT.RETRIES + 1) 255 ∧
      t.time = max s.time (s.twin.trainAt + 500000000))) ∧
  (∀ (i : Fin 8) (hdr : Nat) (s : State), (s.linkState < 3 ∨ 5 < s.linkState → exec (.blockLockLoss i hdr) s = .next s) ∧
    (s.linkOn = true → 3 ≤ s.linkState → s.linkState ≤ 5 → Gives (.blockLockLoss i hdr) s fun t => t.linkState = 1 ∧
      t.rd Reg.FLK.LANE_STAT.HDR_ERR i = min (s.rd Reg.FLK.LANE_STAT.HDR_ERR i + hdr) 255 ∧
      (∀ j < 8, t.rd Reg.FLK.LANE_STAT.BLOCK_LOCK j = 0) ∧
      (s.linkState = 5 → t.flag Reg.EVT.LATCH.RAISED 5 = true ∧
        (s.twinState = 1 ∨ s.twinState = 2 → t.twinState = 3 ∧ t.rd Reg.FLK.TWIN_STAT.DEG_CAUSE = 2 ∧
          t.flag Reg.EVT.LATCH.RAISED 4 = true)))) ∧
  (∀ (i : Fin 8) (s : State), (s.linkState = 0 ∨ s.linkState = 6 → exec (.farTerminationLoss i) s = .next s) ∧
    (s.linkOn = true → s.linkState ≠ 0 → s.linkState ≠ 6 → Gives (.farTerminationLoss i) s fun t => t.linkState = 0 ∧
      t.rd Reg.FLK.LANE_STAT.LOS i = 1)) ∧
  (∀ s : State, s.coreOn = true → s.pwr.flkOn = true →
    ((s.linkState < 2 ∨ 5 < s.linkState) → exec .filkorRetrain s = .next (s.setShadow 0 none)) ∧
    (s.linkOn = true → 2 ≤ s.linkState → s.linkState ≤ 5 → Gives .filkorRetrain s fun t => t.linkState = 1 ∧
      t.twin.capsDue = true ∧ (s.linkState = 5 → t.flag Reg.EVT.LATCH.RAISED 5 = true)) ∧
    (¬ (s.twinState = 0 ∧ s.rd Reg.FLK.TWIN_CFG.EN = 0) → exec .fl2Enter s = .next (s.setShadow 0 none)) ∧
    (s.twinState = 0 → s.rd Reg.FLK.TWIN_CFG.EN = 0 → s.rd Reg.FLK.STAT.LP_STATE ≠ 2 → Gives .fl2Enter s fun t =>
      t.rd Reg.FLK.STAT.LP_STATE = 2 ∧ t.rd Reg.FLK.CTRL.FL2_REQ = 1 ∧ t.linkState = 0 ∧
      t.twin.fl2Active = decide (s.linkState = 5)) ∧
    (s.rd Reg.FLK.STAT.LP_STATE ≠ 2 → exec .fl2Exit s = .next (s.setShadow 0 none)) ∧
    (s.rd Reg.FLK.STAT.LP_STATE = 2 → s.twin.fl2Active = true → s.flkTesting = false → Gives .fl2Exit s fun t =>
      t.rd Reg.FLK.STAT.LP_STATE = 0 ∧ t.rd Reg.FLK.CTRL.FL2_REQ = 0 ∧ t.linkState = 5 ∧ t.twin.fl2Active = false ∧
      ∀ i < 8, t.rd Reg.FLK.LANE_STAT.CDR_LOCK i = 1 ∧ t.rd Reg.FLK.LANE_STAT.BLOCK_LOCK i = 1)) ∧
  (∀ s : State,
    (s.linkState ≠ 5 ∨ s.flag Reg.FLK.CTRL.FL1_EN = false ∨ s.rd Reg.FLK.STAT.LP_STATE ≠ 0 →
      exec .fl1Entry s = .next s) ∧
    (s.linkOn = true → s.linkState = 5 → s.flag Reg.FLK.CTRL.FL1_EN = true → s.rd Reg.FLK.STAT.LP_STATE = 0 →
      Gives .fl1Entry s fun t => t.rd Reg.FLK.STAT.LP_STATE = 1 ∧ t.time = max s.time (s.twin.lastQueued + 500) ∧
        OnlyRegs { s with time := t.time } t [Reg.FLK.STAT.LP_STATE.key 0 0])) ∧
  (∀ (q : CapsFrame) (s : State), (s.linkOn = false ∨ s.k3On = false ∨ s.capsAwaited = false →
      exec (.capsFrameReceived q) s = .next s) ∧
    (s.linkOn = true → s.k3On = true → s.linkState = 4 → s.twinState ≠ 4 →
      let fmts := Config.mirrorFormats s.upd.running.version
      let roles := (s.twin.strap = 1 ∧ q.role.val = 2) ∨ (s.twin.strap = 2 ∧ q.role.val = 1)
      let solo (cause : Nat) := Gives (.capsFrameReceived q) s fun t => t.twinState = 0 ∧
        t.rd Reg.FLK.TWIN_STAT.SOLO_CAUSE = cause ∧ t.twin.capsFailed = true ∧ t.linkState = 5
      (s.rd Reg.FLK.TWIN_CFG.EN = 0 → Gives (.capsFrameReceived q) s fun t => t.twinState = s.twinState ∧
        t.linkState = 5 ∧ t.rd Reg.FLK.STAT.RTT = q.rtt % 65536) ∧
      (s.rd Reg.FLK.TWIN_CFG.EN ≠ 0 →
        (q.grade ≠ s.rd Reg.GLB.CAP.GRADE → solo 2) ∧ (q.grade = s.rd Reg.GLB.CAP.GRADE → ¬ roles → solo 3) ∧
        (q.grade = s.rd Reg.GLB.CAP.GRADE → roles → min fmts.1 q.mirrorHi < max fmts.2 q.mirrorLo → solo 4) ∧
        (q.grade = s.rd Reg.GLB.CAP.GRADE → roles → max fmts.2 q.mirrorLo ≤ min fmts.1 q.mirrorHi → s.twin.strap = 1 →
          Gives (.capsFrameReceived q) s fun t => t.twinState = 1 ∧ t.linkState = 5 ∧
            t.rd Reg.FLK.TWIN_STAT.MIRROR_VER = min fmts.1 q.mirrorHi % 256 ∧ t.twin.nextSeq = 0 ∧ t.twin.rxSeq = 0 ∧
            t.twin.outs = [] ∧ t.twin.lastHb = s.time ∧ t.twin.ownSel = s.twin.ownSel) ∧
        (q.grade = s.rd Reg.GLB.CAP.GRADE → roles → max fmts.2 q.mirrorLo ≤ min fmts.1 q.mirrorHi → s.twin.strap = 2 →
          s.twin.handovers = [] → s.twin.takeovers = [] → Gives (.capsFrameReceived q) s fun t => t.twinState = 1 ∧
            ∀ c : CourseNo, s.owns c = true → bitOf q.view.toNat c = true → t.ownSel c = false))))

/-- R270, R271, R272, R276, R281, R282, R283, R284, R285, R288: the model of the engine's side decides each course's role,
and TWIN_OWNERSHIP tells its changes. K3 renews leases and sends HEARTBEATs; an expired lease drops the level. A twin
that is silent degrades the pair, and with AUTO every standby course is taken; a yielded course is taken too. The
SECONDARY waits before it raises a level in SOLO. A handover drops the level at a boundary where the course transmits;
the failure of a course's PLL yields it. -/
def Obligations.LevelsLeasesAndFailover : Prop :=
  (∀ s : State, (s.k3On = false → exec .heartbeatSend s = .next s) ∧
    (s.k3On = true → Gives .heartbeatSend s fun t => t.time = max s.time (s.twin.hbSent + 2000) ∧ t.twin.hbSent = t.time ∧
      (∀ c < 8, s.ownSel c = true → Tab.get 0 t.twin.lease c = t.time) ∧
      (s.twinState = 0 ∨ s.linkOn = false ∨ s.linkState ≠ 5 → t.out = s.out) ∧
      (s.twinState ≠ 0 → s.linkOn = true → s.linkState = 5 → t.twin.hbCount = (s.twin.hbCount + 1) % 256 ∧
        t.twin.yields = [] ∧ t.out = s.out ++ [.filkorBlock (heartbeatBlock t.twin.hbCount (courseMask s.owns)
          (courseMask fun c => Tab.get false s.twin.yields c) (courseMask s.warm) s.twinState)] ++ s.txTimes))) ∧
  (∀ count own yield warm st : Nat, count < 256 → own < 256 → yield < 256 → warm < 256 → st < 8 →
    let b := heartbeatBlock count own yield warm st
    b % 256 = 0xA1 ∧ b / 2 ^ 8 % 256 = count ∧ b / 2 ^ 16 % 256 = own ∧ b / 2 ^ 24 % 256 = yield ∧
      b / 2 ^ 32 % 256 = warm ∧ b / 2 ^ 40 = st) ∧
  (∀ (h : Heartbeat) (s : State), (s.linkOn = false ∨ s.k3On = false ∨ s.linkState ≠ 5 ∨ s.twinState = 0 →
      exec (.heartbeatReceived h) s = .next s) ∧
    (s.linkOn = true → s.k3On = true → s.linkState = 5 → s.twinState ≠ 0 → s.pairState ≠ 1 →
      (h.yields = 0 → s.twin.handovers = [] → Gives (.heartbeatReceived h) s fun t =>
        t.twin = { s.twin with lastHb := s.time, peerWarm := h.warm.toNat } ∧ t.rd Reg.FLK.TWIN_STAT.TWIN_SILENT = 0 ∧
        OnlyRegs { s with twin := t.twin } t [Reg.FLK.TWIN_STAT.TWIN_SILENT.key 0 0]) ∧
      (∀ c : CourseNo, s.twin.handovers = [] → s.flag Reg.FLK.TWIN_CFG.AUTO = true → s.owns c = false →
        (∀ i < 8, bitOf h.yields.toNat i = (i == c.val)) → Gives (.heartbeatReceived h) s fun t => t.ownSel c = true) ∧
      (∀ m : Move, ∀ c : CourseNo, h.yields = 0 → s.twin.handovers = [m] → m.course = c.val → s.sense c = true →
        (s.twin.strap = 1 ∨ s.twin.strap = 2) → s.ownSel c = true →
        ((∃ n ∈ courseLanes c, s.transmits n = true) → Gives (.heartbeatReceived h) s fun t =>
          Tab.get false t.twin.ready c = true ∧ t.ownSel c = true) ∧
        ((∀ n ∈ courseLanes c, s.transmits n = false) → Gives (.heartbeatReceived h) s fun t =>
          t.ownSel c = false ∧ t.owns c = false ∧ t.twin.handovers = [])))) ∧
  (∀ s : State, (s.k3On = false ∨ s.twinState = 0 ∨ s.flag Reg.FLK.TWIN_STAT.TWIN_SILENT = true →
      exec .twinSilence s = .next s) ∧
    (s.k3On = true → s.twinState = 2 → s.flag Reg.FLK.TWIN_STAT.TWIN_SILENT = false → s.twin.handovers = [] →
      (s.flag Reg.FLK.TWIN_CFG.AUTO = false → Gives .twinSilence s fun t => t.twinState = 3 ∧
        t.rd Reg.FLK.TWIN_STAT.DEG_CAUSE = 1 ∧ t.rd Reg.FLK.TWIN_STAT.TWIN_SILENT = 1 ∧
        t.twin.ownSel = s.twin.ownSel ∧ t.time = max s.time (s.twin.lastHb + 6000)) ∧
      (s.flag Reg.FLK.TWIN_CFG.AUTO = true → Gives .twinSilence s fun t =>
        ∀ c : CourseNo, s.owns c = false → t.ownSel c = true))) ∧
  (∀ (c : CourseNo) (s : State), (s.ownSel c = false ∨ s.k3On = true → exec (.leaseExpiry c) s = .next s) ∧
    (s.ownSel c = true → s.k3On = false → Gives (.leaseExpiry c) s fun t => t.ownSel c = false ∧
      ((s.twin.strap = 1 ∨ s.twin.strap = 2) → s.sense c = true → t.owns c = false) ∧
      (s.sense c = false → t.owns c = s.owns c) ∧ ∀ b, b ≠ c.val → t.ownSel b = s.ownSel b ∧ t.owns b = s.owns b)) ∧
  (∀ (c : CourseNo) (level : Bool) (s : State),
    (s.twin.strap = 0 → Gives (.twinSenseChange c level) s fun t => t = { s with twin := t.twin } ∧ ∀ b, t.owns b = true) ∧
    ((s.twin.strap = 1 ∨ s.twin.strap = 2) → Gives (.twinSenseChange c level) s fun t => t.sense c = level ∧
      t.ownSel c = s.ownSel c ∧ t.owns c = (if s.ownSel c = level then s.owns c else s.ownSel c) ∧
      (∀ b, b ≠ c.val → t.owns b = s.owns b) ∧
      (s.coreOn = true → t.owns c ≠ s.owns c → t.flag Reg.EVT.LATCH.RAISED (courseSrc c 9) = true))) ∧
  (∀ (c : CourseNo) (s : State),
    let due := s.twin.strap = 2 ∧ s.twinState = 0 ∧ s.k3On = true ∧ s.sense c = false ∧ s.ownSel c = false ∧
      (s.rd Reg.FLK.TWIN_CFG.EN = 0 ∨ s.twin.capsFailed = true ∨ s.twin.holdOver = true)
    (¬ due → exec (.secondarySoloRaise c) s = .next s) ∧
    (due → Gives (.secondarySoloRaise c) s fun t => t.ownSel c = true ∧ t.owns c = true)) ∧
  (∀ s : State,
    let due := s.coreOn = true ∧ s.twin.strap = 2 ∧ s.rd Reg.FLK.TWIN_CFG.EN = 1 ∧ s.twinState = 0 ∧ s.linkState ≠ 5 ∧
      s.twin.capsFailed = false ∧ s.twin.holdOver = false
    (¬ due → exec .secondaryHoldTimeout s = .next s) ∧
    (due → Gives .secondaryHoldTimeout s fun t => t.twin = { s.twin with holdOver := true } ∧ t.regs = s.regs ∧
      t.time = max s.time (s.twin.readyAt + 1000000000))) ∧
  (∀ (sets : List MirrorSet) (s : State),
    (s.linkOn = false ∨ s.k3On = false ∨ s.linkState ≠ 5 ∨ s.pairState ≠ 1 →
      exec (.pairingTransferDone sets) s = .next s) ∧
    (s.linkOn = true → s.k3On = true → s.linkState = 5 → s.twinState = 1 →
      ((∀ m ∈ sets, s.owns m.course = true) → Gives (.pairingTransferDone sets) s fun t => t.twinState = 2 ∧
        t.flag Reg.EVT.LATCH.RAISED 4 = true ∧ t.bias = s.bias ∧ t.tx = s.tx ∧ t.rx = s.rx) ∧
      (∀ m, sets = [m] → s.owns m.course = false → m.course.val % 2 = 1 → m.pow.val = 0 → s.coursePow m.course = .off →
        Gives (.pairingTransferDone sets) s fun t => t.coursePow m.course = .off ∧ t.padHeldC m.course = m.held))) ∧
  (∀ (n : LaneNo) (fcount pos phase : Nat) (near : Bool) (s : State),
    let c := courseOf n
    (s.linkOn = false ∨ s.k3On = false ∨ s.linkState ≠ 5 ∨ s.owns c = true ∨ s.transmits n = false →
      exec (.txTimeReceived n fcount pos phase near) s = .next s) ∧
    (s.linkOn = true → s.k3On = true → s.linkState = 5 → s.twin.strap ≠ 0 → s.owns c = false → s.transmits n = true →
      Gives (.txTimeReceived n fcount pos phase near) s fun t =>
        (isyon (s.mode n) = false → (t.txOf n).frame = fcount % 65535) ∧
        (s.mode n = 4 → s.rd Reg.LN.FMT_CFG.CONST n = 0 →
          let at_ := 128 * pos + phase + 3630 * s.rd Reg.FLK.STAT.RTT
          (t.txOf n).phase = at_ % 128 ∧ (t.txOf n).path.pos = 2 * (at_ / 128) % 278784 ∧
          (2 * (at_ / 128) % 278784 < 277760 → (t.txOf n).frame = (fcount + 2 * (at_ / 128) / 278784) % 65535)) ∧
        Tab.get false t.twin.aligned n = near ∧ t.regs = s.regs ∧ t.twin.ownSel = s.twin.ownSel)) ∧
  (∀ (n : LaneNo) (m : HostBits) (s : State), s.courseOn (courseOf n) = true →
    let x := s.txOf n
    let c := courseOf n
    let s1 := (s.txBoundary n).pathArrive n m.a m.b
    let lower := Tab.get false s.twin.ready c = true ∧ s.txIdle n = false ∧
      (s1.frameBegins n = true ∨ isyon (s.mode n) = false)
    (¬ lower → s.transmits n = false ∨ s.txIdle n = false → Gives (.txBlockBoundary n m) s fun t =>
      (t.txOf n).pend = none ∧ (∀ b k, x.pend = some (b, k) → (t.txOf n).bank = b) ∧
      (x.pend = none → (t.txOf n).bank = x.bank) ∧ t.transmits n = !s.txIdle n ∧
      t.twin.ownSel = s.twin.ownSel ∧ ∃ hs : List Out, (∀ o ∈ hs, ∃ k near y, o = .hostTx k near y ∧ k / 2 = n.val ∧
          s.rd Reg.HL.STAT.STATE k = 3 ∧ (near = false → s.flag Reg.HL.CTRL.TX_SQUELCH k = false)) ∧
        (s1.pathRuns n = false → t.out = s.out ++ hs) ∧
        (s1.pathRuns n = true → s.txIdle n = false → ∃ codes : List Nat,
          t.out = s.out ++ [.dac n false (s.txRate n) codes] ++ hs ∧
          (s.rd Reg.LN.PRBS_CTRL.LOOP n ≠ 2 → codes.length = 64))) ∧
    (lower → (s.twin.strap = 1 ∨ s.twin.strap = 2) → s.ownSel c = true → s.sense c = true →
      Gives (.txBlockBoundary n m) s fun t => t.ownSel c = false ∧ t.owns c = false)) ∧
  (∀ (c : CourseNo) (s : State), (s.courseOn c = false → exec (.coursePllFailure c) s = .next s) ∧
    (s.courseOn c = true → (∀ i < 8, s.lane (8 * c + i) ≠ 3) → Gives (.coursePllFailure c) s fun t =>
      (∀ i < 8, t.rd Reg.LN.RX_STAT.CDR_LOCK (8 * c + i) = 0 ∧ t.lane (8 * c + i) = s.lane (8 * c + i)) ∧
      (s.twin.strap ≠ 0 → s.owns c = true → t.ownSel c = false ∧ (s.ownSel c = true →
        Tab.get false t.twin.yields c = true)) ∧ (s.twin.strap = 0 → t.twin = s.twin)))
end

