-- ==== Sys2Proof/Laws/Keys.lean ====
section
/-! SUPPORT. Where each register field has its storage (R490), as arithmetic on its copy and index, and the width of
each field: the facts a proof needs to tell two fields apart. -/

namespace Sys2Proof.Machine


@[simp] theorem Reg.GLB.BG_CTRL.RELEASE_key (_i _j : Nat) : Reg.GLB.BG_CTRL.RELEASE.key _i _j = 24576 := by simp [Fld.key, Reg.GLB.BG_CTRL.RELEASE]
@[simp] theorem Reg.GLB.BG_CTRL.RELEASE_w : Reg.GLB.BG_CTRL.RELEASE.w = 1 := rfl
@[simp] theorem Reg.GLB.BG_CTRL.RELEASE_rst : Reg.GLB.BG_CTRL.RELEASE.rst = 0 := rfl
@[simp] theorem Reg.GLB.BG_CTRL.CHK_N_key (_i _j : Nat) : Reg.GLB.BG_CTRL.CHK_N.key _i _j = 24580 := by simp [Fld.key, Reg.GLB.BG_CTRL.CHK_N]
@[simp] theorem Reg.GLB.BG_CTRL.CHK_N_w : Reg.GLB.BG_CTRL.CHK_N.w = 4 := rfl
@[simp] theorem Reg.GLB.BG_CTRL.CHK_N_rst : Reg.GLB.BG_CTRL.CHK_N.rst = 3 := rfl
@[simp] theorem Reg.GLB.BG_STAT.FREEZE_key (_i _j : Nat) : Reg.GLB.BG_STAT.FREEZE.key _i _j = 24608 := by simp [Fld.key, Reg.GLB.BG_STAT.FREEZE]
@[simp] theorem Reg.GLB.BG_STAT.FREEZE_w : Reg.GLB.BG_STAT.FREEZE.w = 1 := rfl
@[simp] theorem Reg.GLB.BG_STAT.FREEZE_rst : Reg.GLB.BG_STAT.FREEZE.rst = 0 := rfl
@[simp] theorem Reg.GLB.BG_STAT.SC_DISAGREE_key (_i _j : Nat) : Reg.GLB.BG_STAT.SC_DISAGREE.key _i _j = 24609 := by simp [Fld.key, Reg.GLB.BG_STAT.SC_DISAGREE]
@[simp] theorem Reg.GLB.BG_STAT.SC_DISAGREE_w : Reg.GLB.BG_STAT.SC_DISAGREE.w = 1 := rfl
@[simp] theorem Reg.GLB.BG_STAT.SC_DISAGREE_rst : Reg.GLB.BG_STAT.SC_DISAGREE.rst = 0 := rfl
@[simp] theorem Reg.GLB.BG_STAT.RELEASE_OK_key (_i _j : Nat) : Reg.GLB.BG_STAT.RELEASE_OK.key _i _j = 24610 := by simp [Fld.key, Reg.GLB.BG_STAT.RELEASE_OK]
@[simp] theorem Reg.GLB.BG_STAT.RELEASE_OK_w : Reg.GLB.BG_STAT.RELEASE_OK.w = 1 := rfl
@[simp] theorem Reg.GLB.BG_STAT.RELEASE_OK_rst : Reg.GLB.BG_STAT.RELEASE_OK.rst = 0 := rfl
@[simp] theorem Reg.GLB.BG_STAT.D_SC0_key (_i _j : Nat) : Reg.GLB.BG_STAT.D_SC0.key _i _j = 24612 := by simp [Fld.key, Reg.GLB.BG_STAT.D_SC0]
@[simp] theorem Reg.GLB.BG_STAT.D_SC0_w : Reg.GLB.BG_STAT.D_SC0.w = 12 := rfl
@[simp] theorem Reg.GLB.BG_STAT.D_SC0_rst : Reg.GLB.BG_STAT.D_SC0.rst = 0 := rfl
@[simp] theorem Reg.GLB.BG_STAT.D_SC1_key (_i _j : Nat) : Reg.GLB.BG_STAT.D_SC1.key _i _j = 24624 := by simp [Fld.key, Reg.GLB.BG_STAT.D_SC1]
@[simp] theorem Reg.GLB.BG_STAT.D_SC1_w : Reg.GLB.BG_STAT.D_SC1.w = 12 := rfl
@[simp] theorem Reg.GLB.BG_STAT.D_SC1_rst : Reg.GLB.BG_STAT.D_SC1.rst = 0 := rfl
@[simp] theorem Reg.GLB.EPOCH_OUT_CTRL.EN_key (_i _j : Nat) : Reg.GLB.EPOCH_OUT_CTRL.EN.key _i _j = 26624 := by simp [Fld.key, Reg.GLB.EPOCH_OUT_CTRL.EN]
@[simp] theorem Reg.GLB.EPOCH_OUT_CTRL.EN_w : Reg.GLB.EPOCH_OUT_CTRL.EN.w = 1 := rfl
@[simp] theorem Reg.GLB.EPOCH_OUT_CTRL.EN_rst : Reg.GLB.EPOCH_OUT_CTRL.EN.rst = 0 := rfl
@[simp] theorem Reg.GLB.EPOCH_OUT_CTRL.SRC_key (_i _j : Nat) : Reg.GLB.EPOCH_OUT_CTRL.SRC.key _i _j = 26625 := by simp [Fld.key, Reg.GLB.EPOCH_OUT_CTRL.SRC]
@[simp] theorem Reg.GLB.EPOCH_OUT_CTRL.SRC_w : Reg.GLB.EPOCH_OUT_CTRL.SRC.w = 3 := rfl
@[simp] theorem Reg.GLB.EPOCH_OUT_CTRL.SRC_rst : Reg.GLB.EPOCH_OUT_CTRL.SRC.rst = 0 := rfl
@[simp] theorem Reg.GLB.EPOCH_OUT_CTRL.WIDTH_key (_i _j : Nat) : Reg.GLB.EPOCH_OUT_CTRL.WIDTH.key _i _j = 26632 := by simp [Fld.key, Reg.GLB.EPOCH_OUT_CTRL.WIDTH]
@[simp] theorem Reg.GLB.EPOCH_OUT_CTRL.WIDTH_w : Reg.GLB.EPOCH_OUT_CTRL.WIDTH.w = 8 := rfl
@[simp] theorem Reg.GLB.EPOCH_OUT_CTRL.WIDTH_rst : Reg.GLB.EPOCH_OUT_CTRL.WIDTH.rst = 8 := rfl
@[simp] theorem Reg.GLB.XING_STAT.CFG_SKIP_key (_i _j : Nat) : Reg.GLB.XING_STAT.CFG_SKIP.key _i _j = 28800 := by simp [Fld.key, Reg.GLB.XING_STAT.CFG_SKIP]
@[simp] theorem Reg.GLB.XING_STAT.CFG_SKIP_w : Reg.GLB.XING_STAT.CFG_SKIP.w = 16 := rfl
@[simp] theorem Reg.GLB.XING_STAT.CFG_SKIP_rst : Reg.GLB.XING_STAT.CFG_SKIP.rst = 0 := rfl
@[simp] theorem Reg.GLB.XING_STAT.PULSE_LOST_key (_i _j : Nat) : Reg.GLB.XING_STAT.PULSE_LOST.key _i _j = 28816 := by simp [Fld.key, Reg.GLB.XING_STAT.PULSE_LOST]
@[simp] theorem Reg.GLB.XING_STAT.PULSE_LOST_w : Reg.GLB.XING_STAT.PULSE_LOST.w = 1 := rfl
@[simp] theorem Reg.GLB.XING_STAT.PULSE_LOST_rst : Reg.GLB.XING_STAT.PULSE_LOST.rst = 0 := rfl
@[simp] theorem Reg.GLB.AVS_CTRL.TARGET_key (_i _j : Nat) : Reg.GLB.AVS_CTRL.TARGET.key _i _j = 28672 := by simp [Fld.key, Reg.GLB.AVS_CTRL.TARGET]
@[simp] theorem Reg.GLB.AVS_CTRL.TARGET_w : Reg.GLB.AVS_CTRL.TARGET.w = 8 := rfl
@[simp] theorem Reg.GLB.AVS_CTRL.TARGET_rst : Reg.GLB.AVS_CTRL.TARGET.rst = 38 := rfl
@[simp] theorem Reg.GLB.AVS_CTRL.HYST_key (_i _j : Nat) : Reg.GLB.AVS_CTRL.HYST.key _i _j = 28680 := by simp [Fld.key, Reg.GLB.AVS_CTRL.HYST]
@[simp] theorem Reg.GLB.AVS_CTRL.HYST_w : Reg.GLB.AVS_CTRL.HYST.w = 8 := rfl
@[simp] theorem Reg.GLB.AVS_CTRL.HYST_rst : Reg.GLB.AVS_CTRL.HYST.rst = 8 := rfl
@[simp] theorem Reg.GLB.AVS_CTRL.TEMP_HEAD_key (_i _j : Nat) : Reg.GLB.AVS_CTRL.TEMP_HEAD.key _i _j = 28688 := by simp [Fld.key, Reg.GLB.AVS_CTRL.TEMP_HEAD]
@[simp] theorem Reg.GLB.AVS_CTRL.TEMP_HEAD_w : Reg.GLB.AVS_CTRL.TEMP_HEAD.w = 6 := rfl
@[simp] theorem Reg.GLB.AVS_CTRL.TEMP_HEAD_rst : Reg.GLB.AVS_CTRL.TEMP_HEAD.rst = 10 := rfl
@[simp] theorem Reg.GLB.AVS_LIMIT.MIN_MV_key (_i _j : Nat) : Reg.GLB.AVS_LIMIT.MIN_MV.key _i _j = 28704 := by simp [Fld.key, Reg.GLB.AVS_LIMIT.MIN_MV]
@[simp] theorem Reg.GLB.AVS_LIMIT.MIN_MV_w : Reg.GLB.AVS_LIMIT.MIN_MV.w = 12 := rfl
@[simp] theorem Reg.GLB.AVS_LIMIT.MIN_MV_rst : Reg.GLB.AVS_LIMIT.MIN_MV.rst = 700 := rfl
@[simp] theorem Reg.GLB.AVS_LIMIT.MAX_MV_key (_i _j : Nat) : Reg.GLB.AVS_LIMIT.MAX_MV.key _i _j = 28720 := by simp [Fld.key, Reg.GLB.AVS_LIMIT.MAX_MV]
@[simp] theorem Reg.GLB.AVS_LIMIT.MAX_MV_w : Reg.GLB.AVS_LIMIT.MAX_MV.w = 12 := rfl
@[simp] theorem Reg.GLB.AVS_LIMIT.MAX_MV_rst : Reg.GLB.AVS_LIMIT.MAX_MV.rst = 800 := rfl
@[simp] theorem Reg.GLB.AVS_ADV.ADV_MV_key (_i _j : Nat) : Reg.GLB.AVS_ADV.ADV_MV.key _i _j = 28736 := by simp [Fld.key, Reg.GLB.AVS_ADV.ADV_MV]
@[simp] theorem Reg.GLB.AVS_ADV.ADV_MV_w : Reg.GLB.AVS_ADV.ADV_MV.w = 12 := rfl
@[simp] theorem Reg.GLB.AVS_ADV.ADV_MV_rst : Reg.GLB.AVS_ADV.ADV_MV.rst = 0 := rfl
@[simp] theorem Reg.GLB.AVS_ADV.VALID_key (_i _j : Nat) : Reg.GLB.AVS_ADV.VALID.key _i _j = 28748 := by simp [Fld.key, Reg.GLB.AVS_ADV.VALID]
@[simp] theorem Reg.GLB.AVS_ADV.VALID_w : Reg.GLB.AVS_ADV.VALID.w = 1 := rfl
@[simp] theorem Reg.GLB.AVS_ADV.VALID_rst : Reg.GLB.AVS_ADV.VALID.rst = 0 := rfl
@[simp] theorem Reg.GLB.AVS_ADV.DIR_key (_i _j : Nat) : Reg.GLB.AVS_ADV.DIR.key _i _j = 28749 := by simp [Fld.key, Reg.GLB.AVS_ADV.DIR]
@[simp] theorem Reg.GLB.AVS_ADV.DIR_w : Reg.GLB.AVS_ADV.DIR.w = 2 := rfl
@[simp] theorem Reg.GLB.AVS_ADV.DIR_rst : Reg.GLB.AVS_ADV.DIR.rst = 0 := rfl
@[simp] theorem Reg.GLB.AVS_ADV.AT_MAX_key (_i _j : Nat) : Reg.GLB.AVS_ADV.AT_MAX.key _i _j = 28751 := by simp [Fld.key, Reg.GLB.AVS_ADV.AT_MAX]
@[simp] theorem Reg.GLB.AVS_ADV.AT_MAX_w : Reg.GLB.AVS_ADV.AT_MAX.w = 1 := rfl
@[simp] theorem Reg.GLB.AVS_ADV.AT_MAX_rst : Reg.GLB.AVS_ADV.AT_MAX.rst = 0 := rfl
@[simp] theorem Reg.GLB.AVS_ADV.LIMIT_COURSE_key (_i _j : Nat) : Reg.GLB.AVS_ADV.LIMIT_COURSE.key _i _j = 28752 := by simp [Fld.key, Reg.GLB.AVS_ADV.LIMIT_COURSE]
@[simp] theorem Reg.GLB.AVS_ADV.LIMIT_COURSE_w : Reg.GLB.AVS_ADV.LIMIT_COURSE.w = 3 := rfl
@[simp] theorem Reg.GLB.AVS_ADV.LIMIT_COURSE_rst : Reg.GLB.AVS_ADV.LIMIT_COURSE.rst = 0 := rfl
@[simp] theorem Reg.GLB.AVS_ADV.SEQ_key (_i _j : Nat) : Reg.GLB.AVS_ADV.SEQ.key _i _j = 28760 := by simp [Fld.key, Reg.GLB.AVS_ADV.SEQ]
@[simp] theorem Reg.GLB.AVS_ADV.SEQ_w : Reg.GLB.AVS_ADV.SEQ.w = 8 := rfl
@[simp] theorem Reg.GLB.AVS_ADV.SEQ_rst : Reg.GLB.AVS_ADV.SEQ.rst = 0 := rfl
@[simp] theorem Reg.GLB.AVS_MEAS.VCORE_MV_key (_i _j : Nat) : Reg.GLB.AVS_MEAS.VCORE_MV.key _i _j = 28768 := by simp [Fld.key, Reg.GLB.AVS_MEAS.VCORE_MV]
@[simp] theorem Reg.GLB.AVS_MEAS.VCORE_MV_w : Reg.GLB.AVS_MEAS.VCORE_MV.w = 12 := rfl
@[simp] theorem Reg.GLB.AVS_MEAS.VCORE_MV_rst : Reg.GLB.AVS_MEAS.VCORE_MV.rst = 0 := rfl
@[simp] theorem Reg.GLB.AVS_MEAS.KV_key (_i _j : Nat) : Reg.GLB.AVS_MEAS.KV.key _i _j = 28784 := by simp [Fld.key, Reg.GLB.AVS_MEAS.KV]
@[simp] theorem Reg.GLB.AVS_MEAS.KV_w : Reg.GLB.AVS_MEAS.KV.w = 8 := rfl
@[simp] theorem Reg.GLB.AVS_MEAS.KV_rst : Reg.GLB.AVS_MEAS.KV.rst = 138 := rfl
@[simp] theorem Reg.GLB.AVS_MEAS.KT_key (_i _j : Nat) : Reg.GLB.AVS_MEAS.KT.key _i _j = 28792 := by simp [Fld.key, Reg.GLB.AVS_MEAS.KT]
@[simp] theorem Reg.GLB.AVS_MEAS.KT_w : Reg.GLB.AVS_MEAS.KT.w = 8 := rfl
@[simp] theorem Reg.GLB.AVS_MEAS.KT_rst : Reg.GLB.AVS_MEAS.KT.rst = 22 := rfl
@[simp] theorem Reg.RING.ARB_CTRL.QUANTUM_key (_i _j : Nat) : Reg.RING.ARB_CTRL.QUANTUM.key _i _j = 65536 := by simp [Fld.key, Reg.RING.ARB_CTRL.QUANTUM]
@[simp] theorem Reg.RING.ARB_CTRL.QUANTUM_w : Reg.RING.ARB_CTRL.QUANTUM.w = 8 := rfl
@[simp] theorem Reg.RING.ARB_CTRL.QUANTUM_rst : Reg.RING.ARB_CTRL.QUANTUM.rst = 64 := rfl
@[simp] theorem Reg.RING.ERR_LOG.RING_key (_i _j : Nat) : Reg.RING.ERR_LOG.RING.key _i _j = 65568 := by simp [Fld.key, Reg.RING.ERR_LOG.RING]
@[simp] theorem Reg.RING.ERR_LOG.RING_w : Reg.RING.ERR_LOG.RING.w = 12 := rfl
@[simp] theorem Reg.RING.ERR_LOG.RING_rst : Reg.RING.ERR_LOG.RING.rst = 0 := rfl
@[simp] theorem Reg.RING.ERR_LOG.CAUSE_key (_i _j : Nat) : Reg.RING.ERR_LOG.CAUSE.key _i _j = 65580 := by simp [Fld.key, Reg.RING.ERR_LOG.CAUSE]
@[simp] theorem Reg.RING.ERR_LOG.CAUSE_w : Reg.RING.ERR_LOG.CAUSE.w = 4 := rfl
@[simp] theorem Reg.RING.ERR_LOG.CAUSE_rst : Reg.RING.ERR_LOG.CAUSE.rst = 0 := rfl
@[simp] theorem Reg.RING.ERR_LOG.VALID_key (_i _j : Nat) : Reg.RING.ERR_LOG.VALID.key _i _j = 65599 := by simp [Fld.key, Reg.RING.ERR_LOG.VALID]
@[simp] theorem Reg.RING.ERR_LOG.VALID_w : Reg.RING.ERR_LOG.VALID.w = 1 := rfl
@[simp] theorem Reg.RING.ERR_LOG.VALID_rst : Reg.RING.ERR_LOG.VALID.rst = 0 := rfl
@[simp] theorem Reg.RING.DB_DROP.COUNT_key (_i _j : Nat) : Reg.RING.DB_DROP.COUNT.key _i _j = 65600 := by simp [Fld.key, Reg.RING.DB_DROP.COUNT]
@[simp] theorem Reg.RING.DB_DROP.COUNT_w : Reg.RING.DB_DROP.COUNT.w = 16 := rfl
@[simp] theorem Reg.RING.DB_DROP.COUNT_rst : Reg.RING.DB_DROP.COUNT.rst = 0 := rfl
@[simp] theorem Reg.RING.DB_DROP.LAST_PAGE_key (_i _j : Nat) : Reg.RING.DB_DROP.LAST_PAGE.key _i _j = 65616 := by simp [Fld.key, Reg.RING.DB_DROP.LAST_PAGE]
@[simp] theorem Reg.RING.DB_DROP.LAST_PAGE_w : Reg.RING.DB_DROP.LAST_PAGE.w = 12 := rfl
@[simp] theorem Reg.RING.DB_DROP.LAST_PAGE_rst : Reg.RING.DB_DROP.LAST_PAGE.rst = 0 := rfl
@[simp] theorem Reg.RING.DB_DROP.LAST_FN_key (_i _j : Nat) : Reg.RING.DB_DROP.LAST_FN.key _i _j = 65628 := by simp [Fld.key, Reg.RING.DB_DROP.LAST_FN]
@[simp] theorem Reg.RING.DB_DROP.LAST_FN_w : Reg.RING.DB_DROP.LAST_FN.w = 4 := rfl
@[simp] theorem Reg.RING.DB_DROP.LAST_FN_rst : Reg.RING.DB_DROP.LAST_FN.rst = 0 := rfl
@[simp] theorem Reg.RING.FN_WEIGHT.WEIGHT_key (i _j : Nat) : Reg.RING.FN_WEIGHT.WEIGHT.key i _j = 67584 + 32 * i := by simp [Fld.key, Reg.RING.FN_WEIGHT.WEIGHT]
@[simp] theorem Reg.RING.FN_WEIGHT.WEIGHT_w : Reg.RING.FN_WEIGHT.WEIGHT.w = 8 := rfl
@[simp] theorem Reg.RING.FN_WEIGHT.WEIGHT_rst : Reg.RING.FN_WEIGHT.WEIGHT.rst = 1 := rfl
@[simp] theorem Reg.RING.AUTH.FAILS_key (i _j : Nat) : Reg.RING.AUTH.FAILS.key i _j = 69632 + 32 * i := by simp [Fld.key, Reg.RING.AUTH.FAILS]
@[simp] theorem Reg.RING.AUTH.FAILS_w : Reg.RING.AUTH.FAILS.w = 8 := rfl
@[simp] theorem Reg.RING.AUTH.FAILS_rst : Reg.RING.AUTH.FAILS.rst = 0 := rfl
@[simp] theorem Reg.RING.AUTH.LOCK_LEFT_key (i _j : Nat) : Reg.RING.AUTH.LOCK_LEFT.key i _j = 69640 + 32 * i := by simp [Fld.key, Reg.RING.AUTH.LOCK_LEFT]
@[simp] theorem Reg.RING.AUTH.LOCK_LEFT_w : Reg.RING.AUTH.LOCK_LEFT.w = 7 := rfl
@[simp] theorem Reg.RING.AUTH.LOCK_LEFT_rst : Reg.RING.AUTH.LOCK_LEFT.rst = 0 := rfl
@[simp] theorem Reg.PWR.CTRL.DTYPE_key (_i _j : Nat) : Reg.PWR.CTRL.DTYPE.key _i _j = 98304 := by simp [Fld.key, Reg.PWR.CTRL.DTYPE]
@[simp] theorem Reg.PWR.CTRL.DTYPE_w : Reg.PWR.CTRL.DTYPE.w = 2 := rfl
@[simp] theorem Reg.PWR.CTRL.DTYPE_rst : Reg.PWR.CTRL.DTYPE.rst = 0 := rfl
@[simp] theorem Reg.PWR.CTRL.INDEX_key (_i _j : Nat) : Reg.PWR.CTRL.INDEX.key _i _j = 98306 := by simp [Fld.key, Reg.PWR.CTRL.INDEX]
@[simp] theorem Reg.PWR.CTRL.INDEX_w : Reg.PWR.CTRL.INDEX.w = 3 := rfl
@[simp] theorem Reg.PWR.CTRL.INDEX_rst : Reg.PWR.CTRL.INDEX.rst = 0 := rfl
@[simp] theorem Reg.PWR.CTRL.STATE_key (_i _j : Nat) : Reg.PWR.CTRL.STATE.key _i _j = 98309 := by simp [Fld.key, Reg.PWR.CTRL.STATE]
@[simp] theorem Reg.PWR.CTRL.STATE_w : Reg.PWR.CTRL.STATE.w = 2 := rfl
@[simp] theorem Reg.PWR.CTRL.STATE_rst : Reg.PWR.CTRL.STATE.rst = 0 := rfl
@[simp] theorem Reg.PWR.CTRL.GO_key (_i _j : Nat) : Reg.PWR.CTRL.GO.key _i _j = 98311 := by simp [Fld.key, Reg.PWR.CTRL.GO]
@[simp] theorem Reg.PWR.CTRL.GO_w : Reg.PWR.CTRL.GO.w = 1 := rfl
@[simp] theorem Reg.PWR.CTRL.GO_rst : Reg.PWR.CTRL.GO.rst = 0 := rfl
@[simp] theorem Reg.PWR.STAT.BUSY_key (_i _j : Nat) : Reg.PWR.STAT.BUSY.key _i _j = 98336 := by simp [Fld.key, Reg.PWR.STAT.BUSY]
@[simp] theorem Reg.PWR.STAT.BUSY_w : Reg.PWR.STAT.BUSY.w = 1 := rfl
@[simp] theorem Reg.PWR.STAT.BUSY_rst : Reg.PWR.STAT.BUSY.rst = 0 := rfl
@[simp] theorem Reg.PWR.STAT.BUSY_DTYPE_key (_i _j : Nat) : Reg.PWR.STAT.BUSY_DTYPE.key _i _j = 98337 := by simp [Fld.key, Reg.PWR.STAT.BUSY_DTYPE]
@[simp] theorem Reg.PWR.STAT.BUSY_DTYPE_w : Reg.PWR.STAT.BUSY_DTYPE.w = 2 := rfl
@[simp] theorem Reg.PWR.STAT.BUSY_DTYPE_rst : Reg.PWR.STAT.BUSY_DTYPE.rst = 0 := rfl
@[simp] theorem Reg.PWR.STAT.BUSY_INDEX_key (_i _j : Nat) : Reg.PWR.STAT.BUSY_INDEX.key _i _j = 98339 := by simp [Fld.key, Reg.PWR.STAT.BUSY_INDEX]
@[simp] theorem Reg.PWR.STAT.BUSY_INDEX_w : Reg.PWR.STAT.BUSY_INDEX.w = 3 := rfl
@[simp] theorem Reg.PWR.STAT.BUSY_INDEX_rst : Reg.PWR.STAT.BUSY_INDEX.rst = 0 := rfl
@[simp] theorem Reg.PWR.STAT.PWR_REJECT_key (_i _j : Nat) : Reg.PWR.STAT.PWR_REJECT.key _i _j = 98342 := by simp [Fld.key, Reg.PWR.STAT.PWR_REJECT]
@[simp] theorem Reg.PWR.STAT.PWR_REJECT_w : Reg.PWR.STAT.PWR_REJECT.w = 1 := rfl
@[simp] theorem Reg.PWR.STAT.PWR_REJECT_rst : Reg.PWR.STAT.PWR_REJECT.rst = 0 := rfl
@[simp] theorem Reg.PWR.STAT.LAST_ABORTED_key (_i _j : Nat) : Reg.PWR.STAT.LAST_ABORTED.key _i _j = 98343 := by simp [Fld.key, Reg.PWR.STAT.LAST_ABORTED]
@[simp] theorem Reg.PWR.STAT.LAST_ABORTED_w : Reg.PWR.STAT.LAST_ABORTED.w = 1 := rfl
@[simp] theorem Reg.PWR.STAT.LAST_ABORTED_rst : Reg.PWR.STAT.LAST_ABORTED.rst = 0 := rfl
@[simp] theorem Reg.PWR.STAT.PAD_HELD_C_key (_i _j : Nat) : Reg.PWR.STAT.PAD_HELD_C.key _i _j = 98352 := by simp [Fld.key, Reg.PWR.STAT.PAD_HELD_C]
@[simp] theorem Reg.PWR.STAT.PAD_HELD_C_w : Reg.PWR.STAT.PAD_HELD_C.w = 8 := rfl
@[simp] theorem Reg.PWR.STAT.PAD_HELD_C_rst : Reg.PWR.STAT.PAD_HELD_C.rst = 255 := rfl
@[simp] theorem Reg.PWR.STAT.PAD_HELD_Q_key (_i _j : Nat) : Reg.PWR.STAT.PAD_HELD_Q.key _i _j = 98360 := by simp [Fld.key, Reg.PWR.STAT.PAD_HELD_Q]
@[simp] theorem Reg.PWR.STAT.PAD_HELD_Q_w : Reg.PWR.STAT.PAD_HELD_Q.w = 4 := rfl
@[simp] theorem Reg.PWR.STAT.PAD_HELD_Q_rst : Reg.PWR.STAT.PAD_HELD_Q.rst = 15 := rfl
@[simp] theorem Reg.PWR.DOMAIN.COURSE_key (_i _j : Nat) : Reg.PWR.DOMAIN.COURSE.key _i _j = 98368 := by simp [Fld.key, Reg.PWR.DOMAIN.COURSE]
@[simp] theorem Reg.PWR.DOMAIN.COURSE_w : Reg.PWR.DOMAIN.COURSE.w = 16 := rfl
@[simp] theorem Reg.PWR.DOMAIN.COURSE_rst : Reg.PWR.DOMAIN.COURSE.rst = 0 := rfl
@[simp] theorem Reg.PWR.DOMAIN.QUAD_ON_key (_i _j : Nat) : Reg.PWR.DOMAIN.QUAD_ON.key _i _j = 98384 := by simp [Fld.key, Reg.PWR.DOMAIN.QUAD_ON]
@[simp] theorem Reg.PWR.DOMAIN.QUAD_ON_w : Reg.PWR.DOMAIN.QUAD_ON.w = 4 := rfl
@[simp] theorem Reg.PWR.DOMAIN.QUAD_ON_rst : Reg.PWR.DOMAIN.QUAD_ON.rst = 0 := rfl
@[simp] theorem Reg.PWR.DOMAIN.FLK_ON_key (_i _j : Nat) : Reg.PWR.DOMAIN.FLK_ON.key _i _j = 98388 := by simp [Fld.key, Reg.PWR.DOMAIN.FLK_ON]
@[simp] theorem Reg.PWR.DOMAIN.FLK_ON_w : Reg.PWR.DOMAIN.FLK_ON.w = 1 := rfl
@[simp] theorem Reg.PWR.DOMAIN.FLK_ON_rst : Reg.PWR.DOMAIN.FLK_ON.rst = 0 := rfl
@[simp] theorem Reg.THM.CTRL.DWELL_key (_i _j : Nat) : Reg.THM.CTRL.DWELL.key _i _j = 106496 := by simp [Fld.key, Reg.THM.CTRL.DWELL]
@[simp] theorem Reg.THM.CTRL.DWELL_w : Reg.THM.CTRL.DWELL.w = 4 := rfl
@[simp] theorem Reg.THM.CTRL.DWELL_rst : Reg.THM.CTRL.DWELL.rst = 3 := rfl
@[simp] theorem Reg.THM.CTRL.LOCK_key (_i _j : Nat) : Reg.THM.CTRL.LOCK.key _i _j = 106500 := by simp [Fld.key, Reg.THM.CTRL.LOCK]
@[simp] theorem Reg.THM.CTRL.LOCK_w : Reg.THM.CTRL.LOCK.w = 1 := rfl
@[simp] theorem Reg.THM.CTRL.LOCK_rst : Reg.THM.CTRL.LOCK.rst = 0 := rfl
@[simp] theorem Reg.THM.CTRL.STEP_WAIT_key (_i _j : Nat) : Reg.THM.CTRL.STEP_WAIT.key _i _j = 106504 := by simp [Fld.key, Reg.THM.CTRL.STEP_WAIT]
@[simp] theorem Reg.THM.CTRL.STEP_WAIT_w : Reg.THM.CTRL.STEP_WAIT.w = 8 := rfl
@[simp] theorem Reg.THM.CTRL.STEP_WAIT_rst : Reg.THM.CTRL.STEP_WAIT.rst = 20 := rfl
@[simp] theorem Reg.THM.THRESH.WARN_key (_i _j : Nat) : Reg.THM.THRESH.WARN.key _i _j = 106528 := by simp [Fld.key, Reg.THM.THRESH.WARN]
@[simp] theorem Reg.THM.THRESH.WARN_w : Reg.THM.THRESH.WARN.w = 8 := rfl
@[simp] theorem Reg.THM.THRESH.WARN_rst : Reg.THM.THRESH.WARN.rst = 196 := rfl
@[simp] theorem Reg.THM.THRESH.THROTTLE_key (_i _j : Nat) : Reg.THM.THRESH.THROTTLE.key _i _j = 106536 := by simp [Fld.key, Reg.THM.THRESH.THROTTLE]
@[simp] theorem Reg.THM.THRESH.THROTTLE_w : Reg.THM.THRESH.THROTTLE.w = 8 := rfl
@[simp] theorem Reg.THM.THRESH.THROTTLE_rst : Reg.THM.THRESH.THROTTLE.rst = 210 := rfl
@[simp] theorem Reg.THM.THRESH.SHUTDOWN_key (_i _j : Nat) : Reg.THM.THRESH.SHUTDOWN.key _i _j = 106544 := by simp [Fld.key, Reg.THM.THRESH.SHUTDOWN]
@[simp] theorem Reg.THM.THRESH.SHUTDOWN_w : Reg.THM.THRESH.SHUTDOWN.w = 8 := rfl
@[simp] theorem Reg.THM.THRESH.SHUTDOWN_rst : Reg.THM.THRESH.SHUTDOWN.rst = 230 := rfl
@[simp] theorem Reg.THM.THRESH.WARN_HYS_key (_i _j : Nat) : Reg.THM.THRESH.WARN_HYS.key _i _j = 106552 := by simp [Fld.key, Reg.THM.THRESH.WARN_HYS]
@[simp] theorem Reg.THM.THRESH.WARN_HYS_w : Reg.THM.THRESH.WARN_HYS.w = 4 := rfl
@[simp] theorem Reg.THM.THRESH.WARN_HYS_rst : Reg.THM.THRESH.WARN_HYS.rst = 4 := rfl
@[simp] theorem Reg.THM.THRESH.THR_HYS_key (_i _j : Nat) : Reg.THM.THRESH.THR_HYS.key _i _j = 106556 := by simp [Fld.key, Reg.THM.THRESH.THR_HYS]
@[simp] theorem Reg.THM.THRESH.THR_HYS_w : Reg.THM.THRESH.THR_HYS.w = 4 := rfl
@[simp] theorem Reg.THM.THRESH.THR_HYS_rst : Reg.THM.THRESH.THR_HYS.rst = 6 := rfl
@[simp] theorem Reg.THM.STAT.THR_REJECT_key (_i _j : Nat) : Reg.THM.STAT.THR_REJECT.key _i _j = 106560 := by simp [Fld.key, Reg.THM.STAT.THR_REJECT]
@[simp] theorem Reg.THM.STAT.THR_REJECT_w : Reg.THM.STAT.THR_REJECT.w = 1 := rfl
@[simp] theorem Reg.THM.STAT.THR_REJECT_rst : Reg.THM.STAT.THR_REJECT.rst = 0 := rfl
@[simp] theorem Reg.THM.STAT.REV_REJECT_key (_i _j : Nat) : Reg.THM.STAT.REV_REJECT.key _i _j = 106561 := by simp [Fld.key, Reg.THM.STAT.REV_REJECT]
@[simp] theorem Reg.THM.STAT.REV_REJECT_w : Reg.THM.STAT.REV_REJECT.w = 1 := rfl
@[simp] theorem Reg.THM.STAT.REV_REJECT_rst : Reg.THM.STAT.REV_REJECT.rst = 0 := rfl
@[simp] theorem Reg.THM.STAT.NVM_OK_key (_i _j : Nat) : Reg.THM.STAT.NVM_OK.key _i _j = 106562 := by simp [Fld.key, Reg.THM.STAT.NVM_OK]
@[simp] theorem Reg.THM.STAT.NVM_OK_w : Reg.THM.STAT.NVM_OK.w = 1 := rfl
@[simp] theorem Reg.THM.STAT.NVM_OK_rst : Reg.THM.STAT.NVM_OK.rst = 0 := rfl
@[simp] theorem Reg.THM.STAT.TRIP_VALID_key (_i _j : Nat) : Reg.THM.STAT.TRIP_VALID.key _i _j = 106563 := by simp [Fld.key, Reg.THM.STAT.TRIP_VALID]
@[simp] theorem Reg.THM.STAT.TRIP_VALID_w : Reg.THM.STAT.TRIP_VALID.w = 1 := rfl
@[simp] theorem Reg.THM.STAT.TRIP_VALID_rst : Reg.THM.STAT.TRIP_VALID.rst = 0 := rfl
@[simp] theorem Reg.THM.STAT.TRIP_FROM_MRAM_key (_i _j : Nat) : Reg.THM.STAT.TRIP_FROM_MRAM.key _i _j = 106564 := by simp [Fld.key, Reg.THM.STAT.TRIP_FROM_MRAM]
@[simp] theorem Reg.THM.STAT.TRIP_FROM_MRAM_w : Reg.THM.STAT.TRIP_FROM_MRAM.w = 1 := rfl
@[simp] theorem Reg.THM.STAT.TRIP_FROM_MRAM_rst : Reg.THM.STAT.TRIP_FROM_MRAM.rst = 0 := rfl
@[simp] theorem Reg.THM.STAT.SENSOR_FAIL_key (_i _j : Nat) : Reg.THM.STAT.SENSOR_FAIL.key _i _j = 106568 := by simp [Fld.key, Reg.THM.STAT.SENSOR_FAIL]
@[simp] theorem Reg.THM.STAT.SENSOR_FAIL_w : Reg.THM.STAT.SENSOR_FAIL.w = 24 := rfl
@[simp] theorem Reg.THM.STAT.SENSOR_FAIL_rst : Reg.THM.STAT.SENSOR_FAIL.rst = 0 := rfl
@[simp] theorem Reg.THM.SENSOR.READING_key (i _j : Nat) : Reg.THM.SENSOR.READING.key i _j = 106752 + 32 * i := by simp [Fld.key, Reg.THM.SENSOR.READING]
@[simp] theorem Reg.THM.SENSOR.READING_w : Reg.THM.SENSOR.READING.w = 16 := rfl
@[simp] theorem Reg.THM.SENSOR.READING_rst : Reg.THM.SENSOR.READING.rst = 0 := rfl
@[simp] theorem Reg.THM.SENSOR.WARN_key (i _j : Nat) : Reg.THM.SENSOR.WARN.key i _j = 106768 + 32 * i := by simp [Fld.key, Reg.THM.SENSOR.WARN]
@[simp] theorem Reg.THM.SENSOR.WARN_w : Reg.THM.SENSOR.WARN.w = 1 := rfl
@[simp] theorem Reg.THM.SENSOR.WARN_rst : Reg.THM.SENSOR.WARN.rst = 0 := rfl
@[simp] theorem Reg.THM.SENSOR.THROTTLE_key (i _j : Nat) : Reg.THM.SENSOR.THROTTLE.key i _j = 106769 + 32 * i := by simp [Fld.key, Reg.THM.SENSOR.THROTTLE]
@[simp] theorem Reg.THM.SENSOR.THROTTLE_w : Reg.THM.SENSOR.THROTTLE.w = 1 := rfl
@[simp] theorem Reg.THM.SENSOR.THROTTLE_rst : Reg.THM.SENSOR.THROTTLE.rst = 0 := rfl
@[simp] theorem Reg.THM.SENSOR.SHUTDOWN_key (i _j : Nat) : Reg.THM.SENSOR.SHUTDOWN.key i _j = 106770 + 32 * i := by simp [Fld.key, Reg.THM.SENSOR.SHUTDOWN]
@[simp] theorem Reg.THM.SENSOR.SHUTDOWN_w : Reg.THM.SENSOR.SHUTDOWN.w = 1 := rfl
@[simp] theorem Reg.THM.SENSOR.SHUTDOWN_rst : Reg.THM.SENSOR.SHUTDOWN.rst = 0 := rfl
@[simp] theorem Reg.THM.SENSOR.FAST_key (i _j : Nat) : Reg.THM.SENSOR.FAST.key i _j = 106771 + 32 * i := by simp [Fld.key, Reg.THM.SENSOR.FAST]
@[simp] theorem Reg.THM.SENSOR.FAST_w : Reg.THM.SENSOR.FAST.w = 1 := rfl
@[simp] theorem Reg.THM.SENSOR.FAST_rst : Reg.THM.SENSOR.FAST.rst = 0 := rfl
@[simp] theorem Reg.THM.SENSOR.FAIL_key (i _j : Nat) : Reg.THM.SENSOR.FAIL.key i _j = 106772 + 32 * i := by simp [Fld.key, Reg.THM.SENSOR.FAIL]
@[simp] theorem Reg.THM.SENSOR.FAIL_w : Reg.THM.SENSOR.FAIL.w = 1 := rfl
@[simp] theorem Reg.THM.SENSOR.FAIL_rst : Reg.THM.SENSOR.FAIL.rst = 0 := rfl
@[simp] theorem Reg.THM.SENSOR.SEQ_key (i _j : Nat) : Reg.THM.SENSOR.SEQ.key i _j = 106776 + 32 * i := by simp [Fld.key, Reg.THM.SENSOR.SEQ]
@[simp] theorem Reg.THM.SENSOR.SEQ_w : Reg.THM.SENSOR.SEQ.w = 8 := rfl
@[simp] theorem Reg.THM.SENSOR.SEQ_rst : Reg.THM.SENSOR.SEQ.rst = 0 := rfl
@[simp] theorem Reg.THM.LADDER_AUTH.MAX_STEP_key (_i _j : Nat) : Reg.THM.LADDER_AUTH.MAX_STEP.key _i _j = 106592 := by simp [Fld.key, Reg.THM.LADDER_AUTH.MAX_STEP]
@[simp] theorem Reg.THM.LADDER_AUTH.MAX_STEP_w : Reg.THM.LADDER_AUTH.MAX_STEP.w = 3 := rfl
@[simp] theorem Reg.THM.LADDER_AUTH.MAX_STEP_rst : Reg.THM.LADDER_AUTH.MAX_STEP.rst = 0 := rfl
@[simp] theorem Reg.THM.LADDER_AUTH.SHED_MAX_key (_i _j : Nat) : Reg.THM.LADDER_AUTH.SHED_MAX.key _i _j = 106600 := by simp [Fld.key, Reg.THM.LADDER_AUTH.SHED_MAX]
@[simp] theorem Reg.THM.LADDER_AUTH.SHED_MAX_w : Reg.THM.LADDER_AUTH.SHED_MAX.w = 7 := rfl
@[simp] theorem Reg.THM.LADDER_AUTH.SHED_MAX_rst : Reg.THM.LADDER_AUTH.SHED_MAX.rst = 0 := rfl
@[simp] theorem Reg.THM.LADDER_CTRL.REVERSE_key (_i _j : Nat) : Reg.THM.LADDER_CTRL.REVERSE.key _i _j = 106624 := by simp [Fld.key, Reg.THM.LADDER_CTRL.REVERSE]
@[simp] theorem Reg.THM.LADDER_CTRL.REVERSE_w : Reg.THM.LADDER_CTRL.REVERSE.w = 8 := rfl
@[simp] theorem Reg.THM.LADDER_CTRL.REVERSE_rst : Reg.THM.LADDER_CTRL.REVERSE.rst = 0 := rfl
@[simp] theorem Reg.THM.LADDER.STEPS_key (i _j : Nat) : Reg.THM.LADDER.STEPS.key i _j = 107520 + 32 * i := by simp [Fld.key, Reg.THM.LADDER.STEPS]
@[simp] theorem Reg.THM.LADDER.STEPS_w : Reg.THM.LADDER.STEPS.w = 5 := rfl
@[simp] theorem Reg.THM.LADDER.STEPS_rst : Reg.THM.LADDER.STEPS.rst = 0 := rfl
@[simp] theorem Reg.THM.LADDER.EXHAUSTED_key (i _j : Nat) : Reg.THM.LADDER.EXHAUSTED.key i _j = 107525 + 32 * i := by simp [Fld.key, Reg.THM.LADDER.EXHAUSTED]
@[simp] theorem Reg.THM.LADDER.EXHAUSTED_w : Reg.THM.LADDER.EXHAUSTED.w = 1 := rfl
@[simp] theorem Reg.THM.LADDER.EXHAUSTED_rst : Reg.THM.LADDER.EXHAUSTED.rst = 0 := rfl
@[simp] theorem Reg.THM.LADDER.SHED_CNT_key (i _j : Nat) : Reg.THM.LADDER.SHED_CNT.key i _j = 107526 + 32 * i := by simp [Fld.key, Reg.THM.LADDER.SHED_CNT]
@[simp] theorem Reg.THM.LADDER.SHED_CNT_w : Reg.THM.LADDER.SHED_CNT.w = 7 := rfl
@[simp] theorem Reg.THM.LADDER.SHED_CNT_rst : Reg.THM.LADDER.SHED_CNT.rst = 0 := rfl
@[simp] theorem Reg.THM.TRIP_INFO.READING_key (_i _j : Nat) : Reg.THM.TRIP_INFO.READING.key _i _j = 106688 := by simp [Fld.key, Reg.THM.TRIP_INFO.READING]
@[simp] theorem Reg.THM.TRIP_INFO.READING_w : Reg.THM.TRIP_INFO.READING.w = 16 := rfl
@[simp] theorem Reg.THM.TRIP_INFO.READING_rst : Reg.THM.TRIP_INFO.READING.rst = 0 := rfl
@[simp] theorem Reg.THM.TRIP_INFO.SENSOR_key (_i _j : Nat) : Reg.THM.TRIP_INFO.SENSOR.key _i _j = 106704 := by simp [Fld.key, Reg.THM.TRIP_INFO.SENSOR]
@[simp] theorem Reg.THM.TRIP_INFO.SENSOR_w : Reg.THM.TRIP_INFO.SENSOR.w = 5 := rfl
@[simp] theorem Reg.THM.TRIP_INFO.SENSOR_rst : Reg.THM.TRIP_INFO.SENSOR.rst = 0 := rfl
@[simp] theorem Reg.THM.TRIP_INFO.COUNT_key (_i _j : Nat) : Reg.THM.TRIP_INFO.COUNT.key _i _j = 106712 := by simp [Fld.key, Reg.THM.TRIP_INFO.COUNT]
@[simp] theorem Reg.THM.TRIP_INFO.COUNT_w : Reg.THM.TRIP_INFO.COUNT.w = 8 := rfl
@[simp] theorem Reg.THM.TRIP_INFO.COUNT_rst : Reg.THM.TRIP_INFO.COUNT.rst = 0 := rfl
@[simp] theorem Reg.THM.TRIP_INFO.TIME_key (_i _j : Nat) : Reg.THM.TRIP_INFO.TIME.key _i _j = 106720 := by simp [Fld.key, Reg.THM.TRIP_INFO.TIME]
@[simp] theorem Reg.THM.TRIP_INFO.TIME_w : Reg.THM.TRIP_INFO.TIME.w = 32 := rfl
@[simp] theorem Reg.THM.TRIP_INFO.TIME_rst : Reg.THM.TRIP_INFO.TIME.rst = 0 := rfl
@[simp] theorem Reg.SEC.LC.LC_STATE_key (_i _j : Nat) : Reg.SEC.LC.LC_STATE.key _i _j = 131072 := by simp [Fld.key, Reg.SEC.LC.LC_STATE]
@[simp] theorem Reg.SEC.LC.LC_STATE_w : Reg.SEC.LC.LC_STATE.w = 2 := rfl
@[simp] theorem Reg.SEC.LC.LC_STATE_rst : Reg.SEC.LC.LC_STATE.rst = 1 := rfl
@[simp] theorem Reg.SEC.LC.CUST_ROOT_key (_i _j : Nat) : Reg.SEC.LC.CUST_ROOT.key _i _j = 131074 := by simp [Fld.key, Reg.SEC.LC.CUST_ROOT]
@[simp] theorem Reg.SEC.LC.CUST_ROOT_w : Reg.SEC.LC.CUST_ROOT.w = 1 := rfl
@[simp] theorem Reg.SEC.LC.CUST_ROOT_rst : Reg.SEC.LC.CUST_ROOT.rst = 0 := rfl
@[simp] theorem Reg.SEC.LC.IDENTITY_OK_key (_i _j : Nat) : Reg.SEC.LC.IDENTITY_OK.key _i _j = 131075 := by simp [Fld.key, Reg.SEC.LC.IDENTITY_OK]
@[simp] theorem Reg.SEC.LC.IDENTITY_OK_w : Reg.SEC.LC.IDENTITY_OK.w = 1 := rfl
@[simp] theorem Reg.SEC.LC.IDENTITY_OK_rst : Reg.SEC.LC.IDENTITY_OK.rst = 1 := rfl
@[simp] theorem Reg.SEC.LC.LC_PENDING_key (_i _j : Nat) : Reg.SEC.LC.LC_PENDING.key _i _j = 131076 := by simp [Fld.key, Reg.SEC.LC.LC_PENDING]
@[simp] theorem Reg.SEC.LC.LC_PENDING_w : Reg.SEC.LC.LC_PENDING.w = 1 := rfl
@[simp] theorem Reg.SEC.LC.LC_PENDING_rst : Reg.SEC.LC.LC_PENDING.rst = 0 := rfl
@[simp] theorem Reg.SEC.BOOT_STAT.READY_key (_i _j : Nat) : Reg.SEC.BOOT_STAT.READY.key _i _j = 131104 := by simp [Fld.key, Reg.SEC.BOOT_STAT.READY]
@[simp] theorem Reg.SEC.BOOT_STAT.READY_w : Reg.SEC.BOOT_STAT.READY.w = 1 := rfl
@[simp] theorem Reg.SEC.BOOT_STAT.READY_rst : Reg.SEC.BOOT_STAT.READY.rst = 0 := rfl
@[simp] theorem Reg.SEC.BOOT_STAT.SLOT_key (_i _j : Nat) : Reg.SEC.BOOT_STAT.SLOT.key _i _j = 131105 := by simp [Fld.key, Reg.SEC.BOOT_STAT.SLOT]
@[simp] theorem Reg.SEC.BOOT_STAT.SLOT_w : Reg.SEC.BOOT_STAT.SLOT.w = 1 := rfl
@[simp] theorem Reg.SEC.BOOT_STAT.SLOT_rst : Reg.SEC.BOOT_STAT.SLOT.rst = 0 := rfl
@[simp] theorem Reg.SEC.BOOT_STAT.BOOT_TRIAL_key (_i _j : Nat) : Reg.SEC.BOOT_STAT.BOOT_TRIAL.key _i _j = 131106 := by simp [Fld.key, Reg.SEC.BOOT_STAT.BOOT_TRIAL]
@[simp] theorem Reg.SEC.BOOT_STAT.BOOT_TRIAL_w : Reg.SEC.BOOT_STAT.BOOT_TRIAL.w = 1 := rfl
@[simp] theorem Reg.SEC.BOOT_STAT.BOOT_TRIAL_rst : Reg.SEC.BOOT_STAT.BOOT_TRIAL.rst = 0 := rfl
@[simp] theorem Reg.SEC.BOOT_STAT.FALLBACK_BOOT_key (_i _j : Nat) : Reg.SEC.BOOT_STAT.FALLBACK_BOOT.key _i _j = 131107 := by simp [Fld.key, Reg.SEC.BOOT_STAT.FALLBACK_BOOT]
@[simp] theorem Reg.SEC.BOOT_STAT.FALLBACK_BOOT_w : Reg.SEC.BOOT_STAT.FALLBACK_BOOT.w = 1 := rfl
@[simp] theorem Reg.SEC.BOOT_STAT.FALLBACK_BOOT_rst : Reg.SEC.BOOT_STAT.FALLBACK_BOOT.rst = 0 := rfl
@[simp] theorem Reg.SEC.BOOT_STAT.FAIL_A_key (_i _j : Nat) : Reg.SEC.BOOT_STAT.FAIL_A.key _i _j = 131108 := by simp [Fld.key, Reg.SEC.BOOT_STAT.FAIL_A]
@[simp] theorem Reg.SEC.BOOT_STAT.FAIL_A_w : Reg.SEC.BOOT_STAT.FAIL_A.w = 4 := rfl
@[simp] theorem Reg.SEC.BOOT_STAT.FAIL_A_rst : Reg.SEC.BOOT_STAT.FAIL_A.rst = 0 := rfl
@[simp] theorem Reg.SEC.BOOT_STAT.FAIL_B_key (_i _j : Nat) : Reg.SEC.BOOT_STAT.FAIL_B.key _i _j = 131112 := by simp [Fld.key, Reg.SEC.BOOT_STAT.FAIL_B]
@[simp] theorem Reg.SEC.BOOT_STAT.FAIL_B_w : Reg.SEC.BOOT_STAT.FAIL_B.w = 4 := rfl
@[simp] theorem Reg.SEC.BOOT_STAT.FAIL_B_rst : Reg.SEC.BOOT_STAT.FAIL_B.rst = 0 := rfl
@[simp] theorem Reg.SEC.BOOT_STAT.FLASH_RELEASED_key (_i _j : Nat) : Reg.SEC.BOOT_STAT.FLASH_RELEASED.key _i _j = 131116 := by simp [Fld.key, Reg.SEC.BOOT_STAT.FLASH_RELEASED]
@[simp] theorem Reg.SEC.BOOT_STAT.FLASH_RELEASED_w : Reg.SEC.BOOT_STAT.FLASH_RELEASED.w = 1 := rfl
@[simp] theorem Reg.SEC.BOOT_STAT.FLASH_RELEASED_rst : Reg.SEC.BOOT_STAT.FLASH_RELEASED.rst = 0 := rfl
@[simp] theorem Reg.SEC.BOOT_STAT.TRIES_key (_i _j : Nat) : Reg.SEC.BOOT_STAT.TRIES.key _i _j = 131120 := by simp [Fld.key, Reg.SEC.BOOT_STAT.TRIES]
@[simp] theorem Reg.SEC.BOOT_STAT.TRIES_w : Reg.SEC.BOOT_STAT.TRIES.w = 3 := rfl
@[simp] theorem Reg.SEC.BOOT_STAT.TRIES_rst : Reg.SEC.BOOT_STAT.TRIES.rst = 0 := rfl
@[simp] theorem Reg.SEC.ARB.COUNTER_key (_i _j : Nat) : Reg.SEC.ARB.COUNTER.key _i _j = 131136 := by simp [Fld.key, Reg.SEC.ARB.COUNTER]
@[simp] theorem Reg.SEC.ARB.COUNTER_w : Reg.SEC.ARB.COUNTER.w = 7 := rfl
@[simp] theorem Reg.SEC.ARB.COUNTER_rst : Reg.SEC.ARB.COUNTER.rst = 0 := rfl
@[simp] theorem Reg.SEC.SERIAL.SERIAL_key (_i _j : Nat) : Reg.SEC.SERIAL.SERIAL.key _i _j = 131264 := by simp [Fld.key, Reg.SEC.SERIAL.SERIAL]
@[simp] theorem Reg.SEC.SERIAL.SERIAL_w : Reg.SEC.SERIAL.SERIAL.w = 64 := rfl
@[simp] theorem Reg.SEC.SERIAL.SERIAL_rst : Reg.SEC.SERIAL.SERIAL.rst = 0 := rfl
@[simp] theorem Reg.UPD.CTRL.TWIN_SRC_EN_key (_i _j : Nat) : Reg.UPD.CTRL.TWIN_SRC_EN.key _i _j = 139264 := by simp [Fld.key, Reg.UPD.CTRL.TWIN_SRC_EN]
@[simp] theorem Reg.UPD.CTRL.TWIN_SRC_EN_w : Reg.UPD.CTRL.TWIN_SRC_EN.w = 1 := rfl
@[simp] theorem Reg.UPD.CTRL.TWIN_SRC_EN_rst : Reg.UPD.CTRL.TWIN_SRC_EN.rst = 0 := rfl
@[simp] theorem Reg.UPD.CTRL.PUSH_key (_i _j : Nat) : Reg.UPD.CTRL.PUSH.key _i _j = 139265 := by simp [Fld.key, Reg.UPD.CTRL.PUSH]
@[simp] theorem Reg.UPD.CTRL.PUSH_w : Reg.UPD.CTRL.PUSH.w = 1 := rfl
@[simp] theorem Reg.UPD.CTRL.PUSH_rst : Reg.UPD.CTRL.PUSH.rst = 0 := rfl
@[simp] theorem Reg.UPD.STAT.STATE_key (_i _j : Nat) : Reg.UPD.STAT.STATE.key _i _j = 139296 := by simp [Fld.key, Reg.UPD.STAT.STATE]
@[simp] theorem Reg.UPD.STAT.STATE_w : Reg.UPD.STAT.STATE.w = 4 := rfl
@[simp] theorem Reg.UPD.STAT.STATE_rst : Reg.UPD.STAT.STATE.rst = 0 := rfl
@[simp] theorem Reg.UPD.STAT.LOCK_key (_i _j : Nat) : Reg.UPD.STAT.LOCK.key _i _j = 139300 := by simp [Fld.key, Reg.UPD.STAT.LOCK]
@[simp] theorem Reg.UPD.STAT.LOCK_w : Reg.UPD.STAT.LOCK.w = 2 := rfl
@[simp] theorem Reg.UPD.STAT.LOCK_rst : Reg.UPD.STAT.LOCK.rst = 0 := rfl
@[simp] theorem Reg.UPD.STAT.LOCK_FN_key (_i _j : Nat) : Reg.UPD.STAT.LOCK_FN.key _i _j = 139302 := by simp [Fld.key, Reg.UPD.STAT.LOCK_FN]
@[simp] theorem Reg.UPD.STAT.LOCK_FN_w : Reg.UPD.STAT.LOCK_FN.w = 6 := rfl
@[simp] theorem Reg.UPD.STAT.LOCK_FN_rst : Reg.UPD.STAT.LOCK_FN.rst = 0 := rfl
@[simp] theorem Reg.UPD.STAT.PUSH_REFUSED_key (_i _j : Nat) : Reg.UPD.STAT.PUSH_REFUSED.key _i _j = 139308 := by simp [Fld.key, Reg.UPD.STAT.PUSH_REFUSED]
@[simp] theorem Reg.UPD.STAT.PUSH_REFUSED_w : Reg.UPD.STAT.PUSH_REFUSED.w = 1 := rfl
@[simp] theorem Reg.UPD.STAT.PUSH_REFUSED_rst : Reg.UPD.STAT.PUSH_REFUSED.rst = 0 := rfl
@[simp] theorem Reg.UPD.STAT.HEALTH_OK_key (_i _j : Nat) : Reg.UPD.STAT.HEALTH_OK.key _i _j = 139309 := by simp [Fld.key, Reg.UPD.STAT.HEALTH_OK]
@[simp] theorem Reg.UPD.STAT.HEALTH_OK_w : Reg.UPD.STAT.HEALTH_OK.w = 1 := rfl
@[simp] theorem Reg.UPD.STAT.HEALTH_OK_rst : Reg.UPD.STAT.HEALTH_OK.rst = 0 := rfl
@[simp] theorem Reg.UPD.STAT.LAST_FALLBACK_key (_i _j : Nat) : Reg.UPD.STAT.LAST_FALLBACK.key _i _j = 139310 := by simp [Fld.key, Reg.UPD.STAT.LAST_FALLBACK]
@[simp] theorem Reg.UPD.STAT.LAST_FALLBACK_w : Reg.UPD.STAT.LAST_FALLBACK.w = 1 := rfl
@[simp] theorem Reg.UPD.STAT.LAST_FALLBACK_rst : Reg.UPD.STAT.LAST_FALLBACK.rst = 0 := rfl
@[simp] theorem Reg.UPD.STAT.WINDOW_LEFT_key (_i _j : Nat) : Reg.UPD.STAT.WINDOW_LEFT.key _i _j = 139312 := by simp [Fld.key, Reg.UPD.STAT.WINDOW_LEFT]
@[simp] theorem Reg.UPD.STAT.WINDOW_LEFT_w : Reg.UPD.STAT.WINDOW_LEFT.w = 16 := rfl
@[simp] theorem Reg.UPD.STAT.WINDOW_LEFT_rst : Reg.UPD.STAT.WINDOW_LEFT.rst = 0 := rfl
@[simp] theorem Reg.UPD.VERSION.RUNNING_key (_i _j : Nat) : Reg.UPD.VERSION.RUNNING.key _i _j = 139328 := by simp [Fld.key, Reg.UPD.VERSION.RUNNING]
@[simp] theorem Reg.UPD.VERSION.RUNNING_w : Reg.UPD.VERSION.RUNNING.w = 32 := rfl
@[simp] theorem Reg.UPD.VERSION.RUNNING_rst : Reg.UPD.VERSION.RUNNING.rst = 0 := rfl
@[simp] theorem Reg.UPD.VERSION.STAGED_key (_i _j : Nat) : Reg.UPD.VERSION.STAGED.key _i _j = 139360 := by simp [Fld.key, Reg.UPD.VERSION.STAGED]
@[simp] theorem Reg.UPD.VERSION.STAGED_w : Reg.UPD.VERSION.STAGED.w = 32 := rfl
@[simp] theorem Reg.UPD.VERSION.STAGED_rst : Reg.UPD.VERSION.STAGED.rst = 0 := rfl
@[simp] theorem Reg.UPD.PROGRESS.PERCENT_key (_i _j : Nat) : Reg.UPD.PROGRESS.PERCENT.key _i _j = 139392 := by simp [Fld.key, Reg.UPD.PROGRESS.PERCENT]
@[simp] theorem Reg.UPD.PROGRESS.PERCENT_w : Reg.UPD.PROGRESS.PERCENT.w = 8 := rfl
@[simp] theorem Reg.UPD.PROGRESS.PERCENT_rst : Reg.UPD.PROGRESS.PERCENT.rst = 0 := rfl
@[simp] theorem Reg.UPD.PROGRESS.SWAPPED_key (_i _j : Nat) : Reg.UPD.PROGRESS.SWAPPED.key _i _j = 139400 := by simp [Fld.key, Reg.UPD.PROGRESS.SWAPPED]
@[simp] theorem Reg.UPD.PROGRESS.SWAPPED_w : Reg.UPD.PROGRESS.SWAPPED.w = 7 := rfl
@[simp] theorem Reg.UPD.PROGRESS.SWAPPED_rst : Reg.UPD.PROGRESS.SWAPPED.rst = 0 := rfl
@[simp] theorem Reg.UPD.RECORD.SEQ_key (_i _j : Nat) : Reg.UPD.RECORD.SEQ.key _i _j = 139424 := by simp [Fld.key, Reg.UPD.RECORD.SEQ]
@[simp] theorem Reg.UPD.RECORD.SEQ_w : Reg.UPD.RECORD.SEQ.w = 32 := rfl
@[simp] theorem Reg.UPD.RECORD.SEQ_rst : Reg.UPD.RECORD.SEQ.rst = 0 := rfl
@[simp] theorem Reg.GLB.ADC_CHAR.E_CONV_key (_i _j : Nat) : Reg.GLB.ADC_CHAR.E_CONV.key _i _j = 30720 := by simp [Fld.key, Reg.GLB.ADC_CHAR.E_CONV]
@[simp] theorem Reg.GLB.ADC_CHAR.E_CONV_w : Reg.GLB.ADC_CHAR.E_CONV.w = 12 := rfl
@[simp] theorem Reg.GLB.ADC_CHAR.E_CONV_rst : Reg.GLB.ADC_CHAR.E_CONV.rst = 0 := rfl
@[simp] theorem Reg.GLB.ADC_CHAR.ENOB_key (_i _j : Nat) : Reg.GLB.ADC_CHAR.ENOB.key _i _j = 30732 := by simp [Fld.key, Reg.GLB.ADC_CHAR.ENOB]
@[simp] theorem Reg.GLB.ADC_CHAR.ENOB_w : Reg.GLB.ADC_CHAR.ENOB.w = 10 := rfl
@[simp] theorem Reg.GLB.ADC_CHAR.ENOB_rst : Reg.GLB.ADC_CHAR.ENOB.rst = 0 := rfl
@[simp] theorem Reg.GLB.ID.PART_key (_i _j : Nat) : Reg.GLB.ID.PART.key _i _j = 0 := by simp [Fld.key, Reg.GLB.ID.PART]
@[simp] theorem Reg.GLB.ID.PART_w : Reg.GLB.ID.PART.w = 16 := rfl
@[simp] theorem Reg.GLB.ID.PART_rst : Reg.GLB.ID.PART.rst = 25672 := rfl
@[simp] theorem Reg.GLB.ID.REV_MAJOR_key (_i _j : Nat) : Reg.GLB.ID.REV_MAJOR.key _i _j = 16 := by simp [Fld.key, Reg.GLB.ID.REV_MAJOR]
@[simp] theorem Reg.GLB.ID.REV_MAJOR_w : Reg.GLB.ID.REV_MAJOR.w = 4 := rfl
@[simp] theorem Reg.GLB.ID.REV_MAJOR_rst : Reg.GLB.ID.REV_MAJOR.rst = 11 := rfl
@[simp] theorem Reg.GLB.ID.REV_MINOR_key (_i _j : Nat) : Reg.GLB.ID.REV_MINOR.key _i _j = 20 := by simp [Fld.key, Reg.GLB.ID.REV_MINOR]
@[simp] theorem Reg.GLB.ID.REV_MINOR_w : Reg.GLB.ID.REV_MINOR.w = 4 := rfl
@[simp] theorem Reg.GLB.ID.REV_MINOR_rst : Reg.GLB.ID.REV_MINOR.rst = 0 := rfl
@[simp] theorem Reg.GLB.ID.FAMILY_key (_i _j : Nat) : Reg.GLB.ID.FAMILY.key _i _j = 24 := by simp [Fld.key, Reg.GLB.ID.FAMILY]
@[simp] theorem Reg.GLB.ID.FAMILY_w : Reg.GLB.ID.FAMILY.w = 8 := rfl
@[simp] theorem Reg.GLB.ID.FAMILY_rst : Reg.GLB.ID.FAMILY.rst = 84 := rfl
@[simp] theorem Reg.GLB.CAP.GRADE_key (_i _j : Nat) : Reg.GLB.CAP.GRADE.key _i _j = 32 := by simp [Fld.key, Reg.GLB.CAP.GRADE]
@[simp] theorem Reg.GLB.CAP.GRADE_w : Reg.GLB.CAP.GRADE.w = 4 := rfl
@[simp] theorem Reg.GLB.CAP.GRADE_rst : Reg.GLB.CAP.GRADE.rst = 1 := rfl
@[simp] theorem Reg.GLB.CAP.MODES_key (_i _j : Nat) : Reg.GLB.CAP.MODES.key _i _j = 36 := by simp [Fld.key, Reg.GLB.CAP.MODES]
@[simp] theorem Reg.GLB.CAP.MODES_w : Reg.GLB.CAP.MODES.w = 6 := rfl
@[simp] theorem Reg.GLB.CAP.MODES_rst : Reg.GLB.CAP.MODES.rst = 63 := rfl
@[simp] theorem Reg.GLB.CAP.LANES_key (_i _j : Nat) : Reg.GLB.CAP.LANES.key _i _j = 42 := by simp [Fld.key, Reg.GLB.CAP.LANES]
@[simp] theorem Reg.GLB.CAP.LANES_w : Reg.GLB.CAP.LANES.w = 7 := rfl
@[simp] theorem Reg.GLB.CAP.LANES_rst : Reg.GLB.CAP.LANES.rst = 64 := rfl
@[simp] theorem Reg.GLB.CAP.HOST_LANES_key (_i _j : Nat) : Reg.GLB.CAP.HOST_LANES.key _i _j = 49 := by simp [Fld.key, Reg.GLB.CAP.HOST_LANES]
@[simp] theorem Reg.GLB.CAP.HOST_LANES_w : Reg.GLB.CAP.HOST_LANES.w = 8 := rfl
@[simp] theorem Reg.GLB.CAP.HOST_LANES_rst : Reg.GLB.CAP.HOST_LANES.rst = 128 := rfl
@[simp] theorem Reg.GLB.CAP.COURSES_key (_i _j : Nat) : Reg.GLB.CAP.COURSES.key _i _j = 57 := by simp [Fld.key, Reg.GLB.CAP.COURSES]
@[simp] theorem Reg.GLB.CAP.COURSES_w : Reg.GLB.CAP.COURSES.w = 4 := rfl
@[simp] theorem Reg.GLB.CAP.COURSES_rst : Reg.GLB.CAP.COURSES.rst = 8 := rfl
@[simp] theorem Reg.GLB.CAP.TWIN_key (_i _j : Nat) : Reg.GLB.CAP.TWIN.key _i _j = 61 := by simp [Fld.key, Reg.GLB.CAP.TWIN]
@[simp] theorem Reg.GLB.CAP.TWIN_w : Reg.GLB.CAP.TWIN.w = 1 := rfl
@[simp] theorem Reg.GLB.CAP.TWIN_rst : Reg.GLB.CAP.TWIN.rst = 1 := rfl
@[simp] theorem Reg.GLB.OFFDOM.OFFSET_key (_i _j : Nat) : Reg.GLB.OFFDOM.OFFSET.key _i _j = 2048 := by simp [Fld.key, Reg.GLB.OFFDOM.OFFSET]
@[simp] theorem Reg.GLB.OFFDOM.OFFSET_w : Reg.GLB.OFFDOM.OFFSET.w = 24 := rfl
@[simp] theorem Reg.GLB.OFFDOM.OFFSET_rst : Reg.GLB.OFFDOM.OFFSET.rst = 0 := rfl
@[simp] theorem Reg.GLB.OFFDOM.WRITE_key (_i _j : Nat) : Reg.GLB.OFFDOM.WRITE.key _i _j = 2072 := by simp [Fld.key, Reg.GLB.OFFDOM.WRITE]
@[simp] theorem Reg.GLB.OFFDOM.WRITE_w : Reg.GLB.OFFDOM.WRITE.w = 1 := rfl
@[simp] theorem Reg.GLB.OFFDOM.WRITE_rst : Reg.GLB.OFFDOM.WRITE.rst = 0 := rfl
@[simp] theorem Reg.GLB.OFFDOM.VALID_key (_i _j : Nat) : Reg.GLB.OFFDOM.VALID.key _i _j = 2079 := by simp [Fld.key, Reg.GLB.OFFDOM.VALID]
@[simp] theorem Reg.GLB.OFFDOM.VALID_w : Reg.GLB.OFFDOM.VALID.w = 1 := rfl
@[simp] theorem Reg.GLB.OFFDOM.VALID_rst : Reg.GLB.OFFDOM.VALID.rst = 0 := rfl
@[simp] theorem Reg.GLB.OFFDOM_CNT.COUNT_key (_i _j : Nat) : Reg.GLB.OFFDOM_CNT.COUNT.key _i _j = 2080 := by simp [Fld.key, Reg.GLB.OFFDOM_CNT.COUNT]
@[simp] theorem Reg.GLB.OFFDOM_CNT.COUNT_w : Reg.GLB.OFFDOM_CNT.COUNT.w = 16 := rfl
@[simp] theorem Reg.GLB.OFFDOM_CNT.COUNT_rst : Reg.GLB.OFFDOM_CNT.COUNT.rst = 0 := rfl
@[simp] theorem Reg.GLB.ACC_ERR.COUNT_key (_i _j : Nat) : Reg.GLB.ACC_ERR.COUNT.key _i _j = 2112 := by simp [Fld.key, Reg.GLB.ACC_ERR.COUNT]
@[simp] theorem Reg.GLB.ACC_ERR.COUNT_w : Reg.GLB.ACC_ERR.COUNT.w = 16 := rfl
@[simp] theorem Reg.GLB.ACC_ERR.COUNT_rst : Reg.GLB.ACC_ERR.COUNT.rst = 0 := rfl
@[simp] theorem Reg.GLB.LINK.SPEED_key (_i _j : Nat) : Reg.GLB.LINK.SPEED.key _i _j = 4096 := by simp [Fld.key, Reg.GLB.LINK.SPEED]
@[simp] theorem Reg.GLB.LINK.SPEED_w : Reg.GLB.LINK.SPEED.w = 3 := rfl
@[simp] theorem Reg.GLB.LINK.SPEED_rst : Reg.GLB.LINK.SPEED.rst = 0 := rfl
@[simp] theorem Reg.GLB.LINK.WIDTH_key (_i _j : Nat) : Reg.GLB.LINK.WIDTH.key _i _j = 4099 := by simp [Fld.key, Reg.GLB.LINK.WIDTH]
@[simp] theorem Reg.GLB.LINK.WIDTH_w : Reg.GLB.LINK.WIDTH.w = 5 := rfl
@[simp] theorem Reg.GLB.LINK.WIDTH_rst : Reg.GLB.LINK.WIDTH.rst = 0 := rfl
@[simp] theorem Reg.GLB.LINK.FLIT_key (_i _j : Nat) : Reg.GLB.LINK.FLIT.key _i _j = 4104 := by simp [Fld.key, Reg.GLB.LINK.FLIT]
@[simp] theorem Reg.GLB.LINK.FLIT_w : Reg.GLB.LINK.FLIT.w = 1 := rfl
@[simp] theorem Reg.GLB.LINK.FLIT_rst : Reg.GLB.LINK.FLIT.rst = 0 := rfl
@[simp] theorem Reg.GLB.LINK.DEGRADED_key (_i _j : Nat) : Reg.GLB.LINK.DEGRADED.key _i _j = 4105 := by simp [Fld.key, Reg.GLB.LINK.DEGRADED]
@[simp] theorem Reg.GLB.LINK.DEGRADED_w : Reg.GLB.LINK.DEGRADED.w = 1 := rfl
@[simp] theorem Reg.GLB.LINK.DEGRADED_rst : Reg.GLB.LINK.DEGRADED.rst = 0 := rfl
@[simp] theorem Reg.GLB.LINK.DEG_CHG_key (_i _j : Nat) : Reg.GLB.LINK.DEG_CHG.key _i _j = 4106 := by simp [Fld.key, Reg.GLB.LINK.DEG_CHG]
@[simp] theorem Reg.GLB.LINK.DEG_CHG_w : Reg.GLB.LINK.DEG_CHG.w = 1 := rfl
@[simp] theorem Reg.GLB.LINK.DEG_CHG_rst : Reg.GLB.LINK.DEG_CHG.rst = 0 := rfl
@[simp] theorem Reg.GLB.TIME.NS_key (_i _j : Nat) : Reg.GLB.TIME.NS.key _i _j = 4160 := by simp [Fld.key, Reg.GLB.TIME.NS]
@[simp] theorem Reg.GLB.TIME.NS_w : Reg.GLB.TIME.NS.w = 64 := rfl
@[simp] theorem Reg.GLB.TIME.NS_rst : Reg.GLB.TIME.NS.rst = 0 := rfl
@[simp] theorem Reg.EVT.MAP.RING_key (i _j : Nat) : Reg.EVT.MAP.RING.key i _j = 262144 + 32 * i := by simp [Fld.key, Reg.EVT.MAP.RING]
@[simp] theorem Reg.EVT.MAP.RING_w : Reg.EVT.MAP.RING.w = 12 := rfl
@[simp] theorem Reg.EVT.MAP.RING_rst : Reg.EVT.MAP.RING.rst = 0 := rfl
@[simp] theorem Reg.EVT.MAP.EN_key (i _j : Nat) : Reg.EVT.MAP.EN.key i _j = 262156 + 32 * i := by simp [Fld.key, Reg.EVT.MAP.EN]
@[simp] theorem Reg.EVT.MAP.EN_w : Reg.EVT.MAP.EN.w = 1 := rfl
@[simp] theorem Reg.EVT.MAP.EN_rst : Reg.EVT.MAP.EN.rst = 0 := rfl
@[simp] theorem Reg.EVT.MAP.OWN_VEC_key (i _j : Nat) : Reg.EVT.MAP.OWN_VEC.key i _j = 262157 + 32 * i := by simp [Fld.key, Reg.EVT.MAP.OWN_VEC]
@[simp] theorem Reg.EVT.MAP.OWN_VEC_w : Reg.EVT.MAP.OWN_VEC.w = 1 := rfl
@[simp] theorem Reg.EVT.MAP.OWN_VEC_rst : Reg.EVT.MAP.OWN_VEC.rst = 0 := rfl
@[simp] theorem Reg.EVT.MAP.VECTOR_key (i _j : Nat) : Reg.EVT.MAP.VECTOR.key i _j = 262158 + 32 * i := by simp [Fld.key, Reg.EVT.MAP.VECTOR]
@[simp] theorem Reg.EVT.MAP.VECTOR_w : Reg.EVT.MAP.VECTOR.w = 11 := rfl
@[simp] theorem Reg.EVT.MAP.VECTOR_rst : Reg.EVT.MAP.VECTOR.rst = 0 := rfl
@[simp] theorem Reg.EVT.MAP.INTR_key (i _j : Nat) : Reg.EVT.MAP.INTR.key i _j = 262169 + 32 * i := by simp [Fld.key, Reg.EVT.MAP.INTR]
@[simp] theorem Reg.EVT.MAP.INTR_w : Reg.EVT.MAP.INTR.w = 1 := rfl
@[simp] theorem Reg.EVT.MAP.INTR_rst : Reg.EVT.MAP.INTR.rst = 1 := rfl
@[simp] theorem Reg.EVT.LATCH.RAISED_key (i _j : Nat) : Reg.EVT.LATCH.RAISED.key i _j = 258048 + 1 * i := by simp [Fld.key, Reg.EVT.LATCH.RAISED]
@[simp] theorem Reg.EVT.LATCH.RAISED_w : Reg.EVT.LATCH.RAISED.w = 1 := rfl
@[simp] theorem Reg.EVT.LATCH.RAISED_rst : Reg.EVT.LATCH.RAISED.rst = 0 := rfl
@[simp] theorem Reg.EVT.STAT.UNDELIVERED_key (_i _j : Nat) : Reg.EVT.STAT.UNDELIVERED.key _i _j = 260096 := by simp [Fld.key, Reg.EVT.STAT.UNDELIVERED]
@[simp] theorem Reg.EVT.STAT.UNDELIVERED_w : Reg.EVT.STAT.UNDELIVERED.w = 16 := rfl
@[simp] theorem Reg.EVT.STAT.UNDELIVERED_rst : Reg.EVT.STAT.UNDELIVERED.rst = 0 := rfl
@[simp] theorem Reg.EVT.STAT.LAST_SRC_key (_i _j : Nat) : Reg.EVT.STAT.LAST_SRC.key _i _j = 260112 := by simp [Fld.key, Reg.EVT.STAT.LAST_SRC]
@[simp] theorem Reg.EVT.STAT.LAST_SRC_w : Reg.EVT.STAT.LAST_SRC.w = 10 := rfl
@[simp] theorem Reg.EVT.STAT.LAST_SRC_rst : Reg.EVT.STAT.LAST_SRC.rst = 0 := rfl
@[simp] theorem Reg.EVT.STAT.HELD_key (_i _j : Nat) : Reg.EVT.STAT.HELD.key _i _j = 260122 := by simp [Fld.key, Reg.EVT.STAT.HELD]
@[simp] theorem Reg.EVT.STAT.HELD_w : Reg.EVT.STAT.HELD.w = 1 := rfl
@[simp] theorem Reg.EVT.STAT.HELD_rst : Reg.EVT.STAT.HELD.rst = 0 := rfl
@[simp] theorem Reg.GLB.ENG_SPARE_MAP.LOGICAL_key (i _j : Nat) : Reg.GLB.ENG_SPARE_MAP.LOGICAL.key i _j = 49152 + 8 * i := by simp [Fld.key, Reg.GLB.ENG_SPARE_MAP.LOGICAL]
@[simp] theorem Reg.GLB.ENG_SPARE_MAP.LOGICAL_w : Reg.GLB.ENG_SPARE_MAP.LOGICAL.w = 7 := rfl
@[simp] theorem Reg.GLB.ENG_SPARE_MAP.LOGICAL_rst : Reg.GLB.ENG_SPARE_MAP.LOGICAL.rst = 0 := rfl
@[simp] theorem Reg.GLB.ENG_SPARE_MAP.MAPPED_key (i _j : Nat) : Reg.GLB.ENG_SPARE_MAP.MAPPED.key i _j = 49159 + 8 * i := by simp [Fld.key, Reg.GLB.ENG_SPARE_MAP.MAPPED]
@[simp] theorem Reg.GLB.ENG_SPARE_MAP.MAPPED_w : Reg.GLB.ENG_SPARE_MAP.MAPPED.w = 1 := rfl
@[simp] theorem Reg.GLB.ENG_SPARE_MAP.MAPPED_rst : Reg.GLB.ENG_SPARE_MAP.MAPPED.rst = 0 := rfl
@[simp] theorem Reg.THM.SHED.LANE_key (i _j : Nat) : Reg.THM.SHED.LANE.key i _j = 107776 + 8 * i := by simp [Fld.key, Reg.THM.SHED.LANE]
@[simp] theorem Reg.THM.SHED.LANE_w : Reg.THM.SHED.LANE.w = 6 := rfl
@[simp] theorem Reg.THM.SHED.LANE_rst : Reg.THM.SHED.LANE.rst = 0 := rfl
@[simp] theorem Reg.THM.SHED.VALID_key (i _j : Nat) : Reg.THM.SHED.VALID.key i _j = 107783 + 8 * i := by simp [Fld.key, Reg.THM.SHED.VALID]
@[simp] theorem Reg.THM.SHED.VALID_w : Reg.THM.SHED.VALID.w = 1 := rfl
@[simp] theorem Reg.THM.SHED.VALID_rst : Reg.THM.SHED.VALID.rst = 0 := rfl
@[simp] theorem Reg.SEC.KEYSLOTS.FULL_key (i _j : Nat) : Reg.SEC.KEYSLOTS.FULL.key i _j = 131200 + 1 * i := by simp [Fld.key, Reg.SEC.KEYSLOTS.FULL]
@[simp] theorem Reg.SEC.KEYSLOTS.FULL_w : Reg.SEC.KEYSLOTS.FULL.w = 1 := rfl
@[simp] theorem Reg.SEC.KEYSLOTS.FULL_rst : Reg.SEC.KEYSLOTS.FULL.rst = 0 := rfl
@[simp] theorem Reg.CRS.CAL_CTRL.DT_CAL_key (i _j : Nat) : Reg.CRS.CAL_CTRL.DT_CAL.key i _j = 8392704 + 524288 * i := by simp [Fld.key, Reg.CRS.CAL_CTRL.DT_CAL]
@[simp] theorem Reg.CRS.CAL_CTRL.DT_CAL_w : Reg.CRS.CAL_CTRL.DT_CAL.w = 8 := rfl
@[simp] theorem Reg.CRS.CAL_CTRL.DT_CAL_rst : Reg.CRS.CAL_CTRL.DT_CAL.rst = 40 := rfl
@[simp] theorem Reg.CRS.CAL_CTRL.DT_EN_key (i _j : Nat) : Reg.CRS.CAL_CTRL.DT_EN.key i _j = 8392712 + 524288 * i := by simp [Fld.key, Reg.CRS.CAL_CTRL.DT_EN]
@[simp] theorem Reg.CRS.CAL_CTRL.DT_EN_w : Reg.CRS.CAL_CTRL.DT_EN.w = 1 := rfl
@[simp] theorem Reg.CRS.CAL_CTRL.DT_EN_rst : Reg.CRS.CAL_CTRL.DT_EN.rst = 1 := rfl
@[simp] theorem Reg.CRS.EPOCH_CFG.SYNC_DIV_key (i _j : Nat) : Reg.CRS.EPOCH_CFG.SYNC_DIV.key i _j = 8396800 + 524288 * i := by simp [Fld.key, Reg.CRS.EPOCH_CFG.SYNC_DIV]
@[simp] theorem Reg.CRS.EPOCH_CFG.SYNC_DIV_w : Reg.CRS.EPOCH_CFG.SYNC_DIV.w = 8 := rfl
@[simp] theorem Reg.CRS.EPOCH_CFG.SYNC_DIV_rst : Reg.CRS.EPOCH_CFG.SYNC_DIV.rst = 0 := rfl
@[simp] theorem Reg.CRS.EPOCH_CFG.SYNC_EN_key (i _j : Nat) : Reg.CRS.EPOCH_CFG.SYNC_EN.key i _j = 8396808 + 524288 * i := by simp [Fld.key, Reg.CRS.EPOCH_CFG.SYNC_EN]
@[simp] theorem Reg.CRS.EPOCH_CFG.SYNC_EN_w : Reg.CRS.EPOCH_CFG.SYNC_EN.w = 1 := rfl
@[simp] theorem Reg.CRS.EPOCH_CFG.SYNC_EN_rst : Reg.CRS.EPOCH_CFG.SYNC_EN.rst = 0 := rfl
@[simp] theorem Reg.CRS.EPOCH_CFG.FREE_START_key (i _j : Nat) : Reg.CRS.EPOCH_CFG.FREE_START.key i _j = 8396809 + 524288 * i := by simp [Fld.key, Reg.CRS.EPOCH_CFG.FREE_START]
@[simp] theorem Reg.CRS.EPOCH_CFG.FREE_START_w : Reg.CRS.EPOCH_CFG.FREE_START.w = 1 := rfl
@[simp] theorem Reg.CRS.EPOCH_CFG.FREE_START_rst : Reg.CRS.EPOCH_CFG.FREE_START.rst = 0 := rfl
@[simp] theorem Reg.CRS.EPOCH_LEN.TICKS_key (i _j : Nat) : Reg.CRS.EPOCH_LEN.TICKS.key i _j = 8396832 + 524288 * i := by simp [Fld.key, Reg.CRS.EPOCH_LEN.TICKS]
@[simp] theorem Reg.CRS.EPOCH_LEN.TICKS_w : Reg.CRS.EPOCH_LEN.TICKS.w = 27 := rfl
@[simp] theorem Reg.CRS.EPOCH_LEN.TICKS_rst : Reg.CRS.EPOCH_LEN.TICKS.rst = 0 := rfl
@[simp] theorem Reg.CRS.EPOCH_OFS.TICKS_key (i _j : Nat) : Reg.CRS.EPOCH_OFS.TICKS.key i _j = 8396864 + 524288 * i := by simp [Fld.key, Reg.CRS.EPOCH_OFS.TICKS]
@[simp] theorem Reg.CRS.EPOCH_OFS.TICKS_w : Reg.CRS.EPOCH_OFS.TICKS.w = 27 := rfl
@[simp] theorem Reg.CRS.EPOCH_OFS.TICKS_rst : Reg.CRS.EPOCH_OFS.TICKS.rst = 0 := rfl
@[simp] theorem Reg.CRS.EPOCH_STAT.STATE_key (i _j : Nat) : Reg.CRS.EPOCH_STAT.STATE.key i _j = 8396896 + 524288 * i := by simp [Fld.key, Reg.CRS.EPOCH_STAT.STATE]
@[simp] theorem Reg.CRS.EPOCH_STAT.STATE_w : Reg.CRS.EPOCH_STAT.STATE.w = 2 := rfl
@[simp] theorem Reg.CRS.EPOCH_STAT.STATE_rst : Reg.CRS.EPOCH_STAT.STATE.rst = 0 := rfl
@[simp] theorem Reg.CRS.EPOCH_STAT.BANK_key (i _j : Nat) : Reg.CRS.EPOCH_STAT.BANK.key i _j = 8396898 + 524288 * i := by simp [Fld.key, Reg.CRS.EPOCH_STAT.BANK]
@[simp] theorem Reg.CRS.EPOCH_STAT.BANK_w : Reg.CRS.EPOCH_STAT.BANK.w = 1 := rfl
@[simp] theorem Reg.CRS.EPOCH_STAT.BANK_rst : Reg.CRS.EPOCH_STAT.BANK.rst = 0 := rfl
@[simp] theorem Reg.CRS.EPOCH_STAT.COMMIT_PENDING_key (i _j : Nat) : Reg.CRS.EPOCH_STAT.COMMIT_PENDING.key i _j = 8396899 + 524288 * i := by simp [Fld.key, Reg.CRS.EPOCH_STAT.COMMIT_PENDING]
@[simp] theorem Reg.CRS.EPOCH_STAT.COMMIT_PENDING_w : Reg.CRS.EPOCH_STAT.COMMIT_PENDING.w = 1 := rfl
@[simp] theorem Reg.CRS.EPOCH_STAT.COMMIT_PENDING_rst : Reg.CRS.EPOCH_STAT.COMMIT_PENDING.rst = 0 := rfl
@[simp] theorem Reg.CRS.EPOCH_STAT.LAST_ERR_key (i _j : Nat) : Reg.CRS.EPOCH_STAT.LAST_ERR.key i _j = 8396900 + 524288 * i := by simp [Fld.key, Reg.CRS.EPOCH_STAT.LAST_ERR]
@[simp] theorem Reg.CRS.EPOCH_STAT.LAST_ERR_w : Reg.CRS.EPOCH_STAT.LAST_ERR.w = 16 := rfl
@[simp] theorem Reg.CRS.EPOCH_STAT.LAST_ERR_rst : Reg.CRS.EPOCH_STAT.LAST_ERR.rst = 0 := rfl
@[simp] theorem Reg.CRS.EPOCH_STAT.SYNC_AGE_key (i _j : Nat) : Reg.CRS.EPOCH_STAT.SYNC_AGE.key i _j = 8396916 + 524288 * i := by simp [Fld.key, Reg.CRS.EPOCH_STAT.SYNC_AGE]
@[simp] theorem Reg.CRS.EPOCH_STAT.SYNC_AGE_w : Reg.CRS.EPOCH_STAT.SYNC_AGE.w = 8 := rfl
@[simp] theorem Reg.CRS.EPOCH_STAT.SYNC_AGE_rst : Reg.CRS.EPOCH_STAT.SYNC_AGE.rst = 0 := rfl
@[simp] theorem Reg.CRS.EPOCH_STAT.EXTRA_SYNC_key (i _j : Nat) : Reg.CRS.EPOCH_STAT.EXTRA_SYNC.key i _j = 8396924 + 524288 * i := by simp [Fld.key, Reg.CRS.EPOCH_STAT.EXTRA_SYNC]
@[simp] theorem Reg.CRS.EPOCH_STAT.EXTRA_SYNC_w : Reg.CRS.EPOCH_STAT.EXTRA_SYNC.w = 4 := rfl
@[simp] theorem Reg.CRS.EPOCH_STAT.EXTRA_SYNC_rst : Reg.CRS.EPOCH_STAT.EXTRA_SYNC.rst = 0 := rfl
@[simp] theorem Reg.CRS.EPOCH_CNT.COUNT_key (i _j : Nat) : Reg.CRS.EPOCH_CNT.COUNT.key i _j = 8396928 + 524288 * i := by simp [Fld.key, Reg.CRS.EPOCH_CNT.COUNT]
@[simp] theorem Reg.CRS.EPOCH_CNT.COUNT_w : Reg.CRS.EPOCH_CNT.COUNT.w = 32 := rfl
@[simp] theorem Reg.CRS.EPOCH_CNT.COUNT_rst : Reg.CRS.EPOCH_CNT.COUNT.rst = 0 := rfl
@[simp] theorem Reg.CRS.SLACK.CUR_key (i _j : Nat) : Reg.CRS.SLACK.CUR.key i _j = 8398848 + 524288 * i := by simp [Fld.key, Reg.CRS.SLACK.CUR]
@[simp] theorem Reg.CRS.SLACK.CUR_w : Reg.CRS.SLACK.CUR.w = 8 := rfl
@[simp] theorem Reg.CRS.SLACK.CUR_rst : Reg.CRS.SLACK.CUR.rst = 255 := rfl
@[simp] theorem Reg.CRS.SLACK.MIN_key (i _j : Nat) : Reg.CRS.SLACK.MIN.key i _j = 8398856 + 524288 * i := by simp [Fld.key, Reg.CRS.SLACK.MIN]
@[simp] theorem Reg.CRS.SLACK.MIN_w : Reg.CRS.SLACK.MIN.w = 8 := rfl
@[simp] theorem Reg.CRS.SLACK.MIN_rst : Reg.CRS.SLACK.MIN.rst = 255 := rfl
@[simp] theorem Reg.CRS.SLACK.SRC_key (i _j : Nat) : Reg.CRS.SLACK.SRC.key i _j = 8398864 + 524288 * i := by simp [Fld.key, Reg.CRS.SLACK.SRC]
@[simp] theorem Reg.CRS.SLACK.SRC_w : Reg.CRS.SLACK.SRC.w = 6 := rfl
@[simp] theorem Reg.CRS.SLACK.SRC_rst : Reg.CRS.SLACK.SRC.rst = 63 := rfl
@[simp] theorem Reg.CRS.SLACK.LOW_key (i _j : Nat) : Reg.CRS.SLACK.LOW.key i _j = 8398870 + 524288 * i := by simp [Fld.key, Reg.CRS.SLACK.LOW]
@[simp] theorem Reg.CRS.SLACK.LOW_w : Reg.CRS.SLACK.LOW.w = 1 := rfl
@[simp] theorem Reg.CRS.SLACK.LOW_rst : Reg.CRS.SLACK.LOW.rst = 0 := rfl
@[simp] theorem Reg.CRS.SLACK.CRIT_key (i _j : Nat) : Reg.CRS.SLACK.CRIT.key i _j = 8398871 + 524288 * i := by simp [Fld.key, Reg.CRS.SLACK.CRIT]
@[simp] theorem Reg.CRS.SLACK.CRIT_w : Reg.CRS.SLACK.CRIT.w = 1 := rfl
@[simp] theorem Reg.CRS.SLACK.CRIT_rst : Reg.CRS.SLACK.CRIT.rst = 0 := rfl
@[simp] theorem Reg.CRS.SLACK.VALID_key (i _j : Nat) : Reg.CRS.SLACK.VALID.key i _j = 8398872 + 524288 * i := by simp [Fld.key, Reg.CRS.SLACK.VALID]
@[simp] theorem Reg.CRS.SLACK.VALID_w : Reg.CRS.SLACK.VALID.w = 1 := rfl
@[simp] theorem Reg.CRS.SLACK.VALID_rst : Reg.CRS.SLACK.VALID.rst = 0 := rfl
@[simp] theorem Reg.CRS.SLACK.RATE_key (i _j : Nat) : Reg.CRS.SLACK.RATE.key i _j = 8398873 + 524288 * i := by simp [Fld.key, Reg.CRS.SLACK.RATE]
@[simp] theorem Reg.CRS.SLACK.RATE_w : Reg.CRS.SLACK.RATE.w = 1 := rfl
@[simp] theorem Reg.CRS.SLACK.RATE_rst : Reg.CRS.SLACK.RATE.rst = 0 := rfl
@[simp] theorem Reg.CRS.SLACK.BACKLOG_key (i _j : Nat) : Reg.CRS.SLACK.BACKLOG.key i _j = 8398874 + 524288 * i := by simp [Fld.key, Reg.CRS.SLACK.BACKLOG]
@[simp] theorem Reg.CRS.SLACK.BACKLOG_w : Reg.CRS.SLACK.BACKLOG.w = 1 := rfl
@[simp] theorem Reg.CRS.SLACK.BACKLOG_rst : Reg.CRS.SLACK.BACKLOG.rst = 0 := rfl
@[simp] theorem Reg.CRS.SLACK_CFG.FLOOR_key (i _j : Nat) : Reg.CRS.SLACK_CFG.FLOOR.key i _j = 8398880 + 524288 * i := by simp [Fld.key, Reg.CRS.SLACK_CFG.FLOOR]
@[simp] theorem Reg.CRS.SLACK_CFG.FLOOR_w : Reg.CRS.SLACK_CFG.FLOOR.w = 8 := rfl
@[simp] theorem Reg.CRS.SLACK_CFG.FLOOR_rst : Reg.CRS.SLACK_CFG.FLOOR.rst = 26 := rfl
@[simp] theorem Reg.CRS.SLACK_CFG.MIN_CLR_key (i _j : Nat) : Reg.CRS.SLACK_CFG.MIN_CLR.key i _j = 8398888 + 524288 * i := by simp [Fld.key, Reg.CRS.SLACK_CFG.MIN_CLR]
@[simp] theorem Reg.CRS.SLACK_CFG.MIN_CLR_w : Reg.CRS.SLACK_CFG.MIN_CLR.w = 1 := rfl
@[simp] theorem Reg.CRS.SLACK_CFG.MIN_CLR_rst : Reg.CRS.SLACK_CFG.MIN_CLR.rst = 0 := rfl
@[simp] theorem Reg.CRS.XING_STAT.CFG_SKIP_key (i _j : Nat) : Reg.CRS.XING_STAT.CFG_SKIP.key i _j = 8398912 + 524288 * i := by simp [Fld.key, Reg.CRS.XING_STAT.CFG_SKIP]
@[simp] theorem Reg.CRS.XING_STAT.CFG_SKIP_w : Reg.CRS.XING_STAT.CFG_SKIP.w = 16 := rfl
@[simp] theorem Reg.CRS.XING_STAT.CFG_SKIP_rst : Reg.CRS.XING_STAT.CFG_SKIP.rst = 0 := rfl
@[simp] theorem Reg.CRS.XING_STAT.PULSE_LOST_key (i _j : Nat) : Reg.CRS.XING_STAT.PULSE_LOST.key i _j = 8398928 + 524288 * i := by simp [Fld.key, Reg.CRS.XING_STAT.PULSE_LOST]
@[simp] theorem Reg.CRS.XING_STAT.PULSE_LOST_w : Reg.CRS.XING_STAT.PULSE_LOST.w = 1 := rfl
@[simp] theorem Reg.CRS.XING_STAT.PULSE_LOST_rst : Reg.CRS.XING_STAT.PULSE_LOST.rst = 0 := rfl
@[simp] theorem Reg.CRS.CMIS_CTRL.BUS_key (i _j : Nat) : Reg.CRS.CMIS_CTRL.BUS.key i _j = 8400896 + 524288 * i := by simp [Fld.key, Reg.CRS.CMIS_CTRL.BUS]
@[simp] theorem Reg.CRS.CMIS_CTRL.BUS_w : Reg.CRS.CMIS_CTRL.BUS.w = 1 := rfl
@[simp] theorem Reg.CRS.CMIS_CTRL.BUS_rst : Reg.CRS.CMIS_CTRL.BUS.rst = 0 := rfl
@[simp] theorem Reg.CRS.CMIS_CTRL.POLL_EN_key (i _j : Nat) : Reg.CRS.CMIS_CTRL.POLL_EN.key i _j = 8400897 + 524288 * i := by simp [Fld.key, Reg.CRS.CMIS_CTRL.POLL_EN]
@[simp] theorem Reg.CRS.CMIS_CTRL.POLL_EN_w : Reg.CRS.CMIS_CTRL.POLL_EN.w = 1 := rfl
@[simp] theorem Reg.CRS.CMIS_CTRL.POLL_EN_rst : Reg.CRS.CMIS_CTRL.POLL_EN.rst = 1 := rfl
@[simp] theorem Reg.CRS.CMIS_CTRL.POLL_MS_key (i _j : Nat) : Reg.CRS.CMIS_CTRL.POLL_MS.key i _j = 8400898 + 524288 * i := by simp [Fld.key, Reg.CRS.CMIS_CTRL.POLL_MS]
@[simp] theorem Reg.CRS.CMIS_CTRL.POLL_MS_w : Reg.CRS.CMIS_CTRL.POLL_MS.w = 8 := rfl
@[simp] theorem Reg.CRS.CMIS_CTRL.POLL_MS_rst : Reg.CRS.CMIS_CTRL.POLL_MS.rst = 10 := rfl
@[simp] theorem Reg.CRS.CMIS_CTRL.ADDR_key (i _j : Nat) : Reg.CRS.CMIS_CTRL.ADDR.key i _j = 8400906 + 524288 * i := by simp [Fld.key, Reg.CRS.CMIS_CTRL.ADDR]
@[simp] theorem Reg.CRS.CMIS_CTRL.ADDR_w : Reg.CRS.CMIS_CTRL.ADDR.w = 7 := rfl
@[simp] theorem Reg.CRS.CMIS_CTRL.ADDR_rst : Reg.CRS.CMIS_CTRL.ADDR.rst = 80 := rfl
@[simp] theorem Reg.CRS.CMIS_STAT.PRESENT_key (i _j : Nat) : Reg.CRS.CMIS_STAT.PRESENT.key i _j = 8400928 + 524288 * i := by simp [Fld.key, Reg.CRS.CMIS_STAT.PRESENT]
@[simp] theorem Reg.CRS.CMIS_STAT.PRESENT_w : Reg.CRS.CMIS_STAT.PRESENT.w = 1 := rfl
@[simp] theorem Reg.CRS.CMIS_STAT.PRESENT_rst : Reg.CRS.CMIS_STAT.PRESENT.rst = 0 := rfl
@[simp] theorem Reg.CRS.CMIS_STAT.INT_key (i _j : Nat) : Reg.CRS.CMIS_STAT.INT.key i _j = 8400929 + 524288 * i := by simp [Fld.key, Reg.CRS.CMIS_STAT.INT]
@[simp] theorem Reg.CRS.CMIS_STAT.INT_w : Reg.CRS.CMIS_STAT.INT.w = 1 := rfl
@[simp] theorem Reg.CRS.CMIS_STAT.INT_rst : Reg.CRS.CMIS_STAT.INT.rst = 0 := rfl
@[simp] theorem Reg.CRS.CMIS_STAT.BUS_FAULT_key (i _j : Nat) : Reg.CRS.CMIS_STAT.BUS_FAULT.key i _j = 8400930 + 524288 * i := by simp [Fld.key, Reg.CRS.CMIS_STAT.BUS_FAULT]
@[simp] theorem Reg.CRS.CMIS_STAT.BUS_FAULT_w : Reg.CRS.CMIS_STAT.BUS_FAULT.w = 1 := rfl
@[simp] theorem Reg.CRS.CMIS_STAT.BUS_FAULT_rst : Reg.CRS.CMIS_STAT.BUS_FAULT.rst = 0 := rfl
@[simp] theorem Reg.CRS.CMIS_STAT.POLL_PAUSED_key (i _j : Nat) : Reg.CRS.CMIS_STAT.POLL_PAUSED.key i _j = 8400931 + 524288 * i := by simp [Fld.key, Reg.CRS.CMIS_STAT.POLL_PAUSED]
@[simp] theorem Reg.CRS.CMIS_STAT.POLL_PAUSED_w : Reg.CRS.CMIS_STAT.POLL_PAUSED.w = 1 := rfl
@[simp] theorem Reg.CRS.CMIS_STAT.POLL_PAUSED_rst : Reg.CRS.CMIS_STAT.POLL_PAUSED.rst = 0 := rfl
@[simp] theorem Reg.CRS.CMIS_STAT.MOD_STATE_key (i _j : Nat) : Reg.CRS.CMIS_STAT.MOD_STATE.key i _j = 8400932 + 524288 * i := by simp [Fld.key, Reg.CRS.CMIS_STAT.MOD_STATE]
@[simp] theorem Reg.CRS.CMIS_STAT.MOD_STATE_w : Reg.CRS.CMIS_STAT.MOD_STATE.w = 4 := rfl
@[simp] theorem Reg.CRS.CMIS_STAT.MOD_STATE_rst : Reg.CRS.CMIS_STAT.MOD_STATE.rst = 0 := rfl
@[simp] theorem Reg.CRS.CMIS_STAT.POLLS_key (i _j : Nat) : Reg.CRS.CMIS_STAT.POLLS.key i _j = 8400944 + 524288 * i := by simp [Fld.key, Reg.CRS.CMIS_STAT.POLLS]
@[simp] theorem Reg.CRS.CMIS_STAT.POLLS_w : Reg.CRS.CMIS_STAT.POLLS.w = 16 := rfl
@[simp] theorem Reg.CRS.CMIS_STAT.POLLS_rst : Reg.CRS.CMIS_STAT.POLLS.rst = 0 := rfl
@[simp] theorem Reg.CRS.MOD_PINS.RESET_key (i _j : Nat) : Reg.CRS.MOD_PINS.RESET.key i _j = 8402944 + 524288 * i := by simp [Fld.key, Reg.CRS.MOD_PINS.RESET]
@[simp] theorem Reg.CRS.MOD_PINS.RESET_w : Reg.CRS.MOD_PINS.RESET.w = 1 := rfl
@[simp] theorem Reg.CRS.MOD_PINS.RESET_rst : Reg.CRS.MOD_PINS.RESET.rst = 1 := rfl
@[simp] theorem Reg.CRS.MOD_PINS.LPMODE_key (i _j : Nat) : Reg.CRS.MOD_PINS.LPMODE.key i _j = 8402945 + 524288 * i := by simp [Fld.key, Reg.CRS.MOD_PINS.LPMODE]
@[simp] theorem Reg.CRS.MOD_PINS.LPMODE_w : Reg.CRS.MOD_PINS.LPMODE.w = 1 := rfl
@[simp] theorem Reg.CRS.MOD_PINS.LPMODE_rst : Reg.CRS.MOD_PINS.LPMODE.rst = 1 := rfl
@[simp] theorem Reg.CRS.MOD_PINS.BALL_RESET_key (i _j : Nat) : Reg.CRS.MOD_PINS.BALL_RESET.key i _j = 8402952 + 524288 * i := by simp [Fld.key, Reg.CRS.MOD_PINS.BALL_RESET]
@[simp] theorem Reg.CRS.MOD_PINS.BALL_RESET_w : Reg.CRS.MOD_PINS.BALL_RESET.w = 1 := rfl
@[simp] theorem Reg.CRS.MOD_PINS.BALL_RESET_rst : Reg.CRS.MOD_PINS.BALL_RESET.rst = 1 := rfl
@[simp] theorem Reg.CRS.MOD_PINS.BALL_LPMODE_key (i _j : Nat) : Reg.CRS.MOD_PINS.BALL_LPMODE.key i _j = 8402953 + 524288 * i := by simp [Fld.key, Reg.CRS.MOD_PINS.BALL_LPMODE]
@[simp] theorem Reg.CRS.MOD_PINS.BALL_LPMODE_w : Reg.CRS.MOD_PINS.BALL_LPMODE.w = 1 := rfl
@[simp] theorem Reg.CRS.MOD_PINS.BALL_LPMODE_rst : Reg.CRS.MOD_PINS.BALL_LPMODE.rst = 1 := rfl
@[simp] theorem Reg.CRS.MOD_PINS.HELD_key (i _j : Nat) : Reg.CRS.MOD_PINS.HELD.key i _j = 8402954 + 524288 * i := by simp [Fld.key, Reg.CRS.MOD_PINS.HELD]
@[simp] theorem Reg.CRS.MOD_PINS.HELD_w : Reg.CRS.MOD_PINS.HELD.w = 1 := rfl
@[simp] theorem Reg.CRS.MOD_PINS.HELD_rst : Reg.CRS.MOD_PINS.HELD.rst = 1 := rfl
@[simp] theorem Reg.CRS.TX_SKEW.LANE_key (i j : Nat) : Reg.CRS.TX_SKEW.LANE.key i j = 8394752 + 8 * j + 524288 * i := by simp [Fld.key, Reg.CRS.TX_SKEW.LANE]
@[simp] theorem Reg.CRS.TX_SKEW.LANE_w : Reg.CRS.TX_SKEW.LANE.w = 8 := rfl
@[simp] theorem Reg.CRS.TX_SKEW.LANE_rst : Reg.CRS.TX_SKEW.LANE.rst = 0 := rfl
@[simp] theorem Reg.LN.FMT_CFG.MODE_key (i _j : Nat) : Reg.LN.FMT_CFG.MODE.key i _j = 16789504 + 131072 * i := by simp [Fld.key, Reg.LN.FMT_CFG.MODE]
@[simp] theorem Reg.LN.FMT_CFG.MODE_w : Reg.LN.FMT_CFG.MODE.w = 4 := rfl
@[simp] theorem Reg.LN.FMT_CFG.MODE_rst : Reg.LN.FMT_CFG.MODE.rst = 0 := rfl
@[simp] theorem Reg.LN.FMT_CFG.CONST_key (i _j : Nat) : Reg.LN.FMT_CFG.CONST.key i _j = 16789508 + 131072 * i := by simp [Fld.key, Reg.LN.FMT_CFG.CONST]
@[simp] theorem Reg.LN.FMT_CFG.CONST_w : Reg.LN.FMT_CFG.CONST.w = 2 := rfl
@[simp] theorem Reg.LN.FMT_CFG.CONST_rst : Reg.LN.FMT_CFG.CONST.rst = 0 := rfl
@[simp] theorem Reg.LN.FMT_CFG.PRECODE_key (i _j : Nat) : Reg.LN.FMT_CFG.PRECODE.key i _j = 16789510 + 131072 * i := by simp [Fld.key, Reg.LN.FMT_CFG.PRECODE]
@[simp] theorem Reg.LN.FMT_CFG.PRECODE_w : Reg.LN.FMT_CFG.PRECODE.w = 1 := rfl
@[simp] theorem Reg.LN.FMT_CFG.PRECODE_rst : Reg.LN.FMT_CFG.PRECODE.rst = 0 := rfl
@[simp] theorem Reg.LN.FMT_CFG.INNER_BYPASS_key (i _j : Nat) : Reg.LN.FMT_CFG.INNER_BYPASS.key i _j = 16789511 + 131072 * i := by simp [Fld.key, Reg.LN.FMT_CFG.INNER_BYPASS]
@[simp] theorem Reg.LN.FMT_CFG.INNER_BYPASS_w : Reg.LN.FMT_CFG.INNER_BYPASS.w = 1 := rfl
@[simp] theorem Reg.LN.FMT_CFG.INNER_BYPASS_rst : Reg.LN.FMT_CFG.INNER_BYPASS.rst = 0 := rfl
@[simp] theorem Reg.LN.FMT_CFG.CHASE_L_key (i _j : Nat) : Reg.LN.FMT_CFG.CHASE_L.key i _j = 16789512 + 131072 * i := by simp [Fld.key, Reg.LN.FMT_CFG.CHASE_L]
@[simp] theorem Reg.LN.FMT_CFG.CHASE_L_w : Reg.LN.FMT_CFG.CHASE_L.w = 3 := rfl
@[simp] theorem Reg.LN.FMT_CFG.CHASE_L_rst : Reg.LN.FMT_CFG.CHASE_L.rst = 6 := rfl
@[simp] theorem Reg.LN.FMT_CFG.OCM_EN_key (i _j : Nat) : Reg.LN.FMT_CFG.OCM_EN.key i _j = 16789516 + 131072 * i := by simp [Fld.key, Reg.LN.FMT_CFG.OCM_EN]
@[simp] theorem Reg.LN.FMT_CFG.OCM_EN_w : Reg.LN.FMT_CFG.OCM_EN.w = 1 := rfl
@[simp] theorem Reg.LN.FMT_CFG.OCM_EN_rst : Reg.LN.FMT_CFG.OCM_EN.rst = 0 := rfl
@[simp] theorem Reg.LN.FMT_STAT.ALIGNED_key (i _j : Nat) : Reg.LN.FMT_STAT.ALIGNED.key i _j = 16789536 + 131072 * i := by simp [Fld.key, Reg.LN.FMT_STAT.ALIGNED]
@[simp] theorem Reg.LN.FMT_STAT.ALIGNED_w : Reg.LN.FMT_STAT.ALIGNED.w = 1 := rfl
@[simp] theorem Reg.LN.FMT_STAT.ALIGNED_rst : Reg.LN.FMT_STAT.ALIGNED.rst = 0 := rfl
@[simp] theorem Reg.LN.FMT_STAT.SF_PHASE_key (i _j : Nat) : Reg.LN.FMT_STAT.SF_PHASE.key i _j = 16789537 + 131072 * i := by simp [Fld.key, Reg.LN.FMT_STAT.SF_PHASE]
@[simp] theorem Reg.LN.FMT_STAT.SF_PHASE_w : Reg.LN.FMT_STAT.SF_PHASE.w = 3 := rfl
@[simp] theorem Reg.LN.FMT_STAT.SF_PHASE_rst : Reg.LN.FMT_STAT.SF_PHASE.rst = 0 := rfl
@[simp] theorem Reg.LN.FMT_STAT.FAR_RDI_key (i _j : Nat) : Reg.LN.FMT_STAT.FAR_RDI.key i _j = 16789540 + 131072 * i := by simp [Fld.key, Reg.LN.FMT_STAT.FAR_RDI]
@[simp] theorem Reg.LN.FMT_STAT.FAR_RDI_w : Reg.LN.FMT_STAT.FAR_RDI.w = 1 := rfl
@[simp] theorem Reg.LN.FMT_STAT.FAR_RDI_rst : Reg.LN.FMT_STAT.FAR_RDI.rst = 0 := rfl
@[simp] theorem Reg.LN.FMT_STAT.FAR_DEGRADE_key (i _j : Nat) : Reg.LN.FMT_STAT.FAR_DEGRADE.key i _j = 16789541 + 131072 * i := by simp [Fld.key, Reg.LN.FMT_STAT.FAR_DEGRADE]
@[simp] theorem Reg.LN.FMT_STAT.FAR_DEGRADE_w : Reg.LN.FMT_STAT.FAR_DEGRADE.w = 1 := rfl
@[simp] theorem Reg.LN.FMT_STAT.FAR_DEGRADE_rst : Reg.LN.FMT_STAT.FAR_DEGRADE.rst = 0 := rfl
@[simp] theorem Reg.LN.FMT_STAT.FAR_SRC_FAULT_key (i _j : Nat) : Reg.LN.FMT_STAT.FAR_SRC_FAULT.key i _j = 16789542 + 131072 * i := by simp [Fld.key, Reg.LN.FMT_STAT.FAR_SRC_FAULT]
@[simp] theorem Reg.LN.FMT_STAT.FAR_SRC_FAULT_w : Reg.LN.FMT_STAT.FAR_SRC_FAULT.w = 1 := rfl
@[simp] theorem Reg.LN.FMT_STAT.FAR_SRC_FAULT_rst : Reg.LN.FMT_STAT.FAR_SRC_FAULT.rst = 0 := rfl
@[simp] theorem Reg.LN.FMT_STAT.FAR_LANE_key (i _j : Nat) : Reg.LN.FMT_STAT.FAR_LANE.key i _j = 16789544 + 131072 * i := by simp [Fld.key, Reg.LN.FMT_STAT.FAR_LANE]
@[simp] theorem Reg.LN.FMT_STAT.FAR_LANE_w : Reg.LN.FMT_STAT.FAR_LANE.w = 6 := rfl
@[simp] theorem Reg.LN.FMT_STAT.FAR_LANE_rst : Reg.LN.FMT_STAT.FAR_LANE.rst = 0 := rfl
@[simp] theorem Reg.LN.FMT_STAT.FAR_CONST_key (i _j : Nat) : Reg.LN.FMT_STAT.FAR_CONST.key i _j = 16789550 + 131072 * i := by simp [Fld.key, Reg.LN.FMT_STAT.FAR_CONST]
@[simp] theorem Reg.LN.FMT_STAT.FAR_CONST_w : Reg.LN.FMT_STAT.FAR_CONST.w = 2 := rfl
@[simp] theorem Reg.LN.FMT_STAT.FAR_CONST_rst : Reg.LN.FMT_STAT.FAR_CONST.rst = 0 := rfl
@[simp] theorem Reg.LN.FMT_STAT.HOST_A_ALIGNED_key (i _j : Nat) : Reg.LN.FMT_STAT.HOST_A_ALIGNED.key i _j = 16789552 + 131072 * i := by simp [Fld.key, Reg.LN.FMT_STAT.HOST_A_ALIGNED]
@[simp] theorem Reg.LN.FMT_STAT.HOST_A_ALIGNED_w : Reg.LN.FMT_STAT.HOST_A_ALIGNED.w = 1 := rfl
@[simp] theorem Reg.LN.FMT_STAT.HOST_A_ALIGNED_rst : Reg.LN.FMT_STAT.HOST_A_ALIGNED.rst = 0 := rfl
@[simp] theorem Reg.LN.FMT_STAT.HOST_B_ALIGNED_key (i _j : Nat) : Reg.LN.FMT_STAT.HOST_B_ALIGNED.key i _j = 16789553 + 131072 * i := by simp [Fld.key, Reg.LN.FMT_STAT.HOST_B_ALIGNED]
@[simp] theorem Reg.LN.FMT_STAT.HOST_B_ALIGNED_w : Reg.LN.FMT_STAT.HOST_B_ALIGNED.w = 1 := rfl
@[simp] theorem Reg.LN.FMT_STAT.HOST_B_ALIGNED_rst : Reg.LN.FMT_STAT.HOST_B_ALIGNED.rst = 0 := rfl
@[simp] theorem Reg.LN.FMT_STAT.OCM_LOCK_key (i _j : Nat) : Reg.LN.FMT_STAT.OCM_LOCK.key i _j = 16789554 + 131072 * i := by simp [Fld.key, Reg.LN.FMT_STAT.OCM_LOCK]
@[simp] theorem Reg.LN.FMT_STAT.OCM_LOCK_w : Reg.LN.FMT_STAT.OCM_LOCK.w = 1 := rfl
@[simp] theorem Reg.LN.FMT_STAT.OCM_LOCK_rst : Reg.LN.FMT_STAT.OCM_LOCK.rst = 0 := rfl
@[simp] theorem Reg.LN.FMT_STAT.DESKEW_key (i _j : Nat) : Reg.LN.FMT_STAT.DESKEW.key i _j = 16789555 + 131072 * i := by simp [Fld.key, Reg.LN.FMT_STAT.DESKEW]
@[simp] theorem Reg.LN.FMT_STAT.DESKEW_w : Reg.LN.FMT_STAT.DESKEW.w = 10 := rfl
@[simp] theorem Reg.LN.FMT_STAT.DESKEW_rst : Reg.LN.FMT_STAT.DESKEW.rst = 0 := rfl
@[simp] theorem Reg.LN.FMT_STAT.SKEW_OVR_key (i _j : Nat) : Reg.LN.FMT_STAT.SKEW_OVR.key i _j = 16789565 + 131072 * i := by simp [Fld.key, Reg.LN.FMT_STAT.SKEW_OVR]
@[simp] theorem Reg.LN.FMT_STAT.SKEW_OVR_w : Reg.LN.FMT_STAT.SKEW_OVR.w = 1 := rfl
@[simp] theorem Reg.LN.FMT_STAT.SKEW_OVR_rst : Reg.LN.FMT_STAT.SKEW_OVR.rst = 0 := rfl
@[simp] theorem Reg.LN.APB_CNT.CRC_ERR_key (i _j : Nat) : Reg.LN.APB_CNT.CRC_ERR.key i _j = 16789568 + 131072 * i := by simp [Fld.key, Reg.LN.APB_CNT.CRC_ERR]
@[simp] theorem Reg.LN.APB_CNT.CRC_ERR_w : Reg.LN.APB_CNT.CRC_ERR.w = 16 := rfl
@[simp] theorem Reg.LN.APB_CNT.CRC_ERR_rst : Reg.LN.APB_CNT.CRC_ERR.rst = 0 := rfl
@[simp] theorem Reg.LN.APB_CNT.ALIGN_LOSS_key (i _j : Nat) : Reg.LN.APB_CNT.ALIGN_LOSS.key i _j = 16789584 + 131072 * i := by simp [Fld.key, Reg.LN.APB_CNT.ALIGN_LOSS]
@[simp] theorem Reg.LN.APB_CNT.ALIGN_LOSS_w : Reg.LN.APB_CNT.ALIGN_LOSS.w = 8 := rfl
@[simp] theorem Reg.LN.APB_CNT.ALIGN_LOSS_rst : Reg.LN.APB_CNT.ALIGN_LOSS.rst = 0 := rfl
@[simp] theorem Reg.LN.CONST_ADV.REC_key (i _j : Nat) : Reg.LN.CONST_ADV.REC.key i _j = 16789600 + 131072 * i := by simp [Fld.key, Reg.LN.CONST_ADV.REC]
@[simp] theorem Reg.LN.CONST_ADV.REC_w : Reg.LN.CONST_ADV.REC.w = 2 := rfl
@[simp] theorem Reg.LN.CONST_ADV.REC_rst : Reg.LN.CONST_ADV.REC.rst = 3 := rfl
@[simp] theorem Reg.LN.CONST_ADV.MARGIN_P4_key (i _j : Nat) : Reg.LN.CONST_ADV.MARGIN_P4.key i _j = 16789604 + 131072 * i := by simp [Fld.key, Reg.LN.CONST_ADV.MARGIN_P4]
@[simp] theorem Reg.LN.CONST_ADV.MARGIN_P4_w : Reg.LN.CONST_ADV.MARGIN_P4.w = 12 := rfl
@[simp] theorem Reg.LN.CONST_ADV.MARGIN_P4_rst : Reg.LN.CONST_ADV.MARGIN_P4.rst = 0 := rfl
@[simp] theorem Reg.LN.CONST_ADV.MARGIN_P6_key (i _j : Nat) : Reg.LN.CONST_ADV.MARGIN_P6.key i _j = 16789616 + 131072 * i := by simp [Fld.key, Reg.LN.CONST_ADV.MARGIN_P6]
@[simp] theorem Reg.LN.CONST_ADV.MARGIN_P6_w : Reg.LN.CONST_ADV.MARGIN_P6.w = 12 := rfl
@[simp] theorem Reg.LN.CONST_ADV.MARGIN_P6_rst : Reg.LN.CONST_ADV.MARGIN_P6.rst = 0 := rfl
@[simp] theorem Reg.LN.CONST_POLICY.HYST_key (i _j : Nat) : Reg.LN.CONST_POLICY.HYST.key i _j = 16789632 + 131072 * i := by simp [Fld.key, Reg.LN.CONST_POLICY.HYST]
@[simp] theorem Reg.LN.CONST_POLICY.HYST_w : Reg.LN.CONST_POLICY.HYST.w = 8 := rfl
@[simp] theorem Reg.LN.CONST_POLICY.HYST_rst : Reg.LN.CONST_POLICY.HYST.rst = 30 := rfl
@[simp] theorem Reg.LN.CONST_POLICY.DWELL_key (i _j : Nat) : Reg.LN.CONST_POLICY.DWELL.key i _j = 16789640 + 131072 * i := by simp [Fld.key, Reg.LN.CONST_POLICY.DWELL]
@[simp] theorem Reg.LN.CONST_POLICY.DWELL_w : Reg.LN.CONST_POLICY.DWELL.w = 4 := rfl
@[simp] theorem Reg.LN.CONST_POLICY.DWELL_rst : Reg.LN.CONST_POLICY.DWELL.rst = 8 := rfl
@[simp] theorem Reg.LN.LATENCY.RX_LAT_key (i _j : Nat) : Reg.LN.LATENCY.RX_LAT.key i _j = 16789664 + 131072 * i := by simp [Fld.key, Reg.LN.LATENCY.RX_LAT]
@[simp] theorem Reg.LN.LATENCY.RX_LAT_w : Reg.LN.LATENCY.RX_LAT.w = 12 := rfl
@[simp] theorem Reg.LN.LATENCY.RX_LAT_rst : Reg.LN.LATENCY.RX_LAT.rst = 0 := rfl
@[simp] theorem Reg.LN.LATENCY.TX_LAT_key (i _j : Nat) : Reg.LN.LATENCY.TX_LAT.key i _j = 16789676 + 131072 * i := by simp [Fld.key, Reg.LN.LATENCY.TX_LAT]
@[simp] theorem Reg.LN.LATENCY.TX_LAT_w : Reg.LN.LATENCY.TX_LAT.w = 12 := rfl
@[simp] theorem Reg.LN.LATENCY.TX_LAT_rst : Reg.LN.LATENCY.TX_LAT.rst = 0 := rfl
@[simp] theorem Reg.LN.LATENCY.VALID_key (i _j : Nat) : Reg.LN.LATENCY.VALID.key i _j = 16789688 + 131072 * i := by simp [Fld.key, Reg.LN.LATENCY.VALID]
@[simp] theorem Reg.LN.LATENCY.VALID_w : Reg.LN.LATENCY.VALID.w = 1 := rfl
@[simp] theorem Reg.LN.LATENCY.VALID_rst : Reg.LN.LATENCY.VALID.rst = 0 := rfl
@[simp] theorem Reg.LN.OCM_CTRL.CLEAR_key (i _j : Nat) : Reg.LN.OCM_CTRL.CLEAR.key i _j = 16789696 + 131072 * i := by simp [Fld.key, Reg.LN.OCM_CTRL.CLEAR]
@[simp] theorem Reg.LN.OCM_CTRL.CLEAR_w : Reg.LN.OCM_CTRL.CLEAR.w = 1 := rfl
@[simp] theorem Reg.LN.OCM_CTRL.CLEAR_rst : Reg.LN.OCM_CTRL.CLEAR.rst = 0 := rfl
@[simp] theorem Reg.LN.OCM_CTRL.FREEZE_key (i _j : Nat) : Reg.LN.OCM_CTRL.FREEZE.key i _j = 16789697 + 131072 * i := by simp [Fld.key, Reg.LN.OCM_CTRL.FREEZE]
@[simp] theorem Reg.LN.OCM_CTRL.FREEZE_w : Reg.LN.OCM_CTRL.FREEZE.w = 1 := rfl
@[simp] theorem Reg.LN.OCM_CTRL.FREEZE_rst : Reg.LN.OCM_CTRL.FREEZE.rst = 0 := rfl
@[simp] theorem Reg.LN.OCM_CW.COUNT_key (i _j : Nat) : Reg.LN.OCM_CW.COUNT.key i _j = 16789760 + 131072 * i := by simp [Fld.key, Reg.LN.OCM_CW.COUNT]
@[simp] theorem Reg.LN.OCM_CW.COUNT_w : Reg.LN.OCM_CW.COUNT.w = 64 := rfl
@[simp] theorem Reg.LN.OCM_CW.COUNT_rst : Reg.LN.OCM_CW.COUNT.rst = 0 := rfl
@[simp] theorem Reg.LN.OCM_SYM.COUNT_key (i _j : Nat) : Reg.LN.OCM_SYM.COUNT.key i _j = 16789824 + 131072 * i := by simp [Fld.key, Reg.LN.OCM_SYM.COUNT]
@[simp] theorem Reg.LN.OCM_SYM.COUNT_w : Reg.LN.OCM_SYM.COUNT.w = 64 := rfl
@[simp] theorem Reg.LN.OCM_SYM.COUNT_rst : Reg.LN.OCM_SYM.COUNT.rst = 0 := rfl
@[simp] theorem Reg.LN.OCM_UNCORR.COUNT_key (i _j : Nat) : Reg.LN.OCM_UNCORR.COUNT.key i _j = 16789888 + 131072 * i := by simp [Fld.key, Reg.LN.OCM_UNCORR.COUNT]
@[simp] theorem Reg.LN.OCM_UNCORR.COUNT_w : Reg.LN.OCM_UNCORR.COUNT.w = 64 := rfl
@[simp] theorem Reg.LN.OCM_UNCORR.COUNT_rst : Reg.LN.OCM_UNCORR.COUNT.rst = 0 := rfl
@[simp] theorem Reg.LN.OCM_HIST.BIN_1_3_key (i _j : Nat) : Reg.LN.OCM_HIST.BIN_1_3.key i _j = 16789952 + 131072 * i := by simp [Fld.key, Reg.LN.OCM_HIST.BIN_1_3]
@[simp] theorem Reg.LN.OCM_HIST.BIN_1_3_w : Reg.LN.OCM_HIST.BIN_1_3.w = 16 := rfl
@[simp] theorem Reg.LN.OCM_HIST.BIN_1_3_rst : Reg.LN.OCM_HIST.BIN_1_3.rst = 0 := rfl
@[simp] theorem Reg.LN.OCM_HIST.BIN_4_7_key (i _j : Nat) : Reg.LN.OCM_HIST.BIN_4_7.key i _j = 16789968 + 131072 * i := by simp [Fld.key, Reg.LN.OCM_HIST.BIN_4_7]
@[simp] theorem Reg.LN.OCM_HIST.BIN_4_7_w : Reg.LN.OCM_HIST.BIN_4_7.w = 16 := rfl
@[simp] theorem Reg.LN.OCM_HIST.BIN_4_7_rst : Reg.LN.OCM_HIST.BIN_4_7.rst = 0 := rfl
@[simp] theorem Reg.LN.OCM_HIST.BIN_8_11_key (i _j : Nat) : Reg.LN.OCM_HIST.BIN_8_11.key i _j = 16789984 + 131072 * i := by simp [Fld.key, Reg.LN.OCM_HIST.BIN_8_11]
@[simp] theorem Reg.LN.OCM_HIST.BIN_8_11_w : Reg.LN.OCM_HIST.BIN_8_11.w = 16 := rfl
@[simp] theorem Reg.LN.OCM_HIST.BIN_8_11_rst : Reg.LN.OCM_HIST.BIN_8_11.rst = 0 := rfl
@[simp] theorem Reg.LN.OCM_HIST.BIN_12_15_key (i _j : Nat) : Reg.LN.OCM_HIST.BIN_12_15.key i _j = 16790000 + 131072 * i := by simp [Fld.key, Reg.LN.OCM_HIST.BIN_12_15]
@[simp] theorem Reg.LN.OCM_HIST.BIN_12_15_w : Reg.LN.OCM_HIST.BIN_12_15.w = 16 := rfl
@[simp] theorem Reg.LN.OCM_HIST.BIN_12_15_rst : Reg.LN.OCM_HIST.BIN_12_15.rst = 0 := rfl
@[simp] theorem Reg.LN.RX_CTRL.AGC_FREEZE_key (i _j : Nat) : Reg.LN.RX_CTRL.AGC_FREEZE.key i _j = 16777216 + 131072 * i := by simp [Fld.key, Reg.LN.RX_CTRL.AGC_FREEZE]
@[simp] theorem Reg.LN.RX_CTRL.AGC_FREEZE_w : Reg.LN.RX_CTRL.AGC_FREEZE.w = 1 := rfl
@[simp] theorem Reg.LN.RX_CTRL.AGC_FREEZE_rst : Reg.LN.RX_CTRL.AGC_FREEZE.rst = 0 := rfl
@[simp] theorem Reg.LN.RX_CTRL.CTLE_FREEZE_key (i _j : Nat) : Reg.LN.RX_CTRL.CTLE_FREEZE.key i _j = 16777217 + 131072 * i := by simp [Fld.key, Reg.LN.RX_CTRL.CTLE_FREEZE]
@[simp] theorem Reg.LN.RX_CTRL.CTLE_FREEZE_w : Reg.LN.RX_CTRL.CTLE_FREEZE.w = 1 := rfl
@[simp] theorem Reg.LN.RX_CTRL.CTLE_FREEZE_rst : Reg.LN.RX_CTRL.CTLE_FREEZE.rst = 0 := rfl
@[simp] theorem Reg.LN.RX_CTRL.CDR_FREEZE_key (i _j : Nat) : Reg.LN.RX_CTRL.CDR_FREEZE.key i _j = 16777218 + 131072 * i := by simp [Fld.key, Reg.LN.RX_CTRL.CDR_FREEZE]
@[simp] theorem Reg.LN.RX_CTRL.CDR_FREEZE_w : Reg.LN.RX_CTRL.CDR_FREEZE.w = 1 := rfl
@[simp] theorem Reg.LN.RX_CTRL.CDR_FREEZE_rst : Reg.LN.RX_CTRL.CDR_FREEZE.rst = 0 := rfl
@[simp] theorem Reg.LN.RX_CTRL.FFE_FREEZE_key (i _j : Nat) : Reg.LN.RX_CTRL.FFE_FREEZE.key i _j = 16777219 + 131072 * i := by simp [Fld.key, Reg.LN.RX_CTRL.FFE_FREEZE]
@[simp] theorem Reg.LN.RX_CTRL.FFE_FREEZE_w : Reg.LN.RX_CTRL.FFE_FREEZE.w = 1 := rfl
@[simp] theorem Reg.LN.RX_CTRL.FFE_FREEZE_rst : Reg.LN.RX_CTRL.FFE_FREEZE.rst = 0 := rfl
@[simp] theorem Reg.LN.RX_CTRL.TGT_FREEZE_key (i _j : Nat) : Reg.LN.RX_CTRL.TGT_FREEZE.key i _j = 16777220 + 131072 * i := by simp [Fld.key, Reg.LN.RX_CTRL.TGT_FREEZE]
@[simp] theorem Reg.LN.RX_CTRL.TGT_FREEZE_w : Reg.LN.RX_CTRL.TGT_FREEZE.w = 1 := rfl
@[simp] theorem Reg.LN.RX_CTRL.TGT_FREEZE_rst : Reg.LN.RX_CTRL.TGT_FREEZE.rst = 0 := rfl
@[simp] theorem Reg.LN.RX_CTRL.LEVEL_FREEZE_key (i _j : Nat) : Reg.LN.RX_CTRL.LEVEL_FREEZE.key i _j = 16777221 + 131072 * i := by simp [Fld.key, Reg.LN.RX_CTRL.LEVEL_FREEZE]
@[simp] theorem Reg.LN.RX_CTRL.LEVEL_FREEZE_w : Reg.LN.RX_CTRL.LEVEL_FREEZE.w = 1 := rfl
@[simp] theorem Reg.LN.RX_CTRL.LEVEL_FREEZE_rst : Reg.LN.RX_CTRL.LEVEL_FREEZE.rst = 0 := rfl
@[simp] theorem Reg.LN.RX_CTRL.SOFT_FREEZE_key (i _j : Nat) : Reg.LN.RX_CTRL.SOFT_FREEZE.key i _j = 16777222 + 131072 * i := by simp [Fld.key, Reg.LN.RX_CTRL.SOFT_FREEZE]
@[simp] theorem Reg.LN.RX_CTRL.SOFT_FREEZE_w : Reg.LN.RX_CTRL.SOFT_FREEZE.w = 1 := rfl
@[simp] theorem Reg.LN.RX_CTRL.SOFT_FREEZE_rst : Reg.LN.RX_CTRL.SOFT_FREEZE.rst = 0 := rfl
@[simp] theorem Reg.LN.RX_CTRL.CTLE_TRACK_key (i _j : Nat) : Reg.LN.RX_CTRL.CTLE_TRACK.key i _j = 16777223 + 131072 * i := by simp [Fld.key, Reg.LN.RX_CTRL.CTLE_TRACK]
@[simp] theorem Reg.LN.RX_CTRL.CTLE_TRACK_w : Reg.LN.RX_CTRL.CTLE_TRACK.w = 1 := rfl
@[simp] theorem Reg.LN.RX_CTRL.CTLE_TRACK_rst : Reg.LN.RX_CTRL.CTLE_TRACK.rst = 0 := rfl
@[simp] theorem Reg.LN.RX_CTRL.SURVEY_PER_key (i _j : Nat) : Reg.LN.RX_CTRL.SURVEY_PER.key i _j = 16777224 + 131072 * i := by simp [Fld.key, Reg.LN.RX_CTRL.SURVEY_PER]
@[simp] theorem Reg.LN.RX_CTRL.SURVEY_PER_w : Reg.LN.RX_CTRL.SURVEY_PER.w = 2 := rfl
@[simp] theorem Reg.LN.RX_CTRL.SURVEY_PER_rst : Reg.LN.RX_CTRL.SURVEY_PER.rst = 0 := rfl
@[simp] theorem Reg.LN.RX_CTRL.SEED_USE_key (i _j : Nat) : Reg.LN.RX_CTRL.SEED_USE.key i _j = 16777226 + 131072 * i := by simp [Fld.key, Reg.LN.RX_CTRL.SEED_USE]
@[simp] theorem Reg.LN.RX_CTRL.SEED_USE_w : Reg.LN.RX_CTRL.SEED_USE.w = 1 := rfl
@[simp] theorem Reg.LN.RX_CTRL.SEED_USE_rst : Reg.LN.RX_CTRL.SEED_USE.rst = 1 := rfl
@[simp] theorem Reg.LN.RX_STAT.LANE_STATE_key (i _j : Nat) : Reg.LN.RX_STAT.LANE_STATE.key i _j = 16777248 + 131072 * i := by simp [Fld.key, Reg.LN.RX_STAT.LANE_STATE]
@[simp] theorem Reg.LN.RX_STAT.LANE_STATE_w : Reg.LN.RX_STAT.LANE_STATE.w = 3 := rfl
@[simp] theorem Reg.LN.RX_STAT.LANE_STATE_rst : Reg.LN.RX_STAT.LANE_STATE.rst = 0 := rfl
@[simp] theorem Reg.LN.RX_STAT.ACQ_STEP_key (i _j : Nat) : Reg.LN.RX_STAT.ACQ_STEP.key i _j = 16777251 + 131072 * i := by simp [Fld.key, Reg.LN.RX_STAT.ACQ_STEP]
@[simp] theorem Reg.LN.RX_STAT.ACQ_STEP_w : Reg.LN.RX_STAT.ACQ_STEP.w = 4 := rfl
@[simp] theorem Reg.LN.RX_STAT.ACQ_STEP_rst : Reg.LN.RX_STAT.ACQ_STEP.rst = 0 := rfl
@[simp] theorem Reg.LN.RX_STAT.LOS_key (i _j : Nat) : Reg.LN.RX_STAT.LOS.key i _j = 16777255 + 131072 * i := by simp [Fld.key, Reg.LN.RX_STAT.LOS]
@[simp] theorem Reg.LN.RX_STAT.LOS_w : Reg.LN.RX_STAT.LOS.w = 1 := rfl
@[simp] theorem Reg.LN.RX_STAT.LOS_rst : Reg.LN.RX_STAT.LOS.rst = 0 := rfl
@[simp] theorem Reg.LN.RX_STAT.CDR_LOCK_key (i _j : Nat) : Reg.LN.RX_STAT.CDR_LOCK.key i _j = 16777256 + 131072 * i := by simp [Fld.key, Reg.LN.RX_STAT.CDR_LOCK]
@[simp] theorem Reg.LN.RX_STAT.CDR_LOCK_w : Reg.LN.RX_STAT.CDR_LOCK.w = 1 := rfl
@[simp] theorem Reg.LN.RX_STAT.CDR_LOCK_rst : Reg.LN.RX_STAT.CDR_LOCK.rst = 0 := rfl
@[simp] theorem Reg.LN.RX_STAT.FRAME_LOCK_key (i _j : Nat) : Reg.LN.RX_STAT.FRAME_LOCK.key i _j = 16777257 + 131072 * i := by simp [Fld.key, Reg.LN.RX_STAT.FRAME_LOCK]
@[simp] theorem Reg.LN.RX_STAT.FRAME_LOCK_w : Reg.LN.RX_STAT.FRAME_LOCK.w = 1 := rfl
@[simp] theorem Reg.LN.RX_STAT.FRAME_LOCK_rst : Reg.LN.RX_STAT.FRAME_LOCK.rst = 0 := rfl
@[simp] theorem Reg.LN.RX_STAT.SEED_LOADED_key (i _j : Nat) : Reg.LN.RX_STAT.SEED_LOADED.key i _j = 16777258 + 131072 * i := by simp [Fld.key, Reg.LN.RX_STAT.SEED_LOADED]
@[simp] theorem Reg.LN.RX_STAT.SEED_LOADED_w : Reg.LN.RX_STAT.SEED_LOADED.w = 1 := rfl
@[simp] theorem Reg.LN.RX_STAT.SEED_LOADED_rst : Reg.LN.RX_STAT.SEED_LOADED.rst = 0 := rfl
@[simp] theorem Reg.LN.RX_STAT.SEED_VALID_key (i _j : Nat) : Reg.LN.RX_STAT.SEED_VALID.key i _j = 16777259 + 131072 * i := by simp [Fld.key, Reg.LN.RX_STAT.SEED_VALID]
@[simp] theorem Reg.LN.RX_STAT.SEED_VALID_w : Reg.LN.RX_STAT.SEED_VALID.w = 1 := rfl
@[simp] theorem Reg.LN.RX_STAT.SEED_VALID_rst : Reg.LN.RX_STAT.SEED_VALID.rst = 0 := rfl
@[simp] theorem Reg.LN.RX_STAT.FEC_DEG_key (i _j : Nat) : Reg.LN.RX_STAT.FEC_DEG.key i _j = 16777260 + 131072 * i := by simp [Fld.key, Reg.LN.RX_STAT.FEC_DEG]
@[simp] theorem Reg.LN.RX_STAT.FEC_DEG_w : Reg.LN.RX_STAT.FEC_DEG.w = 1 := rfl
@[simp] theorem Reg.LN.RX_STAT.FEC_DEG_rst : Reg.LN.RX_STAT.FEC_DEG.rst = 0 := rfl
@[simp] theorem Reg.LN.RX_STAT.GAP_HIGH_key (i _j : Nat) : Reg.LN.RX_STAT.GAP_HIGH.key i _j = 16777261 + 131072 * i := by simp [Fld.key, Reg.LN.RX_STAT.GAP_HIGH]
@[simp] theorem Reg.LN.RX_STAT.GAP_HIGH_w : Reg.LN.RX_STAT.GAP_HIGH.w = 1 := rfl
@[simp] theorem Reg.LN.RX_STAT.GAP_HIGH_rst : Reg.LN.RX_STAT.GAP_HIGH.rst = 0 := rfl
@[simp] theorem Reg.LN.RX_STAT.FREEZE_CAUSE_key (i _j : Nat) : Reg.LN.RX_STAT.FREEZE_CAUSE.key i _j = 16777262 + 131072 * i := by simp [Fld.key, Reg.LN.RX_STAT.FREEZE_CAUSE]
@[simp] theorem Reg.LN.RX_STAT.FREEZE_CAUSE_w : Reg.LN.RX_STAT.FREEZE_CAUSE.w = 4 := rfl
@[simp] theorem Reg.LN.RX_STAT.FREEZE_CAUSE_rst : Reg.LN.RX_STAT.FREEZE_CAUSE.rst = 0 := rfl
@[simp] theorem Reg.LN.RX_STAT.ACQ_RETRY_key (i _j : Nat) : Reg.LN.RX_STAT.ACQ_RETRY.key i _j = 16777272 + 131072 * i := by simp [Fld.key, Reg.LN.RX_STAT.ACQ_RETRY]
@[simp] theorem Reg.LN.RX_STAT.ACQ_RETRY_w : Reg.LN.RX_STAT.ACQ_RETRY.w = 8 := rfl
@[simp] theorem Reg.LN.RX_STAT.ACQ_RETRY_rst : Reg.LN.RX_STAT.ACQ_RETRY.rst = 0 := rfl
@[simp] theorem Reg.LN.AGC.GAIN_key (i _j : Nat) : Reg.LN.AGC.GAIN.key i _j = 16777280 + 131072 * i := by simp [Fld.key, Reg.LN.AGC.GAIN]
@[simp] theorem Reg.LN.AGC.GAIN_w : Reg.LN.AGC.GAIN.w = 8 := rfl
@[simp] theorem Reg.LN.AGC.GAIN_rst : Reg.LN.AGC.GAIN.rst = 48 := rfl
@[simp] theorem Reg.LN.AGC.TARGET_key (i _j : Nat) : Reg.LN.AGC.TARGET.key i _j = 16777288 + 131072 * i := by simp [Fld.key, Reg.LN.AGC.TARGET]
@[simp] theorem Reg.LN.AGC.TARGET_w : Reg.LN.AGC.TARGET.w = 8 := rfl
@[simp] theorem Reg.LN.AGC.TARGET_rst : Reg.LN.AGC.TARGET.rst = 80 := rfl
@[simp] theorem Reg.LN.AGC.DEADBAND_key (i _j : Nat) : Reg.LN.AGC.DEADBAND.key i _j = 16777296 + 131072 * i := by simp [Fld.key, Reg.LN.AGC.DEADBAND]
@[simp] theorem Reg.LN.AGC.DEADBAND_w : Reg.LN.AGC.DEADBAND.w = 4 := rfl
@[simp] theorem Reg.LN.AGC.DEADBAND_rst : Reg.LN.AGC.DEADBAND.rst = 2 := rfl
@[simp] theorem Reg.LN.AGC.LOS_THR_key (i _j : Nat) : Reg.LN.AGC.LOS_THR.key i _j = 16777304 + 131072 * i := by simp [Fld.key, Reg.LN.AGC.LOS_THR]
@[simp] theorem Reg.LN.AGC.LOS_THR_w : Reg.LN.AGC.LOS_THR.w = 8 := rfl
@[simp] theorem Reg.LN.AGC.LOS_THR_rst : Reg.LN.AGC.LOS_THR.rst = 15 := rfl
@[simp] theorem Reg.LN.CTLE.SETTING_key (i _j : Nat) : Reg.LN.CTLE.SETTING.key i _j = 16777312 + 131072 * i := by simp [Fld.key, Reg.LN.CTLE.SETTING]
@[simp] theorem Reg.LN.CTLE.SETTING_w : Reg.LN.CTLE.SETTING.w = 4 := rfl
@[simp] theorem Reg.LN.CTLE.SETTING_rst : Reg.LN.CTLE.SETTING.rst = 0 := rfl
@[simp] theorem Reg.LN.CTLE.MIN_key (i _j : Nat) : Reg.LN.CTLE.MIN.key i _j = 16777316 + 131072 * i := by simp [Fld.key, Reg.LN.CTLE.MIN]
@[simp] theorem Reg.LN.CTLE.MIN_w : Reg.LN.CTLE.MIN.w = 4 := rfl
@[simp] theorem Reg.LN.CTLE.MIN_rst : Reg.LN.CTLE.MIN.rst = 0 := rfl
@[simp] theorem Reg.LN.CTLE.MAX_key (i _j : Nat) : Reg.LN.CTLE.MAX.key i _j = 16777320 + 131072 * i := by simp [Fld.key, Reg.LN.CTLE.MAX]
@[simp] theorem Reg.LN.CTLE.MAX_w : Reg.LN.CTLE.MAX.w = 4 := rfl
@[simp] theorem Reg.LN.CTLE.MAX_rst : Reg.LN.CTLE.MAX.rst = 15 := rfl
@[simp] theorem Reg.LN.CDR.KP_key (i _j : Nat) : Reg.LN.CDR.KP.key i _j = 16777344 + 131072 * i := by simp [Fld.key, Reg.LN.CDR.KP]
@[simp] theorem Reg.LN.CDR.KP_w : Reg.LN.CDR.KP.w = 4 := rfl
@[simp] theorem Reg.LN.CDR.KP_rst : Reg.LN.CDR.KP.rst = 4 := rfl
@[simp] theorem Reg.LN.CDR.KI_key (i _j : Nat) : Reg.LN.CDR.KI.key i _j = 16777348 + 131072 * i := by simp [Fld.key, Reg.LN.CDR.KI]
@[simp] theorem Reg.LN.CDR.KI_w : Reg.LN.CDR.KI.w = 4 := rfl
@[simp] theorem Reg.LN.CDR.KI_rst : Reg.LN.CDR.KI.rst = 11 := rfl
@[simp] theorem Reg.LN.CDR.LOCK_key (i _j : Nat) : Reg.LN.CDR.LOCK.key i _j = 16777352 + 131072 * i := by simp [Fld.key, Reg.LN.CDR.LOCK]
@[simp] theorem Reg.LN.CDR.LOCK_w : Reg.LN.CDR.LOCK.w = 1 := rfl
@[simp] theorem Reg.LN.CDR.LOCK_rst : Reg.LN.CDR.LOCK.rst = 0 := rfl
@[simp] theorem Reg.LN.CDR.FREQ_key (i _j : Nat) : Reg.LN.CDR.FREQ.key i _j = 16777360 + 131072 * i := by simp [Fld.key, Reg.LN.CDR.FREQ]
@[simp] theorem Reg.LN.CDR.FREQ_w : Reg.LN.CDR.FREQ.w = 16 := rfl
@[simp] theorem Reg.LN.CDR.FREQ_rst : Reg.LN.CDR.FREQ.rst = 0 := rfl
@[simp] theorem Reg.LN.FFE_CTRL.MU_ACQ_key (i _j : Nat) : Reg.LN.FFE_CTRL.MU_ACQ.key i _j = 16777376 + 131072 * i := by simp [Fld.key, Reg.LN.FFE_CTRL.MU_ACQ]
@[simp] theorem Reg.LN.FFE_CTRL.MU_ACQ_w : Reg.LN.FFE_CTRL.MU_ACQ.w = 5 := rfl
@[simp] theorem Reg.LN.FFE_CTRL.MU_ACQ_rst : Reg.LN.FFE_CTRL.MU_ACQ.rst = 10 := rfl
@[simp] theorem Reg.LN.FFE_CTRL.MU_TRK_key (i _j : Nat) : Reg.LN.FFE_CTRL.MU_TRK.key i _j = 16777381 + 131072 * i := by simp [Fld.key, Reg.LN.FFE_CTRL.MU_TRK]
@[simp] theorem Reg.LN.FFE_CTRL.MU_TRK_w : Reg.LN.FFE_CTRL.MU_TRK.w = 5 := rfl
@[simp] theorem Reg.LN.FFE_CTRL.MU_TRK_rst : Reg.LN.FFE_CTRL.MU_TRK.rst = 15 := rfl
@[simp] theorem Reg.LN.FFE_CTRL.MAIN_POS_key (i _j : Nat) : Reg.LN.FFE_CTRL.MAIN_POS.key i _j = 16777386 + 131072 * i := by simp [Fld.key, Reg.LN.FFE_CTRL.MAIN_POS]
@[simp] theorem Reg.LN.FFE_CTRL.MAIN_POS_w : Reg.LN.FFE_CTRL.MAIN_POS.w = 5 := rfl
@[simp] theorem Reg.LN.FFE_CTRL.MAIN_POS_rst : Reg.LN.FFE_CTRL.MAIN_POS.rst = 12 := rfl
@[simp] theorem Reg.LN.FFE_CTRL.TAPS32_key (i _j : Nat) : Reg.LN.FFE_CTRL.TAPS32.key i _j = 16777391 + 131072 * i := by simp [Fld.key, Reg.LN.FFE_CTRL.TAPS32]
@[simp] theorem Reg.LN.FFE_CTRL.TAPS32_w : Reg.LN.FFE_CTRL.TAPS32.w = 1 := rfl
@[simp] theorem Reg.LN.FFE_CTRL.TAPS32_rst : Reg.LN.FFE_CTRL.TAPS32.rst = 0 := rfl
@[simp] theorem Reg.LN.FFE_CTRL.LEAK_key (i _j : Nat) : Reg.LN.FFE_CTRL.LEAK.key i _j = 16777392 + 131072 * i := by simp [Fld.key, Reg.LN.FFE_CTRL.LEAK]
@[simp] theorem Reg.LN.FFE_CTRL.LEAK_w : Reg.LN.FFE_CTRL.LEAK.w = 4 := rfl
@[simp] theorem Reg.LN.FFE_CTRL.LEAK_rst : Reg.LN.FFE_CTRL.LEAK.rst = 0 := rfl
@[simp] theorem Reg.LN.FFE_CTRL.GRAD_DEC_key (i _j : Nat) : Reg.LN.FFE_CTRL.GRAD_DEC.key i _j = 16777396 + 131072 * i := by simp [Fld.key, Reg.LN.FFE_CTRL.GRAD_DEC]
@[simp] theorem Reg.LN.FFE_CTRL.GRAD_DEC_w : Reg.LN.FFE_CTRL.GRAD_DEC.w = 3 := rfl
@[simp] theorem Reg.LN.FFE_CTRL.GRAD_DEC_rst : Reg.LN.FFE_CTRL.GRAD_DEC.rst = 3 := rfl
@[simp] theorem Reg.LN.FFE_TAP.INDEX_key (i _j : Nat) : Reg.LN.FFE_TAP.INDEX.key i _j = 16777408 + 131072 * i := by simp [Fld.key, Reg.LN.FFE_TAP.INDEX]
@[simp] theorem Reg.LN.FFE_TAP.INDEX_w : Reg.LN.FFE_TAP.INDEX.w = 6 := rfl
@[simp] theorem Reg.LN.FFE_TAP.INDEX_rst : Reg.LN.FFE_TAP.INDEX.rst = 0 := rfl
@[simp] theorem Reg.LN.FFE_TAP.VALUE_key (i _j : Nat) : Reg.LN.FFE_TAP.VALUE.key i _j = 16777424 + 131072 * i := by simp [Fld.key, Reg.LN.FFE_TAP.VALUE]
@[simp] theorem Reg.LN.FFE_TAP.VALUE_w : Reg.LN.FFE_TAP.VALUE.w = 10 := rfl
@[simp] theorem Reg.LN.FFE_TAP.VALUE_rst : Reg.LN.FFE_TAP.VALUE.rst = 0 := rfl
@[simp] theorem Reg.LN.MLSE_CTRL.ALPHA1_key (i _j : Nat) : Reg.LN.MLSE_CTRL.ALPHA1.key i _j = 16777440 + 131072 * i := by simp [Fld.key, Reg.LN.MLSE_CTRL.ALPHA1]
@[simp] theorem Reg.LN.MLSE_CTRL.ALPHA1_w : Reg.LN.MLSE_CTRL.ALPHA1.w = 4 := rfl
@[simp] theorem Reg.LN.MLSE_CTRL.ALPHA1_rst : Reg.LN.MLSE_CTRL.ALPHA1.rst = 0 := rfl
@[simp] theorem Reg.LN.MLSE_CTRL.ALPHA2_key (i _j : Nat) : Reg.LN.MLSE_CTRL.ALPHA2.key i _j = 16777444 + 131072 * i := by simp [Fld.key, Reg.LN.MLSE_CTRL.ALPHA2]
@[simp] theorem Reg.LN.MLSE_CTRL.ALPHA2_w : Reg.LN.MLSE_CTRL.ALPHA2.w = 3 := rfl
@[simp] theorem Reg.LN.MLSE_CTRL.ALPHA2_rst : Reg.LN.MLSE_CTRL.ALPHA2.rst = 0 := rfl
@[simp] theorem Reg.LN.MLSE_CTRL.STATES8_key (i _j : Nat) : Reg.LN.MLSE_CTRL.STATES8.key i _j = 16777447 + 131072 * i := by simp [Fld.key, Reg.LN.MLSE_CTRL.STATES8]
@[simp] theorem Reg.LN.MLSE_CTRL.STATES8_w : Reg.LN.MLSE_CTRL.STATES8.w = 1 := rfl
@[simp] theorem Reg.LN.MLSE_CTRL.STATES8_rst : Reg.LN.MLSE_CTRL.STATES8.rst = 0 := rfl
@[simp] theorem Reg.LN.MLSE_CTRL.SOFT_AUTO_key (i _j : Nat) : Reg.LN.MLSE_CTRL.SOFT_AUTO.key i _j = 16777448 + 131072 * i := by simp [Fld.key, Reg.LN.MLSE_CTRL.SOFT_AUTO]
@[simp] theorem Reg.LN.MLSE_CTRL.SOFT_AUTO_w : Reg.LN.MLSE_CTRL.SOFT_AUTO.w = 1 := rfl
@[simp] theorem Reg.LN.MLSE_CTRL.SOFT_AUTO_rst : Reg.LN.MLSE_CTRL.SOFT_AUTO.rst = 1 := rfl
@[simp] theorem Reg.LN.MLSE_CTRL.SOFT_SCALE_key (i _j : Nat) : Reg.LN.MLSE_CTRL.SOFT_SCALE.key i _j = 16777449 + 131072 * i := by simp [Fld.key, Reg.LN.MLSE_CTRL.SOFT_SCALE]
@[simp] theorem Reg.LN.MLSE_CTRL.SOFT_SCALE_w : Reg.LN.MLSE_CTRL.SOFT_SCALE.w = 8 := rfl
@[simp] theorem Reg.LN.MLSE_CTRL.SOFT_SCALE_rst : Reg.LN.MLSE_CTRL.SOFT_SCALE.rst = 40 := rfl
@[simp] theorem Reg.LN.MLSE_CTRL.ALPHA1_MAX_key (i _j : Nat) : Reg.LN.MLSE_CTRL.ALPHA1_MAX.key i _j = 16777457 + 131072 * i := by simp [Fld.key, Reg.LN.MLSE_CTRL.ALPHA1_MAX]
@[simp] theorem Reg.LN.MLSE_CTRL.ALPHA1_MAX_w : Reg.LN.MLSE_CTRL.ALPHA1_MAX.w = 4 := rfl
@[simp] theorem Reg.LN.MLSE_CTRL.ALPHA1_MAX_rst : Reg.LN.MLSE_CTRL.ALPHA1_MAX.rst = 12 := rfl
@[simp] theorem Reg.LN.RX_SNR.SNR_EQ_key (i _j : Nat) : Reg.LN.RX_SNR.SNR_EQ.key i _j = 16777472 + 131072 * i := by simp [Fld.key, Reg.LN.RX_SNR.SNR_EQ]
@[simp] theorem Reg.LN.RX_SNR.SNR_EQ_w : Reg.LN.RX_SNR.SNR_EQ.w = 16 := rfl
@[simp] theorem Reg.LN.RX_SNR.SNR_EQ_rst : Reg.LN.RX_SNR.SNR_EQ.rst = 0 := rfl
@[simp] theorem Reg.LN.RX_SNR.SNR_MFB_key (i _j : Nat) : Reg.LN.RX_SNR.SNR_MFB.key i _j = 16777488 + 131072 * i := by simp [Fld.key, Reg.LN.RX_SNR.SNR_MFB]
@[simp] theorem Reg.LN.RX_SNR.SNR_MFB_w : Reg.LN.RX_SNR.SNR_MFB.w = 16 := rfl
@[simp] theorem Reg.LN.RX_SNR.SNR_MFB_rst : Reg.LN.RX_SNR.SNR_MFB.rst = 0 := rfl
@[simp] theorem Reg.LN.RX_GAP.GAP_key (i _j : Nat) : Reg.LN.RX_GAP.GAP.key i _j = 16777504 + 131072 * i := by simp [Fld.key, Reg.LN.RX_GAP.GAP]
@[simp] theorem Reg.LN.RX_GAP.GAP_w : Reg.LN.RX_GAP.GAP.w = 12 := rfl
@[simp] theorem Reg.LN.RX_GAP.GAP_rst : Reg.LN.RX_GAP.GAP.rst = 0 := rfl
@[simp] theorem Reg.LN.RX_GAP.VALID_key (i _j : Nat) : Reg.LN.RX_GAP.VALID.key i _j = 16777516 + 131072 * i := by simp [Fld.key, Reg.LN.RX_GAP.VALID]
@[simp] theorem Reg.LN.RX_GAP.VALID_w : Reg.LN.RX_GAP.VALID.w = 1 := rfl
@[simp] theorem Reg.LN.RX_GAP.VALID_rst : Reg.LN.RX_GAP.VALID.rst = 0 := rfl
@[simp] theorem Reg.LN.RX_GAP.GAP_SET_key (i _j : Nat) : Reg.LN.RX_GAP.GAP_SET.key i _j = 16777520 + 131072 * i := by simp [Fld.key, Reg.LN.RX_GAP.GAP_SET]
@[simp] theorem Reg.LN.RX_GAP.GAP_SET_w : Reg.LN.RX_GAP.GAP_SET.w = 12 := rfl
@[simp] theorem Reg.LN.RX_GAP.GAP_SET_rst : Reg.LN.RX_GAP.GAP_SET.rst = 0 := rfl
@[simp] theorem Reg.LN.RX_GAP.GAP_N_key (i _j : Nat) : Reg.LN.RX_GAP.GAP_N.key i _j = 16777532 + 131072 * i := by simp [Fld.key, Reg.LN.RX_GAP.GAP_N]
@[simp] theorem Reg.LN.RX_GAP.GAP_N_w : Reg.LN.RX_GAP.GAP_N.w = 4 := rfl
@[simp] theorem Reg.LN.RX_GAP.GAP_N_rst : Reg.LN.RX_GAP.GAP_N.rst = 4 := rfl
@[simp] theorem Reg.LN.RX_THRESH.DEG_SET_key (i _j : Nat) : Reg.LN.RX_THRESH.DEG_SET.key i _j = 16777536 + 131072 * i := by simp [Fld.key, Reg.LN.RX_THRESH.DEG_SET]
@[simp] theorem Reg.LN.RX_THRESH.DEG_SET_w : Reg.LN.RX_THRESH.DEG_SET.w = 8 := rfl
@[simp] theorem Reg.LN.RX_THRESH.DEG_SET_rst : Reg.LN.RX_THRESH.DEG_SET.rst = 68 := rfl
@[simp] theorem Reg.LN.RX_THRESH.DEG_CLR_key (i _j : Nat) : Reg.LN.RX_THRESH.DEG_CLR.key i _j = 16777544 + 131072 * i := by simp [Fld.key, Reg.LN.RX_THRESH.DEG_CLR]
@[simp] theorem Reg.LN.RX_THRESH.DEG_CLR_w : Reg.LN.RX_THRESH.DEG_CLR.w = 8 := rfl
@[simp] theorem Reg.LN.RX_THRESH.DEG_CLR_rst : Reg.LN.RX_THRESH.DEG_CLR.rst = 66 := rfl
@[simp] theorem Reg.LN.RX_THRESH.DEG_N_key (i _j : Nat) : Reg.LN.RX_THRESH.DEG_N.key i _j = 16777552 + 131072 * i := by simp [Fld.key, Reg.LN.RX_THRESH.DEG_N]
@[simp] theorem Reg.LN.RX_THRESH.DEG_N_w : Reg.LN.RX_THRESH.DEG_N.w = 4 := rfl
@[simp] theorem Reg.LN.RX_THRESH.DEG_N_rst : Reg.LN.RX_THRESH.DEG_N.rst = 4 := rfl
@[simp] theorem Reg.LN.DEC_CW.COUNT_key (i _j : Nat) : Reg.LN.DEC_CW.COUNT.key i _j = 16777600 + 131072 * i := by simp [Fld.key, Reg.LN.DEC_CW.COUNT]
@[simp] theorem Reg.LN.DEC_CW.COUNT_w : Reg.LN.DEC_CW.COUNT.w = 64 := rfl
@[simp] theorem Reg.LN.DEC_CW.COUNT_rst : Reg.LN.DEC_CW.COUNT.rst = 0 := rfl
@[simp] theorem Reg.LN.DEC_CORR.COUNT_key (i _j : Nat) : Reg.LN.DEC_CORR.COUNT.key i _j = 16777664 + 131072 * i := by simp [Fld.key, Reg.LN.DEC_CORR.COUNT]
@[simp] theorem Reg.LN.DEC_CORR.COUNT_w : Reg.LN.DEC_CORR.COUNT.w = 64 := rfl
@[simp] theorem Reg.LN.DEC_CORR.COUNT_rst : Reg.LN.DEC_CORR.COUNT.rst = 0 := rfl
@[simp] theorem Reg.LN.DEC_UNCORR.COUNT_key (i _j : Nat) : Reg.LN.DEC_UNCORR.COUNT.key i _j = 16777728 + 131072 * i := by simp [Fld.key, Reg.LN.DEC_UNCORR.COUNT]
@[simp] theorem Reg.LN.DEC_UNCORR.COUNT_w : Reg.LN.DEC_UNCORR.COUNT.w = 64 := rfl
@[simp] theorem Reg.LN.DEC_UNCORR.COUNT_rst : Reg.LN.DEC_UNCORR.COUNT.rst = 0 := rfl
@[simp] theorem Reg.LN.SLICE_CTRL.ROT_PER_key (i _j : Nat) : Reg.LN.SLICE_CTRL.ROT_PER.key i _j = 16781312 + 131072 * i := by simp [Fld.key, Reg.LN.SLICE_CTRL.ROT_PER]
@[simp] theorem Reg.LN.SLICE_CTRL.ROT_PER_w : Reg.LN.SLICE_CTRL.ROT_PER.w = 2 := rfl
@[simp] theorem Reg.LN.SLICE_CTRL.ROT_PER_rst : Reg.LN.SLICE_CTRL.ROT_PER.rst = 0 := rfl
@[simp] theorem Reg.LN.SLICE_CTRL.ROT_HOLD_key (i _j : Nat) : Reg.LN.SLICE_CTRL.ROT_HOLD.key i _j = 16781314 + 131072 * i := by simp [Fld.key, Reg.LN.SLICE_CTRL.ROT_HOLD]
@[simp] theorem Reg.LN.SLICE_CTRL.ROT_HOLD_w : Reg.LN.SLICE_CTRL.ROT_HOLD.w = 1 := rfl
@[simp] theorem Reg.LN.SLICE_CTRL.ROT_HOLD_rst : Reg.LN.SLICE_CTRL.ROT_HOLD.rst = 0 := rfl
@[simp] theorem Reg.LN.SLICE_CTRL.MON_EN_key (i _j : Nat) : Reg.LN.SLICE_CTRL.MON_EN.key i _j = 16781315 + 131072 * i := by simp [Fld.key, Reg.LN.SLICE_CTRL.MON_EN]
@[simp] theorem Reg.LN.SLICE_CTRL.MON_EN_w : Reg.LN.SLICE_CTRL.MON_EN.w = 1 := rfl
@[simp] theorem Reg.LN.SLICE_CTRL.MON_EN_rst : Reg.LN.SLICE_CTRL.MON_EN.rst = 1 := rfl
@[simp] theorem Reg.LN.SLICE_CTRL.SEL_key (i _j : Nat) : Reg.LN.SLICE_CTRL.SEL.key i _j = 16781320 + 131072 * i := by simp [Fld.key, Reg.LN.SLICE_CTRL.SEL]
@[simp] theorem Reg.LN.SLICE_CTRL.SEL_w : Reg.LN.SLICE_CTRL.SEL.w = 7 := rfl
@[simp] theorem Reg.LN.SLICE_CTRL.SEL_rst : Reg.LN.SLICE_CTRL.SEL.rst = 0 := rfl
@[simp] theorem Reg.LN.SLICE_STAT.SPARES_key (i _j : Nat) : Reg.LN.SLICE_STAT.SPARES.key i _j = 16781344 + 131072 * i := by simp [Fld.key, Reg.LN.SLICE_STAT.SPARES]
@[simp] theorem Reg.LN.SLICE_STAT.SPARES_w : Reg.LN.SLICE_STAT.SPARES.w = 3 := rfl
@[simp] theorem Reg.LN.SLICE_STAT.SPARES_rst : Reg.LN.SLICE_STAT.SPARES.rst = 0 := rfl
@[simp] theorem Reg.LN.SLICE_STAT.ROTATING_key (i _j : Nat) : Reg.LN.SLICE_STAT.ROTATING.key i _j = 16781347 + 131072 * i := by simp [Fld.key, Reg.LN.SLICE_STAT.ROTATING]
@[simp] theorem Reg.LN.SLICE_STAT.ROTATING_w : Reg.LN.SLICE_STAT.ROTATING.w = 1 := rfl
@[simp] theorem Reg.LN.SLICE_STAT.ROTATING_rst : Reg.LN.SLICE_STAT.ROTATING.rst = 0 := rfl
@[simp] theorem Reg.LN.SLICE_STAT.STOP_CAUSE_key (i _j : Nat) : Reg.LN.SLICE_STAT.STOP_CAUSE.key i _j = 16781348 + 131072 * i := by simp [Fld.key, Reg.LN.SLICE_STAT.STOP_CAUSE]
@[simp] theorem Reg.LN.SLICE_STAT.STOP_CAUSE_w : Reg.LN.SLICE_STAT.STOP_CAUSE.w = 8 := rfl
@[simp] theorem Reg.LN.SLICE_STAT.STOP_CAUSE_rst : Reg.LN.SLICE_STAT.STOP_CAUSE.rst = 0 := rfl
@[simp] theorem Reg.LN.SLICE_STAT.FG_DUE_key (i _j : Nat) : Reg.LN.SLICE_STAT.FG_DUE.key i _j = 16781356 + 131072 * i := by simp [Fld.key, Reg.LN.SLICE_STAT.FG_DUE]
@[simp] theorem Reg.LN.SLICE_STAT.FG_DUE_w : Reg.LN.SLICE_STAT.FG_DUE.w = 1 := rfl
@[simp] theorem Reg.LN.SLICE_STAT.FG_DUE_rst : Reg.LN.SLICE_STAT.FG_DUE.rst = 0 := rfl
@[simp] theorem Reg.LN.SLICE_STAT.NO_SPARE_key (i _j : Nat) : Reg.LN.SLICE_STAT.NO_SPARE.key i _j = 16781357 + 131072 * i := by simp [Fld.key, Reg.LN.SLICE_STAT.NO_SPARE]
@[simp] theorem Reg.LN.SLICE_STAT.NO_SPARE_w : Reg.LN.SLICE_STAT.NO_SPARE.w = 1 := rfl
@[simp] theorem Reg.LN.SLICE_STAT.NO_SPARE_rst : Reg.LN.SLICE_STAT.NO_SPARE.rst = 0 := rfl
@[simp] theorem Reg.LN.SLICE_STAT.RETIRED_key (i _j : Nat) : Reg.LN.SLICE_STAT.RETIRED.key i _j = 16781358 + 131072 * i := by simp [Fld.key, Reg.LN.SLICE_STAT.RETIRED]
@[simp] theorem Reg.LN.SLICE_STAT.RETIRED_w : Reg.LN.SLICE_STAT.RETIRED.w = 3 := rfl
@[simp] theorem Reg.LN.SLICE_STAT.RETIRED_rst : Reg.LN.SLICE_STAT.RETIRED.rst = 0 := rfl
@[simp] theorem Reg.LN.SLICE_STAT.SWAPS_key (i _j : Nat) : Reg.LN.SLICE_STAT.SWAPS.key i _j = 16781368 + 131072 * i := by simp [Fld.key, Reg.LN.SLICE_STAT.SWAPS]
@[simp] theorem Reg.LN.SLICE_STAT.SWAPS_w : Reg.LN.SLICE_STAT.SWAPS.w = 8 := rfl
@[simp] theorem Reg.LN.SLICE_STAT.SWAPS_rst : Reg.LN.SLICE_STAT.SWAPS.rst = 0 := rfl
@[simp] theorem Reg.LN.SLICE_INFO.STATE_key (i _j : Nat) : Reg.LN.SLICE_INFO.STATE.key i _j = 16781376 + 131072 * i := by simp [Fld.key, Reg.LN.SLICE_INFO.STATE]
@[simp] theorem Reg.LN.SLICE_INFO.STATE_w : Reg.LN.SLICE_INFO.STATE.w = 3 := rfl
@[simp] theorem Reg.LN.SLICE_INFO.STATE_rst : Reg.LN.SLICE_INFO.STATE.rst = 0 := rfl
@[simp] theorem Reg.LN.SLICE_INFO.POS_key (i _j : Nat) : Reg.LN.SLICE_INFO.POS.key i _j = 16781379 + 131072 * i := by simp [Fld.key, Reg.LN.SLICE_INFO.POS]
@[simp] theorem Reg.LN.SLICE_INFO.POS_w : Reg.LN.SLICE_INFO.POS.w = 6 := rfl
@[simp] theorem Reg.LN.SLICE_INFO.POS_rst : Reg.LN.SLICE_INFO.POS.rst = 0 := rfl
@[simp] theorem Reg.LN.SLICE_INFO.SUSPECT_key (i _j : Nat) : Reg.LN.SLICE_INFO.SUSPECT.key i _j = 16781385 + 131072 * i := by simp [Fld.key, Reg.LN.SLICE_INFO.SUSPECT]
@[simp] theorem Reg.LN.SLICE_INFO.SUSPECT_w : Reg.LN.SLICE_INFO.SUSPECT.w = 1 := rfl
@[simp] theorem Reg.LN.SLICE_INFO.SUSPECT_rst : Reg.LN.SLICE_INFO.SUSPECT.rst = 0 := rfl
@[simp] theorem Reg.LN.SLICE_INFO.SUSPECT_RUN_key (i _j : Nat) : Reg.LN.SLICE_INFO.SUSPECT_RUN.key i _j = 16781386 + 131072 * i := by simp [Fld.key, Reg.LN.SLICE_INFO.SUSPECT_RUN]
@[simp] theorem Reg.LN.SLICE_INFO.SUSPECT_RUN_w : Reg.LN.SLICE_INFO.SUSPECT_RUN.w = 2 := rfl
@[simp] theorem Reg.LN.SLICE_INFO.SUSPECT_RUN_rst : Reg.LN.SLICE_INFO.SUSPECT_RUN.rst = 0 := rfl
@[simp] theorem Reg.LN.SLICE_INFO.FROM_MAP_key (i _j : Nat) : Reg.LN.SLICE_INFO.FROM_MAP.key i _j = 16781388 + 131072 * i := by simp [Fld.key, Reg.LN.SLICE_INFO.FROM_MAP]
@[simp] theorem Reg.LN.SLICE_INFO.FROM_MAP_w : Reg.LN.SLICE_INFO.FROM_MAP.w = 1 := rfl
@[simp] theorem Reg.LN.SLICE_INFO.FROM_MAP_rst : Reg.LN.SLICE_INFO.FROM_MAP.rst = 0 := rfl
@[simp] theorem Reg.LN.SLICE_INFO.AGE_key (i _j : Nat) : Reg.LN.SLICE_INFO.AGE.key i _j = 16781392 + 131072 * i := by simp [Fld.key, Reg.LN.SLICE_INFO.AGE]
@[simp] theorem Reg.LN.SLICE_INFO.AGE_w : Reg.LN.SLICE_INFO.AGE.w = 16 := rfl
@[simp] theorem Reg.LN.SLICE_INFO.AGE_rst : Reg.LN.SLICE_INFO.AGE.rst = 0 := rfl
@[simp] theorem Reg.LN.CAL_STAT.FIRST_DONE_key (i _j : Nat) : Reg.LN.CAL_STAT.FIRST_DONE.key i _j = 16781408 + 131072 * i := by simp [Fld.key, Reg.LN.CAL_STAT.FIRST_DONE]
@[simp] theorem Reg.LN.CAL_STAT.FIRST_DONE_w : Reg.LN.CAL_STAT.FIRST_DONE.w = 1 := rfl
@[simp] theorem Reg.LN.CAL_STAT.FIRST_DONE_rst : Reg.LN.CAL_STAT.FIRST_DONE.rst = 0 := rfl
@[simp] theorem Reg.LN.CAL_STAT.SUSPECT_key (i _j : Nat) : Reg.LN.CAL_STAT.SUSPECT.key i _j = 16781409 + 131072 * i := by simp [Fld.key, Reg.LN.CAL_STAT.SUSPECT]
@[simp] theorem Reg.LN.CAL_STAT.SUSPECT_w : Reg.LN.CAL_STAT.SUSPECT.w = 6 := rfl
@[simp] theorem Reg.LN.CAL_STAT.SUSPECT_rst : Reg.LN.CAL_STAT.SUSPECT.rst = 0 := rfl
@[simp] theorem Reg.LN.CAL_STAT.PENDING_key (i _j : Nat) : Reg.LN.CAL_STAT.PENDING.key i _j = 16781415 + 131072 * i := by simp [Fld.key, Reg.LN.CAL_STAT.PENDING]
@[simp] theorem Reg.LN.CAL_STAT.PENDING_w : Reg.LN.CAL_STAT.PENDING.w = 6 := rfl
@[simp] theorem Reg.LN.CAL_STAT.PENDING_rst : Reg.LN.CAL_STAT.PENDING.rst = 0 := rfl
@[simp] theorem Reg.LN.CAL_STAT.FROZEN_key (i _j : Nat) : Reg.LN.CAL_STAT.FROZEN.key i _j = 16781421 + 131072 * i := by simp [Fld.key, Reg.LN.CAL_STAT.FROZEN]
@[simp] theorem Reg.LN.CAL_STAT.FROZEN_w : Reg.LN.CAL_STAT.FROZEN.w = 1 := rfl
@[simp] theorem Reg.LN.CAL_STAT.FROZEN_rst : Reg.LN.CAL_STAT.FROZEN.rst = 0 := rfl
@[simp] theorem Reg.LN.CAL_STAT.DT_MAX_key (i _j : Nat) : Reg.LN.CAL_STAT.DT_MAX.key i _j = 16781424 + 131072 * i := by simp [Fld.key, Reg.LN.CAL_STAT.DT_MAX]
@[simp] theorem Reg.LN.CAL_STAT.DT_MAX_w : Reg.LN.CAL_STAT.DT_MAX.w = 12 := rfl
@[simp] theorem Reg.LN.CAL_STAT.DT_MAX_rst : Reg.LN.CAL_STAT.DT_MAX.rst = 0 := rfl
@[simp] theorem Reg.LN.TX_CTRL.FIR_COMMIT_key (i _j : Nat) : Reg.LN.TX_CTRL.FIR_COMMIT.key i _j = 16785408 + 131072 * i := by simp [Fld.key, Reg.LN.TX_CTRL.FIR_COMMIT]
@[simp] theorem Reg.LN.TX_CTRL.FIR_COMMIT_w : Reg.LN.TX_CTRL.FIR_COMMIT.w = 1 := rfl
@[simp] theorem Reg.LN.TX_CTRL.FIR_COMMIT_rst : Reg.LN.TX_CTRL.FIR_COMMIT.rst = 0 := rfl
@[simp] theorem Reg.LN.TX_CTRL.SQUELCH_key (i _j : Nat) : Reg.LN.TX_CTRL.SQUELCH.key i _j = 16785409 + 131072 * i := by simp [Fld.key, Reg.LN.TX_CTRL.SQUELCH]
@[simp] theorem Reg.LN.TX_CTRL.SQUELCH_w : Reg.LN.TX_CTRL.SQUELCH.w = 1 := rfl
@[simp] theorem Reg.LN.TX_CTRL.SQUELCH_rst : Reg.LN.TX_CTRL.SQUELCH.rst = 0 := rfl
@[simp] theorem Reg.LN.TX_CTRL.DRIVE_key (i _j : Nat) : Reg.LN.TX_CTRL.DRIVE.key i _j = 16785410 + 131072 * i := by simp [Fld.key, Reg.LN.TX_CTRL.DRIVE]
@[simp] theorem Reg.LN.TX_CTRL.DRIVE_w : Reg.LN.TX_CTRL.DRIVE.w = 2 := rfl
@[simp] theorem Reg.LN.TX_CTRL.DRIVE_rst : Reg.LN.TX_CTRL.DRIVE.rst = 0 := rfl
@[simp] theorem Reg.LN.TX_CTRL.MASK_key (i _j : Nat) : Reg.LN.TX_CTRL.MASK.key i _j = 16785412 + 131072 * i := by simp [Fld.key, Reg.LN.TX_CTRL.MASK]
@[simp] theorem Reg.LN.TX_CTRL.MASK_w : Reg.LN.TX_CTRL.MASK.w = 2 := rfl
@[simp] theorem Reg.LN.TX_CTRL.MASK_rst : Reg.LN.TX_CTRL.MASK.rst = 1 := rfl
@[simp] theorem Reg.LN.TX_CTRL.SWING_key (i _j : Nat) : Reg.LN.TX_CTRL.SWING.key i _j = 16785414 + 131072 * i := by simp [Fld.key, Reg.LN.TX_CTRL.SWING]
@[simp] theorem Reg.LN.TX_CTRL.SWING_w : Reg.LN.TX_CTRL.SWING.w = 6 := rfl
@[simp] theorem Reg.LN.TX_CTRL.SWING_rst : Reg.LN.TX_CTRL.SWING.rst = 24 := rfl
@[simp] theorem Reg.LN.TX_CTRL.CM_SEL_key (i _j : Nat) : Reg.LN.TX_CTRL.CM_SEL.key i _j = 16785420 + 131072 * i := by simp [Fld.key, Reg.LN.TX_CTRL.CM_SEL]
@[simp] theorem Reg.LN.TX_CTRL.CM_SEL_w : Reg.LN.TX_CTRL.CM_SEL.w = 1 := rfl
@[simp] theorem Reg.LN.TX_CTRL.CM_SEL_rst : Reg.LN.TX_CTRL.CM_SEL.rst = 0 := rfl
@[simp] theorem Reg.LN.TX_CTRL.LVL_OUTER_key (i _j : Nat) : Reg.LN.TX_CTRL.LVL_OUTER.key i _j = 16785422 + 131072 * i := by simp [Fld.key, Reg.LN.TX_CTRL.LVL_OUTER]
@[simp] theorem Reg.LN.TX_CTRL.LVL_OUTER_w : Reg.LN.TX_CTRL.LVL_OUTER.w = 6 := rfl
@[simp] theorem Reg.LN.TX_CTRL.LVL_OUTER_rst : Reg.LN.TX_CTRL.LVL_OUTER.rst = 0 := rfl
@[simp] theorem Reg.LN.TX_STAT.TX_ACTIVE_key (i _j : Nat) : Reg.LN.TX_STAT.TX_ACTIVE.key i _j = 16785440 + 131072 * i := by simp [Fld.key, Reg.LN.TX_STAT.TX_ACTIVE]
@[simp] theorem Reg.LN.TX_STAT.TX_ACTIVE_w : Reg.LN.TX_STAT.TX_ACTIVE.w = 1 := rfl
@[simp] theorem Reg.LN.TX_STAT.TX_ACTIVE_rst : Reg.LN.TX_STAT.TX_ACTIVE.rst = 0 := rfl
@[simp] theorem Reg.LN.TX_STAT.IDLE_CAUSE_key (i _j : Nat) : Reg.LN.TX_STAT.IDLE_CAUSE.key i _j = 16785441 + 131072 * i := by simp [Fld.key, Reg.LN.TX_STAT.IDLE_CAUSE]
@[simp] theorem Reg.LN.TX_STAT.IDLE_CAUSE_w : Reg.LN.TX_STAT.IDLE_CAUSE.w = 5 := rfl
@[simp] theorem Reg.LN.TX_STAT.IDLE_CAUSE_rst : Reg.LN.TX_STAT.IDLE_CAUSE.rst = 1 := rfl
@[simp] theorem Reg.LN.TX_STAT.FIR_PENDING_key (i _j : Nat) : Reg.LN.TX_STAT.FIR_PENDING.key i _j = 16785446 + 131072 * i := by simp [Fld.key, Reg.LN.TX_STAT.FIR_PENDING]
@[simp] theorem Reg.LN.TX_STAT.FIR_PENDING_w : Reg.LN.TX_STAT.FIR_PENDING.w = 1 := rfl
@[simp] theorem Reg.LN.TX_STAT.FIR_PENDING_rst : Reg.LN.TX_STAT.FIR_PENDING.rst = 0 := rfl
@[simp] theorem Reg.LN.TX_STAT.FIR_REJECT_key (i _j : Nat) : Reg.LN.TX_STAT.FIR_REJECT.key i _j = 16785447 + 131072 * i := by simp [Fld.key, Reg.LN.TX_STAT.FIR_REJECT]
@[simp] theorem Reg.LN.TX_STAT.FIR_REJECT_w : Reg.LN.TX_STAT.FIR_REJECT.w = 1 := rfl
@[simp] theorem Reg.LN.TX_STAT.FIR_REJECT_rst : Reg.LN.TX_STAT.FIR_REJECT.rst = 0 := rfl
@[simp] theorem Reg.LN.TX_STAT.REJECT_CAUSE_key (i _j : Nat) : Reg.LN.TX_STAT.REJECT_CAUSE.key i _j = 16785448 + 131072 * i := by simp [Fld.key, Reg.LN.TX_STAT.REJECT_CAUSE]
@[simp] theorem Reg.LN.TX_STAT.REJECT_CAUSE_w : Reg.LN.TX_STAT.REJECT_CAUSE.w = 2 := rfl
@[simp] theorem Reg.LN.TX_STAT.REJECT_CAUSE_rst : Reg.LN.TX_STAT.REJECT_CAUSE.rst = 0 := rfl
@[simp] theorem Reg.LN.TX_STAT.SKEW_SLEWING_key (i _j : Nat) : Reg.LN.TX_STAT.SKEW_SLEWING.key i _j = 16785450 + 131072 * i := by simp [Fld.key, Reg.LN.TX_STAT.SKEW_SLEWING]
@[simp] theorem Reg.LN.TX_STAT.SKEW_SLEWING_w : Reg.LN.TX_STAT.SKEW_SLEWING.w = 1 := rfl
@[simp] theorem Reg.LN.TX_STAT.SKEW_SLEWING_rst : Reg.LN.TX_STAT.SKEW_SLEWING.rst = 0 := rfl
@[simp] theorem Reg.LN.TX_STAT.BOOST_MAX_key (i _j : Nat) : Reg.LN.TX_STAT.BOOST_MAX.key i _j = 16785456 + 131072 * i := by simp [Fld.key, Reg.LN.TX_STAT.BOOST_MAX]
@[simp] theorem Reg.LN.TX_STAT.BOOST_MAX_w : Reg.LN.TX_STAT.BOOST_MAX.w = 8 := rfl
@[simp] theorem Reg.LN.TX_STAT.BOOST_MAX_rst : Reg.LN.TX_STAT.BOOST_MAX.rst = 0 := rfl
@[simp] theorem Reg.LN.TX_FIR.INDEX_key (i _j : Nat) : Reg.LN.TX_FIR.INDEX.key i _j = 16785472 + 131072 * i := by simp [Fld.key, Reg.LN.TX_FIR.INDEX]
@[simp] theorem Reg.LN.TX_FIR.INDEX_w : Reg.LN.TX_FIR.INDEX.w = 3 := rfl
@[simp] theorem Reg.LN.TX_FIR.INDEX_rst : Reg.LN.TX_FIR.INDEX.rst = 0 := rfl
@[simp] theorem Reg.LN.TX_FIR.VALUE_key (i _j : Nat) : Reg.LN.TX_FIR.VALUE.key i _j = 16785480 + 131072 * i := by simp [Fld.key, Reg.LN.TX_FIR.VALUE]
@[simp] theorem Reg.LN.TX_FIR.VALUE_w : Reg.LN.TX_FIR.VALUE.w = 10 := rfl
@[simp] theorem Reg.LN.TX_FIR.VALUE_rst : Reg.LN.TX_FIR.VALUE.rst = 0 := rfl
@[simp] theorem Reg.LN.TX_FIR.WR_EN_key (i _j : Nat) : Reg.LN.TX_FIR.WR_EN.key i _j = 16785502 + 131072 * i := by simp [Fld.key, Reg.LN.TX_FIR.WR_EN]
@[simp] theorem Reg.LN.TX_FIR.WR_EN_w : Reg.LN.TX_FIR.WR_EN.w = 1 := rfl
@[simp] theorem Reg.LN.TX_FIR.WR_EN_rst : Reg.LN.TX_FIR.WR_EN.rst = 0 := rfl
@[simp] theorem Reg.LN.TX_FIR.SRC_key (i _j : Nat) : Reg.LN.TX_FIR.SRC.key i _j = 16785503 + 131072 * i := by simp [Fld.key, Reg.LN.TX_FIR.SRC]
@[simp] theorem Reg.LN.TX_FIR.SRC_w : Reg.LN.TX_FIR.SRC.w = 1 := rfl
@[simp] theorem Reg.LN.TX_FIR.SRC_rst : Reg.LN.TX_FIR.SRC.rst = 0 := rfl
@[simp] theorem Reg.LN.PRBS_CTRL.GEN_PAT_key (i _j : Nat) : Reg.LN.PRBS_CTRL.GEN_PAT.key i _j = 16785504 + 131072 * i := by simp [Fld.key, Reg.LN.PRBS_CTRL.GEN_PAT]
@[simp] theorem Reg.LN.PRBS_CTRL.GEN_PAT_w : Reg.LN.PRBS_CTRL.GEN_PAT.w = 3 := rfl
@[simp] theorem Reg.LN.PRBS_CTRL.GEN_PAT_rst : Reg.LN.PRBS_CTRL.GEN_PAT.rst = 5 := rfl
@[simp] theorem Reg.LN.PRBS_CTRL.GEN_EN_key (i _j : Nat) : Reg.LN.PRBS_CTRL.GEN_EN.key i _j = 16785507 + 131072 * i := by simp [Fld.key, Reg.LN.PRBS_CTRL.GEN_EN]
@[simp] theorem Reg.LN.PRBS_CTRL.GEN_EN_w : Reg.LN.PRBS_CTRL.GEN_EN.w = 1 := rfl
@[simp] theorem Reg.LN.PRBS_CTRL.GEN_EN_rst : Reg.LN.PRBS_CTRL.GEN_EN.rst = 0 := rfl
@[simp] theorem Reg.LN.PRBS_CTRL.CHK_PAT_key (i _j : Nat) : Reg.LN.PRBS_CTRL.CHK_PAT.key i _j = 16785508 + 131072 * i := by simp [Fld.key, Reg.LN.PRBS_CTRL.CHK_PAT]
@[simp] theorem Reg.LN.PRBS_CTRL.CHK_PAT_w : Reg.LN.PRBS_CTRL.CHK_PAT.w = 3 := rfl
@[simp] theorem Reg.LN.PRBS_CTRL.CHK_PAT_rst : Reg.LN.PRBS_CTRL.CHK_PAT.rst = 5 := rfl
@[simp] theorem Reg.LN.PRBS_CTRL.CHK_EN_key (i _j : Nat) : Reg.LN.PRBS_CTRL.CHK_EN.key i _j = 16785511 + 131072 * i := by simp [Fld.key, Reg.LN.PRBS_CTRL.CHK_EN]
@[simp] theorem Reg.LN.PRBS_CTRL.CHK_EN_w : Reg.LN.PRBS_CTRL.CHK_EN.w = 1 := rfl
@[simp] theorem Reg.LN.PRBS_CTRL.CHK_EN_rst : Reg.LN.PRBS_CTRL.CHK_EN.rst = 0 := rfl
@[simp] theorem Reg.LN.PRBS_CTRL.LOOP_key (i _j : Nat) : Reg.LN.PRBS_CTRL.LOOP.key i _j = 16785512 + 131072 * i := by simp [Fld.key, Reg.LN.PRBS_CTRL.LOOP]
@[simp] theorem Reg.LN.PRBS_CTRL.LOOP_w : Reg.LN.PRBS_CTRL.LOOP.w = 2 := rfl
@[simp] theorem Reg.LN.PRBS_CTRL.LOOP_rst : Reg.LN.PRBS_CTRL.LOOP.rst = 0 := rfl
@[simp] theorem Reg.LN.PRBS_CTRL.INJ_K_key (i _j : Nat) : Reg.LN.PRBS_CTRL.INJ_K.key i _j = 16785514 + 131072 * i := by simp [Fld.key, Reg.LN.PRBS_CTRL.INJ_K]
@[simp] theorem Reg.LN.PRBS_CTRL.INJ_K_w : Reg.LN.PRBS_CTRL.INJ_K.w = 6 := rfl
@[simp] theorem Reg.LN.PRBS_CTRL.INJ_K_rst : Reg.LN.PRBS_CTRL.INJ_K.rst = 0 := rfl
@[simp] theorem Reg.LN.PRBS_CTRL.INJ_ONE_key (i _j : Nat) : Reg.LN.PRBS_CTRL.INJ_ONE.key i _j = 16785520 + 131072 * i := by simp [Fld.key, Reg.LN.PRBS_CTRL.INJ_ONE]
@[simp] theorem Reg.LN.PRBS_CTRL.INJ_ONE_w : Reg.LN.PRBS_CTRL.INJ_ONE.w = 1 := rfl
@[simp] theorem Reg.LN.PRBS_CTRL.INJ_ONE_rst : Reg.LN.PRBS_CTRL.INJ_ONE.rst = 0 := rfl
@[simp] theorem Reg.LN.PRBS_CTRL.CHK_LOCK_key (i _j : Nat) : Reg.LN.PRBS_CTRL.CHK_LOCK.key i _j = 16785521 + 131072 * i := by simp [Fld.key, Reg.LN.PRBS_CTRL.CHK_LOCK]
@[simp] theorem Reg.LN.PRBS_CTRL.CHK_LOCK_w : Reg.LN.PRBS_CTRL.CHK_LOCK.w = 1 := rfl
@[simp] theorem Reg.LN.PRBS_CTRL.CHK_LOCK_rst : Reg.LN.PRBS_CTRL.CHK_LOCK.rst = 0 := rfl
@[simp] theorem Reg.LN.PRBS_CTRL.ERR_CLEAR_key (i _j : Nat) : Reg.LN.PRBS_CTRL.ERR_CLEAR.key i _j = 16785522 + 131072 * i := by simp [Fld.key, Reg.LN.PRBS_CTRL.ERR_CLEAR]
@[simp] theorem Reg.LN.PRBS_CTRL.ERR_CLEAR_w : Reg.LN.PRBS_CTRL.ERR_CLEAR.w = 1 := rfl
@[simp] theorem Reg.LN.PRBS_CTRL.ERR_CLEAR_rst : Reg.LN.PRBS_CTRL.ERR_CLEAR.rst = 0 := rfl
@[simp] theorem Reg.LN.PRBS_ERR.COUNT_key (i _j : Nat) : Reg.LN.PRBS_ERR.COUNT.key i _j = 16785536 + 131072 * i := by simp [Fld.key, Reg.LN.PRBS_ERR.COUNT]
@[simp] theorem Reg.LN.PRBS_ERR.COUNT_w : Reg.LN.PRBS_ERR.COUNT.w = 64 := rfl
@[simp] theorem Reg.LN.PRBS_ERR.COUNT_rst : Reg.LN.PRBS_ERR.COUNT.rst = 0 := rfl
@[simp] theorem Reg.LN.BST_CTRL.POLICY_key (i _j : Nat) : Reg.LN.BST_CTRL.POLICY.key i _j = 16793600 + 131072 * i := by simp [Fld.key, Reg.LN.BST_CTRL.POLICY]
@[simp] theorem Reg.LN.BST_CTRL.POLICY_w : Reg.LN.BST_CTRL.POLICY.w = 1 := rfl
@[simp] theorem Reg.LN.BST_CTRL.POLICY_rst : Reg.LN.BST_CTRL.POLICY.rst = 0 := rfl
@[simp] theorem Reg.LN.BST_CTRL.FORCE_WIDE_key (i _j : Nat) : Reg.LN.BST_CTRL.FORCE_WIDE.key i _j = 16793601 + 131072 * i := by simp [Fld.key, Reg.LN.BST_CTRL.FORCE_WIDE]
@[simp] theorem Reg.LN.BST_CTRL.FORCE_WIDE_w : Reg.LN.BST_CTRL.FORCE_WIDE.w = 1 := rfl
@[simp] theorem Reg.LN.BST_CTRL.FORCE_WIDE_rst : Reg.LN.BST_CTRL.FORCE_WIDE.rst = 0 := rfl
@[simp] theorem Reg.LN.BST_CTRL.MISS_REC_key (i _j : Nat) : Reg.LN.BST_CTRL.MISS_REC.key i _j = 16793602 + 131072 * i := by simp [Fld.key, Reg.LN.BST_CTRL.MISS_REC]
@[simp] theorem Reg.LN.BST_CTRL.MISS_REC_w : Reg.LN.BST_CTRL.MISS_REC.w = 1 := rfl
@[simp] theorem Reg.LN.BST_CTRL.MISS_REC_rst : Reg.LN.BST_CTRL.MISS_REC.rst = 1 := rfl
@[simp] theorem Reg.LN.BST_CTRL.CNT_CLEAR_key (i _j : Nat) : Reg.LN.BST_CTRL.CNT_CLEAR.key i _j = 16793603 + 131072 * i := by simp [Fld.key, Reg.LN.BST_CTRL.CNT_CLEAR]
@[simp] theorem Reg.LN.BST_CTRL.CNT_CLEAR_w : Reg.LN.BST_CTRL.CNT_CLEAR.w = 1 := rfl
@[simp] theorem Reg.LN.BST_CTRL.CNT_CLEAR_rst : Reg.LN.BST_CTRL.CNT_CLEAR.rst = 0 := rfl
@[simp] theorem Reg.LN.BST_CTRL.LOS_EPOCHS_key (i _j : Nat) : Reg.LN.BST_CTRL.LOS_EPOCHS.key i _j = 16793604 + 131072 * i := by simp [Fld.key, Reg.LN.BST_CTRL.LOS_EPOCHS]
@[simp] theorem Reg.LN.BST_CTRL.LOS_EPOCHS_w : Reg.LN.BST_CTRL.LOS_EPOCHS.w = 4 := rfl
@[simp] theorem Reg.LN.BST_CTRL.LOS_EPOCHS_rst : Reg.LN.BST_CTRL.LOS_EPOCHS.rst = 4 := rfl
@[simp] theorem Reg.LN.BST_CTRL.OVL_DB_key (i _j : Nat) : Reg.LN.BST_CTRL.OVL_DB.key i _j = 16793608 + 131072 * i := by simp [Fld.key, Reg.LN.BST_CTRL.OVL_DB]
@[simp] theorem Reg.LN.BST_CTRL.OVL_DB_w : Reg.LN.BST_CTRL.OVL_DB.w = 8 := rfl
@[simp] theorem Reg.LN.BST_CTRL.OVL_DB_rst : Reg.LN.BST_CTRL.OVL_DB.rst = 12 := rfl
@[simp] theorem Reg.LN.BST_CTRL.NARROW_Q_key (i _j : Nat) : Reg.LN.BST_CTRL.NARROW_Q.key i _j = 16793616 + 131072 * i := by simp [Fld.key, Reg.LN.BST_CTRL.NARROW_Q]
@[simp] theorem Reg.LN.BST_CTRL.NARROW_Q_w : Reg.LN.BST_CTRL.NARROW_Q.w = 8 := rfl
@[simp] theorem Reg.LN.BST_CTRL.NARROW_Q_rst : Reg.LN.BST_CTRL.NARROW_Q.rst = 64 := rfl
@[simp] theorem Reg.LN.BST_CTRL.ONSET_THR_key (i _j : Nat) : Reg.LN.BST_CTRL.ONSET_THR.key i _j = 16793624 + 131072 * i := by simp [Fld.key, Reg.LN.BST_CTRL.ONSET_THR]
@[simp] theorem Reg.LN.BST_CTRL.ONSET_THR_w : Reg.LN.BST_CTRL.ONSET_THR.w = 8 := rfl
@[simp] theorem Reg.LN.BST_CTRL.ONSET_THR_rst : Reg.LN.BST_CTRL.ONSET_THR.rst = 15 := rfl
@[simp] theorem Reg.LN.BST_DET.DET_THR_key (i _j : Nat) : Reg.LN.BST_DET.DET_THR.key i _j = 16793632 + 131072 * i := by simp [Fld.key, Reg.LN.BST_DET.DET_THR]
@[simp] theorem Reg.LN.BST_DET.DET_THR_w : Reg.LN.BST_DET.DET_THR.w = 6 := rfl
@[simp] theorem Reg.LN.BST_DET.DET_THR_rst : Reg.LN.BST_DET.DET_THR.rst = 40 := rfl
@[simp] theorem Reg.LN.BST_DET.DET_CONF_key (i _j : Nat) : Reg.LN.BST_DET.DET_CONF.key i _j = 16793638 + 131072 * i := by simp [Fld.key, Reg.LN.BST_DET.DET_CONF]
@[simp] theorem Reg.LN.BST_DET.DET_CONF_w : Reg.LN.BST_DET.DET_CONF.w = 3 := rfl
@[simp] theorem Reg.LN.BST_DET.DET_CONF_rst : Reg.LN.BST_DET.DET_CONF.rst = 2 := rfl
@[simp] theorem Reg.LN.BST_DET.CAP_THR_key (i _j : Nat) : Reg.LN.BST_DET.CAP_THR.key i _j = 16793641 + 131072 * i := by simp [Fld.key, Reg.LN.BST_DET.CAP_THR]
@[simp] theorem Reg.LN.BST_DET.CAP_THR_w : Reg.LN.BST_DET.CAP_THR.w = 6 := rfl
@[simp] theorem Reg.LN.BST_DET.CAP_THR_rst : Reg.LN.BST_DET.CAP_THR.rst = 60 := rfl
@[simp] theorem Reg.LN.BST_DET.RESTART_DB_key (i _j : Nat) : Reg.LN.BST_DET.RESTART_DB.key i _j = 16793648 + 131072 * i := by simp [Fld.key, Reg.LN.BST_DET.RESTART_DB]
@[simp] theorem Reg.LN.BST_DET.RESTART_DB_w : Reg.LN.BST_DET.RESTART_DB.w = 4 := rfl
@[simp] theorem Reg.LN.BST_DET.RESTART_DB_rst : Reg.LN.BST_DET.RESTART_DB.rst = 6 := rfl
@[simp] theorem Reg.LN.BST_DET.KP_B_key (i _j : Nat) : Reg.LN.BST_DET.KP_B.key i _j = 16793652 + 131072 * i := by simp [Fld.key, Reg.LN.BST_DET.KP_B]
@[simp] theorem Reg.LN.BST_DET.KP_B_w : Reg.LN.BST_DET.KP_B.w = 4 := rfl
@[simp] theorem Reg.LN.BST_DET.KP_B_rst : Reg.LN.BST_DET.KP_B.rst = 6 := rfl
@[simp] theorem Reg.LN.BST_DET.AGC_START_key (i _j : Nat) : Reg.LN.BST_DET.AGC_START.key i _j = 16793656 + 131072 * i := by simp [Fld.key, Reg.LN.BST_DET.AGC_START]
@[simp] theorem Reg.LN.BST_DET.AGC_START_w : Reg.LN.BST_DET.AGC_START.w = 8 := rfl
@[simp] theorem Reg.LN.BST_DET.AGC_START_rst : Reg.LN.BST_DET.AGC_START.rst = 48 := rfl
@[simp] theorem Reg.LN.BST_STAT.RX_PHASE_key (i _j : Nat) : Reg.LN.BST_STAT.RX_PHASE.key i _j = 16793664 + 131072 * i := by simp [Fld.key, Reg.LN.BST_STAT.RX_PHASE]
@[simp] theorem Reg.LN.BST_STAT.RX_PHASE_w : Reg.LN.BST_STAT.RX_PHASE.w = 3 := rfl
@[simp] theorem Reg.LN.BST_STAT.RX_PHASE_rst : Reg.LN.BST_STAT.RX_PHASE.rst = 0 := rfl
@[simp] theorem Reg.LN.BST_STAT.SLOT_key (i _j : Nat) : Reg.LN.BST_STAT.SLOT.key i _j = 16793667 + 131072 * i := by simp [Fld.key, Reg.LN.BST_STAT.SLOT]
@[simp] theorem Reg.LN.BST_STAT.SLOT_w : Reg.LN.BST_STAT.SLOT.w = 6 := rfl
@[simp] theorem Reg.LN.BST_STAT.SLOT_rst : Reg.LN.BST_STAT.SLOT.rst = 0 := rfl
@[simp] theorem Reg.LN.BST_STAT.NARROW_key (i _j : Nat) : Reg.LN.BST_STAT.NARROW.key i _j = 16793673 + 131072 * i := by simp [Fld.key, Reg.LN.BST_STAT.NARROW]
@[simp] theorem Reg.LN.BST_STAT.NARROW_w : Reg.LN.BST_STAT.NARROW.w = 1 := rfl
@[simp] theorem Reg.LN.BST_STAT.NARROW_rst : Reg.LN.BST_STAT.NARROW.rst = 0 := rfl
@[simp] theorem Reg.LN.BST_STAT.LOS_key (i _j : Nat) : Reg.LN.BST_STAT.LOS.key i _j = 16793674 + 131072 * i := by simp [Fld.key, Reg.LN.BST_STAT.LOS]
@[simp] theorem Reg.LN.BST_STAT.LOS_w : Reg.LN.BST_STAT.LOS.w = 1 := rfl
@[simp] theorem Reg.LN.BST_STAT.LOS_rst : Reg.LN.BST_STAT.LOS.rst = 0 := rfl
@[simp] theorem Reg.LN.BST_STAT.SOURCES_NARROW_key (i _j : Nat) : Reg.LN.BST_STAT.SOURCES_NARROW.key i _j = 16793680 + 131072 * i := by simp [Fld.key, Reg.LN.BST_STAT.SOURCES_NARROW]
@[simp] theorem Reg.LN.BST_STAT.SOURCES_NARROW_w : Reg.LN.BST_STAT.SOURCES_NARROW.w = 7 := rfl
@[simp] theorem Reg.LN.BST_STAT.SOURCES_NARROW_rst : Reg.LN.BST_STAT.SOURCES_NARROW.rst = 0 := rfl
@[simp] theorem Reg.LN.BST_LAST.STATUS_key (i _j : Nat) : Reg.LN.BST_LAST.STATUS.key i _j = 16793696 + 131072 * i := by simp [Fld.key, Reg.LN.BST_LAST.STATUS]
@[simp] theorem Reg.LN.BST_LAST.STATUS_w : Reg.LN.BST_LAST.STATUS.w = 8 := rfl
@[simp] theorem Reg.LN.BST_LAST.STATUS_rst : Reg.LN.BST_LAST.STATUS.rst = 0 := rfl
@[simp] theorem Reg.LN.BST_LAST.QUAL_key (i _j : Nat) : Reg.LN.BST_LAST.QUAL.key i _j = 16793704 + 131072 * i := by simp [Fld.key, Reg.LN.BST_LAST.QUAL]
@[simp] theorem Reg.LN.BST_LAST.QUAL_w : Reg.LN.BST_LAST.QUAL.w = 8 := rfl
@[simp] theorem Reg.LN.BST_LAST.QUAL_rst : Reg.LN.BST_LAST.QUAL.rst = 0 := rfl
@[simp] theorem Reg.LN.BST_LAST.ARRIVAL_key (i _j : Nat) : Reg.LN.BST_LAST.ARRIVAL.key i _j = 16793712 + 131072 * i := by simp [Fld.key, Reg.LN.BST_LAST.ARRIVAL]
@[simp] theorem Reg.LN.BST_LAST.ARRIVAL_w : Reg.LN.BST_LAST.ARRIVAL.w = 16 := rfl
@[simp] theorem Reg.LN.BST_LAST.ARRIVAL_rst : Reg.LN.BST_LAST.ARRIVAL.rst = 0 := rfl
@[simp] theorem Reg.LN.BST_BURSTS.OK_key (i _j : Nat) : Reg.LN.BST_BURSTS.OK.key i _j = 16793728 + 131072 * i := by simp [Fld.key, Reg.LN.BST_BURSTS.OK]
@[simp] theorem Reg.LN.BST_BURSTS.OK_w : Reg.LN.BST_BURSTS.OK.w = 64 := rfl
@[simp] theorem Reg.LN.BST_BURSTS.OK_rst : Reg.LN.BST_BURSTS.OK.rst = 0 := rfl
@[simp] theorem Reg.LN.MORTAR_DROP.RX_BLOCKS_key (i _j : Nat) : Reg.LN.MORTAR_DROP.RX_BLOCKS.key i _j = 16797696 + 131072 * i := by simp [Fld.key, Reg.LN.MORTAR_DROP.RX_BLOCKS]
@[simp] theorem Reg.LN.MORTAR_DROP.RX_BLOCKS_w : Reg.LN.MORTAR_DROP.RX_BLOCKS.w = 32 := rfl
@[simp] theorem Reg.LN.MORTAR_DROP.RX_BLOCKS_rst : Reg.LN.MORTAR_DROP.RX_BLOCKS.rst = 0 := rfl
@[simp] theorem Reg.LN.MORTAR_DROP.TX_BLOCKS_key (i _j : Nat) : Reg.LN.MORTAR_DROP.TX_BLOCKS.key i _j = 16797728 + 131072 * i := by simp [Fld.key, Reg.LN.MORTAR_DROP.TX_BLOCKS]
@[simp] theorem Reg.LN.MORTAR_DROP.TX_BLOCKS_w : Reg.LN.MORTAR_DROP.TX_BLOCKS.w = 32 := rfl
@[simp] theorem Reg.LN.MORTAR_DROP.TX_BLOCKS_rst : Reg.LN.MORTAR_DROP.TX_BLOCKS.rst = 0 := rfl
@[simp] theorem Reg.LN.BST_EXC_A.FALSE_START_key (i _j : Nat) : Reg.LN.BST_EXC_A.FALSE_START.key i _j = 16793792 + 131072 * i := by simp [Fld.key, Reg.LN.BST_EXC_A.FALSE_START]
@[simp] theorem Reg.LN.BST_EXC_A.FALSE_START_w : Reg.LN.BST_EXC_A.FALSE_START.w = 16 := rfl
@[simp] theorem Reg.LN.BST_EXC_A.FALSE_START_rst : Reg.LN.BST_EXC_A.FALSE_START.rst = 0 := rfl
@[simp] theorem Reg.LN.BST_EXC_A.RESTART_key (i _j : Nat) : Reg.LN.BST_EXC_A.RESTART.key i _j = 16793808 + 131072 * i := by simp [Fld.key, Reg.LN.BST_EXC_A.RESTART]
@[simp] theorem Reg.LN.BST_EXC_A.RESTART_w : Reg.LN.BST_EXC_A.RESTART.w = 16 := rfl
@[simp] theorem Reg.LN.BST_EXC_A.RESTART_rst : Reg.LN.BST_EXC_A.RESTART.rst = 0 := rfl
@[simp] theorem Reg.LN.BST_EXC_A.OVERLAP_key (i _j : Nat) : Reg.LN.BST_EXC_A.OVERLAP.key i _j = 16793824 + 131072 * i := by simp [Fld.key, Reg.LN.BST_EXC_A.OVERLAP]
@[simp] theorem Reg.LN.BST_EXC_A.OVERLAP_w : Reg.LN.BST_EXC_A.OVERLAP.w = 16 := rfl
@[simp] theorem Reg.LN.BST_EXC_A.OVERLAP_rst : Reg.LN.BST_EXC_A.OVERLAP.rst = 0 := rfl
@[simp] theorem Reg.LN.BST_EXC_A.PREEMPTED_key (i _j : Nat) : Reg.LN.BST_EXC_A.PREEMPTED.key i _j = 16793840 + 131072 * i := by simp [Fld.key, Reg.LN.BST_EXC_A.PREEMPTED]
@[simp] theorem Reg.LN.BST_EXC_A.PREEMPTED_w : Reg.LN.BST_EXC_A.PREEMPTED.w = 16 := rfl
@[simp] theorem Reg.LN.BST_EXC_A.PREEMPTED_rst : Reg.LN.BST_EXC_A.PREEMPTED.rst = 0 := rfl
@[simp] theorem Reg.LN.BST_EXC_B.TRUNCATED_key (i _j : Nat) : Reg.LN.BST_EXC_B.TRUNCATED.key i _j = 16793856 + 131072 * i := by simp [Fld.key, Reg.LN.BST_EXC_B.TRUNCATED]
@[simp] theorem Reg.LN.BST_EXC_B.TRUNCATED_w : Reg.LN.BST_EXC_B.TRUNCATED.w = 16 := rfl
@[simp] theorem Reg.LN.BST_EXC_B.TRUNCATED_rst : Reg.LN.BST_EXC_B.TRUNCATED.rst = 0 := rfl
@[simp] theorem Reg.LN.BST_EXC_B.NO_END_key (i _j : Nat) : Reg.LN.BST_EXC_B.NO_END.key i _j = 16793872 + 131072 * i := by simp [Fld.key, Reg.LN.BST_EXC_B.NO_END]
@[simp] theorem Reg.LN.BST_EXC_B.NO_END_w : Reg.LN.BST_EXC_B.NO_END.w = 16 := rfl
@[simp] theorem Reg.LN.BST_EXC_B.NO_END_rst : Reg.LN.BST_EXC_B.NO_END.rst = 0 := rfl
@[simp] theorem Reg.LN.BST_EXC_B.MISSED_key (i _j : Nat) : Reg.LN.BST_EXC_B.MISSED.key i _j = 16793888 + 131072 * i := by simp [Fld.key, Reg.LN.BST_EXC_B.MISSED]
@[simp] theorem Reg.LN.BST_EXC_B.MISSED_w : Reg.LN.BST_EXC_B.MISSED.w = 16 := rfl
@[simp] theorem Reg.LN.BST_EXC_B.MISSED_rst : Reg.LN.BST_EXC_B.MISSED.rst = 0 := rfl
@[simp] theorem Reg.LN.BST_EXC_B.TX_MISSED_key (i _j : Nat) : Reg.LN.BST_EXC_B.TX_MISSED.key i _j = 16793904 + 131072 * i := by simp [Fld.key, Reg.LN.BST_EXC_B.TX_MISSED]
@[simp] theorem Reg.LN.BST_EXC_B.TX_MISSED_w : Reg.LN.BST_EXC_B.TX_MISSED.w = 16 := rfl
@[simp] theorem Reg.LN.BST_EXC_B.TX_MISSED_rst : Reg.LN.BST_EXC_B.TX_MISSED.rst = 0 := rfl
@[simp] theorem Reg.LN.BST_EXC_C.TX_LATE_key (i _j : Nat) : Reg.LN.BST_EXC_C.TX_LATE.key i _j = 16793920 + 131072 * i := by simp [Fld.key, Reg.LN.BST_EXC_C.TX_LATE]
@[simp] theorem Reg.LN.BST_EXC_C.TX_LATE_w : Reg.LN.BST_EXC_C.TX_LATE.w = 16 := rfl
@[simp] theorem Reg.LN.BST_EXC_C.TX_LATE_rst : Reg.LN.BST_EXC_C.TX_LATE.rst = 0 := rfl
@[simp] theorem Reg.LN.BST_EXC_C.TX_BAD_key (i _j : Nat) : Reg.LN.BST_EXC_C.TX_BAD.key i _j = 16793936 + 131072 * i := by simp [Fld.key, Reg.LN.BST_EXC_C.TX_BAD]
@[simp] theorem Reg.LN.BST_EXC_C.TX_BAD_w : Reg.LN.BST_EXC_C.TX_BAD.w = 16 := rfl
@[simp] theorem Reg.LN.BST_EXC_C.TX_BAD_rst : Reg.LN.BST_EXC_C.TX_BAD.rst = 0 := rfl
@[simp] theorem Reg.LN.BST_EXC_C.TX_UNDERRUN_key (i _j : Nat) : Reg.LN.BST_EXC_C.TX_UNDERRUN.key i _j = 16793952 + 131072 * i := by simp [Fld.key, Reg.LN.BST_EXC_C.TX_UNDERRUN]
@[simp] theorem Reg.LN.BST_EXC_C.TX_UNDERRUN_w : Reg.LN.BST_EXC_C.TX_UNDERRUN.w = 16 := rfl
@[simp] theorem Reg.LN.BST_EXC_C.TX_UNDERRUN_rst : Reg.LN.BST_EXC_C.TX_UNDERRUN.rst = 0 := rfl
@[simp] theorem Reg.HL.QUAD_STAT.PWR_ON_key (i _j : Nat) : Reg.HL.QUAD_STAT.PWR_ON.key i _j = 25165824 + 524288 * i := by simp [Fld.key, Reg.HL.QUAD_STAT.PWR_ON]
@[simp] theorem Reg.HL.QUAD_STAT.PWR_ON_w : Reg.HL.QUAD_STAT.PWR_ON.w = 1 := rfl
@[simp] theorem Reg.HL.QUAD_STAT.PWR_ON_rst : Reg.HL.QUAD_STAT.PWR_ON.rst = 0 := rfl
@[simp] theorem Reg.HL.QUAD_STAT.PLL_LOCK_key (i _j : Nat) : Reg.HL.QUAD_STAT.PLL_LOCK.key i _j = 25165825 + 524288 * i := by simp [Fld.key, Reg.HL.QUAD_STAT.PLL_LOCK]
@[simp] theorem Reg.HL.QUAD_STAT.PLL_LOCK_w : Reg.HL.QUAD_STAT.PLL_LOCK.w = 1 := rfl
@[simp] theorem Reg.HL.QUAD_STAT.PLL_LOCK_rst : Reg.HL.QUAD_STAT.PLL_LOCK.rst = 0 := rfl
@[simp] theorem Reg.HL.QUAD_STAT.PAD_HELD_key (i _j : Nat) : Reg.HL.QUAD_STAT.PAD_HELD.key i _j = 25165826 + 524288 * i := by simp [Fld.key, Reg.HL.QUAD_STAT.PAD_HELD]
@[simp] theorem Reg.HL.QUAD_STAT.PAD_HELD_w : Reg.HL.QUAD_STAT.PAD_HELD.w = 1 := rfl
@[simp] theorem Reg.HL.QUAD_STAT.PAD_HELD_rst : Reg.HL.QUAD_STAT.PAD_HELD.rst = 0 := rfl
@[simp] theorem Reg.HL.QUAD_STAT.LOCKED_key (i _j : Nat) : Reg.HL.QUAD_STAT.LOCKED.key i _j = 25165832 + 524288 * i := by simp [Fld.key, Reg.HL.QUAD_STAT.LOCKED]
@[simp] theorem Reg.HL.QUAD_STAT.LOCKED_w : Reg.HL.QUAD_STAT.LOCKED.w = 6 := rfl
@[simp] theorem Reg.HL.QUAD_STAT.LOCKED_rst : Reg.HL.QUAD_STAT.LOCKED.rst = 0 := rfl
@[simp] theorem Reg.HL.QUAD_LOCK.LANE_key (i j : Nat) : Reg.HL.QUAD_LOCK.LANE.key i j = 25165856 + 1 * j + 524288 * i := by simp [Fld.key, Reg.HL.QUAD_LOCK.LANE]
@[simp] theorem Reg.HL.QUAD_LOCK.LANE_w : Reg.HL.QUAD_LOCK.LANE.w = 1 := rfl
@[simp] theorem Reg.HL.QUAD_LOCK.LANE_rst : Reg.HL.QUAD_LOCK.LANE.rst = 0 := rfl
@[simp] theorem Reg.HL.QUAD_CHG.LANE_key (i j : Nat) : Reg.HL.QUAD_CHG.LANE.key i j = 25165888 + 1 * j + 524288 * i := by simp [Fld.key, Reg.HL.QUAD_CHG.LANE]
@[simp] theorem Reg.HL.QUAD_CHG.LANE_w : Reg.HL.QUAD_CHG.LANE.w = 1 := rfl
@[simp] theorem Reg.HL.QUAD_CHG.LANE_rst : Reg.HL.QUAD_CHG.LANE.rst = 0 := rfl
@[simp] theorem Reg.HL.CTRL.RX_INV_key (i _j : Nat) : Reg.HL.CTRL.RX_INV.key i _j = 25198592 + 8 * (i / 32 * 65536 + i % 32 * 1024) := by simp [Fld.key, Reg.HL.CTRL.RX_INV]
@[simp] theorem Reg.HL.CTRL.RX_INV_w : Reg.HL.CTRL.RX_INV.w = 1 := rfl
@[simp] theorem Reg.HL.CTRL.RX_INV_rst : Reg.HL.CTRL.RX_INV.rst = 0 := rfl
@[simp] theorem Reg.HL.CTRL.TX_INV_key (i _j : Nat) : Reg.HL.CTRL.TX_INV.key i _j = 25198593 + 8 * (i / 32 * 65536 + i % 32 * 1024) := by simp [Fld.key, Reg.HL.CTRL.TX_INV]
@[simp] theorem Reg.HL.CTRL.TX_INV_w : Reg.HL.CTRL.TX_INV.w = 1 := rfl
@[simp] theorem Reg.HL.CTRL.TX_INV_rst : Reg.HL.CTRL.TX_INV.rst = 0 := rfl
@[simp] theorem Reg.HL.CTRL.PROFILE_key (i _j : Nat) : Reg.HL.CTRL.PROFILE.key i _j = 25198594 + 8 * (i / 32 * 65536 + i % 32 * 1024) := by simp [Fld.key, Reg.HL.CTRL.PROFILE]
@[simp] theorem Reg.HL.CTRL.PROFILE_w : Reg.HL.CTRL.PROFILE.w = 2 := rfl
@[simp] theorem Reg.HL.CTRL.PROFILE_rst : Reg.HL.CTRL.PROFILE.rst = 0 := rfl
@[simp] theorem Reg.HL.CTRL.TX_SQUELCH_key (i _j : Nat) : Reg.HL.CTRL.TX_SQUELCH.key i _j = 25198596 + 8 * (i / 32 * 65536 + i % 32 * 1024) := by simp [Fld.key, Reg.HL.CTRL.TX_SQUELCH]
@[simp] theorem Reg.HL.CTRL.TX_SQUELCH_w : Reg.HL.CTRL.TX_SQUELCH.w = 1 := rfl
@[simp] theorem Reg.HL.CTRL.TX_SQUELCH_rst : Reg.HL.CTRL.TX_SQUELCH.rst = 0 := rfl
@[simp] theorem Reg.HL.CTRL.PRECODE_TX_key (i _j : Nat) : Reg.HL.CTRL.PRECODE_TX.key i _j = 25198597 + 8 * (i / 32 * 65536 + i % 32 * 1024) := by simp [Fld.key, Reg.HL.CTRL.PRECODE_TX]
@[simp] theorem Reg.HL.CTRL.PRECODE_TX_w : Reg.HL.CTRL.PRECODE_TX.w = 1 := rfl
@[simp] theorem Reg.HL.CTRL.PRECODE_TX_rst : Reg.HL.CTRL.PRECODE_TX.rst = 0 := rfl
@[simp] theorem Reg.HL.CTRL.PRECODE_RX_key (i _j : Nat) : Reg.HL.CTRL.PRECODE_RX.key i _j = 25198598 + 8 * (i / 32 * 65536 + i % 32 * 1024) := by simp [Fld.key, Reg.HL.CTRL.PRECODE_RX]
@[simp] theorem Reg.HL.CTRL.PRECODE_RX_w : Reg.HL.CTRL.PRECODE_RX.w = 1 := rfl
@[simp] theorem Reg.HL.CTRL.PRECODE_RX_rst : Reg.HL.CTRL.PRECODE_RX.rst = 0 := rfl
@[simp] theorem Reg.HL.STAT.STATE_key (i _j : Nat) : Reg.HL.STAT.STATE.key i _j = 25198624 + 8 * (i / 32 * 65536 + i % 32 * 1024) := by simp [Fld.key, Reg.HL.STAT.STATE]
@[simp] theorem Reg.HL.STAT.STATE_w : Reg.HL.STAT.STATE.w = 3 := rfl
@[simp] theorem Reg.HL.STAT.STATE_rst : Reg.HL.STAT.STATE.rst = 0 := rfl
@[simp] theorem Reg.HL.STAT.RATE_key (i _j : Nat) : Reg.HL.STAT.RATE.key i _j = 25198627 + 8 * (i / 32 * 65536 + i % 32 * 1024) := by simp [Fld.key, Reg.HL.STAT.RATE]
@[simp] theorem Reg.HL.STAT.RATE_w : Reg.HL.STAT.RATE.w = 1 := rfl
@[simp] theorem Reg.HL.STAT.RATE_rst : Reg.HL.STAT.RATE.rst = 0 := rfl
@[simp] theorem Reg.HL.STAT.LOS_key (i _j : Nat) : Reg.HL.STAT.LOS.key i _j = 25198628 + 8 * (i / 32 * 65536 + i % 32 * 1024) := by simp [Fld.key, Reg.HL.STAT.LOS]
@[simp] theorem Reg.HL.STAT.LOS_w : Reg.HL.STAT.LOS.w = 1 := rfl
@[simp] theorem Reg.HL.STAT.LOS_rst : Reg.HL.STAT.LOS.rst = 0 := rfl
@[simp] theorem Reg.HL.STAT.CDR_LOCK_key (i _j : Nat) : Reg.HL.STAT.CDR_LOCK.key i _j = 25198629 + 8 * (i / 32 * 65536 + i % 32 * 1024) := by simp [Fld.key, Reg.HL.STAT.CDR_LOCK]
@[simp] theorem Reg.HL.STAT.CDR_LOCK_w : Reg.HL.STAT.CDR_LOCK.w = 1 := rfl
@[simp] theorem Reg.HL.STAT.CDR_LOCK_rst : Reg.HL.STAT.CDR_LOCK.rst = 0 := rfl
@[simp] theorem Reg.HL.STAT.SIG_LOCK_key (i _j : Nat) : Reg.HL.STAT.SIG_LOCK.key i _j = 25198630 + 8 * (i / 32 * 65536 + i % 32 * 1024) := by simp [Fld.key, Reg.HL.STAT.SIG_LOCK]
@[simp] theorem Reg.HL.STAT.SIG_LOCK_w : Reg.HL.STAT.SIG_LOCK.w = 1 := rfl
@[simp] theorem Reg.HL.STAT.SIG_LOCK_rst : Reg.HL.STAT.SIG_LOCK.rst = 0 := rfl
@[simp] theorem Reg.HL.STAT.PRE_TX_ON_key (i _j : Nat) : Reg.HL.STAT.PRE_TX_ON.key i _j = 25198631 + 8 * (i / 32 * 65536 + i % 32 * 1024) := by simp [Fld.key, Reg.HL.STAT.PRE_TX_ON]
@[simp] theorem Reg.HL.STAT.PRE_TX_ON_w : Reg.HL.STAT.PRE_TX_ON.w = 1 := rfl
@[simp] theorem Reg.HL.STAT.PRE_TX_ON_rst : Reg.HL.STAT.PRE_TX_ON.rst = 0 := rfl
@[simp] theorem Reg.HL.STAT.PRE_RX_ON_key (i _j : Nat) : Reg.HL.STAT.PRE_RX_ON.key i _j = 25198632 + 8 * (i / 32 * 65536 + i % 32 * 1024) := by simp [Fld.key, Reg.HL.STAT.PRE_RX_ON]
@[simp] theorem Reg.HL.STAT.PRE_RX_ON_w : Reg.HL.STAT.PRE_RX_ON.w = 1 := rfl
@[simp] theorem Reg.HL.STAT.PRE_RX_ON_rst : Reg.HL.STAT.PRE_RX_ON.rst = 0 := rfl
@[simp] theorem Reg.HL.STAT.TX_SRC_key (i _j : Nat) : Reg.HL.STAT.TX_SRC.key i _j = 25198633 + 8 * (i / 32 * 65536 + i % 32 * 1024) := by simp [Fld.key, Reg.HL.STAT.TX_SRC]
@[simp] theorem Reg.HL.STAT.TX_SRC_w : Reg.HL.STAT.TX_SRC.w = 2 := rfl
@[simp] theorem Reg.HL.STAT.TX_SRC_rst : Reg.HL.STAT.TX_SRC.rst = 0 := rfl
@[simp] theorem Reg.HL.STAT.EQ_REJECT_key (i _j : Nat) : Reg.HL.STAT.EQ_REJECT.key i _j = 25198635 + 8 * (i / 32 * 65536 + i % 32 * 1024) := by simp [Fld.key, Reg.HL.STAT.EQ_REJECT]
@[simp] theorem Reg.HL.STAT.EQ_REJECT_w : Reg.HL.STAT.EQ_REJECT.w = 1 := rfl
@[simp] theorem Reg.HL.STAT.EQ_REJECT_rst : Reg.HL.STAT.EQ_REJECT.rst = 0 := rfl
@[simp] theorem Reg.HL.TRAIN_CTRL.EN_key (i _j : Nat) : Reg.HL.TRAIN_CTRL.EN.key i _j = 25198656 + 8 * (i / 32 * 65536 + i % 32 * 1024) := by simp [Fld.key, Reg.HL.TRAIN_CTRL.EN]
@[simp] theorem Reg.HL.TRAIN_CTRL.EN_w : Reg.HL.TRAIN_CTRL.EN.w = 1 := rfl
@[simp] theorem Reg.HL.TRAIN_CTRL.EN_rst : Reg.HL.TRAIN_CTRL.EN.rst = 1 := rfl
@[simp] theorem Reg.HL.TRAIN_CTRL.RESTART_key (i _j : Nat) : Reg.HL.TRAIN_CTRL.RESTART.key i _j = 25198657 + 8 * (i / 32 * 65536 + i % 32 * 1024) := by simp [Fld.key, Reg.HL.TRAIN_CTRL.RESTART]
@[simp] theorem Reg.HL.TRAIN_CTRL.RESTART_w : Reg.HL.TRAIN_CTRL.RESTART.w = 1 := rfl
@[simp] theorem Reg.HL.TRAIN_CTRL.RESTART_rst : Reg.HL.TRAIN_CTRL.RESTART.rst = 0 := rfl
@[simp] theorem Reg.HL.TRAIN_CTRL.PRECODE_REQ_key (i _j : Nat) : Reg.HL.TRAIN_CTRL.PRECODE_REQ.key i _j = 25198658 + 8 * (i / 32 * 65536 + i % 32 * 1024) := by simp [Fld.key, Reg.HL.TRAIN_CTRL.PRECODE_REQ]
@[simp] theorem Reg.HL.TRAIN_CTRL.PRECODE_REQ_w : Reg.HL.TRAIN_CTRL.PRECODE_REQ.w = 1 := rfl
@[simp] theorem Reg.HL.TRAIN_CTRL.PRECODE_REQ_rst : Reg.HL.TRAIN_CTRL.PRECODE_REQ.rst = 0 := rfl
@[simp] theorem Reg.HL.TRAIN_CTRL.INIT_PRESET_key (i _j : Nat) : Reg.HL.TRAIN_CTRL.INIT_PRESET.key i _j = 25198659 + 8 * (i / 32 * 65536 + i % 32 * 1024) := by simp [Fld.key, Reg.HL.TRAIN_CTRL.INIT_PRESET]
@[simp] theorem Reg.HL.TRAIN_CTRL.INIT_PRESET_w : Reg.HL.TRAIN_CTRL.INIT_PRESET.w = 2 := rfl
@[simp] theorem Reg.HL.TRAIN_CTRL.INIT_PRESET_rst : Reg.HL.TRAIN_CTRL.INIT_PRESET.rst = 1 := rfl
@[simp] theorem Reg.HL.TRAIN_CTRL.TIMEOUT_key (i _j : Nat) : Reg.HL.TRAIN_CTRL.TIMEOUT.key i _j = 25198664 + 8 * (i / 32 * 65536 + i % 32 * 1024) := by simp [Fld.key, Reg.HL.TRAIN_CTRL.TIMEOUT]
@[simp] theorem Reg.HL.TRAIN_CTRL.TIMEOUT_w : Reg.HL.TRAIN_CTRL.TIMEOUT.w = 8 := rfl
@[simp] theorem Reg.HL.TRAIN_CTRL.TIMEOUT_rst : Reg.HL.TRAIN_CTRL.TIMEOUT.rst = 20 := rfl
@[simp] theorem Reg.HL.TRAIN_STAT.RESULT_key (i _j : Nat) : Reg.HL.TRAIN_STAT.RESULT.key i _j = 25198688 + 8 * (i / 32 * 65536 + i % 32 * 1024) := by simp [Fld.key, Reg.HL.TRAIN_STAT.RESULT]
@[simp] theorem Reg.HL.TRAIN_STAT.RESULT_w : Reg.HL.TRAIN_STAT.RESULT.w = 2 := rfl
@[simp] theorem Reg.HL.TRAIN_STAT.RESULT_rst : Reg.HL.TRAIN_STAT.RESULT.rst = 0 := rfl
@[simp] theorem Reg.HL.TRAIN_STAT.LOCAL_READY_key (i _j : Nat) : Reg.HL.TRAIN_STAT.LOCAL_READY.key i _j = 25198690 + 8 * (i / 32 * 65536 + i % 32 * 1024) := by simp [Fld.key, Reg.HL.TRAIN_STAT.LOCAL_READY]
@[simp] theorem Reg.HL.TRAIN_STAT.LOCAL_READY_w : Reg.HL.TRAIN_STAT.LOCAL_READY.w = 1 := rfl
@[simp] theorem Reg.HL.TRAIN_STAT.LOCAL_READY_rst : Reg.HL.TRAIN_STAT.LOCAL_READY.rst = 0 := rfl
@[simp] theorem Reg.HL.TRAIN_STAT.REMOTE_READY_key (i _j : Nat) : Reg.HL.TRAIN_STAT.REMOTE_READY.key i _j = 25198691 + 8 * (i / 32 * 65536 + i % 32 * 1024) := by simp [Fld.key, Reg.HL.TRAIN_STAT.REMOTE_READY]
@[simp] theorem Reg.HL.TRAIN_STAT.REMOTE_READY_w : Reg.HL.TRAIN_STAT.REMOTE_READY.w = 1 := rfl
@[simp] theorem Reg.HL.TRAIN_STAT.REMOTE_READY_rst : Reg.HL.TRAIN_STAT.REMOTE_READY.rst = 0 := rfl
@[simp] theorem Reg.HL.TRAIN_STAT.ATTEMPTS_key (i _j : Nat) : Reg.HL.TRAIN_STAT.ATTEMPTS.key i _j = 25198692 + 8 * (i / 32 * 65536 + i % 32 * 1024) := by simp [Fld.key, Reg.HL.TRAIN_STAT.ATTEMPTS]
@[simp] theorem Reg.HL.TRAIN_STAT.ATTEMPTS_w : Reg.HL.TRAIN_STAT.ATTEMPTS.w = 8 := rfl
@[simp] theorem Reg.HL.TRAIN_STAT.ATTEMPTS_rst : Reg.HL.TRAIN_STAT.ATTEMPTS.rst = 0 := rfl
@[simp] theorem Reg.HL.TRAIN_STAT.LAST_TIME_key (i _j : Nat) : Reg.HL.TRAIN_STAT.LAST_TIME.key i _j = 25198704 + 8 * (i / 32 * 65536 + i % 32 * 1024) := by simp [Fld.key, Reg.HL.TRAIN_STAT.LAST_TIME]
@[simp] theorem Reg.HL.TRAIN_STAT.LAST_TIME_w : Reg.HL.TRAIN_STAT.LAST_TIME.w = 16 := rfl
@[simp] theorem Reg.HL.TRAIN_STAT.LAST_TIME_rst : Reg.HL.TRAIN_STAT.LAST_TIME.rst = 0 := rfl
@[simp] theorem Reg.HL.TX_EQ.INDEX_key (i _j : Nat) : Reg.HL.TX_EQ.INDEX.key i _j = 25198720 + 8 * (i / 32 * 65536 + i % 32 * 1024) := by simp [Fld.key, Reg.HL.TX_EQ.INDEX]
@[simp] theorem Reg.HL.TX_EQ.INDEX_w : Reg.HL.TX_EQ.INDEX.w = 3 := rfl
@[simp] theorem Reg.HL.TX_EQ.INDEX_rst : Reg.HL.TX_EQ.INDEX.rst = 0 := rfl
@[simp] theorem Reg.HL.TX_EQ.VALUE_key (i _j : Nat) : Reg.HL.TX_EQ.VALUE.key i _j = 25198728 + 8 * (i / 32 * 65536 + i % 32 * 1024) := by simp [Fld.key, Reg.HL.TX_EQ.VALUE]
@[simp] theorem Reg.HL.TX_EQ.VALUE_w : Reg.HL.TX_EQ.VALUE.w = 8 := rfl
@[simp] theorem Reg.HL.TX_EQ.VALUE_rst : Reg.HL.TX_EQ.VALUE.rst = 0 := rfl
@[simp] theorem Reg.HL.TX_EQ.WR_EN_key (i _j : Nat) : Reg.HL.TX_EQ.WR_EN.key i _j = 25198751 + 8 * (i / 32 * 65536 + i % 32 * 1024) := by simp [Fld.key, Reg.HL.TX_EQ.WR_EN]
@[simp] theorem Reg.HL.TX_EQ.WR_EN_w : Reg.HL.TX_EQ.WR_EN.w = 1 := rfl
@[simp] theorem Reg.HL.TX_EQ.WR_EN_rst : Reg.HL.TX_EQ.WR_EN.rst = 0 := rfl
@[simp] theorem Reg.HL.RX_EQ.CTLE_key (i _j : Nat) : Reg.HL.RX_EQ.CTLE.key i _j = 25198752 + 8 * (i / 32 * 65536 + i % 32 * 1024) := by simp [Fld.key, Reg.HL.RX_EQ.CTLE]
@[simp] theorem Reg.HL.RX_EQ.CTLE_w : Reg.HL.RX_EQ.CTLE.w = 4 := rfl
@[simp] theorem Reg.HL.RX_EQ.CTLE_rst : Reg.HL.RX_EQ.CTLE.rst = 0 := rfl
@[simp] theorem Reg.HL.RX_EQ.VGA_key (i _j : Nat) : Reg.HL.RX_EQ.VGA.key i _j = 25198756 + 8 * (i / 32 * 65536 + i % 32 * 1024) := by simp [Fld.key, Reg.HL.RX_EQ.VGA]
@[simp] theorem Reg.HL.RX_EQ.VGA_w : Reg.HL.RX_EQ.VGA.w = 8 := rfl
@[simp] theorem Reg.HL.RX_EQ.VGA_rst : Reg.HL.RX_EQ.VGA.rst = 0 := rfl
@[simp] theorem Reg.HL.RX_EQ.SNR_key (i _j : Nat) : Reg.HL.RX_EQ.SNR.key i _j = 25198768 + 8 * (i / 32 * 65536 + i % 32 * 1024) := by simp [Fld.key, Reg.HL.RX_EQ.SNR]
@[simp] theorem Reg.HL.RX_EQ.SNR_w : Reg.HL.RX_EQ.SNR.w = 12 := rfl
@[simp] theorem Reg.HL.RX_EQ.SNR_rst : Reg.HL.RX_EQ.SNR.rst = 0 := rfl
@[simp] theorem Reg.HL.PRBS_CTRL.GEN_PAT_key (i _j : Nat) : Reg.HL.PRBS_CTRL.GEN_PAT.key i _j = 25198784 + 8 * (i / 32 * 65536 + i % 32 * 1024) := by simp [Fld.key, Reg.HL.PRBS_CTRL.GEN_PAT]
@[simp] theorem Reg.HL.PRBS_CTRL.GEN_PAT_w : Reg.HL.PRBS_CTRL.GEN_PAT.w = 4 := rfl
@[simp] theorem Reg.HL.PRBS_CTRL.GEN_PAT_rst : Reg.HL.PRBS_CTRL.GEN_PAT.rst = 7 := rfl
@[simp] theorem Reg.HL.PRBS_CTRL.GEN_EN_key (i _j : Nat) : Reg.HL.PRBS_CTRL.GEN_EN.key i _j = 25198788 + 8 * (i / 32 * 65536 + i % 32 * 1024) := by simp [Fld.key, Reg.HL.PRBS_CTRL.GEN_EN]
@[simp] theorem Reg.HL.PRBS_CTRL.GEN_EN_w : Reg.HL.PRBS_CTRL.GEN_EN.w = 1 := rfl
@[simp] theorem Reg.HL.PRBS_CTRL.GEN_EN_rst : Reg.HL.PRBS_CTRL.GEN_EN.rst = 0 := rfl
@[simp] theorem Reg.HL.PRBS_CTRL.CHK_PAT_key (i _j : Nat) : Reg.HL.PRBS_CTRL.CHK_PAT.key i _j = 25198789 + 8 * (i / 32 * 65536 + i % 32 * 1024) := by simp [Fld.key, Reg.HL.PRBS_CTRL.CHK_PAT]
@[simp] theorem Reg.HL.PRBS_CTRL.CHK_PAT_w : Reg.HL.PRBS_CTRL.CHK_PAT.w = 4 := rfl
@[simp] theorem Reg.HL.PRBS_CTRL.CHK_PAT_rst : Reg.HL.PRBS_CTRL.CHK_PAT.rst = 7 := rfl
@[simp] theorem Reg.HL.PRBS_CTRL.CHK_EN_key (i _j : Nat) : Reg.HL.PRBS_CTRL.CHK_EN.key i _j = 25198793 + 8 * (i / 32 * 65536 + i % 32 * 1024) := by simp [Fld.key, Reg.HL.PRBS_CTRL.CHK_EN]
@[simp] theorem Reg.HL.PRBS_CTRL.CHK_EN_w : Reg.HL.PRBS_CTRL.CHK_EN.w = 1 := rfl
@[simp] theorem Reg.HL.PRBS_CTRL.CHK_EN_rst : Reg.HL.PRBS_CTRL.CHK_EN.rst = 0 := rfl
@[simp] theorem Reg.HL.PRBS_CTRL.LOOP_key (i _j : Nat) : Reg.HL.PRBS_CTRL.LOOP.key i _j = 25198794 + 8 * (i / 32 * 65536 + i % 32 * 1024) := by simp [Fld.key, Reg.HL.PRBS_CTRL.LOOP]
@[simp] theorem Reg.HL.PRBS_CTRL.LOOP_w : Reg.HL.PRBS_CTRL.LOOP.w = 2 := rfl
@[simp] theorem Reg.HL.PRBS_CTRL.LOOP_rst : Reg.HL.PRBS_CTRL.LOOP.rst = 0 := rfl
@[simp] theorem Reg.HL.PRBS_CTRL.INJ_K_key (i _j : Nat) : Reg.HL.PRBS_CTRL.INJ_K.key i _j = 25198796 + 8 * (i / 32 * 65536 + i % 32 * 1024) := by simp [Fld.key, Reg.HL.PRBS_CTRL.INJ_K]
@[simp] theorem Reg.HL.PRBS_CTRL.INJ_K_w : Reg.HL.PRBS_CTRL.INJ_K.w = 6 := rfl
@[simp] theorem Reg.HL.PRBS_CTRL.INJ_K_rst : Reg.HL.PRBS_CTRL.INJ_K.rst = 0 := rfl
@[simp] theorem Reg.HL.PRBS_CTRL.INJ_ONE_key (i _j : Nat) : Reg.HL.PRBS_CTRL.INJ_ONE.key i _j = 25198802 + 8 * (i / 32 * 65536 + i % 32 * 1024) := by simp [Fld.key, Reg.HL.PRBS_CTRL.INJ_ONE]
@[simp] theorem Reg.HL.PRBS_CTRL.INJ_ONE_w : Reg.HL.PRBS_CTRL.INJ_ONE.w = 1 := rfl
@[simp] theorem Reg.HL.PRBS_CTRL.INJ_ONE_rst : Reg.HL.PRBS_CTRL.INJ_ONE.rst = 0 := rfl
@[simp] theorem Reg.HL.PRBS_CTRL.CHK_LOCK_key (i _j : Nat) : Reg.HL.PRBS_CTRL.CHK_LOCK.key i _j = 25198803 + 8 * (i / 32 * 65536 + i % 32 * 1024) := by simp [Fld.key, Reg.HL.PRBS_CTRL.CHK_LOCK]
@[simp] theorem Reg.HL.PRBS_CTRL.CHK_LOCK_w : Reg.HL.PRBS_CTRL.CHK_LOCK.w = 1 := rfl
@[simp] theorem Reg.HL.PRBS_CTRL.CHK_LOCK_rst : Reg.HL.PRBS_CTRL.CHK_LOCK.rst = 0 := rfl
@[simp] theorem Reg.HL.PRBS_CTRL.ERR_CLEAR_key (i _j : Nat) : Reg.HL.PRBS_CTRL.ERR_CLEAR.key i _j = 25198804 + 8 * (i / 32 * 65536 + i % 32 * 1024) := by simp [Fld.key, Reg.HL.PRBS_CTRL.ERR_CLEAR]
@[simp] theorem Reg.HL.PRBS_CTRL.ERR_CLEAR_w : Reg.HL.PRBS_CTRL.ERR_CLEAR.w = 1 := rfl
@[simp] theorem Reg.HL.PRBS_CTRL.ERR_CLEAR_rst : Reg.HL.PRBS_CTRL.ERR_CLEAR.rst = 0 := rfl
@[simp] theorem Reg.HL.PRBS_ERR.COUNT_key (i _j : Nat) : Reg.HL.PRBS_ERR.COUNT.key i _j = 25198848 + 8 * (i / 32 * 65536 + i % 32 * 1024) := by simp [Fld.key, Reg.HL.PRBS_ERR.COUNT]
@[simp] theorem Reg.HL.PRBS_ERR.COUNT_w : Reg.HL.PRBS_ERR.COUNT.w = 64 := rfl
@[simp] theorem Reg.HL.PRBS_ERR.COUNT_rst : Reg.HL.PRBS_ERR.COUNT.rst = 0 := rfl
@[simp] theorem Reg.FLK.CTRL.RETRAIN_key (_i _j : Nat) : Reg.FLK.CTRL.RETRAIN.key _i _j = 27262976 := by simp [Fld.key, Reg.FLK.CTRL.RETRAIN]
@[simp] theorem Reg.FLK.CTRL.RETRAIN_w : Reg.FLK.CTRL.RETRAIN.w = 1 := rfl
@[simp] theorem Reg.FLK.CTRL.RETRAIN_rst : Reg.FLK.CTRL.RETRAIN.rst = 0 := rfl
@[simp] theorem Reg.FLK.CTRL.FL1_EN_key (_i _j : Nat) : Reg.FLK.CTRL.FL1_EN.key _i _j = 27262977 := by simp [Fld.key, Reg.FLK.CTRL.FL1_EN]
@[simp] theorem Reg.FLK.CTRL.FL1_EN_w : Reg.FLK.CTRL.FL1_EN.w = 1 := rfl
@[simp] theorem Reg.FLK.CTRL.FL1_EN_rst : Reg.FLK.CTRL.FL1_EN.rst = 1 := rfl
@[simp] theorem Reg.FLK.CTRL.FL2_REQ_key (_i _j : Nat) : Reg.FLK.CTRL.FL2_REQ.key _i _j = 27262978 := by simp [Fld.key, Reg.FLK.CTRL.FL2_REQ]
@[simp] theorem Reg.FLK.CTRL.FL2_REQ_w : Reg.FLK.CTRL.FL2_REQ.w = 1 := rfl
@[simp] theorem Reg.FLK.CTRL.FL2_REQ_rst : Reg.FLK.CTRL.FL2_REQ.rst = 0 := rfl
@[simp] theorem Reg.FLK.STAT.LINK_STATE_key (_i _j : Nat) : Reg.FLK.STAT.LINK_STATE.key _i _j = 27263008 := by simp [Fld.key, Reg.FLK.STAT.LINK_STATE]
@[simp] theorem Reg.FLK.STAT.LINK_STATE_w : Reg.FLK.STAT.LINK_STATE.w = 3 := rfl
@[simp] theorem Reg.FLK.STAT.LINK_STATE_rst : Reg.FLK.STAT.LINK_STATE.rst = 0 := rfl
@[simp] theorem Reg.FLK.STAT.LP_STATE_key (_i _j : Nat) : Reg.FLK.STAT.LP_STATE.key _i _j = 27263011 := by simp [Fld.key, Reg.FLK.STAT.LP_STATE]
@[simp] theorem Reg.FLK.STAT.LP_STATE_w : Reg.FLK.STAT.LP_STATE.w = 2 := rfl
@[simp] theorem Reg.FLK.STAT.LP_STATE_rst : Reg.FLK.STAT.LP_STATE.rst = 0 := rfl
@[simp] theorem Reg.FLK.STAT.RETRIES_key (_i _j : Nat) : Reg.FLK.STAT.RETRIES.key _i _j = 27263013 := by simp [Fld.key, Reg.FLK.STAT.RETRIES]
@[simp] theorem Reg.FLK.STAT.RETRIES_w : Reg.FLK.STAT.RETRIES.w = 8 := rfl
@[simp] theorem Reg.FLK.STAT.RETRIES_rst : Reg.FLK.STAT.RETRIES.rst = 0 := rfl
@[simp] theorem Reg.FLK.STAT.RTT_key (_i _j : Nat) : Reg.FLK.STAT.RTT.key _i _j = 27263024 := by simp [Fld.key, Reg.FLK.STAT.RTT]
@[simp] theorem Reg.FLK.STAT.RTT_w : Reg.FLK.STAT.RTT.w = 16 := rfl
@[simp] theorem Reg.FLK.STAT.RTT_rst : Reg.FLK.STAT.RTT.rst = 0 := rfl
@[simp] theorem Reg.FLK.TWIN_CFG.EN_key (_i _j : Nat) : Reg.FLK.TWIN_CFG.EN.key _i _j = 27263040 := by simp [Fld.key, Reg.FLK.TWIN_CFG.EN]
@[simp] theorem Reg.FLK.TWIN_CFG.EN_w : Reg.FLK.TWIN_CFG.EN.w = 1 := rfl
@[simp] theorem Reg.FLK.TWIN_CFG.EN_rst : Reg.FLK.TWIN_CFG.EN.rst = 1 := rfl
@[simp] theorem Reg.FLK.TWIN_CFG.AUTO_key (_i _j : Nat) : Reg.FLK.TWIN_CFG.AUTO.key _i _j = 27263041 := by simp [Fld.key, Reg.FLK.TWIN_CFG.AUTO]
@[simp] theorem Reg.FLK.TWIN_CFG.AUTO_w : Reg.FLK.TWIN_CFG.AUTO.w = 1 := rfl
@[simp] theorem Reg.FLK.TWIN_CFG.AUTO_rst : Reg.FLK.TWIN_CFG.AUTO.rst = 1 := rfl
@[simp] theorem Reg.FLK.TWIN_CFG.DEG_POLICY_key (_i _j : Nat) : Reg.FLK.TWIN_CFG.DEG_POLICY.key _i _j = 27263042 := by simp [Fld.key, Reg.FLK.TWIN_CFG.DEG_POLICY]
@[simp] theorem Reg.FLK.TWIN_CFG.DEG_POLICY_w : Reg.FLK.TWIN_CFG.DEG_POLICY.w = 1 := rfl
@[simp] theorem Reg.FLK.TWIN_CFG.DEG_POLICY_rst : Reg.FLK.TWIN_CFG.DEG_POLICY.rst = 0 := rfl
@[simp] theorem Reg.FLK.TWIN_STAT.STATE_key (_i _j : Nat) : Reg.FLK.TWIN_STAT.STATE.key _i _j = 27263072 := by simp [Fld.key, Reg.FLK.TWIN_STAT.STATE]
@[simp] theorem Reg.FLK.TWIN_STAT.STATE_w : Reg.FLK.TWIN_STAT.STATE.w = 3 := rfl
@[simp] theorem Reg.FLK.TWIN_STAT.STATE_rst : Reg.FLK.TWIN_STAT.STATE.rst = 0 := rfl
@[simp] theorem Reg.FLK.TWIN_STAT.ROLE_STRAP_key (_i _j : Nat) : Reg.FLK.TWIN_STAT.ROLE_STRAP.key _i _j = 27263075 := by simp [Fld.key, Reg.FLK.TWIN_STAT.ROLE_STRAP]
@[simp] theorem Reg.FLK.TWIN_STAT.ROLE_STRAP_w : Reg.FLK.TWIN_STAT.ROLE_STRAP.w = 2 := rfl
@[simp] theorem Reg.FLK.TWIN_STAT.ROLE_STRAP_rst : Reg.FLK.TWIN_STAT.ROLE_STRAP.rst = 0 := rfl
@[simp] theorem Reg.FLK.TWIN_STAT.SOLO_CAUSE_key (_i _j : Nat) : Reg.FLK.TWIN_STAT.SOLO_CAUSE.key _i _j = 27263077 := by simp [Fld.key, Reg.FLK.TWIN_STAT.SOLO_CAUSE]
@[simp] theorem Reg.FLK.TWIN_STAT.SOLO_CAUSE_w : Reg.FLK.TWIN_STAT.SOLO_CAUSE.w = 3 := rfl
@[simp] theorem Reg.FLK.TWIN_STAT.SOLO_CAUSE_rst : Reg.FLK.TWIN_STAT.SOLO_CAUSE.rst = 0 := rfl
@[simp] theorem Reg.FLK.TWIN_STAT.DEG_CAUSE_key (_i _j : Nat) : Reg.FLK.TWIN_STAT.DEG_CAUSE.key _i _j = 27263080 := by simp [Fld.key, Reg.FLK.TWIN_STAT.DEG_CAUSE]
@[simp] theorem Reg.FLK.TWIN_STAT.DEG_CAUSE_w : Reg.FLK.TWIN_STAT.DEG_CAUSE.w = 3 := rfl
@[simp] theorem Reg.FLK.TWIN_STAT.DEG_CAUSE_rst : Reg.FLK.TWIN_STAT.DEG_CAUSE.rst = 0 := rfl
@[simp] theorem Reg.FLK.TWIN_STAT.TWIN_SILENT_key (_i _j : Nat) : Reg.FLK.TWIN_STAT.TWIN_SILENT.key _i _j = 27263083 := by simp [Fld.key, Reg.FLK.TWIN_STAT.TWIN_SILENT]
@[simp] theorem Reg.FLK.TWIN_STAT.TWIN_SILENT_w : Reg.FLK.TWIN_STAT.TWIN_SILENT.w = 1 := rfl
@[simp] theorem Reg.FLK.TWIN_STAT.TWIN_SILENT_rst : Reg.FLK.TWIN_STAT.TWIN_SILENT.rst = 0 := rfl
@[simp] theorem Reg.FLK.TWIN_STAT.MIRROR_VER_key (_i _j : Nat) : Reg.FLK.TWIN_STAT.MIRROR_VER.key _i _j = 27263088 := by simp [Fld.key, Reg.FLK.TWIN_STAT.MIRROR_VER]
@[simp] theorem Reg.FLK.TWIN_STAT.MIRROR_VER_w : Reg.FLK.TWIN_STAT.MIRROR_VER.w = 8 := rfl
@[simp] theorem Reg.FLK.TWIN_STAT.MIRROR_VER_rst : Reg.FLK.TWIN_STAT.MIRROR_VER.rst = 0 := rfl
@[simp] theorem Reg.FLK.MIRROR_STAT.LAST_SEQ_key (_i _j : Nat) : Reg.FLK.MIRROR_STAT.LAST_SEQ.key _i _j = 27263136 := by simp [Fld.key, Reg.FLK.MIRROR_STAT.LAST_SEQ]
@[simp] theorem Reg.FLK.MIRROR_STAT.LAST_SEQ_w : Reg.FLK.MIRROR_STAT.LAST_SEQ.w = 24 := rfl
@[simp] theorem Reg.FLK.MIRROR_STAT.LAST_SEQ_rst : Reg.FLK.MIRROR_STAT.LAST_SEQ.rst = 0 := rfl
@[simp] theorem Reg.FLK.MIRROR_STAT.RESENDS_key (_i _j : Nat) : Reg.FLK.MIRROR_STAT.RESENDS.key _i _j = 27263160 := by simp [Fld.key, Reg.FLK.MIRROR_STAT.RESENDS]
@[simp] theorem Reg.FLK.MIRROR_STAT.RESENDS_w : Reg.FLK.MIRROR_STAT.RESENDS.w = 8 := rfl
@[simp] theorem Reg.FLK.MIRROR_STAT.RESENDS_rst : Reg.FLK.MIRROR_STAT.RESENDS.rst = 0 := rfl
@[simp] theorem Reg.FLK.TWIN_COURSE.ACTIVE_key (i _j : Nat) : Reg.FLK.TWIN_COURSE.ACTIVE.key i _j = 27263104 + 4 * i := by simp [Fld.key, Reg.FLK.TWIN_COURSE.ACTIVE]
@[simp] theorem Reg.FLK.TWIN_COURSE.ACTIVE_w : Reg.FLK.TWIN_COURSE.ACTIVE.w = 1 := rfl
@[simp] theorem Reg.FLK.TWIN_COURSE.ACTIVE_rst : Reg.FLK.TWIN_COURSE.ACTIVE.rst = 0 := rfl
@[simp] theorem Reg.FLK.TWIN_COURSE.ARMED_key (i _j : Nat) : Reg.FLK.TWIN_COURSE.ARMED.key i _j = 27263105 + 4 * i := by simp [Fld.key, Reg.FLK.TWIN_COURSE.ARMED]
@[simp] theorem Reg.FLK.TWIN_COURSE.ARMED_w : Reg.FLK.TWIN_COURSE.ARMED.w = 1 := rfl
@[simp] theorem Reg.FLK.TWIN_COURSE.ARMED_rst : Reg.FLK.TWIN_COURSE.ARMED.rst = 0 := rfl
@[simp] theorem Reg.FLK.TWIN_COURSE.WARM_key (i _j : Nat) : Reg.FLK.TWIN_COURSE.WARM.key i _j = 27263106 + 4 * i := by simp [Fld.key, Reg.FLK.TWIN_COURSE.WARM]
@[simp] theorem Reg.FLK.TWIN_COURSE.WARM_w : Reg.FLK.TWIN_COURSE.WARM.w = 1 := rfl
@[simp] theorem Reg.FLK.TWIN_COURSE.WARM_rst : Reg.FLK.TWIN_COURSE.WARM.rst = 0 := rfl
@[simp] theorem Reg.FLK.TWIN_COURSE.TX_ALIGN_key (i _j : Nat) : Reg.FLK.TWIN_COURSE.TX_ALIGN.key i _j = 27263107 + 4 * i := by simp [Fld.key, Reg.FLK.TWIN_COURSE.TX_ALIGN]
@[simp] theorem Reg.FLK.TWIN_COURSE.TX_ALIGN_w : Reg.FLK.TWIN_COURSE.TX_ALIGN.w = 1 := rfl
@[simp] theorem Reg.FLK.TWIN_COURSE.TX_ALIGN_rst : Reg.FLK.TWIN_COURSE.TX_ALIGN.rst = 0 := rfl
@[simp] theorem Reg.FLK.LANE_STAT.STATE_key (i _j : Nat) : Reg.FLK.LANE_STAT.STATE.key i _j = 27265024 + 256 * i := by simp [Fld.key, Reg.FLK.LANE_STAT.STATE]
@[simp] theorem Reg.FLK.LANE_STAT.STATE_w : Reg.FLK.LANE_STAT.STATE.w = 3 := rfl
@[simp] theorem Reg.FLK.LANE_STAT.STATE_rst : Reg.FLK.LANE_STAT.STATE.rst = 0 := rfl
@[simp] theorem Reg.FLK.LANE_STAT.LOS_key (i _j : Nat) : Reg.FLK.LANE_STAT.LOS.key i _j = 27265027 + 256 * i := by simp [Fld.key, Reg.FLK.LANE_STAT.LOS]
@[simp] theorem Reg.FLK.LANE_STAT.LOS_w : Reg.FLK.LANE_STAT.LOS.w = 1 := rfl
@[simp] theorem Reg.FLK.LANE_STAT.LOS_rst : Reg.FLK.LANE_STAT.LOS.rst = 0 := rfl
@[simp] theorem Reg.FLK.LANE_STAT.CDR_LOCK_key (i _j : Nat) : Reg.FLK.LANE_STAT.CDR_LOCK.key i _j = 27265028 + 256 * i := by simp [Fld.key, Reg.FLK.LANE_STAT.CDR_LOCK]
@[simp] theorem Reg.FLK.LANE_STAT.CDR_LOCK_w : Reg.FLK.LANE_STAT.CDR_LOCK.w = 1 := rfl
@[simp] theorem Reg.FLK.LANE_STAT.CDR_LOCK_rst : Reg.FLK.LANE_STAT.CDR_LOCK.rst = 0 := rfl
@[simp] theorem Reg.FLK.LANE_STAT.BLOCK_LOCK_key (i _j : Nat) : Reg.FLK.LANE_STAT.BLOCK_LOCK.key i _j = 27265029 + 256 * i := by simp [Fld.key, Reg.FLK.LANE_STAT.BLOCK_LOCK]
@[simp] theorem Reg.FLK.LANE_STAT.BLOCK_LOCK_w : Reg.FLK.LANE_STAT.BLOCK_LOCK.w = 1 := rfl
@[simp] theorem Reg.FLK.LANE_STAT.BLOCK_LOCK_rst : Reg.FLK.LANE_STAT.BLOCK_LOCK.rst = 0 := rfl
@[simp] theorem Reg.FLK.LANE_STAT.DFE_TAP1_key (i _j : Nat) : Reg.FLK.LANE_STAT.DFE_TAP1.key i _j = 27265032 + 256 * i := by simp [Fld.key, Reg.FLK.LANE_STAT.DFE_TAP1]
@[simp] theorem Reg.FLK.LANE_STAT.DFE_TAP1_w : Reg.FLK.LANE_STAT.DFE_TAP1.w = 8 := rfl
@[simp] theorem Reg.FLK.LANE_STAT.DFE_TAP1_rst : Reg.FLK.LANE_STAT.DFE_TAP1.rst = 0 := rfl
@[simp] theorem Reg.FLK.LANE_STAT.SKEW_key (i _j : Nat) : Reg.FLK.LANE_STAT.SKEW.key i _j = 27265040 + 256 * i := by simp [Fld.key, Reg.FLK.LANE_STAT.SKEW]
@[simp] theorem Reg.FLK.LANE_STAT.SKEW_w : Reg.FLK.LANE_STAT.SKEW.w = 8 := rfl
@[simp] theorem Reg.FLK.LANE_STAT.SKEW_rst : Reg.FLK.LANE_STAT.SKEW.rst = 0 := rfl
@[simp] theorem Reg.FLK.LANE_STAT.HDR_ERR_key (i _j : Nat) : Reg.FLK.LANE_STAT.HDR_ERR.key i _j = 27265048 + 256 * i := by simp [Fld.key, Reg.FLK.LANE_STAT.HDR_ERR]
@[simp] theorem Reg.FLK.LANE_STAT.HDR_ERR_w : Reg.FLK.LANE_STAT.HDR_ERR.w = 8 := rfl
@[simp] theorem Reg.FLK.LANE_STAT.HDR_ERR_rst : Reg.FLK.LANE_STAT.HDR_ERR.rst = 0 := rfl
@[simp] theorem Reg.FLK.PRBS_CTRL.PAT_key (i _j : Nat) : Reg.FLK.PRBS_CTRL.PAT.key i _j = 27265056 + 256 * i := by simp [Fld.key, Reg.FLK.PRBS_CTRL.PAT]
@[simp] theorem Reg.FLK.PRBS_CTRL.PAT_w : Reg.FLK.PRBS_CTRL.PAT.w = 2 := rfl
@[simp] theorem Reg.FLK.PRBS_CTRL.PAT_rst : Reg.FLK.PRBS_CTRL.PAT.rst = 2 := rfl
@[simp] theorem Reg.FLK.PRBS_CTRL.GEN_EN_key (i _j : Nat) : Reg.FLK.PRBS_CTRL.GEN_EN.key i _j = 27265058 + 256 * i := by simp [Fld.key, Reg.FLK.PRBS_CTRL.GEN_EN]
@[simp] theorem Reg.FLK.PRBS_CTRL.GEN_EN_w : Reg.FLK.PRBS_CTRL.GEN_EN.w = 1 := rfl
@[simp] theorem Reg.FLK.PRBS_CTRL.GEN_EN_rst : Reg.FLK.PRBS_CTRL.GEN_EN.rst = 0 := rfl
@[simp] theorem Reg.FLK.PRBS_CTRL.CHK_EN_key (i _j : Nat) : Reg.FLK.PRBS_CTRL.CHK_EN.key i _j = 27265059 + 256 * i := by simp [Fld.key, Reg.FLK.PRBS_CTRL.CHK_EN]
@[simp] theorem Reg.FLK.PRBS_CTRL.CHK_EN_w : Reg.FLK.PRBS_CTRL.CHK_EN.w = 1 := rfl
@[simp] theorem Reg.FLK.PRBS_CTRL.CHK_EN_rst : Reg.FLK.PRBS_CTRL.CHK_EN.rst = 0 := rfl
@[simp] theorem Reg.FLK.PRBS_CTRL.LOOP_key (i _j : Nat) : Reg.FLK.PRBS_CTRL.LOOP.key i _j = 27265060 + 256 * i := by simp [Fld.key, Reg.FLK.PRBS_CTRL.LOOP]
@[simp] theorem Reg.FLK.PRBS_CTRL.LOOP_w : Reg.FLK.PRBS_CTRL.LOOP.w = 2 := rfl
@[simp] theorem Reg.FLK.PRBS_CTRL.LOOP_rst : Reg.FLK.PRBS_CTRL.LOOP.rst = 0 := rfl
@[simp] theorem Reg.FLK.PRBS_CTRL.INJ_K_key (i _j : Nat) : Reg.FLK.PRBS_CTRL.INJ_K.key i _j = 27265062 + 256 * i := by simp [Fld.key, Reg.FLK.PRBS_CTRL.INJ_K]
@[simp] theorem Reg.FLK.PRBS_CTRL.INJ_K_w : Reg.FLK.PRBS_CTRL.INJ_K.w = 6 := rfl
@[simp] theorem Reg.FLK.PRBS_CTRL.INJ_K_rst : Reg.FLK.PRBS_CTRL.INJ_K.rst = 0 := rfl
@[simp] theorem Reg.FLK.PRBS_CTRL.INJ_ONE_key (i _j : Nat) : Reg.FLK.PRBS_CTRL.INJ_ONE.key i _j = 27265068 + 256 * i := by simp [Fld.key, Reg.FLK.PRBS_CTRL.INJ_ONE]
@[simp] theorem Reg.FLK.PRBS_CTRL.INJ_ONE_w : Reg.FLK.PRBS_CTRL.INJ_ONE.w = 1 := rfl
@[simp] theorem Reg.FLK.PRBS_CTRL.INJ_ONE_rst : Reg.FLK.PRBS_CTRL.INJ_ONE.rst = 0 := rfl
@[simp] theorem Reg.FLK.PRBS_CTRL.CHK_LOCK_key (i _j : Nat) : Reg.FLK.PRBS_CTRL.CHK_LOCK.key i _j = 27265069 + 256 * i := by simp [Fld.key, Reg.FLK.PRBS_CTRL.CHK_LOCK]
@[simp] theorem Reg.FLK.PRBS_CTRL.CHK_LOCK_w : Reg.FLK.PRBS_CTRL.CHK_LOCK.w = 1 := rfl
@[simp] theorem Reg.FLK.PRBS_CTRL.CHK_LOCK_rst : Reg.FLK.PRBS_CTRL.CHK_LOCK.rst = 0 := rfl
@[simp] theorem Reg.FLK.PRBS_CTRL.ERR_CLEAR_key (i _j : Nat) : Reg.FLK.PRBS_CTRL.ERR_CLEAR.key i _j = 27265070 + 256 * i := by simp [Fld.key, Reg.FLK.PRBS_CTRL.ERR_CLEAR]
@[simp] theorem Reg.FLK.PRBS_CTRL.ERR_CLEAR_w : Reg.FLK.PRBS_CTRL.ERR_CLEAR.w = 1 := rfl
@[simp] theorem Reg.FLK.PRBS_CTRL.ERR_CLEAR_rst : Reg.FLK.PRBS_CTRL.ERR_CLEAR.rst = 0 := rfl
@[simp] theorem Reg.FLK.PRBS_ERR.COUNT_key (i _j : Nat) : Reg.FLK.PRBS_ERR.COUNT.key i _j = 27265088 + 256 * i := by simp [Fld.key, Reg.FLK.PRBS_ERR.COUNT]
@[simp] theorem Reg.FLK.PRBS_ERR.COUNT_w : Reg.FLK.PRBS_ERR.COUNT.w = 64 := rfl
@[simp] theorem Reg.FLK.PRBS_ERR.COUNT_rst : Reg.FLK.PRBS_ERR.COUNT.rst = 0 := rfl
@[simp] theorem Reg.BIAS.CTRL.LOCK_key (_i _j : Nat) : Reg.BIAS.CTRL.LOCK.key _i _j = 28311552 := by simp [Fld.key, Reg.BIAS.CTRL.LOCK]
@[simp] theorem Reg.BIAS.CTRL.LOCK_w : Reg.BIAS.CTRL.LOCK.w = 1 := rfl
@[simp] theorem Reg.BIAS.CTRL.LOCK_rst : Reg.BIAS.CTRL.LOCK.rst = 0 := rfl
@[simp] theorem Reg.BIAS.STAT.VBIAS_OK_key (_i _j : Nat) : Reg.BIAS.STAT.VBIAS_OK.key _i _j = 28311584 := by simp [Fld.key, Reg.BIAS.STAT.VBIAS_OK]
@[simp] theorem Reg.BIAS.STAT.VBIAS_OK_w : Reg.BIAS.STAT.VBIAS_OK.w = 1 := rfl
@[simp] theorem Reg.BIAS.STAT.VBIAS_OK_rst : Reg.BIAS.STAT.VBIAS_OK.rst = 0 := rfl
@[simp] theorem Reg.BIAS.STAT.VBIAS_LOST_key (_i _j : Nat) : Reg.BIAS.STAT.VBIAS_LOST.key _i _j = 28311585 := by simp [Fld.key, Reg.BIAS.STAT.VBIAS_LOST]
@[simp] theorem Reg.BIAS.STAT.VBIAS_LOST_w : Reg.BIAS.STAT.VBIAS_LOST.w = 1 := rfl
@[simp] theorem Reg.BIAS.STAT.VBIAS_LOST_rst : Reg.BIAS.STAT.VBIAS_LOST.rst = 1 := rfl
@[simp] theorem Reg.BIAS.STAT.THERM_OFF_key (_i _j : Nat) : Reg.BIAS.STAT.THERM_OFF.key _i _j = 28311586 := by simp [Fld.key, Reg.BIAS.STAT.THERM_OFF]
@[simp] theorem Reg.BIAS.STAT.THERM_OFF_w : Reg.BIAS.STAT.THERM_OFF.w = 1 := rfl
@[simp] theorem Reg.BIAS.STAT.THERM_OFF_rst : Reg.BIAS.STAT.THERM_OFF.rst = 0 := rfl
@[simp] theorem Reg.BIAS.QUENCH_STAT.QUENCHED_key (_i _j : Nat) : Reg.BIAS.QUENCH_STAT.QUENCHED.key _i _j = 28311616 := by simp [Fld.key, Reg.BIAS.QUENCH_STAT.QUENCHED]
@[simp] theorem Reg.BIAS.QUENCH_STAT.QUENCHED_w : Reg.BIAS.QUENCH_STAT.QUENCHED.w = 8 := rfl
@[simp] theorem Reg.BIAS.QUENCH_STAT.QUENCHED_rst : Reg.BIAS.QUENCH_STAT.QUENCHED.rst = 0 := rfl
@[simp] theorem Reg.BIAS.QUENCH_STAT.CAUSE_key (_i _j : Nat) : Reg.BIAS.QUENCH_STAT.CAUSE.key _i _j = 28311624 := by simp [Fld.key, Reg.BIAS.QUENCH_STAT.CAUSE]
@[simp] theorem Reg.BIAS.QUENCH_STAT.CAUSE_w : Reg.BIAS.QUENCH_STAT.CAUSE.w = 24 := rfl
@[simp] theorem Reg.BIAS.QUENCH_STAT.CAUSE_rst : Reg.BIAS.QUENCH_STAT.CAUSE.rst = 0 := rfl
@[simp] theorem Reg.BIAS.CFG.RANGE_MASK_key (i _j : Nat) : Reg.BIAS.CFG.RANGE_MASK.key i _j = 28313600 + 128 * i := by simp [Fld.key, Reg.BIAS.CFG.RANGE_MASK]
@[simp] theorem Reg.BIAS.CFG.RANGE_MASK_w : Reg.BIAS.CFG.RANGE_MASK.w = 5 := rfl
@[simp] theorem Reg.BIAS.CFG.RANGE_MASK_rst : Reg.BIAS.CFG.RANGE_MASK.rst = 30 := rfl
@[simp] theorem Reg.BIAS.CFG.RAMP_key (i _j : Nat) : Reg.BIAS.CFG.RAMP.key i _j = 28313605 + 128 * i := by simp [Fld.key, Reg.BIAS.CFG.RAMP]
@[simp] theorem Reg.BIAS.CFG.RAMP_w : Reg.BIAS.CFG.RAMP.w = 3 := rfl
@[simp] theorem Reg.BIAS.CFG.RAMP_rst : Reg.BIAS.CFG.RAMP.rst = 2 := rfl
@[simp] theorem Reg.BIAS.CFG.CODE_MAX_key (i _j : Nat) : Reg.BIAS.CFG.CODE_MAX.key i _j = 28313608 + 128 * i := by simp [Fld.key, Reg.BIAS.CFG.CODE_MAX]
@[simp] theorem Reg.BIAS.CFG.CODE_MAX_w : Reg.BIAS.CFG.CODE_MAX.w = 12 := rfl
@[simp] theorem Reg.BIAS.CFG.CODE_MAX_rst : Reg.BIAS.CFG.CODE_MAX.rst = 4095 := rfl
@[simp] theorem Reg.BIAS.CFG.QGRP_key (i _j : Nat) : Reg.BIAS.CFG.QGRP.key i _j = 28313620 + 128 * i := by simp [Fld.key, Reg.BIAS.CFG.QGRP]
@[simp] theorem Reg.BIAS.CFG.QGRP_w : Reg.BIAS.CFG.QGRP.w = 3 := rfl
@[simp] theorem Reg.BIAS.CFG.QGRP_rst : Reg.BIAS.CFG.QGRP.rst = 0 := rfl
@[simp] theorem Reg.BIAS.CFG.QG_EN_key (i _j : Nat) : Reg.BIAS.CFG.QG_EN.key i _j = 28313623 + 128 * i := by simp [Fld.key, Reg.BIAS.CFG.QG_EN]
@[simp] theorem Reg.BIAS.CFG.QG_EN_w : Reg.BIAS.CFG.QG_EN.w = 1 := rfl
@[simp] theorem Reg.BIAS.CFG.QG_EN_rst : Reg.BIAS.CFG.QG_EN.rst = 0 := rfl
@[simp] theorem Reg.BIAS.CFG.COMP_ACT_key (i _j : Nat) : Reg.BIAS.CFG.COMP_ACT.key i _j = 28313624 + 128 * i := by simp [Fld.key, Reg.BIAS.CFG.COMP_ACT]
@[simp] theorem Reg.BIAS.CFG.COMP_ACT_w : Reg.BIAS.CFG.COMP_ACT.w = 2 := rfl
@[simp] theorem Reg.BIAS.CFG.COMP_ACT_rst : Reg.BIAS.CFG.COMP_ACT.rst = 0 := rfl
@[simp] theorem Reg.BIAS.CFG.OPEN_ACT_key (i _j : Nat) : Reg.BIAS.CFG.OPEN_ACT.key i _j = 28313626 + 128 * i := by simp [Fld.key, Reg.BIAS.CFG.OPEN_ACT]
@[simp] theorem Reg.BIAS.CFG.OPEN_ACT_w : Reg.BIAS.CFG.OPEN_ACT.w = 2 := rfl
@[simp] theorem Reg.BIAS.CFG.OPEN_ACT_rst : Reg.BIAS.CFG.OPEN_ACT.rst = 1 := rfl
@[simp] theorem Reg.BIAS.STAT.RANGE_key (i _j : Nat) : Reg.BIAS.STAT.RANGE.key i _j = 28313632 + 128 * i := by simp [Fld.key, Reg.BIAS.STAT.RANGE]
@[simp] theorem Reg.BIAS.STAT.RANGE_w : Reg.BIAS.STAT.RANGE.w = 3 := rfl
@[simp] theorem Reg.BIAS.STAT.RANGE_rst : Reg.BIAS.STAT.RANGE.rst = 0 := rfl
@[simp] theorem Reg.BIAS.STAT.CODE_key (i _j : Nat) : Reg.BIAS.STAT.CODE.key i _j = 28313635 + 128 * i := by simp [Fld.key, Reg.BIAS.STAT.CODE]
@[simp] theorem Reg.BIAS.STAT.CODE_w : Reg.BIAS.STAT.CODE.w = 12 := rfl
@[simp] theorem Reg.BIAS.STAT.CODE_rst : Reg.BIAS.STAT.CODE.rst = 0 := rfl
@[simp] theorem Reg.BIAS.STAT.WRITTEN_key (i _j : Nat) : Reg.BIAS.STAT.WRITTEN.key i _j = 28313647 + 128 * i := by simp [Fld.key, Reg.BIAS.STAT.WRITTEN]
@[simp] theorem Reg.BIAS.STAT.WRITTEN_w : Reg.BIAS.STAT.WRITTEN.w = 1 := rfl
@[simp] theorem Reg.BIAS.STAT.WRITTEN_rst : Reg.BIAS.STAT.WRITTEN.rst = 0 := rfl
@[simp] theorem Reg.BIAS.STAT.ENABLED_key (i _j : Nat) : Reg.BIAS.STAT.ENABLED.key i _j = 28313648 + 128 * i := by simp [Fld.key, Reg.BIAS.STAT.ENABLED]
@[simp] theorem Reg.BIAS.STAT.ENABLED_w : Reg.BIAS.STAT.ENABLED.w = 1 := rfl
@[simp] theorem Reg.BIAS.STAT.ENABLED_rst : Reg.BIAS.STAT.ENABLED.rst = 0 := rfl
@[simp] theorem Reg.BIAS.STAT.RAMPING_key (i _j : Nat) : Reg.BIAS.STAT.RAMPING.key i _j = 28313649 + 128 * i := by simp [Fld.key, Reg.BIAS.STAT.RAMPING]
@[simp] theorem Reg.BIAS.STAT.RAMPING_w : Reg.BIAS.STAT.RAMPING.w = 1 := rfl
@[simp] theorem Reg.BIAS.STAT.RAMPING_rst : Reg.BIAS.STAT.RAMPING.rst = 0 := rfl
@[simp] theorem Reg.BIAS.STAT.PARKING_key (i _j : Nat) : Reg.BIAS.STAT.PARKING.key i _j = 28313650 + 128 * i := by simp [Fld.key, Reg.BIAS.STAT.PARKING]
@[simp] theorem Reg.BIAS.STAT.PARKING_w : Reg.BIAS.STAT.PARKING.w = 1 := rfl
@[simp] theorem Reg.BIAS.STAT.PARKING_rst : Reg.BIAS.STAT.PARKING.rst = 0 := rfl
@[simp] theorem Reg.BIAS.STAT.HOLD_key (i _j : Nat) : Reg.BIAS.STAT.HOLD.key i _j = 28313651 + 128 * i := by simp [Fld.key, Reg.BIAS.STAT.HOLD]
@[simp] theorem Reg.BIAS.STAT.HOLD_w : Reg.BIAS.STAT.HOLD.w = 1 := rfl
@[simp] theorem Reg.BIAS.STAT.HOLD_rst : Reg.BIAS.STAT.HOLD.rst = 0 := rfl
@[simp] theorem Reg.BIAS.STAT.QUENCHED_key (i _j : Nat) : Reg.BIAS.STAT.QUENCHED.key i _j = 28313652 + 128 * i := by simp [Fld.key, Reg.BIAS.STAT.QUENCHED]
@[simp] theorem Reg.BIAS.STAT.QUENCHED_w : Reg.BIAS.STAT.QUENCHED.w = 1 := rfl
@[simp] theorem Reg.BIAS.STAT.QUENCHED_rst : Reg.BIAS.STAT.QUENCHED.rst = 0 := rfl
@[simp] theorem Reg.BIAS.TARGET.CODE_key (i _j : Nat) : Reg.BIAS.TARGET.CODE.key i _j = 28313664 + 128 * i := by simp [Fld.key, Reg.BIAS.TARGET.CODE]
@[simp] theorem Reg.BIAS.TARGET.CODE_w : Reg.BIAS.TARGET.CODE.w = 12 := rfl
@[simp] theorem Reg.BIAS.TARGET.CODE_rst : Reg.BIAS.TARGET.CODE.rst = 0 := rfl
@[simp] theorem Reg.BIAS.TARGET.RANGE_key (i _j : Nat) : Reg.BIAS.TARGET.RANGE.key i _j = 28313676 + 128 * i := by simp [Fld.key, Reg.BIAS.TARGET.RANGE]
@[simp] theorem Reg.BIAS.TARGET.RANGE_w : Reg.BIAS.TARGET.RANGE.w = 3 := rfl
@[simp] theorem Reg.BIAS.TARGET.RANGE_rst : Reg.BIAS.TARGET.RANGE.rst = 0 := rfl
@[simp] theorem Reg.BIAS.FLAG.COMP_key (i _j : Nat) : Reg.BIAS.FLAG.COMP.key i _j = 28313696 + 128 * i := by simp [Fld.key, Reg.BIAS.FLAG.COMP]
@[simp] theorem Reg.BIAS.FLAG.COMP_w : Reg.BIAS.FLAG.COMP.w = 1 := rfl
@[simp] theorem Reg.BIAS.FLAG.COMP_rst : Reg.BIAS.FLAG.COMP.rst = 0 := rfl
@[simp] theorem Reg.BIAS.FLAG.OPEN_key (i _j : Nat) : Reg.BIAS.FLAG.OPEN.key i _j = 28313697 + 128 * i := by simp [Fld.key, Reg.BIAS.FLAG.OPEN]
@[simp] theorem Reg.BIAS.FLAG.OPEN_w : Reg.BIAS.FLAG.OPEN.w = 1 := rfl
@[simp] theorem Reg.BIAS.FLAG.OPEN_rst : Reg.BIAS.FLAG.OPEN.rst = 0 := rfl
@[simp] theorem Reg.BIAS.FLAG.COMP_NOW_key (i _j : Nat) : Reg.BIAS.FLAG.COMP_NOW.key i _j = 28313698 + 128 * i := by simp [Fld.key, Reg.BIAS.FLAG.COMP_NOW]
@[simp] theorem Reg.BIAS.FLAG.COMP_NOW_w : Reg.BIAS.FLAG.COMP_NOW.w = 1 := rfl
@[simp] theorem Reg.BIAS.FLAG.COMP_NOW_rst : Reg.BIAS.FLAG.COMP_NOW.rst = 0 := rfl
@[simp] theorem Reg.BIAS.FLAG.OPEN_NOW_key (i _j : Nat) : Reg.BIAS.FLAG.OPEN_NOW.key i _j = 28313699 + 128 * i := by simp [Fld.key, Reg.BIAS.FLAG.OPEN_NOW]
@[simp] theorem Reg.BIAS.FLAG.OPEN_NOW_w : Reg.BIAS.FLAG.OPEN_NOW.w = 1 := rfl
@[simp] theorem Reg.BIAS.FLAG.OPEN_NOW_rst : Reg.BIAS.FLAG.OPEN_NOW.rst = 0 := rfl
@[simp] theorem Reg.SCV.CTRL.EN_key (i _j : Nat) : Reg.SCV.CTRL.EN.key i _j = 28835840 + 65536 * i := by simp [Fld.key, Reg.SCV.CTRL.EN]
@[simp] theorem Reg.SCV.CTRL.EN_w : Reg.SCV.CTRL.EN.w = 1 := rfl
@[simp] theorem Reg.SCV.CTRL.EN_rst : Reg.SCV.CTRL.EN.rst = 0 := rfl
@[simp] theorem Reg.SCV.CTRL.SEQ_LEN_key (i _j : Nat) : Reg.SCV.CTRL.SEQ_LEN.key i _j = 28835841 + 65536 * i := by simp [Fld.key, Reg.SCV.CTRL.SEQ_LEN]
@[simp] theorem Reg.SCV.CTRL.SEQ_LEN_w : Reg.SCV.CTRL.SEQ_LEN.w = 7 := rfl
@[simp] theorem Reg.SCV.CTRL.SEQ_LEN_rst : Reg.SCV.CTRL.SEQ_LEN.rst = 0 := rfl
@[simp] theorem Reg.SCV.CTRL.REF_KEEP_key (i _j : Nat) : Reg.SCV.CTRL.REF_KEEP.key i _j = 28835848 + 65536 * i := by simp [Fld.key, Reg.SCV.CTRL.REF_KEEP]
@[simp] theorem Reg.SCV.CTRL.REF_KEEP_w : Reg.SCV.CTRL.REF_KEEP.w = 1 := rfl
@[simp] theorem Reg.SCV.CTRL.REF_KEEP_rst : Reg.SCV.CTRL.REF_KEEP.rst = 1 := rfl
@[simp] theorem Reg.SCV.STAT.RUNNING_key (i _j : Nat) : Reg.SCV.STAT.RUNNING.key i _j = 28835872 + 65536 * i := by simp [Fld.key, Reg.SCV.STAT.RUNNING]
@[simp] theorem Reg.SCV.STAT.RUNNING_w : Reg.SCV.STAT.RUNNING.w = 1 := rfl
@[simp] theorem Reg.SCV.STAT.RUNNING_rst : Reg.SCV.STAT.RUNNING.rst = 0 := rfl
@[simp] theorem Reg.SCV.STAT.REF_READY_key (i _j : Nat) : Reg.SCV.STAT.REF_READY.key i _j = 28835873 + 65536 * i := by simp [Fld.key, Reg.SCV.STAT.REF_READY]
@[simp] theorem Reg.SCV.STAT.REF_READY_w : Reg.SCV.STAT.REF_READY.w = 1 := rfl
@[simp] theorem Reg.SCV.STAT.REF_READY_rst : Reg.SCV.STAT.REF_READY.rst = 0 := rfl
@[simp] theorem Reg.SCV.STAT.REF_WAIT_key (i _j : Nat) : Reg.SCV.STAT.REF_WAIT.key i _j = 28835874 + 65536 * i := by simp [Fld.key, Reg.SCV.STAT.REF_WAIT]
@[simp] theorem Reg.SCV.STAT.REF_WAIT_w : Reg.SCV.STAT.REF_WAIT.w = 1 := rfl
@[simp] theorem Reg.SCV.STAT.REF_WAIT_rst : Reg.SCV.STAT.REF_WAIT.rst = 0 := rfl
@[simp] theorem Reg.SCV.STAT.INJ_H_BUSY_key (i _j : Nat) : Reg.SCV.STAT.INJ_H_BUSY.key i _j = 28835875 + 65536 * i := by simp [Fld.key, Reg.SCV.STAT.INJ_H_BUSY]
@[simp] theorem Reg.SCV.STAT.INJ_H_BUSY_w : Reg.SCV.STAT.INJ_H_BUSY.w = 1 := rfl
@[simp] theorem Reg.SCV.STAT.INJ_H_BUSY_rst : Reg.SCV.STAT.INJ_H_BUSY.rst = 0 := rfl
@[simp] theorem Reg.SCV.STAT.INJ_S_BUSY_key (i _j : Nat) : Reg.SCV.STAT.INJ_S_BUSY.key i _j = 28835876 + 65536 * i := by simp [Fld.key, Reg.SCV.STAT.INJ_S_BUSY]
@[simp] theorem Reg.SCV.STAT.INJ_S_BUSY_w : Reg.SCV.STAT.INJ_S_BUSY.w = 1 := rfl
@[simp] theorem Reg.SCV.STAT.INJ_S_BUSY_rst : Reg.SCV.STAT.INJ_S_BUSY.rst = 0 := rfl
@[simp] theorem Reg.SCV.STAT.INJ_OVR_key (i _j : Nat) : Reg.SCV.STAT.INJ_OVR.key i _j = 28835877 + 65536 * i := by simp [Fld.key, Reg.SCV.STAT.INJ_OVR]
@[simp] theorem Reg.SCV.STAT.INJ_OVR_w : Reg.SCV.STAT.INJ_OVR.w = 1 := rfl
@[simp] theorem Reg.SCV.STAT.INJ_OVR_rst : Reg.SCV.STAT.INJ_OVR.rst = 0 := rfl
@[simp] theorem Reg.SCV.STAT.ROUND_CNT_key (i _j : Nat) : Reg.SCV.STAT.ROUND_CNT.key i _j = 28835888 + 65536 * i := by simp [Fld.key, Reg.SCV.STAT.ROUND_CNT]
@[simp] theorem Reg.SCV.STAT.ROUND_CNT_w : Reg.SCV.STAT.ROUND_CNT.w = 16 := rfl
@[simp] theorem Reg.SCV.STAT.ROUND_CNT_rst : Reg.SCV.STAT.ROUND_CNT.rst = 0 := rfl
@[simp] theorem Reg.SCV.INJ_CTRL.TRIG_key (i _j : Nat) : Reg.SCV.INJ_CTRL.TRIG.key i _j = 28835904 + 65536 * i := by simp [Fld.key, Reg.SCV.INJ_CTRL.TRIG]
@[simp] theorem Reg.SCV.INJ_CTRL.TRIG_w : Reg.SCV.INJ_CTRL.TRIG.w = 2 := rfl
@[simp] theorem Reg.SCV.INJ_CTRL.TRIG_rst : Reg.SCV.INJ_CTRL.TRIG.rst = 0 := rfl
@[simp] theorem Reg.SCV.INJ_CTRL.INJ_LEN_key (i _j : Nat) : Reg.SCV.INJ_CTRL.INJ_LEN.key i _j = 28835906 + 65536 * i := by simp [Fld.key, Reg.SCV.INJ_CTRL.INJ_LEN]
@[simp] theorem Reg.SCV.INJ_CTRL.INJ_LEN_w : Reg.SCV.INJ_CTRL.INJ_LEN.w = 2 := rfl
@[simp] theorem Reg.SCV.INJ_CTRL.INJ_LEN_rst : Reg.SCV.INJ_CTRL.INJ_LEN.rst = 0 := rfl
@[simp] theorem Reg.SCV.INJ_CTRL.INJ_PER_key (i _j : Nat) : Reg.SCV.INJ_CTRL.INJ_PER.key i _j = 28835908 + 65536 * i := by simp [Fld.key, Reg.SCV.INJ_CTRL.INJ_PER]
@[simp] theorem Reg.SCV.INJ_CTRL.INJ_PER_w : Reg.SCV.INJ_CTRL.INJ_PER.w = 16 := rfl
@[simp] theorem Reg.SCV.INJ_CTRL.INJ_PER_rst : Reg.SCV.INJ_CTRL.INJ_PER.rst = 1000 := rfl
@[simp] theorem Reg.SCV.ROUND.T_ROUND_key (i _j : Nat) : Reg.SCV.ROUND.T_ROUND.key i _j = 28835968 + 65536 * i := by simp [Fld.key, Reg.SCV.ROUND.T_ROUND]
@[simp] theorem Reg.SCV.ROUND.T_ROUND_w : Reg.SCV.ROUND.T_ROUND.w = 24 := rfl
@[simp] theorem Reg.SCV.ROUND.T_ROUND_rst : Reg.SCV.ROUND.T_ROUND.rst = 0 := rfl
@[simp] theorem Reg.SCV.IN.ACQ_key (i j : Nat) : Reg.SCV.IN.ACQ.key i j = 28844032 + 32 * j + 65536 * i := by simp [Fld.key, Reg.SCV.IN.ACQ]
@[simp] theorem Reg.SCV.IN.ACQ_w : Reg.SCV.IN.ACQ.w = 8 := rfl
@[simp] theorem Reg.SCV.IN.ACQ_rst : Reg.SCV.IN.ACQ.rst = 4 := rfl
@[simp] theorem Reg.SCV.IN.GAIN_key (i j : Nat) : Reg.SCV.IN.GAIN.key i j = 28844040 + 32 * j + 65536 * i := by simp [Fld.key, Reg.SCV.IN.GAIN]
@[simp] theorem Reg.SCV.IN.GAIN_w : Reg.SCV.IN.GAIN.w = 2 := rfl
@[simp] theorem Reg.SCV.IN.GAIN_rst : Reg.SCV.IN.GAIN.rst = 0 := rfl
@[simp] theorem Reg.SCV.SEQ.INPUT_key (i j : Nat) : Reg.SCV.SEQ.INPUT.key i j = 28848128 + 32 * j + 65536 * i := by simp [Fld.key, Reg.SCV.SEQ.INPUT]
@[simp] theorem Reg.SCV.SEQ.INPUT_w : Reg.SCV.SEQ.INPUT.w = 7 := rfl
@[simp] theorem Reg.SCV.SEQ.INPUT_rst : Reg.SCV.SEQ.INPUT.rst = 0 := rfl
@[simp] theorem Reg.SCV.SEQ.OFFSET_key (i j : Nat) : Reg.SCV.SEQ.OFFSET.key i j = 28848140 + 32 * j + 65536 * i := by simp [Fld.key, Reg.SCV.SEQ.OFFSET]
@[simp] theorem Reg.SCV.SEQ.OFFSET_w : Reg.SCV.SEQ.OFFSET.w = 20 := rfl
@[simp] theorem Reg.SCV.SEQ.OFFSET_rst : Reg.SCV.SEQ.OFFSET.rst = 0 := rfl
@[simp] theorem Reg.SCV.RES.CODE_key (i j : Nat) : Reg.SCV.RES.CODE.key i j = 28852224 + 32 * j + 65536 * i := by simp [Fld.key, Reg.SCV.RES.CODE]
@[simp] theorem Reg.SCV.RES.CODE_w : Reg.SCV.RES.CODE.w = 16 := rfl
@[simp] theorem Reg.SCV.RES.CODE_rst : Reg.SCV.RES.CODE.rst = 0 := rfl
@[simp] theorem Reg.SCV.RES.CLIP_key (i j : Nat) : Reg.SCV.RES.CLIP.key i j = 28852240 + 32 * j + 65536 * i := by simp [Fld.key, Reg.SCV.RES.CLIP]
@[simp] theorem Reg.SCV.RES.CLIP_w : Reg.SCV.RES.CLIP.w = 1 := rfl
@[simp] theorem Reg.SCV.RES.CLIP_rst : Reg.SCV.RES.CLIP.rst = 0 := rfl
@[simp] theorem Reg.SCV.RES.SHIFTED_key (i j : Nat) : Reg.SCV.RES.SHIFTED.key i j = 28852241 + 32 * j + 65536 * i := by simp [Fld.key, Reg.SCV.RES.SHIFTED]
@[simp] theorem Reg.SCV.RES.SHIFTED_w : Reg.SCV.RES.SHIFTED.w = 1 := rfl
@[simp] theorem Reg.SCV.RES.SHIFTED_rst : Reg.SCV.RES.SHIFTED.rst = 0 := rfl
@[simp] theorem Reg.SCV.RES.EARLY_key (i j : Nat) : Reg.SCV.RES.EARLY.key i j = 28852242 + 32 * j + 65536 * i := by simp [Fld.key, Reg.SCV.RES.EARLY]
@[simp] theorem Reg.SCV.RES.EARLY_w : Reg.SCV.RES.EARLY.w = 1 := rfl
@[simp] theorem Reg.SCV.RES.EARLY_rst : Reg.SCV.RES.EARLY.rst = 0 := rfl
@[simp] theorem Reg.SCV.RES.COUNT_key (i j : Nat) : Reg.SCV.RES.COUNT.key i j = 28852248 + 32 * j + 65536 * i := by simp [Fld.key, Reg.SCV.RES.COUNT]
@[simp] theorem Reg.SCV.RES.COUNT_w : Reg.SCV.RES.COUNT.w = 8 := rfl
@[simp] theorem Reg.SCV.RES.COUNT_rst : Reg.SCV.RES.COUNT.rst = 0 := rfl
@[simp] theorem Reg.SCV.INJ_RES.CODE_key (i j : Nat) : Reg.SCV.INJ_RES.CODE.key i j = 28856448 + 32 * j + 65536 * i := by simp [Fld.key, Reg.SCV.INJ_RES.CODE]
@[simp] theorem Reg.SCV.INJ_RES.CODE_w : Reg.SCV.INJ_RES.CODE.w = 16 := rfl
@[simp] theorem Reg.SCV.INJ_RES.CODE_rst : Reg.SCV.INJ_RES.CODE.rst = 0 := rfl
@[simp] theorem Reg.SCV.INJ_RES.CLIP_key (i j : Nat) : Reg.SCV.INJ_RES.CLIP.key i j = 28856464 + 32 * j + 65536 * i := by simp [Fld.key, Reg.SCV.INJ_RES.CLIP]
@[simp] theorem Reg.SCV.INJ_RES.CLIP_w : Reg.SCV.INJ_RES.CLIP.w = 1 := rfl
@[simp] theorem Reg.SCV.INJ_RES.CLIP_rst : Reg.SCV.INJ_RES.CLIP.rst = 0 := rfl
@[simp] theorem Reg.SCV.INJ_RES.SHIFTED_key (i j : Nat) : Reg.SCV.INJ_RES.SHIFTED.key i j = 28856465 + 32 * j + 65536 * i := by simp [Fld.key, Reg.SCV.INJ_RES.SHIFTED]
@[simp] theorem Reg.SCV.INJ_RES.SHIFTED_w : Reg.SCV.INJ_RES.SHIFTED.w = 1 := rfl
@[simp] theorem Reg.SCV.INJ_RES.SHIFTED_rst : Reg.SCV.INJ_RES.SHIFTED.rst = 0 := rfl
@[simp] theorem Reg.SCV.INJ_RES.EARLY_key (i j : Nat) : Reg.SCV.INJ_RES.EARLY.key i j = 28856466 + 32 * j + 65536 * i := by simp [Fld.key, Reg.SCV.INJ_RES.EARLY]
@[simp] theorem Reg.SCV.INJ_RES.EARLY_w : Reg.SCV.INJ_RES.EARLY.w = 1 := rfl
@[simp] theorem Reg.SCV.INJ_RES.EARLY_rst : Reg.SCV.INJ_RES.EARLY.rst = 0 := rfl
@[simp] theorem Reg.SCV.INJ_RES.COUNT_key (i j : Nat) : Reg.SCV.INJ_RES.COUNT.key i j = 28856472 + 32 * j + 65536 * i := by simp [Fld.key, Reg.SCV.INJ_RES.COUNT]
@[simp] theorem Reg.SCV.INJ_RES.COUNT_w : Reg.SCV.INJ_RES.COUNT.w = 8 := rfl
@[simp] theorem Reg.SCV.INJ_RES.COUNT_rst : Reg.SCV.INJ_RES.COUNT.rst = 0 := rfl
@[simp] theorem Reg.SCV.INJ.INPUT_key (i j : Nat) : Reg.SCV.INJ.INPUT.key i j = 28856320 + 32 * j + 65536 * i := by simp [Fld.key, Reg.SCV.INJ.INPUT]
@[simp] theorem Reg.SCV.INJ.INPUT_w : Reg.SCV.INJ.INPUT.w = 7 := rfl
@[simp] theorem Reg.SCV.INJ.INPUT_rst : Reg.SCV.INJ.INPUT.rst = 0 := rfl
@[simp] theorem Reg.SCV.INJ.FAST_key (i j : Nat) : Reg.SCV.INJ.FAST.key i j = 28856327 + 32 * j + 65536 * i := by simp [Fld.key, Reg.SCV.INJ.FAST]
@[simp] theorem Reg.SCV.INJ.FAST_w : Reg.SCV.INJ.FAST.w = 1 := rfl
@[simp] theorem Reg.SCV.INJ.FAST_rst : Reg.SCV.INJ.FAST.rst = 0 := rfl
@[simp] theorem Reg.DEC.THR_FLAG.FLAG_key (i _j : Nat) : Reg.DEC.THR_FLAG.FLAG.key i _j = 29097984 + 1 * i := by simp [Fld.key, Reg.DEC.THR_FLAG.FLAG]
@[simp] theorem Reg.DEC.THR_FLAG.FLAG_w : Reg.DEC.THR_FLAG.FLAG.w = 1 := rfl
@[simp] theorem Reg.DEC.THR_FLAG.FLAG_rst : Reg.DEC.THR_FLAG.FLAG.rst = 0 := rfl
@[simp] theorem Reg.DEC.CFG.SRC_ENTRY_key (i _j : Nat) : Reg.DEC.CFG.SRC_ENTRY.key i _j = 29100032 + 128 * i := by simp [Fld.key, Reg.DEC.CFG.SRC_ENTRY]
@[simp] theorem Reg.DEC.CFG.SRC_ENTRY_w : Reg.DEC.CFG.SRC_ENTRY.w = 7 := rfl
@[simp] theorem Reg.DEC.CFG.SRC_ENTRY_rst : Reg.DEC.CFG.SRC_ENTRY.rst = 0 := rfl
@[simp] theorem Reg.DEC.CFG.FILT_key (i _j : Nat) : Reg.DEC.CFG.FILT.key i _j = 29100039 + 128 * i := by simp [Fld.key, Reg.DEC.CFG.FILT]
@[simp] theorem Reg.DEC.CFG.FILT_w : Reg.DEC.CFG.FILT.w = 2 := rfl
@[simp] theorem Reg.DEC.CFG.FILT_rst : Reg.DEC.CFG.FILT.rst = 1 := rfl
@[simp] theorem Reg.DEC.CFG.M_LOG2_key (i _j : Nat) : Reg.DEC.CFG.M_LOG2.key i _j = 29100041 + 128 * i := by simp [Fld.key, Reg.DEC.CFG.M_LOG2]
@[simp] theorem Reg.DEC.CFG.M_LOG2_w : Reg.DEC.CFG.M_LOG2.w = 4 := rfl
@[simp] theorem Reg.DEC.CFG.M_LOG2_rst : Reg.DEC.CFG.M_LOG2.rst = 0 := rfl
@[simp] theorem Reg.DEC.CFG.COURSE_key (i _j : Nat) : Reg.DEC.CFG.COURSE.key i _j = 29100045 + 128 * i := by simp [Fld.key, Reg.DEC.CFG.COURSE]
@[simp] theorem Reg.DEC.CFG.COURSE_w : Reg.DEC.CFG.COURSE.w = 3 := rfl
@[simp] theorem Reg.DEC.CFG.COURSE_rst : Reg.DEC.CFG.COURSE.rst = 0 := rfl
@[simp] theorem Reg.DEC.CFG.EVT_EN_key (i _j : Nat) : Reg.DEC.CFG.EVT_EN.key i _j = 29100048 + 128 * i := by simp [Fld.key, Reg.DEC.CFG.EVT_EN]
@[simp] theorem Reg.DEC.CFG.EVT_EN_w : Reg.DEC.CFG.EVT_EN.w = 1 := rfl
@[simp] theorem Reg.DEC.CFG.EVT_EN_rst : Reg.DEC.CFG.EVT_EN.rst = 0 := rfl
@[simp] theorem Reg.DEC.CFG.QTRIG_key (i _j : Nat) : Reg.DEC.CFG.QTRIG.key i _j = 29100049 + 128 * i := by simp [Fld.key, Reg.DEC.CFG.QTRIG]
@[simp] theorem Reg.DEC.CFG.QTRIG_w : Reg.DEC.CFG.QTRIG.w = 1 := rfl
@[simp] theorem Reg.DEC.CFG.QTRIG_rst : Reg.DEC.CFG.QTRIG.rst = 0 := rfl
@[simp] theorem Reg.DEC.CFG.QGRP_key (i _j : Nat) : Reg.DEC.CFG.QGRP.key i _j = 29100050 + 128 * i := by simp [Fld.key, Reg.DEC.CFG.QGRP]
@[simp] theorem Reg.DEC.CFG.QGRP_w : Reg.DEC.CFG.QGRP.w = 3 := rfl
@[simp] theorem Reg.DEC.CFG.QGRP_rst : Reg.DEC.CFG.QGRP.rst = 0 := rfl
@[simp] theorem Reg.DEC.CFG.DWELL_key (i _j : Nat) : Reg.DEC.CFG.DWELL.key i _j = 29100053 + 128 * i := by simp [Fld.key, Reg.DEC.CFG.DWELL]
@[simp] theorem Reg.DEC.CFG.DWELL_w : Reg.DEC.CFG.DWELL.w = 4 := rfl
@[simp] theorem Reg.DEC.CFG.DWELL_rst : Reg.DEC.CFG.DWELL.rst = 3 := rfl
@[simp] theorem Reg.DEC.CFG.EN_key (i _j : Nat) : Reg.DEC.CFG.EN.key i _j = 29100057 + 128 * i := by simp [Fld.key, Reg.DEC.CFG.EN]
@[simp] theorem Reg.DEC.CFG.EN_w : Reg.DEC.CFG.EN.w = 1 := rfl
@[simp] theorem Reg.DEC.CFG.EN_rst : Reg.DEC.CFG.EN.rst = 0 := rfl
@[simp] theorem Reg.DEC.THR.HI_key (i _j : Nat) : Reg.DEC.THR.HI.key i _j = 29100064 + 128 * i := by simp [Fld.key, Reg.DEC.THR.HI]
@[simp] theorem Reg.DEC.THR.HI_w : Reg.DEC.THR.HI.w = 16 := rfl
@[simp] theorem Reg.DEC.THR.HI_rst : Reg.DEC.THR.HI.rst = 65535 := rfl
@[simp] theorem Reg.DEC.THR.LO_key (i _j : Nat) : Reg.DEC.THR.LO.key i _j = 29100080 + 128 * i := by simp [Fld.key, Reg.DEC.THR.LO]
@[simp] theorem Reg.DEC.THR.LO_w : Reg.DEC.THR.LO.w = 16 := rfl
@[simp] theorem Reg.DEC.THR.LO_rst : Reg.DEC.THR.LO.rst = 0 := rfl
@[simp] theorem Reg.DEC.HYS.HYS_key (i _j : Nat) : Reg.DEC.HYS.HYS.key i _j = 29100096 + 128 * i := by simp [Fld.key, Reg.DEC.HYS.HYS]
@[simp] theorem Reg.DEC.HYS.HYS_w : Reg.DEC.HYS.HYS.w = 16 := rfl
@[simp] theorem Reg.DEC.HYS.HYS_rst : Reg.DEC.HYS.HYS.rst = 64 := rfl
@[simp] theorem Reg.DEC.HYS.ABOVE_key (i _j : Nat) : Reg.DEC.HYS.ABOVE.key i _j = 29100112 + 128 * i := by simp [Fld.key, Reg.DEC.HYS.ABOVE]
@[simp] theorem Reg.DEC.HYS.ABOVE_w : Reg.DEC.HYS.ABOVE.w = 1 := rfl
@[simp] theorem Reg.DEC.HYS.ABOVE_rst : Reg.DEC.HYS.ABOVE.rst = 0 := rfl
@[simp] theorem Reg.DEC.HYS.BELOW_key (i _j : Nat) : Reg.DEC.HYS.BELOW.key i _j = 29100113 + 128 * i := by simp [Fld.key, Reg.DEC.HYS.BELOW]
@[simp] theorem Reg.DEC.HYS.BELOW_w : Reg.DEC.HYS.BELOW.w = 1 := rfl
@[simp] theorem Reg.DEC.HYS.BELOW_rst : Reg.DEC.HYS.BELOW.rst = 0 := rfl
@[simp] theorem Reg.DEC.OUT.VALUE_key (i _j : Nat) : Reg.DEC.OUT.VALUE.key i _j = 29100128 + 128 * i := by simp [Fld.key, Reg.DEC.OUT.VALUE]
@[simp] theorem Reg.DEC.OUT.VALUE_w : Reg.DEC.OUT.VALUE.w = 16 := rfl
@[simp] theorem Reg.DEC.OUT.VALUE_rst : Reg.DEC.OUT.VALUE.rst = 0 := rfl
@[simp] theorem Reg.DEC.OUT.UNSETTLED_key (i _j : Nat) : Reg.DEC.OUT.UNSETTLED.key i _j = 29100144 + 128 * i := by simp [Fld.key, Reg.DEC.OUT.UNSETTLED]
@[simp] theorem Reg.DEC.OUT.UNSETTLED_w : Reg.DEC.OUT.UNSETTLED.w = 1 := rfl
@[simp] theorem Reg.DEC.OUT.UNSETTLED_rst : Reg.DEC.OUT.UNSETTLED.rst = 0 := rfl
@[simp] theorem Reg.DEC.OUT.SHIFTED_key (i _j : Nat) : Reg.DEC.OUT.SHIFTED.key i _j = 29100145 + 128 * i := by simp [Fld.key, Reg.DEC.OUT.SHIFTED]
@[simp] theorem Reg.DEC.OUT.SHIFTED_w : Reg.DEC.OUT.SHIFTED.w = 1 := rfl
@[simp] theorem Reg.DEC.OUT.SHIFTED_rst : Reg.DEC.OUT.SHIFTED.rst = 0 := rfl
@[simp] theorem Reg.DEC.OUT.CLIP_key (i _j : Nat) : Reg.DEC.OUT.CLIP.key i _j = 29100146 + 128 * i := by simp [Fld.key, Reg.DEC.OUT.CLIP]
@[simp] theorem Reg.DEC.OUT.CLIP_w : Reg.DEC.OUT.CLIP.w = 1 := rfl
@[simp] theorem Reg.DEC.OUT.CLIP_rst : Reg.DEC.OUT.CLIP.rst = 0 := rfl
@[simp] theorem Reg.DEC.OUT.VALID_key (i _j : Nat) : Reg.DEC.OUT.VALID.key i _j = 29100147 + 128 * i := by simp [Fld.key, Reg.DEC.OUT.VALID]
@[simp] theorem Reg.DEC.OUT.VALID_w : Reg.DEC.OUT.VALID.w = 1 := rfl
@[simp] theorem Reg.DEC.OUT.VALID_rst : Reg.DEC.OUT.VALID.rst = 0 := rfl
@[simp] theorem Reg.DEC.OUT.SEQ_key (i _j : Nat) : Reg.DEC.OUT.SEQ.key i _j = 29100152 + 128 * i := by simp [Fld.key, Reg.DEC.OUT.SEQ]
@[simp] theorem Reg.DEC.OUT.SEQ_w : Reg.DEC.OUT.SEQ.w = 8 := rfl
@[simp] theorem Reg.DEC.OUT.SEQ_rst : Reg.DEC.OUT.SEQ.rst = 0 := rfl
@[simp] theorem Reg.HOD.CTRL.SCRUB_EN_key (_i _j : Nat) : Reg.HOD.CTRL.SCRUB_EN.key _i _j = 29360128 := by simp [Fld.key, Reg.HOD.CTRL.SCRUB_EN]
@[simp] theorem Reg.HOD.CTRL.SCRUB_EN_w : Reg.HOD.CTRL.SCRUB_EN.w = 1 := rfl
@[simp] theorem Reg.HOD.CTRL.SCRUB_EN_rst : Reg.HOD.CTRL.SCRUB_EN.rst = 1 := rfl
@[simp] theorem Reg.HOD.CTRL.SCRUB_HOURS_key (_i _j : Nat) : Reg.HOD.CTRL.SCRUB_HOURS.key _i _j = 29360129 := by simp [Fld.key, Reg.HOD.CTRL.SCRUB_HOURS]
@[simp] theorem Reg.HOD.CTRL.SCRUB_HOURS_w : Reg.HOD.CTRL.SCRUB_HOURS.w = 8 := rfl
@[simp] theorem Reg.HOD.CTRL.SCRUB_HOURS_rst : Reg.HOD.CTRL.SCRUB_HOURS.rst = 24 := rfl
@[simp] theorem Reg.HOD.CTRL.REPAIR_EN_key (_i _j : Nat) : Reg.HOD.CTRL.REPAIR_EN.key _i _j = 29360137 := by simp [Fld.key, Reg.HOD.CTRL.REPAIR_EN]
@[simp] theorem Reg.HOD.CTRL.REPAIR_EN_w : Reg.HOD.CTRL.REPAIR_EN.w = 1 := rfl
@[simp] theorem Reg.HOD.CTRL.REPAIR_EN_rst : Reg.HOD.CTRL.REPAIR_EN.rst = 1 := rfl
@[simp] theorem Reg.HOD.STAT.READY_key (_i _j : Nat) : Reg.HOD.STAT.READY.key _i _j = 29360160 := by simp [Fld.key, Reg.HOD.STAT.READY]
@[simp] theorem Reg.HOD.STAT.READY_w : Reg.HOD.STAT.READY.w = 1 := rfl
@[simp] theorem Reg.HOD.STAT.READY_rst : Reg.HOD.STAT.READY.rst = 0 := rfl
@[simp] theorem Reg.HOD.STAT.SELF_REFRESH_key (_i _j : Nat) : Reg.HOD.STAT.SELF_REFRESH.key _i _j = 29360161 := by simp [Fld.key, Reg.HOD.STAT.SELF_REFRESH]
@[simp] theorem Reg.HOD.STAT.SELF_REFRESH_w : Reg.HOD.STAT.SELF_REFRESH.w = 1 := rfl
@[simp] theorem Reg.HOD.STAT.SELF_REFRESH_rst : Reg.HOD.STAT.SELF_REFRESH.rst = 0 := rfl
@[simp] theorem Reg.HOD.STAT.CHK_FAIL_key (_i _j : Nat) : Reg.HOD.STAT.CHK_FAIL.key _i _j = 29360162 := by simp [Fld.key, Reg.HOD.STAT.CHK_FAIL]
@[simp] theorem Reg.HOD.STAT.CHK_FAIL_w : Reg.HOD.STAT.CHK_FAIL.w = 8 := rfl
@[simp] theorem Reg.HOD.STAT.CHK_FAIL_rst : Reg.HOD.STAT.CHK_FAIL.rst = 0 := rfl
@[simp] theorem Reg.HOD.STAT.PASSES_key (_i _j : Nat) : Reg.HOD.STAT.PASSES.key _i _j = 29360176 := by simp [Fld.key, Reg.HOD.STAT.PASSES]
@[simp] theorem Reg.HOD.STAT.PASSES_w : Reg.HOD.STAT.PASSES.w = 16 := rfl
@[simp] theorem Reg.HOD.STAT.PASSES_rst : Reg.HOD.STAT.PASSES.rst = 0 := rfl
@[simp] theorem Reg.HOD.ECC_CORR.COUNT_key (_i _j : Nat) : Reg.HOD.ECC_CORR.COUNT.key _i _j = 29360192 := by simp [Fld.key, Reg.HOD.ECC_CORR.COUNT]
@[simp] theorem Reg.HOD.ECC_CORR.COUNT_w : Reg.HOD.ECC_CORR.COUNT.w = 32 := rfl
@[simp] theorem Reg.HOD.ECC_CORR.COUNT_rst : Reg.HOD.ECC_CORR.COUNT.rst = 0 := rfl
@[simp] theorem Reg.HOD.ECC_UNCORR.COUNT_key (_i _j : Nat) : Reg.HOD.ECC_UNCORR.COUNT.key _i _j = 29360224 := by simp [Fld.key, Reg.HOD.ECC_UNCORR.COUNT]
@[simp] theorem Reg.HOD.ECC_UNCORR.COUNT_w : Reg.HOD.ECC_UNCORR.COUNT.w = 32 := rfl
@[simp] theorem Reg.HOD.ECC_UNCORR.COUNT_rst : Reg.HOD.ECC_UNCORR.COUNT.rst = 0 := rfl
@[simp] theorem Reg.HOD.ECC_LOG.WORD_key (_i _j : Nat) : Reg.HOD.ECC_LOG.WORD.key _i _j = 29360256 := by simp [Fld.key, Reg.HOD.ECC_LOG.WORD]
@[simp] theorem Reg.HOD.ECC_LOG.WORD_w : Reg.HOD.ECC_LOG.WORD.w = 25 := rfl
@[simp] theorem Reg.HOD.ECC_LOG.WORD_rst : Reg.HOD.ECC_LOG.WORD.rst = 0 := rfl
@[simp] theorem Reg.HOD.ECC_LOG.SOURCE_key (_i _j : Nat) : Reg.HOD.ECC_LOG.SOURCE.key _i _j = 29360281 := by simp [Fld.key, Reg.HOD.ECC_LOG.SOURCE]
@[simp] theorem Reg.HOD.ECC_LOG.SOURCE_w : Reg.HOD.ECC_LOG.SOURCE.w = 3 := rfl
@[simp] theorem Reg.HOD.ECC_LOG.SOURCE_rst : Reg.HOD.ECC_LOG.SOURCE.rst = 0 := rfl
@[simp] theorem Reg.HOD.ECC_LOG.VALID_key (_i _j : Nat) : Reg.HOD.ECC_LOG.VALID.key _i _j = 29360287 := by simp [Fld.key, Reg.HOD.ECC_LOG.VALID]
@[simp] theorem Reg.HOD.ECC_LOG.VALID_w : Reg.HOD.ECC_LOG.VALID.w = 1 := rfl
@[simp] theorem Reg.HOD.ECC_LOG.VALID_rst : Reg.HOD.ECC_LOG.VALID.rst = 0 := rfl
@[simp] theorem Reg.HOD.REPAIR_STAT.ENTRIES_key (_i _j : Nat) : Reg.HOD.REPAIR_STAT.ENTRIES.key _i _j = 29360288 := by simp [Fld.key, Reg.HOD.REPAIR_STAT.ENTRIES]
@[simp] theorem Reg.HOD.REPAIR_STAT.ENTRIES_w : Reg.HOD.REPAIR_STAT.ENTRIES.w = 10 := rfl
@[simp] theorem Reg.HOD.REPAIR_STAT.ENTRIES_rst : Reg.HOD.REPAIR_STAT.ENTRIES.rst = 0 := rfl
@[simp] theorem Reg.HOD.REPAIR_STAT.EXHAUSTED_key (_i _j : Nat) : Reg.HOD.REPAIR_STAT.EXHAUSTED.key _i _j = 29360298 := by simp [Fld.key, Reg.HOD.REPAIR_STAT.EXHAUSTED]
@[simp] theorem Reg.HOD.REPAIR_STAT.EXHAUSTED_w : Reg.HOD.REPAIR_STAT.EXHAUSTED.w = 1 := rfl
@[simp] theorem Reg.HOD.REPAIR_STAT.EXHAUSTED_rst : Reg.HOD.REPAIR_STAT.EXHAUSTED.rst = 0 := rfl
@[simp] theorem Reg.HOD.REPAIR_STAT.OVERLAY_BAD_key (_i _j : Nat) : Reg.HOD.REPAIR_STAT.OVERLAY_BAD.key _i _j = 29360299 := by simp [Fld.key, Reg.HOD.REPAIR_STAT.OVERLAY_BAD]
@[simp] theorem Reg.HOD.REPAIR_STAT.OVERLAY_BAD_w : Reg.HOD.REPAIR_STAT.OVERLAY_BAD.w = 1 := rfl
@[simp] theorem Reg.HOD.REPAIR_STAT.OVERLAY_BAD_rst : Reg.HOD.REPAIR_STAT.OVERLAY_BAD.rst = 0 := rfl
@[simp] theorem Reg.HOD.REPAIR_STAT.OVERLAY_PEND_key (_i _j : Nat) : Reg.HOD.REPAIR_STAT.OVERLAY_PEND.key _i _j = 29360300 := by simp [Fld.key, Reg.HOD.REPAIR_STAT.OVERLAY_PEND]
@[simp] theorem Reg.HOD.REPAIR_STAT.OVERLAY_PEND_w : Reg.HOD.REPAIR_STAT.OVERLAY_PEND.w = 1 := rfl
@[simp] theorem Reg.HOD.REPAIR_STAT.OVERLAY_PEND_rst : Reg.HOD.REPAIR_STAT.OVERLAY_PEND.rst = 0 := rfl
@[simp] theorem Reg.HOD.ECC_TEST.DONE_key (_i _j : Nat) : Reg.HOD.ECC_TEST.DONE.key _i _j = 29360320 := by simp [Fld.key, Reg.HOD.ECC_TEST.DONE]
@[simp] theorem Reg.HOD.ECC_TEST.DONE_w : Reg.HOD.ECC_TEST.DONE.w = 1 := rfl
@[simp] theorem Reg.HOD.ECC_TEST.DONE_rst : Reg.HOD.ECC_TEST.DONE.rst = 0 := rfl
@[simp] theorem Reg.HOD.ECC_TEST.BANK_PASS_key (_i _j : Nat) : Reg.HOD.ECC_TEST.BANK_PASS.key _i _j = 29360321 := by simp [Fld.key, Reg.HOD.ECC_TEST.BANK_PASS]
@[simp] theorem Reg.HOD.ECC_TEST.BANK_PASS_w : Reg.HOD.ECC_TEST.BANK_PASS.w = 8 := rfl
@[simp] theorem Reg.HOD.ECC_TEST.BANK_PASS_rst : Reg.HOD.ECC_TEST.BANK_PASS.rst = 0 := rfl
@[simp] theorem Reg.HOD.ENG_ECC_FAIL.FAIL_key (i _j : Nat) : Reg.HOD.ENG_ECC_FAIL.FAIL.key i _j = 29360384 + 1 * i := by simp [Fld.key, Reg.HOD.ENG_ECC_FAIL.FAIL]
@[simp] theorem Reg.HOD.ENG_ECC_FAIL.FAIL_w : Reg.HOD.ENG_ECC_FAIL.FAIL.w = 1 := rfl
@[simp] theorem Reg.HOD.ENG_ECC_FAIL.FAIL_rst : Reg.HOD.ENG_ECC_FAIL.FAIL.rst = 0 := rfl
@[simp] theorem Reg.HOD.WRITTEN.GRANULE_key (i _j : Nat) : Reg.HOD.WRITTEN.GRANULE.key i _j = 29362176 + 1 * i := by simp [Fld.key, Reg.HOD.WRITTEN.GRANULE]
@[simp] theorem Reg.HOD.WRITTEN.GRANULE_w : Reg.HOD.WRITTEN.GRANULE.w = 1 := rfl
@[simp] theorem Reg.HOD.WRITTEN.GRANULE_rst : Reg.HOD.WRITTEN.GRANULE.rst = 0 := rfl
@[simp] theorem Reg.PMC.DP_SEL.EVENT_key (i _j : Nat) : Reg.PMC.DP_SEL.EVENT.key i _j = 29892608 + 32 * i := by simp [Fld.key, Reg.PMC.DP_SEL.EVENT]
@[simp] theorem Reg.PMC.DP_SEL.EVENT_w : Reg.PMC.DP_SEL.EVENT.w = 5 := rfl
@[simp] theorem Reg.PMC.DP_SEL.EVENT_rst : Reg.PMC.DP_SEL.EVENT.rst = 0 := rfl
@[simp] theorem Reg.PMC.DP_SEL.CHAIN_key (i _j : Nat) : Reg.PMC.DP_SEL.CHAIN.key i _j = 29892613 + 32 * i := by simp [Fld.key, Reg.PMC.DP_SEL.CHAIN]
@[simp] theorem Reg.PMC.DP_SEL.CHAIN_w : Reg.PMC.DP_SEL.CHAIN.w = 1 := rfl
@[simp] theorem Reg.PMC.DP_SEL.CHAIN_rst : Reg.PMC.DP_SEL.CHAIN.rst = 0 := rfl
@[simp] theorem Reg.PMC.DP_SEL.CLEAR_key (i _j : Nat) : Reg.PMC.DP_SEL.CLEAR.key i _j = 29892614 + 32 * i := by simp [Fld.key, Reg.PMC.DP_SEL.CLEAR]
@[simp] theorem Reg.PMC.DP_SEL.CLEAR_w : Reg.PMC.DP_SEL.CLEAR.w = 1 := rfl
@[simp] theorem Reg.PMC.DP_SEL.CLEAR_rst : Reg.PMC.DP_SEL.CLEAR.rst = 0 := rfl
@[simp] theorem Reg.PMC.DP_SEL.THR_key (i _j : Nat) : Reg.PMC.DP_SEL.THR.key i _j = 29892616 + 32 * i := by simp [Fld.key, Reg.PMC.DP_SEL.THR]
@[simp] theorem Reg.PMC.DP_SEL.THR_w : Reg.PMC.DP_SEL.THR.w = 8 := rfl
@[simp] theorem Reg.PMC.DP_SEL.THR_rst : Reg.PMC.DP_SEL.THR.rst = 0 := rfl
@[simp] theorem Reg.PMC.DP_SEL.INST_key (i _j : Nat) : Reg.PMC.DP_SEL.INST.key i _j = 29892624 + 32 * i := by simp [Fld.key, Reg.PMC.DP_SEL.INST]
@[simp] theorem Reg.PMC.DP_SEL.INST_w : Reg.PMC.DP_SEL.INST.w = 7 := rfl
@[simp] theorem Reg.PMC.DP_SEL.INST_rst : Reg.PMC.DP_SEL.INST.rst = 0 := rfl
@[simp] theorem Reg.PMC.DP_SEL.OVF_key (i _j : Nat) : Reg.PMC.DP_SEL.OVF.key i _j = 29892638 + 32 * i := by simp [Fld.key, Reg.PMC.DP_SEL.OVF]
@[simp] theorem Reg.PMC.DP_SEL.OVF_w : Reg.PMC.DP_SEL.OVF.w = 1 := rfl
@[simp] theorem Reg.PMC.DP_SEL.OVF_rst : Reg.PMC.DP_SEL.OVF.rst = 0 := rfl
@[simp] theorem Reg.PMC.DP_SEL.PARTIAL_key (i _j : Nat) : Reg.PMC.DP_SEL.PARTIAL.key i _j = 29892639 + 32 * i := by simp [Fld.key, Reg.PMC.DP_SEL.PARTIAL]
@[simp] theorem Reg.PMC.DP_SEL.PARTIAL_w : Reg.PMC.DP_SEL.PARTIAL.w = 1 := rfl
@[simp] theorem Reg.PMC.DP_SEL.PARTIAL_rst : Reg.PMC.DP_SEL.PARTIAL.rst = 1 := rfl
@[simp] theorem Reg.PMC.DP_CNT.COUNT_key (i _j : Nat) : Reg.PMC.DP_CNT.COUNT.key i _j = 29900800 + 64 * i := by simp [Fld.key, Reg.PMC.DP_CNT.COUNT]
@[simp] theorem Reg.PMC.DP_CNT.COUNT_w : Reg.PMC.DP_CNT.COUNT.w = 48 := rfl
@[simp] theorem Reg.PMC.DP_CNT.COUNT_rst : Reg.PMC.DP_CNT.COUNT.rst = 0 := rfl
@[simp] theorem Reg.PMC.DP_CNT.STAMP_key (i _j : Nat) : Reg.PMC.DP_CNT.STAMP.key i _j = 29900848 + 64 * i := by simp [Fld.key, Reg.PMC.DP_CNT.STAMP]
@[simp] theorem Reg.PMC.DP_CNT.STAMP_w : Reg.PMC.DP_CNT.STAMP.w = 16 := rfl
@[simp] theorem Reg.PMC.DP_CNT.STAMP_rst : Reg.PMC.DP_CNT.STAMP.rst = 0 := rfl
@[simp] theorem Reg.PMC.CTRL.DP_FREEZE_key (_i _j : Nat) : Reg.PMC.CTRL.DP_FREEZE.key _i _j = 29884416 := by simp [Fld.key, Reg.PMC.CTRL.DP_FREEZE]
@[simp] theorem Reg.PMC.CTRL.DP_FREEZE_w : Reg.PMC.CTRL.DP_FREEZE.w = 1 := rfl
@[simp] theorem Reg.PMC.CTRL.DP_FREEZE_rst : Reg.PMC.CTRL.DP_FREEZE.rst = 0 := rfl
@[simp] theorem Reg.PMC.CTRL.DP_CLEAR_key (_i _j : Nat) : Reg.PMC.CTRL.DP_CLEAR.key _i _j = 29884417 := by simp [Fld.key, Reg.PMC.CTRL.DP_CLEAR]
@[simp] theorem Reg.PMC.CTRL.DP_CLEAR_w : Reg.PMC.CTRL.DP_CLEAR.w = 1 := rfl
@[simp] theorem Reg.PMC.CTRL.DP_CLEAR_rst : Reg.PMC.CTRL.DP_CLEAR.rst = 0 := rfl
@[simp] theorem Reg.PMC.ACCESS.USER_key (i _j : Nat) : Reg.PMC.ACCESS.USER.key i _j = 29886464 + 32 * i := by simp [Fld.key, Reg.PMC.ACCESS.USER]
@[simp] theorem Reg.PMC.ACCESS.USER_w : Reg.PMC.ACCESS.USER.w = 1 := rfl
@[simp] theorem Reg.PMC.ACCESS.USER_rst : Reg.PMC.ACCESS.USER.rst = 0 := rfl
@[simp] theorem Reg.BIST.STAT.BUSY_key (_i _j : Nat) : Reg.BIST.STAT.BUSY.key _i _j = 30408704 := by simp [Fld.key, Reg.BIST.STAT.BUSY]
@[simp] theorem Reg.BIST.STAT.BUSY_w : Reg.BIST.STAT.BUSY.w = 1 := rfl
@[simp] theorem Reg.BIST.STAT.BUSY_rst : Reg.BIST.STAT.BUSY.rst = 0 := rfl
@[simp] theorem Reg.BIST.STAT.RUNS_key (_i _j : Nat) : Reg.BIST.STAT.RUNS.key _i _j = 30408705 := by simp [Fld.key, Reg.BIST.STAT.RUNS]
@[simp] theorem Reg.BIST.STAT.RUNS_w : Reg.BIST.STAT.RUNS.w = 3 := rfl
@[simp] theorem Reg.BIST.STAT.RUNS_rst : Reg.BIST.STAT.RUNS.rst = 0 := rfl
@[simp] theorem Reg.BIST.STAT.BUSY_PART_key (_i _j : Nat) : Reg.BIST.STAT.BUSY_PART.key _i _j = 30408720 := by simp [Fld.key, Reg.BIST.STAT.BUSY_PART]
@[simp] theorem Reg.BIST.STAT.BUSY_PART_w : Reg.BIST.STAT.BUSY_PART.w = 15 := rfl
@[simp] theorem Reg.BIST.STAT.BUSY_PART_rst : Reg.BIST.STAT.BUSY_PART.rst = 0 := rfl
@[simp] theorem Reg.BIST.LAST.TARGET_key (_i _j : Nat) : Reg.BIST.LAST.TARGET.key _i _j = 30408736 := by simp [Fld.key, Reg.BIST.LAST.TARGET]
@[simp] theorem Reg.BIST.LAST.TARGET_w : Reg.BIST.LAST.TARGET.w = 7 := rfl
@[simp] theorem Reg.BIST.LAST.TARGET_rst : Reg.BIST.LAST.TARGET.rst = 127 := rfl
@[simp] theorem Reg.BIST.LAST.LOGIC_key (_i _j : Nat) : Reg.BIST.LAST.LOGIC.key _i _j = 30408744 := by simp [Fld.key, Reg.BIST.LAST.LOGIC]
@[simp] theorem Reg.BIST.LAST.LOGIC_w : Reg.BIST.LAST.LOGIC.w = 2 := rfl
@[simp] theorem Reg.BIST.LAST.LOGIC_rst : Reg.BIST.LAST.LOGIC.rst = 3 := rfl
@[simp] theorem Reg.BIST.LAST.MEM_key (_i _j : Nat) : Reg.BIST.LAST.MEM.key _i _j = 30408746 := by simp [Fld.key, Reg.BIST.LAST.MEM]
@[simp] theorem Reg.BIST.LAST.MEM_w : Reg.BIST.LAST.MEM.w = 2 := rfl
@[simp] theorem Reg.BIST.LAST.MEM_rst : Reg.BIST.LAST.MEM.rst = 3 := rfl
@[simp] theorem Reg.BIST.LAST.ABORTED_key (_i _j : Nat) : Reg.BIST.LAST.ABORTED.key _i _j = 30408748 := by simp [Fld.key, Reg.BIST.LAST.ABORTED]
@[simp] theorem Reg.BIST.LAST.ABORTED_w : Reg.BIST.LAST.ABORTED.w = 1 := rfl
@[simp] theorem Reg.BIST.LAST.ABORTED_rst : Reg.BIST.LAST.ABORTED.rst = 0 := rfl
@[simp] theorem Reg.BIST.LAST.COUNT_key (_i _j : Nat) : Reg.BIST.LAST.COUNT.key _i _j = 30408752 := by simp [Fld.key, Reg.BIST.LAST.COUNT]
@[simp] theorem Reg.BIST.LAST.COUNT_w : Reg.BIST.LAST.COUNT.w = 16 := rfl
@[simp] theorem Reg.BIST.LAST.COUNT_rst : Reg.BIST.LAST.COUNT.rst = 0 := rfl
@[simp] theorem Reg.BIST.LAST_PAT.PATTERNS_key (_i _j : Nat) : Reg.BIST.LAST_PAT.PATTERNS.key _i _j = 30408768 := by simp [Fld.key, Reg.BIST.LAST_PAT.PATTERNS]
@[simp] theorem Reg.BIST.LAST_PAT.PATTERNS_w : Reg.BIST.LAST_PAT.PATTERNS.w = 32 := rfl
@[simp] theorem Reg.BIST.LAST_PAT.PATTERNS_rst : Reg.BIST.LAST_PAT.PATTERNS.rst = 0 := rfl
@[simp] theorem Reg.BIST.FAIL_MEM.CLASS_key (_i _j : Nat) : Reg.BIST.FAIL_MEM.CLASS.key _i _j = 30408800 := by simp [Fld.key, Reg.BIST.FAIL_MEM.CLASS]
@[simp] theorem Reg.BIST.FAIL_MEM.CLASS_w : Reg.BIST.FAIL_MEM.CLASS.w = 8 := rfl
@[simp] theorem Reg.BIST.FAIL_MEM.CLASS_rst : Reg.BIST.FAIL_MEM.CLASS.rst = 0 := rfl
@[simp] theorem Reg.BIST.FAIL_MEM.INSTANCE_key (_i _j : Nat) : Reg.BIST.FAIL_MEM.INSTANCE.key _i _j = 30408808 := by simp [Fld.key, Reg.BIST.FAIL_MEM.INSTANCE]
@[simp] theorem Reg.BIST.FAIL_MEM.INSTANCE_w : Reg.BIST.FAIL_MEM.INSTANCE.w = 8 := rfl
@[simp] theorem Reg.BIST.FAIL_MEM.INSTANCE_rst : Reg.BIST.FAIL_MEM.INSTANCE.rst = 0 := rfl
@[simp] theorem Reg.BIST.FAIL_MEM.BIT_key (_i _j : Nat) : Reg.BIST.FAIL_MEM.BIT.key _i _j = 30408816 := by simp [Fld.key, Reg.BIST.FAIL_MEM.BIT]
@[simp] theorem Reg.BIST.FAIL_MEM.BIT_w : Reg.BIST.FAIL_MEM.BIT.w = 8 := rfl
@[simp] theorem Reg.BIST.FAIL_MEM.BIT_rst : Reg.BIST.FAIL_MEM.BIT.rst = 0 := rfl
@[simp] theorem Reg.BIST.FAIL_MEM.SLICE_key (_i _j : Nat) : Reg.BIST.FAIL_MEM.SLICE.key _i _j = 30408824 := by simp [Fld.key, Reg.BIST.FAIL_MEM.SLICE]
@[simp] theorem Reg.BIST.FAIL_MEM.SLICE_w : Reg.BIST.FAIL_MEM.SLICE.w = 8 := rfl
@[simp] theorem Reg.BIST.FAIL_MEM.SLICE_rst : Reg.BIST.FAIL_MEM.SLICE.rst = 0 := rfl
@[simp] theorem Reg.BIST.FAIL_ADDR.ADDR_key (_i _j : Nat) : Reg.BIST.FAIL_ADDR.ADDR.key _i _j = 30408832 := by simp [Fld.key, Reg.BIST.FAIL_ADDR.ADDR]
@[simp] theorem Reg.BIST.FAIL_ADDR.ADDR_w : Reg.BIST.FAIL_ADDR.ADDR.w = 32 := rfl
@[simp] theorem Reg.BIST.FAIL_ADDR.ADDR_rst : Reg.BIST.FAIL_ADDR.ADDR.rst = 0 := rfl
@[simp] theorem Reg.BIST.MISR.SIGNATURE_key (_i _j : Nat) : Reg.BIST.MISR.SIGNATURE.key _i _j = 30408960 := by simp [Fld.key, Reg.BIST.MISR.SIGNATURE]
@[simp] theorem Reg.BIST.MISR.SIGNATURE_w : Reg.BIST.MISR.SIGNATURE.w = 64 := rfl
@[simp] theorem Reg.BIST.MISR.SIGNATURE_rst : Reg.BIST.MISR.SIGNATURE.rst = 0 := rfl
@[simp] theorem Reg.BIST.BUSY_LANE.LANE_key (i _j : Nat) : Reg.BIST.BUSY_LANE.LANE.key i _j = 30408896 + 1 * i := by simp [Fld.key, Reg.BIST.BUSY_LANE.LANE]
@[simp] theorem Reg.BIST.BUSY_LANE.LANE_w : Reg.BIST.BUSY_LANE.LANE.w = 1 := rfl
@[simp] theorem Reg.BIST.BUSY_LANE.LANE_rst : Reg.BIST.BUSY_LANE.LANE.rst = 0 := rfl
@[simp] theorem Reg.RING.SQ_BASE.ADDR_key (i _j : Nat) : Reg.RING.SQ_BASE.ADDR.key i _j = 31457292 + 512 * i := by simp [Fld.key, Reg.RING.SQ_BASE.ADDR]
@[simp] theorem Reg.RING.SQ_BASE.ADDR_w : Reg.RING.SQ_BASE.ADDR.w = 52 := rfl
@[simp] theorem Reg.RING.SQ_BASE.ADDR_rst : Reg.RING.SQ_BASE.ADDR.rst = 0 := rfl
@[simp] theorem Reg.RING.CQ_BASE.ADDR_key (i _j : Nat) : Reg.RING.CQ_BASE.ADDR.key i _j = 31457356 + 512 * i := by simp [Fld.key, Reg.RING.CQ_BASE.ADDR]
@[simp] theorem Reg.RING.CQ_BASE.ADDR_w : Reg.RING.CQ_BASE.ADDR.w = 52 := rfl
@[simp] theorem Reg.RING.CQ_BASE.ADDR_rst : Reg.RING.CQ_BASE.ADDR.rst = 0 := rfl
@[simp] theorem Reg.RING.CFG.EN_key (i _j : Nat) : Reg.RING.CFG.EN.key i _j = 31457408 + 512 * i := by simp [Fld.key, Reg.RING.CFG.EN]
@[simp] theorem Reg.RING.CFG.EN_w : Reg.RING.CFG.EN.w = 1 := rfl
@[simp] theorem Reg.RING.CFG.EN_rst : Reg.RING.CFG.EN.rst = 0 := rfl
@[simp] theorem Reg.RING.CFG.TYPE_key (i _j : Nat) : Reg.RING.CFG.TYPE.key i _j = 31457409 + 512 * i := by simp [Fld.key, Reg.RING.CFG.TYPE]
@[simp] theorem Reg.RING.CFG.TYPE_w : Reg.RING.CFG.TYPE.w = 1 := rfl
@[simp] theorem Reg.RING.CFG.TYPE_rst : Reg.RING.CFG.TYPE.rst = 0 := rfl
@[simp] theorem Reg.RING.CFG.SIZE_key (i _j : Nat) : Reg.RING.CFG.SIZE.key i _j = 31457410 + 512 * i := by simp [Fld.key, Reg.RING.CFG.SIZE]
@[simp] theorem Reg.RING.CFG.SIZE_w : Reg.RING.CFG.SIZE.w = 5 := rfl
@[simp] theorem Reg.RING.CFG.SIZE_rst : Reg.RING.CFG.SIZE.rst = 0 := rfl
@[simp] theorem Reg.RING.CFG.OWNER_key (i _j : Nat) : Reg.RING.CFG.OWNER.key i _j = 31457415 + 512 * i := by simp [Fld.key, Reg.RING.CFG.OWNER]
@[simp] theorem Reg.RING.CFG.OWNER_w : Reg.RING.CFG.OWNER.w = 6 := rfl
@[simp] theorem Reg.RING.CFG.OWNER_rst : Reg.RING.CFG.OWNER.rst = 0 := rfl
@[simp] theorem Reg.RING.INTR.VECTOR_key (i _j : Nat) : Reg.RING.INTR.VECTOR.key i _j = 31457440 + 512 * i := by simp [Fld.key, Reg.RING.INTR.VECTOR]
@[simp] theorem Reg.RING.INTR.VECTOR_w : Reg.RING.INTR.VECTOR.w = 11 := rfl
@[simp] theorem Reg.RING.INTR.VECTOR_rst : Reg.RING.INTR.VECTOR.rst = 0 := rfl
@[simp] theorem Reg.RING.INTR.IE_key (i _j : Nat) : Reg.RING.INTR.IE.key i _j = 31457451 + 512 * i := by simp [Fld.key, Reg.RING.INTR.IE]
@[simp] theorem Reg.RING.INTR.IE_w : Reg.RING.INTR.IE.w = 1 := rfl
@[simp] theorem Reg.RING.INTR.IE_rst : Reg.RING.INTR.IE.rst = 0 := rfl
@[simp] theorem Reg.RING.INTR.COAL_CNT_key (i _j : Nat) : Reg.RING.INTR.COAL_CNT.key i _j = 31457452 + 512 * i := by simp [Fld.key, Reg.RING.INTR.COAL_CNT]
@[simp] theorem Reg.RING.INTR.COAL_CNT_w : Reg.RING.INTR.COAL_CNT.w = 8 := rfl
@[simp] theorem Reg.RING.INTR.COAL_CNT_rst : Reg.RING.INTR.COAL_CNT.rst = 1 := rfl
@[simp] theorem Reg.RING.INTR.COAL_US_key (i _j : Nat) : Reg.RING.INTR.COAL_US.key i _j = 31457460 + 512 * i := by simp [Fld.key, Reg.RING.INTR.COAL_US]
@[simp] theorem Reg.RING.INTR.COAL_US_w : Reg.RING.INTR.COAL_US.w = 12 := rfl
@[simp] theorem Reg.RING.INTR.COAL_US_rst : Reg.RING.INTR.COAL_US.rst = 0 := rfl
@[simp] theorem Reg.RING.SQ_PTR.TAIL_key (i _j : Nat) : Reg.RING.SQ_PTR.TAIL.key i _j = 31457472 + 512 * i := by simp [Fld.key, Reg.RING.SQ_PTR.TAIL]
@[simp] theorem Reg.RING.SQ_PTR.TAIL_w : Reg.RING.SQ_PTR.TAIL.w = 16 := rfl
@[simp] theorem Reg.RING.SQ_PTR.TAIL_rst : Reg.RING.SQ_PTR.TAIL.rst = 0 := rfl
@[simp] theorem Reg.RING.SQ_PTR.HEAD_key (i _j : Nat) : Reg.RING.SQ_PTR.HEAD.key i _j = 31457488 + 512 * i := by simp [Fld.key, Reg.RING.SQ_PTR.HEAD]
@[simp] theorem Reg.RING.SQ_PTR.HEAD_w : Reg.RING.SQ_PTR.HEAD.w = 16 := rfl
@[simp] theorem Reg.RING.SQ_PTR.HEAD_rst : Reg.RING.SQ_PTR.HEAD.rst = 0 := rfl
@[simp] theorem Reg.RING.CQ_PTR.TAIL_key (i _j : Nat) : Reg.RING.CQ_PTR.TAIL.key i _j = 31457504 + 512 * i := by simp [Fld.key, Reg.RING.CQ_PTR.TAIL]
@[simp] theorem Reg.RING.CQ_PTR.TAIL_w : Reg.RING.CQ_PTR.TAIL.w = 16 := rfl
@[simp] theorem Reg.RING.CQ_PTR.TAIL_rst : Reg.RING.CQ_PTR.TAIL.rst = 0 := rfl
@[simp] theorem Reg.RING.CQ_PTR.HEAD_key (i _j : Nat) : Reg.RING.CQ_PTR.HEAD.key i _j = 31457520 + 512 * i := by simp [Fld.key, Reg.RING.CQ_PTR.HEAD]
@[simp] theorem Reg.RING.CQ_PTR.HEAD_w : Reg.RING.CQ_PTR.HEAD.w = 16 := rfl
@[simp] theorem Reg.RING.CQ_PTR.HEAD_rst : Reg.RING.CQ_PTR.HEAD.rst = 0 := rfl
@[simp] theorem Reg.RING.STAT.STATE_key (i _j : Nat) : Reg.RING.STAT.STATE.key i _j = 31457536 + 512 * i := by simp [Fld.key, Reg.RING.STAT.STATE]
@[simp] theorem Reg.RING.STAT.STATE_w : Reg.RING.STAT.STATE.w = 2 := rfl
@[simp] theorem Reg.RING.STAT.STATE_rst : Reg.RING.STAT.STATE.rst = 0 := rfl
@[simp] theorem Reg.RING.STAT.ERR_CAUSE_key (i _j : Nat) : Reg.RING.STAT.ERR_CAUSE.key i _j = 31457538 + 512 * i := by simp [Fld.key, Reg.RING.STAT.ERR_CAUSE]
@[simp] theorem Reg.RING.STAT.ERR_CAUSE_w : Reg.RING.STAT.ERR_CAUSE.w = 4 := rfl
@[simp] theorem Reg.RING.STAT.ERR_CAUSE_rst : Reg.RING.STAT.ERR_CAUSE.rst = 0 := rfl
@[simp] theorem Reg.RING.STAT.PHASE_key (i _j : Nat) : Reg.RING.STAT.PHASE.key i _j = 31457542 + 512 * i := by simp [Fld.key, Reg.RING.STAT.PHASE]
@[simp] theorem Reg.RING.STAT.PHASE_w : Reg.RING.STAT.PHASE.w = 1 := rfl
@[simp] theorem Reg.RING.STAT.PHASE_rst : Reg.RING.STAT.PHASE.rst = 1 := rfl
@[simp] theorem Reg.RING.STAT.EVT_OVF_key (i _j : Nat) : Reg.RING.STAT.EVT_OVF.key i _j = 31457543 + 512 * i := by simp [Fld.key, Reg.RING.STAT.EVT_OVF]
@[simp] theorem Reg.RING.STAT.EVT_OVF_w : Reg.RING.STAT.EVT_OVF.w = 1 := rfl
@[simp] theorem Reg.RING.STAT.EVT_OVF_rst : Reg.RING.STAT.EVT_OVF.rst = 0 := rfl
@[simp] theorem Reg.RING.STAT.IN_FLIGHT_key (i _j : Nat) : Reg.RING.STAT.IN_FLIGHT.key i _j = 31457552 + 512 * i := by simp [Fld.key, Reg.RING.STAT.IN_FLIGHT]
@[simp] theorem Reg.RING.STAT.IN_FLIGHT_w : Reg.RING.STAT.IN_FLIGHT.w = 16 := rfl
@[simp] theorem Reg.RING.STAT.IN_FLIGHT_rst : Reg.RING.STAT.IN_FLIGHT.rst = 0 := rfl
@[simp] theorem Reg.RING.SESSION.OPEN_key (i _j : Nat) : Reg.RING.SESSION.OPEN.key i _j = 31457568 + 512 * i := by simp [Fld.key, Reg.RING.SESSION.OPEN]
@[simp] theorem Reg.RING.SESSION.OPEN_w : Reg.RING.SESSION.OPEN.w = 1 := rfl
@[simp] theorem Reg.RING.SESSION.OPEN_rst : Reg.RING.SESSION.OPEN.rst = 0 := rfl
@[simp] theorem Reg.RING.SESSION.ROLE_key (i _j : Nat) : Reg.RING.SESSION.ROLE.key i _j = 31457569 + 512 * i := by simp [Fld.key, Reg.RING.SESSION.ROLE]
@[simp] theorem Reg.RING.SESSION.ROLE_w : Reg.RING.SESSION.ROLE.w = 2 := rfl
@[simp] theorem Reg.RING.SESSION.ROLE_rst : Reg.RING.SESSION.ROLE.rst = 0 := rfl
@[simp] theorem Reg.RING.SESSION.SLOT_key (i _j : Nat) : Reg.RING.SESSION.SLOT.key i _j = 31457571 + 512 * i := by simp [Fld.key, Reg.RING.SESSION.SLOT]
@[simp] theorem Reg.RING.SESSION.SLOT_w : Reg.RING.SESSION.SLOT.w = 6 := rfl
@[simp] theorem Reg.RING.SESSION.SLOT_rst : Reg.RING.SESSION.SLOT.rst = 0 := rfl
@[simp] theorem Reg.RING.SESSION.CHALLENGE_key (i _j : Nat) : Reg.RING.SESSION.CHALLENGE.key i _j = 31457577 + 512 * i := by simp [Fld.key, Reg.RING.SESSION.CHALLENGE]
@[simp] theorem Reg.RING.SESSION.CHALLENGE_w : Reg.RING.SESSION.CHALLENGE.w = 1 := rfl
@[simp] theorem Reg.RING.SESSION.CHALLENGE_rst : Reg.RING.SESSION.CHALLENGE.rst = 0 := rfl
@[simp] theorem Reg.RING.SESSION.IDLE_LEFT_key (i _j : Nat) : Reg.RING.SESSION.IDLE_LEFT.key i _j = 31457584 + 512 * i := by simp [Fld.key, Reg.RING.SESSION.IDLE_LEFT]
@[simp] theorem Reg.RING.SESSION.IDLE_LEFT_w : Reg.RING.SESSION.IDLE_LEFT.w = 16 := rfl
@[simp] theorem Reg.RING.SESSION.IDLE_LEFT_rst : Reg.RING.SESSION.IDLE_LEFT.rst = 0 := rfl
@[simp] theorem Reg.ENG.STAT.RUN_key (i _j : Nat) : Reg.ENG.STAT.RUN.key i _j = 134217728 + 1048576 * i := by simp [Fld.key, Reg.ENG.STAT.RUN]
@[simp] theorem Reg.ENG.STAT.RUN_w : Reg.ENG.STAT.RUN.w = 2 := rfl
@[simp] theorem Reg.ENG.STAT.RUN_rst : Reg.ENG.STAT.RUN.rst = 0 := rfl
@[simp] theorem Reg.ENG.STAT.LAST_CAUSE_key (i _j : Nat) : Reg.ENG.STAT.LAST_CAUSE.key i _j = 134217736 + 1048576 * i := by simp [Fld.key, Reg.ENG.STAT.LAST_CAUSE]
@[simp] theorem Reg.ENG.STAT.LAST_CAUSE_w : Reg.ENG.STAT.LAST_CAUSE.w = 8 := rfl
@[simp] theorem Reg.ENG.STAT.LAST_CAUSE_rst : Reg.ENG.STAT.LAST_CAUSE.rst = 0 := rfl
@[simp] theorem Reg.ENG.STAT.ECC_CORR_key (i _j : Nat) : Reg.ENG.STAT.ECC_CORR.key i _j = 134217744 + 1048576 * i := by simp [Fld.key, Reg.ENG.STAT.ECC_CORR]
@[simp] theorem Reg.ENG.STAT.ECC_CORR_w : Reg.ENG.STAT.ECC_CORR.w = 16 := rfl
@[simp] theorem Reg.ENG.STAT.ECC_CORR_rst : Reg.ENG.STAT.ECC_CORR.rst = 0 := rfl
@[simp] theorem Reg.ENG.SLEEP.MODE_key (i _j : Nat) : Reg.ENG.SLEEP.MODE.key i _j = 134217760 + 1048576 * i := by simp [Fld.key, Reg.ENG.SLEEP.MODE]
@[simp] theorem Reg.ENG.SLEEP.MODE_w : Reg.ENG.SLEEP.MODE.w = 1 := rfl
@[simp] theorem Reg.ENG.SLEEP.MODE_rst : Reg.ENG.SLEEP.MODE.rst = 0 := rfl
@[simp] theorem Reg.ENG.SLEEP.WAKE_MASK_key (i _j : Nat) : Reg.ENG.SLEEP.WAKE_MASK.key i _j = 134217776 + 1048576 * i := by simp [Fld.key, Reg.ENG.SLEEP.WAKE_MASK]
@[simp] theorem Reg.ENG.SLEEP.WAKE_MASK_w : Reg.ENG.SLEEP.WAKE_MASK.w = 16 := rfl
@[simp] theorem Reg.ENG.SLEEP.WAKE_MASK_rst : Reg.ENG.SLEEP.WAKE_MASK.rst = 0 := rfl
@[simp] theorem Reg.ENG.PROG_CTRL.OWN_FFE_key (i _j : Nat) : Reg.ENG.PROG_CTRL.OWN_FFE.key i _j = 134217856 + 1048576 * i := by simp [Fld.key, Reg.ENG.PROG_CTRL.OWN_FFE]
@[simp] theorem Reg.ENG.PROG_CTRL.OWN_FFE_w : Reg.ENG.PROG_CTRL.OWN_FFE.w = 1 := rfl
@[simp] theorem Reg.ENG.PROG_CTRL.OWN_FFE_rst : Reg.ENG.PROG_CTRL.OWN_FFE.rst = 0 := rfl
@[simp] theorem Reg.ENG.PROG_CTRL.OWN_TGT_key (i _j : Nat) : Reg.ENG.PROG_CTRL.OWN_TGT.key i _j = 134217857 + 1048576 * i := by simp [Fld.key, Reg.ENG.PROG_CTRL.OWN_TGT]
@[simp] theorem Reg.ENG.PROG_CTRL.OWN_TGT_w : Reg.ENG.PROG_CTRL.OWN_TGT.w = 1 := rfl
@[simp] theorem Reg.ENG.PROG_CTRL.OWN_TGT_rst : Reg.ENG.PROG_CTRL.OWN_TGT.rst = 0 := rfl
@[simp] theorem Reg.ENG.PROG_STAT.STATE_key (i _j : Nat) : Reg.ENG.PROG_STAT.STATE.key i _j = 134217888 + 1048576 * i := by simp [Fld.key, Reg.ENG.PROG_STAT.STATE]
@[simp] theorem Reg.ENG.PROG_STAT.STATE_w : Reg.ENG.PROG_STAT.STATE.w = 3 := rfl
@[simp] theorem Reg.ENG.PROG_STAT.STATE_rst : Reg.ENG.PROG_STAT.STATE.rst = 0 := rfl
@[simp] theorem Reg.ENG.PROG_STAT.CAUSE_key (i _j : Nat) : Reg.ENG.PROG_STAT.CAUSE.key i _j = 134217891 + 1048576 * i := by simp [Fld.key, Reg.ENG.PROG_STAT.CAUSE]
@[simp] theorem Reg.ENG.PROG_STAT.CAUSE_w : Reg.ENG.PROG_STAT.CAUSE.w = 5 := rfl
@[simp] theorem Reg.ENG.PROG_STAT.CAUSE_rst : Reg.ENG.PROG_STAT.CAUSE.rst = 0 := rfl
@[simp] theorem Reg.ENG.PROG_STAT.FN_key (i _j : Nat) : Reg.ENG.PROG_STAT.FN.key i _j = 134217896 + 1048576 * i := by simp [Fld.key, Reg.ENG.PROG_STAT.FN]
@[simp] theorem Reg.ENG.PROG_STAT.FN_w : Reg.ENG.PROG_STAT.FN.w = 6 := rfl
@[simp] theorem Reg.ENG.PROG_STAT.FN_rst : Reg.ENG.PROG_STAT.FN.rst = 0 := rfl
@[simp] theorem Reg.ENG.PROG_STAT.RESTARTS_key (i _j : Nat) : Reg.ENG.PROG_STAT.RESTARTS.key i _j = 134217904 + 1048576 * i := by simp [Fld.key, Reg.ENG.PROG_STAT.RESTARTS]
@[simp] theorem Reg.ENG.PROG_STAT.RESTARTS_w : Reg.ENG.PROG_STAT.RESTARTS.w = 8 := rfl
@[simp] theorem Reg.ENG.PROG_STAT.RESTARTS_rst : Reg.ENG.PROG_STAT.RESTARTS.rst = 0 := rfl
@[simp] theorem Reg.ENG.PROG_STAT.OVERRUN_key (i _j : Nat) : Reg.ENG.PROG_STAT.OVERRUN.key i _j = 134217912 + 1048576 * i := by simp [Fld.key, Reg.ENG.PROG_STAT.OVERRUN]
@[simp] theorem Reg.ENG.PROG_STAT.OVERRUN_w : Reg.ENG.PROG_STAT.OVERRUN.w = 8 := rfl
@[simp] theorem Reg.ENG.PROG_STAT.OVERRUN_rst : Reg.ENG.PROG_STAT.OVERRUN.rst = 0 := rfl
@[simp] theorem Reg.ENG.PROG_BUDGET.BEATS_key (i _j : Nat) : Reg.ENG.PROG_BUDGET.BEATS.key i _j = 134217920 + 1048576 * i := by simp [Fld.key, Reg.ENG.PROG_BUDGET.BEATS]
@[simp] theorem Reg.ENG.PROG_BUDGET.BEATS_w : Reg.ENG.PROG_BUDGET.BEATS.w = 7 := rfl
@[simp] theorem Reg.ENG.PROG_BUDGET.BEATS_rst : Reg.ENG.PROG_BUDGET.BEATS.rst = 16 := rfl
@[simp] theorem Reg.ENG.FAULT_PC.PC_key (i _j : Nat) : Reg.ENG.FAULT_PC.PC.key i _j = 134217952 + 1048576 * i := by simp [Fld.key, Reg.ENG.FAULT_PC.PC]
@[simp] theorem Reg.ENG.FAULT_PC.PC_w : Reg.ENG.FAULT_PC.PC.w = 32 := rfl
@[simp] theorem Reg.ENG.FAULT_PC.PC_rst : Reg.ENG.FAULT_PC.PC.rst = 0 := rfl
@[simp] theorem Reg.ENG.PMC_SEL.EVENT_key (i j : Nat) : Reg.ENG.PMC_SEL.EVENT.key i j = 134219776 + 32 * j + 1048576 * i := by simp [Fld.key, Reg.ENG.PMC_SEL.EVENT]
@[simp] theorem Reg.ENG.PMC_SEL.EVENT_w : Reg.ENG.PMC_SEL.EVENT.w = 5 := rfl
@[simp] theorem Reg.ENG.PMC_SEL.EVENT_rst : Reg.ENG.PMC_SEL.EVENT.rst = 0 := rfl
@[simp] theorem Reg.ENG.PMC_SEL.CHAIN_key (i j : Nat) : Reg.ENG.PMC_SEL.CHAIN.key i j = 134219781 + 32 * j + 1048576 * i := by simp [Fld.key, Reg.ENG.PMC_SEL.CHAIN]
@[simp] theorem Reg.ENG.PMC_SEL.CHAIN_w : Reg.ENG.PMC_SEL.CHAIN.w = 1 := rfl
@[simp] theorem Reg.ENG.PMC_SEL.CHAIN_rst : Reg.ENG.PMC_SEL.CHAIN.rst = 0 := rfl
@[simp] theorem Reg.ENG.PMC_SEL.CLEAR_key (i j : Nat) : Reg.ENG.PMC_SEL.CLEAR.key i j = 134219782 + 32 * j + 1048576 * i := by simp [Fld.key, Reg.ENG.PMC_SEL.CLEAR]
@[simp] theorem Reg.ENG.PMC_SEL.CLEAR_w : Reg.ENG.PMC_SEL.CLEAR.w = 1 := rfl
@[simp] theorem Reg.ENG.PMC_SEL.CLEAR_rst : Reg.ENG.PMC_SEL.CLEAR.rst = 0 := rfl
@[simp] theorem Reg.ENG.PMC_SEL.THR_key (i j : Nat) : Reg.ENG.PMC_SEL.THR.key i j = 134219784 + 32 * j + 1048576 * i := by simp [Fld.key, Reg.ENG.PMC_SEL.THR]
@[simp] theorem Reg.ENG.PMC_SEL.THR_w : Reg.ENG.PMC_SEL.THR.w = 8 := rfl
@[simp] theorem Reg.ENG.PMC_SEL.THR_rst : Reg.ENG.PMC_SEL.THR.rst = 0 := rfl
@[simp] theorem Reg.ENG.PMC_SEL.INST_key (i j : Nat) : Reg.ENG.PMC_SEL.INST.key i j = 134219792 + 32 * j + 1048576 * i := by simp [Fld.key, Reg.ENG.PMC_SEL.INST]
@[simp] theorem Reg.ENG.PMC_SEL.INST_w : Reg.ENG.PMC_SEL.INST.w = 7 := rfl
@[simp] theorem Reg.ENG.PMC_SEL.INST_rst : Reg.ENG.PMC_SEL.INST.rst = 0 := rfl
@[simp] theorem Reg.ENG.PMC_SEL.OVF_key (i j : Nat) : Reg.ENG.PMC_SEL.OVF.key i j = 134219806 + 32 * j + 1048576 * i := by simp [Fld.key, Reg.ENG.PMC_SEL.OVF]
@[simp] theorem Reg.ENG.PMC_SEL.OVF_w : Reg.ENG.PMC_SEL.OVF.w = 1 := rfl
@[simp] theorem Reg.ENG.PMC_SEL.OVF_rst : Reg.ENG.PMC_SEL.OVF.rst = 0 := rfl
@[simp] theorem Reg.ENG.PMC_SEL.PARTIAL_key (i j : Nat) : Reg.ENG.PMC_SEL.PARTIAL.key i j = 134219807 + 32 * j + 1048576 * i := by simp [Fld.key, Reg.ENG.PMC_SEL.PARTIAL]
@[simp] theorem Reg.ENG.PMC_SEL.PARTIAL_w : Reg.ENG.PMC_SEL.PARTIAL.w = 1 := rfl
@[simp] theorem Reg.ENG.PMC_SEL.PARTIAL_rst : Reg.ENG.PMC_SEL.PARTIAL.rst = 1 := rfl
@[simp] theorem Reg.ENG.PMC_CNT.COUNT_key (i j : Nat) : Reg.ENG.PMC_CNT.COUNT.key i j = 134220032 + 64 * j + 1048576 * i := by simp [Fld.key, Reg.ENG.PMC_CNT.COUNT]
@[simp] theorem Reg.ENG.PMC_CNT.COUNT_w : Reg.ENG.PMC_CNT.COUNT.w = 48 := rfl
@[simp] theorem Reg.ENG.PMC_CNT.COUNT_rst : Reg.ENG.PMC_CNT.COUNT.rst = 0 := rfl
@[simp] theorem Reg.ENG.PMC_CNT.STAMP_key (i j : Nat) : Reg.ENG.PMC_CNT.STAMP.key i j = 134220080 + 64 * j + 1048576 * i := by simp [Fld.key, Reg.ENG.PMC_CNT.STAMP]
@[simp] theorem Reg.ENG.PMC_CNT.STAMP_w : Reg.ENG.PMC_CNT.STAMP.w = 16 := rfl
@[simp] theorem Reg.ENG.PMC_CNT.STAMP_rst : Reg.ENG.PMC_CNT.STAMP.rst = 0 := rfl
@[simp] theorem Reg.ENG.TAG_CTRL.EN_key (i _j : Nat) : Reg.ENG.TAG_CTRL.EN.key i _j = 134220288 + 1048576 * i := by simp [Fld.key, Reg.ENG.TAG_CTRL.EN]
@[simp] theorem Reg.ENG.TAG_CTRL.EN_w : Reg.ENG.TAG_CTRL.EN.w = 1 := rfl
@[simp] theorem Reg.ENG.TAG_CTRL.EN_rst : Reg.ENG.TAG_CTRL.EN.rst = 0 := rfl
@[simp] theorem Reg.ENG.TAG_CTRL.TAG_K_key (i _j : Nat) : Reg.ENG.TAG_CTRL.TAG_K.key i _j = 134220289 + 1048576 * i := by simp [Fld.key, Reg.ENG.TAG_CTRL.TAG_K]
@[simp] theorem Reg.ENG.TAG_CTRL.TAG_K_w : Reg.ENG.TAG_CTRL.TAG_K.w = 5 := rfl
@[simp] theorem Reg.ENG.TAG_CTRL.TAG_K_rst : Reg.ENG.TAG_CTRL.TAG_K.rst = 10 := rfl
@[simp] theorem Reg.ENG.TAG_CTRL.WR_PTR_key (i _j : Nat) : Reg.ENG.TAG_CTRL.WR_PTR.key i _j = 134220294 + 1048576 * i := by simp [Fld.key, Reg.ENG.TAG_CTRL.WR_PTR]
@[simp] theorem Reg.ENG.TAG_CTRL.WR_PTR_w : Reg.ENG.TAG_CTRL.WR_PTR.w = 5 := rfl
@[simp] theorem Reg.ENG.TAG_CTRL.WR_PTR_rst : Reg.ENG.TAG_CTRL.WR_PTR.rst = 0 := rfl
@[simp] theorem Reg.ENG.TAG_CTRL.LOST_key (i _j : Nat) : Reg.ENG.TAG_CTRL.LOST.key i _j = 134220304 + 1048576 * i := by simp [Fld.key, Reg.ENG.TAG_CTRL.LOST]
@[simp] theorem Reg.ENG.TAG_CTRL.LOST_w : Reg.ENG.TAG_CTRL.LOST.w = 8 := rfl
@[simp] theorem Reg.ENG.TAG_CTRL.LOST_rst : Reg.ENG.TAG_CTRL.LOST.rst = 0 := rfl
@[simp] theorem Reg.ENG.TAG_CTRL.TAG_SEED_key (i _j : Nat) : Reg.ENG.TAG_CTRL.TAG_SEED.key i _j = 134220312 + 1048576 * i := by simp [Fld.key, Reg.ENG.TAG_CTRL.TAG_SEED]
@[simp] theorem Reg.ENG.TAG_CTRL.TAG_SEED_w : Reg.ENG.TAG_CTRL.TAG_SEED.w = 8 := rfl
@[simp] theorem Reg.ENG.TAG_CTRL.TAG_SEED_rst : Reg.ENG.TAG_CTRL.TAG_SEED.rst = 1 := rfl
@[simp] theorem Reg.ENG.TAG_BUF.PC_key (i j : Nat) : Reg.ENG.TAG_BUF.PC.key i j = 134221824 + 64 * j + 1048576 * i := by simp [Fld.key, Reg.ENG.TAG_BUF.PC]
@[simp] theorem Reg.ENG.TAG_BUF.PC_w : Reg.ENG.TAG_BUF.PC.w = 32 := rfl
@[simp] theorem Reg.ENG.TAG_BUF.PC_rst : Reg.ENG.TAG_BUF.PC.rst = 0 := rfl
@[simp] theorem Reg.ENG.TAG_BUF.LATENCY_key (i j : Nat) : Reg.ENG.TAG_BUF.LATENCY.key i j = 134221856 + 64 * j + 1048576 * i := by simp [Fld.key, Reg.ENG.TAG_BUF.LATENCY]
@[simp] theorem Reg.ENG.TAG_BUF.LATENCY_w : Reg.ENG.TAG_BUF.LATENCY.w = 12 := rfl
@[simp] theorem Reg.ENG.TAG_BUF.LATENCY_rst : Reg.ENG.TAG_BUF.LATENCY.rst = 0 := rfl
@[simp] theorem Reg.ENG.TAG_BUF.USER_key (i j : Nat) : Reg.ENG.TAG_BUF.USER.key i j = 134221868 + 64 * j + 1048576 * i := by simp [Fld.key, Reg.ENG.TAG_BUF.USER]
@[simp] theorem Reg.ENG.TAG_BUF.USER_w : Reg.ENG.TAG_BUF.USER.w = 1 := rfl
@[simp] theorem Reg.ENG.TAG_BUF.USER_rst : Reg.ENG.TAG_BUF.USER.rst = 0 := rfl
@[simp] theorem Reg.ENG.TAG_BUF.IN_REP_key (i j : Nat) : Reg.ENG.TAG_BUF.IN_REP.key i j = 134221869 + 64 * j + 1048576 * i := by simp [Fld.key, Reg.ENG.TAG_BUF.IN_REP]
@[simp] theorem Reg.ENG.TAG_BUF.IN_REP_w : Reg.ENG.TAG_BUF.IN_REP.w = 1 := rfl
@[simp] theorem Reg.ENG.TAG_BUF.IN_REP_rst : Reg.ENG.TAG_BUF.IN_REP.rst = 0 := rfl
@[simp] theorem Reg.ENG.TAG_BUF.MEM_WAIT_key (i j : Nat) : Reg.ENG.TAG_BUF.MEM_WAIT.key i j = 134221870 + 64 * j + 1048576 * i := by simp [Fld.key, Reg.ENG.TAG_BUF.MEM_WAIT]
@[simp] theorem Reg.ENG.TAG_BUF.MEM_WAIT_w : Reg.ENG.TAG_BUF.MEM_WAIT.w = 1 := rfl
@[simp] theorem Reg.ENG.TAG_BUF.MEM_WAIT_rst : Reg.ENG.TAG_BUF.MEM_WAIT.rst = 0 := rfl
@[simp] theorem Reg.ENG.TAG_BUF.VALID_key (i j : Nat) : Reg.ENG.TAG_BUF.VALID.key i j = 134221871 + 64 * j + 1048576 * i := by simp [Fld.key, Reg.ENG.TAG_BUF.VALID]
@[simp] theorem Reg.ENG.TAG_BUF.VALID_w : Reg.ENG.TAG_BUF.VALID.w = 1 := rfl
@[simp] theorem Reg.ENG.TAG_BUF.VALID_rst : Reg.ENG.TAG_BUF.VALID.rst = 0 := rfl
@[simp] theorem Reg.ENG.TAG_BUF.STAMP_key (i j : Nat) : Reg.ENG.TAG_BUF.STAMP.key i j = 134221872 + 64 * j + 1048576 * i := by simp [Fld.key, Reg.ENG.TAG_BUF.STAMP]
@[simp] theorem Reg.ENG.TAG_BUF.STAMP_w : Reg.ENG.TAG_BUF.STAMP.w = 16 := rfl
@[simp] theorem Reg.ENG.TAG_BUF.STAMP_rst : Reg.ENG.TAG_BUF.STAMP.rst = 0 := rfl

end Sys2Proof.Machine
end

