-- ==== Sys2Proof/Laws/State.lean ====
section
/-! SUPPORT. What each update of the state leaves alone: one lemma per update and field, true by definition, so that no
later proof unfolds a record update. -/

namespace Sys2Proof.Machine

variable (s : State)

/-! `State.wr` -/

@[simp] theorem State.wr_time (f : Fld) (v i j : Nat) : (s.wr f v i j).time = s.time := rfl
@[simp] theorem State.wr_pending (f : Fld) (v i j : Nat) : (s.wr f v i j).pending = s.pending := rfl
@[simp] theorem State.wr_freeCtr (f : Fld) (v i j : Nat) : (s.wr f v i j).freeCtr = s.freeCtr := rfl
@[simp] theorem State.wr_out (f : Fld) (v i j : Nat) : (s.wr f v i j).out = s.out := rfl
@[simp] theorem State.wr_phase (f : Fld) (v i j : Nat) : (s.wr f v i j).phase = s.phase := rfl
@[simp] theorem State.wr_rings (f : Fld) (v i j : Nat) : (s.wr f v i j).rings = s.rings := rfl
@[simp] theorem State.wr_fns (f : Fld) (v i j : Nat) : (s.wr f v i j).fns = s.fns := rfl
@[simp] theorem State.wr_arb (f : Fld) (v i j : Nat) : (s.wr f v i j).arb = s.arb := rfl
@[simp] theorem State.wr_vecs (f : Fld) (v i j : Nat) : (s.wr f v i j).vecs = s.vecs := rfl
@[simp] theorem State.wr_vfEnable (f : Fld) (v i j : Nat) : (s.wr f v i j).vfEnable = s.vfEnable := rfl
@[simp] theorem State.wr_raises (f : Fld) (v i j : Nat) : (s.wr f v i j).raises = s.raises := rfl
@[simp] theorem State.wr_held (f : Fld) (v i j : Nat) : (s.wr f v i j).held = s.held := rfl
@[simp] theorem State.wr_doorHeld (f : Fld) (v i j : Nat) : (s.wr f v i j).doorHeld = s.doorHeld := rfl
@[simp] theorem State.wr_pwr (f : Fld) (v i j : Nat) : (s.wr f v i j).pwr = s.pwr := rfl
@[simp] theorem State.wr_cores (f : Fld) (v i j : Nat) : (s.wr f v i j).cores = s.cores := rfl
@[simp] theorem State.wr_engMap (f : Fld) (v i j : Nat) : (s.wr f v i j).engMap = s.engMap := rfl
@[simp] theorem State.wr_failed (f : Fld) (v i j : Nat) : (s.wr f v i j).failed = s.failed := rfl
@[simp] theorem State.wr_subst (f : Fld) (v i j : Nat) : (s.wr f v i j).subst = s.subst := rfl
@[simp] theorem State.wr_therm (f : Fld) (v i j : Nat) : (s.wr f v i j).therm = s.therm := rfl
@[simp] theorem State.wr_sec (f : Fld) (v i j : Nat) : (s.wr f v i j).sec = s.sec := rfl
@[simp] theorem State.wr_upd (f : Fld) (v i j : Nat) : (s.wr f v i j).upd = s.upd := rfl
@[simp] theorem State.wr_twin (f : Fld) (v i j : Nat) : (s.wr f v i j).twin = s.twin := rfl
@[simp] theorem State.wr_tests (f : Fld) (v i j : Nat) : (s.wr f v i j).tests = s.tests := rfl
@[simp] theorem State.wr_hod (f : Fld) (v i j : Nat) : (s.wr f v i j).hod = s.hod := rfl
@[simp] theorem State.wr_rx (f : Fld) (v i j : Nat) : (s.wr f v i j).rx = s.rx := rfl
@[simp] theorem State.wr_tx (f : Fld) (v i j : Nat) : (s.wr f v i j).tx = s.tx := rfl
@[simp] theorem State.wr_cal (f : Fld) (v i j : Nat) : (s.wr f v i j).cal = s.cal := rfl
@[simp] theorem State.wr_bst (f : Fld) (v i j : Nat) : (s.wr f v i j).bst = s.bst := rfl
@[simp] theorem State.wr_shots (f : Fld) (v i j : Nat) : (s.wr f v i j).shots = s.shots := rfl
@[simp] theorem State.wr_epoch (f : Fld) (v i j : Nat) : (s.wr f v i j).epoch = s.epoch := rfl
@[simp] theorem State.wr_host (f : Fld) (v i j : Nat) : (s.wr f v i j).host = s.host := rfl
@[simp] theorem State.wr_htx (f : Fld) (v i j : Nat) : (s.wr f v i j).htx = s.htx := rfl
@[simp] theorem State.wr_chk (f : Fld) (v i j : Nat) : (s.wr f v i j).chk = s.chk := rfl
@[simp] theorem State.wr_seeds (f : Fld) (v i j : Nat) : (s.wr f v i j).seeds = s.seeds := rfl
@[simp] theorem State.wr_retire (f : Fld) (v i j : Nat) : (s.wr f v i j).retire = s.retire := rfl
@[simp] theorem State.wr_bgFused (f : Fld) (v i j : Nat) : (s.wr f v i j).bgFused = s.bgFused := rfl
@[simp] theorem State.wr_bgHigh (f : Fld) (v i j : Nat) : (s.wr f v i j).bgHigh = s.bgHigh := rfl
@[simp] theorem State.wr_bgLow (f : Fld) (v i j : Nat) : (s.wr f v i j).bgLow = s.bgLow := rfl
@[simp] theorem State.wr_mortar (f : Fld) (v i j : Nat) : (s.wr f v i j).mortar = s.mortar := rfl
@[simp] theorem State.wr_bias (f : Fld) (v i j : Nat) : (s.wr f v i j).bias = s.bias := rfl
@[simp] theorem State.wr_scv (f : Fld) (v i j : Nat) : (s.wr f v i j).scv = s.scv := rfl
@[simp] theorem State.wr_dec (f : Fld) (v i j : Nat) : (s.wr f v i j).dec = s.dec := rfl
@[simp] theorem State.wr_cmis (f : Fld) (v i j : Nat) : (s.wr f v i j).cmis = s.cmis := rfl
@[simp] theorem State.wr_eng (f : Fld) (v i j : Nat) : (s.wr f v i j).eng = s.eng := rfl
@[simp] theorem State.wr_tapIr (f : Fld) (v i j : Nat) : (s.wr f v i j).tapIr = s.tapIr := rfl

/-! `State.clearRegs` -/

@[simp] theorem State.clearRegs_time (lo hi : Nat) : (s.clearRegs lo hi).time = s.time := rfl
@[simp] theorem State.clearRegs_pending (lo hi : Nat) : (s.clearRegs lo hi).pending = s.pending := rfl
@[simp] theorem State.clearRegs_freeCtr (lo hi : Nat) : (s.clearRegs lo hi).freeCtr = s.freeCtr := rfl
@[simp] theorem State.clearRegs_out (lo hi : Nat) : (s.clearRegs lo hi).out = s.out := rfl
@[simp] theorem State.clearRegs_phase (lo hi : Nat) : (s.clearRegs lo hi).phase = s.phase := rfl
@[simp] theorem State.clearRegs_rings (lo hi : Nat) : (s.clearRegs lo hi).rings = s.rings := rfl
@[simp] theorem State.clearRegs_fns (lo hi : Nat) : (s.clearRegs lo hi).fns = s.fns := rfl
@[simp] theorem State.clearRegs_arb (lo hi : Nat) : (s.clearRegs lo hi).arb = s.arb := rfl
@[simp] theorem State.clearRegs_vecs (lo hi : Nat) : (s.clearRegs lo hi).vecs = s.vecs := rfl
@[simp] theorem State.clearRegs_vfEnable (lo hi : Nat) : (s.clearRegs lo hi).vfEnable = s.vfEnable := rfl
@[simp] theorem State.clearRegs_raises (lo hi : Nat) : (s.clearRegs lo hi).raises = s.raises := rfl
@[simp] theorem State.clearRegs_held (lo hi : Nat) : (s.clearRegs lo hi).held = s.held := rfl
@[simp] theorem State.clearRegs_doorHeld (lo hi : Nat) : (s.clearRegs lo hi).doorHeld = s.doorHeld := rfl
@[simp] theorem State.clearRegs_pwr (lo hi : Nat) : (s.clearRegs lo hi).pwr = s.pwr := rfl
@[simp] theorem State.clearRegs_cores (lo hi : Nat) : (s.clearRegs lo hi).cores = s.cores := rfl
@[simp] theorem State.clearRegs_engMap (lo hi : Nat) : (s.clearRegs lo hi).engMap = s.engMap := rfl
@[simp] theorem State.clearRegs_failed (lo hi : Nat) : (s.clearRegs lo hi).failed = s.failed := rfl
@[simp] theorem State.clearRegs_subst (lo hi : Nat) : (s.clearRegs lo hi).subst = s.subst := rfl
@[simp] theorem State.clearRegs_therm (lo hi : Nat) : (s.clearRegs lo hi).therm = s.therm := rfl
@[simp] theorem State.clearRegs_sec (lo hi : Nat) : (s.clearRegs lo hi).sec = s.sec := rfl
@[simp] theorem State.clearRegs_upd (lo hi : Nat) : (s.clearRegs lo hi).upd = s.upd := rfl
@[simp] theorem State.clearRegs_twin (lo hi : Nat) : (s.clearRegs lo hi).twin = s.twin := rfl
@[simp] theorem State.clearRegs_tests (lo hi : Nat) : (s.clearRegs lo hi).tests = s.tests := rfl
@[simp] theorem State.clearRegs_hod (lo hi : Nat) : (s.clearRegs lo hi).hod = s.hod := rfl
@[simp] theorem State.clearRegs_rx (lo hi : Nat) : (s.clearRegs lo hi).rx = s.rx := rfl
@[simp] theorem State.clearRegs_tx (lo hi : Nat) : (s.clearRegs lo hi).tx = s.tx := rfl
@[simp] theorem State.clearRegs_cal (lo hi : Nat) : (s.clearRegs lo hi).cal = s.cal := rfl
@[simp] theorem State.clearRegs_bst (lo hi : Nat) : (s.clearRegs lo hi).bst = s.bst := rfl
@[simp] theorem State.clearRegs_shots (lo hi : Nat) : (s.clearRegs lo hi).shots = s.shots := rfl
@[simp] theorem State.clearRegs_epoch (lo hi : Nat) : (s.clearRegs lo hi).epoch = s.epoch := rfl
@[simp] theorem State.clearRegs_host (lo hi : Nat) : (s.clearRegs lo hi).host = s.host := rfl
@[simp] theorem State.clearRegs_htx (lo hi : Nat) : (s.clearRegs lo hi).htx = s.htx := rfl
@[simp] theorem State.clearRegs_chk (lo hi : Nat) : (s.clearRegs lo hi).chk = s.chk := rfl
@[simp] theorem State.clearRegs_seeds (lo hi : Nat) : (s.clearRegs lo hi).seeds = s.seeds := rfl
@[simp] theorem State.clearRegs_retire (lo hi : Nat) : (s.clearRegs lo hi).retire = s.retire := rfl
@[simp] theorem State.clearRegs_bgFused (lo hi : Nat) : (s.clearRegs lo hi).bgFused = s.bgFused := rfl
@[simp] theorem State.clearRegs_bgHigh (lo hi : Nat) : (s.clearRegs lo hi).bgHigh = s.bgHigh := rfl
@[simp] theorem State.clearRegs_bgLow (lo hi : Nat) : (s.clearRegs lo hi).bgLow = s.bgLow := rfl
@[simp] theorem State.clearRegs_mortar (lo hi : Nat) : (s.clearRegs lo hi).mortar = s.mortar := rfl
@[simp] theorem State.clearRegs_bias (lo hi : Nat) : (s.clearRegs lo hi).bias = s.bias := rfl
@[simp] theorem State.clearRegs_scv (lo hi : Nat) : (s.clearRegs lo hi).scv = s.scv := rfl
@[simp] theorem State.clearRegs_dec (lo hi : Nat) : (s.clearRegs lo hi).dec = s.dec := rfl
@[simp] theorem State.clearRegs_cmis (lo hi : Nat) : (s.clearRegs lo hi).cmis = s.cmis := rfl
@[simp] theorem State.clearRegs_eng (lo hi : Nat) : (s.clearRegs lo hi).eng = s.eng := rfl
@[simp] theorem State.clearRegs_tapIr (lo hi : Nat) : (s.clearRegs lo hi).tapIr = s.tapIr := rfl

/-! `State.upTo` -/

@[simp] theorem State.upTo_pending (t : Nat) : (s.upTo t).pending = s.pending := rfl
@[simp] theorem State.upTo_freeCtr (t : Nat) : (s.upTo t).freeCtr = s.freeCtr := rfl
@[simp] theorem State.upTo_out (t : Nat) : (s.upTo t).out = s.out := rfl
@[simp] theorem State.upTo_phase (t : Nat) : (s.upTo t).phase = s.phase := rfl
@[simp] theorem State.upTo_regs (t : Nat) : (s.upTo t).regs = s.regs := rfl
@[simp] theorem State.upTo_rings (t : Nat) : (s.upTo t).rings = s.rings := rfl
@[simp] theorem State.upTo_fns (t : Nat) : (s.upTo t).fns = s.fns := rfl
@[simp] theorem State.upTo_arb (t : Nat) : (s.upTo t).arb = s.arb := rfl
@[simp] theorem State.upTo_vecs (t : Nat) : (s.upTo t).vecs = s.vecs := rfl
@[simp] theorem State.upTo_vfEnable (t : Nat) : (s.upTo t).vfEnable = s.vfEnable := rfl
@[simp] theorem State.upTo_raises (t : Nat) : (s.upTo t).raises = s.raises := rfl
@[simp] theorem State.upTo_held (t : Nat) : (s.upTo t).held = s.held := rfl
@[simp] theorem State.upTo_doorHeld (t : Nat) : (s.upTo t).doorHeld = s.doorHeld := rfl
@[simp] theorem State.upTo_pwr (t : Nat) : (s.upTo t).pwr = s.pwr := rfl
@[simp] theorem State.upTo_cores (t : Nat) : (s.upTo t).cores = s.cores := rfl
@[simp] theorem State.upTo_engMap (t : Nat) : (s.upTo t).engMap = s.engMap := rfl
@[simp] theorem State.upTo_failed (t : Nat) : (s.upTo t).failed = s.failed := rfl
@[simp] theorem State.upTo_subst (t : Nat) : (s.upTo t).subst = s.subst := rfl
@[simp] theorem State.upTo_therm (t : Nat) : (s.upTo t).therm = s.therm := rfl
@[simp] theorem State.upTo_sec (t : Nat) : (s.upTo t).sec = s.sec := rfl
@[simp] theorem State.upTo_upd (t : Nat) : (s.upTo t).upd = s.upd := rfl
@[simp] theorem State.upTo_twin (t : Nat) : (s.upTo t).twin = s.twin := rfl
@[simp] theorem State.upTo_tests (t : Nat) : (s.upTo t).tests = s.tests := rfl
@[simp] theorem State.upTo_hod (t : Nat) : (s.upTo t).hod = s.hod := rfl
@[simp] theorem State.upTo_rx (t : Nat) : (s.upTo t).rx = s.rx := rfl
@[simp] theorem State.upTo_tx (t : Nat) : (s.upTo t).tx = s.tx := rfl
@[simp] theorem State.upTo_cal (t : Nat) : (s.upTo t).cal = s.cal := rfl
@[simp] theorem State.upTo_bst (t : Nat) : (s.upTo t).bst = s.bst := rfl
@[simp] theorem State.upTo_shots (t : Nat) : (s.upTo t).shots = s.shots := rfl
@[simp] theorem State.upTo_epoch (t : Nat) : (s.upTo t).epoch = s.epoch := rfl
@[simp] theorem State.upTo_host (t : Nat) : (s.upTo t).host = s.host := rfl
@[simp] theorem State.upTo_htx (t : Nat) : (s.upTo t).htx = s.htx := rfl
@[simp] theorem State.upTo_chk (t : Nat) : (s.upTo t).chk = s.chk := rfl
@[simp] theorem State.upTo_seeds (t : Nat) : (s.upTo t).seeds = s.seeds := rfl
@[simp] theorem State.upTo_retire (t : Nat) : (s.upTo t).retire = s.retire := rfl
@[simp] theorem State.upTo_bgFused (t : Nat) : (s.upTo t).bgFused = s.bgFused := rfl
@[simp] theorem State.upTo_bgHigh (t : Nat) : (s.upTo t).bgHigh = s.bgHigh := rfl
@[simp] theorem State.upTo_bgLow (t : Nat) : (s.upTo t).bgLow = s.bgLow := rfl
@[simp] theorem State.upTo_mortar (t : Nat) : (s.upTo t).mortar = s.mortar := rfl
@[simp] theorem State.upTo_bias (t : Nat) : (s.upTo t).bias = s.bias := rfl
@[simp] theorem State.upTo_scv (t : Nat) : (s.upTo t).scv = s.scv := rfl
@[simp] theorem State.upTo_dec (t : Nat) : (s.upTo t).dec = s.dec := rfl
@[simp] theorem State.upTo_cmis (t : Nat) : (s.upTo t).cmis = s.cmis := rfl
@[simp] theorem State.upTo_eng (t : Nat) : (s.upTo t).eng = s.eng := rfl
@[simp] theorem State.upTo_tapIr (t : Nat) : (s.upTo t).tapIr = s.tapIr := rfl

/-! `State.freed` -/

@[simp] theorem State.freed_time : (s.freed).time = s.time := rfl
@[simp] theorem State.freed_pending : (s.freed).pending = s.pending := rfl
@[simp] theorem State.freed_out : (s.freed).out = s.out := rfl
@[simp] theorem State.freed_phase : (s.freed).phase = s.phase := rfl
@[simp] theorem State.freed_regs : (s.freed).regs = s.regs := rfl
@[simp] theorem State.freed_rings : (s.freed).rings = s.rings := rfl
@[simp] theorem State.freed_fns : (s.freed).fns = s.fns := rfl
@[simp] theorem State.freed_arb : (s.freed).arb = s.arb := rfl
@[simp] theorem State.freed_vecs : (s.freed).vecs = s.vecs := rfl
@[simp] theorem State.freed_vfEnable : (s.freed).vfEnable = s.vfEnable := rfl
@[simp] theorem State.freed_raises : (s.freed).raises = s.raises := rfl
@[simp] theorem State.freed_held : (s.freed).held = s.held := rfl
@[simp] theorem State.freed_doorHeld : (s.freed).doorHeld = s.doorHeld := rfl
@[simp] theorem State.freed_pwr : (s.freed).pwr = s.pwr := rfl
@[simp] theorem State.freed_cores : (s.freed).cores = s.cores := rfl
@[simp] theorem State.freed_engMap : (s.freed).engMap = s.engMap := rfl
@[simp] theorem State.freed_failed : (s.freed).failed = s.failed := rfl
@[simp] theorem State.freed_subst : (s.freed).subst = s.subst := rfl
@[simp] theorem State.freed_therm : (s.freed).therm = s.therm := rfl
@[simp] theorem State.freed_sec : (s.freed).sec = s.sec := rfl
@[simp] theorem State.freed_upd : (s.freed).upd = s.upd := rfl
@[simp] theorem State.freed_twin : (s.freed).twin = s.twin := rfl
@[simp] theorem State.freed_tests : (s.freed).tests = s.tests := rfl
@[simp] theorem State.freed_hod : (s.freed).hod = s.hod := rfl
@[simp] theorem State.freed_rx : (s.freed).rx = s.rx := rfl
@[simp] theorem State.freed_tx : (s.freed).tx = s.tx := rfl
@[simp] theorem State.freed_cal : (s.freed).cal = s.cal := rfl
@[simp] theorem State.freed_bst : (s.freed).bst = s.bst := rfl
@[simp] theorem State.freed_shots : (s.freed).shots = s.shots := rfl
@[simp] theorem State.freed_epoch : (s.freed).epoch = s.epoch := rfl
@[simp] theorem State.freed_host : (s.freed).host = s.host := rfl
@[simp] theorem State.freed_htx : (s.freed).htx = s.htx := rfl
@[simp] theorem State.freed_chk : (s.freed).chk = s.chk := rfl
@[simp] theorem State.freed_seeds : (s.freed).seeds = s.seeds := rfl
@[simp] theorem State.freed_retire : (s.freed).retire = s.retire := rfl
@[simp] theorem State.freed_bgFused : (s.freed).bgFused = s.bgFused := rfl
@[simp] theorem State.freed_bgHigh : (s.freed).bgHigh = s.bgHigh := rfl
@[simp] theorem State.freed_bgLow : (s.freed).bgLow = s.bgLow := rfl
@[simp] theorem State.freed_mortar : (s.freed).mortar = s.mortar := rfl
@[simp] theorem State.freed_bias : (s.freed).bias = s.bias := rfl
@[simp] theorem State.freed_scv : (s.freed).scv = s.scv := rfl
@[simp] theorem State.freed_dec : (s.freed).dec = s.dec := rfl
@[simp] theorem State.freed_cmis : (s.freed).cmis = s.cmis := rfl
@[simp] theorem State.freed_eng : (s.freed).eng = s.eng := rfl
@[simp] theorem State.freed_tapIr : (s.freed).tapIr = s.tapIr := rfl

/-! `State.emit` -/

@[simp] theorem State.emit_time (o : Out) : (s.emit o).time = s.time := rfl
@[simp] theorem State.emit_pending (o : Out) : (s.emit o).pending = s.pending := rfl
@[simp] theorem State.emit_freeCtr (o : Out) : (s.emit o).freeCtr = s.freeCtr := rfl
@[simp] theorem State.emit_phase (o : Out) : (s.emit o).phase = s.phase := rfl
@[simp] theorem State.emit_regs (o : Out) : (s.emit o).regs = s.regs := rfl
@[simp] theorem State.emit_rings (o : Out) : (s.emit o).rings = s.rings := rfl
@[simp] theorem State.emit_fns (o : Out) : (s.emit o).fns = s.fns := rfl
@[simp] theorem State.emit_arb (o : Out) : (s.emit o).arb = s.arb := rfl
@[simp] theorem State.emit_vecs (o : Out) : (s.emit o).vecs = s.vecs := rfl
@[simp] theorem State.emit_vfEnable (o : Out) : (s.emit o).vfEnable = s.vfEnable := rfl
@[simp] theorem State.emit_raises (o : Out) : (s.emit o).raises = s.raises := rfl
@[simp] theorem State.emit_held (o : Out) : (s.emit o).held = s.held := rfl
@[simp] theorem State.emit_doorHeld (o : Out) : (s.emit o).doorHeld = s.doorHeld := rfl
@[simp] theorem State.emit_pwr (o : Out) : (s.emit o).pwr = s.pwr := rfl
@[simp] theorem State.emit_cores (o : Out) : (s.emit o).cores = s.cores := rfl
@[simp] theorem State.emit_engMap (o : Out) : (s.emit o).engMap = s.engMap := rfl
@[simp] theorem State.emit_failed (o : Out) : (s.emit o).failed = s.failed := rfl
@[simp] theorem State.emit_subst (o : Out) : (s.emit o).subst = s.subst := rfl
@[simp] theorem State.emit_therm (o : Out) : (s.emit o).therm = s.therm := rfl
@[simp] theorem State.emit_sec (o : Out) : (s.emit o).sec = s.sec := rfl
@[simp] theorem State.emit_upd (o : Out) : (s.emit o).upd = s.upd := rfl
@[simp] theorem State.emit_twin (o : Out) : (s.emit o).twin = s.twin := rfl
@[simp] theorem State.emit_tests (o : Out) : (s.emit o).tests = s.tests := rfl
@[simp] theorem State.emit_hod (o : Out) : (s.emit o).hod = s.hod := rfl
@[simp] theorem State.emit_rx (o : Out) : (s.emit o).rx = s.rx := rfl
@[simp] theorem State.emit_tx (o : Out) : (s.emit o).tx = s.tx := rfl
@[simp] theorem State.emit_cal (o : Out) : (s.emit o).cal = s.cal := rfl
@[simp] theorem State.emit_bst (o : Out) : (s.emit o).bst = s.bst := rfl
@[simp] theorem State.emit_shots (o : Out) : (s.emit o).shots = s.shots := rfl
@[simp] theorem State.emit_epoch (o : Out) : (s.emit o).epoch = s.epoch := rfl
@[simp] theorem State.emit_host (o : Out) : (s.emit o).host = s.host := rfl
@[simp] theorem State.emit_htx (o : Out) : (s.emit o).htx = s.htx := rfl
@[simp] theorem State.emit_chk (o : Out) : (s.emit o).chk = s.chk := rfl
@[simp] theorem State.emit_seeds (o : Out) : (s.emit o).seeds = s.seeds := rfl
@[simp] theorem State.emit_retire (o : Out) : (s.emit o).retire = s.retire := rfl
@[simp] theorem State.emit_bgFused (o : Out) : (s.emit o).bgFused = s.bgFused := rfl
@[simp] theorem State.emit_bgHigh (o : Out) : (s.emit o).bgHigh = s.bgHigh := rfl
@[simp] theorem State.emit_bgLow (o : Out) : (s.emit o).bgLow = s.bgLow := rfl
@[simp] theorem State.emit_mortar (o : Out) : (s.emit o).mortar = s.mortar := rfl
@[simp] theorem State.emit_bias (o : Out) : (s.emit o).bias = s.bias := rfl
@[simp] theorem State.emit_scv (o : Out) : (s.emit o).scv = s.scv := rfl
@[simp] theorem State.emit_dec (o : Out) : (s.emit o).dec = s.dec := rfl
@[simp] theorem State.emit_cmis (o : Out) : (s.emit o).cmis = s.cmis := rfl
@[simp] theorem State.emit_eng (o : Out) : (s.emit o).eng = s.eng := rfl
@[simp] theorem State.emit_tapIr (o : Out) : (s.emit o).tapIr = s.tapIr := rfl

/-! `State.setRing` -/

@[simp] theorem State.setRing_time (r : Nat) (x : RingX) : (s.setRing r x).time = s.time := rfl
@[simp] theorem State.setRing_pending (r : Nat) (x : RingX) : (s.setRing r x).pending = s.pending := rfl
@[simp] theorem State.setRing_freeCtr (r : Nat) (x : RingX) : (s.setRing r x).freeCtr = s.freeCtr := rfl
@[simp] theorem State.setRing_out (r : Nat) (x : RingX) : (s.setRing r x).out = s.out := rfl
@[simp] theorem State.setRing_phase (r : Nat) (x : RingX) : (s.setRing r x).phase = s.phase := rfl
@[simp] theorem State.setRing_regs (r : Nat) (x : RingX) : (s.setRing r x).regs = s.regs := rfl
@[simp] theorem State.setRing_fns (r : Nat) (x : RingX) : (s.setRing r x).fns = s.fns := rfl
@[simp] theorem State.setRing_arb (r : Nat) (x : RingX) : (s.setRing r x).arb = s.arb := rfl
@[simp] theorem State.setRing_vecs (r : Nat) (x : RingX) : (s.setRing r x).vecs = s.vecs := rfl
@[simp] theorem State.setRing_vfEnable (r : Nat) (x : RingX) : (s.setRing r x).vfEnable = s.vfEnable := rfl
@[simp] theorem State.setRing_raises (r : Nat) (x : RingX) : (s.setRing r x).raises = s.raises := rfl
@[simp] theorem State.setRing_held (r : Nat) (x : RingX) : (s.setRing r x).held = s.held := rfl
@[simp] theorem State.setRing_doorHeld (r : Nat) (x : RingX) : (s.setRing r x).doorHeld = s.doorHeld := rfl
@[simp] theorem State.setRing_pwr (r : Nat) (x : RingX) : (s.setRing r x).pwr = s.pwr := rfl
@[simp] theorem State.setRing_cores (r : Nat) (x : RingX) : (s.setRing r x).cores = s.cores := rfl
@[simp] theorem State.setRing_engMap (r : Nat) (x : RingX) : (s.setRing r x).engMap = s.engMap := rfl
@[simp] theorem State.setRing_failed (r : Nat) (x : RingX) : (s.setRing r x).failed = s.failed := rfl
@[simp] theorem State.setRing_subst (r : Nat) (x : RingX) : (s.setRing r x).subst = s.subst := rfl
@[simp] theorem State.setRing_therm (r : Nat) (x : RingX) : (s.setRing r x).therm = s.therm := rfl
@[simp] theorem State.setRing_sec (r : Nat) (x : RingX) : (s.setRing r x).sec = s.sec := rfl
@[simp] theorem State.setRing_upd (r : Nat) (x : RingX) : (s.setRing r x).upd = s.upd := rfl
@[simp] theorem State.setRing_twin (r : Nat) (x : RingX) : (s.setRing r x).twin = s.twin := rfl
@[simp] theorem State.setRing_tests (r : Nat) (x : RingX) : (s.setRing r x).tests = s.tests := rfl
@[simp] theorem State.setRing_hod (r : Nat) (x : RingX) : (s.setRing r x).hod = s.hod := rfl
@[simp] theorem State.setRing_rx (r : Nat) (x : RingX) : (s.setRing r x).rx = s.rx := rfl
@[simp] theorem State.setRing_tx (r : Nat) (x : RingX) : (s.setRing r x).tx = s.tx := rfl
@[simp] theorem State.setRing_cal (r : Nat) (x : RingX) : (s.setRing r x).cal = s.cal := rfl
@[simp] theorem State.setRing_bst (r : Nat) (x : RingX) : (s.setRing r x).bst = s.bst := rfl
@[simp] theorem State.setRing_shots (r : Nat) (x : RingX) : (s.setRing r x).shots = s.shots := rfl
@[simp] theorem State.setRing_epoch (r : Nat) (x : RingX) : (s.setRing r x).epoch = s.epoch := rfl
@[simp] theorem State.setRing_host (r : Nat) (x : RingX) : (s.setRing r x).host = s.host := rfl
@[simp] theorem State.setRing_htx (r : Nat) (x : RingX) : (s.setRing r x).htx = s.htx := rfl
@[simp] theorem State.setRing_chk (r : Nat) (x : RingX) : (s.setRing r x).chk = s.chk := rfl
@[simp] theorem State.setRing_seeds (r : Nat) (x : RingX) : (s.setRing r x).seeds = s.seeds := rfl
@[simp] theorem State.setRing_retire (r : Nat) (x : RingX) : (s.setRing r x).retire = s.retire := rfl
@[simp] theorem State.setRing_bgFused (r : Nat) (x : RingX) : (s.setRing r x).bgFused = s.bgFused := rfl
@[simp] theorem State.setRing_bgHigh (r : Nat) (x : RingX) : (s.setRing r x).bgHigh = s.bgHigh := rfl
@[simp] theorem State.setRing_bgLow (r : Nat) (x : RingX) : (s.setRing r x).bgLow = s.bgLow := rfl
@[simp] theorem State.setRing_mortar (r : Nat) (x : RingX) : (s.setRing r x).mortar = s.mortar := rfl
@[simp] theorem State.setRing_bias (r : Nat) (x : RingX) : (s.setRing r x).bias = s.bias := rfl
@[simp] theorem State.setRing_scv (r : Nat) (x : RingX) : (s.setRing r x).scv = s.scv := rfl
@[simp] theorem State.setRing_dec (r : Nat) (x : RingX) : (s.setRing r x).dec = s.dec := rfl
@[simp] theorem State.setRing_cmis (r : Nat) (x : RingX) : (s.setRing r x).cmis = s.cmis := rfl
@[simp] theorem State.setRing_eng (r : Nat) (x : RingX) : (s.setRing r x).eng = s.eng := rfl
@[simp] theorem State.setRing_tapIr (r : Nat) (x : RingX) : (s.setRing r x).tapIr = s.tapIr := rfl

/-! `State.setFn` -/

@[simp] theorem State.setFn_time (f : Nat) (x : FnX) : (s.setFn f x).time = s.time := rfl
@[simp] theorem State.setFn_pending (f : Nat) (x : FnX) : (s.setFn f x).pending = s.pending := rfl
@[simp] theorem State.setFn_freeCtr (f : Nat) (x : FnX) : (s.setFn f x).freeCtr = s.freeCtr := rfl
@[simp] theorem State.setFn_out (f : Nat) (x : FnX) : (s.setFn f x).out = s.out := rfl
@[simp] theorem State.setFn_phase (f : Nat) (x : FnX) : (s.setFn f x).phase = s.phase := rfl
@[simp] theorem State.setFn_regs (f : Nat) (x : FnX) : (s.setFn f x).regs = s.regs := rfl
@[simp] theorem State.setFn_rings (f : Nat) (x : FnX) : (s.setFn f x).rings = s.rings := rfl
@[simp] theorem State.setFn_arb (f : Nat) (x : FnX) : (s.setFn f x).arb = s.arb := rfl
@[simp] theorem State.setFn_vecs (f : Nat) (x : FnX) : (s.setFn f x).vecs = s.vecs := rfl
@[simp] theorem State.setFn_vfEnable (f : Nat) (x : FnX) : (s.setFn f x).vfEnable = s.vfEnable := rfl
@[simp] theorem State.setFn_raises (f : Nat) (x : FnX) : (s.setFn f x).raises = s.raises := rfl
@[simp] theorem State.setFn_held (f : Nat) (x : FnX) : (s.setFn f x).held = s.held := rfl
@[simp] theorem State.setFn_doorHeld (f : Nat) (x : FnX) : (s.setFn f x).doorHeld = s.doorHeld := rfl
@[simp] theorem State.setFn_pwr (f : Nat) (x : FnX) : (s.setFn f x).pwr = s.pwr := rfl
@[simp] theorem State.setFn_cores (f : Nat) (x : FnX) : (s.setFn f x).cores = s.cores := rfl
@[simp] theorem State.setFn_engMap (f : Nat) (x : FnX) : (s.setFn f x).engMap = s.engMap := rfl
@[simp] theorem State.setFn_failed (f : Nat) (x : FnX) : (s.setFn f x).failed = s.failed := rfl
@[simp] theorem State.setFn_subst (f : Nat) (x : FnX) : (s.setFn f x).subst = s.subst := rfl
@[simp] theorem State.setFn_therm (f : Nat) (x : FnX) : (s.setFn f x).therm = s.therm := rfl
@[simp] theorem State.setFn_sec (f : Nat) (x : FnX) : (s.setFn f x).sec = s.sec := rfl
@[simp] theorem State.setFn_upd (f : Nat) (x : FnX) : (s.setFn f x).upd = s.upd := rfl
@[simp] theorem State.setFn_twin (f : Nat) (x : FnX) : (s.setFn f x).twin = s.twin := rfl
@[simp] theorem State.setFn_tests (f : Nat) (x : FnX) : (s.setFn f x).tests = s.tests := rfl
@[simp] theorem State.setFn_hod (f : Nat) (x : FnX) : (s.setFn f x).hod = s.hod := rfl
@[simp] theorem State.setFn_rx (f : Nat) (x : FnX) : (s.setFn f x).rx = s.rx := rfl
@[simp] theorem State.setFn_tx (f : Nat) (x : FnX) : (s.setFn f x).tx = s.tx := rfl
@[simp] theorem State.setFn_cal (f : Nat) (x : FnX) : (s.setFn f x).cal = s.cal := rfl
@[simp] theorem State.setFn_bst (f : Nat) (x : FnX) : (s.setFn f x).bst = s.bst := rfl
@[simp] theorem State.setFn_shots (f : Nat) (x : FnX) : (s.setFn f x).shots = s.shots := rfl
@[simp] theorem State.setFn_epoch (f : Nat) (x : FnX) : (s.setFn f x).epoch = s.epoch := rfl
@[simp] theorem State.setFn_host (f : Nat) (x : FnX) : (s.setFn f x).host = s.host := rfl
@[simp] theorem State.setFn_htx (f : Nat) (x : FnX) : (s.setFn f x).htx = s.htx := rfl
@[simp] theorem State.setFn_chk (f : Nat) (x : FnX) : (s.setFn f x).chk = s.chk := rfl
@[simp] theorem State.setFn_seeds (f : Nat) (x : FnX) : (s.setFn f x).seeds = s.seeds := rfl
@[simp] theorem State.setFn_retire (f : Nat) (x : FnX) : (s.setFn f x).retire = s.retire := rfl
@[simp] theorem State.setFn_bgFused (f : Nat) (x : FnX) : (s.setFn f x).bgFused = s.bgFused := rfl
@[simp] theorem State.setFn_bgHigh (f : Nat) (x : FnX) : (s.setFn f x).bgHigh = s.bgHigh := rfl
@[simp] theorem State.setFn_bgLow (f : Nat) (x : FnX) : (s.setFn f x).bgLow = s.bgLow := rfl
@[simp] theorem State.setFn_mortar (f : Nat) (x : FnX) : (s.setFn f x).mortar = s.mortar := rfl
@[simp] theorem State.setFn_bias (f : Nat) (x : FnX) : (s.setFn f x).bias = s.bias := rfl
@[simp] theorem State.setFn_scv (f : Nat) (x : FnX) : (s.setFn f x).scv = s.scv := rfl
@[simp] theorem State.setFn_dec (f : Nat) (x : FnX) : (s.setFn f x).dec = s.dec := rfl
@[simp] theorem State.setFn_cmis (f : Nat) (x : FnX) : (s.setFn f x).cmis = s.cmis := rfl
@[simp] theorem State.setFn_eng (f : Nat) (x : FnX) : (s.setFn f x).eng = s.eng := rfl
@[simp] theorem State.setFn_tapIr (f : Nat) (x : FnX) : (s.setFn f x).tapIr = s.tapIr := rfl

/-! `State.setCore` -/

@[simp] theorem State.setCore_time (k : Nat) (x : CoreX) : (s.setCore k x).time = s.time := rfl
@[simp] theorem State.setCore_pending (k : Nat) (x : CoreX) : (s.setCore k x).pending = s.pending := rfl
@[simp] theorem State.setCore_freeCtr (k : Nat) (x : CoreX) : (s.setCore k x).freeCtr = s.freeCtr := rfl
@[simp] theorem State.setCore_out (k : Nat) (x : CoreX) : (s.setCore k x).out = s.out := rfl
@[simp] theorem State.setCore_phase (k : Nat) (x : CoreX) : (s.setCore k x).phase = s.phase := rfl
@[simp] theorem State.setCore_regs (k : Nat) (x : CoreX) : (s.setCore k x).regs = s.regs := rfl
@[simp] theorem State.setCore_rings (k : Nat) (x : CoreX) : (s.setCore k x).rings = s.rings := rfl
@[simp] theorem State.setCore_fns (k : Nat) (x : CoreX) : (s.setCore k x).fns = s.fns := rfl
@[simp] theorem State.setCore_arb (k : Nat) (x : CoreX) : (s.setCore k x).arb = s.arb := rfl
@[simp] theorem State.setCore_vecs (k : Nat) (x : CoreX) : (s.setCore k x).vecs = s.vecs := rfl
@[simp] theorem State.setCore_vfEnable (k : Nat) (x : CoreX) : (s.setCore k x).vfEnable = s.vfEnable := rfl
@[simp] theorem State.setCore_raises (k : Nat) (x : CoreX) : (s.setCore k x).raises = s.raises := rfl
@[simp] theorem State.setCore_held (k : Nat) (x : CoreX) : (s.setCore k x).held = s.held := rfl
@[simp] theorem State.setCore_doorHeld (k : Nat) (x : CoreX) : (s.setCore k x).doorHeld = s.doorHeld := rfl
@[simp] theorem State.setCore_pwr (k : Nat) (x : CoreX) : (s.setCore k x).pwr = s.pwr := rfl
@[simp] theorem State.setCore_engMap (k : Nat) (x : CoreX) : (s.setCore k x).engMap = s.engMap := rfl
@[simp] theorem State.setCore_failed (k : Nat) (x : CoreX) : (s.setCore k x).failed = s.failed := rfl
@[simp] theorem State.setCore_subst (k : Nat) (x : CoreX) : (s.setCore k x).subst = s.subst := rfl
@[simp] theorem State.setCore_therm (k : Nat) (x : CoreX) : (s.setCore k x).therm = s.therm := rfl
@[simp] theorem State.setCore_sec (k : Nat) (x : CoreX) : (s.setCore k x).sec = s.sec := rfl
@[simp] theorem State.setCore_upd (k : Nat) (x : CoreX) : (s.setCore k x).upd = s.upd := rfl
@[simp] theorem State.setCore_twin (k : Nat) (x : CoreX) : (s.setCore k x).twin = s.twin := rfl
@[simp] theorem State.setCore_tests (k : Nat) (x : CoreX) : (s.setCore k x).tests = s.tests := rfl
@[simp] theorem State.setCore_hod (k : Nat) (x : CoreX) : (s.setCore k x).hod = s.hod := rfl
@[simp] theorem State.setCore_rx (k : Nat) (x : CoreX) : (s.setCore k x).rx = s.rx := rfl
@[simp] theorem State.setCore_tx (k : Nat) (x : CoreX) : (s.setCore k x).tx = s.tx := rfl
@[simp] theorem State.setCore_cal (k : Nat) (x : CoreX) : (s.setCore k x).cal = s.cal := rfl
@[simp] theorem State.setCore_bst (k : Nat) (x : CoreX) : (s.setCore k x).bst = s.bst := rfl
@[simp] theorem State.setCore_shots (k : Nat) (x : CoreX) : (s.setCore k x).shots = s.shots := rfl
@[simp] theorem State.setCore_epoch (k : Nat) (x : CoreX) : (s.setCore k x).epoch = s.epoch := rfl
@[simp] theorem State.setCore_host (k : Nat) (x : CoreX) : (s.setCore k x).host = s.host := rfl
@[simp] theorem State.setCore_htx (k : Nat) (x : CoreX) : (s.setCore k x).htx = s.htx := rfl
@[simp] theorem State.setCore_chk (k : Nat) (x : CoreX) : (s.setCore k x).chk = s.chk := rfl
@[simp] theorem State.setCore_seeds (k : Nat) (x : CoreX) : (s.setCore k x).seeds = s.seeds := rfl
@[simp] theorem State.setCore_retire (k : Nat) (x : CoreX) : (s.setCore k x).retire = s.retire := rfl
@[simp] theorem State.setCore_bgFused (k : Nat) (x : CoreX) : (s.setCore k x).bgFused = s.bgFused := rfl
@[simp] theorem State.setCore_bgHigh (k : Nat) (x : CoreX) : (s.setCore k x).bgHigh = s.bgHigh := rfl
@[simp] theorem State.setCore_bgLow (k : Nat) (x : CoreX) : (s.setCore k x).bgLow = s.bgLow := rfl
@[simp] theorem State.setCore_mortar (k : Nat) (x : CoreX) : (s.setCore k x).mortar = s.mortar := rfl
@[simp] theorem State.setCore_bias (k : Nat) (x : CoreX) : (s.setCore k x).bias = s.bias := rfl
@[simp] theorem State.setCore_scv (k : Nat) (x : CoreX) : (s.setCore k x).scv = s.scv := rfl
@[simp] theorem State.setCore_dec (k : Nat) (x : CoreX) : (s.setCore k x).dec = s.dec := rfl
@[simp] theorem State.setCore_cmis (k : Nat) (x : CoreX) : (s.setCore k x).cmis = s.cmis := rfl
@[simp] theorem State.setCore_eng (k : Nat) (x : CoreX) : (s.setCore k x).eng = s.eng := rfl
@[simp] theorem State.setCore_tapIr (k : Nat) (x : CoreX) : (s.setCore k x).tapIr = s.tapIr := rfl

/-! `State.setEngMap` -/

@[simp] theorem State.setEngMap_time (e : Nat) (x : EngMap) : (s.setEngMap e x).time = s.time := rfl
@[simp] theorem State.setEngMap_pending (e : Nat) (x : EngMap) : (s.setEngMap e x).pending = s.pending := rfl
@[simp] theorem State.setEngMap_freeCtr (e : Nat) (x : EngMap) : (s.setEngMap e x).freeCtr = s.freeCtr := rfl
@[simp] theorem State.setEngMap_out (e : Nat) (x : EngMap) : (s.setEngMap e x).out = s.out := rfl
@[simp] theorem State.setEngMap_phase (e : Nat) (x : EngMap) : (s.setEngMap e x).phase = s.phase := rfl
@[simp] theorem State.setEngMap_regs (e : Nat) (x : EngMap) : (s.setEngMap e x).regs = s.regs := rfl
@[simp] theorem State.setEngMap_rings (e : Nat) (x : EngMap) : (s.setEngMap e x).rings = s.rings := rfl
@[simp] theorem State.setEngMap_fns (e : Nat) (x : EngMap) : (s.setEngMap e x).fns = s.fns := rfl
@[simp] theorem State.setEngMap_arb (e : Nat) (x : EngMap) : (s.setEngMap e x).arb = s.arb := rfl
@[simp] theorem State.setEngMap_vecs (e : Nat) (x : EngMap) : (s.setEngMap e x).vecs = s.vecs := rfl
@[simp] theorem State.setEngMap_vfEnable (e : Nat) (x : EngMap) : (s.setEngMap e x).vfEnable = s.vfEnable := rfl
@[simp] theorem State.setEngMap_raises (e : Nat) (x : EngMap) : (s.setEngMap e x).raises = s.raises := rfl
@[simp] theorem State.setEngMap_held (e : Nat) (x : EngMap) : (s.setEngMap e x).held = s.held := rfl
@[simp] theorem State.setEngMap_doorHeld (e : Nat) (x : EngMap) : (s.setEngMap e x).doorHeld = s.doorHeld := rfl
@[simp] theorem State.setEngMap_pwr (e : Nat) (x : EngMap) : (s.setEngMap e x).pwr = s.pwr := rfl
@[simp] theorem State.setEngMap_cores (e : Nat) (x : EngMap) : (s.setEngMap e x).cores = s.cores := rfl
@[simp] theorem State.setEngMap_failed (e : Nat) (x : EngMap) : (s.setEngMap e x).failed = s.failed := rfl
@[simp] theorem State.setEngMap_subst (e : Nat) (x : EngMap) : (s.setEngMap e x).subst = s.subst := rfl
@[simp] theorem State.setEngMap_therm (e : Nat) (x : EngMap) : (s.setEngMap e x).therm = s.therm := rfl
@[simp] theorem State.setEngMap_sec (e : Nat) (x : EngMap) : (s.setEngMap e x).sec = s.sec := rfl
@[simp] theorem State.setEngMap_upd (e : Nat) (x : EngMap) : (s.setEngMap e x).upd = s.upd := rfl
@[simp] theorem State.setEngMap_twin (e : Nat) (x : EngMap) : (s.setEngMap e x).twin = s.twin := rfl
@[simp] theorem State.setEngMap_tests (e : Nat) (x : EngMap) : (s.setEngMap e x).tests = s.tests := rfl
@[simp] theorem State.setEngMap_hod (e : Nat) (x : EngMap) : (s.setEngMap e x).hod = s.hod := rfl
@[simp] theorem State.setEngMap_rx (e : Nat) (x : EngMap) : (s.setEngMap e x).rx = s.rx := rfl
@[simp] theorem State.setEngMap_tx (e : Nat) (x : EngMap) : (s.setEngMap e x).tx = s.tx := rfl
@[simp] theorem State.setEngMap_cal (e : Nat) (x : EngMap) : (s.setEngMap e x).cal = s.cal := rfl
@[simp] theorem State.setEngMap_bst (e : Nat) (x : EngMap) : (s.setEngMap e x).bst = s.bst := rfl
@[simp] theorem State.setEngMap_shots (e : Nat) (x : EngMap) : (s.setEngMap e x).shots = s.shots := rfl
@[simp] theorem State.setEngMap_epoch (e : Nat) (x : EngMap) : (s.setEngMap e x).epoch = s.epoch := rfl
@[simp] theorem State.setEngMap_host (e : Nat) (x : EngMap) : (s.setEngMap e x).host = s.host := rfl
@[simp] theorem State.setEngMap_htx (e : Nat) (x : EngMap) : (s.setEngMap e x).htx = s.htx := rfl
@[simp] theorem State.setEngMap_chk (e : Nat) (x : EngMap) : (s.setEngMap e x).chk = s.chk := rfl
@[simp] theorem State.setEngMap_seeds (e : Nat) (x : EngMap) : (s.setEngMap e x).seeds = s.seeds := rfl
@[simp] theorem State.setEngMap_retire (e : Nat) (x : EngMap) : (s.setEngMap e x).retire = s.retire := rfl
@[simp] theorem State.setEngMap_bgFused (e : Nat) (x : EngMap) : (s.setEngMap e x).bgFused = s.bgFused := rfl
@[simp] theorem State.setEngMap_bgHigh (e : Nat) (x : EngMap) : (s.setEngMap e x).bgHigh = s.bgHigh := rfl
@[simp] theorem State.setEngMap_bgLow (e : Nat) (x : EngMap) : (s.setEngMap e x).bgLow = s.bgLow := rfl
@[simp] theorem State.setEngMap_mortar (e : Nat) (x : EngMap) : (s.setEngMap e x).mortar = s.mortar := rfl
@[simp] theorem State.setEngMap_bias (e : Nat) (x : EngMap) : (s.setEngMap e x).bias = s.bias := rfl
@[simp] theorem State.setEngMap_scv (e : Nat) (x : EngMap) : (s.setEngMap e x).scv = s.scv := rfl
@[simp] theorem State.setEngMap_dec (e : Nat) (x : EngMap) : (s.setEngMap e x).dec = s.dec := rfl
@[simp] theorem State.setEngMap_cmis (e : Nat) (x : EngMap) : (s.setEngMap e x).cmis = s.cmis := rfl
@[simp] theorem State.setEngMap_eng (e : Nat) (x : EngMap) : (s.setEngMap e x).eng = s.eng := rfl
@[simp] theorem State.setEngMap_tapIr (e : Nat) (x : EngMap) : (s.setEngMap e x).tapIr = s.tapIr := rfl

/-! `State.setCoursePow` -/

@[simp] theorem State.setCoursePow_time (c : Nat) (p : CoursePow) : (s.setCoursePow c p).time = s.time := rfl
@[simp] theorem State.setCoursePow_pending (c : Nat) (p : CoursePow) : (s.setCoursePow c p).pending = s.pending := rfl
@[simp] theorem State.setCoursePow_freeCtr (c : Nat) (p : CoursePow) : (s.setCoursePow c p).freeCtr = s.freeCtr := rfl
@[simp] theorem State.setCoursePow_out (c : Nat) (p : CoursePow) : (s.setCoursePow c p).out = s.out := rfl
@[simp] theorem State.setCoursePow_phase (c : Nat) (p : CoursePow) : (s.setCoursePow c p).phase = s.phase := rfl
@[simp] theorem State.setCoursePow_regs (c : Nat) (p : CoursePow) : (s.setCoursePow c p).regs = s.regs := rfl
@[simp] theorem State.setCoursePow_rings (c : Nat) (p : CoursePow) : (s.setCoursePow c p).rings = s.rings := rfl
@[simp] theorem State.setCoursePow_fns (c : Nat) (p : CoursePow) : (s.setCoursePow c p).fns = s.fns := rfl
@[simp] theorem State.setCoursePow_arb (c : Nat) (p : CoursePow) : (s.setCoursePow c p).arb = s.arb := rfl
@[simp] theorem State.setCoursePow_vecs (c : Nat) (p : CoursePow) : (s.setCoursePow c p).vecs = s.vecs := rfl
@[simp] theorem State.setCoursePow_vfEnable (c : Nat) (p : CoursePow) : (s.setCoursePow c p).vfEnable = s.vfEnable := rfl
@[simp] theorem State.setCoursePow_raises (c : Nat) (p : CoursePow) : (s.setCoursePow c p).raises = s.raises := rfl
@[simp] theorem State.setCoursePow_held (c : Nat) (p : CoursePow) : (s.setCoursePow c p).held = s.held := rfl
@[simp] theorem State.setCoursePow_doorHeld (c : Nat) (p : CoursePow) : (s.setCoursePow c p).doorHeld = s.doorHeld := rfl
@[simp] theorem State.setCoursePow_cores (c : Nat) (p : CoursePow) : (s.setCoursePow c p).cores = s.cores := rfl
@[simp] theorem State.setCoursePow_engMap (c : Nat) (p : CoursePow) : (s.setCoursePow c p).engMap = s.engMap := rfl
@[simp] theorem State.setCoursePow_failed (c : Nat) (p : CoursePow) : (s.setCoursePow c p).failed = s.failed := rfl
@[simp] theorem State.setCoursePow_subst (c : Nat) (p : CoursePow) : (s.setCoursePow c p).subst = s.subst := rfl
@[simp] theorem State.setCoursePow_therm (c : Nat) (p : CoursePow) : (s.setCoursePow c p).therm = s.therm := rfl
@[simp] theorem State.setCoursePow_sec (c : Nat) (p : CoursePow) : (s.setCoursePow c p).sec = s.sec := rfl
@[simp] theorem State.setCoursePow_upd (c : Nat) (p : CoursePow) : (s.setCoursePow c p).upd = s.upd := rfl
@[simp] theorem State.setCoursePow_twin (c : Nat) (p : CoursePow) : (s.setCoursePow c p).twin = s.twin := rfl
@[simp] theorem State.setCoursePow_tests (c : Nat) (p : CoursePow) : (s.setCoursePow c p).tests = s.tests := rfl
@[simp] theorem State.setCoursePow_hod (c : Nat) (p : CoursePow) : (s.setCoursePow c p).hod = s.hod := rfl
@[simp] theorem State.setCoursePow_rx (c : Nat) (p : CoursePow) : (s.setCoursePow c p).rx = s.rx := rfl
@[simp] theorem State.setCoursePow_tx (c : Nat) (p : CoursePow) : (s.setCoursePow c p).tx = s.tx := rfl
@[simp] theorem State.setCoursePow_cal (c : Nat) (p : CoursePow) : (s.setCoursePow c p).cal = s.cal := rfl
@[simp] theorem State.setCoursePow_bst (c : Nat) (p : CoursePow) : (s.setCoursePow c p).bst = s.bst := rfl
@[simp] theorem State.setCoursePow_shots (c : Nat) (p : CoursePow) : (s.setCoursePow c p).shots = s.shots := rfl
@[simp] theorem State.setCoursePow_epoch (c : Nat) (p : CoursePow) : (s.setCoursePow c p).epoch = s.epoch := rfl
@[simp] theorem State.setCoursePow_host (c : Nat) (p : CoursePow) : (s.setCoursePow c p).host = s.host := rfl
@[simp] theorem State.setCoursePow_htx (c : Nat) (p : CoursePow) : (s.setCoursePow c p).htx = s.htx := rfl
@[simp] theorem State.setCoursePow_chk (c : Nat) (p : CoursePow) : (s.setCoursePow c p).chk = s.chk := rfl
@[simp] theorem State.setCoursePow_seeds (c : Nat) (p : CoursePow) : (s.setCoursePow c p).seeds = s.seeds := rfl
@[simp] theorem State.setCoursePow_retire (c : Nat) (p : CoursePow) : (s.setCoursePow c p).retire = s.retire := rfl
@[simp] theorem State.setCoursePow_bgFused (c : Nat) (p : CoursePow) : (s.setCoursePow c p).bgFused = s.bgFused := rfl
@[simp] theorem State.setCoursePow_bgHigh (c : Nat) (p : CoursePow) : (s.setCoursePow c p).bgHigh = s.bgHigh := rfl
@[simp] theorem State.setCoursePow_bgLow (c : Nat) (p : CoursePow) : (s.setCoursePow c p).bgLow = s.bgLow := rfl
@[simp] theorem State.setCoursePow_mortar (c : Nat) (p : CoursePow) : (s.setCoursePow c p).mortar = s.mortar := rfl
@[simp] theorem State.setCoursePow_bias (c : Nat) (p : CoursePow) : (s.setCoursePow c p).bias = s.bias := rfl
@[simp] theorem State.setCoursePow_scv (c : Nat) (p : CoursePow) : (s.setCoursePow c p).scv = s.scv := rfl
@[simp] theorem State.setCoursePow_dec (c : Nat) (p : CoursePow) : (s.setCoursePow c p).dec = s.dec := rfl
@[simp] theorem State.setCoursePow_cmis (c : Nat) (p : CoursePow) : (s.setCoursePow c p).cmis = s.cmis := rfl
@[simp] theorem State.setCoursePow_eng (c : Nat) (p : CoursePow) : (s.setCoursePow c p).eng = s.eng := rfl
@[simp] theorem State.setCoursePow_tapIr (c : Nat) (p : CoursePow) : (s.setCoursePow c p).tapIr = s.tapIr := rfl

/-! `State.setQuadOn` -/

@[simp] theorem State.setQuadOn_time (q : Nat) (b : Bool) : (s.setQuadOn q b).time = s.time := rfl
@[simp] theorem State.setQuadOn_pending (q : Nat) (b : Bool) : (s.setQuadOn q b).pending = s.pending := rfl
@[simp] theorem State.setQuadOn_freeCtr (q : Nat) (b : Bool) : (s.setQuadOn q b).freeCtr = s.freeCtr := rfl
@[simp] theorem State.setQuadOn_out (q : Nat) (b : Bool) : (s.setQuadOn q b).out = s.out := rfl
@[simp] theorem State.setQuadOn_phase (q : Nat) (b : Bool) : (s.setQuadOn q b).phase = s.phase := rfl
@[simp] theorem State.setQuadOn_regs (q : Nat) (b : Bool) : (s.setQuadOn q b).regs = s.regs := rfl
@[simp] theorem State.setQuadOn_rings (q : Nat) (b : Bool) : (s.setQuadOn q b).rings = s.rings := rfl
@[simp] theorem State.setQuadOn_fns (q : Nat) (b : Bool) : (s.setQuadOn q b).fns = s.fns := rfl
@[simp] theorem State.setQuadOn_arb (q : Nat) (b : Bool) : (s.setQuadOn q b).arb = s.arb := rfl
@[simp] theorem State.setQuadOn_vecs (q : Nat) (b : Bool) : (s.setQuadOn q b).vecs = s.vecs := rfl
@[simp] theorem State.setQuadOn_vfEnable (q : Nat) (b : Bool) : (s.setQuadOn q b).vfEnable = s.vfEnable := rfl
@[simp] theorem State.setQuadOn_raises (q : Nat) (b : Bool) : (s.setQuadOn q b).raises = s.raises := rfl
@[simp] theorem State.setQuadOn_held (q : Nat) (b : Bool) : (s.setQuadOn q b).held = s.held := rfl
@[simp] theorem State.setQuadOn_doorHeld (q : Nat) (b : Bool) : (s.setQuadOn q b).doorHeld = s.doorHeld := rfl
@[simp] theorem State.setQuadOn_cores (q : Nat) (b : Bool) : (s.setQuadOn q b).cores = s.cores := rfl
@[simp] theorem State.setQuadOn_engMap (q : Nat) (b : Bool) : (s.setQuadOn q b).engMap = s.engMap := rfl
@[simp] theorem State.setQuadOn_failed (q : Nat) (b : Bool) : (s.setQuadOn q b).failed = s.failed := rfl
@[simp] theorem State.setQuadOn_subst (q : Nat) (b : Bool) : (s.setQuadOn q b).subst = s.subst := rfl
@[simp] theorem State.setQuadOn_therm (q : Nat) (b : Bool) : (s.setQuadOn q b).therm = s.therm := rfl
@[simp] theorem State.setQuadOn_sec (q : Nat) (b : Bool) : (s.setQuadOn q b).sec = s.sec := rfl
@[simp] theorem State.setQuadOn_upd (q : Nat) (b : Bool) : (s.setQuadOn q b).upd = s.upd := rfl
@[simp] theorem State.setQuadOn_twin (q : Nat) (b : Bool) : (s.setQuadOn q b).twin = s.twin := rfl
@[simp] theorem State.setQuadOn_tests (q : Nat) (b : Bool) : (s.setQuadOn q b).tests = s.tests := rfl
@[simp] theorem State.setQuadOn_hod (q : Nat) (b : Bool) : (s.setQuadOn q b).hod = s.hod := rfl
@[simp] theorem State.setQuadOn_rx (q : Nat) (b : Bool) : (s.setQuadOn q b).rx = s.rx := rfl
@[simp] theorem State.setQuadOn_tx (q : Nat) (b : Bool) : (s.setQuadOn q b).tx = s.tx := rfl
@[simp] theorem State.setQuadOn_cal (q : Nat) (b : Bool) : (s.setQuadOn q b).cal = s.cal := rfl
@[simp] theorem State.setQuadOn_bst (q : Nat) (b : Bool) : (s.setQuadOn q b).bst = s.bst := rfl
@[simp] theorem State.setQuadOn_shots (q : Nat) (b : Bool) : (s.setQuadOn q b).shots = s.shots := rfl
@[simp] theorem State.setQuadOn_epoch (q : Nat) (b : Bool) : (s.setQuadOn q b).epoch = s.epoch := rfl
@[simp] theorem State.setQuadOn_host (q : Nat) (b : Bool) : (s.setQuadOn q b).host = s.host := rfl
@[simp] theorem State.setQuadOn_htx (q : Nat) (b : Bool) : (s.setQuadOn q b).htx = s.htx := rfl
@[simp] theorem State.setQuadOn_chk (q : Nat) (b : Bool) : (s.setQuadOn q b).chk = s.chk := rfl
@[simp] theorem State.setQuadOn_seeds (q : Nat) (b : Bool) : (s.setQuadOn q b).seeds = s.seeds := rfl
@[simp] theorem State.setQuadOn_retire (q : Nat) (b : Bool) : (s.setQuadOn q b).retire = s.retire := rfl
@[simp] theorem State.setQuadOn_bgFused (q : Nat) (b : Bool) : (s.setQuadOn q b).bgFused = s.bgFused := rfl
@[simp] theorem State.setQuadOn_bgHigh (q : Nat) (b : Bool) : (s.setQuadOn q b).bgHigh = s.bgHigh := rfl
@[simp] theorem State.setQuadOn_bgLow (q : Nat) (b : Bool) : (s.setQuadOn q b).bgLow = s.bgLow := rfl
@[simp] theorem State.setQuadOn_mortar (q : Nat) (b : Bool) : (s.setQuadOn q b).mortar = s.mortar := rfl
@[simp] theorem State.setQuadOn_bias (q : Nat) (b : Bool) : (s.setQuadOn q b).bias = s.bias := rfl
@[simp] theorem State.setQuadOn_scv (q : Nat) (b : Bool) : (s.setQuadOn q b).scv = s.scv := rfl
@[simp] theorem State.setQuadOn_dec (q : Nat) (b : Bool) : (s.setQuadOn q b).dec = s.dec := rfl
@[simp] theorem State.setQuadOn_cmis (q : Nat) (b : Bool) : (s.setQuadOn q b).cmis = s.cmis := rfl
@[simp] theorem State.setQuadOn_eng (q : Nat) (b : Bool) : (s.setQuadOn q b).eng = s.eng := rfl
@[simp] theorem State.setQuadOn_tapIr (q : Nat) (b : Bool) : (s.setQuadOn q b).tapIr = s.tapIr := rfl

/-! `State.setPadHeldC` -/

@[simp] theorem State.setPadHeldC_time (c : Nat) (b : Bool) : (s.setPadHeldC c b).time = s.time := rfl
@[simp] theorem State.setPadHeldC_pending (c : Nat) (b : Bool) : (s.setPadHeldC c b).pending = s.pending := rfl
@[simp] theorem State.setPadHeldC_freeCtr (c : Nat) (b : Bool) : (s.setPadHeldC c b).freeCtr = s.freeCtr := rfl
@[simp] theorem State.setPadHeldC_out (c : Nat) (b : Bool) : (s.setPadHeldC c b).out = s.out := rfl
@[simp] theorem State.setPadHeldC_phase (c : Nat) (b : Bool) : (s.setPadHeldC c b).phase = s.phase := rfl
@[simp] theorem State.setPadHeldC_regs (c : Nat) (b : Bool) : (s.setPadHeldC c b).regs = s.regs := rfl
@[simp] theorem State.setPadHeldC_rings (c : Nat) (b : Bool) : (s.setPadHeldC c b).rings = s.rings := rfl
@[simp] theorem State.setPadHeldC_fns (c : Nat) (b : Bool) : (s.setPadHeldC c b).fns = s.fns := rfl
@[simp] theorem State.setPadHeldC_arb (c : Nat) (b : Bool) : (s.setPadHeldC c b).arb = s.arb := rfl
@[simp] theorem State.setPadHeldC_vecs (c : Nat) (b : Bool) : (s.setPadHeldC c b).vecs = s.vecs := rfl
@[simp] theorem State.setPadHeldC_vfEnable (c : Nat) (b : Bool) : (s.setPadHeldC c b).vfEnable = s.vfEnable := rfl
@[simp] theorem State.setPadHeldC_raises (c : Nat) (b : Bool) : (s.setPadHeldC c b).raises = s.raises := rfl
@[simp] theorem State.setPadHeldC_held (c : Nat) (b : Bool) : (s.setPadHeldC c b).held = s.held := rfl
@[simp] theorem State.setPadHeldC_doorHeld (c : Nat) (b : Bool) : (s.setPadHeldC c b).doorHeld = s.doorHeld := rfl
@[simp] theorem State.setPadHeldC_cores (c : Nat) (b : Bool) : (s.setPadHeldC c b).cores = s.cores := rfl
@[simp] theorem State.setPadHeldC_engMap (c : Nat) (b : Bool) : (s.setPadHeldC c b).engMap = s.engMap := rfl
@[simp] theorem State.setPadHeldC_failed (c : Nat) (b : Bool) : (s.setPadHeldC c b).failed = s.failed := rfl
@[simp] theorem State.setPadHeldC_subst (c : Nat) (b : Bool) : (s.setPadHeldC c b).subst = s.subst := rfl
@[simp] theorem State.setPadHeldC_therm (c : Nat) (b : Bool) : (s.setPadHeldC c b).therm = s.therm := rfl
@[simp] theorem State.setPadHeldC_sec (c : Nat) (b : Bool) : (s.setPadHeldC c b).sec = s.sec := rfl
@[simp] theorem State.setPadHeldC_upd (c : Nat) (b : Bool) : (s.setPadHeldC c b).upd = s.upd := rfl
@[simp] theorem State.setPadHeldC_twin (c : Nat) (b : Bool) : (s.setPadHeldC c b).twin = s.twin := rfl
@[simp] theorem State.setPadHeldC_tests (c : Nat) (b : Bool) : (s.setPadHeldC c b).tests = s.tests := rfl
@[simp] theorem State.setPadHeldC_hod (c : Nat) (b : Bool) : (s.setPadHeldC c b).hod = s.hod := rfl
@[simp] theorem State.setPadHeldC_rx (c : Nat) (b : Bool) : (s.setPadHeldC c b).rx = s.rx := rfl
@[simp] theorem State.setPadHeldC_tx (c : Nat) (b : Bool) : (s.setPadHeldC c b).tx = s.tx := rfl
@[simp] theorem State.setPadHeldC_cal (c : Nat) (b : Bool) : (s.setPadHeldC c b).cal = s.cal := rfl
@[simp] theorem State.setPadHeldC_bst (c : Nat) (b : Bool) : (s.setPadHeldC c b).bst = s.bst := rfl
@[simp] theorem State.setPadHeldC_shots (c : Nat) (b : Bool) : (s.setPadHeldC c b).shots = s.shots := rfl
@[simp] theorem State.setPadHeldC_epoch (c : Nat) (b : Bool) : (s.setPadHeldC c b).epoch = s.epoch := rfl
@[simp] theorem State.setPadHeldC_host (c : Nat) (b : Bool) : (s.setPadHeldC c b).host = s.host := rfl
@[simp] theorem State.setPadHeldC_htx (c : Nat) (b : Bool) : (s.setPadHeldC c b).htx = s.htx := rfl
@[simp] theorem State.setPadHeldC_chk (c : Nat) (b : Bool) : (s.setPadHeldC c b).chk = s.chk := rfl
@[simp] theorem State.setPadHeldC_seeds (c : Nat) (b : Bool) : (s.setPadHeldC c b).seeds = s.seeds := rfl
@[simp] theorem State.setPadHeldC_retire (c : Nat) (b : Bool) : (s.setPadHeldC c b).retire = s.retire := rfl
@[simp] theorem State.setPadHeldC_bgFused (c : Nat) (b : Bool) : (s.setPadHeldC c b).bgFused = s.bgFused := rfl
@[simp] theorem State.setPadHeldC_bgHigh (c : Nat) (b : Bool) : (s.setPadHeldC c b).bgHigh = s.bgHigh := rfl
@[simp] theorem State.setPadHeldC_bgLow (c : Nat) (b : Bool) : (s.setPadHeldC c b).bgLow = s.bgLow := rfl
@[simp] theorem State.setPadHeldC_mortar (c : Nat) (b : Bool) : (s.setPadHeldC c b).mortar = s.mortar := rfl
@[simp] theorem State.setPadHeldC_bias (c : Nat) (b : Bool) : (s.setPadHeldC c b).bias = s.bias := rfl
@[simp] theorem State.setPadHeldC_scv (c : Nat) (b : Bool) : (s.setPadHeldC c b).scv = s.scv := rfl
@[simp] theorem State.setPadHeldC_dec (c : Nat) (b : Bool) : (s.setPadHeldC c b).dec = s.dec := rfl
@[simp] theorem State.setPadHeldC_cmis (c : Nat) (b : Bool) : (s.setPadHeldC c b).cmis = s.cmis := rfl
@[simp] theorem State.setPadHeldC_eng (c : Nat) (b : Bool) : (s.setPadHeldC c b).eng = s.eng := rfl
@[simp] theorem State.setPadHeldC_tapIr (c : Nat) (b : Bool) : (s.setPadHeldC c b).tapIr = s.tapIr := rfl

/-! `State.setPadHeldQ` -/

@[simp] theorem State.setPadHeldQ_time (q : Nat) (b : Bool) : (s.setPadHeldQ q b).time = s.time := rfl
@[simp] theorem State.setPadHeldQ_pending (q : Nat) (b : Bool) : (s.setPadHeldQ q b).pending = s.pending := rfl
@[simp] theorem State.setPadHeldQ_freeCtr (q : Nat) (b : Bool) : (s.setPadHeldQ q b).freeCtr = s.freeCtr := rfl
@[simp] theorem State.setPadHeldQ_out (q : Nat) (b : Bool) : (s.setPadHeldQ q b).out = s.out := rfl
@[simp] theorem State.setPadHeldQ_phase (q : Nat) (b : Bool) : (s.setPadHeldQ q b).phase = s.phase := rfl
@[simp] theorem State.setPadHeldQ_regs (q : Nat) (b : Bool) : (s.setPadHeldQ q b).regs = s.regs := rfl
@[simp] theorem State.setPadHeldQ_rings (q : Nat) (b : Bool) : (s.setPadHeldQ q b).rings = s.rings := rfl
@[simp] theorem State.setPadHeldQ_fns (q : Nat) (b : Bool) : (s.setPadHeldQ q b).fns = s.fns := rfl
@[simp] theorem State.setPadHeldQ_arb (q : Nat) (b : Bool) : (s.setPadHeldQ q b).arb = s.arb := rfl
@[simp] theorem State.setPadHeldQ_vecs (q : Nat) (b : Bool) : (s.setPadHeldQ q b).vecs = s.vecs := rfl
@[simp] theorem State.setPadHeldQ_vfEnable (q : Nat) (b : Bool) : (s.setPadHeldQ q b).vfEnable = s.vfEnable := rfl
@[simp] theorem State.setPadHeldQ_raises (q : Nat) (b : Bool) : (s.setPadHeldQ q b).raises = s.raises := rfl
@[simp] theorem State.setPadHeldQ_held (q : Nat) (b : Bool) : (s.setPadHeldQ q b).held = s.held := rfl
@[simp] theorem State.setPadHeldQ_doorHeld (q : Nat) (b : Bool) : (s.setPadHeldQ q b).doorHeld = s.doorHeld := rfl
@[simp] theorem State.setPadHeldQ_cores (q : Nat) (b : Bool) : (s.setPadHeldQ q b).cores = s.cores := rfl
@[simp] theorem State.setPadHeldQ_engMap (q : Nat) (b : Bool) : (s.setPadHeldQ q b).engMap = s.engMap := rfl
@[simp] theorem State.setPadHeldQ_failed (q : Nat) (b : Bool) : (s.setPadHeldQ q b).failed = s.failed := rfl
@[simp] theorem State.setPadHeldQ_subst (q : Nat) (b : Bool) : (s.setPadHeldQ q b).subst = s.subst := rfl
@[simp] theorem State.setPadHeldQ_therm (q : Nat) (b : Bool) : (s.setPadHeldQ q b).therm = s.therm := rfl
@[simp] theorem State.setPadHeldQ_sec (q : Nat) (b : Bool) : (s.setPadHeldQ q b).sec = s.sec := rfl
@[simp] theorem State.setPadHeldQ_upd (q : Nat) (b : Bool) : (s.setPadHeldQ q b).upd = s.upd := rfl
@[simp] theorem State.setPadHeldQ_twin (q : Nat) (b : Bool) : (s.setPadHeldQ q b).twin = s.twin := rfl
@[simp] theorem State.setPadHeldQ_tests (q : Nat) (b : Bool) : (s.setPadHeldQ q b).tests = s.tests := rfl
@[simp] theorem State.setPadHeldQ_hod (q : Nat) (b : Bool) : (s.setPadHeldQ q b).hod = s.hod := rfl
@[simp] theorem State.setPadHeldQ_rx (q : Nat) (b : Bool) : (s.setPadHeldQ q b).rx = s.rx := rfl
@[simp] theorem State.setPadHeldQ_tx (q : Nat) (b : Bool) : (s.setPadHeldQ q b).tx = s.tx := rfl
@[simp] theorem State.setPadHeldQ_cal (q : Nat) (b : Bool) : (s.setPadHeldQ q b).cal = s.cal := rfl
@[simp] theorem State.setPadHeldQ_bst (q : Nat) (b : Bool) : (s.setPadHeldQ q b).bst = s.bst := rfl
@[simp] theorem State.setPadHeldQ_shots (q : Nat) (b : Bool) : (s.setPadHeldQ q b).shots = s.shots := rfl
@[simp] theorem State.setPadHeldQ_epoch (q : Nat) (b : Bool) : (s.setPadHeldQ q b).epoch = s.epoch := rfl
@[simp] theorem State.setPadHeldQ_host (q : Nat) (b : Bool) : (s.setPadHeldQ q b).host = s.host := rfl
@[simp] theorem State.setPadHeldQ_htx (q : Nat) (b : Bool) : (s.setPadHeldQ q b).htx = s.htx := rfl
@[simp] theorem State.setPadHeldQ_chk (q : Nat) (b : Bool) : (s.setPadHeldQ q b).chk = s.chk := rfl
@[simp] theorem State.setPadHeldQ_seeds (q : Nat) (b : Bool) : (s.setPadHeldQ q b).seeds = s.seeds := rfl
@[simp] theorem State.setPadHeldQ_retire (q : Nat) (b : Bool) : (s.setPadHeldQ q b).retire = s.retire := rfl
@[simp] theorem State.setPadHeldQ_bgFused (q : Nat) (b : Bool) : (s.setPadHeldQ q b).bgFused = s.bgFused := rfl
@[simp] theorem State.setPadHeldQ_bgHigh (q : Nat) (b : Bool) : (s.setPadHeldQ q b).bgHigh = s.bgHigh := rfl
@[simp] theorem State.setPadHeldQ_bgLow (q : Nat) (b : Bool) : (s.setPadHeldQ q b).bgLow = s.bgLow := rfl
@[simp] theorem State.setPadHeldQ_mortar (q : Nat) (b : Bool) : (s.setPadHeldQ q b).mortar = s.mortar := rfl
@[simp] theorem State.setPadHeldQ_bias (q : Nat) (b : Bool) : (s.setPadHeldQ q b).bias = s.bias := rfl
@[simp] theorem State.setPadHeldQ_scv (q : Nat) (b : Bool) : (s.setPadHeldQ q b).scv = s.scv := rfl
@[simp] theorem State.setPadHeldQ_dec (q : Nat) (b : Bool) : (s.setPadHeldQ q b).dec = s.dec := rfl
@[simp] theorem State.setPadHeldQ_cmis (q : Nat) (b : Bool) : (s.setPadHeldQ q b).cmis = s.cmis := rfl
@[simp] theorem State.setPadHeldQ_eng (q : Nat) (b : Bool) : (s.setPadHeldQ q b).eng = s.eng := rfl
@[simp] theorem State.setPadHeldQ_tapIr (q : Nat) (b : Bool) : (s.setPadHeldQ q b).tapIr = s.tapIr := rfl

/-! `State.setPadLatch` -/

@[simp] theorem State.setPadLatch_time (c : Nat) (x : PadLatch) : (s.setPadLatch c x).time = s.time := rfl
@[simp] theorem State.setPadLatch_pending (c : Nat) (x : PadLatch) : (s.setPadLatch c x).pending = s.pending := rfl
@[simp] theorem State.setPadLatch_freeCtr (c : Nat) (x : PadLatch) : (s.setPadLatch c x).freeCtr = s.freeCtr := rfl
@[simp] theorem State.setPadLatch_out (c : Nat) (x : PadLatch) : (s.setPadLatch c x).out = s.out := rfl
@[simp] theorem State.setPadLatch_phase (c : Nat) (x : PadLatch) : (s.setPadLatch c x).phase = s.phase := rfl
@[simp] theorem State.setPadLatch_regs (c : Nat) (x : PadLatch) : (s.setPadLatch c x).regs = s.regs := rfl
@[simp] theorem State.setPadLatch_rings (c : Nat) (x : PadLatch) : (s.setPadLatch c x).rings = s.rings := rfl
@[simp] theorem State.setPadLatch_fns (c : Nat) (x : PadLatch) : (s.setPadLatch c x).fns = s.fns := rfl
@[simp] theorem State.setPadLatch_arb (c : Nat) (x : PadLatch) : (s.setPadLatch c x).arb = s.arb := rfl
@[simp] theorem State.setPadLatch_vecs (c : Nat) (x : PadLatch) : (s.setPadLatch c x).vecs = s.vecs := rfl
@[simp] theorem State.setPadLatch_vfEnable (c : Nat) (x : PadLatch) : (s.setPadLatch c x).vfEnable = s.vfEnable := rfl
@[simp] theorem State.setPadLatch_raises (c : Nat) (x : PadLatch) : (s.setPadLatch c x).raises = s.raises := rfl
@[simp] theorem State.setPadLatch_held (c : Nat) (x : PadLatch) : (s.setPadLatch c x).held = s.held := rfl
@[simp] theorem State.setPadLatch_doorHeld (c : Nat) (x : PadLatch) : (s.setPadLatch c x).doorHeld = s.doorHeld := rfl
@[simp] theorem State.setPadLatch_cores (c : Nat) (x : PadLatch) : (s.setPadLatch c x).cores = s.cores := rfl
@[simp] theorem State.setPadLatch_engMap (c : Nat) (x : PadLatch) : (s.setPadLatch c x).engMap = s.engMap := rfl
@[simp] theorem State.setPadLatch_failed (c : Nat) (x : PadLatch) : (s.setPadLatch c x).failed = s.failed := rfl
@[simp] theorem State.setPadLatch_subst (c : Nat) (x : PadLatch) : (s.setPadLatch c x).subst = s.subst := rfl
@[simp] theorem State.setPadLatch_therm (c : Nat) (x : PadLatch) : (s.setPadLatch c x).therm = s.therm := rfl
@[simp] theorem State.setPadLatch_sec (c : Nat) (x : PadLatch) : (s.setPadLatch c x).sec = s.sec := rfl
@[simp] theorem State.setPadLatch_upd (c : Nat) (x : PadLatch) : (s.setPadLatch c x).upd = s.upd := rfl
@[simp] theorem State.setPadLatch_twin (c : Nat) (x : PadLatch) : (s.setPadLatch c x).twin = s.twin := rfl
@[simp] theorem State.setPadLatch_tests (c : Nat) (x : PadLatch) : (s.setPadLatch c x).tests = s.tests := rfl
@[simp] theorem State.setPadLatch_hod (c : Nat) (x : PadLatch) : (s.setPadLatch c x).hod = s.hod := rfl
@[simp] theorem State.setPadLatch_rx (c : Nat) (x : PadLatch) : (s.setPadLatch c x).rx = s.rx := rfl
@[simp] theorem State.setPadLatch_tx (c : Nat) (x : PadLatch) : (s.setPadLatch c x).tx = s.tx := rfl
@[simp] theorem State.setPadLatch_cal (c : Nat) (x : PadLatch) : (s.setPadLatch c x).cal = s.cal := rfl
@[simp] theorem State.setPadLatch_bst (c : Nat) (x : PadLatch) : (s.setPadLatch c x).bst = s.bst := rfl
@[simp] theorem State.setPadLatch_shots (c : Nat) (x : PadLatch) : (s.setPadLatch c x).shots = s.shots := rfl
@[simp] theorem State.setPadLatch_epoch (c : Nat) (x : PadLatch) : (s.setPadLatch c x).epoch = s.epoch := rfl
@[simp] theorem State.setPadLatch_host (c : Nat) (x : PadLatch) : (s.setPadLatch c x).host = s.host := rfl
@[simp] theorem State.setPadLatch_htx (c : Nat) (x : PadLatch) : (s.setPadLatch c x).htx = s.htx := rfl
@[simp] theorem State.setPadLatch_chk (c : Nat) (x : PadLatch) : (s.setPadLatch c x).chk = s.chk := rfl
@[simp] theorem State.setPadLatch_seeds (c : Nat) (x : PadLatch) : (s.setPadLatch c x).seeds = s.seeds := rfl
@[simp] theorem State.setPadLatch_retire (c : Nat) (x : PadLatch) : (s.setPadLatch c x).retire = s.retire := rfl
@[simp] theorem State.setPadLatch_bgFused (c : Nat) (x : PadLatch) : (s.setPadLatch c x).bgFused = s.bgFused := rfl
@[simp] theorem State.setPadLatch_bgHigh (c : Nat) (x : PadLatch) : (s.setPadLatch c x).bgHigh = s.bgHigh := rfl
@[simp] theorem State.setPadLatch_bgLow (c : Nat) (x : PadLatch) : (s.setPadLatch c x).bgLow = s.bgLow := rfl
@[simp] theorem State.setPadLatch_mortar (c : Nat) (x : PadLatch) : (s.setPadLatch c x).mortar = s.mortar := rfl
@[simp] theorem State.setPadLatch_bias (c : Nat) (x : PadLatch) : (s.setPadLatch c x).bias = s.bias := rfl
@[simp] theorem State.setPadLatch_scv (c : Nat) (x : PadLatch) : (s.setPadLatch c x).scv = s.scv := rfl
@[simp] theorem State.setPadLatch_dec (c : Nat) (x : PadLatch) : (s.setPadLatch c x).dec = s.dec := rfl
@[simp] theorem State.setPadLatch_cmis (c : Nat) (x : PadLatch) : (s.setPadLatch c x).cmis = s.cmis := rfl
@[simp] theorem State.setPadLatch_eng (c : Nat) (x : PadLatch) : (s.setPadLatch c x).eng = s.eng := rfl
@[simp] theorem State.setPadLatch_tapIr (c : Nat) (x : PadLatch) : (s.setPadLatch c x).tapIr = s.tapIr := rfl

/-! `State.setVec` -/

@[simp] theorem State.setVec_time (f v : Nat) (x : Vec) : (s.setVec f v x).time = s.time := rfl
@[simp] theorem State.setVec_pending (f v : Nat) (x : Vec) : (s.setVec f v x).pending = s.pending := rfl
@[simp] theorem State.setVec_freeCtr (f v : Nat) (x : Vec) : (s.setVec f v x).freeCtr = s.freeCtr := rfl
@[simp] theorem State.setVec_out (f v : Nat) (x : Vec) : (s.setVec f v x).out = s.out := rfl
@[simp] theorem State.setVec_phase (f v : Nat) (x : Vec) : (s.setVec f v x).phase = s.phase := rfl
@[simp] theorem State.setVec_regs (f v : Nat) (x : Vec) : (s.setVec f v x).regs = s.regs := rfl
@[simp] theorem State.setVec_rings (f v : Nat) (x : Vec) : (s.setVec f v x).rings = s.rings := rfl
@[simp] theorem State.setVec_fns (f v : Nat) (x : Vec) : (s.setVec f v x).fns = s.fns := rfl
@[simp] theorem State.setVec_arb (f v : Nat) (x : Vec) : (s.setVec f v x).arb = s.arb := rfl
@[simp] theorem State.setVec_vfEnable (f v : Nat) (x : Vec) : (s.setVec f v x).vfEnable = s.vfEnable := rfl
@[simp] theorem State.setVec_raises (f v : Nat) (x : Vec) : (s.setVec f v x).raises = s.raises := rfl
@[simp] theorem State.setVec_held (f v : Nat) (x : Vec) : (s.setVec f v x).held = s.held := rfl
@[simp] theorem State.setVec_doorHeld (f v : Nat) (x : Vec) : (s.setVec f v x).doorHeld = s.doorHeld := rfl
@[simp] theorem State.setVec_pwr (f v : Nat) (x : Vec) : (s.setVec f v x).pwr = s.pwr := rfl
@[simp] theorem State.setVec_cores (f v : Nat) (x : Vec) : (s.setVec f v x).cores = s.cores := rfl
@[simp] theorem State.setVec_engMap (f v : Nat) (x : Vec) : (s.setVec f v x).engMap = s.engMap := rfl
@[simp] theorem State.setVec_failed (f v : Nat) (x : Vec) : (s.setVec f v x).failed = s.failed := rfl
@[simp] theorem State.setVec_subst (f v : Nat) (x : Vec) : (s.setVec f v x).subst = s.subst := rfl
@[simp] theorem State.setVec_therm (f v : Nat) (x : Vec) : (s.setVec f v x).therm = s.therm := rfl
@[simp] theorem State.setVec_sec (f v : Nat) (x : Vec) : (s.setVec f v x).sec = s.sec := rfl
@[simp] theorem State.setVec_upd (f v : Nat) (x : Vec) : (s.setVec f v x).upd = s.upd := rfl
@[simp] theorem State.setVec_twin (f v : Nat) (x : Vec) : (s.setVec f v x).twin = s.twin := rfl
@[simp] theorem State.setVec_tests (f v : Nat) (x : Vec) : (s.setVec f v x).tests = s.tests := rfl
@[simp] theorem State.setVec_hod (f v : Nat) (x : Vec) : (s.setVec f v x).hod = s.hod := rfl
@[simp] theorem State.setVec_rx (f v : Nat) (x : Vec) : (s.setVec f v x).rx = s.rx := rfl
@[simp] theorem State.setVec_tx (f v : Nat) (x : Vec) : (s.setVec f v x).tx = s.tx := rfl
@[simp] theorem State.setVec_cal (f v : Nat) (x : Vec) : (s.setVec f v x).cal = s.cal := rfl
@[simp] theorem State.setVec_bst (f v : Nat) (x : Vec) : (s.setVec f v x).bst = s.bst := rfl
@[simp] theorem State.setVec_shots (f v : Nat) (x : Vec) : (s.setVec f v x).shots = s.shots := rfl
@[simp] theorem State.setVec_epoch (f v : Nat) (x : Vec) : (s.setVec f v x).epoch = s.epoch := rfl
@[simp] theorem State.setVec_host (f v : Nat) (x : Vec) : (s.setVec f v x).host = s.host := rfl
@[simp] theorem State.setVec_htx (f v : Nat) (x : Vec) : (s.setVec f v x).htx = s.htx := rfl
@[simp] theorem State.setVec_chk (f v : Nat) (x : Vec) : (s.setVec f v x).chk = s.chk := rfl
@[simp] theorem State.setVec_seeds (f v : Nat) (x : Vec) : (s.setVec f v x).seeds = s.seeds := rfl
@[simp] theorem State.setVec_retire (f v : Nat) (x : Vec) : (s.setVec f v x).retire = s.retire := rfl
@[simp] theorem State.setVec_bgFused (f v : Nat) (x : Vec) : (s.setVec f v x).bgFused = s.bgFused := rfl
@[simp] theorem State.setVec_bgHigh (f v : Nat) (x : Vec) : (s.setVec f v x).bgHigh = s.bgHigh := rfl
@[simp] theorem State.setVec_bgLow (f v : Nat) (x : Vec) : (s.setVec f v x).bgLow = s.bgLow := rfl
@[simp] theorem State.setVec_mortar (f v : Nat) (x : Vec) : (s.setVec f v x).mortar = s.mortar := rfl
@[simp] theorem State.setVec_bias (f v : Nat) (x : Vec) : (s.setVec f v x).bias = s.bias := rfl
@[simp] theorem State.setVec_scv (f v : Nat) (x : Vec) : (s.setVec f v x).scv = s.scv := rfl
@[simp] theorem State.setVec_dec (f v : Nat) (x : Vec) : (s.setVec f v x).dec = s.dec := rfl
@[simp] theorem State.setVec_cmis (f v : Nat) (x : Vec) : (s.setVec f v x).cmis = s.cmis := rfl
@[simp] theorem State.setVec_eng (f v : Nat) (x : Vec) : (s.setVec f v x).eng = s.eng := rfl
@[simp] theorem State.setVec_tapIr (f v : Nat) (x : Vec) : (s.setVec f v x).tapIr = s.tapIr := rfl

/-! `State.setRx` -/

@[simp] theorem State.setRx_time (n : Nat) (x : RxX) : (s.setRx n x).time = s.time := rfl
@[simp] theorem State.setRx_pending (n : Nat) (x : RxX) : (s.setRx n x).pending = s.pending := rfl
@[simp] theorem State.setRx_freeCtr (n : Nat) (x : RxX) : (s.setRx n x).freeCtr = s.freeCtr := rfl
@[simp] theorem State.setRx_out (n : Nat) (x : RxX) : (s.setRx n x).out = s.out := rfl
@[simp] theorem State.setRx_phase (n : Nat) (x : RxX) : (s.setRx n x).phase = s.phase := rfl
@[simp] theorem State.setRx_regs (n : Nat) (x : RxX) : (s.setRx n x).regs = s.regs := rfl
@[simp] theorem State.setRx_rings (n : Nat) (x : RxX) : (s.setRx n x).rings = s.rings := rfl
@[simp] theorem State.setRx_fns (n : Nat) (x : RxX) : (s.setRx n x).fns = s.fns := rfl
@[simp] theorem State.setRx_arb (n : Nat) (x : RxX) : (s.setRx n x).arb = s.arb := rfl
@[simp] theorem State.setRx_vecs (n : Nat) (x : RxX) : (s.setRx n x).vecs = s.vecs := rfl
@[simp] theorem State.setRx_vfEnable (n : Nat) (x : RxX) : (s.setRx n x).vfEnable = s.vfEnable := rfl
@[simp] theorem State.setRx_raises (n : Nat) (x : RxX) : (s.setRx n x).raises = s.raises := rfl
@[simp] theorem State.setRx_held (n : Nat) (x : RxX) : (s.setRx n x).held = s.held := rfl
@[simp] theorem State.setRx_doorHeld (n : Nat) (x : RxX) : (s.setRx n x).doorHeld = s.doorHeld := rfl
@[simp] theorem State.setRx_pwr (n : Nat) (x : RxX) : (s.setRx n x).pwr = s.pwr := rfl
@[simp] theorem State.setRx_cores (n : Nat) (x : RxX) : (s.setRx n x).cores = s.cores := rfl
@[simp] theorem State.setRx_engMap (n : Nat) (x : RxX) : (s.setRx n x).engMap = s.engMap := rfl
@[simp] theorem State.setRx_failed (n : Nat) (x : RxX) : (s.setRx n x).failed = s.failed := rfl
@[simp] theorem State.setRx_subst (n : Nat) (x : RxX) : (s.setRx n x).subst = s.subst := rfl
@[simp] theorem State.setRx_therm (n : Nat) (x : RxX) : (s.setRx n x).therm = s.therm := rfl
@[simp] theorem State.setRx_sec (n : Nat) (x : RxX) : (s.setRx n x).sec = s.sec := rfl
@[simp] theorem State.setRx_upd (n : Nat) (x : RxX) : (s.setRx n x).upd = s.upd := rfl
@[simp] theorem State.setRx_twin (n : Nat) (x : RxX) : (s.setRx n x).twin = s.twin := rfl
@[simp] theorem State.setRx_tests (n : Nat) (x : RxX) : (s.setRx n x).tests = s.tests := rfl
@[simp] theorem State.setRx_hod (n : Nat) (x : RxX) : (s.setRx n x).hod = s.hod := rfl
@[simp] theorem State.setRx_tx (n : Nat) (x : RxX) : (s.setRx n x).tx = s.tx := rfl
@[simp] theorem State.setRx_cal (n : Nat) (x : RxX) : (s.setRx n x).cal = s.cal := rfl
@[simp] theorem State.setRx_bst (n : Nat) (x : RxX) : (s.setRx n x).bst = s.bst := rfl
@[simp] theorem State.setRx_shots (n : Nat) (x : RxX) : (s.setRx n x).shots = s.shots := rfl
@[simp] theorem State.setRx_epoch (n : Nat) (x : RxX) : (s.setRx n x).epoch = s.epoch := rfl
@[simp] theorem State.setRx_host (n : Nat) (x : RxX) : (s.setRx n x).host = s.host := rfl
@[simp] theorem State.setRx_htx (n : Nat) (x : RxX) : (s.setRx n x).htx = s.htx := rfl
@[simp] theorem State.setRx_chk (n : Nat) (x : RxX) : (s.setRx n x).chk = s.chk := rfl
@[simp] theorem State.setRx_seeds (n : Nat) (x : RxX) : (s.setRx n x).seeds = s.seeds := rfl
@[simp] theorem State.setRx_retire (n : Nat) (x : RxX) : (s.setRx n x).retire = s.retire := rfl
@[simp] theorem State.setRx_bgFused (n : Nat) (x : RxX) : (s.setRx n x).bgFused = s.bgFused := rfl
@[simp] theorem State.setRx_bgHigh (n : Nat) (x : RxX) : (s.setRx n x).bgHigh = s.bgHigh := rfl
@[simp] theorem State.setRx_bgLow (n : Nat) (x : RxX) : (s.setRx n x).bgLow = s.bgLow := rfl
@[simp] theorem State.setRx_mortar (n : Nat) (x : RxX) : (s.setRx n x).mortar = s.mortar := rfl
@[simp] theorem State.setRx_bias (n : Nat) (x : RxX) : (s.setRx n x).bias = s.bias := rfl
@[simp] theorem State.setRx_scv (n : Nat) (x : RxX) : (s.setRx n x).scv = s.scv := rfl
@[simp] theorem State.setRx_dec (n : Nat) (x : RxX) : (s.setRx n x).dec = s.dec := rfl
@[simp] theorem State.setRx_cmis (n : Nat) (x : RxX) : (s.setRx n x).cmis = s.cmis := rfl
@[simp] theorem State.setRx_eng (n : Nat) (x : RxX) : (s.setRx n x).eng = s.eng := rfl
@[simp] theorem State.setRx_tapIr (n : Nat) (x : RxX) : (s.setRx n x).tapIr = s.tapIr := rfl

/-! `State.setTx` -/

@[simp] theorem State.setTx_time (n : Nat) (x : TxX) : (s.setTx n x).time = s.time := rfl
@[simp] theorem State.setTx_pending (n : Nat) (x : TxX) : (s.setTx n x).pending = s.pending := rfl
@[simp] theorem State.setTx_freeCtr (n : Nat) (x : TxX) : (s.setTx n x).freeCtr = s.freeCtr := rfl
@[simp] theorem State.setTx_out (n : Nat) (x : TxX) : (s.setTx n x).out = s.out := rfl
@[simp] theorem State.setTx_phase (n : Nat) (x : TxX) : (s.setTx n x).phase = s.phase := rfl
@[simp] theorem State.setTx_regs (n : Nat) (x : TxX) : (s.setTx n x).regs = s.regs := rfl
@[simp] theorem State.setTx_rings (n : Nat) (x : TxX) : (s.setTx n x).rings = s.rings := rfl
@[simp] theorem State.setTx_fns (n : Nat) (x : TxX) : (s.setTx n x).fns = s.fns := rfl
@[simp] theorem State.setTx_arb (n : Nat) (x : TxX) : (s.setTx n x).arb = s.arb := rfl
@[simp] theorem State.setTx_vecs (n : Nat) (x : TxX) : (s.setTx n x).vecs = s.vecs := rfl
@[simp] theorem State.setTx_vfEnable (n : Nat) (x : TxX) : (s.setTx n x).vfEnable = s.vfEnable := rfl
@[simp] theorem State.setTx_raises (n : Nat) (x : TxX) : (s.setTx n x).raises = s.raises := rfl
@[simp] theorem State.setTx_held (n : Nat) (x : TxX) : (s.setTx n x).held = s.held := rfl
@[simp] theorem State.setTx_doorHeld (n : Nat) (x : TxX) : (s.setTx n x).doorHeld = s.doorHeld := rfl
@[simp] theorem State.setTx_pwr (n : Nat) (x : TxX) : (s.setTx n x).pwr = s.pwr := rfl
@[simp] theorem State.setTx_cores (n : Nat) (x : TxX) : (s.setTx n x).cores = s.cores := rfl
@[simp] theorem State.setTx_engMap (n : Nat) (x : TxX) : (s.setTx n x).engMap = s.engMap := rfl
@[simp] theorem State.setTx_failed (n : Nat) (x : TxX) : (s.setTx n x).failed = s.failed := rfl
@[simp] theorem State.setTx_subst (n : Nat) (x : TxX) : (s.setTx n x).subst = s.subst := rfl
@[simp] theorem State.setTx_therm (n : Nat) (x : TxX) : (s.setTx n x).therm = s.therm := rfl
@[simp] theorem State.setTx_sec (n : Nat) (x : TxX) : (s.setTx n x).sec = s.sec := rfl
@[simp] theorem State.setTx_upd (n : Nat) (x : TxX) : (s.setTx n x).upd = s.upd := rfl
@[simp] theorem State.setTx_twin (n : Nat) (x : TxX) : (s.setTx n x).twin = s.twin := rfl
@[simp] theorem State.setTx_tests (n : Nat) (x : TxX) : (s.setTx n x).tests = s.tests := rfl
@[simp] theorem State.setTx_hod (n : Nat) (x : TxX) : (s.setTx n x).hod = s.hod := rfl
@[simp] theorem State.setTx_rx (n : Nat) (x : TxX) : (s.setTx n x).rx = s.rx := rfl
@[simp] theorem State.setTx_cal (n : Nat) (x : TxX) : (s.setTx n x).cal = s.cal := rfl
@[simp] theorem State.setTx_bst (n : Nat) (x : TxX) : (s.setTx n x).bst = s.bst := rfl
@[simp] theorem State.setTx_shots (n : Nat) (x : TxX) : (s.setTx n x).shots = s.shots := rfl
@[simp] theorem State.setTx_epoch (n : Nat) (x : TxX) : (s.setTx n x).epoch = s.epoch := rfl
@[simp] theorem State.setTx_host (n : Nat) (x : TxX) : (s.setTx n x).host = s.host := rfl
@[simp] theorem State.setTx_htx (n : Nat) (x : TxX) : (s.setTx n x).htx = s.htx := rfl
@[simp] theorem State.setTx_chk (n : Nat) (x : TxX) : (s.setTx n x).chk = s.chk := rfl
@[simp] theorem State.setTx_seeds (n : Nat) (x : TxX) : (s.setTx n x).seeds = s.seeds := rfl
@[simp] theorem State.setTx_retire (n : Nat) (x : TxX) : (s.setTx n x).retire = s.retire := rfl
@[simp] theorem State.setTx_bgFused (n : Nat) (x : TxX) : (s.setTx n x).bgFused = s.bgFused := rfl
@[simp] theorem State.setTx_bgHigh (n : Nat) (x : TxX) : (s.setTx n x).bgHigh = s.bgHigh := rfl
@[simp] theorem State.setTx_bgLow (n : Nat) (x : TxX) : (s.setTx n x).bgLow = s.bgLow := rfl
@[simp] theorem State.setTx_mortar (n : Nat) (x : TxX) : (s.setTx n x).mortar = s.mortar := rfl
@[simp] theorem State.setTx_bias (n : Nat) (x : TxX) : (s.setTx n x).bias = s.bias := rfl
@[simp] theorem State.setTx_scv (n : Nat) (x : TxX) : (s.setTx n x).scv = s.scv := rfl
@[simp] theorem State.setTx_dec (n : Nat) (x : TxX) : (s.setTx n x).dec = s.dec := rfl
@[simp] theorem State.setTx_cmis (n : Nat) (x : TxX) : (s.setTx n x).cmis = s.cmis := rfl
@[simp] theorem State.setTx_eng (n : Nat) (x : TxX) : (s.setTx n x).eng = s.eng := rfl
@[simp] theorem State.setTx_tapIr (n : Nat) (x : TxX) : (s.setTx n x).tapIr = s.tapIr := rfl

/-! `State.setCal` -/

@[simp] theorem State.setCal_time (n : Nat) (x : CalX) : (s.setCal n x).time = s.time := rfl
@[simp] theorem State.setCal_pending (n : Nat) (x : CalX) : (s.setCal n x).pending = s.pending := rfl
@[simp] theorem State.setCal_freeCtr (n : Nat) (x : CalX) : (s.setCal n x).freeCtr = s.freeCtr := rfl
@[simp] theorem State.setCal_out (n : Nat) (x : CalX) : (s.setCal n x).out = s.out := rfl
@[simp] theorem State.setCal_phase (n : Nat) (x : CalX) : (s.setCal n x).phase = s.phase := rfl
@[simp] theorem State.setCal_regs (n : Nat) (x : CalX) : (s.setCal n x).regs = s.regs := rfl
@[simp] theorem State.setCal_rings (n : Nat) (x : CalX) : (s.setCal n x).rings = s.rings := rfl
@[simp] theorem State.setCal_fns (n : Nat) (x : CalX) : (s.setCal n x).fns = s.fns := rfl
@[simp] theorem State.setCal_arb (n : Nat) (x : CalX) : (s.setCal n x).arb = s.arb := rfl
@[simp] theorem State.setCal_vecs (n : Nat) (x : CalX) : (s.setCal n x).vecs = s.vecs := rfl
@[simp] theorem State.setCal_vfEnable (n : Nat) (x : CalX) : (s.setCal n x).vfEnable = s.vfEnable := rfl
@[simp] theorem State.setCal_raises (n : Nat) (x : CalX) : (s.setCal n x).raises = s.raises := rfl
@[simp] theorem State.setCal_held (n : Nat) (x : CalX) : (s.setCal n x).held = s.held := rfl
@[simp] theorem State.setCal_doorHeld (n : Nat) (x : CalX) : (s.setCal n x).doorHeld = s.doorHeld := rfl
@[simp] theorem State.setCal_pwr (n : Nat) (x : CalX) : (s.setCal n x).pwr = s.pwr := rfl
@[simp] theorem State.setCal_cores (n : Nat) (x : CalX) : (s.setCal n x).cores = s.cores := rfl
@[simp] theorem State.setCal_engMap (n : Nat) (x : CalX) : (s.setCal n x).engMap = s.engMap := rfl
@[simp] theorem State.setCal_failed (n : Nat) (x : CalX) : (s.setCal n x).failed = s.failed := rfl
@[simp] theorem State.setCal_subst (n : Nat) (x : CalX) : (s.setCal n x).subst = s.subst := rfl
@[simp] theorem State.setCal_therm (n : Nat) (x : CalX) : (s.setCal n x).therm = s.therm := rfl
@[simp] theorem State.setCal_sec (n : Nat) (x : CalX) : (s.setCal n x).sec = s.sec := rfl
@[simp] theorem State.setCal_upd (n : Nat) (x : CalX) : (s.setCal n x).upd = s.upd := rfl
@[simp] theorem State.setCal_twin (n : Nat) (x : CalX) : (s.setCal n x).twin = s.twin := rfl
@[simp] theorem State.setCal_tests (n : Nat) (x : CalX) : (s.setCal n x).tests = s.tests := rfl
@[simp] theorem State.setCal_hod (n : Nat) (x : CalX) : (s.setCal n x).hod = s.hod := rfl
@[simp] theorem State.setCal_rx (n : Nat) (x : CalX) : (s.setCal n x).rx = s.rx := rfl
@[simp] theorem State.setCal_tx (n : Nat) (x : CalX) : (s.setCal n x).tx = s.tx := rfl
@[simp] theorem State.setCal_bst (n : Nat) (x : CalX) : (s.setCal n x).bst = s.bst := rfl
@[simp] theorem State.setCal_shots (n : Nat) (x : CalX) : (s.setCal n x).shots = s.shots := rfl
@[simp] theorem State.setCal_epoch (n : Nat) (x : CalX) : (s.setCal n x).epoch = s.epoch := rfl
@[simp] theorem State.setCal_host (n : Nat) (x : CalX) : (s.setCal n x).host = s.host := rfl
@[simp] theorem State.setCal_htx (n : Nat) (x : CalX) : (s.setCal n x).htx = s.htx := rfl
@[simp] theorem State.setCal_chk (n : Nat) (x : CalX) : (s.setCal n x).chk = s.chk := rfl
@[simp] theorem State.setCal_seeds (n : Nat) (x : CalX) : (s.setCal n x).seeds = s.seeds := rfl
@[simp] theorem State.setCal_retire (n : Nat) (x : CalX) : (s.setCal n x).retire = s.retire := rfl
@[simp] theorem State.setCal_bgFused (n : Nat) (x : CalX) : (s.setCal n x).bgFused = s.bgFused := rfl
@[simp] theorem State.setCal_bgHigh (n : Nat) (x : CalX) : (s.setCal n x).bgHigh = s.bgHigh := rfl
@[simp] theorem State.setCal_bgLow (n : Nat) (x : CalX) : (s.setCal n x).bgLow = s.bgLow := rfl
@[simp] theorem State.setCal_mortar (n : Nat) (x : CalX) : (s.setCal n x).mortar = s.mortar := rfl
@[simp] theorem State.setCal_bias (n : Nat) (x : CalX) : (s.setCal n x).bias = s.bias := rfl
@[simp] theorem State.setCal_scv (n : Nat) (x : CalX) : (s.setCal n x).scv = s.scv := rfl
@[simp] theorem State.setCal_dec (n : Nat) (x : CalX) : (s.setCal n x).dec = s.dec := rfl
@[simp] theorem State.setCal_cmis (n : Nat) (x : CalX) : (s.setCal n x).cmis = s.cmis := rfl
@[simp] theorem State.setCal_eng (n : Nat) (x : CalX) : (s.setCal n x).eng = s.eng := rfl
@[simp] theorem State.setCal_tapIr (n : Nat) (x : CalX) : (s.setCal n x).tapIr = s.tapIr := rfl

/-! `State.setBst` -/

@[simp] theorem State.setBst_time (n : Nat) (x : BstX) : (s.setBst n x).time = s.time := rfl
@[simp] theorem State.setBst_pending (n : Nat) (x : BstX) : (s.setBst n x).pending = s.pending := rfl
@[simp] theorem State.setBst_freeCtr (n : Nat) (x : BstX) : (s.setBst n x).freeCtr = s.freeCtr := rfl
@[simp] theorem State.setBst_out (n : Nat) (x : BstX) : (s.setBst n x).out = s.out := rfl
@[simp] theorem State.setBst_phase (n : Nat) (x : BstX) : (s.setBst n x).phase = s.phase := rfl
@[simp] theorem State.setBst_regs (n : Nat) (x : BstX) : (s.setBst n x).regs = s.regs := rfl
@[simp] theorem State.setBst_rings (n : Nat) (x : BstX) : (s.setBst n x).rings = s.rings := rfl
@[simp] theorem State.setBst_fns (n : Nat) (x : BstX) : (s.setBst n x).fns = s.fns := rfl
@[simp] theorem State.setBst_arb (n : Nat) (x : BstX) : (s.setBst n x).arb = s.arb := rfl
@[simp] theorem State.setBst_vecs (n : Nat) (x : BstX) : (s.setBst n x).vecs = s.vecs := rfl
@[simp] theorem State.setBst_vfEnable (n : Nat) (x : BstX) : (s.setBst n x).vfEnable = s.vfEnable := rfl
@[simp] theorem State.setBst_raises (n : Nat) (x : BstX) : (s.setBst n x).raises = s.raises := rfl
@[simp] theorem State.setBst_held (n : Nat) (x : BstX) : (s.setBst n x).held = s.held := rfl
@[simp] theorem State.setBst_doorHeld (n : Nat) (x : BstX) : (s.setBst n x).doorHeld = s.doorHeld := rfl
@[simp] theorem State.setBst_pwr (n : Nat) (x : BstX) : (s.setBst n x).pwr = s.pwr := rfl
@[simp] theorem State.setBst_cores (n : Nat) (x : BstX) : (s.setBst n x).cores = s.cores := rfl
@[simp] theorem State.setBst_engMap (n : Nat) (x : BstX) : (s.setBst n x).engMap = s.engMap := rfl
@[simp] theorem State.setBst_failed (n : Nat) (x : BstX) : (s.setBst n x).failed = s.failed := rfl
@[simp] theorem State.setBst_subst (n : Nat) (x : BstX) : (s.setBst n x).subst = s.subst := rfl
@[simp] theorem State.setBst_therm (n : Nat) (x : BstX) : (s.setBst n x).therm = s.therm := rfl
@[simp] theorem State.setBst_sec (n : Nat) (x : BstX) : (s.setBst n x).sec = s.sec := rfl
@[simp] theorem State.setBst_upd (n : Nat) (x : BstX) : (s.setBst n x).upd = s.upd := rfl
@[simp] theorem State.setBst_twin (n : Nat) (x : BstX) : (s.setBst n x).twin = s.twin := rfl
@[simp] theorem State.setBst_tests (n : Nat) (x : BstX) : (s.setBst n x).tests = s.tests := rfl
@[simp] theorem State.setBst_hod (n : Nat) (x : BstX) : (s.setBst n x).hod = s.hod := rfl
@[simp] theorem State.setBst_rx (n : Nat) (x : BstX) : (s.setBst n x).rx = s.rx := rfl
@[simp] theorem State.setBst_tx (n : Nat) (x : BstX) : (s.setBst n x).tx = s.tx := rfl
@[simp] theorem State.setBst_cal (n : Nat) (x : BstX) : (s.setBst n x).cal = s.cal := rfl
@[simp] theorem State.setBst_shots (n : Nat) (x : BstX) : (s.setBst n x).shots = s.shots := rfl
@[simp] theorem State.setBst_epoch (n : Nat) (x : BstX) : (s.setBst n x).epoch = s.epoch := rfl
@[simp] theorem State.setBst_host (n : Nat) (x : BstX) : (s.setBst n x).host = s.host := rfl
@[simp] theorem State.setBst_htx (n : Nat) (x : BstX) : (s.setBst n x).htx = s.htx := rfl
@[simp] theorem State.setBst_chk (n : Nat) (x : BstX) : (s.setBst n x).chk = s.chk := rfl
@[simp] theorem State.setBst_seeds (n : Nat) (x : BstX) : (s.setBst n x).seeds = s.seeds := rfl
@[simp] theorem State.setBst_retire (n : Nat) (x : BstX) : (s.setBst n x).retire = s.retire := rfl
@[simp] theorem State.setBst_bgFused (n : Nat) (x : BstX) : (s.setBst n x).bgFused = s.bgFused := rfl
@[simp] theorem State.setBst_bgHigh (n : Nat) (x : BstX) : (s.setBst n x).bgHigh = s.bgHigh := rfl
@[simp] theorem State.setBst_bgLow (n : Nat) (x : BstX) : (s.setBst n x).bgLow = s.bgLow := rfl
@[simp] theorem State.setBst_mortar (n : Nat) (x : BstX) : (s.setBst n x).mortar = s.mortar := rfl
@[simp] theorem State.setBst_bias (n : Nat) (x : BstX) : (s.setBst n x).bias = s.bias := rfl
@[simp] theorem State.setBst_scv (n : Nat) (x : BstX) : (s.setBst n x).scv = s.scv := rfl
@[simp] theorem State.setBst_dec (n : Nat) (x : BstX) : (s.setBst n x).dec = s.dec := rfl
@[simp] theorem State.setBst_cmis (n : Nat) (x : BstX) : (s.setBst n x).cmis = s.cmis := rfl
@[simp] theorem State.setBst_eng (n : Nat) (x : BstX) : (s.setBst n x).eng = s.eng := rfl
@[simp] theorem State.setBst_tapIr (n : Nat) (x : BstX) : (s.setBst n x).tapIr = s.tapIr := rfl

/-! `State.setEpoch` -/

@[simp] theorem State.setEpoch_time (c : Nat) (x : EpochX) : (s.setEpoch c x).time = s.time := rfl
@[simp] theorem State.setEpoch_pending (c : Nat) (x : EpochX) : (s.setEpoch c x).pending = s.pending := rfl
@[simp] theorem State.setEpoch_freeCtr (c : Nat) (x : EpochX) : (s.setEpoch c x).freeCtr = s.freeCtr := rfl
@[simp] theorem State.setEpoch_out (c : Nat) (x : EpochX) : (s.setEpoch c x).out = s.out := rfl
@[simp] theorem State.setEpoch_phase (c : Nat) (x : EpochX) : (s.setEpoch c x).phase = s.phase := rfl
@[simp] theorem State.setEpoch_regs (c : Nat) (x : EpochX) : (s.setEpoch c x).regs = s.regs := rfl
@[simp] theorem State.setEpoch_rings (c : Nat) (x : EpochX) : (s.setEpoch c x).rings = s.rings := rfl
@[simp] theorem State.setEpoch_fns (c : Nat) (x : EpochX) : (s.setEpoch c x).fns = s.fns := rfl
@[simp] theorem State.setEpoch_arb (c : Nat) (x : EpochX) : (s.setEpoch c x).arb = s.arb := rfl
@[simp] theorem State.setEpoch_vecs (c : Nat) (x : EpochX) : (s.setEpoch c x).vecs = s.vecs := rfl
@[simp] theorem State.setEpoch_vfEnable (c : Nat) (x : EpochX) : (s.setEpoch c x).vfEnable = s.vfEnable := rfl
@[simp] theorem State.setEpoch_raises (c : Nat) (x : EpochX) : (s.setEpoch c x).raises = s.raises := rfl
@[simp] theorem State.setEpoch_held (c : Nat) (x : EpochX) : (s.setEpoch c x).held = s.held := rfl
@[simp] theorem State.setEpoch_doorHeld (c : Nat) (x : EpochX) : (s.setEpoch c x).doorHeld = s.doorHeld := rfl
@[simp] theorem State.setEpoch_pwr (c : Nat) (x : EpochX) : (s.setEpoch c x).pwr = s.pwr := rfl
@[simp] theorem State.setEpoch_cores (c : Nat) (x : EpochX) : (s.setEpoch c x).cores = s.cores := rfl
@[simp] theorem State.setEpoch_engMap (c : Nat) (x : EpochX) : (s.setEpoch c x).engMap = s.engMap := rfl
@[simp] theorem State.setEpoch_failed (c : Nat) (x : EpochX) : (s.setEpoch c x).failed = s.failed := rfl
@[simp] theorem State.setEpoch_subst (c : Nat) (x : EpochX) : (s.setEpoch c x).subst = s.subst := rfl
@[simp] theorem State.setEpoch_therm (c : Nat) (x : EpochX) : (s.setEpoch c x).therm = s.therm := rfl
@[simp] theorem State.setEpoch_sec (c : Nat) (x : EpochX) : (s.setEpoch c x).sec = s.sec := rfl
@[simp] theorem State.setEpoch_upd (c : Nat) (x : EpochX) : (s.setEpoch c x).upd = s.upd := rfl
@[simp] theorem State.setEpoch_twin (c : Nat) (x : EpochX) : (s.setEpoch c x).twin = s.twin := rfl
@[simp] theorem State.setEpoch_tests (c : Nat) (x : EpochX) : (s.setEpoch c x).tests = s.tests := rfl
@[simp] theorem State.setEpoch_hod (c : Nat) (x : EpochX) : (s.setEpoch c x).hod = s.hod := rfl
@[simp] theorem State.setEpoch_rx (c : Nat) (x : EpochX) : (s.setEpoch c x).rx = s.rx := rfl
@[simp] theorem State.setEpoch_tx (c : Nat) (x : EpochX) : (s.setEpoch c x).tx = s.tx := rfl
@[simp] theorem State.setEpoch_cal (c : Nat) (x : EpochX) : (s.setEpoch c x).cal = s.cal := rfl
@[simp] theorem State.setEpoch_bst (c : Nat) (x : EpochX) : (s.setEpoch c x).bst = s.bst := rfl
@[simp] theorem State.setEpoch_shots (c : Nat) (x : EpochX) : (s.setEpoch c x).shots = s.shots := rfl
@[simp] theorem State.setEpoch_host (c : Nat) (x : EpochX) : (s.setEpoch c x).host = s.host := rfl
@[simp] theorem State.setEpoch_htx (c : Nat) (x : EpochX) : (s.setEpoch c x).htx = s.htx := rfl
@[simp] theorem State.setEpoch_chk (c : Nat) (x : EpochX) : (s.setEpoch c x).chk = s.chk := rfl
@[simp] theorem State.setEpoch_seeds (c : Nat) (x : EpochX) : (s.setEpoch c x).seeds = s.seeds := rfl
@[simp] theorem State.setEpoch_retire (c : Nat) (x : EpochX) : (s.setEpoch c x).retire = s.retire := rfl
@[simp] theorem State.setEpoch_bgFused (c : Nat) (x : EpochX) : (s.setEpoch c x).bgFused = s.bgFused := rfl
@[simp] theorem State.setEpoch_bgHigh (c : Nat) (x : EpochX) : (s.setEpoch c x).bgHigh = s.bgHigh := rfl
@[simp] theorem State.setEpoch_bgLow (c : Nat) (x : EpochX) : (s.setEpoch c x).bgLow = s.bgLow := rfl
@[simp] theorem State.setEpoch_mortar (c : Nat) (x : EpochX) : (s.setEpoch c x).mortar = s.mortar := rfl
@[simp] theorem State.setEpoch_bias (c : Nat) (x : EpochX) : (s.setEpoch c x).bias = s.bias := rfl
@[simp] theorem State.setEpoch_scv (c : Nat) (x : EpochX) : (s.setEpoch c x).scv = s.scv := rfl
@[simp] theorem State.setEpoch_dec (c : Nat) (x : EpochX) : (s.setEpoch c x).dec = s.dec := rfl
@[simp] theorem State.setEpoch_cmis (c : Nat) (x : EpochX) : (s.setEpoch c x).cmis = s.cmis := rfl
@[simp] theorem State.setEpoch_eng (c : Nat) (x : EpochX) : (s.setEpoch c x).eng = s.eng := rfl
@[simp] theorem State.setEpoch_tapIr (c : Nat) (x : EpochX) : (s.setEpoch c x).tapIr = s.tapIr := rfl

/-! `State.setChk` -/

@[simp] theorem State.setChk_time (k : Nat) (x : ChkX) : (s.setChk k x).time = s.time := rfl
@[simp] theorem State.setChk_pending (k : Nat) (x : ChkX) : (s.setChk k x).pending = s.pending := rfl
@[simp] theorem State.setChk_freeCtr (k : Nat) (x : ChkX) : (s.setChk k x).freeCtr = s.freeCtr := rfl
@[simp] theorem State.setChk_out (k : Nat) (x : ChkX) : (s.setChk k x).out = s.out := rfl
@[simp] theorem State.setChk_phase (k : Nat) (x : ChkX) : (s.setChk k x).phase = s.phase := rfl
@[simp] theorem State.setChk_regs (k : Nat) (x : ChkX) : (s.setChk k x).regs = s.regs := rfl
@[simp] theorem State.setChk_rings (k : Nat) (x : ChkX) : (s.setChk k x).rings = s.rings := rfl
@[simp] theorem State.setChk_fns (k : Nat) (x : ChkX) : (s.setChk k x).fns = s.fns := rfl
@[simp] theorem State.setChk_arb (k : Nat) (x : ChkX) : (s.setChk k x).arb = s.arb := rfl
@[simp] theorem State.setChk_vecs (k : Nat) (x : ChkX) : (s.setChk k x).vecs = s.vecs := rfl
@[simp] theorem State.setChk_vfEnable (k : Nat) (x : ChkX) : (s.setChk k x).vfEnable = s.vfEnable := rfl
@[simp] theorem State.setChk_raises (k : Nat) (x : ChkX) : (s.setChk k x).raises = s.raises := rfl
@[simp] theorem State.setChk_held (k : Nat) (x : ChkX) : (s.setChk k x).held = s.held := rfl
@[simp] theorem State.setChk_doorHeld (k : Nat) (x : ChkX) : (s.setChk k x).doorHeld = s.doorHeld := rfl
@[simp] theorem State.setChk_pwr (k : Nat) (x : ChkX) : (s.setChk k x).pwr = s.pwr := rfl
@[simp] theorem State.setChk_cores (k : Nat) (x : ChkX) : (s.setChk k x).cores = s.cores := rfl
@[simp] theorem State.setChk_engMap (k : Nat) (x : ChkX) : (s.setChk k x).engMap = s.engMap := rfl
@[simp] theorem State.setChk_failed (k : Nat) (x : ChkX) : (s.setChk k x).failed = s.failed := rfl
@[simp] theorem State.setChk_subst (k : Nat) (x : ChkX) : (s.setChk k x).subst = s.subst := rfl
@[simp] theorem State.setChk_therm (k : Nat) (x : ChkX) : (s.setChk k x).therm = s.therm := rfl
@[simp] theorem State.setChk_sec (k : Nat) (x : ChkX) : (s.setChk k x).sec = s.sec := rfl
@[simp] theorem State.setChk_upd (k : Nat) (x : ChkX) : (s.setChk k x).upd = s.upd := rfl
@[simp] theorem State.setChk_twin (k : Nat) (x : ChkX) : (s.setChk k x).twin = s.twin := rfl
@[simp] theorem State.setChk_tests (k : Nat) (x : ChkX) : (s.setChk k x).tests = s.tests := rfl
@[simp] theorem State.setChk_hod (k : Nat) (x : ChkX) : (s.setChk k x).hod = s.hod := rfl
@[simp] theorem State.setChk_rx (k : Nat) (x : ChkX) : (s.setChk k x).rx = s.rx := rfl
@[simp] theorem State.setChk_tx (k : Nat) (x : ChkX) : (s.setChk k x).tx = s.tx := rfl
@[simp] theorem State.setChk_cal (k : Nat) (x : ChkX) : (s.setChk k x).cal = s.cal := rfl
@[simp] theorem State.setChk_bst (k : Nat) (x : ChkX) : (s.setChk k x).bst = s.bst := rfl
@[simp] theorem State.setChk_shots (k : Nat) (x : ChkX) : (s.setChk k x).shots = s.shots := rfl
@[simp] theorem State.setChk_epoch (k : Nat) (x : ChkX) : (s.setChk k x).epoch = s.epoch := rfl
@[simp] theorem State.setChk_host (k : Nat) (x : ChkX) : (s.setChk k x).host = s.host := rfl
@[simp] theorem State.setChk_htx (k : Nat) (x : ChkX) : (s.setChk k x).htx = s.htx := rfl
@[simp] theorem State.setChk_seeds (k : Nat) (x : ChkX) : (s.setChk k x).seeds = s.seeds := rfl
@[simp] theorem State.setChk_retire (k : Nat) (x : ChkX) : (s.setChk k x).retire = s.retire := rfl
@[simp] theorem State.setChk_bgFused (k : Nat) (x : ChkX) : (s.setChk k x).bgFused = s.bgFused := rfl
@[simp] theorem State.setChk_bgHigh (k : Nat) (x : ChkX) : (s.setChk k x).bgHigh = s.bgHigh := rfl
@[simp] theorem State.setChk_bgLow (k : Nat) (x : ChkX) : (s.setChk k x).bgLow = s.bgLow := rfl
@[simp] theorem State.setChk_mortar (k : Nat) (x : ChkX) : (s.setChk k x).mortar = s.mortar := rfl
@[simp] theorem State.setChk_bias (k : Nat) (x : ChkX) : (s.setChk k x).bias = s.bias := rfl
@[simp] theorem State.setChk_scv (k : Nat) (x : ChkX) : (s.setChk k x).scv = s.scv := rfl
@[simp] theorem State.setChk_dec (k : Nat) (x : ChkX) : (s.setChk k x).dec = s.dec := rfl
@[simp] theorem State.setChk_cmis (k : Nat) (x : ChkX) : (s.setChk k x).cmis = s.cmis := rfl
@[simp] theorem State.setChk_eng (k : Nat) (x : ChkX) : (s.setChk k x).eng = s.eng := rfl
@[simp] theorem State.setChk_tapIr (k : Nat) (x : ChkX) : (s.setChk k x).tapIr = s.tapIr := rfl

/-! `State.setHost` -/

@[simp] theorem State.setHost_time (k : Nat) (x : HostX) : (s.setHost k x).time = s.time := rfl
@[simp] theorem State.setHost_pending (k : Nat) (x : HostX) : (s.setHost k x).pending = s.pending := rfl
@[simp] theorem State.setHost_freeCtr (k : Nat) (x : HostX) : (s.setHost k x).freeCtr = s.freeCtr := rfl
@[simp] theorem State.setHost_out (k : Nat) (x : HostX) : (s.setHost k x).out = s.out := rfl
@[simp] theorem State.setHost_phase (k : Nat) (x : HostX) : (s.setHost k x).phase = s.phase := rfl
@[simp] theorem State.setHost_regs (k : Nat) (x : HostX) : (s.setHost k x).regs = s.regs := rfl
@[simp] theorem State.setHost_rings (k : Nat) (x : HostX) : (s.setHost k x).rings = s.rings := rfl
@[simp] theorem State.setHost_fns (k : Nat) (x : HostX) : (s.setHost k x).fns = s.fns := rfl
@[simp] theorem State.setHost_arb (k : Nat) (x : HostX) : (s.setHost k x).arb = s.arb := rfl
@[simp] theorem State.setHost_vecs (k : Nat) (x : HostX) : (s.setHost k x).vecs = s.vecs := rfl
@[simp] theorem State.setHost_vfEnable (k : Nat) (x : HostX) : (s.setHost k x).vfEnable = s.vfEnable := rfl
@[simp] theorem State.setHost_raises (k : Nat) (x : HostX) : (s.setHost k x).raises = s.raises := rfl
@[simp] theorem State.setHost_held (k : Nat) (x : HostX) : (s.setHost k x).held = s.held := rfl
@[simp] theorem State.setHost_doorHeld (k : Nat) (x : HostX) : (s.setHost k x).doorHeld = s.doorHeld := rfl
@[simp] theorem State.setHost_pwr (k : Nat) (x : HostX) : (s.setHost k x).pwr = s.pwr := rfl
@[simp] theorem State.setHost_cores (k : Nat) (x : HostX) : (s.setHost k x).cores = s.cores := rfl
@[simp] theorem State.setHost_engMap (k : Nat) (x : HostX) : (s.setHost k x).engMap = s.engMap := rfl
@[simp] theorem State.setHost_failed (k : Nat) (x : HostX) : (s.setHost k x).failed = s.failed := rfl
@[simp] theorem State.setHost_subst (k : Nat) (x : HostX) : (s.setHost k x).subst = s.subst := rfl
@[simp] theorem State.setHost_therm (k : Nat) (x : HostX) : (s.setHost k x).therm = s.therm := rfl
@[simp] theorem State.setHost_sec (k : Nat) (x : HostX) : (s.setHost k x).sec = s.sec := rfl
@[simp] theorem State.setHost_upd (k : Nat) (x : HostX) : (s.setHost k x).upd = s.upd := rfl
@[simp] theorem State.setHost_twin (k : Nat) (x : HostX) : (s.setHost k x).twin = s.twin := rfl
@[simp] theorem State.setHost_tests (k : Nat) (x : HostX) : (s.setHost k x).tests = s.tests := rfl
@[simp] theorem State.setHost_hod (k : Nat) (x : HostX) : (s.setHost k x).hod = s.hod := rfl
@[simp] theorem State.setHost_rx (k : Nat) (x : HostX) : (s.setHost k x).rx = s.rx := rfl
@[simp] theorem State.setHost_tx (k : Nat) (x : HostX) : (s.setHost k x).tx = s.tx := rfl
@[simp] theorem State.setHost_cal (k : Nat) (x : HostX) : (s.setHost k x).cal = s.cal := rfl
@[simp] theorem State.setHost_bst (k : Nat) (x : HostX) : (s.setHost k x).bst = s.bst := rfl
@[simp] theorem State.setHost_shots (k : Nat) (x : HostX) : (s.setHost k x).shots = s.shots := rfl
@[simp] theorem State.setHost_epoch (k : Nat) (x : HostX) : (s.setHost k x).epoch = s.epoch := rfl
@[simp] theorem State.setHost_htx (k : Nat) (x : HostX) : (s.setHost k x).htx = s.htx := rfl
@[simp] theorem State.setHost_chk (k : Nat) (x : HostX) : (s.setHost k x).chk = s.chk := rfl
@[simp] theorem State.setHost_seeds (k : Nat) (x : HostX) : (s.setHost k x).seeds = s.seeds := rfl
@[simp] theorem State.setHost_retire (k : Nat) (x : HostX) : (s.setHost k x).retire = s.retire := rfl
@[simp] theorem State.setHost_bgFused (k : Nat) (x : HostX) : (s.setHost k x).bgFused = s.bgFused := rfl
@[simp] theorem State.setHost_bgHigh (k : Nat) (x : HostX) : (s.setHost k x).bgHigh = s.bgHigh := rfl
@[simp] theorem State.setHost_bgLow (k : Nat) (x : HostX) : (s.setHost k x).bgLow = s.bgLow := rfl
@[simp] theorem State.setHost_mortar (k : Nat) (x : HostX) : (s.setHost k x).mortar = s.mortar := rfl
@[simp] theorem State.setHost_bias (k : Nat) (x : HostX) : (s.setHost k x).bias = s.bias := rfl
@[simp] theorem State.setHost_scv (k : Nat) (x : HostX) : (s.setHost k x).scv = s.scv := rfl
@[simp] theorem State.setHost_dec (k : Nat) (x : HostX) : (s.setHost k x).dec = s.dec := rfl
@[simp] theorem State.setHost_cmis (k : Nat) (x : HostX) : (s.setHost k x).cmis = s.cmis := rfl
@[simp] theorem State.setHost_eng (k : Nat) (x : HostX) : (s.setHost k x).eng = s.eng := rfl
@[simp] theorem State.setHost_tapIr (k : Nat) (x : HostX) : (s.setHost k x).tapIr = s.tapIr := rfl

/-! `State.setHtx` -/

@[simp] theorem State.setHtx_time (k : Nat) (x : HostTx) : (s.setHtx k x).time = s.time := rfl
@[simp] theorem State.setHtx_pending (k : Nat) (x : HostTx) : (s.setHtx k x).pending = s.pending := rfl
@[simp] theorem State.setHtx_freeCtr (k : Nat) (x : HostTx) : (s.setHtx k x).freeCtr = s.freeCtr := rfl
@[simp] theorem State.setHtx_out (k : Nat) (x : HostTx) : (s.setHtx k x).out = s.out := rfl
@[simp] theorem State.setHtx_phase (k : Nat) (x : HostTx) : (s.setHtx k x).phase = s.phase := rfl
@[simp] theorem State.setHtx_regs (k : Nat) (x : HostTx) : (s.setHtx k x).regs = s.regs := rfl
@[simp] theorem State.setHtx_rings (k : Nat) (x : HostTx) : (s.setHtx k x).rings = s.rings := rfl
@[simp] theorem State.setHtx_fns (k : Nat) (x : HostTx) : (s.setHtx k x).fns = s.fns := rfl
@[simp] theorem State.setHtx_arb (k : Nat) (x : HostTx) : (s.setHtx k x).arb = s.arb := rfl
@[simp] theorem State.setHtx_vecs (k : Nat) (x : HostTx) : (s.setHtx k x).vecs = s.vecs := rfl
@[simp] theorem State.setHtx_vfEnable (k : Nat) (x : HostTx) : (s.setHtx k x).vfEnable = s.vfEnable := rfl
@[simp] theorem State.setHtx_raises (k : Nat) (x : HostTx) : (s.setHtx k x).raises = s.raises := rfl
@[simp] theorem State.setHtx_held (k : Nat) (x : HostTx) : (s.setHtx k x).held = s.held := rfl
@[simp] theorem State.setHtx_doorHeld (k : Nat) (x : HostTx) : (s.setHtx k x).doorHeld = s.doorHeld := rfl
@[simp] theorem State.setHtx_pwr (k : Nat) (x : HostTx) : (s.setHtx k x).pwr = s.pwr := rfl
@[simp] theorem State.setHtx_cores (k : Nat) (x : HostTx) : (s.setHtx k x).cores = s.cores := rfl
@[simp] theorem State.setHtx_engMap (k : Nat) (x : HostTx) : (s.setHtx k x).engMap = s.engMap := rfl
@[simp] theorem State.setHtx_failed (k : Nat) (x : HostTx) : (s.setHtx k x).failed = s.failed := rfl
@[simp] theorem State.setHtx_subst (k : Nat) (x : HostTx) : (s.setHtx k x).subst = s.subst := rfl
@[simp] theorem State.setHtx_therm (k : Nat) (x : HostTx) : (s.setHtx k x).therm = s.therm := rfl
@[simp] theorem State.setHtx_sec (k : Nat) (x : HostTx) : (s.setHtx k x).sec = s.sec := rfl
@[simp] theorem State.setHtx_upd (k : Nat) (x : HostTx) : (s.setHtx k x).upd = s.upd := rfl
@[simp] theorem State.setHtx_twin (k : Nat) (x : HostTx) : (s.setHtx k x).twin = s.twin := rfl
@[simp] theorem State.setHtx_tests (k : Nat) (x : HostTx) : (s.setHtx k x).tests = s.tests := rfl
@[simp] theorem State.setHtx_hod (k : Nat) (x : HostTx) : (s.setHtx k x).hod = s.hod := rfl
@[simp] theorem State.setHtx_rx (k : Nat) (x : HostTx) : (s.setHtx k x).rx = s.rx := rfl
@[simp] theorem State.setHtx_tx (k : Nat) (x : HostTx) : (s.setHtx k x).tx = s.tx := rfl
@[simp] theorem State.setHtx_cal (k : Nat) (x : HostTx) : (s.setHtx k x).cal = s.cal := rfl
@[simp] theorem State.setHtx_bst (k : Nat) (x : HostTx) : (s.setHtx k x).bst = s.bst := rfl
@[simp] theorem State.setHtx_shots (k : Nat) (x : HostTx) : (s.setHtx k x).shots = s.shots := rfl
@[simp] theorem State.setHtx_epoch (k : Nat) (x : HostTx) : (s.setHtx k x).epoch = s.epoch := rfl
@[simp] theorem State.setHtx_host (k : Nat) (x : HostTx) : (s.setHtx k x).host = s.host := rfl
@[simp] theorem State.setHtx_chk (k : Nat) (x : HostTx) : (s.setHtx k x).chk = s.chk := rfl
@[simp] theorem State.setHtx_seeds (k : Nat) (x : HostTx) : (s.setHtx k x).seeds = s.seeds := rfl
@[simp] theorem State.setHtx_retire (k : Nat) (x : HostTx) : (s.setHtx k x).retire = s.retire := rfl
@[simp] theorem State.setHtx_bgFused (k : Nat) (x : HostTx) : (s.setHtx k x).bgFused = s.bgFused := rfl
@[simp] theorem State.setHtx_bgHigh (k : Nat) (x : HostTx) : (s.setHtx k x).bgHigh = s.bgHigh := rfl
@[simp] theorem State.setHtx_bgLow (k : Nat) (x : HostTx) : (s.setHtx k x).bgLow = s.bgLow := rfl
@[simp] theorem State.setHtx_mortar (k : Nat) (x : HostTx) : (s.setHtx k x).mortar = s.mortar := rfl
@[simp] theorem State.setHtx_bias (k : Nat) (x : HostTx) : (s.setHtx k x).bias = s.bias := rfl
@[simp] theorem State.setHtx_scv (k : Nat) (x : HostTx) : (s.setHtx k x).scv = s.scv := rfl
@[simp] theorem State.setHtx_dec (k : Nat) (x : HostTx) : (s.setHtx k x).dec = s.dec := rfl
@[simp] theorem State.setHtx_cmis (k : Nat) (x : HostTx) : (s.setHtx k x).cmis = s.cmis := rfl
@[simp] theorem State.setHtx_eng (k : Nat) (x : HostTx) : (s.setHtx k x).eng = s.eng := rfl
@[simp] theorem State.setHtx_tapIr (k : Nat) (x : HostTx) : (s.setHtx k x).tapIr = s.tapIr := rfl

/-! `State.setMortar` -/

@[simp] theorem State.setMortar_time (c : Nat) (x : MortarX) : (s.setMortar c x).time = s.time := rfl
@[simp] theorem State.setMortar_pending (c : Nat) (x : MortarX) : (s.setMortar c x).pending = s.pending := rfl
@[simp] theorem State.setMortar_freeCtr (c : Nat) (x : MortarX) : (s.setMortar c x).freeCtr = s.freeCtr := rfl
@[simp] theorem State.setMortar_out (c : Nat) (x : MortarX) : (s.setMortar c x).out = s.out := rfl
@[simp] theorem State.setMortar_phase (c : Nat) (x : MortarX) : (s.setMortar c x).phase = s.phase := rfl
@[simp] theorem State.setMortar_regs (c : Nat) (x : MortarX) : (s.setMortar c x).regs = s.regs := rfl
@[simp] theorem State.setMortar_rings (c : Nat) (x : MortarX) : (s.setMortar c x).rings = s.rings := rfl
@[simp] theorem State.setMortar_fns (c : Nat) (x : MortarX) : (s.setMortar c x).fns = s.fns := rfl
@[simp] theorem State.setMortar_arb (c : Nat) (x : MortarX) : (s.setMortar c x).arb = s.arb := rfl
@[simp] theorem State.setMortar_vecs (c : Nat) (x : MortarX) : (s.setMortar c x).vecs = s.vecs := rfl
@[simp] theorem State.setMortar_vfEnable (c : Nat) (x : MortarX) : (s.setMortar c x).vfEnable = s.vfEnable := rfl
@[simp] theorem State.setMortar_raises (c : Nat) (x : MortarX) : (s.setMortar c x).raises = s.raises := rfl
@[simp] theorem State.setMortar_held (c : Nat) (x : MortarX) : (s.setMortar c x).held = s.held := rfl
@[simp] theorem State.setMortar_doorHeld (c : Nat) (x : MortarX) : (s.setMortar c x).doorHeld = s.doorHeld := rfl
@[simp] theorem State.setMortar_pwr (c : Nat) (x : MortarX) : (s.setMortar c x).pwr = s.pwr := rfl
@[simp] theorem State.setMortar_cores (c : Nat) (x : MortarX) : (s.setMortar c x).cores = s.cores := rfl
@[simp] theorem State.setMortar_engMap (c : Nat) (x : MortarX) : (s.setMortar c x).engMap = s.engMap := rfl
@[simp] theorem State.setMortar_failed (c : Nat) (x : MortarX) : (s.setMortar c x).failed = s.failed := rfl
@[simp] theorem State.setMortar_subst (c : Nat) (x : MortarX) : (s.setMortar c x).subst = s.subst := rfl
@[simp] theorem State.setMortar_therm (c : Nat) (x : MortarX) : (s.setMortar c x).therm = s.therm := rfl
@[simp] theorem State.setMortar_sec (c : Nat) (x : MortarX) : (s.setMortar c x).sec = s.sec := rfl
@[simp] theorem State.setMortar_upd (c : Nat) (x : MortarX) : (s.setMortar c x).upd = s.upd := rfl
@[simp] theorem State.setMortar_twin (c : Nat) (x : MortarX) : (s.setMortar c x).twin = s.twin := rfl
@[simp] theorem State.setMortar_tests (c : Nat) (x : MortarX) : (s.setMortar c x).tests = s.tests := rfl
@[simp] theorem State.setMortar_hod (c : Nat) (x : MortarX) : (s.setMortar c x).hod = s.hod := rfl
@[simp] theorem State.setMortar_rx (c : Nat) (x : MortarX) : (s.setMortar c x).rx = s.rx := rfl
@[simp] theorem State.setMortar_tx (c : Nat) (x : MortarX) : (s.setMortar c x).tx = s.tx := rfl
@[simp] theorem State.setMortar_cal (c : Nat) (x : MortarX) : (s.setMortar c x).cal = s.cal := rfl
@[simp] theorem State.setMortar_bst (c : Nat) (x : MortarX) : (s.setMortar c x).bst = s.bst := rfl
@[simp] theorem State.setMortar_shots (c : Nat) (x : MortarX) : (s.setMortar c x).shots = s.shots := rfl
@[simp] theorem State.setMortar_epoch (c : Nat) (x : MortarX) : (s.setMortar c x).epoch = s.epoch := rfl
@[simp] theorem State.setMortar_host (c : Nat) (x : MortarX) : (s.setMortar c x).host = s.host := rfl
@[simp] theorem State.setMortar_htx (c : Nat) (x : MortarX) : (s.setMortar c x).htx = s.htx := rfl
@[simp] theorem State.setMortar_chk (c : Nat) (x : MortarX) : (s.setMortar c x).chk = s.chk := rfl
@[simp] theorem State.setMortar_seeds (c : Nat) (x : MortarX) : (s.setMortar c x).seeds = s.seeds := rfl
@[simp] theorem State.setMortar_retire (c : Nat) (x : MortarX) : (s.setMortar c x).retire = s.retire := rfl
@[simp] theorem State.setMortar_bgFused (c : Nat) (x : MortarX) : (s.setMortar c x).bgFused = s.bgFused := rfl
@[simp] theorem State.setMortar_bgHigh (c : Nat) (x : MortarX) : (s.setMortar c x).bgHigh = s.bgHigh := rfl
@[simp] theorem State.setMortar_bgLow (c : Nat) (x : MortarX) : (s.setMortar c x).bgLow = s.bgLow := rfl
@[simp] theorem State.setMortar_bias (c : Nat) (x : MortarX) : (s.setMortar c x).bias = s.bias := rfl
@[simp] theorem State.setMortar_scv (c : Nat) (x : MortarX) : (s.setMortar c x).scv = s.scv := rfl
@[simp] theorem State.setMortar_dec (c : Nat) (x : MortarX) : (s.setMortar c x).dec = s.dec := rfl
@[simp] theorem State.setMortar_cmis (c : Nat) (x : MortarX) : (s.setMortar c x).cmis = s.cmis := rfl
@[simp] theorem State.setMortar_eng (c : Nat) (x : MortarX) : (s.setMortar c x).eng = s.eng := rfl
@[simp] theorem State.setMortar_tapIr (c : Nat) (x : MortarX) : (s.setMortar c x).tapIr = s.tapIr := rfl

/-! `State.setBias` -/

@[simp] theorem State.setBias_time (b : Nat) (x : BiasX) : (s.setBias b x).time = s.time := rfl
@[simp] theorem State.setBias_pending (b : Nat) (x : BiasX) : (s.setBias b x).pending = s.pending := rfl
@[simp] theorem State.setBias_freeCtr (b : Nat) (x : BiasX) : (s.setBias b x).freeCtr = s.freeCtr := rfl
@[simp] theorem State.setBias_out (b : Nat) (x : BiasX) : (s.setBias b x).out = s.out := rfl
@[simp] theorem State.setBias_phase (b : Nat) (x : BiasX) : (s.setBias b x).phase = s.phase := rfl
@[simp] theorem State.setBias_regs (b : Nat) (x : BiasX) : (s.setBias b x).regs = s.regs := rfl
@[simp] theorem State.setBias_rings (b : Nat) (x : BiasX) : (s.setBias b x).rings = s.rings := rfl
@[simp] theorem State.setBias_fns (b : Nat) (x : BiasX) : (s.setBias b x).fns = s.fns := rfl
@[simp] theorem State.setBias_arb (b : Nat) (x : BiasX) : (s.setBias b x).arb = s.arb := rfl
@[simp] theorem State.setBias_vecs (b : Nat) (x : BiasX) : (s.setBias b x).vecs = s.vecs := rfl
@[simp] theorem State.setBias_vfEnable (b : Nat) (x : BiasX) : (s.setBias b x).vfEnable = s.vfEnable := rfl
@[simp] theorem State.setBias_raises (b : Nat) (x : BiasX) : (s.setBias b x).raises = s.raises := rfl
@[simp] theorem State.setBias_held (b : Nat) (x : BiasX) : (s.setBias b x).held = s.held := rfl
@[simp] theorem State.setBias_doorHeld (b : Nat) (x : BiasX) : (s.setBias b x).doorHeld = s.doorHeld := rfl
@[simp] theorem State.setBias_pwr (b : Nat) (x : BiasX) : (s.setBias b x).pwr = s.pwr := rfl
@[simp] theorem State.setBias_cores (b : Nat) (x : BiasX) : (s.setBias b x).cores = s.cores := rfl
@[simp] theorem State.setBias_engMap (b : Nat) (x : BiasX) : (s.setBias b x).engMap = s.engMap := rfl
@[simp] theorem State.setBias_failed (b : Nat) (x : BiasX) : (s.setBias b x).failed = s.failed := rfl
@[simp] theorem State.setBias_subst (b : Nat) (x : BiasX) : (s.setBias b x).subst = s.subst := rfl
@[simp] theorem State.setBias_therm (b : Nat) (x : BiasX) : (s.setBias b x).therm = s.therm := rfl
@[simp] theorem State.setBias_sec (b : Nat) (x : BiasX) : (s.setBias b x).sec = s.sec := rfl
@[simp] theorem State.setBias_upd (b : Nat) (x : BiasX) : (s.setBias b x).upd = s.upd := rfl
@[simp] theorem State.setBias_twin (b : Nat) (x : BiasX) : (s.setBias b x).twin = s.twin := rfl
@[simp] theorem State.setBias_tests (b : Nat) (x : BiasX) : (s.setBias b x).tests = s.tests := rfl
@[simp] theorem State.setBias_hod (b : Nat) (x : BiasX) : (s.setBias b x).hod = s.hod := rfl
@[simp] theorem State.setBias_rx (b : Nat) (x : BiasX) : (s.setBias b x).rx = s.rx := rfl
@[simp] theorem State.setBias_tx (b : Nat) (x : BiasX) : (s.setBias b x).tx = s.tx := rfl
@[simp] theorem State.setBias_cal (b : Nat) (x : BiasX) : (s.setBias b x).cal = s.cal := rfl
@[simp] theorem State.setBias_bst (b : Nat) (x : BiasX) : (s.setBias b x).bst = s.bst := rfl
@[simp] theorem State.setBias_shots (b : Nat) (x : BiasX) : (s.setBias b x).shots = s.shots := rfl
@[simp] theorem State.setBias_epoch (b : Nat) (x : BiasX) : (s.setBias b x).epoch = s.epoch := rfl
@[simp] theorem State.setBias_host (b : Nat) (x : BiasX) : (s.setBias b x).host = s.host := rfl
@[simp] theorem State.setBias_htx (b : Nat) (x : BiasX) : (s.setBias b x).htx = s.htx := rfl
@[simp] theorem State.setBias_chk (b : Nat) (x : BiasX) : (s.setBias b x).chk = s.chk := rfl
@[simp] theorem State.setBias_seeds (b : Nat) (x : BiasX) : (s.setBias b x).seeds = s.seeds := rfl
@[simp] theorem State.setBias_retire (b : Nat) (x : BiasX) : (s.setBias b x).retire = s.retire := rfl
@[simp] theorem State.setBias_bgFused (b : Nat) (x : BiasX) : (s.setBias b x).bgFused = s.bgFused := rfl
@[simp] theorem State.setBias_bgHigh (b : Nat) (x : BiasX) : (s.setBias b x).bgHigh = s.bgHigh := rfl
@[simp] theorem State.setBias_bgLow (b : Nat) (x : BiasX) : (s.setBias b x).bgLow = s.bgLow := rfl
@[simp] theorem State.setBias_mortar (b : Nat) (x : BiasX) : (s.setBias b x).mortar = s.mortar := rfl
@[simp] theorem State.setBias_scv (b : Nat) (x : BiasX) : (s.setBias b x).scv = s.scv := rfl
@[simp] theorem State.setBias_dec (b : Nat) (x : BiasX) : (s.setBias b x).dec = s.dec := rfl
@[simp] theorem State.setBias_cmis (b : Nat) (x : BiasX) : (s.setBias b x).cmis = s.cmis := rfl
@[simp] theorem State.setBias_eng (b : Nat) (x : BiasX) : (s.setBias b x).eng = s.eng := rfl
@[simp] theorem State.setBias_tapIr (b : Nat) (x : BiasX) : (s.setBias b x).tapIr = s.tapIr := rfl

/-! `State.setScv` -/

@[simp] theorem State.setScv_time (i : Nat) (x : ScvX) : (s.setScv i x).time = s.time := rfl
@[simp] theorem State.setScv_pending (i : Nat) (x : ScvX) : (s.setScv i x).pending = s.pending := rfl
@[simp] theorem State.setScv_freeCtr (i : Nat) (x : ScvX) : (s.setScv i x).freeCtr = s.freeCtr := rfl
@[simp] theorem State.setScv_out (i : Nat) (x : ScvX) : (s.setScv i x).out = s.out := rfl
@[simp] theorem State.setScv_phase (i : Nat) (x : ScvX) : (s.setScv i x).phase = s.phase := rfl
@[simp] theorem State.setScv_regs (i : Nat) (x : ScvX) : (s.setScv i x).regs = s.regs := rfl
@[simp] theorem State.setScv_rings (i : Nat) (x : ScvX) : (s.setScv i x).rings = s.rings := rfl
@[simp] theorem State.setScv_fns (i : Nat) (x : ScvX) : (s.setScv i x).fns = s.fns := rfl
@[simp] theorem State.setScv_arb (i : Nat) (x : ScvX) : (s.setScv i x).arb = s.arb := rfl
@[simp] theorem State.setScv_vecs (i : Nat) (x : ScvX) : (s.setScv i x).vecs = s.vecs := rfl
@[simp] theorem State.setScv_vfEnable (i : Nat) (x : ScvX) : (s.setScv i x).vfEnable = s.vfEnable := rfl
@[simp] theorem State.setScv_raises (i : Nat) (x : ScvX) : (s.setScv i x).raises = s.raises := rfl
@[simp] theorem State.setScv_held (i : Nat) (x : ScvX) : (s.setScv i x).held = s.held := rfl
@[simp] theorem State.setScv_doorHeld (i : Nat) (x : ScvX) : (s.setScv i x).doorHeld = s.doorHeld := rfl
@[simp] theorem State.setScv_pwr (i : Nat) (x : ScvX) : (s.setScv i x).pwr = s.pwr := rfl
@[simp] theorem State.setScv_cores (i : Nat) (x : ScvX) : (s.setScv i x).cores = s.cores := rfl
@[simp] theorem State.setScv_engMap (i : Nat) (x : ScvX) : (s.setScv i x).engMap = s.engMap := rfl
@[simp] theorem State.setScv_failed (i : Nat) (x : ScvX) : (s.setScv i x).failed = s.failed := rfl
@[simp] theorem State.setScv_subst (i : Nat) (x : ScvX) : (s.setScv i x).subst = s.subst := rfl
@[simp] theorem State.setScv_therm (i : Nat) (x : ScvX) : (s.setScv i x).therm = s.therm := rfl
@[simp] theorem State.setScv_sec (i : Nat) (x : ScvX) : (s.setScv i x).sec = s.sec := rfl
@[simp] theorem State.setScv_upd (i : Nat) (x : ScvX) : (s.setScv i x).upd = s.upd := rfl
@[simp] theorem State.setScv_twin (i : Nat) (x : ScvX) : (s.setScv i x).twin = s.twin := rfl
@[simp] theorem State.setScv_tests (i : Nat) (x : ScvX) : (s.setScv i x).tests = s.tests := rfl
@[simp] theorem State.setScv_hod (i : Nat) (x : ScvX) : (s.setScv i x).hod = s.hod := rfl
@[simp] theorem State.setScv_rx (i : Nat) (x : ScvX) : (s.setScv i x).rx = s.rx := rfl
@[simp] theorem State.setScv_tx (i : Nat) (x : ScvX) : (s.setScv i x).tx = s.tx := rfl
@[simp] theorem State.setScv_cal (i : Nat) (x : ScvX) : (s.setScv i x).cal = s.cal := rfl
@[simp] theorem State.setScv_bst (i : Nat) (x : ScvX) : (s.setScv i x).bst = s.bst := rfl
@[simp] theorem State.setScv_shots (i : Nat) (x : ScvX) : (s.setScv i x).shots = s.shots := rfl
@[simp] theorem State.setScv_epoch (i : Nat) (x : ScvX) : (s.setScv i x).epoch = s.epoch := rfl
@[simp] theorem State.setScv_host (i : Nat) (x : ScvX) : (s.setScv i x).host = s.host := rfl
@[simp] theorem State.setScv_htx (i : Nat) (x : ScvX) : (s.setScv i x).htx = s.htx := rfl
@[simp] theorem State.setScv_chk (i : Nat) (x : ScvX) : (s.setScv i x).chk = s.chk := rfl
@[simp] theorem State.setScv_seeds (i : Nat) (x : ScvX) : (s.setScv i x).seeds = s.seeds := rfl
@[simp] theorem State.setScv_retire (i : Nat) (x : ScvX) : (s.setScv i x).retire = s.retire := rfl
@[simp] theorem State.setScv_bgFused (i : Nat) (x : ScvX) : (s.setScv i x).bgFused = s.bgFused := rfl
@[simp] theorem State.setScv_bgHigh (i : Nat) (x : ScvX) : (s.setScv i x).bgHigh = s.bgHigh := rfl
@[simp] theorem State.setScv_bgLow (i : Nat) (x : ScvX) : (s.setScv i x).bgLow = s.bgLow := rfl
@[simp] theorem State.setScv_mortar (i : Nat) (x : ScvX) : (s.setScv i x).mortar = s.mortar := rfl
@[simp] theorem State.setScv_bias (i : Nat) (x : ScvX) : (s.setScv i x).bias = s.bias := rfl
@[simp] theorem State.setScv_dec (i : Nat) (x : ScvX) : (s.setScv i x).dec = s.dec := rfl
@[simp] theorem State.setScv_cmis (i : Nat) (x : ScvX) : (s.setScv i x).cmis = s.cmis := rfl
@[simp] theorem State.setScv_eng (i : Nat) (x : ScvX) : (s.setScv i x).eng = s.eng := rfl
@[simp] theorem State.setScv_tapIr (i : Nat) (x : ScvX) : (s.setScv i x).tapIr = s.tapIr := rfl

/-! `State.setDec` -/

@[simp] theorem State.setDec_time (j : Nat) (x : DecX) : (s.setDec j x).time = s.time := rfl
@[simp] theorem State.setDec_pending (j : Nat) (x : DecX) : (s.setDec j x).pending = s.pending := rfl
@[simp] theorem State.setDec_freeCtr (j : Nat) (x : DecX) : (s.setDec j x).freeCtr = s.freeCtr := rfl
@[simp] theorem State.setDec_out (j : Nat) (x : DecX) : (s.setDec j x).out = s.out := rfl
@[simp] theorem State.setDec_phase (j : Nat) (x : DecX) : (s.setDec j x).phase = s.phase := rfl
@[simp] theorem State.setDec_regs (j : Nat) (x : DecX) : (s.setDec j x).regs = s.regs := rfl
@[simp] theorem State.setDec_rings (j : Nat) (x : DecX) : (s.setDec j x).rings = s.rings := rfl
@[simp] theorem State.setDec_fns (j : Nat) (x : DecX) : (s.setDec j x).fns = s.fns := rfl
@[simp] theorem State.setDec_arb (j : Nat) (x : DecX) : (s.setDec j x).arb = s.arb := rfl
@[simp] theorem State.setDec_vecs (j : Nat) (x : DecX) : (s.setDec j x).vecs = s.vecs := rfl
@[simp] theorem State.setDec_vfEnable (j : Nat) (x : DecX) : (s.setDec j x).vfEnable = s.vfEnable := rfl
@[simp] theorem State.setDec_raises (j : Nat) (x : DecX) : (s.setDec j x).raises = s.raises := rfl
@[simp] theorem State.setDec_held (j : Nat) (x : DecX) : (s.setDec j x).held = s.held := rfl
@[simp] theorem State.setDec_doorHeld (j : Nat) (x : DecX) : (s.setDec j x).doorHeld = s.doorHeld := rfl
@[simp] theorem State.setDec_pwr (j : Nat) (x : DecX) : (s.setDec j x).pwr = s.pwr := rfl
@[simp] theorem State.setDec_cores (j : Nat) (x : DecX) : (s.setDec j x).cores = s.cores := rfl
@[simp] theorem State.setDec_engMap (j : Nat) (x : DecX) : (s.setDec j x).engMap = s.engMap := rfl
@[simp] theorem State.setDec_failed (j : Nat) (x : DecX) : (s.setDec j x).failed = s.failed := rfl
@[simp] theorem State.setDec_subst (j : Nat) (x : DecX) : (s.setDec j x).subst = s.subst := rfl
@[simp] theorem State.setDec_therm (j : Nat) (x : DecX) : (s.setDec j x).therm = s.therm := rfl
@[simp] theorem State.setDec_sec (j : Nat) (x : DecX) : (s.setDec j x).sec = s.sec := rfl
@[simp] theorem State.setDec_upd (j : Nat) (x : DecX) : (s.setDec j x).upd = s.upd := rfl
@[simp] theorem State.setDec_twin (j : Nat) (x : DecX) : (s.setDec j x).twin = s.twin := rfl
@[simp] theorem State.setDec_tests (j : Nat) (x : DecX) : (s.setDec j x).tests = s.tests := rfl
@[simp] theorem State.setDec_hod (j : Nat) (x : DecX) : (s.setDec j x).hod = s.hod := rfl
@[simp] theorem State.setDec_rx (j : Nat) (x : DecX) : (s.setDec j x).rx = s.rx := rfl
@[simp] theorem State.setDec_tx (j : Nat) (x : DecX) : (s.setDec j x).tx = s.tx := rfl
@[simp] theorem State.setDec_cal (j : Nat) (x : DecX) : (s.setDec j x).cal = s.cal := rfl
@[simp] theorem State.setDec_bst (j : Nat) (x : DecX) : (s.setDec j x).bst = s.bst := rfl
@[simp] theorem State.setDec_shots (j : Nat) (x : DecX) : (s.setDec j x).shots = s.shots := rfl
@[simp] theorem State.setDec_epoch (j : Nat) (x : DecX) : (s.setDec j x).epoch = s.epoch := rfl
@[simp] theorem State.setDec_host (j : Nat) (x : DecX) : (s.setDec j x).host = s.host := rfl
@[simp] theorem State.setDec_htx (j : Nat) (x : DecX) : (s.setDec j x).htx = s.htx := rfl
@[simp] theorem State.setDec_chk (j : Nat) (x : DecX) : (s.setDec j x).chk = s.chk := rfl
@[simp] theorem State.setDec_seeds (j : Nat) (x : DecX) : (s.setDec j x).seeds = s.seeds := rfl
@[simp] theorem State.setDec_retire (j : Nat) (x : DecX) : (s.setDec j x).retire = s.retire := rfl
@[simp] theorem State.setDec_bgFused (j : Nat) (x : DecX) : (s.setDec j x).bgFused = s.bgFused := rfl
@[simp] theorem State.setDec_bgHigh (j : Nat) (x : DecX) : (s.setDec j x).bgHigh = s.bgHigh := rfl
@[simp] theorem State.setDec_bgLow (j : Nat) (x : DecX) : (s.setDec j x).bgLow = s.bgLow := rfl
@[simp] theorem State.setDec_mortar (j : Nat) (x : DecX) : (s.setDec j x).mortar = s.mortar := rfl
@[simp] theorem State.setDec_bias (j : Nat) (x : DecX) : (s.setDec j x).bias = s.bias := rfl
@[simp] theorem State.setDec_scv (j : Nat) (x : DecX) : (s.setDec j x).scv = s.scv := rfl
@[simp] theorem State.setDec_cmis (j : Nat) (x : DecX) : (s.setDec j x).cmis = s.cmis := rfl
@[simp] theorem State.setDec_eng (j : Nat) (x : DecX) : (s.setDec j x).eng = s.eng := rfl
@[simp] theorem State.setDec_tapIr (j : Nat) (x : DecX) : (s.setDec j x).tapIr = s.tapIr := rfl

/-! `State.setCmis` -/

@[simp] theorem State.setCmis_time (c : Nat) (x : CmisX) : (s.setCmis c x).time = s.time := rfl
@[simp] theorem State.setCmis_pending (c : Nat) (x : CmisX) : (s.setCmis c x).pending = s.pending := rfl
@[simp] theorem State.setCmis_freeCtr (c : Nat) (x : CmisX) : (s.setCmis c x).freeCtr = s.freeCtr := rfl
@[simp] theorem State.setCmis_out (c : Nat) (x : CmisX) : (s.setCmis c x).out = s.out := rfl
@[simp] theorem State.setCmis_phase (c : Nat) (x : CmisX) : (s.setCmis c x).phase = s.phase := rfl
@[simp] theorem State.setCmis_regs (c : Nat) (x : CmisX) : (s.setCmis c x).regs = s.regs := rfl
@[simp] theorem State.setCmis_rings (c : Nat) (x : CmisX) : (s.setCmis c x).rings = s.rings := rfl
@[simp] theorem State.setCmis_fns (c : Nat) (x : CmisX) : (s.setCmis c x).fns = s.fns := rfl
@[simp] theorem State.setCmis_arb (c : Nat) (x : CmisX) : (s.setCmis c x).arb = s.arb := rfl
@[simp] theorem State.setCmis_vecs (c : Nat) (x : CmisX) : (s.setCmis c x).vecs = s.vecs := rfl
@[simp] theorem State.setCmis_vfEnable (c : Nat) (x : CmisX) : (s.setCmis c x).vfEnable = s.vfEnable := rfl
@[simp] theorem State.setCmis_raises (c : Nat) (x : CmisX) : (s.setCmis c x).raises = s.raises := rfl
@[simp] theorem State.setCmis_held (c : Nat) (x : CmisX) : (s.setCmis c x).held = s.held := rfl
@[simp] theorem State.setCmis_doorHeld (c : Nat) (x : CmisX) : (s.setCmis c x).doorHeld = s.doorHeld := rfl
@[simp] theorem State.setCmis_pwr (c : Nat) (x : CmisX) : (s.setCmis c x).pwr = s.pwr := rfl
@[simp] theorem State.setCmis_cores (c : Nat) (x : CmisX) : (s.setCmis c x).cores = s.cores := rfl
@[simp] theorem State.setCmis_engMap (c : Nat) (x : CmisX) : (s.setCmis c x).engMap = s.engMap := rfl
@[simp] theorem State.setCmis_failed (c : Nat) (x : CmisX) : (s.setCmis c x).failed = s.failed := rfl
@[simp] theorem State.setCmis_subst (c : Nat) (x : CmisX) : (s.setCmis c x).subst = s.subst := rfl
@[simp] theorem State.setCmis_therm (c : Nat) (x : CmisX) : (s.setCmis c x).therm = s.therm := rfl
@[simp] theorem State.setCmis_sec (c : Nat) (x : CmisX) : (s.setCmis c x).sec = s.sec := rfl
@[simp] theorem State.setCmis_upd (c : Nat) (x : CmisX) : (s.setCmis c x).upd = s.upd := rfl
@[simp] theorem State.setCmis_twin (c : Nat) (x : CmisX) : (s.setCmis c x).twin = s.twin := rfl
@[simp] theorem State.setCmis_tests (c : Nat) (x : CmisX) : (s.setCmis c x).tests = s.tests := rfl
@[simp] theorem State.setCmis_hod (c : Nat) (x : CmisX) : (s.setCmis c x).hod = s.hod := rfl
@[simp] theorem State.setCmis_rx (c : Nat) (x : CmisX) : (s.setCmis c x).rx = s.rx := rfl
@[simp] theorem State.setCmis_tx (c : Nat) (x : CmisX) : (s.setCmis c x).tx = s.tx := rfl
@[simp] theorem State.setCmis_cal (c : Nat) (x : CmisX) : (s.setCmis c x).cal = s.cal := rfl
@[simp] theorem State.setCmis_bst (c : Nat) (x : CmisX) : (s.setCmis c x).bst = s.bst := rfl
@[simp] theorem State.setCmis_shots (c : Nat) (x : CmisX) : (s.setCmis c x).shots = s.shots := rfl
@[simp] theorem State.setCmis_epoch (c : Nat) (x : CmisX) : (s.setCmis c x).epoch = s.epoch := rfl
@[simp] theorem State.setCmis_host (c : Nat) (x : CmisX) : (s.setCmis c x).host = s.host := rfl
@[simp] theorem State.setCmis_htx (c : Nat) (x : CmisX) : (s.setCmis c x).htx = s.htx := rfl
@[simp] theorem State.setCmis_chk (c : Nat) (x : CmisX) : (s.setCmis c x).chk = s.chk := rfl
@[simp] theorem State.setCmis_seeds (c : Nat) (x : CmisX) : (s.setCmis c x).seeds = s.seeds := rfl
@[simp] theorem State.setCmis_retire (c : Nat) (x : CmisX) : (s.setCmis c x).retire = s.retire := rfl
@[simp] theorem State.setCmis_bgFused (c : Nat) (x : CmisX) : (s.setCmis c x).bgFused = s.bgFused := rfl
@[simp] theorem State.setCmis_bgHigh (c : Nat) (x : CmisX) : (s.setCmis c x).bgHigh = s.bgHigh := rfl
@[simp] theorem State.setCmis_bgLow (c : Nat) (x : CmisX) : (s.setCmis c x).bgLow = s.bgLow := rfl
@[simp] theorem State.setCmis_mortar (c : Nat) (x : CmisX) : (s.setCmis c x).mortar = s.mortar := rfl
@[simp] theorem State.setCmis_bias (c : Nat) (x : CmisX) : (s.setCmis c x).bias = s.bias := rfl
@[simp] theorem State.setCmis_scv (c : Nat) (x : CmisX) : (s.setCmis c x).scv = s.scv := rfl
@[simp] theorem State.setCmis_dec (c : Nat) (x : CmisX) : (s.setCmis c x).dec = s.dec := rfl
@[simp] theorem State.setCmis_eng (c : Nat) (x : CmisX) : (s.setCmis c x).eng = s.eng := rfl
@[simp] theorem State.setCmis_tapIr (c : Nat) (x : CmisX) : (s.setCmis c x).tapIr = s.tapIr := rfl

/-! `State.setEng` -/

@[simp] theorem State.setEng_time (e : Nat) (x : EngX) : (s.setEng e x).time = s.time := rfl
@[simp] theorem State.setEng_pending (e : Nat) (x : EngX) : (s.setEng e x).pending = s.pending := rfl
@[simp] theorem State.setEng_freeCtr (e : Nat) (x : EngX) : (s.setEng e x).freeCtr = s.freeCtr := rfl
@[simp] theorem State.setEng_out (e : Nat) (x : EngX) : (s.setEng e x).out = s.out := rfl
@[simp] theorem State.setEng_phase (e : Nat) (x : EngX) : (s.setEng e x).phase = s.phase := rfl
@[simp] theorem State.setEng_regs (e : Nat) (x : EngX) : (s.setEng e x).regs = s.regs := rfl
@[simp] theorem State.setEng_rings (e : Nat) (x : EngX) : (s.setEng e x).rings = s.rings := rfl
@[simp] theorem State.setEng_fns (e : Nat) (x : EngX) : (s.setEng e x).fns = s.fns := rfl
@[simp] theorem State.setEng_arb (e : Nat) (x : EngX) : (s.setEng e x).arb = s.arb := rfl
@[simp] theorem State.setEng_vecs (e : Nat) (x : EngX) : (s.setEng e x).vecs = s.vecs := rfl
@[simp] theorem State.setEng_vfEnable (e : Nat) (x : EngX) : (s.setEng e x).vfEnable = s.vfEnable := rfl
@[simp] theorem State.setEng_raises (e : Nat) (x : EngX) : (s.setEng e x).raises = s.raises := rfl
@[simp] theorem State.setEng_held (e : Nat) (x : EngX) : (s.setEng e x).held = s.held := rfl
@[simp] theorem State.setEng_doorHeld (e : Nat) (x : EngX) : (s.setEng e x).doorHeld = s.doorHeld := rfl
@[simp] theorem State.setEng_pwr (e : Nat) (x : EngX) : (s.setEng e x).pwr = s.pwr := rfl
@[simp] theorem State.setEng_cores (e : Nat) (x : EngX) : (s.setEng e x).cores = s.cores := rfl
@[simp] theorem State.setEng_engMap (e : Nat) (x : EngX) : (s.setEng e x).engMap = s.engMap := rfl
@[simp] theorem State.setEng_failed (e : Nat) (x : EngX) : (s.setEng e x).failed = s.failed := rfl
@[simp] theorem State.setEng_subst (e : Nat) (x : EngX) : (s.setEng e x).subst = s.subst := rfl
@[simp] theorem State.setEng_therm (e : Nat) (x : EngX) : (s.setEng e x).therm = s.therm := rfl
@[simp] theorem State.setEng_sec (e : Nat) (x : EngX) : (s.setEng e x).sec = s.sec := rfl
@[simp] theorem State.setEng_upd (e : Nat) (x : EngX) : (s.setEng e x).upd = s.upd := rfl
@[simp] theorem State.setEng_twin (e : Nat) (x : EngX) : (s.setEng e x).twin = s.twin := rfl
@[simp] theorem State.setEng_tests (e : Nat) (x : EngX) : (s.setEng e x).tests = s.tests := rfl
@[simp] theorem State.setEng_hod (e : Nat) (x : EngX) : (s.setEng e x).hod = s.hod := rfl
@[simp] theorem State.setEng_rx (e : Nat) (x : EngX) : (s.setEng e x).rx = s.rx := rfl
@[simp] theorem State.setEng_tx (e : Nat) (x : EngX) : (s.setEng e x).tx = s.tx := rfl
@[simp] theorem State.setEng_cal (e : Nat) (x : EngX) : (s.setEng e x).cal = s.cal := rfl
@[simp] theorem State.setEng_bst (e : Nat) (x : EngX) : (s.setEng e x).bst = s.bst := rfl
@[simp] theorem State.setEng_shots (e : Nat) (x : EngX) : (s.setEng e x).shots = s.shots := rfl
@[simp] theorem State.setEng_epoch (e : Nat) (x : EngX) : (s.setEng e x).epoch = s.epoch := rfl
@[simp] theorem State.setEng_host (e : Nat) (x : EngX) : (s.setEng e x).host = s.host := rfl
@[simp] theorem State.setEng_htx (e : Nat) (x : EngX) : (s.setEng e x).htx = s.htx := rfl
@[simp] theorem State.setEng_chk (e : Nat) (x : EngX) : (s.setEng e x).chk = s.chk := rfl
@[simp] theorem State.setEng_seeds (e : Nat) (x : EngX) : (s.setEng e x).seeds = s.seeds := rfl
@[simp] theorem State.setEng_retire (e : Nat) (x : EngX) : (s.setEng e x).retire = s.retire := rfl
@[simp] theorem State.setEng_bgFused (e : Nat) (x : EngX) : (s.setEng e x).bgFused = s.bgFused := rfl
@[simp] theorem State.setEng_bgHigh (e : Nat) (x : EngX) : (s.setEng e x).bgHigh = s.bgHigh := rfl
@[simp] theorem State.setEng_bgLow (e : Nat) (x : EngX) : (s.setEng e x).bgLow = s.bgLow := rfl
@[simp] theorem State.setEng_mortar (e : Nat) (x : EngX) : (s.setEng e x).mortar = s.mortar := rfl
@[simp] theorem State.setEng_bias (e : Nat) (x : EngX) : (s.setEng e x).bias = s.bias := rfl
@[simp] theorem State.setEng_scv (e : Nat) (x : EngX) : (s.setEng e x).scv = s.scv := rfl
@[simp] theorem State.setEng_dec (e : Nat) (x : EngX) : (s.setEng e x).dec = s.dec := rfl
@[simp] theorem State.setEng_cmis (e : Nat) (x : EngX) : (s.setEng e x).cmis = s.cmis := rfl
@[simp] theorem State.setEng_tapIr (e : Nat) (x : EngX) : (s.setEng e x).tapIr = s.tapIr := rfl

/-! `State.setSensor` -/

@[simp] theorem State.setSensor_time (t : Nat) (x : SensorX) : (s.setSensor t x).time = s.time := rfl
@[simp] theorem State.setSensor_pending (t : Nat) (x : SensorX) : (s.setSensor t x).pending = s.pending := rfl
@[simp] theorem State.setSensor_freeCtr (t : Nat) (x : SensorX) : (s.setSensor t x).freeCtr = s.freeCtr := rfl
@[simp] theorem State.setSensor_out (t : Nat) (x : SensorX) : (s.setSensor t x).out = s.out := rfl
@[simp] theorem State.setSensor_phase (t : Nat) (x : SensorX) : (s.setSensor t x).phase = s.phase := rfl
@[simp] theorem State.setSensor_regs (t : Nat) (x : SensorX) : (s.setSensor t x).regs = s.regs := rfl
@[simp] theorem State.setSensor_rings (t : Nat) (x : SensorX) : (s.setSensor t x).rings = s.rings := rfl
@[simp] theorem State.setSensor_fns (t : Nat) (x : SensorX) : (s.setSensor t x).fns = s.fns := rfl
@[simp] theorem State.setSensor_arb (t : Nat) (x : SensorX) : (s.setSensor t x).arb = s.arb := rfl
@[simp] theorem State.setSensor_vecs (t : Nat) (x : SensorX) : (s.setSensor t x).vecs = s.vecs := rfl
@[simp] theorem State.setSensor_vfEnable (t : Nat) (x : SensorX) : (s.setSensor t x).vfEnable = s.vfEnable := rfl
@[simp] theorem State.setSensor_raises (t : Nat) (x : SensorX) : (s.setSensor t x).raises = s.raises := rfl
@[simp] theorem State.setSensor_held (t : Nat) (x : SensorX) : (s.setSensor t x).held = s.held := rfl
@[simp] theorem State.setSensor_doorHeld (t : Nat) (x : SensorX) : (s.setSensor t x).doorHeld = s.doorHeld := rfl
@[simp] theorem State.setSensor_pwr (t : Nat) (x : SensorX) : (s.setSensor t x).pwr = s.pwr := rfl
@[simp] theorem State.setSensor_cores (t : Nat) (x : SensorX) : (s.setSensor t x).cores = s.cores := rfl
@[simp] theorem State.setSensor_engMap (t : Nat) (x : SensorX) : (s.setSensor t x).engMap = s.engMap := rfl
@[simp] theorem State.setSensor_failed (t : Nat) (x : SensorX) : (s.setSensor t x).failed = s.failed := rfl
@[simp] theorem State.setSensor_subst (t : Nat) (x : SensorX) : (s.setSensor t x).subst = s.subst := rfl
@[simp] theorem State.setSensor_sec (t : Nat) (x : SensorX) : (s.setSensor t x).sec = s.sec := rfl
@[simp] theorem State.setSensor_upd (t : Nat) (x : SensorX) : (s.setSensor t x).upd = s.upd := rfl
@[simp] theorem State.setSensor_twin (t : Nat) (x : SensorX) : (s.setSensor t x).twin = s.twin := rfl
@[simp] theorem State.setSensor_tests (t : Nat) (x : SensorX) : (s.setSensor t x).tests = s.tests := rfl
@[simp] theorem State.setSensor_hod (t : Nat) (x : SensorX) : (s.setSensor t x).hod = s.hod := rfl
@[simp] theorem State.setSensor_rx (t : Nat) (x : SensorX) : (s.setSensor t x).rx = s.rx := rfl
@[simp] theorem State.setSensor_tx (t : Nat) (x : SensorX) : (s.setSensor t x).tx = s.tx := rfl
@[simp] theorem State.setSensor_cal (t : Nat) (x : SensorX) : (s.setSensor t x).cal = s.cal := rfl
@[simp] theorem State.setSensor_bst (t : Nat) (x : SensorX) : (s.setSensor t x).bst = s.bst := rfl
@[simp] theorem State.setSensor_shots (t : Nat) (x : SensorX) : (s.setSensor t x).shots = s.shots := rfl
@[simp] theorem State.setSensor_epoch (t : Nat) (x : SensorX) : (s.setSensor t x).epoch = s.epoch := rfl
@[simp] theorem State.setSensor_host (t : Nat) (x : SensorX) : (s.setSensor t x).host = s.host := rfl
@[simp] theorem State.setSensor_htx (t : Nat) (x : SensorX) : (s.setSensor t x).htx = s.htx := rfl
@[simp] theorem State.setSensor_chk (t : Nat) (x : SensorX) : (s.setSensor t x).chk = s.chk := rfl
@[simp] theorem State.setSensor_seeds (t : Nat) (x : SensorX) : (s.setSensor t x).seeds = s.seeds := rfl
@[simp] theorem State.setSensor_retire (t : Nat) (x : SensorX) : (s.setSensor t x).retire = s.retire := rfl
@[simp] theorem State.setSensor_bgFused (t : Nat) (x : SensorX) : (s.setSensor t x).bgFused = s.bgFused := rfl
@[simp] theorem State.setSensor_bgHigh (t : Nat) (x : SensorX) : (s.setSensor t x).bgHigh = s.bgHigh := rfl
@[simp] theorem State.setSensor_bgLow (t : Nat) (x : SensorX) : (s.setSensor t x).bgLow = s.bgLow := rfl
@[simp] theorem State.setSensor_mortar (t : Nat) (x : SensorX) : (s.setSensor t x).mortar = s.mortar := rfl
@[simp] theorem State.setSensor_bias (t : Nat) (x : SensorX) : (s.setSensor t x).bias = s.bias := rfl
@[simp] theorem State.setSensor_scv (t : Nat) (x : SensorX) : (s.setSensor t x).scv = s.scv := rfl
@[simp] theorem State.setSensor_dec (t : Nat) (x : SensorX) : (s.setSensor t x).dec = s.dec := rfl
@[simp] theorem State.setSensor_cmis (t : Nat) (x : SensorX) : (s.setSensor t x).cmis = s.cmis := rfl
@[simp] theorem State.setSensor_eng (t : Nat) (x : SensorX) : (s.setSensor t x).eng = s.eng := rfl
@[simp] theorem State.setSensor_tapIr (t : Nat) (x : SensorX) : (s.setSensor t x).tapIr = s.tapIr := rfl

/-! `State.setLadder` -/

@[simp] theorem State.setLadder_time (c : Nat) (x : LadderX) : (s.setLadder c x).time = s.time := rfl
@[simp] theorem State.setLadder_pending (c : Nat) (x : LadderX) : (s.setLadder c x).pending = s.pending := rfl
@[simp] theorem State.setLadder_freeCtr (c : Nat) (x : LadderX) : (s.setLadder c x).freeCtr = s.freeCtr := rfl
@[simp] theorem State.setLadder_out (c : Nat) (x : LadderX) : (s.setLadder c x).out = s.out := rfl
@[simp] theorem State.setLadder_phase (c : Nat) (x : LadderX) : (s.setLadder c x).phase = s.phase := rfl
@[simp] theorem State.setLadder_regs (c : Nat) (x : LadderX) : (s.setLadder c x).regs = s.regs := rfl
@[simp] theorem State.setLadder_rings (c : Nat) (x : LadderX) : (s.setLadder c x).rings = s.rings := rfl
@[simp] theorem State.setLadder_fns (c : Nat) (x : LadderX) : (s.setLadder c x).fns = s.fns := rfl
@[simp] theorem State.setLadder_arb (c : Nat) (x : LadderX) : (s.setLadder c x).arb = s.arb := rfl
@[simp] theorem State.setLadder_vecs (c : Nat) (x : LadderX) : (s.setLadder c x).vecs = s.vecs := rfl
@[simp] theorem State.setLadder_vfEnable (c : Nat) (x : LadderX) : (s.setLadder c x).vfEnable = s.vfEnable := rfl
@[simp] theorem State.setLadder_raises (c : Nat) (x : LadderX) : (s.setLadder c x).raises = s.raises := rfl
@[simp] theorem State.setLadder_held (c : Nat) (x : LadderX) : (s.setLadder c x).held = s.held := rfl
@[simp] theorem State.setLadder_doorHeld (c : Nat) (x : LadderX) : (s.setLadder c x).doorHeld = s.doorHeld := rfl
@[simp] theorem State.setLadder_pwr (c : Nat) (x : LadderX) : (s.setLadder c x).pwr = s.pwr := rfl
@[simp] theorem State.setLadder_cores (c : Nat) (x : LadderX) : (s.setLadder c x).cores = s.cores := rfl
@[simp] theorem State.setLadder_engMap (c : Nat) (x : LadderX) : (s.setLadder c x).engMap = s.engMap := rfl
@[simp] theorem State.setLadder_failed (c : Nat) (x : LadderX) : (s.setLadder c x).failed = s.failed := rfl
@[simp] theorem State.setLadder_subst (c : Nat) (x : LadderX) : (s.setLadder c x).subst = s.subst := rfl
@[simp] theorem State.setLadder_sec (c : Nat) (x : LadderX) : (s.setLadder c x).sec = s.sec := rfl
@[simp] theorem State.setLadder_upd (c : Nat) (x : LadderX) : (s.setLadder c x).upd = s.upd := rfl
@[simp] theorem State.setLadder_twin (c : Nat) (x : LadderX) : (s.setLadder c x).twin = s.twin := rfl
@[simp] theorem State.setLadder_tests (c : Nat) (x : LadderX) : (s.setLadder c x).tests = s.tests := rfl
@[simp] theorem State.setLadder_hod (c : Nat) (x : LadderX) : (s.setLadder c x).hod = s.hod := rfl
@[simp] theorem State.setLadder_rx (c : Nat) (x : LadderX) : (s.setLadder c x).rx = s.rx := rfl
@[simp] theorem State.setLadder_tx (c : Nat) (x : LadderX) : (s.setLadder c x).tx = s.tx := rfl
@[simp] theorem State.setLadder_cal (c : Nat) (x : LadderX) : (s.setLadder c x).cal = s.cal := rfl
@[simp] theorem State.setLadder_bst (c : Nat) (x : LadderX) : (s.setLadder c x).bst = s.bst := rfl
@[simp] theorem State.setLadder_shots (c : Nat) (x : LadderX) : (s.setLadder c x).shots = s.shots := rfl
@[simp] theorem State.setLadder_epoch (c : Nat) (x : LadderX) : (s.setLadder c x).epoch = s.epoch := rfl
@[simp] theorem State.setLadder_host (c : Nat) (x : LadderX) : (s.setLadder c x).host = s.host := rfl
@[simp] theorem State.setLadder_htx (c : Nat) (x : LadderX) : (s.setLadder c x).htx = s.htx := rfl
@[simp] theorem State.setLadder_chk (c : Nat) (x : LadderX) : (s.setLadder c x).chk = s.chk := rfl
@[simp] theorem State.setLadder_seeds (c : Nat) (x : LadderX) : (s.setLadder c x).seeds = s.seeds := rfl
@[simp] theorem State.setLadder_retire (c : Nat) (x : LadderX) : (s.setLadder c x).retire = s.retire := rfl
@[simp] theorem State.setLadder_bgFused (c : Nat) (x : LadderX) : (s.setLadder c x).bgFused = s.bgFused := rfl
@[simp] theorem State.setLadder_bgHigh (c : Nat) (x : LadderX) : (s.setLadder c x).bgHigh = s.bgHigh := rfl
@[simp] theorem State.setLadder_bgLow (c : Nat) (x : LadderX) : (s.setLadder c x).bgLow = s.bgLow := rfl
@[simp] theorem State.setLadder_mortar (c : Nat) (x : LadderX) : (s.setLadder c x).mortar = s.mortar := rfl
@[simp] theorem State.setLadder_bias (c : Nat) (x : LadderX) : (s.setLadder c x).bias = s.bias := rfl
@[simp] theorem State.setLadder_scv (c : Nat) (x : LadderX) : (s.setLadder c x).scv = s.scv := rfl
@[simp] theorem State.setLadder_dec (c : Nat) (x : LadderX) : (s.setLadder c x).dec = s.dec := rfl
@[simp] theorem State.setLadder_cmis (c : Nat) (x : LadderX) : (s.setLadder c x).cmis = s.cmis := rfl
@[simp] theorem State.setLadder_eng (c : Nat) (x : LadderX) : (s.setLadder c x).eng = s.eng := rfl
@[simp] theorem State.setLadder_tapIr (c : Nat) (x : LadderX) : (s.setLadder c x).tapIr = s.tapIr := rfl

end Sys2Proof.Machine
end

