-- ==== Sys2Proof/Laws/Tab.lean ====
section
/-! SUPPORT. What the operations of sparse tables do: a read after a write, the canonical form kept. -/

namespace Sys2Proof.Machine

theorem Tab.get_erase {α : Type} (d : α) (t : Tab α) (k k' : Nat) :
    Tab.get d (Tab.erase t k) k' = if k' = k then d else Tab.get d t k' := by
  induction t with
  | nil => simp [Tab.erase, Tab.get]
  | cons p t ih =>
    obtain ⟨q, w⟩ := p
    simp only [Tab.erase, List.filter_cons, bne_iff_ne, ne_eq] at ih ⊢
    by_cases hq : q = k
    · subst hq
      simp only [not_true_eq_false, if_false, ih, Tab.get]
      split <;> rfl
    · simp only [hq, not_false_eq_true, if_true, Tab.get, ih]
      by_cases h1 : k' = q
      · subst h1; simp [hq]
      · simp [h1]

theorem Tab.get_insert {α : Type} (d : α) (t : Tab α) (k k' : Nat) (v : α) :
    Tab.get d (Tab.insert t k v) k' = if k' = k then v else Tab.get d t k' := by
  induction t with
  | nil => simp [Tab.insert, Tab.get]
  | cons p t ih =>
    obtain ⟨q, w⟩ := p
    unfold Tab.insert
    split
    · simp [Tab.get]
    · split
      · rename_i h1 h2
        subst h2
        simp only [Tab.get]
        split <;> simp_all
      · simp only [Tab.get, ih]
        by_cases h1 : k' = q
        · subst h1; simp; omega
        · simp [h1]

/-- A read after a write of one key, whatever the table. -/
theorem Tab.get_set_same {α : Type} [DecidableEq α] (d : α) (t : Tab α) (k : Nat) (v : α) :
    Tab.get d (Tab.set d t k v) k = v := by
  unfold Tab.set
  split
  · rename_i h; rw [Tab.get_erase, h]; simp
  · simp [Tab.get_insert]

/-- A write leaves every other key alone, whatever it reads as when unlisted. -/
theorem Tab.get_set_ne {α : Type} [DecidableEq α] (d d' : α) (t : Tab α) (k k' : Nat) (v : α)
    (h : k' ≠ k) : Tab.get d' (Tab.set d t k v) k' = Tab.get d' t k' := by
  unfold Tab.set
  split <;> simp [Tab.get_erase, Tab.get_insert, h]

theorem Tab.insert_mem {α : Type} (t : Tab α) (k : Nat) (v : α) :
    ∀ p ∈ Tab.insert t k v, p ∈ t ∨ p = (k, v) := by
  induction t with
  | nil => simp [Tab.insert]
  | cons q t ih =>
    obtain ⟨k', v'⟩ := q
    intro p hp
    unfold Tab.insert at hp
    split at hp
    · rcases List.mem_cons.mp hp with h | h
      · exact Or.inr h
      · exact Or.inl h
    · split at hp
      · rcases List.mem_cons.mp hp with h | h
        · exact Or.inr h
        · exact Or.inl (List.mem_cons_of_mem _ h)
      · rcases List.mem_cons.mp hp with h | h
        · exact Or.inl (h ▸ List.mem_cons_self ..)
        · rcases ih p h with h | h
          · exact Or.inl (List.mem_cons_of_mem _ h)
          · exact Or.inr h

theorem Tab.set_mem {α : Type} [DecidableEq α] (d : α) (t : Tab α) (k : Nat) (v : α) :
    ∀ p ∈ Tab.set d t k v, p ∈ t ∨ (p = (k, v) ∧ v ≠ d) := by
  intro p hp
  unfold Tab.set at hp
  split at hp
  · exact Or.inl (List.mem_filter.mp hp).1
  · rename_i hv
    rcases Tab.insert_mem t k v p hp with h | h
    · exact Or.inl h
    · exact Or.inr ⟨h, hv⟩

theorem Tab.filter_sorted {α : Type} (t : Tab α) (q : Nat × α → Bool) (h : Tab.sorted t = true) :
    Tab.sorted (t.filter q) = true := by
  induction t with
  | nil => rfl
  | cons p t ih =>
    obtain ⟨k, v⟩ := p
    simp only [Tab.sorted, Bool.and_eq_true, List.all_eq_true, decide_eq_true_eq] at h
    simp only [List.filter_cons]
    split
    · simp only [Tab.sorted, Bool.and_eq_true, List.all_eq_true, decide_eq_true_eq]
      exact ⟨fun p hp => h.1 p (List.mem_filter.mp hp).1, ih h.2⟩
    · exact ih h.2

theorem Tab.insert_sorted {α : Type} (t : Tab α) (k : Nat) (v : α) (h : Tab.sorted t = true) :
    Tab.sorted (Tab.insert t k v) = true := by
  induction t with
  | nil => simp [Tab.insert, Tab.sorted]
  | cons q t ih =>
    obtain ⟨k', v'⟩ := q
    simp only [Tab.sorted, Bool.and_eq_true, List.all_eq_true, decide_eq_true_eq] at h
    unfold Tab.insert
    split
    · rename_i h1
      simp only [Tab.sorted, Bool.and_eq_true, List.all_eq_true, decide_eq_true_eq, List.mem_cons]
      refine ⟨?_, h⟩
      rintro p (hp | hp)
      · subst hp; exact h1
      · exact lt_trans h1 (h.1 p hp)
    · split
      · rename_i h2
        subst h2
        simpa [Tab.sorted] using h
      · simp only [Tab.sorted, Bool.and_eq_true, List.all_eq_true, decide_eq_true_eq]
        refine ⟨?_, ih h.2⟩
        intro p hp
        rcases Tab.insert_mem t k v p hp with hp | hp
        · exact h.1 p hp
        · rw [hp]; show k' < k; omega

theorem Tab.set_sorted {α : Type} [DecidableEq α] (d : α) (t : Tab α) (k : Nat) (v : α)
    (h : Tab.sorted t = true) : Tab.sorted (Tab.set d t k v) = true := by
  unfold Tab.set
  split
  · exact Tab.filter_sorted t _ h
  · exact Tab.insert_sorted t k v h

theorem Tab.set_wf {α : Type} [DecidableEq α] (d : α) (t : Tab α) (k : Nat) (v : α)
    (h : Tab.wf d t = true) : Tab.wf d (Tab.set d t k v) = true := by
  simp only [Tab.wf, Bool.and_eq_true] at h ⊢
  refine ⟨Tab.set_sorted d t k v h.1, ?_⟩
  simp only [List.all_eq_true, decide_eq_true_eq] at h ⊢
  intro p hp
  rcases Tab.set_mem d t k v p hp with hp | hp
  · exact h.2 p hp
  · rw [hp.1]; exact hp.2

theorem Tab.clear_sorted {α : Type} (t : Tab α) (lo hi : Nat) (h : Tab.sorted t = true) :
    Tab.sorted (Tab.clear t lo hi) = true := Tab.filter_sorted t _ h

theorem Tab.clear_wf {α : Type} [DecidableEq α] (d : α) (t : Tab α) (lo hi : Nat)
    (h : Tab.wf d t = true) : Tab.wf d (Tab.clear t lo hi) = true := by
  simp only [Tab.wf, Bool.and_eq_true] at h ⊢
  refine ⟨Tab.clear_sorted t lo hi h.1, ?_⟩
  simp only [List.all_eq_true, decide_eq_true_eq] at h ⊢
  exact fun p hp => h.2 p (List.mem_filter.mp hp).1

theorem Tab.get_clear_out {α : Type} (d : α) (t : Tab α) (lo hi k : Nat) (h : k < lo ∨ hi ≤ k) :
    Tab.get d (Tab.clear t lo hi) k = Tab.get d t k := by
  induction t with
  | nil => rfl
  | cons q t ih =>
    obtain ⟨k', v⟩ := q
    unfold Tab.clear at ih ⊢
    simp only [List.filter_cons]
    split
    · simp only [Tab.get, ih]
    · rename_i hf
      simp only [Bool.not_eq_true', Bool.and_eq_true, decide_eq_true_eq, Bool.not_eq_eq_eq_not, Bool.not_true,
        Bool.not_eq_false] at hf
      have hk : k ≠ k' := by rintro rfl; omega
      simp only [Tab.get, hk, if_false, ih]

theorem Tab.get_clear_in {α : Type} (d : α) (t : Tab α) (lo hi k : Nat) (h1 : lo ≤ k) (h2 : k < hi) :
    Tab.get d (Tab.clear t lo hi) k = d := by
  induction t with
  | nil => rfl
  | cons q t ih =>
    obtain ⟨k', v⟩ := q
    unfold Tab.clear at ih ⊢
    simp only [List.filter_cons]
    split
    · rename_i hf
      simp only [Bool.not_eq_true', Bool.and_eq_false_iff, decide_eq_false_iff_not] at hf
      have hk : k ≠ k' := by rintro rfl; omega
      simp only [Tab.get, hk, if_false, ih]
    · exact ih

theorem Tab.setList_wf {α : Type} [DecidableEq α] (d : α) (vs : List α) :
    ∀ (t : Tab α) (k : Nat), Tab.wf d t = true → Tab.wf d (Tab.setList d t k vs) = true := by
  induction vs with
  | nil => intro t k h; exact h
  | cons v vs ih => intro t k h; exact ih _ _ (Tab.set_wf d t k v h)

theorem Tab.get_setList_out {α : Type} [DecidableEq α] (d : α) (vs : List α) :
    ∀ (t : Tab α) (k a : Nat), (a < k ∨ k + vs.length ≤ a) →
      Tab.get d (Tab.setList d t k vs) a = Tab.get d t a := by
  induction vs with
  | nil => intro t k a _; rfl
  | cons v vs ih =>
    intro t k a h
    simp only [List.length_cons] at h
    simp only [Tab.setList]
    rw [ih _ _ _ (by omega)]
    exact Tab.get_set_ne d d t k a v (by omega)

end Sys2Proof.Machine
end

