-- ==== Sys2Proof/Laws/Ops.lean ====
section
/-! SUPPORT. What the shared operations do: a register field reads back what was written, and a write of one field
leaves every other key of the register file alone; the same for the tables the state keeps per instance; and what
raising an event changes. -/

namespace Sys2Proof.Machine

variable (s : State)

/-! ## Registers -/

@[simp] theorem State.wr_regs (f : Fld) (v i j : Nat) :
    (s.wr f v i j).regs = Tab.set f.rst s.regs (f.key i j) (v % 2 ^ f.w) := rfl

/-- A field reads back what was written to it, cut to its width. -/
@[simp] theorem State.rd_wr_same (f : Fld) (v i j : Nat) : (s.wr f v i j).rd f i j = v % 2 ^ f.w := by
  simp [State.rd, Tab.get_set_same]

/-- A write leaves a field at another place alone. -/
theorem State.rd_wr_ne (f g : Fld) (v i j i' j' : Nat) (h : g.key i' j' ≠ f.key i j) :
    (s.wr f v i j).rd g i' j' = s.rd g i' j' := by
  simp [State.rd, Tab.get_set_ne _ _ _ _ _ _ h]

/-- A write leaves every other key of the register file alone. -/
theorem State.get_wr_ne (f : Fld) (v i j d k : Nat) (h : k ≠ f.key i j) :
    Tab.get d (s.wr f v i j).regs k = Tab.get d s.regs k := by
  simp [Tab.get_set_ne _ _ _ _ _ _ h]

theorem State.wr_sorted (f : Fld) (v i j : Nat) (h : Tab.sorted s.regs = true) :
    Tab.sorted (s.wr f v i j).regs = true := Tab.set_sorted _ _ _ _ h

theorem State.wrB_eq (f : Fld) (b : Bool) (i j : Nat) : s.wrB f b i j = s.wr f (bitVal b) i j := rfl

/-- Reading registers depends on the register file alone. -/
theorem State.rd_congr (s t : State) (h : t.regs = s.regs) (f : Fld) (i j : Nat) : t.rd f i j = s.rd f i j := by
  simp [State.rd, h]

/-! ## Tables of instances -/

@[simp] theorem State.ring_setRing_same (r : Nat) (x : RingX) : (s.setRing r x).ring r = x := by
  simp [State.ring, State.setRing, Tab.get_set_same]

theorem State.ring_setRing_ne (r r' : Nat) (x : RingX) (h : r' ≠ r) : (s.setRing r x).ring r' = s.ring r' := by
  simp [State.ring, State.setRing, Tab.get_set_ne _ _ _ _ _ _ h]

@[simp] theorem State.rxOf_setRx_same (n : Nat) (x : RxX) : (s.setRx n x).rxOf n = x := by
  simp [State.rxOf, State.setRx, Tab.get_set_same]

@[simp] theorem State.txOf_setTx_same (n : Nat) (x : TxX) : (s.setTx n x).txOf n = x := by
  simp [State.txOf, State.setTx, Tab.get_set_same]

@[simp] theorem State.calOf_setCal_same (n : Nat) (x : CalX) : (s.setCal n x).calOf n = x := by
  simp [State.calOf, State.setCal, Tab.get_set_same]

@[simp] theorem State.bstOf_setBst_same (n : Nat) (x : BstX) : (s.setBst n x).bstOf n = x := by
  simp [State.bstOf, State.setBst, Tab.get_set_same]

@[simp] theorem State.engOf_setEng_same (e : Nat) (x : EngX) : (s.setEng e x).engOf e = x := by
  simp [State.engOf, State.setEng, Tab.get_set_same]

@[simp] theorem State.biasOf_setBias_same (b : Nat) (x : BiasX) : (s.setBias b x).biasOf b = x := by
  simp [State.biasOf, State.setBias, Tab.get_set_same]

@[simp] theorem State.hostOf_setHost_same (k : Nat) (x : HostX) : (s.setHost k x).hostOf k = x := by
  simp [State.hostOf, State.setHost, Tab.get_set_same]

@[simp] theorem State.scvOf_setScv_same (i : Nat) (x : ScvX) : (s.setScv i x).scvOf i = x := by
  simp [State.scvOf, State.setScv, Tab.get_set_same]

@[simp] theorem State.cmisOf_setCmis_same (c : Nat) (x : CmisX) : (s.setCmis c x).cmisOf c = x := by
  simp [State.cmisOf, State.setCmis, Tab.get_set_same]

@[simp] theorem State.vec_setVec_same (f v : Nat) (x : Vec) : (s.setVec f v x).vec f v = x := by
  simp [State.vec, State.setVec, Tab.get_set_same]

@[simp] theorem State.fn_setFn_same (f : Nat) (x : FnX) : (s.setFn f x).fn f = x := by
  simp [State.fn, State.setFn, Tab.get_set_same]

/-! ## Raising an event (R504) -/

/-- Raising an event changes its latch bit, the number of the last source, and the raises on their way; nothing else. -/
theorem State.raise_eq (src detail : Nat) :
    ∃ rs hs, s.raise src detail = { (s.wr Reg.EVT.LATCH.RAISED 1 src).wr Reg.EVT.STAT.LAST_SRC src with
      raises := rs, held := hs } := by
  unfold State.raise
  dsimp only
  split
  · exact ⟨s.raises ++ [⟨src, s.time, detail, false⟩], s.held, rfl⟩
  · exact ⟨s.raises, holdRaise s.held ⟨src, s.time, detail, false⟩, rfl⟩

theorem State.raise_regs (src detail : Nat) :
    (s.raise src detail).regs = ((s.wr Reg.EVT.LATCH.RAISED 1 src).wr Reg.EVT.STAT.LAST_SRC src).regs := by
  obtain ⟨_, _, h⟩ := s.raise_eq src detail; rw [h]

/-- The latch bit of the source is set. -/
theorem State.raise_latch (src detail : Nat) (h : src < 608) :
    (s.raise src detail).flag Reg.EVT.LATCH.RAISED src = true := by
  rw [State.flag, State.rd_congr _ _ (s.raise_regs src detail), State.rd_wr_ne _ _ _ _ _ _ _ _ (by simp; omega)]
  simp

/-- A field outside the latch and the last source reads as before. -/
theorem State.raise_rd (src detail : Nat) (f : Fld) (i j : Nat) (h1 : f.key i j ≠ Reg.EVT.LATCH.RAISED.key src 0)
    (h2 : f.key i j ≠ Reg.EVT.STAT.LAST_SRC.key 0 0) : (s.raise src detail).rd f i j = s.rd f i j := by
  rw [State.rd_congr _ _ (s.raise_regs src detail), State.rd_wr_ne _ _ _ _ _ _ _ _ h2, State.rd_wr_ne _ _ _ _ _ _ _ _ h1]

/-- With K4 running the raise waits for K4, after those already waiting. -/
theorem State.raise_raises (src detail : Nat) (h : s.k4On = true) :
    (s.raise src detail).raises = s.raises ++ [⟨src, s.time, detail, false⟩] := by
  unfold State.raise
  dsimp only
  rw [if_pos h]
  rfl

end Sys2Proof.Machine
end

