-- ==== Sys2Proof/Laws/Commands.lean ====
section
/-! SUPPORT. What the shared course of a ring command comes to (R328): the lemmas that statements about a command cite
instead of unfolding it. -/

namespace Sys2Proof.Machine

variable {s u : State} {o : Op} {r : Nat} {e : Entry} {d : Dma} {f : Flight} {chk : State → Flight → Option Res}
  {run : State → Origin → Flight → State}

/-- A command that is taken up and meets its own conditions runs its effect. -/
theorem State.serve_taken (h : Taken s o r e d u f) (hc : chk u f = none) :
    s.serve o r e d chk run = run (u.setPhase r f.fid .running) (.host r f.fid) f := by
  obtain ⟨h1, h2, h3, h4⟩ := h
  unfold State.serve
  rw [h1]
  simp [h2, h3, h4, hc]

/-- A command that is taken up and fails a condition of its own is finished with the status and results it names. -/
theorem State.serve_refused (h : Taken s o r e d u f) (res : Res) (hc : chk u f = some res) :
    s.serve o r e d chk run = u.finish (.host r f.fid) res := by
  obtain ⟨h1, h2, h3, h4⟩ := h
  unfold State.serve
  rw [h1]
  simp [h2, h3, h4, hc]

/-- A command that fails a check before its own conditions is finished with that check's status. -/
theorem State.serve_fails (st : Status) (h1 : s.takeUp r (opCode o) e d = some (u, f))
    (h2 : startable (u.ring r).flights f = true) (h3 : u.judge f = .fails st) :
    s.serve o r e d chk run = u.finishSt (.host r f.fid) st := by
  unfold State.serve
  rw [h1]
  simp [h2, h3]

/-- A row that finds its command neither waiting nor at the head of its ring changes nothing. -/
theorem State.serve_none (h : s.takeUp r (opCode o) e d = none) : s.serve o r e d chk run = s := by
  unfold State.serve
  rw [h]

/-! ## What marking a flight changes -/

@[simp] theorem State.setPhase_regs (s : State) (r fid : Nat) (p : FlightPhase) : (s.setPhase r fid p).regs = s.regs := rfl

@[simp] theorem State.setPhase_rd (s : State) (r fid : Nat) (p : FlightPhase) (g : Fld) (i j : Nat) :
    (s.setPhase r fid p).rd g i j = s.rd g i j := rfl

@[simp] theorem State.setPhase_session (s : State) (r fid : Nat) (p : FlightPhase) :
    ((s.setPhase r fid p).ring r).session = (s.ring r).session := by simp [State.setPhase]

@[simp] theorem State.setPhase_nonce (s : State) (r fid : Nat) (p : FlightPhase) :
    ((s.setPhase r fid p).ring r).nonce = (s.ring r).nonce := by simp [State.setPhase]

/-- Marking a flight changes the rings alone. -/
theorem State.setPhase_eq (s : State) (r fid : Nat) (p : FlightPhase) :
    s.setPhase r fid p = { s with rings := (s.setPhase r fid p).rings } := rfl

end Sys2Proof.Machine
end

