-- ==== Sys2Proof/Tests/Slice0.lean ====
section
/-! SUPPORT. The model's own tests: a well-formedness smoke with an ill-formed command for each check, small results worked
out by hand from the spec, and for every statement with hypotheses states and operands that meet them, clause by clause,
at the edges of their ranges. -/

namespace Sys2Proof.Tests

open Sys2Proof.Machine

set_option Elab.async false

/-! ## States and entries the tests share -/

/-- The block in D_ACTIVE, with every course off. -/
def core : State := { State.reset with phase := .active }

/-- The same with course 0, its quad and the bias supply on. -/
def lit : State := (core.setCoursePow 0 .on).setQuadOn 0 true

/-- An operand value at byte `b` of an entry. -/
def at_ (b v : Nat) : Nat := v * 2 ^ (8 * (b - 16))

def entry (cls t ops : Nat) (flags : Nat := 0) : Entry :=
  ⟨BitVec.ofNat 8 flags, BitVec.ofNat 8 cls, BitVec.ofNat 32 t, 7, BitVec.ofNat 384 ops⟩

/-- Ring 0 enabled with 16 slots, one entry submitted, under a session of the top role. -/
def onRing (s : State) : State :=
  (((s.wr Reg.RING.CFG.SIZE 4).wr Reg.RING.STAT.STATE 1).wr Reg.RING.SQ_PTR.TAIL 1).setRing 0
    { s.ring 0 with session := some ⟨0, 3, 600, 600000000000⟩ }

/-- The command of this opcode and entry at the head of ring 0 is taken up from `s`, in a state and as a flight of which
`p` holds. -/
def tk (o : Op) (cls t ops : Nat) (s : State) (p : State → Flight → Bool := fun _ _ => true) (d : Dma := ⟨[], none⟩)
    (flags : Nat := 0) : Bool :=
  match (onRing s).takeUp 0 (opCode o) (entry cls t ops flags) d with
  | some (u, f) => startable (u.ring 0).flights f && decide (u.judge f = .applies) &&
      decide (f.e.flags.toNat / 2 % 2 = 0) && p u f
  | none => false

/-- What `tk` finds is what the statements ask for. -/
theorem tk_taken {o : Op} {cls t ops : Nat} {s : State} {p : State → Flight → Bool} {d : Dma} {flags : Nat}
    (h : tk o cls t ops s p d flags = true) :
    ∃ u f, Taken (onRing s) o 0 (entry cls t ops flags) d u f ∧ p u f = true := by
  unfold tk at h
  split at h
  · rename_i u f ha
    simp only [Bool.and_eq_true, decide_eq_true_eq] at h
    exact ⟨u, f, ⟨ha, h.1.1.1, h.1.1.2, h.1.2⟩, h.2⟩
  · exact absurd h (by simp)

/-- Engine `e` is free to issue the instruction at its PC, with no lane program. -/
def free (s : State) (e : Nat) : Bool :=
  s.engIssues e && fetchOk e (s.engOf e) && (s.engOf e).rep.isNone && (s.engOf e).prog.isNone &&
    decide (s.rd Reg.ENG.TAG_CTRL.WR_PTR e < 32)

theorem free_engFree {s : State} {e : Nat} (h : free s e = true) : s.engFree e := by
  simp only [free, Bool.and_eq_true, Option.isNone_iff_eq_none, decide_eq_true_eq] at h
  exact ⟨h.1.1.1.1, h.1.1.1.2, h.1.1.2, by simp [h.1.2], h.2⟩

/-- The command answers a state of which `p` holds. -/
def gives (c : Instr) (s : State) (p : State → Bool) : Bool :=
  match exec c s with
  | .next t => p t
  | _ => false

/-- The completion written last. -/
def lastRes (t : State) : Option Res :=
  t.out.reverse.findSome? fun o => match o with
    | .completion _ _ _ res _ _ => some res
    | _ => none

/-- The command of this opcode and entry at the head of ring 0 is taken up from `s` in a state and as a flight that
meet, with the state it leaves, `p`. -/
def ran (o : Op) (row : RingNo → Entry → Dma → Instr) (cls t ops : Nat) (s : State)
    (p : State → Flight → State → Bool) (d : Dma := ⟨[], none⟩) (flags : Nat := 0) : Bool :=
  tk o cls t ops s (fun u f => gives (row 0 (entry cls t ops flags) d) (onRing s) fun t => p u f t) d flags

/-- The same, and it completes with `res`. -/
def done (o : Op) (row : RingNo → Entry → Dma → Instr) (cls t ops : Nat) (s : State) (res : Res)
    (p : State → Flight → State → Bool := fun _ _ _ => true) (d : Dma := ⟨[], none⟩) (flags : Nat := 0) : Bool :=
  ran o row cls t ops s (fun u f t => decide (lastRes t = some res) && p u f t) d flags

/-! ## The block as a whole, rings and sessions -/

theorem witness_Step : ({ core with pending := [.coldReset] } : State).pending = Instr.coldReset :: [] ∧
    State.reset.pending = [] ∧ Tab.sorted State.reset.regs = true ∧
    (match step State.reset with | .next t => decide (t.time = 1) && t.regs == [] | _ => false) = true := by decide +kernel

/-- Ring 0 with both bases set. -/
def based : State := (core.wr Reg.RING.CQ_BASE.ADDR 1).wr Reg.RING.SQ_BASE.ADDR 1

theorem witness_RingsEnable : ringShapeOk based 0 17 0 ∧ ringShapeOk based 0 65 0 ∧ ¬ ringShapeOk based 0 13 0 ∧
    ¬ ringShapeOk based 0 69 0 ∧ ¬ ringShapeOk core 0 17 0 ∧ based.ringState 0 = 0 ∧ based.held = [] := by
  unfold ringShapeOk; decide

theorem test_RingsEnable : [
    gives (.ringEnable 0 0 17) based fun t => t.ringState 0 == 1 && t.rd Reg.RING.STAT.PHASE 0 == 1,
    gives (.ringEnable 0 0 69) based fun t => t.ringState 0 == 0 && t.rd Reg.RING.STAT.ERR_CAUSE 0 == 1,
    gives (.ringDisable 0 0 16) (onRing core) fun t => t.ringState 0 == 0 && (t.ring 0).session.isNone,
    gives (.ringQuiesced 0) (core.wr Reg.RING.STAT.STATE 3) fun t => t.ringState 0 == 0,
    gives (.ringQuiesced 0) (((based.wr Reg.RING.STAT.STATE 3).wr Reg.RING.CFG.EN 1).wr Reg.RING.CFG.SIZE 4) fun t =>
      t.ringState 0 == 1,
    gives (.ringQuiesced 0) ((core.wr Reg.RING.STAT.STATE 2).wr Reg.RING.CFG.EN 1) fun t => t.rd Reg.RING.CFG.EN 0 == 0,
    gives (.ringOwnerWrite 0 0 (3 * 128)) core fun t => t.ringOwner 0 == 3,
    gives (.ringOwnerWrite 0 0 (3 * 128 + 1)) (onRing core) fun t =>
      t.ringOwner 0 == 0 && t.rd Reg.RING.ERR_LOG.CAUSE == 6].all id = true := by decide +kernel

/-- Ring 0 enabled with 16 slots, five entries submitted, two of them fetched. -/
def belled : State := ((core.wr Reg.RING.CFG.SIZE 4).wr Reg.RING.STAT.STATE 1).wr Reg.RING.SQ_PTR.TAIL 5 |>.wr
  Reg.RING.SQ_PTR.HEAD 2

theorem witness_Doorbells : [
    gives (.sqTailDoorbell 0 0 0 4 1) belled fun t => t.rd Reg.RING.SQ_PTR.TAIL 0 == 1,
    gives (.sqTailDoorbell 0 0 0 4 2) belled fun t => t.ringState 0 == 2 && t.rd Reg.RING.STAT.ERR_CAUSE 0 == 2,
    gives (.sqTailDoorbell 0 0 0 4 16) belled fun t => t.ringState 0 == 2,
    gives (.cqHeadDoorbell 0 0 4 4 3) (belled.wr Reg.RING.CQ_PTR.TAIL 3) fun t => t.rd Reg.RING.CQ_PTR.HEAD 0 == 3,
    gives (.cqHeadDoorbell 0 0 4 4 4) (belled.wr Reg.RING.CQ_PTR.TAIL 3) fun t => t.rd Reg.RING.STAT.ERR_CAUSE 0 == 3,
    gives (.sqTailDoorbell 1 0 0 4 1) belled fun t => t.rd Reg.RING.DB_DROP.COUNT == 1 &&
      t.rd Reg.RING.DB_DROP.LAST_FN == 1,
    gives (.sqTailDoorbell 0 9 4 4 1) core fun t => t.rd Reg.RING.DB_DROP.LAST_PAGE == 9].all id = true := by decide +kernel

def peek0 : Peek := ⟨0, true, ⟨3, entry 0 0 0⟩⟩

theorem witness_WorkUnitServe : [
    (List.range 64).all (fun g => g == 0 || (onRing core).nextUnit [peek0] g == none) &&
      (onRing core).nextUnit [peek0] 0 == some 0 && ((onRing core).unitCost [peek0] 0).isSome &&
      ((onRing core).unitCost [peek0] 0).getD 0 ≤ 64 * max 1 (core.rd Reg.RING.ARB_CTRL.QUANTUM) &&
      (dataFlight ((onRing core).ring 0).flights).isNone && peekOf [peek0] 0 == some peek0,
    gives (.workUnitServe [peek0]) (onRing core) fun t => t.rd Reg.RING.SQ_PTR.HEAD 0 == 1].all id = true := by decide +kernel

/-- A raise that waits for K4, and event ring 1 in force for it. -/
def raised : State := { core.wr Reg.EVT.MAP.INTR 0 3 with raises := [⟨3, 5, 9, false⟩] }
def evented : State := ((((raised.wr Reg.EVT.MAP.EN 1 3).wr Reg.EVT.MAP.RING 1 3).wr Reg.RING.CFG.TYPE 1 1).wr
  Reg.RING.CFG.SIZE 4 1).wr Reg.RING.STAT.STATE 1 1

theorem witness_EventRecords : [
    core.k4On && raised.rd Reg.EVT.MAP.EN 3 == 0, gives .eventRecordWrite raised fun t => t.raises == [] && t.out == [],
    evented.eventRing 1 && evented.eventFree 1 && evented.rd Reg.EVT.MAP.INTR 3 == 0,
    gives .eventRecordWrite evented fun t => t.rd Reg.RING.CQ_PTR.TAIL 1 == 1 && (t.ring 1).rseq == 1,
    gives .eventRecordWrite (evented.wr Reg.RING.CQ_PTR.HEAD 15 1 |>.wr Reg.RING.CQ_PTR.TAIL 15 1) fun t =>
      t.rd Reg.RING.CQ_PTR.TAIL 1 == 0,
    gives (.coalesceTimerExpiry 0) (core.setRing 0 { coalCount := 2, coalVecs := [4] }) fun t =>
      (t.vec 0 4).pend && t.out == [],
    gives (.msixVectorUnmask 0 1039) core fun t => !(t.vec 0 1039).masked,
    gives (.evtMapWrite 0 607 0xFFFFFFFF) core fun t => t.rd Reg.EVT.MAP.VECTOR 607 == 2047].all id = true := by decide +kernel

theorem witness_Entries : [
    (onRing core).mayFetch 0 && fieldsOk .nop (entry 0 0 0) && core.lcOk .nop (entry 0 0 0) && !core.updateHolds .nop &&
      core.domainOk .nop (entry 0 0 0) && !core.testBlocks .nop (entry 0 0 0) && !core.mirroredCmd .nop (entry 0 0 0) &&
      decide (core.serverState (core.server .nop (entry 0 0 0)) = .runs),
    tk .nop 0 0 0 core,
    gives (.nop 0 (entry 0 1 0) ⟨[], none⟩) (onRing core) fun t => (lastRes t).map Res.st == some .badField,
    gives (.nop 0 (entry 0 0 0) ⟨[], none⟩) ((onRing core).setRing 0 {}) fun t => (lastRes t).map Res.st == some .noSession,
    gives (.powerSet 0 (entry 0 0 0) ⟨[], none⟩) ((onRing core).setRing 0 { session := some ⟨0, 0, 600, 600000000000⟩ })
      fun t => (lastRes t).map Res.st == some .roleDenied].all id = true := by decide +kernel

/-- Commands in flight on ring 0: the one that ran, and one behind it. -/
def fl (fid : Nat) : Flight := ⟨fid, 3, entry 0 0 0, ⟨[], none⟩, some 3, 0, 1, 0, none, .running⟩

theorem witness_Completions : [
    (core.setRing 0 { flights := [fl 0] }).rd Reg.RING.INTR.IE 0 == 0,
    decide (lastRes ((core.setRing 0 { flights := [fl 0] }).finish (.host 0 0) {}) = some {}),
    ((core.setRing 0 { flights := [fl 0, fl 1] }).finish (.host 0 1) {}).out == []].all id = true := by decide +kernel

/-- A challenge answered on ring 0 for key slot 5, which has the ceiling UPDATE and is bound to function 0. -/
def asked : State := core.setRing 0 { nonce := some ⟨5, 77, 1000⟩ }
def keyed (ceil bind : Nat) : State :=
  { asked with sec := { asked.sec with keys := [(5, ⟨[1], ceil, bind⟩)].map fun p => (p.1, some p.2) } }
def response : Nat := at_ 16 1 + at_ 17 5 + at_ 18 3 + at_ 20 10

theorem witness_Sessions : [
    tk .sessionOpen 9 0 (at_ 17 63) core, tk .sessionOpen 9 0 response core (fun u f => u.validNonce 0 (opByte f.e 17) == none),
    tk .sessionOpen 9 0 response { core with fns := [(0, { lockUntil := 9 })] } fun u f => u.time < (u.fn f.fn).lockUntil,
    tk .sessionOpen 9 0 response asked fun u f => (u.validNonce 0 (opByte f.e 17)).isSome && (u.keySlot 5).isNone,
    tk .sessionOpen 9 0 response (keyed 2 255) fun u _ => (u.keySlot 5).isSome,
    tk .sessionOpen 9 0 response (keyed 3 1) fun u _ => (u.keySlot 5).isSome,
    tk .sessionOpen 9 0 response (keyed 3 0) fun u f => (u.validNonce 0 5).isSome && opByte f.e 18 ≤ 3,
    done .sessionClose .sessionClose 9 0 0 core {} fun _ _ t => (t.ring 0).session.isNone,
    gives (.sessionIdleExpiry 0) (onRing core) fun t => (t.ring 0).session.isNone && t.time == 600000000000,
    gives (.nonceExpiry 0) asked fun t => (t.ring 0).nonce.isNone && t.time == 1000,
    done .nop .nop 0 0 0 { core with time := 2 ^ 33 + 5 } { r1 := 5, r2 := 2 },
    tk .nop 0 0 0 core (fun u _ => (u.ring 0).flights.length == 1) ⟨[], none⟩ 1].all id = true := by decide +kernel

/-! ## Engines -/

def prog : ProgX := { header := [], code := [1], entry := 0 }

/-- Engine 0 in user mode at the start of its instruction window, with a program loaded and running, a budget of one
unit, and its own loops. Its g2 is written, so that no comparison of the whole engine meets a free value. -/
def user0 : State :=
  ((lit.setEng 0 { g := [(2, 9)], pc := 0xC000, status := 0x300, prog := some prog }).wr Reg.ENG.PROG_STAT.STATE 2 0)

/-- Engine 0 with this state of its own. -/
def eng (x : EngX) : State := lit.setEng 0 x

/-- A lane program may issue at its PC, with no stop of it waiting. -/
def userFree (s : State) : Bool :=
  let x := s.engOf 0
  s.engIssues 0 && fetchOk 0 x && x.rep.isNone && x.user && decide (s.rd Reg.ENG.TAG_CTRL.WR_PTR 0 < 32) &&
    (match x.prog with | some p => p.stopDue.isNone | none => true)

/-- The spare 95 loads for engine `e`. -/
def spareFor (e : Nat) (s : State) : State := { s with subst := some (e, 7), failed := [⟨e, 2, 0⟩] }

theorem witness_FailedEngines : [
    (lit.engMapOf 64 == .running) && lit.courseD (courseOfEngine 64) && lit.coreRuns 0 && lit.subst.isNone &&
      lit.failed.isEmpty && lit.freeSpare == some 0 && lit.rd Reg.UPD.STAT.STATE == 0 && !lit.upd.bootTrial,
    gives (.engineFailure 64 2) lit fun t => t.subst == some (64, 0) && t.engMapOf 64 == .substituting,
    gives (.engineFailure 79 4) (core.setCoursePow 7 .on) fun t => t.subst == some (79, 0),
    gives (.engineFailure 88 4) lit fun t => t.engMapOf 88 == .unmapped,
    gives (.engineSubstituted []) { lit with subst := some (64, 7), failed := [⟨64, 2, 0⟩] } fun t =>
      t.failed.isEmpty && (t.raises.map Raise.detail) == [64 + 512 + 128 + 65536 * 95],
    gives (.engineSubstituted []) (spareFor 64 ((lit.setEng 64 { blockSlot := 1, blockLens := [(0, 8), (1, 8)] }).setHodWord
      (blockOfs 64 0 / 8) ⟨1, true⟩)) fun t => (t.engOf 64).resumed == some 1 && t.rd Reg.HOD.ECC_LOG.SOURCE == 1,
    gives (.engineSubstituted []) (spareFor 64 (lit.setEng 64 { blockSlot := 1, blockLens := [(0, 8)] })) fun t =>
      (t.engOf 64).resumed == some 0,
    gives (.engineSubstituted []) (spareFor 64 (((lit.setEng 64 { blockSlot := 1, blockLens := [(0, 8), (1, 8)] }).setHodWord
      (blockOfs 64 0 / 8) ⟨1, true⟩).setHodWord (blockOfs 64 1 / 8) ⟨1, true⟩)) fun t =>
      (t.engOf 64).resumed == none,
    gives (.watchdogExpiry 64) lit fun t => (t.failed.map FailedEng.cause) == [2] || t.subst.isSome].all id = true := by decide +kernel

theorem witness_KeepCores : [
    gives (.keepCoreFault 0 1) core fun t => !(t.core 1).stopped && (t.core 1).faults == 1 &&
      (t.raises.map Raise.detail) == [1 + 8 + 256],
    gives (.keepCoreFault 3 3) { core with cores := [(4, ⟨1, false, false⟩)] } fun t => (t.core 4).stopped,
    gives (.keepCoreFault 5 2) { core with cores := [(0, ⟨2, true, false⟩)] } fun t => (t.core 6).stopped,
    gives (.keepCoreFault 5 2) { core with cores := [(0, ⟨1, false, true⟩)] } fun t => t.core 6 == ⟨1, true, true⟩,
    gives (.foremanFault 1) core fun t => t.core 0 == ⟨1, false, true⟩,
    gives (.foremanFault 1) (core.wr Reg.UPD.STAT.STATE 3) fun t => t.rd Reg.UPD.STAT.STATE == 3 && t.upd.faulted,
    gives (.foremanFault 1) { core with cores := [(0, ⟨1, false, false⟩)] } fun t => (t.core 0).stopped].all id = true := by
  decide +kernel

theorem witness_Alu : [
    free lit 0, free (core.setCoursePow 7 .on) 79, free core 80, free core 87,
    free (eng { g := [(3, 0x80000000)] }) 0,
    gives (.engAdd 0 1 2 3) (eng { g := [(2, 0xFFFFFFFF), (3, 1)] }) fun t =>
      Tab.get 0 (t.engOf 0).g 1 == 0 && (t.engOf 0).status == 4,
    gives (.engAdds 0 1 2 2) (eng { g := [(2, 0x7FFFFFFF)] }) fun t =>
      Tab.get 0 (t.engOf 0).g 1 == 0x7FFFFFFF && (t.engOf 0).status == 0x20,
    gives (.engSra 0 1 2 3) (eng { g := [(2, 0x80000000), (3, 63)] }) fun t => Tab.get 0 (t.engOf 0).g 1 == 0xFFFFFFFF,
    gives (.engClz 0 1 2) (eng { g := [(2, 1)] }) fun t => Tab.get 0 (t.engOf 0).g 1 == 31,
    gives (.engClz 0 1 2) (eng {}) fun t => Tab.get 0 (t.engOf 0).g 1 == 32,
    gives (.engAddi 0 1 2 0xFFFF) (eng { g := [(2, 5)] }) fun t => Tab.get 0 (t.engOf 0).g 1 == 4,
    gives (.engLui 0 1 0x8001) (eng {}) fun t => Tab.get 0 (t.engOf 0).g 1 == 0x80010000].all id = true := by decide +kernel

theorem witness_Products : [
    userFree user0, free (eng { a := [(0, 0x7FFFFFFFFF)] }) 0,
    gives (.engMac 0 0 1 2 false true) (eng { g := [(1, 0xFFFF), (2, 0x20000)], a := [(0, 3)] }) fun t =>
      (t.engOf 0).acc 0 == 1,
    gives (.engMac 0 0 1 1 false false) (eng { g := [(1, 1)], a := [(0, 0x7FFFFFFFFF)] }) fun t =>
      (t.engOf 0).acc 0 == -2 ^ 39 && (t.engOf 0).status == 0x10,
    gives (.engDmac 0 2 1 1 false false) (eng { g := [(1, 0x30002)] }) fun t =>
      (t.engOf 0).acc 2 == 4 && (t.engOf 0).acc 3 == 9,
    gives (.engDmac 0 1 1 1 false false) user0 fun t => t.rd Reg.ENG.PROG_STAT.CAUSE 0 == 1,
    gives (.engExt 0 1 0 40) user0 fun t => t.rd Reg.ENG.PROG_STAT.STATE 0 == 4,
    gives (.engExt 0 1 0 39) (eng { a := [(0, 0x4000000000)] }) fun t => Tab.get 0 (t.engOf 0).g 1 == 1,
    gives (.engGrda 0 1 0) (eng { a := [(0, 0x8000000000)] }) fun t => Tab.get 0 (t.engOf 0).g 1 == 0xFFFFFF80].all id =
      true := by decide +kernel

/-- Engine 0 with address register 0 at `a`. -/
def ptr (a : Word) (x : EngX := {}) : State := eng { x with p := [(0, a)] }

theorem witness_LoadsAndStores : [
    free (ptr 0x10000000) 0, ((ptr 0x10000000).engOf 0).ea ⟨0, 0, 4⟩ == some 0x10000004,
    spaceOf 0 false 0x1001FFFC 4 true == .data, spaceOf 0 true 0x10018000 2 true == .data,
    gives (.engLh 0 1 ⟨0, 1, 2⟩ false 0) (ptr 0x10000000 { data := [(0, 0x34), (1, 0x92)] }) fun t =>
      Tab.get 0 (t.engOf 0).g 1 == 0xFFFF9234 && (t.engOf 0).preg 0 == 0x10000002,
    gives (.engLw 0 1 ⟨0, 0, 0xFFFC⟩ true 0) (ptr 0x10000004 { data := [(3, 0x12)] }) fun t =>
      Tab.get 0 (t.engOf 0).g 1 == 0x12000000 && (t.engOf 0).beat == 2,
    gives (.engSw 0 1 ⟨0, 2, 4⟩ false) (ptr 0x10000004 { g := [(1, 0x01020304)], cb := [(0, 0x10000000)], cl := [(0, 8)] })
      fun t => (t.engOf 0).data == [(4, 4), (5, 3), (6, 2), (7, 1)] && (t.engOf 0).preg 0 == 0x10000000,
    gives (.engSacw 0 0 ⟨0, 0, 0⟩ false) (ptr 0x10000000 { a := [(0, 0x80000000)] }) fun t =>
      ((t.engOf 0).data.map fun p => p.2) == [0xFF, 0xFF, 0xFF, 0x7F] && (t.engOf 0).status == 0x20,
    gives (.engSach 0 0 ⟨0, 0, 0⟩ false) (ptr 0x10000000 { a := [(0, 0x18000)], ash := 1 }) fun t =>
      ((t.engOf 0).data.map fun p => p.2) == [0xFF, 0x7F] && (t.engOf 0).status == 0x20,
    gives (.engSach 0 0 ⟨0, 0, 0⟩ false) (ptr 0x10000000 { a := [(0, 0xFFFFFF8000)] }) fun t =>
      ((t.engOf 0).data.map fun p => p.2) == [0x80] && (t.engOf 0).status == 0].all id = true := by decide +kernel

theorem witness_BranchesAndRepeat : [
    free lit 0 && (lit.engOf 0).slots.isNone,
    gives (.engBra 0 0xFFFFF) (eng { pc := 8 }) fun t => (t.engOf 0).slots == some (2, 4) && (t.engOf 0).pc == 12,
    gives (.engBeqz 0 1 5) (eng { g := [(1, 1)] }) fun t => (t.engOf 0).slots == some (2, 12),
    gives (.engBal 0 5) (eng {}) fun t => Tab.get 0 (t.engOf 0).g 15 == 12 && (t.engOf 0).slots == some (2, 20),
    gives (.engNop 0) (eng { pc := 8, slots := some (1, 0x40) }) fun t => (t.engOf 0).pc == 0x40,
    gives (.engRep 0 false 0 1023) (eng {}) fun t => (t.engOf 0).rep == some (1024, 0),
    gives (.engMac 0 0 1 1 false false) (eng { g := [(1, 3)], rep := some (3, 0), pc := 4 }) fun t =>
      (t.engOf 0).acc 0 == 27 && (t.engOf 0).rep.isNone && (t.engOf 0).beat == 3].all id = true := by decide +kernel

theorem witness_SystemRegisters : [
    free lit 0 && !(lit.engOf 0).user, userFree user0,
    gives (.engMts 0 1 0) (user0.setEng 0 { user0.engOf 0 with g := [(1, 0xFFFFFFFF)] }) fun t =>
      (t.engOf 0).status == 0x33F,
    gives (.engMfs 0 1 0x20) (eng { beat := 0x500000007 }) fun t =>
      Tab.get 0 (t.engOf 0).g 1 == 7 && (t.engOf 0).beatHi == 5,
    gives (.engWait 0) (eng { ipend := 2 }) fun t => (t.engOf 0).asleep.isSome,
    gives (.engWait 0) ((eng { ipend := 2 }).wr Reg.ENG.SLEEP.WAKE_MASK 2 0) fun t => (t.engOf 0).asleep.isNone,
    gives (.engRti 0) (eng { epc := 0x80, estatus := 0x100 }) fun t => (t.engOf 0).pc == 0x80 && (t.engOf 0).ie,
    gives (.engineWake 0 3 false true) (eng { asleep := some 0 }) fun t => (t.engOf 0).ipend == 0,
    gives (.engineWake 0 3 false false) (eng { asleep := some 0 }) fun t => (t.engOf 0).ipend == 8,
    gives (.engineInterrupt 0) (eng { pc := 0x40, status := 0x301, ien := 0x8006, ipend := 0x8004 }) fun t =>
      (t.engOf 0).pc == 8 && (t.engOf 0).epc == 0x40 && (t.engOf 0).estatus == 0x301 && (t.engOf 0).status == 1].all id =
        true := by decide +kernel

theorem witness_Sandbox : [
    user0.engIssues 0 && !fetchOk 0 { user0.engOf 0 with pc := 0x10000 },
    gives (.engNop 0) (user0.setEng 0 { user0.engOf 0 with pc := 0x10000 }) fun t => t.rd Reg.ENG.PROG_STAT.CAUSE 0 == 2,
    gives (.engBra 0 1) (user0.setEng 0 { user0.engOf 0 with slots := some (2, 0xC000) }) fun t =>
      t.rd Reg.ENG.PROG_STAT.CAUSE 0 == 1,
    gives (.engWait 0) user0 fun t => t.rd Reg.ENG.PROG_STAT.CAUSE 0 == 4,
    gives (.engMfs 0 1 5) user0 fun t => t.rd Reg.ENG.PROG_STAT.CAUSE 0 == 3,
    gives (.engMts 0 1 0x40) user0 fun t => t.rd Reg.ENG.PROG_STAT.CAUSE 0 == 3,
    gives (.engLw 0 1 ⟨0, 0, 0⟩ false 0) (user0.setEng 0 { user0.engOf 0 with p := [(0, 0x10020000)] }) fun t =>
      t.rd Reg.ENG.PROG_STAT.CAUSE 0 == 2,
    gives (.engSw 0 1 ⟨0, 0, 0⟩ false) (user0.setEng 0 { user0.engOf 0 with p := [(0, 0x20008000)] }) fun t =>
      t.rd Reg.ENG.PROG_STAT.CAUSE 0 == 2,
    gives (.engLw 0 1 ⟨0, 0, 0⟩ false 2) (user0.setEng 0 { user0.engOf 0 with p := [(0, 0x1001FFFC)] }) fun t =>
      t.rd Reg.ENG.PROG_STAT.CAUSE 0 == 5,
    gives (.engSvc 0 4 0) user0 fun t => t.rd Reg.ENG.PROG_STAT.CAUSE 0 == 6].all id = true := by decide +kernel

/-- The same program with both loops its own and g1 at `v`. -/
def owner (v : Word) : State :=
  ((user0.setEng 0 { user0.engOf 0 with g := [(1, v)] }).wr Reg.ENG.PROG_CTRL.OWN_FFE 1 0).wr Reg.ENG.PROG_CTRL.OWN_TGT 1 0
/-- And with the lane ACTIVE and locked, so that no freeze holds. -/
def loops (v : Word) : State :=
  (((owner v).wr Reg.LN.RX_STAT.LANE_STATE 3 0).wr Reg.LN.RX_STAT.CDR_LOCK 1 0).wr Reg.LN.RX_STAT.FRAME_LOCK 1 0

theorem witness_FirmwareCalls : [
    userFree (owner 0), (user0.engOf 0).slots.isNone,
    gives (.engSvc 0 1 400) { user0 with time := 9 } fun t => Tab.get 0 (t.engOf 0).g 1 == 9 && (t.engOf 0).beat == 401,
    gives (.engSvc 0 2 0) user0 fun t => Tab.get 0 (t.engOf 0).g 0 == 1,
    !(loops 0).loopFrozen 0 Reg.LN.RX_CTRL.FFE_FREEZE, !(loops 0).loopFrozen 0 Reg.LN.RX_CTRL.TGT_FREEZE,
    gives (.engSvc 0 2 0) (loops 0x1001FFA2) fun t => Tab.get 0 (t.engOf 0).g 0 == 2,
    gives (.engSvc 0 2 0) (loops 0x1001FFA0) fun t => Tab.get 0 (t.engOf 0).g 0 == 0,
    gives (.engSvc 0 3 0) user0 fun t => Tab.get 0 (t.engOf 0).g 0 == 1,
    gives (.engSvc 0 3 0) ((loops 0x79).wr Reg.LN.MLSE_CTRL.ALPHA1_MAX 9 0) fun t =>
      Tab.get 0 (t.engOf 0).g 0 == 0 && t.rd Reg.LN.MLSE_CTRL.ALPHA1 0 == 9 && t.rd Reg.LN.MLSE_CTRL.ALPHA2 0 == 7,
    gives (.engSvc 0 3 0) ((loops 0x7A).wr Reg.LN.MLSE_CTRL.ALPHA1_MAX 9 0) fun t => Tab.get 0 (t.engOf 0).g 0 == 2,
    gives (.engSvc 0 0 0) user0 fun t => !(t.engOf 0).user,
    gives (.engSvc 0 9 0) (eng { g := [(2, 9)] }) fun t => (t.engOf 0).epc == 4 && !(t.engOf 0).user,
    gives (.budgetExhausted 0) (user0.setEng 0 { user0.engOf 0 with prog := some { prog with used := 65536 } }) fun t =>
      !(t.engOf 0).user,
    gives (.budgetPeriod 0) ((eng { prog := some { prog with suspended := true, pc := 0xC008, status := 0x300 } }).wr
      Reg.ENG.PROG_STAT.STATE 2 0) fun t => (t.engOf 0).pc == 0xC008 && (t.engOf 0).user].all id = true := by decide +kernel

/-- Lane program 0 loaded and in state `st`. -/
def loaded (st : Nat) (x : EngX := {}) : State := (eng { x with prog := some prog }).wr Reg.ENG.PROG_STAT.STATE st 0

theorem witness_Programs : [
    done .programCtrl .programCtrl 7 0 (at_ 16 1) (loaded 1) {} fun _ _ t => t.progState 0 == 2 && (t.engOf 0).pc == 0xC000,
    done .programCtrl .programCtrl 7 0 (at_ 16 1) (loaded 4) {} fun _ _ t => (t.engOf 0).user,
    done .programCtrl .programCtrl 7 0 (at_ 16 2) (loaded 3) {} fun _ _ t => t.progState 0 == 0,
    done .programCtrl .programCtrl 7 0 0 user0 {} fun _ _ t => t.progState 0 == 3,
    done .programCtrl .programCtrl 7 0 (at_ 16 2) (loaded 2) { st := .badField },
    done .programCtrl .programCtrl 7 0 (at_ 16 1) (loaded 0) { st := .badField },
    gives (.stateBlockWrite 79 [1, 2]) ((core.setCoursePow 7 .on).wr Reg.HOD.STAT.READY 1) fun t =>
      (t.engOf 79).blockSlot == 1,
    gives (.stateBlockWrite 79 [1, 2]) { ((core.setCoursePow 7 .on).wr Reg.HOD.STAT.READY 1).wr Reg.UPD.STAT.STATE 3 with
      upd := { dual := true } } fun t => (t.engOf 79).blockLens == [(0, 2)],
    gives (.stateBlockWrite 79 [1, 2]) { ((core.setCoursePow 7 .on).wr Reg.HOD.STAT.READY 1).wr Reg.UPD.STAT.STATE 4 with
      upd := { dual := true } } fun t => (t.engOf 79).blockLens == [(0, 2), (1, 2)] && (t.engOf 79).blockSlot == 1,
    gives (.pmcClear (.eng 79 3)) ((core.setCoursePow 7 .on).wr Reg.ENG.PMC_CNT.COUNT 5 79 3) fun t =>
      t.rd Reg.ENG.PMC_CNT.COUNT 79 3 == 0,
    gives (.pmcClear (.dp 31)) (core.wr Reg.PMC.DP_CNT.COUNT 5 31) fun t => t.rd Reg.PMC.DP_CNT.COUNT 31 == 0,
    gives .dpClear (core.wr Reg.PMC.DP_CNT.COUNT 5 31) fun t => t.rd Reg.PMC.DP_CNT.COUNT 31 == 0,
    gives (.pmcCounterWrap (.dp 30)) ((core.wr Reg.PMC.DP_CNT.COUNT (2 ^ 48 - 1) 30).wr Reg.PMC.DP_SEL.CHAIN 1 31)
      fun t => t.rd Reg.PMC.DP_CNT.COUNT 30 == 0 && t.rd Reg.PMC.DP_CNT.COUNT 31 == 1].all id = true := by decide +kernel

/-! ## Resets and starts, bias channels, temperature -/

/-- A start with both commit records void and these two slots. -/
def boot (a b : Option (List Byte)) : BootIn := ⟨0, [], [], a, b, 0, [], false, [], []⟩
def hot : State := core.wr Reg.THM.SENSOR.READING 5000 0

theorem witness_Starts : [
    gives .coldReset { lit with time := 5, pending := [.warmReset] } fun t => t.time == 0 && !t.courseOn 0 &&
      t.pending == [.warmReset],
    gives .warmReset lit fun t => t.phase == .inReset && !t.courseOn 0,
    gives (.supplyLoss false) lit fun t => t.phase == .brownout,
    { hot with phase := .inReset }.tooHot, { hot with phase := .brownout }.tooHot, { hot with phase := .heldHot }.tooHot,
    !State.reset.tooHot, recordOf [] == none, State.reset.phase == .inReset,
    gives (.perstRelease (boot none none)) State.reset fun t => t.phase == .halted,
    gives (.perstRelease { boot none none with badOverlay := true, badMaps := [5], badSeeds := [5] }) { State.reset with
        hod := { saved := [(3, false, 9)] }, retire := [(5, [1])], seeds := [(5, some {})] } fun t => t.hod.saved == [] &&
      t.flag Reg.HOD.REPAIR_STAT.OVERLAY_BAD && t.retire.isEmpty && decide (Tab.get none t.seeds 5 = some { crcOk := false }),
    gives (.supplyRestored (boot none none)) { State.reset with phase := .brownout } fun t => t.phase == .halted,
    gives (.resetHoldRelease (boot none none)) { State.reset with phase := .heldHot } fun t => t.phase == .halted,
    gives (.dKeepExit (boot none none)) { State.reset with phase := .dkeep, pwr := { latch := [(3, ⟨false, false, true⟩)], heldC := [(3, false)] } } fun t =>
      t.phase == .halted && t.padHeldC 3 && t.padLatch 3 == {},
    core.twin.strap == 0 && core.held.isEmpty && core.doorHeld.isEmpty &&
      (List.range 8).all fun c => !(core.ladder c).due,
    gives .deviceReady { core with phase := .booting } fun t => t.phase == .active && t.ownSel 7,
    gives .deviceReady ({ core with phase := .waking }.wr Reg.THM.STAT.TRIP_VALID 1) fun t => t.flag Reg.EVT.LATCH.RAISED 9,
    gives .dKeepEntry { core with pwr := { core.pwr with offNow := [(0, [])] } } fun t => t.pwr.d3Wait,
    gives .dKeepEntry lit fun t => t.phase == .dkeep && t.rd Reg.HOD.STAT.SELF_REFRESH == 1].all id = true := by decide +kernel

theorem witness_FunctionResets : [
    core.pcieUp && core.upd.lockRing.isNone,
    gives (.functionLevelReset 3) (onRing (core.wr Reg.RING.CFG.OWNER 3 0)) fun t => t.ringState 0 == 0 &&
      t.ringOwner 0 == 3 && (t.ring 0).session.isNone,
    gives (.functionLevelReset 63) (onRing core) fun t => t.ringState 0 == 1,
    gives (.functionLevelReset 0) { onRing (core.wr Reg.RING.CFG.OWNER 3 0) with vfEnable := true } fun t =>
      t.ringState 0 == 0 && t.ringOwner 0 == 0 && !t.vfEnable,
    gives (.vfD3hot 63 true) core fun t => (t.fn 63).d3hot,
    gives (.vfEnableWrite false) { onRing (core.wr Reg.RING.CFG.OWNER 3 0) with vfEnable := true } fun t =>
      t.ringState 0 == 0 && t.ringOwner 0 == 3,
    gives (.pcieLinkTrained 4 8 true) core fun t => t.flag Reg.GLB.LINK.DEGRADED && t.flag Reg.EVT.LATCH.RAISED 14,
    gives (.pcieLinkTrained 3 16 true) core fun t => !t.flag Reg.GLB.LINK.DEGRADED && t.raises == core.raises,
    gives (.tapInstruction .extest) core fun t => t.tapIr == .bypass,
    gives (.tapInstruction .extest) State.reset fun t => t.tapIr == .extest,
    core.lc != 0 && core.lc != 3, gives (.tapInstruction .privateTest) core fun t => t.tapIr == .bypass].all id =
      true := by decide +kernel

/-- Channel 3 recorded in range 1 with room for every code, in this phase. -/
def chan (p : BiasPhase) (code : Nat := 0) : State :=
  (((((lit.wr Reg.BIAS.STAT.VBIAS_OK 1).wr Reg.BIAS.CFG.RANGE_MASK 2 3).wr Reg.BIAS.CFG.CODE_MAX 4095 3).wr
    Reg.BIAS.TARGET.RANGE 1 3).wr Reg.BIAS.STAT.RANGE 1 3 |>.wr Reg.BIAS.STAT.CODE code 3).setBias 3 { ph := p }

/-- One entry of BIAS_SET for channel 3. -/
def biasOps (rng w act code : Nat) (b : Nat := 3) : Nat :=
  at_ 16 1 + at_ 20 b + at_ 21 (rng + 8 * w + 16 * act) + at_ 22 code

theorem witness_BiasSet : [
    (let bad (ops : Nat) (s : State) := done .biasSet .biasSet 4 0 ops s { st := .badField }
     bad (biasOps 1 1 0 0 8) (chan .off) && bad (biasOps 1 1 3 0) (chan .off) && bad (biasOps 1 0 0 0) (chan .off) &&
      bad (biasOps 5 1 0 0) (chan .off) && bad (biasOps 2 1 0 0) (chan .off) &&
      bad (biasOps 1 1 0 4095) ((chan .off).wr Reg.BIAS.CFG.CODE_MAX 4094 3) &&
      bad (biasOps 1 1 0 1) (((chan .off).wr Reg.BIAS.CFG.QG_EN 1 3).wr Reg.BIAS.QUENCH_STAT.QUENCHED 1) &&
      bad (biasOps 0 0 1 0) (chan .off) && bad (biasOps 1 1 1 0) ((chan .off).wr Reg.BIAS.STAT.THERM_OFF 1 3)),
    done .biasSet .biasSet 4 0 (biasOps 1 1 1 4095) (chan .off) {} fun _ _ t => (t.biasOf 3).ph == .connecting,
    done .biasSet .biasSet 4 0 (biasOps 0 1 2 0) (chan .live) {} fun _ _ t => (t.biasOf 3).ph == .disabling,
    done .biasSet .biasSet 4 0 (biasOps 0 1 0 9) (chan .live) {} fun _ _ t => (t.biasOf 3).ph == .parkDown &&
      t.rd Reg.BIAS.TARGET.CODE 3 == 9].all id = true := by decide +kernel

/-- The same, in group 2. -/
def grouped (p : BiasPhase) (code : Nat) : State :=
  ((chan p code).wr Reg.BIAS.CFG.QG_EN 1 3).wr Reg.BIAS.CFG.QGRP 2 3 |>.wr Reg.BIAS.STAT.ENABLED 1 3

theorem witness_Quench : [
    done .quench .quench 4 0 (at_ 16 4) (grouped .live 100) {} fun _ _ t => t.groupQuenched 2 && (t.biasOf 3).quick &&
      !t.groupQuenched 3,
    done .quench .quench 4 0 (at_ 16 4 + at_ 17 1) ((grouped .live 0).wr Reg.BIAS.QUENCH_STAT.QUENCHED 5) {} fun _ _ t =>
      t.groupQuenched 0 && !t.groupQuenched 2,
    done .quench .quench 4 0 (at_ 16 4 + at_ 17 1) (((grouped .live 0).wr Reg.BIAS.CFG.COMP_ACT 2 3).wr
      Reg.BIAS.FLAG.COMP_NOW 1 3) { st := .badField }].all id = true := by decide +kernel

theorem witness_BiasRamps : [
    (chan .live).vbias, (chan .live).biasGoal 3 < 4096,
    gives (.biasRampTick 3 3300000 ⟨0, 1000000⟩) (((chan .live 3).wr Reg.BIAS.TARGET.CODE 4095 3).wr Reg.BIAS.STAT.ENABLED 1 3 |>.wr
      Reg.BIAS.CFG.RAMP 2 3) fun t => t.rd Reg.BIAS.STAT.CODE 3 == 19,
    gives (.biasRampTick 3 3300000 ⟨0, 1000000⟩) (grouped .live 3) fun t => t.rd Reg.BIAS.STAT.CODE 3 == 2 ||
      t.rd Reg.BIAS.STAT.CODE 3 == 0,
    gives (.biasRampTick 3 3300000 ⟨0, 1000000⟩) (chan .disabling 129) fun t => t.rd Reg.BIAS.STAT.CODE 3 == 1 &&
      (t.biasOf 3).ph == .disabling,
    gives (.biasRampTick 3 3300000 ⟨0, 1000000⟩) (chan .disabling 128) fun t => (t.biasOf 3).ph == .off,
    gives (.biasRampTick 3 3300000 ⟨0, 1000000⟩) (chan .parkDown 128) fun t => (t.biasOf 3).ph == .parkDwell,
    gives (.biasParkStep 3) (chan .parkDwell) fun t => (t.biasOf 3).ph == .parkOpen,
    gives (.biasParkStep 3) (chan .parkOpen) fun t => (t.biasOf 3).ph == .live && t.rd Reg.BIAS.STAT.RANGE 3 == 1,
    gives (.biasConnect 3) (chan .connecting) fun t => (t.biasOf 3).ph == .live].all id = true := by decide +kernel

theorem witness_Compliance : [
    (grouped .live 64).biasWatched 3 && !(grouped .live 64).flag Reg.BIAS.FLAG.COMP_NOW 3,
    gives (.biasComplianceDetect ⟨3, 3300000, ⟨2500000, 30000000⟩, 10⟩) ((grouped .live 64).wr Reg.BIAS.CFG.COMP_ACT 2 3) fun t => t.groupQuenched 2 &&
      t.flag Reg.EVT.LATCH.RAISED 70,
    gives (.biasComplianceDetect ⟨3, 3300000, ⟨2900001, 10000⟩, 10⟩) ((grouped .live 16).wr Reg.BIAS.CFG.COMP_ACT 1 3 |>.wr Reg.BIAS.STAT.RANGE 3 3) fun t =>
      t.flag Reg.BIAS.STAT.HOLD 3,
    gives (.biasOpenDetect ⟨3, 3300000, ⟨39062, 19999⟩, 100⟩) ((grouped .live 64).wr Reg.BIAS.CFG.OPEN_ACT 3 3) fun t => t.groupQuenched 2 &&
      t.flag Reg.EVT.LATCH.RAISED 71,
    gives (.biasOpenDetect ⟨3, 3300000, ⟨39062, 19999⟩, 100⟩) ((grouped .live 64).wr Reg.BIAS.CFG.OPEN_ACT 2 3) fun t => t.flag Reg.BIAS.STAT.HOLD 3,
    gives (.biasFlagClear 3 1 3300000 ⟨39062, 1000000⟩) ((grouped .live 64).wr Reg.BIAS.FLAG.COMP 1 3 |>.wr Reg.BIAS.STAT.HOLD 1 3)
      fun t => !t.flag Reg.BIAS.FLAG.COMP 3 && !t.flag Reg.BIAS.STAT.HOLD 3,
    gives (.biasFlagClear 3 1 3300000 ⟨2500000, 30000000⟩) ((grouped .live 64).wr Reg.BIAS.FLAG.COMP 1 3 |>.wr Reg.BIAS.FLAG.COMP_NOW 1 3
      |>.wr Reg.BIAS.CFG.COMP_ACT 1 3 |>.wr Reg.BIAS.STAT.HOLD 1 3) fun t => t.flag Reg.BIAS.FLAG.COMP 3 &&
      t.flag Reg.BIAS.STAT.HOLD 3,
    -- R238: 3.3 V − 0.40 V = 2.90 V is not above the limit, and an open load takes the place of compliance (R239)
    !(((grouped .live 16).wr Reg.BIAS.STAT.RANGE 3 3).biasComp 3 3300000 ⟨2900000, 10000⟩),
    ((grouped .live 64).wr Reg.BIAS.STAT.RANGE 4 3).biasOpen 3 3300000 ⟨3150001, 124999⟩,
    !(((grouped .live 64).wr Reg.BIAS.STAT.RANGE 4 3).biasOpen 3 3300000 ⟨3150001, 125000⟩),
    gives .vbiasLoss (chan .live) fun t => !t.vbias,
    gives .vbiasPowerUp ((chan .live).wr Reg.BIAS.STAT.VBIAS_OK 0) fun t => t.flag Reg.BIAS.STAT.VBIAS_LOST].all id =
      true := by decide +kernel

theorem witness_Sensors : [
    !core.flag Reg.THM.SENSOR.FAIL 7 && !core.flag Reg.THM.SENSOR.FAIL 23,
    5 * core.rd Reg.THM.THRESH.WARN + 1 ≤ 5 * core.rd Reg.THM.THRESH.THROTTLE,
    (let w := 5 * core.rd Reg.THM.THRESH.WARN
     gives (.sensorSample 7 (w + 1) false) (core.setSensor 7 { warnCnt := core.rd Reg.THM.CTRL.DWELL }) fun t =>
       t.flag Reg.THM.SENSOR.WARN 7 && t.flag Reg.EVT.LATCH.RAISED (64 + 84 + 2) && t.raises.length == 1),
    gives (.sensorSample 16 100 false) ((core.wr Reg.THM.SENSOR.WARN 1 16).setSensor 16
      { warnCnt := core.rd Reg.THM.CTRL.DWELL }) fun t => !t.flag Reg.THM.SENSOR.WARN 16 && t.raises == [],
    gives (.sensorSample 20 101 false) (core.setSensor 20 { seen := true }) fun t => t.flag Reg.THM.SENSOR.FAIL 20 &&
      t.flag Reg.EVT.LATCH.RAISED 8,
    gives (.sensorSample 0 100 false) (core.setSensor 0 { seen := true }) fun t => !t.flag Reg.THM.SENSOR.FAIL 0,
    gives (.sensorSample 0 300 true) (core.wr Reg.THM.SENSOR.FAIL 1 0) fun t => t.regs == (core.wr Reg.THM.SENSOR.FAIL 1 0).regs,
    gives (.sensorSample 0 (5 * core.rd Reg.THM.THRESH.SHUTDOWN + 1) false) ((lit.wr Reg.THM.SENSOR.THROTTLE 1 0).setSensor 0
      { shutCnt := core.rd Reg.THM.CTRL.DWELL }) fun t => t.phase == .shutdown].all id = true := by decide +kernel

def thr (w t h : Nat) : Word := BitVec.ofNat 32 (w + 256 * t + 65536 * h + 2 ^ 24 * 0x21)

theorem witness_Thresholds : [
    gives (.threshWrite 0 (thr 120 199 200)) core fun t => t.rd Reg.THM.THRESH.THROTTLE == 199 &&
      t.rd Reg.THM.THRESH.THR_HYS == 2,
    gives (.threshWrite 0 (thr 119 199 240)) core fun t => t.flag Reg.THM.STAT.THR_REJECT,
    gives (.threshWrite 0 (thr 120 140 199)) core fun t => t.flag Reg.THM.STAT.THR_REJECT,
    gives (.threshWrite 0 (thr 120 199 200)) (core.wr Reg.THM.CTRL.LOCK 1) fun t => t.regs == (core.wr Reg.THM.CTRL.LOCK 1).regs,
    core.nvmOpen && core.coreRuns 0,
    gives .tripRecordCopy { core with therm := { latched := some ⟨1, 2, 3, 4⟩, copyDue := true } } fun t =>
      t.therm.mram == [⟨1, 2, 3, 4⟩],
    !hot.nvmOpen, gives .tripRecordCopy hot fun t => t.therm == hot.therm].all id = true := by decide +kernel

/-- Course 0's ladder runs, with a THROTTLE condition of sensor 0 active. -/
def hotCourse (steps max : Nat) : State :=
  (({ lit with time := 5 }.wr Reg.THM.SENSOR.THROTTLE 1 0).wr Reg.THM.LADDER.STEPS steps 0).wr Reg.THM.LADDER_AUTH.MAX_STEP max
    |>.setLadder 0 { running := true }

theorem witness_Ladder : [
    (hotCourse 0 5).throttling 0 == some 0, !(hotCourse 0 5).flag Reg.THM.LADDER.EXHAUSTED 0,
    (hotCourse 0 5).nextStep 0 == 1 && (hotCourse 3 5).nextStep 0 == 3 && (hotCourse 1 1).nextStep 0 == 2,
    gives (.stepWaitExpiry 0) (hotCourse 0 5) fun t => t.rd Reg.THM.LADDER.STEPS 0 == 1 && t.flag Reg.EVT.LATCH.RAISED 67,
    gives (.stepWaitExpiry 0) (hotCourse 3 5) fun t => t.rd Reg.THM.LADDER.STEPS 0 == 7,
    gives (.stepWaitExpiry 0) (hotCourse 1 1) fun t => t.flag Reg.THM.LADDER.EXHAUSTED 0 &&
      t.rd Reg.THM.LADDER.STEPS 0 == 1,
    gives (.stepWaitExpiry 0) (lit.setLadder 0 { running := true }) fun t => !(t.ladder 0).running,
    gives (.ladderReverse 0 1) (hotCourse 1 5) fun t => t.flag Reg.THM.STAT.REV_REJECT,
    gives (.ladderReverse 0 1) ((lit.wr Reg.THM.LADDER.STEPS 31 0).setLadder 0 { shed := [5] }) fun t =>
      t.rd Reg.THM.LADDER.STEPS 0 == 15,
    gives (.ladderReverse 0 1) (lit.wr Reg.THM.LADDER.STEPS 7 0) fun t => t.rd Reg.THM.LADDER.STEPS 0 == 3].all id =
      true := by decide +kernel

/-! ## Register accesses, lane configuration and transmit banks -/

theorem witness_RegisterReads : [
    gives (.regReadClear 0 0x108 4) State.reset fun t => t.out.length == 1,
    gives (.regReadClear 0 0x106 4) core fun t => t.out.length == 1,
    core.coreOn && (core.fn 0).shadow.isNone && (slotsAt 0x3EFFFFC).isEmpty,
    gives (.regReadClear 0 0x3EFFFFC 4) core fun t => decide (t.out = [.readData 0 0x3EFFFFC 4 0]),
    gives (.regReadClear 0 0x108 4) (core.wr Reg.GLB.ACC_ERR.COUNT 7) fun t =>
      decide (t.out = [.readData 0 0x108 4 7]) && t.rd Reg.GLB.ACC_ERR.COUNT == 0,
    gives (.regLoRead 0 0x208) { core with time := 2 ^ 33 + 5 } fun t => (t.fn 0).shadow == some (0x20C, 2) &&
      decide (t.out = [.readData 0 0x208 4 5]),
    gives (.regLoRead 0 0x20C) (core.setFn 0 { shadow := some (0x20C, 0xFFFFFFFF) }) fun t =>
      (t.fn 0).shadow.isNone && decide (t.out = [.readData 0 0x20C 4 0xFFFFFFFF])].all id = true := by decide +kernel

theorem witness_RegisterWrites : [
    gives (.regWrite 0 0x3FFFFFE 2 5) core fun t => t.rd Reg.GLB.ACC_ERR.COUNT == 1,
    gives (.regWrite 0 0x100 3 5) core fun t => t.rd Reg.GLB.ACC_ERR.COUNT == 1,
    gives (.regWrite 0 0 4 5) core fun t => t.regs == core.regs,
    gives (.regWrite 0 0x100 4 0x80000000) (core.wr Reg.GLB.OFFDOM.VALID 1) fun t => !t.flag Reg.GLB.OFFDOM.VALID,
    gives (.regWrite 0 0x360100 4 0) ((core.wr Reg.BIAS.STAT.VBIAS_OK 1).wr Reg.BIAS.CTRL.LOCK 1) fun t =>
      t.rd Reg.BIAS.CFG.CODE_MAX 0 == core.rd Reg.BIAS.CFG.CODE_MAX 0,
    gives (.regWrite 0 0x3C0000 8 0x1000) (onRing core) fun t => t.regs == (onRing core).regs,
    gives (.regWrite 0 0x2FC000 4 5) core fun t => t.rd Reg.GLB.OFFDOM.OFFSET == 0xBF000 && t.flag Reg.GLB.OFFDOM.WRITE &&
      t.flag Reg.EVT.LATCH.RAISED 15,
    gives (.offDomainAccess 0 0x200000 false) core fun t => decide (t.out = [.readData 0 0x200000 4 0xFFFFFFFF]),
    gives (.offDomainAccess 0 0x200000 false) lit fun t => t.out == []].all id = true := by decide +kernel

/-- Lane 0 in state `st` and mode `m`, with every mode of the grade. -/
def lane0 (st m : Nat) : State :=
  (lit.wr Reg.LN.RX_STAT.LANE_STATE st 0).wr Reg.LN.FMT_CFG.MODE m 0

theorem witness_LaneConfig : [
    done .laneConfig .laneConfig 2 0 (at_ 16 7) lit { st := .badField },
    done .laneConfig .laneConfig 2 0 (at_ 16 1) (lane0 5 0) { st := .badField },
    ran .laneConfig .laneConfig 2 0 (at_ 16 4 + at_ 17 1) (lane0 1 0) fun _ _ t => t.lane 0 == 2 &&
      t.flag Reg.LN.FMT_CFG.PRECODE 0 && (lastRes t).map (fun x => x.r0 % 2) == some 1,
    ran .laneConfig .laneConfig 2 0 (at_ 16 6) (lane0 1 0) fun _ _ t => t.lane 0 == 4 && t.mode 0 == 6,
    ran .laneConfig .laneConfig 2 0 0 (lane0 3 4) fun _ _ t => t.lane 0 == 1 && t.mode 0 == 0,
    done .laneState .laneState 2 0 (at_ 16 2) (lane0 1 4) { st := .badField },
    done .laneState .laneState 2 0 (at_ 16 3) (lane0 2 4) {} fun _ _ t => t.lane 0 == 2,
    done .laneState .laneState 2 0 (at_ 16 5) (lane0 1 0) {} fun _ _ t => t.lane 0 == 5,
    done .laneState .laneState 2 0 (at_ 16 3) (lane0 5 6) {} fun u _ t => u.quadOn 0 && t.lane 0 == 4].all id = true := by
  decide +kernel

theorem witness_PrecodingRefused : [
    done .laneConfig .laneConfig 2 0 (at_ 16 1 + at_ 17 1) lit { st := .badField },
    done .laneConfig .laneConfig 2 0 (at_ 16 2 + at_ 17 1) lit { st := .badField },
    done .laneConfig .laneConfig 2 0 (at_ 16 5 + at_ 17 1) lit { st := .badField },
    done .laneConfig .laneConfig 2 0 (at_ 16 6 + at_ 17 1) lit { st := .badField }].all id = true := by decide +kernel

def tapsOf (l : List Int) : State := lit.setTx 0 { stage := l, bank := [0, 0, 0, 200, 0, 0, 0, 0] }

theorem witness_TransmitBanks : [
    lit.courseD 0 && !lit.laneInTest 0,
    gives (.firCommit 0) (tapsOf [0, 0, -28, 228, 0, 0, 0, 0]) fun t => (t.txOf 0).pend.isSome,
    gives (.firCommit 0) (tapsOf [0, 0, -28, 229, 0, 0, 0, 0]) fun t => t.rd Reg.LN.TX_STAT.REJECT_CAUSE 0 == 1,
    gives (.firCommit 0) (tapsOf [0, 0, -100, 100, 0, 0, 0, 0]) fun t => t.rd Reg.LN.TX_STAT.REJECT_CAUSE 0 == 2,
    gives (.maskWrite 0 1) (tapsOf []) fun t => t.rd Reg.LN.TX_CTRL.MASK 0 == 1,
    gives (.maskWrite 0 3) (lit.setTx 0 { bank := [0, 0, -60, 190, 0, 0, 0, 0] }) fun t =>
      t.rd Reg.LN.TX_STAT.REJECT_CAUSE 0 == 3,
    gives (.txFirStageWrite 0 (BitVec.ofNat 32 (2 ^ 30 + 7 + 256 * 512))) (tapsOf []) fun t =>
      (t.txOf 0).stage.getD 7 0 == -512,
    gives (.txOutputEnable 0) (lit.setTx 0 { retime := some 5, pend := some ([0, 0, 0, 9, 0, 0, 0, 0], none) }) fun t =>
      (t.txOf 0).retime.isNone && (t.txOf 0).bank == [0, 0, 0, 9, 0, 0, 0, 0],
    done .laneFir .laneFir 2 0 (at_ 16 512) lit { st := .badField },
    done .laneFir .laneFir 2 0 (at_ 33 4) lit { st := .badField },
    done .laneFir .laneFir 2 0 0 lit { st := .badField, r0 := 2 },
    done .laneFir .laneFir 2 0 (at_ 22 200 + at_ 32 1) lit {} fun _ _ t => (t.txOf 0).pend.isSome].all id = true := by
  decide +kernel

/-- One CFG_WRITE triple on offset 0. -/
def triple (mask v : Nat) : Nat := at_ 20 mask + at_ 24 v

theorem witness_RegisterImages : [
    (match (onRing lit).takeUp 0 (opCode .cfgWrite) (entry 2 0 (triple 8 8)) ⟨[], none⟩ with
      | some (u, f) => u.courseD 0 && decide (usedTriples f.e = [(0, 0, 8, 8)])
      | none => false),
    done .cfgWrite .cfgWrite 2 0 (triple 8 8) lit {} fun _ _ t => t.flag Reg.LN.RX_CTRL.FFE_FREEZE 0,
    done .cfgWrite .cfgWrite 2 0 (triple 2048 0) lit { st := .badField },
    done .snapshot .snapshot 2 0 (at_ 16 0x3FFC + at_ 20 8 + at_ 24 4) lit { st := .badField },
    done .snapshot .snapshot 2 0 (at_ 16 0x3FFC + at_ 20 4 + at_ 24 4) lit {} fun _ _ t => t.out.length == 3,
    done .surveyRead (fun r e d => .surveyRead r e d []) 2 0 (at_ 24 4) lit { st := .badField },
    done .surveyRead (fun r e d => .surveyRead r e d []) 2 0 (at_ 16 6 + at_ 20 1024 + at_ 24 4) (lit.setRx 0 { hist := [{ seq := 6 }], seq := 7 })
      { r0 := 1, r1 := 6 } fun _ _ t => t.out.length == 3,
    done .surveyRead (fun r e d => .surveyRead r e d []) 2 0 (at_ 16 6 + at_ 20 1 + at_ 24 4)
      (((lit.setRx 0 { hist := [{ seq := 6 }], seq := 7 }).setHodWord (surveyWord 0 6) ⟨3, true⟩).wr Reg.HOD.ECC_LOG.VALID 1)
      { st := .eccUncorr, r0 := 1, r1 := 6 } fun _ _ t => t.rd Reg.HOD.ECC_LOG.SOURCE == 1 &&
        t.rd Reg.HOD.ECC_LOG.WORD == surveyWord 0 6].all id = true := by decide +kernel

/-! ## Burst acquisition, power states, pads, the hod -/

/-- A schedule image of course 0 (R168) with no slots: LEN 113,438, EPOCH_DIV code 0, SYNC_EN. -/
def image : List Byte := leBytes 4 113438 ++ leBytes 4 0 ++ leBytes 1 0 ++ leBytes 1 1 ++ List.replicate 38 0

/-- A bank with one receive slot 5 of source 2 on lane 0, one transmit slot 6, and the grid it gives. -/
def slotR : Slot := { start := 60000, len := 2, pre := 8, src := 2, slot := 5, win := 1000 }
def slotT : Slot := { start := 60000, len := 2, pre := 8, tx := true, slot := 6 }
def bank0 : Bank := { len := 113438, ofs := 100, syncEn := true, slots := [(0, [slotR, slotT])] }

/-- Course 0 with that bank in force, its epoch in state `st` with what `x` says. -/
def epo (st : Nat) (x : EpochX := {}) : State :=
  ((lane0 4 6).wr Reg.CRS.EPOCH_STAT.STATE st 0).setEpoch 0 { x with bank0 := some bank0 }

theorem witness_Epoch : [
    addrOk 4 48 && ((lit.parseBank 0 image 48).map fun b => lit.bankOk 0 b) == some true,
    done .schedWrite .schedWrite 1 0 (at_ 16 4 + at_ 24 48) lit {} (fun _ _ t => (t.epochOf 0).bank1.isSome) ⟨image, none⟩,
    done .schedWrite .schedWrite 1 0 (at_ 16 4 + at_ 24 48) (epo 2) {}
      (fun _ _ t => t.rd Reg.CRS.EPOCH_STAT.COMMIT_PENDING 0 == 1) ⟨image, none⟩,
    done .schedWrite .schedWrite 1 0 (at_ 16 4 + at_ 24 48) lit { st := .badField } (fun _ _ _ => true)
      ⟨List.replicate 48 0, none⟩,
    gives (.epochSyncEdge 77) (epo 1) fun t => t.epochState 0 == 2 && (t.epochOf 0).boundary == 177,
    gives (.epochSyncEdge 1024) (epo 3) fun t => t.epochState 0 == 2,
    gives (.epochSyncEdge 1023) (epo 3) fun t => t.epochState 0 == 3,
    gives (.epochSyncEdge 1028) (epo 2 { boundary := 1000, index := 4 }) fun t => (t.epochOf 0).owed == 128 &&
      t.rd Reg.CRS.EPOCH_STAT.LAST_ERR 0 == 128,
    gives (.epochSyncEdge 771) (epo 2 { boundary := 1000 }) fun t => t.epochState 0 == 3 &&
      t.flag Reg.EVT.LATCH.RAISED (courseSrc 0 10),
    gives (.epochBoundary 0) (epo 2 { boundary := 1000, owed := -3 }) fun t => (t.epochOf 0).boundary == 114435,
    gives (.epochBoundary 0) (epo 2 { bank1 := some { bank0 with len := 200000 }, pendingBank := some (1, 113438) }) fun t =>
      t.rd Reg.CRS.EPOCH_LEN.TICKS 0 == 200000,
    gives (.epochBoundary 0) (epo 2 { pendingBank := some (1, 113439) }) fun t => (t.epochOf 0).pendingBank.isSome].all id =
      true := by decide +kernel

/-- Lane 0 in phase `p` of slot 5. -/
def rx5 (p : Nat) (x : BstX := {}) : State :=
  ((epo 2).wr Reg.LN.BST_STAT.RX_PHASE p 0).setBst 0 { x with slot := some slotR }

/-- FFE outputs of two picots and one symbol more: the second peak lies at the last but one correlation. -/
def twoPicots : List Int := signs (picotBits ++ picotBits ++ [false])

/-- FFE outputs around a start delimiter: one symbol before it, and one after. -/
def sdSeen : List Int := [1] ++ signs sdBits ++ [1]

theorem witness_BurstPhases : [
    (epo 2).slotsRun 0 && ((epo 2).slotsOf 0 false).length == 1 && ((epo 2).slotsOf 0 true).length == 1,
    gives (.slotArm 0 5) (epo 2) fun t => t.rxPhase 0 == 1 && (t.bstOf 0).slot == some slotR,
    gives (.slotArm 0 5) (rx5 2) fun t => t.rxPhase 0 == 2,
    gives (.burstOnset 0 ((rx5 1).rd Reg.LN.BST_CTRL.ONSET_THR 0)) (rx5 1) fun t => t.rxPhase 0 == 1,
    gives (.burstOnset 0 ((rx5 1).rd Reg.LN.BST_CTRL.ONSET_THR 0 + 1)) (rx5 1) fun t => t.rxPhase 0 == 2 &&
      !t.flag Reg.LN.BST_STAT.NARROW 0,
    gives (.burstOnset 0 1000) (rx5 1 { recs := [(2, { vga := 255, narrow := true })] }) fun t =>
      t.rd Reg.LN.AGC.GAIN 0 == 240 && t.flag Reg.LN.BST_STAT.NARROW 0,
    (rx5 2).framerUp 0 && (rx5 2).slotsDue 0,
    gives (.slotArm 0 5) ((epo 2).setEngMap 64 .unmapped) fun t => t.rxPhase 0 == 0 &&
      t.flag Reg.EVT.LATCH.RAISED (laneSrc 0 5),
    gives (.burstOnset 0 1000) ((rx5 1).setEngMap 64 .unmapped) fun t => t.rxPhase 0 == 1,
    gives (.slotMissed 0) ((rx5 1).setEngMap 64 .unmapped) fun t => t.rxPhase 0 == 0 && t.rd Reg.LN.BST_EXC_B.MISSED 0 == 0,
    gives (.agcBlockEnd 0 0) (rx5 2) fun t => t.rd Reg.LN.AGC.GAIN 0 == min 240 ((rx5 2).rd Reg.LN.AGC.GAIN 0) + 32,
    gives (.agcBlockEnd 0 ((rx5 2).rd Reg.LN.AGC.TARGET 0 * 256)) (rx5 2 { okBlocks := 1, blocks := 1 }) fun t =>
      (t.bstOf 0).arm == some 32,
    gives (.burstDetect 0 ⟨twoPicots, 320⟩) (rx5 2) fun t => t.rxPhase 0 == 3 && (t.bstOf 0).gain == (rx5 2).rd Reg.LN.AGC.GAIN 0,
    gives (.burstDetect 0 ⟨twoPicots, 319⟩) (rx5 2) fun t => t.rxPhase 0 == 2,
    gives (.sdMatch 0 [0, 64 * 2 ^ 20] sdSeen ⟨32, 32, 320, -320, 6400, 7⟩) (rx5 3) fun t => t.rxPhase 0 == 4 &&
      t.rd Reg.LN.BST_LAST.QUAL 0 == 255 && t.out.length == 1,
    gives (.sdMatch 0 [] [] ⟨0, 0, 0, 0, 0, 0⟩) (rx5 3) fun t => t.rxPhase 0 == 3,
    gives (.falseStart 0 61000) (rx5 3) fun t => t.rxPhase 0 == 5 && t.flag Reg.EVT.LATCH.RAISED (laneSrc 0 5),
    gives (.falseStart 0 61001) (rx5 3 { raised := true }) fun t => t.rxPhase 0 == 0 && t.raises == [],
    gives (.acqRestart ⟨0, signs picotBits, (signs picotBits).map (10 * ·)⟩) (rx5 3) fun t => t.rxPhase 0 == 2 &&
      t.rd Reg.LN.BST_EXC_A.RESTART 0 == 1,
    gives (.acqRestart ⟨0, signs picotBits, signs picotBits⟩) (rx5 3) fun t => t.rxPhase 0 == 3,
    gives (.slotMissed 0) (rx5 5 { reacq := true, rxDone := [5] }) fun t => t.rxPhase 0 == 0 && t.raises == [],
    gives (.slotMissed 0) ((rx5 1).wr Reg.LN.BST_CTRL.MISS_REC 0 0) fun t => t.rd Reg.LN.BST_EXC_B.MISSED 0 == 1 && t.out == [],
    gives (.slotMissed 0) ((rx5 1 { seq := 65535 }).wr Reg.LN.BST_CTRL.MISS_REC 1 0) fun t => t.out.length == 1 &&
      (t.bstOf 0).seq == 0].all id = true := by decide +kernel

/-- A TX_HEADER for `slot`, with its CRC right. -/
def hdrBits (slot : Nat) : Nat := blockField 64 8 0x2D + blockField 72 6 slot + blockField 80 16 2
/-- The same without the synchronization word, as the receiver hands it on. -/
def hdr (slot : Nat) : Nat := hdrBits slot + blockField 208 16 (crc16 144 (bitsOf (hdrBits slot) 48 144))
def txReady (x : BstX := {}) : State := (epo 2).setBst 0 { x with hostLock := true }

theorem witness_BurstsEnd : [
    gives (.edTest 0 (signs edBits) [] [] 0) (rx5 4 { cwLine := 2 }) fun t => t.rxPhase 0 == 0 && t.out.length == 1 &&
      t.rd Reg.LN.BST_BURSTS.OK 0 == 1,
    gives (.edTest 0 [] [] [] 0) (rx5 4 { cwLine := 2 }) fun t => t.rd Reg.LN.BST_LAST.STATUS 0 == 4,
    gives (.edTest 0 (signs edBits) [] [] 0) (rx5 4 { cwLine := 1 }) fun t => t.rxPhase 0 == 4,
    gives (.burstTruncated ⟨0, List.replicate 31 0⟩) (rx5 4) fun t => t.rxPhase 0 == 4,
    gives (.burstTruncated ⟨0, List.replicate 32 14⟩) (rx5 4 { cwLine := 1 }) fun t => t.rd Reg.LN.BST_LAST.STATUS 0 == 3 && t.out.length == 2,
    gives (.burstPolicyTrigger ⟨0, List.replicate 32 9999999, [], false⟩) (rx5 4 { cwLine := 2 }) fun t => t.rxPhase 0 == 0 &&
      t.raises == [] && (t.bstOf 0).onset,
    gives (.burstPolicyTrigger ⟨0, List.replicate 31 9999999, [], false⟩) (rx5 4) fun t => t.rxPhase 0 == 4,
    gives (.burstPolicyTrigger ⟨0, List.replicate 32 9999999, [], false⟩) (rx5 4) fun t => t.rxPhase 0 == 5 && t.rd Reg.LN.BST_EXC_A.OVERLAP 0 == 1,
    gives (.burstPolicyTrigger ⟨0, [], signs picotBits, false⟩) ((rx5 4).wr Reg.LN.BST_CTRL.POLICY 1 0) fun t => t.rxPhase 0 == 2 &&
      t.rd Reg.LN.BST_EXC_A.PREEMPTED 0 == 1,
    gives (.hostFramingLock 0 [syncWord, 0, syncWord, syncWord, syncWord]) (epo 2) fun t => (t.bstOf 0).hostLock,
    gives (.hostFramingLock 0 [syncWord, 0, syncWord, syncWord]) (epo 2) fun t => !(t.bstOf 0).hostLock,
    gives (.hostFramingLock 0 [0, 0, 0, 0]) txReady fun t => !(t.bstOf 0).hostLock,
    gives (.hostFramingLock 0 [0, 0, 0, syncWord, 0, 0, 0]) txReady fun t => (t.bstOf 0).hostLock && (t.bstOf 0).sync == 3,
    txReady.txDue 0 == some slotT, gives (.txHeaderReceived 0 (hdr 6) 56416) txReady fun t => (t.bstOf 0).txHdr == some 6,
    gives (.txHeaderReceived 0 (hdr 6) 56417) txReady fun t => t.rd Reg.LN.BST_EXC_C.TX_LATE 0 == 1,
    gives (.txHeaderReceived 0 (hdr 7) 0) txReady fun t => t.rd Reg.LN.BST_EXC_C.TX_BAD 0 == 1,
    gives (.txSlotStart 0 6) (txReady { txHdr := some 6 }) fun t => (t.bstOf 0).txSlot == some slotT && t.raises == [] &&
      (t.txOf 0).path.burst == some (2, 8),
    gives (.txSlotStart 0 6) ((txReady { txHdr := some 6 }).setEngMap 64 .unmapped) fun t => (t.bstOf 0).raised && t.tx == [],
    (let s := (epo 2).setTx 0 { path := { burst := some (2, 8), unit := 8 } }
     ((s.formUnit 0).txOf 0).path.syms == sdBits.map fun b => outerLevel (s.rd Reg.LN.FMT_CFG.CONST 0) b),
    gives (.txSlotStart 0 6) txReady fun t => t.rd Reg.LN.BST_EXC_B.TX_MISSED 0 == 1,
    gives (.txUnderrun 0) ((txReady { txSlot := some slotT }).setTx 0 { path := { fill := 1 } }) fun t => (t.txOf 0).path.fillDue == 1 && t.rd Reg.LN.BST_EXC_C.TX_UNDERRUN 0 == 1].all id =
      true := by decide +kernel

def withPwr (s : State) (p : PowerX) : State := { s with pwr := p }
/-- `lit` with a transition in flight, asked by register. -/
def moving (dt i to_ : Nat) : State := withPwr lit { lit.pwr with trans := some ⟨dt, i, to_, .register⟩ }

theorem witness_Power : [
    done .powerSet .powerSet 0 0 (at_ 16 1 + at_ 17 7 + at_ 18 1) core { st := .badField },
    done .powerSet .powerSet 0 0 (at_ 16 4) core { st := .badField },
    done .powerSet .powerSet 0 0 (at_ 16 2 + at_ 17 3 + at_ 18 2) (withPwr core { core.pwr with trans := some ⟨3, 0, 2, .register⟩ })
      { st := .pwrBusy },
    done .powerSet .powerSet 0 0 (at_ 16 1 + at_ 17 0 + at_ 18 2) lit {},
    ran .powerSet .powerSet 0 0 (at_ 16 1 + at_ 17 7 + at_ 18 2) core fun u _ t => u.twin.strap == 0 && t.pwr.trans.isSome,
    ran .powerSet .powerSet 0 0 (at_ 16 1 + at_ 17 0 + at_ 18 1) lit fun _ _ t => t.pwr.trans.isSome,
    gives (.pwrGo 0 0x1C) core fun t => t.rd Reg.PWR.CTRL.INDEX == 7 && t.pwr.trans.isNone,
    gives (.pwrGo 0 0xDF) core fun t => t.flag Reg.PWR.STAT.PWR_REJECT,
    gives (.pwrGo 0 0xDD) core fun t => !t.flag Reg.PWR.STAT.PWR_REJECT && t.pwr.trans.isSome,
    !core.goRefused 1 7 2 && core.domainState 1 7 == 0,
    done .courseOffImmediate .courseOffImmediate 1 7 0 (withPwr lit { lit.pwr with d3Wait := true }) { st := .pwrBusy },
    done .courseOffImmediate .courseOffImmediate 1 7 0 lit {} fun u _ _ => u.tests.isEmpty,
    ran .courseOffImmediate .courseOffImmediate 1 0 0 lit fun u _ t => u.pwr.offNow.isEmpty && t.pwr.offNow.length == 1,
    ran .courseOffImmediate .courseOffImmediate 1 0 0 (moving 1 0 1) fun _ _ t => t.pwr.trans.isNone &&
      t.flag Reg.PWR.STAT.LAST_ABORTED].all id = true := by decide +kernel

theorem witness_PowerEnds : [
    gives (.powerTransitionEnd false []) (moving 2 3 2) fun t => !t.quadOn 3 && t.flag Reg.EVT.LATCH.RAISED (courseSrc 7 4),
    gives (.powerTransitionEnd true []) (moving 2 3 2) fun t => t.quadOn 3 && t.flag Reg.EVT.LATCH.RAISED (courseSrc 6 5),
    gives (.powerTransitionEnd true []) (moving 2 0 0) fun t => !t.quadOn 0 && t.padHeldQ 0,
    gives (.powerTransitionEnd false []) (moving 1 0 2) fun t => t.pwr.trans.isNone && t.courseD 0,
    gives (.powerTransitionEnd true []) (moving 1 0 0) fun t => !t.courseD 0 && t.padHeldC 0,
    gives (.powerTransitionEnd true []) (moving 1 0 1) fun t => t.coursePow 0 == .idle,
    (moving 1 7 2).coursePow 7 == .off && !((moving 1 7 2).core 0).stopped && !((moving 1 7 2).core 0).restarting,
    gives (.powerTransitionEnd true []) ((moving 1 7 2).setCore 0 { restarting := true }) fun t => t.pwr.trans.isSome,
    gives (.powerTransitionEnd true []) (withPwr lit { lit.pwr with offNow := [(0, [.register])] }) fun t =>
      !t.courseD 0 && t.pwr.offNow.isEmpty].all id = true := by decide +kernel

theorem witness_Pads : [
    done .padRelease .padRelease 0 0 (at_ 16 1 + at_ 17 8) lit { st := .badField },
    done .padRelease .padRelease 0 0 (at_ 16 2 + at_ 17 4) lit { st := .badField },
    done .padRelease .padRelease 0 0 (at_ 16 1) lit { r0 := 1 } fun _ _ t => !t.padHeldC 0,
    done .padRelease .padRelease 0 0 (at_ 16 2) (lit.setPadHeldQ 0 false) { r0 := 0 },
    (match (onRing lit).takeUp 0 (opCode .padRelease) (entry 0 0 (at_ 16 2 + at_ 17 3)) ⟨[], none⟩ with
      | some (u, f) => startable (u.ring 0).flights f && !(u.core 1).stopped && f.role == some 3 &&
          decide (opRole .padRelease f.e ≤ 3) && fieldsOk .padRelease f.e && u.lcOk .padRelease f.e &&
          decide (u.serverState (u.server .padRelease f.e) = .runs) && !u.updateHolds .padRelease && !u.quadOn 3
      | none => false)].all id = true := by decide +kernel

/-- The hod ready, with word 1 holding `x` and its granule written. -/
def hodS (x : HodWord := ⟨0x1122334455667788, false⟩) : State := (core.wr Reg.HOD.STAT.READY 1).setHodWord 1 x

theorem witness_Hod : [
    hodS.hodOn && hodS.granule 1 && !hodS.granule 8192 && !hodS.flag Reg.HOD.ECC_LOG.VALID,
    done .hodFill .hodFill 6 0 (at_ 16 4) hodS { st := .badField },
    done .hodFill .hodFill 6 0 (at_ 16 8 + at_ 20 16 + at_ 24 5) hodS {} fun _ _ t => t.hodWord 2 == some ⟨5, false⟩,
    done .hodWrite (fun r e d => .hodWrite r e d []) 6 0 0 hodS { st := .badField },
    done .hodWrite (fun r e d => .hodWrite r e d []) 6 0 (at_ 16 8 + at_ 20 8 + at_ 24 4) hodS {}
      (fun _ _ t => t.hodWord 1 == some ⟨0x0807060504030201, false⟩) ⟨[1, 2, 3, 4, 5, 6, 7, 8], none⟩,
    done .hodWrite (fun r e d => .hodWrite r e d []) 6 0 (at_ 16 65539 + at_ 20 4 + at_ 24 4) hodS {}
      (fun _ _ t => t.hodWord 8192 == some ⟨0x04030201000000, false⟩) ⟨[1, 2, 3, 4], none⟩,
    done .hodRead (fun r e d => .hodRead r e d []) 6 0 (at_ 20 6) hodS { st := .badField },
    done .hodRead (fun r e d => .hodRead r e d []) 6 0 (at_ 16 65536 + at_ 20 8 + at_ 24 4) hodS
      { st := .uninit, r1 := 65536 },
    done .hodRead (fun r e d => .hodRead r e d []) 6 0 (at_ 16 8 + at_ 20 8 + at_ 24 4) (hodS ⟨7, true⟩)
      { st := .eccUncorr, r1 := 8 } fun _ _ t => t.flag Reg.HOD.ECC_LOG.VALID && t.flag Reg.EVT.LATCH.RAISED 10,
    done .hodRead (fun r e d => .hodRead r e d []) 6 0 (at_ 16 8 + at_ 20 8 + at_ 24 4) hodS {},
    done .hodRead (fun r e d => .hodRead r e d [⟨1, some 63⟩]) 6 0 (at_ 16 8 + at_ 20 8 + at_ 24 4) hodS {} fun _ _ t =>
      t.rd Reg.HOD.ECC_CORR.COUNT == 1,
    gives (.scrubRead 1 false none true) (hodS.wr Reg.HOD.CTRL.SCRUB_EN 1) fun t => t.rd Reg.HOD.STAT.PASSES == 1,
    gives (.scrubRead 1 true (some 3) false) (hodS.wr Reg.HOD.CTRL.SCRUB_EN 1) fun t => t.rd Reg.HOD.ECC_CORR.COUNT == 1,
    gives (.scrubRead 1 true none false) (hodS.wr Reg.HOD.CTRL.SCRUB_EN 1) fun t => t.flag Reg.HOD.ECC_LOG.VALID].all id =
      true := by decide +kernel

def capt (trig : Option (Nat × Nat)) : Capture := ⟨0, 0, 0, 0, 0, 1000, .register, 0, [0, 1], 4, 0, trig⟩
def capS (trig : Option (Nat × Nat)) : State := { hodS with hod := { hodS.hod with caps := [capt trig] } }
def lane3 : State := (lane0 3 4).wr Reg.HOD.STAT.READY 1

theorem witness_Captures : [
    done .captureStart .captureStart 2 0 (at_ 16 5 + at_ 20 1) lane3 { st := .badField },
    done .captureStart .captureStart 2 0 (at_ 20 1) { lane3 with hod := { caps := [capt none] } } { st := .inUse },
    tk .captureStart 2 0 (at_ 20 1) lane3 fun u f => u.lane 0 == 3 && op32 f.e 20 == 1 && (u.capOn 0).isNone &&
      (u.freeRows.take 2).length == 2,
    gives (.captureTrigger 0 9) (capS none) fun t => ((t.capOn 0).map Capture.trigAt) == some (some (9, 0)),
    gives (.captureComplete 0 ⟨0, [⟨0, 1, 0, none, [1]⟩]⟩) (capS (some (9, 0))) fun t => t.hod.caps.isEmpty &&
      t.hod.swatches.length == 1,
    gives (.captureComplete 0 ⟨0, []⟩) (capS (some (9, 0))) fun t => t.hod.caps.isEmpty && t.hod.swatches.isEmpty,
    gives (.captureComplete 0 ⟨0, []⟩) (capS none) fun t => t.hod.caps.length == 1,
    gives (.captureTimeout 0 ⟨0, []⟩) (capS none) fun t => t.hod.caps.isEmpty && t.time == 1000000000,
    gives (.captureTimeout 0 ⟨0, []⟩) (capS (some (9, 0))) fun t => t.hod.caps.length == 1,
    done .captureDrain (fun r e d => .captureDrain r e d []) 6 0 (at_ 16 1 + at_ 24 8) hodS { st := .badField },
    done .captureDrain (fun r e d => .captureDrain r e d []) 6 0 (at_ 16 1 + at_ 24 8 + at_ 32 4)
      { hodS with hod := { swatches := [⟨1, [7]⟩] } } { r0 := 8 },
    done .captureFree .captureFree 6 0 (at_ 16 1) hodS { st := .badField },
    done .captureFree .captureFree 6 0 (at_ 16 0xFFFFFFFF) { hodS with hod := { swatches := [⟨1, [7]⟩] } } {} fun _ _ t =>
      t.hod.swatches.isEmpty,
    done .captureFree .captureFree 6 0 (at_ 16 1) { hodS with hod := { swatches := [⟨1, [7]⟩, ⟨2, [8]⟩] } } {} fun _ _ t =>
      t.hod.swatches == [⟨2, [8]⟩]].all id = true := by decide +kernel

/-! ## Receiving, slices, line formats -/

/-- Lane 0 in state `st`, step `k` of acquisition, M200. -/
def acq (st k : Nat) (x : RxX := {}) : State := ((lane0 st 4).wr Reg.LN.RX_STAT.ACQ_STEP k 0).setRx 0 x

theorem witness_Signal : [
    lit.courseOn 0,
    gives (.losAssert 0) (acq 3 9) fun t => t.rd Reg.LN.AGC.LOS_THR 0 != 0 && t.los 0 && t.lane 0 == 2 &&
      t.rd Reg.LN.RX_STAT.ACQ_STEP 0 == 2 && t.flag Reg.EVT.LATCH.RAISED (laneSrc 0 0),
    gives (.losAssert 0) (acq 2 1) fun t => t.rd Reg.LN.RX_STAT.ACQ_STEP 0 == 1,
    gives (.losAssert 0) ((acq 3 9).wr Reg.LN.AGC.LOS_THR 0 0) fun t => t.lane 0 == 3,
    gives (.losClear 0) ((acq 2 2).wr Reg.LN.RX_STAT.LOS 1 0) fun t => t.rd Reg.LN.RX_STAT.ACQ_STEP 0 == 3,
    gives (.agcBlockEnd 0 0) (acq 3 9) fun t => t.rd Reg.LN.AGC.GAIN 0 == (acq 3 9).rd Reg.LN.AGC.GAIN 0 + 1,
    gives (.agcBlockEnd 0 9999999) (acq 3 9) fun t => t.rd Reg.LN.AGC.GAIN 0 == (acq 3 9).rd Reg.LN.AGC.GAIN 0 - 1,
    gives (.agcBlockEnd 0 ((acq 3 9).rd Reg.LN.AGC.TARGET 0 * 256)) (acq 5 9) fun t =>
      t.rd Reg.LN.AGC.GAIN 0 == (acq 3 9).rd Reg.LN.AGC.GAIN 0,
    gives (.cdrLock 0 0) ((acq 2 5 { cdrFrac := 2 ^ 20 - 1 }).wr Reg.LN.CDR.FREQ 2999 0) fun t => t.flag Reg.LN.RX_STAT.CDR_LOCK 0 &&
      t.rd Reg.LN.CDR.FREQ 0 == 2999,
    gives (.cdrLock 0 (-(2 ^ 40))) (acq 2 5) fun t => !t.flag Reg.LN.RX_STAT.CDR_LOCK 0 &&
      t.rd Reg.LN.CDR.FREQ 0 == 65536 - 3000,
    gives (.cdrLock 0 9) ((acq 2 5).wr Reg.LN.RX_CTRL.CDR_FREEZE 1 0) fun t => !t.flag Reg.LN.RX_STAT.CDR_LOCK 0,
    gives (.cdrLock 0 0) ((acq 2 5).wr Reg.LN.FMT_CFG.MODE 1 0) fun t => t.flag Reg.LN.RX_STAT.FRAME_LOCK 0,
    gives (.cdrLockLoss 0) ((acq 3 9).wr Reg.LN.RX_STAT.CDR_LOCK 1 0) fun t => t.lane 0 == 2 &&
      t.rd Reg.LN.RX_STAT.ACQ_STEP 0 == 5,
    gives (.cdrLockLoss 0) (((acq 3 9).wr Reg.LN.RX_STAT.CDR_LOCK 1 0).wr Reg.LN.RX_CTRL.CDR_FREEZE 1 0) fun t =>
      t.lane 0 == 3].all id = true := by decide +kernel

def stepTo (s : State) (k : Nat) : Bool :=
  gives (.acqStepComplete 0 [] [] 0) s fun t => t.rd Reg.LN.RX_STAT.ACQ_STEP 0 == k && t.lane 0 == 2

theorem witness_Acquisition : [
    (acq 2 2).laneEngineOn 0, stepTo (acq 2 2) 3, stepTo (acq 2 3) 3, stepTo (acq 2 3 { agcOk := true }) 4, stepTo (acq 2 4) 5,
    stepTo ((acq 2 4 { sweep := true }).wr Reg.LN.RX_CTRL.CTLE_FREEZE 1 0) 4, stepTo (acq 2 4 { sweep := true }) 5,
    stepTo (acq 2 5) 5, stepTo (acq 2 6 { mseRun := 7 }) 6, stepTo (acq 2 6 { mseRun := 8 }) 7, stepTo (acq 2 7) 8,
    stepTo (acq 2 8) 8, stepTo ((acq 2 8).wr Reg.LN.RX_STAT.FRAME_LOCK 1 0) 9,
    stepTo (acq 2 9) 8, gives (.acqStepComplete 0 [] [] 0) ((acq 2 9).wr Reg.LN.RX_STAT.FRAME_LOCK 1 0) fun t =>
      t.lane 0 == 3 && t.flag Reg.EVT.LATCH.RAISED (laneSrc 0 1),
    gives (.acqRetry 0) ((acq 2 7).wr Reg.LN.RX_STAT.ACQ_RETRY 255 0) fun t => t.rd Reg.LN.RX_STAT.ACQ_STEP 0 == 3 &&
      t.rd Reg.LN.RX_STAT.ACQ_RETRY 0 == 255 && t.time == 250000000,
    gives (.frameLockTimeout 0) (acq 2 8 { lossAt := some 5 }) fun t => t.rd Reg.LN.RX_STAT.ACQ_STEP 0 == 3 &&
      t.time == 10000005,
    gives (.frameLockLoss 0) (((acq 3 9).wr Reg.LN.FMT_CFG.MODE 2 0).wr Reg.LN.RX_STAT.FRAME_LOCK 1 0) fun t =>
      t.lane 0 == 2 && t.rd Reg.LN.RX_STAT.ACQ_STEP 0 == 8,
    gives (.frameLockLoss 0) (((acq 2 9).wr Reg.LN.FMT_CFG.MODE 2 0).wr Reg.LN.RX_STAT.FRAME_LOCK 1 0) fun t =>
      t.lane 0 == 2 && t.rd Reg.LN.RX_STAT.ACQ_STEP 0 == 8,
    gives (.gradientBlockEnd 0 [2 ^ 30] 7 [1024]) (acq 3 9 { taps := [0, 5], levels := [3] }) fun t =>
      (t.rxOf 0).levels == [4] && (t.rxOf 0).mse == 7 && !((t.rxOf 0).taps == [0, 5]),
    gives (.gradientBlockEnd 0 [2 ^ 30] 7 []) (acq 3 9 { discard := true }) fun t => !(t.rxOf 0).discard,
    gives (.gradientBlockEnd 0 [2 ^ 30] 7 []) (acq 3 9 { cut := true, taps := [5], bank := [0] }) fun t => !(t.rxOf 0).cut &&
      (t.rxOf 0).taps == [5] && (t.rxOf 0).mse == 0].all id = true := by
  decide +kernel

def probe : SurveyIn := ⟨2 ^ 20, 64 * 1024, 0, 0, 0, 0, 5000, 40, 0, [], [], [], [], [], 0⟩

theorem witness_Surveys : [
    gives (.surveyEnd 0 probe) (acq 3 9 { seq := 2 ^ 32 - 1 }) fun t => (t.rxOf 0).seq == 0 && (t.rxOf 0).hist.length == 1 &&
      t.flag Reg.LN.LATENCY.VALID 0 && t.rd Reg.LN.LATENCY.RX_LAT 0 == 4095 && t.rd Reg.LN.LATENCY.TX_LAT 0 == 40 &&
      t.rd Reg.LN.RX_SNR.SNR_MFB 0 == 699,
    gives (.surveyEnd 0 probe) (((acq 3 9).wr Reg.LN.CDR.FREQ 3000 0).wr Reg.LN.RX_STAT.CDR_LOCK 1 0) fun t => t.lane 0 == 2 &&
      t.rd Reg.LN.RX_STAT.ACQ_STEP 0 == 5 && !t.flag Reg.LN.RX_STAT.CDR_LOCK 0,
    gives (.surveyEnd 0 probe) ((((acq 3 9 { degUp := 200 }).wr Reg.LN.DEC_CW.COUNT 100 0).wr Reg.LN.DEC_CORR.COUNT 25600 0).wr
      Reg.LN.RX_THRESH.DEG_SET 0x11 0) fun t => t.flag Reg.LN.RX_STAT.FEC_DEG 0 && t.flag Reg.EVT.LATCH.RAISED (laneSrc 0 2),
    done .seedSave .seedSave 2 0 0 (acq 2 9) { st := .badField },
    done .seedSave .seedSave 2 0 0 ((acq 3 9).wr Reg.LN.RX_CTRL.TGT_FREEZE 1 0) { st := .badField },
    done .seedSave .seedSave 2 0 0 (((acq 3 9).wr Reg.LN.RX_STAT.CDR_LOCK 1 0).wr Reg.LN.RX_STAT.FRAME_LOCK 1 0) {} fun u _ t =>
      u.nvmOpen && (Tab.get none t.seeds 0).isSome,
    done .seedErase .seedErase 2 0 0 { lit with seeds := [(0, some {})] } {} fun _ _ t => (Tab.get none t.seeds 0).isNone,
    done .seedErase .seedErase 2 0 0 (lit.wr Reg.THM.SENSOR.READING 5000 0) { st := .nvmTemp }].all id = true := by decide +kernel

/-- Lane 0 ACTIVE in M200 with its first calibration done, slice 9 in state `st` and slice 4 on position 63. -/
def sl (st : SliceSt) (x : CalX := {}) : State :=
  (((((acq 3 9).wr Reg.LN.RX_STAT.CDR_LOCK 1 0).wr Reg.LN.RX_STAT.FRAME_LOCK 1 0).wr Reg.LN.CAL_STAT.FIRST_DONE 1 0).setCal 0
    { x with slices := [(4, { st := .active, pos := 63 }), (9, { st := st })] })

/-- A parameter whose one pair agrees on zero, and one whose pair lies apart. -/
def agree : Meas := [(0, 0)]
def apart : Meas := [(0, 9999)]

theorem witness_Rotation : [
    (sl .cal).sliceIn 0 .cal == some 9 && (sl .cal).calAllowed 0 && (sl .ready).shadowAllowed 0 false,
    gives (.calStepDone 0 ⟨[[(32, 64)], agree, agree, agree, agree, agree], []⟩) (sl .cal) fun t => (t.slice 0 9).st == .ready &&
      (t.slice 0 9).coef == [3, 0, 0, 0, 0, 0],
    gives (.calStepDone 0 ⟨[apart, agree, agree, agree, agree, agree], []⟩) (sl .cal) fun t => (t.slice 0 9).suspect &&
      (t.slice 0 9).run == 1,
    gives (.calStepDone 0 ⟨[], []⟩) ((sl .cal).wr Reg.GLB.BG_STAT.FREEZE 1) fun t => (t.slice 0 9).st == .queued &&
      (t.calOf 0).queue == [9],
    !((sl .cal).wr Reg.GLB.BG_STAT.FREEZE 1).calAllowed 0,
    gives (.shadowStart 0) (sl .ready { failed := [63] }) fun t => (t.slice 0 9).st == .shadow && (t.calOf 0).faultSwap,
    gives (.shadowStart 0) (sl .ready { swapAt := some 8 }) fun t => (t.slice 0 9).st == .shadow && t.time > 8,
    gives (.shadowStart 0) ((sl .ready).wr Reg.GLB.BG_STAT.FREEZE 1) fun t => (t.slice 0 9).st == .ready,
    gives (.shadowCompareDone 0 [agree, [(64, 64)]] [(5, 5)]) (sl .shadow { shadowPos := 63 }) fun t =>
      (t.slice 0 9).st == .active && (t.slice 0 9).pos == 63 && (t.slice 0 9).coef == [0, 0, 0, 0, 0, 0, 0, 4] &&
      (t.slice 0 4).st != .active,
    gives (.shadowCompareDone 0 [agree, agree] [(5, 9)]) (sl .shadow { shadowPos := 63, shadowTries := 2 }) fun t =>
      (t.calOf 0).shadowTries == 3 && (t.slice 0 9).trims == some [0, 0],
    gives (.shadowCompareDone 0 [apart, agree] [(5, 5)]) (sl .shadow { shadowPos := 63 }) fun t =>
      (t.slice 0 9).suspect && (t.slice 0 4).st == .active,
    (let s := ((sl .shadow { shadowPos := 63 }).wr Reg.LN.RX_STAT.LANE_STATE 4 0).wr Reg.LN.BST_STAT.RX_PHASE 3 0
     s.shadowAllowed 0 false && s.inBurst 0 && gives (.shadowCompareDone 0 [agree, agree] [(5, 5)]) s fun t =>
      (t.calOf 0).swapDue && (t.slice 0 9).st == .shadow)].all id = true := by decide +kernel

/-- R107, R108, R122: the first pair that agrees counts, a value outside the range is refused, and a sample is corrected by
the slice of its position. -/
theorem test_agreeAndCorrect : [
    judge ⟨2, -128, 128⟩ [(0, 33), (16, 48)] == .accept 2, judge ⟨2, -128, 128⟩ [(0, 33), (0, 33), (0, 33), (0, 33), (0, 0)] == .suspect,
    judge ⟨2, -128, 128⟩ [(2064, 2064)] == .outOfRange, judge ⟨2, -128, 128⟩ [(-24, -24)] == .accept (-2),
    ((sl .queued).setSlice 0 4 { st := .active, pos := 63, coef := [1, 0, 0, 0, 0, 3] }).adcSample 0 127 16 == some (5170000 : Int),
    (sl .queued).adcSample 0 126 16 == none].all id = true := by decide +kernel

theorem witness_Groups : [
    (sl .queued { group := some 4 }).groupsAllowed 0,
    gives (.calGroupDone 0 [apart]) (sl .queued { group := some 4 }) fun t => bitOf (t.rd Reg.LN.CAL_STAT.SUSPECT 0) 4,
    gives (.calGroupDone 0 [[(80, 80)]]) (sl .queued { group := some 4 }) fun t => (t.calOf 0).groupCoef.getD 3 [] == [5],
    gives (.calGroupDone 0 []) (sl .queued { group := some 2 }) fun t => (t.calOf 0).group == some 2,
    gives (.calGroupDone 0 [agree]) ((sl .queued { group := some 1 }).wr Reg.THM.SENSOR.READING 5 8) fun t =>
      (t.calOf 0).base == [5, 0, 0, 0],
    gives (.calGroupDone 0 [agree]) ((sl .queued { group := some 1 }).wr Reg.GLB.BG_STAT.FREEZE 1) fun t => (t.calOf 0).group.isNone,
    done .calibrate .calibrate 2 0 (at_ 16 2) lit { st := .badField },
    done .calibrate .calibrate 2 0 0 (acq 3 9) { st := .badField },
    done .calibrate .calibrate 2 0 (at_ 16 1) (lit.wr Reg.GLB.BG_STAT.FREEZE 1) { st := .calSuspect },
    done .calibrate .calibrate 2 0 0 ((acq 5 9).setCal 0 { foreground := some .register }) { st := .inUse },
    ran .calibrate .calibrate 2 0 0 (acq 5 9) fun _ _ t => (t.calOf 0).foreground.isSome,
    done .calibrate .calibrate 2 0 (at_ 16 1 + at_ 17 8) (sl .queued) { r0 := 8 } fun u _ _ => 0 < u.spares 0,
    gives (.foregroundCalDone 0 [] []) ((acq 5 9).setCal 0 { foreground := some .register }) fun t =>
      (t.calOf 0).foreground.isNone,
    core.coreRuns 7,
    gives (.bandgapCheck 1005 1000) { core with bgFused := 1000, bgHigh := 255 } fun t => t.flag Reg.GLB.BG_STAT.FREEZE &&
      t.flag Reg.EVT.LATCH.RAISED 1 && t.rd Reg.GLB.BG_STAT.D_SC0 == 500 && t.flag Reg.GLB.BG_STAT.SC_DISAGREE,
    gives (.bandgapCheck 1004 996) { core with bgFused := 1000, bgHigh := 255 } fun t => !t.flag Reg.GLB.BG_STAT.FREEZE,
    gives (.bandgapCheck 1003 997) { core with bgFused := 1000, bgLow := 15 } fun t => t.flag Reg.GLB.BG_STAT.RELEASE_OK,
    gives .bandgapRelease (core.wr Reg.GLB.BG_STAT.FREEZE 1) fun t => t.flag Reg.GLB.BG_STAT.FREEZE,
    gives .bandgapRelease ((core.wr Reg.GLB.BG_STAT.FREEZE 1).wr Reg.GLB.BG_STAT.RELEASE_OK 1) fun t =>
      !t.flag Reg.GLB.BG_STAT.FREEZE,
    done .retireMapClear .retireMapClear 2 0 0 { lit with retire := [(0, [3])] } {} fun _ _ t =>
      Tab.get [] t.retire 0 == []].all id = true := by decide +kernel

/-- An APB with these bits 64 to 95 and its CRC right, or off by one. -/
def apb (f : Nat) (off : Nat := 0) : Nat :=
  0x5A3C96E10FD24B87 * 2 ^ 192 + f * 2 ^ 160 + (crc16 32 f + off) % 65536 * 2 ^ 16
def al (on : Nat) (x : RxX := {}) : State := ((acq 3 9 x).wr Reg.LN.FMT_STAT.ALIGNED on 0).wr Reg.LN.RX_STAT.FRAME_LOCK 1 0

/-- PAM4 symbols that carry 256 bits. -/
def apbSyms (v : Nat) : List RxSym := (mapBits 0 (natBits 256 v)).1.map fun l => ⟨l, 0⟩
def here : ApbAt := ⟨0, true⟩

theorem witness_Alignment : [
    (al 1).rd Reg.LN.PRBS_CTRL.LOOP 0 == 0,
    gives (.apbReceived 0 ((mapBits 0 (apbBits 65534 71 2)).1.map fun l => ⟨l, 0⟩) here) (al 1) (fun t =>
      t.rd Reg.LN.FMT_STAT.FAR_LANE 0 == 7 && t.rd Reg.LN.FMT_STAT.FAR_CONST 0 == 1 &&
      t.rd Reg.LN.FMT_STAT.FAR_DEGRADE 0 == 1 && (t.rxOf 0).fcount == 65534),
    gives (.apbReceived 0 (apbSyms (apb 5 1)) here) (al 1) fun t => t.rd Reg.LN.APB_CNT.CRC_ERR 0 == 1 && t.lane 0 == 3,
    gives (.apbReceived 0 (apbSyms (apb 0x00090502)) here) (al 1) fun t => t.rd Reg.LN.FMT_STAT.FAR_LANE 0 == 5 &&
      t.rd Reg.LN.FMT_STAT.FAR_DEGRADE 0 == 1 && (t.rxOf 0).fcount == 9,
    gives (.apbReceived 0 (apbSyms (apb 5 ^^^ (127 * 2 ^ 200))) here) (al 1 { amMiss := 2 }) fun t => (t.rxOf 0).amMiss == 3,
    gives (.apbReceived 0 [] here) (al 1 { amMiss := 3 }) fun t => !t.flag Reg.LN.FMT_STAT.ALIGNED 0 && t.lane 0 == 2,
    gives (.apbReceived 0 (apbSyms (apb 5 ^^^ (63 * 2 ^ 200))) here) (al 0 { amRun := [false, false] }) fun t =>
      t.flag Reg.LN.FMT_STAT.ALIGNED 0,
    gives (.apbReceived 0 (apbSyms (apb 5 1)) here) (al 0) fun t => (t.rxOf 0).amRun == [false],
    gives (.codewordDecode 0 (List.replicate 256 (-31)) none) ((al 1).wr Reg.LN.FMT_CFG.INNER_BYPASS 1 0) fun t =>
      (t.rxOf 0).bobbin == [2 ^ 240 - 1],
    !(al 1).flag Reg.LN.FMT_CFG.INNER_BYPASS 0,
    isCodeword 0,
    gives (.hostAlignmentMarkerLock 1 true ⟨-512, 3⟩) (((lane0 3 4).wr Reg.LN.FMT_STAT.HOST_A_ALIGNED 1 0).wr Reg.HL.STAT.STATE 3 1)
      fun t => t.rd Reg.LN.FMT_STAT.DESKEW 0 == 512 && (t.txOf 0).path.skipA == 5120 && (t.txOf 0).path.skipB == 3,
    gives (.hostAlignmentMarkerLock 1 true ⟨513, 0⟩) (((lane0 3 4).wr Reg.LN.FMT_STAT.HOST_A_ALIGNED 1 0).wr Reg.HL.STAT.STATE 3 1)
      fun t => t.flag Reg.LN.FMT_STAT.SKEW_OVR 0,
    gives (.ocmCodewordLock 0 true) ((al 1).wr Reg.LN.FMT_CFG.OCM_EN 1 0) fun t => t.flag Reg.LN.FMT_STAT.OCM_LOCK 0,
    (let s := ((al 1).wr Reg.LN.FMT_CFG.OCM_EN 1 0).wr Reg.LN.FMT_STAT.OCM_LOCK 1 0
     gives (.ocmCodeword 0 15) s (fun t => t.rd Reg.LN.OCM_SYM.COUNT 0 == 15) &&
      gives (.ocmCodeword 0 16) s (fun t => t.rd Reg.LN.OCM_UNCORR.COUNT 0 == 1) &&
      gives (.ocmCodeword 0 3) (s.wr Reg.LN.OCM_CTRL.FREEZE 1 0) fun t => (t.rxOf 0).ocmHeld.getD 0 0 == 1),
    gives (.ocmClear 0) (lit.wr Reg.LN.OCM_CW.COUNT 5 0) fun t => t.rd Reg.LN.OCM_CW.COUNT 0 == 0,
    gives (.ocmFreeze 0 false) (lit.setRx 0 { ocmHeld := [5] }) fun t => t.rd Reg.LN.OCM_CW.COUNT 0 == 5].all id = true := by
  decide +kernel

/-! ## Host lanes, the mortar, supervision -/

/-- Host lane 0 in state `st`, its quad with its PLL locked. -/
def hl (st : Nat) (x : HostX := {}) (f : State → State := id) : State :=
  f (((lit.wr Reg.HL.STAT.STATE st 0).wr Reg.HL.QUAD_STAT.PLL_LOCK 1 0).setHost 0 x)

theorem witness_HostLanes : [
    gives (.hostTrainReady 0 ⟨[0, 0, 0, 0, 129, 0, 0], true⟩) (hl 2 { training := true }) fun t =>
      t.rd Reg.HL.STAT.STATE 0 == 3 && t.flag Reg.HL.STAT.PRE_TX_ON 0 && (t.hostOf 0).taps == [0, 0, 0, -8, 112, -8, 0],
    gives (.hostTrainTimeout 0) (hl 2 { training := true }) fun t => t.rd Reg.HL.TRAIN_STAT.RESULT 0 == 3 &&
      (t.hostOf 0).restartAt.isSome,
    gives (.hostTrainTimeout 0) (hl 2 { training := true, restartAt := some 9 }) fun t => t.rd Reg.HL.TRAIN_STAT.RESULT 0 == 1,
    gives (.hostTrainRestart 0) (hl 2 {} fun s => s.wr Reg.HL.TRAIN_CTRL.EN 1 0) fun t => (t.hostOf 0).training,
    gives (.hostTrainRestart 0) (hl 1) fun t => t.rd Reg.HL.STAT.STATE 0 == 1,
    gives (.txEqWrite 0 0x80000000) (hl 3 {} fun s => s.wr Reg.HL.TRAIN_CTRL.EN 1 0) fun t => t.flag Reg.HL.STAT.EQ_REJECT 0,
    (let off := hl 3 {} fun s => s.wr Reg.HL.TRAIN_CTRL.EN 0 0
 gives (.txEqWrite 0 0x80000003) off (fun t => (t.hostOf 0).taps == [0, 0, 0, 0, 112, -8, 0]) &&
      gives (.txEqWrite 0 0x8000FF07) off (fun t => t.rd Reg.HL.TX_EQ.INDEX 0 == 7 && !t.flag Reg.HL.STAT.EQ_REJECT 0) &&
      gives (.txEqWrite 0 0x80000100) off fun t => t.flag Reg.HL.STAT.EQ_REJECT 0),
    gives (.sigLockChange 0 true false true) (hl 3 {} fun s => s.wr Reg.HL.STAT.CDR_LOCK 1 0) fun t =>
      t.flag Reg.HL.STAT.SIG_LOCK 0 && t.flag Reg.HL.QUAD_CHG.LANE 0 0 && t.flag Reg.EVT.LATCH.RAISED 2,
    gives (.prbsInjOne (.line 0)) (lit.wr Reg.LN.PRBS_CTRL.GEN_EN 1 0) fun t => t.out.length == 1 && (t.txOf 0).path.inject,
    gives (.prbsInjOne (.line 0)) (lit.setShadow 0 (some (0, 5))) fun t => t.out == [] && (t.fn 0).shadow.isNone && t.regs == lit.regs,
    gives (.prbsErrClear (.line 0)) (lit.wr Reg.LN.PRBS_ERR.COUNT 9 0) fun t => t.rd Reg.LN.PRBS_ERR.COUNT 0 == 0,
    gives (.checkerLock (.line 0) 5 31) (((lane0 5 4).wr Reg.LN.PRBS_CTRL.CHK_EN 1 0).wr Reg.LN.PRBS_CTRL.CHK_LOCK 1 0)
      fun t => t.rd Reg.LN.PRBS_ERR.COUNT 0 == 5 && t.rd Reg.LN.PRBS_CTRL.CHK_PAT 0 < 6,
    gives (.prbsInjOne (.host 0)) (hl 3 {} fun s => s.wr Reg.HL.PRBS_CTRL.GEN_EN 1 0) fun t => t.out.length == 1,
    gives (.checkerLock (.line 0) 1 0) ((((lane0 5 4).wr Reg.LN.PRBS_CTRL.CHK_EN 1 0).wr Reg.LN.PRBS_CTRL.CHK_PAT 0 0).setChk 0 { reg := 127, got := 7, run := 1023 })
      fun t => t.flag Reg.LN.PRBS_CTRL.CHK_LOCK 0,
    gives (.checkerLock (.line 0) 1 1) ((((lane0 5 4).wr Reg.LN.PRBS_CTRL.CHK_EN 1 0).wr Reg.LN.PRBS_CTRL.CHK_PAT 0 0).setChk 0 { reg := 127, got := 7, run := 1023 })
      fun t => !t.flag Reg.LN.PRBS_CTRL.CHK_LOCK 0 && t.chkOf 0 == {},
    gives (.checkerLock (.host 0) 1 0) (hl 3 {} fun s => (((s.wr Reg.HL.PRBS_CTRL.CHK_EN 1 0).wr Reg.HL.PRBS_CTRL.CHK_PAT 0 0).wr Reg.LN.RX_STAT.LANE_STATE 5 0).setChk
      64 { reg := 127, got := 7, run := 1023 })
      fun t => t.flag Reg.HL.PRBS_CTRL.CHK_LOCK 0,
    (let s := withPwr core { core.pwr with flkOn := true }
     gives (.prbsInjOne (.filkor 7)) (s.wr Reg.FLK.PRBS_CTRL.GEN_EN 1 7) (fun t => t.out.length == 1) &&
      gives (.checkerLock (.filkor 7) 1 0) (((s.wr Reg.FLK.PRBS_CTRL.CHK_EN 1 7).wr Reg.FLK.PRBS_CTRL.PAT 0 7).setChk 199 { reg := 127, got := 7, run := 1023 }) fun t =>
        t.flag Reg.FLK.PRBS_CTRL.CHK_LOCK 7)].all id = true := by decide +kernel

theorem witness_Mortar : [
    !lit.bufActive 0 47 && (lane0 3 2).bufActive 0 47 || (lane0 3 2).bufActive 0 0,
    gives (.slackSurvey 0 [⟨0, [0]⟩]) lit fun t => t.rd Reg.CRS.SLACK.CUR 0 == 255 && !t.flag Reg.CRS.SLACK.VALID 0,
    gives (.slackSurvey 0 [⟨0, [993]⟩]) (lane0 3 2) fun t => t.rd Reg.CRS.SLACK.CUR 0 == 7 && t.flag Reg.CRS.SLACK.LOW 0 &&
      t.flag Reg.CRS.SLACK.CRIT 0,
    gives (.slackSurvey 0 [⟨0, [0]⟩]) ((lane0 3 2).wr Reg.CRS.SLACK.LOW 1 0) fun t => t.rd Reg.CRS.SLACK.CUR 0 == 255 &&
      t.flag Reg.CRS.SLACK.LOW 0,
    gives (.slackSurvey 0 [⟨0, [0]⟩]) (((lane0 3 2).wr Reg.CRS.SLACK.LOW 1 0).setMortar 0 { lowRun := 3 }) fun t =>
      !t.flag Reg.CRS.SLACK.LOW 0,
    gives (.blockDrop 0 ⟨0, [3071]⟩ false) (lane0 3 2) fun t => !t.flag Reg.CRS.SLACK.CRIT 0 && (t.bufOf 0 0).backlog == 2047,
    gives (.blockDrop 0 ⟨0, [3072]⟩ false) (lane0 3 2) fun t => (t.bufOf 0 0).backlog == 1024 && t.flag Reg.CRS.SLACK.CRIT 0 && t.rd Reg.LN.MORTAR_DROP.RX_BLOCKS 0 == 1,
    gives (.blockDrop 0 ⟨8, []⟩ true) ((lane0 3 1).setTx 0 { path := { fill := 1 } }) fun t => (t.txOf 0).path.fillDue == 1 && t.rd Reg.LN.MORTAR_DROP.TX_BLOCKS 0 == 1 && t.raises.length == 1,
    gives (.runningMeanBelowCrit 0 0 [993]) (lane0 3 2) fun t => t.flag Reg.CRS.SLACK.CRIT 0,
    gives (.slackMinClr 0 0) (lit.wr Reg.CRS.SLACK.MIN 3 0) fun t => t.rd Reg.CRS.SLACK.MIN 0 == 255,
    core.coreRuns 2, gives .avsAdvice (core.wr Reg.GLB.AVS_MEAS.VCORE_MV 748) fun t => t.rd Reg.GLB.AVS_ADV.ADV_MV == 750 &&
      t.rd Reg.GLB.AVS_ADV.DIR == 0,
    gives (.pulseLost (some 0)) lit fun t => t.flag Reg.EVT.LATCH.RAISED 16,
    gives (.pulseLost none) (lit.wr Reg.CRS.XING_STAT.PULSE_LOST 1 0) fun t => t.flag Reg.GLB.XING_STAT.PULSE_LOST &&
      t.raises == []].all id = true := by decide +kernel

/-- Converter 1 enabled with its reference ready. -/
def sc (v : ScvX) : State := ((core.wr Reg.SCV.CTRL.EN 1 1).wr Reg.SCV.STAT.REF_READY 1 1).setScv 1 v
def trig (k : Nat) (s : State) : State := s.wr Reg.SCV.INJ_CTRL.TRIG k 1

theorem witness_Converters : [
    gives (.referenceReady 1) (core.setScv 1 { refOn := true, sysDue := true }) fun t => t.refReady 1 && (t.scvOf 1).run == 2,
    gives (.referenceReady 1) (core.setScv 1 { refOn := true }) fun t => t.refReady 1 && (t.scvOf 1).run == 0,
    gives (.referenceReady 1) core fun t => !t.refReady 1,
    gives (.injectTimer 1) (trig 2 (sc { refOn := true })) fun t => (t.scvOf 1).run == 1,
    gives (.injectTimer 1) (trig 1 (sc { refOn := true, run := 1, hostWait := [.device, .device] })) fun t =>
      t.flag Reg.SCV.STAT.INJ_OVR 1,
    gives (.injectTimer 1) (trig 3 (sc {})) fun t => (t.scvOf 1).hostWait == [],
    gives (.systemInjection 1) (sc { refOn := true }) fun t => (t.scvOf 1).run == 2,
    gives (.injectedRunEnd 1 [0, 0, 2499000] none) (sc { refOn := true, run := 2, sysDue := true }) fun t =>
      t.rd Reg.GLB.AVS_MEAS.VCORE_MV == 2498 || t.rd Reg.GLB.AVS_MEAS.VCORE_MV == 2499,
    gives (.injectedRunEnd 1 [1250000] none) ((sc { refOn := true, run := 1, hostWait := [.register] }).wr
      Reg.SCV.INJ_CTRL.INJ_LEN 0 1) fun t => t.rd Reg.SCV.INJ_RES.CODE 1 0 == 32768 && (t.scvOf 1).run == 0,
    gives (.injectedRunEnd 1 [] none) (sc {}) fun t => (t.scvOf 1).run == 0,
    gives (.scRoundEnd 1 [625000]) (((sc { refOn := true, force := [(3, 1, 1)] }).wr Reg.DEC.CFG.EN 1 63).setDec 63
      { src := 0, filt := 0 } |>.wr Reg.DEC.THR.HI 100 63 |>.wr Reg.DEC.CFG.DWELL 0 63) fun t =>
      t.rd Reg.SCV.RES.CODE 1 0 == 32768 && t.rd Reg.DEC.OUT.VALUE 63 == 32768 && t.flag Reg.DEC.HYS.ABOVE 63,
    (sc {}).scRunning 1,
    done .scInject .scInject 5 2 0 core { st := .badField },
    done .scInject .scInject 5 1 0 (trig 1 (sc {})) { st := .badField },
    done .scInject .scInject 5 1 0 (sc { run := 1, hostWait := [.device] }) { st := .inUse },
    ran .scInject .scInject 5 1 0 (sc { refOn := true }) fun _ _ t => (t.scvOf 1).hostWait.length == 1].all id = true := by
  decide +kernel

def job (wr : Bool) : CmisJob := ⟨.register, wr, 0x10, 128, 2, [], 4, ⟨[], none⟩⟩
def cm (x : CmisX) : State := (lit.wr Reg.CRS.CMIS_CTRL.POLL_EN 1 0).setCmis 0 x
def standby : State := { lit with twin := { lit.twin with strap := 2 } }

theorem witness_Cmis : [
    done .cmisRead .cmisRead 1 0 (at_ 19 1 + at_ 24 4) standby { st := .notOwner },
    done .cmisRead .cmisRead 1 0 (at_ 18 127 + at_ 19 2 + at_ 24 4) lit { st := .badField },
    done .cmisWrite .cmisWrite 1 0 (at_ 19 33) lit { st := .badField },
    ran .cmisRead .cmisRead 1 0 (at_ 18 128 + at_ 19 128 + at_ 24 4) lit fun _ _ t => (t.cmisOf 0).jobs.length == 1 &&
      t.out.length == 1,
    ran .cmisWrite .cmisWrite 1 0 (at_ 18 128 + at_ 19 32) lit fun _ _ t => (t.cmisOf 0).jobs.length == 1,
    (cm {}).cmisOn 0, gives (.cmisBusTimeout 0) (cm { jobs := [job true], tries := 1 }) fun t => (t.cmisOf 0).tries == 2,
    gives (.cmisBusTimeout 0) (cm { jobs := [job true], tries := 2 }) fun t => t.flag Reg.CRS.CMIS_STAT.BUS_FAULT 0 &&
      (t.cmisOf 0).jobs == [],
    gives (.cmisBusTimeout 0) (cm { tries := 2 }) fun t => (t.cmisOf 0).tries == 0,
    gives (.cmisAccessDone 0 []) (cm { jobs := [job true] }) fun t => (t.cmisOf 0).jobs == [],
    gives (.cmisAccessDone 0 [5, 6]) (cm { jobs := [job false] }) fun t => decide (t.out = [.hostWrite 4 [5, 6]]),
    gives (.cmisPoll 0 ⟨true, false, 3, 1, []⟩) (cm {}) fun t => t.rd Reg.CRS.CMIS_STAT.MOD_STATE 0 == 3 &&
      t.flag Reg.EVT.LATCH.RAISED 3,
    gives (.cmisPoll 0 ⟨true, false, 0, 0, []⟩) (cm {}) fun t => t.raises == [] || t.rd Reg.CRS.CMIS_STAT.MOD_STATE 0 == 0,
    gives (.cmisPoll 0 ⟨true, false, 3, 1, []⟩) (cm { jobs := [job true] }) fun t => t.raises == [],
    gives (.modIntAssert 0) (cm {}) fun t => (t.cmisOf 0).polling].all id = true := by decide +kernel

/-- R155, R200, R201, R214, R49: the near loop keeps the line output idle; a codeword dropped at the line receive buffer of
a burst is filled and counted for its end; a polarity change drops signal lock; alignment ends with the stream. -/
theorem test_idleDropAndStreams : [
    gives (.regWrite 0 0x20040C 4 (5 + 256)) ((lane0 5 4).wr Reg.LN.TX_STAT.TX_ACTIVE 1 0) fun t => !t.transmits 0 && t.txIdle 0,
    gives (.blockDrop 0 ⟨0, [3072]⟩ false) (rx5 4 { cwLine := 1 }) (fun t => t.out.length == 1 &&
      gives (.edTest 0 (signs edBits) [] [] 0) t fun u => u.rxPhase 0 == 0 && u.out.length == 2),
    gives (.regWrite 0 0x301000 4 1) (hl 3 {} fun s => (s.wr Reg.HL.STAT.CDR_LOCK 1 0).wr Reg.HL.STAT.SIG_LOCK 1 0) fun t =>
      !t.flag Reg.HL.STAT.SIG_LOCK 0 && t.flag Reg.HL.QUAD_CHG.LANE 0 0,
    gives (.sigLockChange 0 true true false) (hl 3 {} fun s => ((s.wr Reg.HL.STAT.CDR_LOCK 1 0).wr Reg.HL.STAT.SIG_LOCK 1 0).wr
      Reg.LN.FMT_STAT.HOST_A_ALIGNED 1 0) fun t => !t.flag Reg.LN.FMT_STAT.HOST_A_ALIGNED 0].all id = true := by decide +kernel

/-! ## Field update, identity, built-in tests

Where a clause needs a signature that verifies, a hash that matches or a key that decrypts, its hypothesis is a fact about
an opaque function of Config, which no state decides; the lists show the state and the operands of such a clause. -/

/-- The update machine in state `st`, with the hod ready. -/
def upd (st : Nat) (x : UpdX := {}) : State := { (core.wr Reg.HOD.STAT.READY 1).wr Reg.UPD.STAT.STATE st with upd := x }
def locked (s : State) : State := s.wr Reg.UPD.STAT.LOCK 1
def chunk (ofs n fl : Nat) : Nat := at_ 16 ofs + at_ 20 n + at_ 24 fl + at_ 32 4

theorem witness_Staging : [
    done .updateStage .updateStage 0 0 (chunk 0 3 1) (upd 0) { st := .badField },
    done .updateStage .updateStage 0 0 (chunk 0 4 1) core { st := .domainOff },
    done .updateStage .updateStage 0 0 (chunk 0 4 1) (locked (upd 1 { lockRing := some 9 })) { st := .updateBusy },
    done .updateStage .updateStage 0 0 (chunk 0 4 0) (upd 2) { st := .badField },
    done .updateStage .updateStage 0 0 (chunk 0 4 1) (upd 6) { st := .badField },
    done .updateStage .updateStage 0 0 (chunk 0 4 1) { upd 0 with hod := { swatches := [⟨1, [stagingRow]⟩] } } { st := .noSpace },
    done .updateStage .updateStage 0 0 (chunk 0 4 1) (upd 0) {} (fun _ _ t => t.upd.staged == 4 && t.updState == 1)
      ⟨[1, 2, 3, 4], none⟩,
    done .updateStage .updateStage 0 0 (chunk 4 4 0) (locked (upd 1 { lockRing := some 0, staged := 4 })) {}
      (fun _ _ t => t.upd.staged == 8) ⟨[1, 2, 3, 4], none⟩,
    ran .updateStage .updateStage 0 0 (chunk 4 4 2) (locked (upd 1 { lockRing := some 0, staged := 4 }))
      (fun _ _ t => t.upd.verify.isSome) ⟨[1, 2, 3, 4], none⟩,
    gives (.imageVerifyDone []) (upd 1) fun t => t.updState == 1,
    !((upd 1).core 6).stopped, imageHeaderOk [] == false,
    gives (.imageVerifyDone []) (upd 1 { verifyTwin := true }) fun t => t.updState == 0,
    gives (.twinImagePush 1 true) (upd 2 { stagedInfo := some {} }) fun t => t.out == [],
    gives (.twinImagePush 0 false) (upd 2 { stagedInfo := some {} }) fun t => t.rd Reg.UPD.STAT.PUSH_REFUSED == 1,
    gives (.twinImagePush 0 true) ((upd 2 { stagedInfo := some {} }).wr Reg.FLK.STAT.LINK_STATE 5) fun t =>
      t.rd Reg.UPD.PROGRESS.PERCENT == 100,
    gives (.twinImageOffer 8) (((upd 0).wr Reg.FLK.STAT.LINK_STATE 5).wr Reg.UPD.CTRL.TWIN_SRC_EN 1 |>.wr
      Reg.FLK.TWIN_STAT.STATE 2) fun t => t.upd.receiving == some 8 && t.out.length == 1,
    gives (.twinImageOffer 8) (withPwr ((upd 0).wr Reg.FLK.STAT.LINK_STATE 5) { core.pwr with flkOn := true }) fun t =>
      t.upd.receiving.isNone && t.out.length == 1,
    gives (.twinImageReceived []) (upd 1 { receiving := some 8 }) fun t => t.upd.verifyTwin].all id = true := by decide +kernel

/-- A verified image of this kind, staged. -/
def ver (k : Nat) (x : UpdX := {}) : State := upd 2 { x with stagedInfo := some { kind := k } }

theorem witness_Activation : [
    done .updateActivate .updateActivate 0 0 0 (upd 3) { st := .updateBusy },
    done .updateActivate .updateActivate 0 0 0 (upd 2) { st := .badField },
    done .updateActivate .updateActivate 0 0 0 (locked (ver 0)) { st := .updateBusy },
    done .updateActivate .updateActivate 0 0 (at_ 16 29) (ver 0) { st := .badField },
    ran .updateActivate .updateActivate 0 0 (at_ 16 30 + at_ 18 1) (ver 0) fun _ _ t => t.updState == 3,
    done .updateActivate .updateActivate 0 0 0 (ver 1) {} fun _ _ t => t.rd Reg.SEC.LC.LC_PENDING == 1,
    done .updateActivate .updateActivate 0 0 0 ((ver 1).wr Reg.THM.SENSOR.READING 5000 0) { st := .nvmTemp },
    gives .activationComplete (upd 3 { activate := some (.register, 30, true), stagedInfo := some {} }) fun t => t.updState == 4,
    (upd 4).trialGood, gives .trialHealthy (upd 4 { hostConfirm := true }) fun t => t.rd Reg.UPD.STAT.HEALTH_OK == 1,
    gives .trialHealthy (upd 4) fun t => t.updState == 6,
    !(upd 4 { faulted := true }).trialGood,
    done .updateConfirm .updateConfirm 0 0 0 (upd 4) { st := .badField },
    done .updateConfirm .updateConfirm 0 0 0 ((upd 4 { windowEnd := 9 }).wr Reg.UPD.STAT.HEALTH_OK 1) { r0 := 1 } fun _ _ t =>
      t.updState == 6,
    done .updateAbort .updateAbort 0 0 0 (upd 0) { st := .badField },
    done .updateAbort .updateAbort 0 0 0 (locked (ver 0)) { st := .updateBusy },
    done .updateAbort .updateAbort 0 0 0 (ver 0) {} fun _ _ t => t.updState == 0,
    ran .updateAbort .updateAbort 0 0 0 (upd 4) fun _ _ t => t.updState == 5,
    gives .confirmWindowExpiry (upd 4) fun t => t.updState == 5, gives .confirmWindowExpiry (upd 3) fun t => t.updState == 3,
    gives .swapBoundExpiry (upd 3 { activate := some (.register, 30, true) }) fun t => t.updState == 5,
    gives .fallbackEnd (upd 5 { fallback := some .register }) fun t => t.updState == 0,
    gives .fallbackEnd (upd 5 { fallback := some .device, fallbackBoot := true, other := some {} }) fun t => t.upd.bootSlot == 1,
    gives .foremanRestartDone ((upd 0).setCore 0 { restarting := true }) fun t => !(t.core 0).restarting,
    gives .foremanRestartDone ((upd 3 { activate := some (.register, 30, true) }).setCore 0 { restarting := true }) fun t =>
      t.updState == 5].all id = true := by decide +kernel

def rec0 : CommitRec := ⟨7, 0, 1, true, 5, 6, 0, []⟩

theorem witness_Commit : [
    done .updateCommit .updateCommit 0 0 0 (upd 6) { st := .badField },
    ran .updateCommit .updateCommit 0 0 0 (upd 6 { stagedInfo := some {} }) fun _ _ t => t.updState == 7,
    done .updateCommit .updateCommit 0 0 0 ((upd 6 { stagedInfo := some {} }).wr Reg.THM.SENSOR.READING 5000 0) { st := .nvmTemp },
    gives (.commitRecordWritten false []) (upd 7 { commit := some .register, stagedInfo := some {} }) fun t => t.updState == 6,
    gives (.commitRecordWritten true []) (upd 7 { commit := some .register, stagedInfo := some {}, record := some rec0 }) fun t =>
      t.updState == 0 && (t.upd.record.map CommitRec.seq) == some 8 && t.rd Reg.UPD.RECORD.SEQ == 8,
    gives .nvmWriteRetry (upd 0) fun t => t.upd.retry == [],
    gives .nvmWriteRetry (upd 0 { retry := [.record rec0] }) fun t => t.upd.record == some rec0,
    gives .nvmWriteRetry (upd 0 { retry := [.arb 9] }) fun t => t.rd Reg.SEC.ARB.COUNTER == 9,
    gives .nvmWriteRetry { upd 0 { retry := [.overlay] } with hod := { overlay := [(1, true, 2)] } } fun t =>
      t.hod.saved == [(1, true, 2)],
    gives .bootTrialHealthy (upd 0 { bootTrial := true, record := some rec0, other := some { secVer := 5 } }) fun t =>
      !t.upd.bootTrial && (t.upd.record.map CommitRec.prevOk) == some false && t.rd Reg.SEC.ARB.COUNTER == 6,
    gives .bootTrialHealthy ((upd 0 { bootTrial := true, record := some rec0, other := some {} }).wr Reg.THM.SENSOR.READING 5000 0)
      fun t => t.upd.retry.length == 2,
    gives .bootTrialWindowExpiry (upd 0 { bootTrial := true, record := some rec0 }) fun t => t.updState == 5,
    gives .bootTrialWindowExpiry (upd 0 { bootTrial := true, record := some { rec0 with prevOk := false } }) fun t =>
      !t.upd.bootTrial].all id = true := by decide +kernel

/-- An ATTEST of ring 0 that runs. -/
def attesting (d : Dma) : State :=
  core.setRing 0 { flights := [⟨0, opCode .attest, entry 0 0 0, d, some 3, 0, 0, 0, none, .running⟩] }

theorem witness_Identity : [
    done .attest .attest 9 0 (at_ 48 4) core { st := .badField, r0 := 16864 },
    done .attest .attest 9 0 (at_ 48 2 + at_ 56 16864) core { st := .badField },
    ran .attest .attest 9 0 (at_ 48 4 + at_ 56 16864) core fun _ _ t => (t.runningOp 0 (opCode .attest)).isSome,
    (core.runningOp 0 (opCode .attest)).isNone,
    ((attesting ⟨[], none⟩).runningOp 0 (opCode .attest)).isSome && ((attesting ⟨[], some 16863⟩).runningOp 0
      (opCode .attest)).isSome && !(core.core 1).stopped,
    gives (.attestationSigned 0) ((attesting ⟨[], none⟩).setCore 1 { stopped := true }) fun t =>
      (lastRes t).map Res.st == some .domainOff,
    tk .identityRead 9 0 (at_ 16 4 + at_ 24 (2 ^ 24)) core fun _ f => addrOk (op64 f.e 16) (op32 f.e 24),
    tk .identityRead 9 0 0 core,
    done .keyslotWrite .keyslotWrite 9 5 (at_ 16 4) core { st := .badField },
    done .keyslotWrite .keyslotWrite 9 5 (at_ 17 64) core { st := .badField },
    done .keyslotWrite .keyslotWrite 9 5 (at_ 16 3 + at_ 17 255 + at_ 24 4) core { st := .dmaFault } (fun _ _ _ => true)
      ⟨[], some 399⟩,
    done .keyslotWrite .keyslotWrite 9 5 (at_ 16 3 + at_ 17 255 + at_ 24 4) core { st := .badField } (fun _ _ _ => true)
      ⟨List.replicate 2000 0, none⟩,
    done .keyslotErase .keyslotErase 9 0 0 core {} fun u _ t => (Tab.get none u.sec.keys 0).isSome &&
      (Tab.get none t.sec.keys 0).isNone && (t.ring 0).session.isNone,
    done .keyslotErase .keyslotErase 9 0 0 hot { st := .nvmTemp }].all id = true := by decide +kernel

/-- A record for key slot 5, shaped as the operands say. -/
def keyRec : List Byte := ascii "TRKY" ++ [5, 3, 255] ++ List.replicate 1493 0

theorem witness_KeyRecord : [
    cut keyRec 0 4 == ascii "TRKY" && numAt keyRec 4 1 == 5 && numAt keyRec 5 1 == 3 && numAt keyRec 6 1 == 255 &&
      allZero (cut keyRec 7 9)].all id = true := by decide +kernel

def testing (code kind : Nat) : State := { core with tests := [⟨code, kind, .register⟩] }

theorem witness_BuiltInTests : [
    done .bistRun .bistRun 1 0 (at_ 16 3) core { st := .badField },
    done .bistRun .bistRun 1 0 0 lit { st := .badField },
    done .bistRun .bistRun 2 0 0 (lane0 3 4) { st := .badField },
    done .bistRun .bistRun 3 0 0 (lit.wr Reg.SEC.LC.LC_STATE 3) { st := .badField },
    done .bistRun .bistRun 1 7 0 { core with tests := [⟨0, 0, .register⟩, ⟨1, 0, .register⟩, ⟨2, 0, .register⟩, ⟨3, 0, .register⟩] }
      { st := .inUse },
    ran .bistRun .bistRun 1 7 (at_ 16 2) core fun _ _ t => t.tests.length == 1,
    ran .bistRun .bistRun 2 0 (at_ 16 2) (lane0 5 4) fun _ _ t => t.tests.length == 1,
    ran .bistRun .bistRun 0 0 (at_ 16 2) (core.wr Reg.SEC.LC.LC_STATE 3) fun _ _ t => t.tests.length == 1,
    gives (.bistRunEnd 7 ⟨3, some 3, none, []⟩) core fun t => t.regs == core.regs,
    gives (.bistRunEnd 7 ⟨3, some 3, none, []⟩) (testing 7 0) fun t => t.tests == [] && t.rd Reg.BIST.LAST.LOGIC == 0 &&
      t.rd Reg.BIST.LAST.MEM == 3 && t.rd Reg.BIST.MISR.SIGNATURE == 3,
    gives (.bistRunEnd 7 ⟨3, none, some ⟨1, 2, 3, 4, 5⟩, []⟩) (testing 7 2) fun t => t.rd Reg.BIST.LAST.LOGIC == 3 &&
      t.rd Reg.BIST.FAIL_ADDR.ADDR == 3,
    gives (.bistRunEnd 7 ⟨3, some 4, none, [(63, 67)]⟩) (testing 7 0) fun t => (Tab.get [] t.retire 63).contains 67].all id =
      true := by decide +kernel

/-! ## Twins and the Filkor link

The mirror formats of an image are an opaque constant of Config, so no list shows a pair whose formats meet. -/

/-- A device of a pair with this strap, in twin state `st`, its link in state `l`. -/
def tw (strap st l : Nat) (x : TwinX := {}) : State :=
  (({ withPwr lit { lit.pwr with flkOn := true } with twin := { x with strap := strap } }).wr Reg.FLK.STAT.LINK_STATE l).wr
    Reg.FLK.TWIN_STAT.STATE st

theorem witness_Mirror : [
    (tw 1 2 5).owns 0 && !(tw 2 2 5).owns 0 && (tw 1 2 5).mirrorOn,
    done .twinHandover .twinHandover 8 0 0 (tw 2 2 5) { st := .notOwner },
    done .twinHandover .twinHandover 8 0 0 (tw 1 3 5) { st := .twinNotSynced },
    ran .twinHandover .twinHandover 8 0 (at_ 16 1) (tw 1 2 5 { nextSeq := 2 ^ 24 - 1 }) fun _ _ t => t.twinState == 4 &&
      t.twin.nextSeq == 0 && t.out.length == 1,
    done .twinTakeover .twinTakeover 8 0 0 (tw 1 2 5) {},
    ran .twinTakeover .twinTakeover 8 0 0 (tw 2 2 5 { sense := [(0, true)] }) fun _ _ t => t.armed 0 && t.twinState == 4,
    ran .twinTakeover .twinTakeover 8 0 0 (tw 2 2 5) fun _ _ t => t.owns 0 && t.flag Reg.EVT.LATCH.RAISED (courseSrc 0 9),
    gives (.takeoverTimeout 0) (tw 2 4 5 { takeovers := [⟨0, .register, 5⟩] }) fun t => t.twin.takeovers == [] &&
      t.time == 30005,
    done .twinLogQuery (fun r e d => .twinLogQuery r e d []) 8 0 0 (tw 2 2 5) {},
    done .twinLogQuery (fun r e d => .twinLogQuery r e d []) 8 0 (at_ 24 7) (tw 2 2 5 { log := [⟨0, 7, 9, .ok⟩, ⟨1, 7, 8, .ok⟩] }) { r0 := 1, r1 := 9 },
    done .twinLogQuery (fun r e d => .twinLogQuery r e d []) 8 0 (at_ 24 7)
      ((tw 2 2 5 { log := [⟨0, 7, 9, .ok⟩], logAt := 1 }).setHodWord (logWord 0 + 1) ⟨9 * 2 ^ 16, true⟩)
      { st := .eccUncorr, r0 := 1, r1 := 9 },
    gives (.mirrorFrameReceived 3 0 0 (entry 0 0 0) ⟨[], none⟩) (tw 2 2 5) fun t => t.out == [],
    gives (.mirrorFrameReceived 0 0 (BitVec.ofNat 16 askOp) (entry 1 0 0) ⟨[], none⟩) (tw 1 2 5) fun t =>
      t.twin.rxSeq == 1 && t.out.length == 1,
    ((opOfCode 0xFFFF).bind mirrorRun).isNone,
    gives (.mirrorFrameReceived 0 0 0xFFFF (entry 0 0 0) ⟨[], none⟩) (tw 2 2 5) fun t => t.out.length == 1,
    (opOfCode (opCode .laneState)).isSome && (mirrorRun .laneState).isSome && askOp != opCode .laneState,
    (tw 2 2 5).judgeFrame .laneState (entry 2 64 0) == some (some .badField),
    (tw 2 2 5).judgeFrame .laneState (entry 2 0 0) == some none,
    gives (.mirrorFrameReceived 0 0 (BitVec.ofNat 16 (opCode .laneState)) (entry 2 0 (at_ 16 5)) ⟨[], none⟩)
      ((tw 2 2 5).wr Reg.LN.RX_STAT.LANE_STATE 1 0) fun t => t.lane 0 == 5,
    gives (.mirrorAckReceived 4 0) (tw 1 2 5) fun t => t.out == [],
    gives (.mirrorAckReceived 4 1) (tw 1 2 5 { outs := [⟨4, 0, 0, opCode .laneState, entry 2 0 (at_ 16 5), ⟨[], none⟩, 0, 0⟩] })
      fun t => t.twinState == 3 && t.rd Reg.FLK.TWIN_STAT.DEG_CAUSE == 4,
    gives (.mirrorAckReceived 4 0) ((tw 1 2 5 { outs := [⟨4, 0, 0, opCode .laneState, entry 2 0 (at_ 16 5), ⟨[], none⟩, 0, 0⟩] }).wr
      Reg.LN.RX_STAT.LANE_STATE 1 0) fun t => t.lane 0 == 5,
    gives (.mirrorAckReceived 4 0)
      (tw 1 2 5 { outs := [⟨4, 0, 0, opCode .powerSet, entry 0 0 (at_ 16 1), ⟨[], none⟩, 0, 0⟩] }) fun t =>
      t.owns 0 && t.pwr.trans == some ⟨1, 0, 0, .host 0 0⟩,
    gives .mirrorAckTimeout (tw 1 2 5 { outs := [⟨4, 0, 0, 0, entry 0 0 0, ⟨[], none⟩, 7, 2⟩] }) fun t => t.time == 20007 &&
      t.out.length == 1,
    gives .mirrorAckTimeout (tw 1 2 5 { outs := [⟨4, 0, 0, 0, entry 0 0 0, ⟨[], none⟩, 7, 3⟩] }) fun t => t.twinState == 3 &&
      t.rd Reg.FLK.TWIN_STAT.DEG_CAUSE == 3,
    (let f : Flight := { fl 0 with phase := .parked 9, role := none }
     decide ((((tw 1 1 5).setRing 0 { flights := [f] }).upTo 9).judge f = .fails .noSession)),
    gives (.pairingWaitTimeout 0) (tw 1 1 5) fun t => t.out == []].all id = true := by decide +kernel

/-- The link in state `l` of a device in SOLO. -/
def lk (l : Nat) (f : State → State := id) : State := f (tw 1 0 l)

theorem witness_Link : [
    (lk 0).linkOn && (lk 0).k3On,
    gives (.filkorDetectProbe 255) (lk 0) fun t => t.linkState == 1, gives (.filkorDetectProbe 254) (lk 0) fun t =>
      t.linkState == 0 && t.flag Reg.FLK.LANE_STAT.LOS 0,
    (lk 1).linkState == 1, gives .filkorBitlock (lk 0) fun t => t.linkState == 0,
    gives (.filkorBlocklock [0, 32]) (lk 2) fun t => t.linkState == 4 && t.out.length == 1 && t.rd Reg.FLK.LANE_STAT.SKEW 1 == 32,
    gives (.filkorBlocklock [33]) (lk 2) fun t => t.linkState == 2,
    gives .filkorTrainTimeout (lk 2) fun t => t.linkState == 0 && t.rd Reg.FLK.STAT.RETRIES == 1,
    gives .filkorTrainTimeout (lk 3) fun t => t.linkState == 3,
    gives (.blockLockLoss 7 300) (lk 3) fun t => t.linkState == 1 && t.rd Reg.FLK.LANE_STAT.HDR_ERR 7 == 255,
    gives (.blockLockLoss 7 0) (tw 1 2 5) fun t => t.twinState == 3 && t.flag Reg.EVT.LATCH.RAISED 5 &&
      t.rd Reg.FLK.TWIN_STAT.DEG_CAUSE == 2,
    gives (.farTerminationLoss 7) (lk 1) fun t => t.linkState == 0,
    gives .filkorRetrain (lk 2) fun t => t.linkState == 1, gives .filkorRetrain (lk 5) fun t => t.flag Reg.EVT.LATCH.RAISED 5,
    gives .fl2Enter (lk 5 fun s => s.wr Reg.FLK.TWIN_CFG.EN 0) fun t => t.rd Reg.FLK.STAT.LP_STATE == 2 && t.twin.fl2Active,
    gives .fl2Enter (tw 1 1 5) fun t => t.rd Reg.FLK.STAT.LP_STATE == 0,
    (let s := (tw 1 0 0 { fl2Active := true }).wr Reg.FLK.STAT.LP_STATE 2
     !s.flkTesting && gives .fl2Exit s fun t => t.linkState == 5),
    gives .fl1Entry ((tw 1 0 5 { lastQueued := 7 }).wr Reg.FLK.CTRL.FL1_EN 1) fun t => t.time == 507 &&
      t.rd Reg.FLK.STAT.LP_STATE == 1,
    gives (.capsFrameReceived ⟨1, 0, 2, 0, 9, 0, 77, 255⟩) (lk 4 fun s => s.wr Reg.FLK.TWIN_CFG.EN 0) fun t =>
      t.linkState == 5 && t.rd Reg.FLK.STAT.RTT == 77,
    (let on := lk 4 fun s => s.wr Reg.FLK.TWIN_CFG.EN 1
     on.capsAwaited && on.rd Reg.GLB.CAP.GRADE == 1 &&
      gives (.capsFrameReceived ⟨2, 0, 2, 0, 9, 0, 77, 255⟩) on (fun t => t.rd Reg.FLK.TWIN_STAT.SOLO_CAUSE == 2) &&
      gives (.capsFrameReceived ⟨1, 0, 1, 0, 9, 0, 77, 255⟩) on fun t => t.rd Reg.FLK.TWIN_STAT.SOLO_CAUSE == 3)].all id =
      true := by decide +kernel

def pair (strap : Nat) (x : TwinX := {}) (f : State → State := id) : State := f (tw strap 2 5 x)
def beat (y : Nat) : Heartbeat := ⟨1, 0, BitVec.ofNat 8 y, 3, 2⟩

theorem witness_Levels : [
    gives .heartbeatSend (pair 1 { ownSel := [(7, true)], hbCount := 255, hbSent := 9 }) fun t => t.time == 2009 &&
      t.twin.hbCount == 0 && Tab.get 0 t.twin.lease 7 == 2009 && t.out.length == 1,
    gives .heartbeatSend (tw 1 0 5) fun t => t.out == [],
    gives (.heartbeatReceived (beat 0)) (pair 1) fun t => t.twin.peerWarm == 3,
    gives (.heartbeatReceived (beat 128)) (pair 2 {} fun s => s.wr Reg.FLK.TWIN_CFG.AUTO 1) fun t => t.ownSel 7,
    (let hand := { ownSel := [(0, true)], sense := [(0, true)], handovers := [⟨0, .register, 0⟩] : TwinX }
     gives (.heartbeatReceived (beat 0)) (pair 1 hand) (fun t => !t.owns 0 && t.twin.handovers == []) &&
      gives (.heartbeatReceived (beat 0)) (pair 1 hand fun s => s.wr Reg.LN.TX_STAT.TX_ACTIVE 1 7) fun t =>
        Tab.get false t.twin.ready 0 && t.ownSel 0),
    gives .twinSilence (pair 2 {} fun s => s.wr Reg.FLK.TWIN_CFG.AUTO 0) fun t => t.twinState == 3 && !t.ownSel 0 && t.time == 6000,
    gives .twinSilence (pair 2 {} fun s => s.wr Reg.FLK.TWIN_CFG.AUTO 1) fun t => t.ownSel 0 && t.ownSel 7,
    gives (.leaseExpiry 0) (pair 1 { ownSel := [(0, true)], sense := [(0, true)] } fun s => s.setCore 3 { stopped := true })
      fun t => !t.ownSel 0 && !t.owns 0,
    gives (.leaseExpiry 0) (pair 1 { ownSel := [(0, true)] } fun s => s.setCore 3 { stopped := true }) fun t => t.owns 0,
    gives (.twinSenseChange 0 true) lit fun t => t.owns 0,
    gives (.twinSenseChange 0 true) (pair 1) fun t => !t.owns 0 && t.flag Reg.EVT.LATCH.RAISED (courseSrc 0 9),
    gives (.twinSenseChange 0 true) (pair 1 { ownSel := [(0, true)] }) fun t => t.owns 0,
    gives (.secondarySoloRaise 7) (tw 2 0 0 { capsFailed := true }) fun t => t.owns 7,
    gives (.secondarySoloRaise 7) (tw 1 0 0 { capsFailed := true }) fun t => !t.ownSel 7,
    gives .secondaryHoldTimeout ((tw 2 0 0).wr Reg.FLK.TWIN_CFG.EN 1) fun t => t.twin.holdOver && t.time == 1000000000,
    gives (.pairingTransferDone []) (tw 1 1 5) fun t => t.twinState == 2 && t.flag Reg.EVT.LATCH.RAISED 4,
    gives (.pairingTransferDone [⟨7, [], [], none, none, 0, true, false, false⟩]) (tw 2 1 5) fun t => t.padHeldC 7,
    gives (.txTimeReceived 0 9 0 0 true) (pair 2 {} fun s => s.wr Reg.LN.TX_STAT.TX_ACTIVE 1 0) fun t =>
      (t.txOf 0).frame == 9 && Tab.get false t.twin.aligned 0,
    (let s := (pair 1 { ownSel := [(0, true)], sense := [(0, true)], ready := [(0, true)] }).setPadHeldC 0 false
     let u := ((s.wr Reg.LN.RX_STAT.LANE_STATE 3 0).wr Reg.LN.FMT_CFG.MODE 2 0).setTx 0 { configured := true }
     u.idleCause 0 == 0 && gives (.txBlockBoundary 0 ⟨[], []⟩) u fun t => !t.ownSel 0 && !t.owns 0),
    gives (.txBlockBoundary 0 ⟨[], []⟩) (lit.setTx 0 { pend := some ([1], none) }) fun t => (t.txOf 0).pend.isNone &&
      (t.txOf 0).bank == [1],
    gives (.coursePllFailure 0) (pair 1 { ownSel := [(0, true)] }) fun t => !t.ownSel 0 && Tab.get false t.twin.yields 0].all
      id = true := by decide +kernel

/-! ## Program loads and well-formedness -/

/-- An unsigned image of 104 bytes with one instruction and its hash right, whatever the hash function is. -/
def progImage : List Byte :=
  ascii "TRLP" ++ [1, 0, 0, 0] ++ leBytes 4 4 ++ leBytes 4 4 ++ leBytes 4 0 ++ leBytes 4 0 ++ leBytes 4 0 ++ leBytes 4 0 ++
    Config.sha384 [1, 2, 3, 4, 5, 6, 7, 8] ++ List.replicate 16 0 ++ [1, 2, 3, 4, 5, 6, 7, 8]

theorem witness_ProgramLoad : [
    tk .programLoad 7 0 (at_ 16 104 + at_ 24 4) (lit.wr Reg.HOD.STAT.READY 1) (fun u f =>
      addrOk (op64 f.e 24) (op32 f.e 16) && u.progState 0 == 0 && u.hodOn && progHeaderOk (dataOf f 104) 104 &&
        u.lc == 1 && numAt (dataOf f 104) 24 4 == 0) ⟨progImage, none⟩].all id = true := by decide +kernel

theorem witness_ProgramHash : Config.sha384 (cut progImage 96 8) = cut progImage 32 48 := rfl

def noBoot : BootIn := ⟨0, List.replicate 76 0, List.replicate 75 0, none, none, 0, [], false, [], []⟩

theorem test_IllFormedCommandsAreRefused : ([
    .perstRelease noBoot, .regWrite 0 0x4000000 4 0, .regWrite 0 0 4 (2 ^ 32), .sqTailDoorbell 0 0 4096 4 0,
    .cqHeadDoorbell 0 0 0 9 0, .workUnitServe [peek0, peek0], .msixVectorUnmask 0 2048, .powerTransitionEnd true [⟨true, [], []⟩],
    .hodRead 0 (entry 0 0 0) ⟨[], none⟩ [⟨0x1800000, none⟩], .hodRead 0 (entry 0 0 0) ⟨[], none⟩ [⟨0, some 64⟩],
    .imageVerifyDone [⟨3, none⟩, ⟨3, some 1⟩], .foregroundCalDone 0 (List.replicate 68 (List.replicate 8 [])) [],
    .calStepDone 0 ⟨[], []⟩, .calStepDone 0 ⟨List.replicate 6 [(0, 0)], [[]]⟩, .shadowCompareDone 0 [[], []] [],
    .calGroupDone 0 [[]], .checkerLock (.line 0) 3 8] : List Instr).all
      (fun c => !c.wf) = true ∧ pendingWf [.coldReset, .msixVectorUnmask 0 2047, .regWrite 0 0x3FFFFFF 1 255] = true ∧
    decodeTableWord 16 0 = none := by decide +kernel

/-! ## The line: encoders against decoders, and constants worked out from the spec -/

def infoA : Nat := 0x123456789ABCDEF0FEDCBA987654321 * 2 ^ 356 + 0x987654321
def infoB : Nat := 2 ^ 479 + 0xA5A5A5 * 2 ^ 240 + 1

theorem test_codewordOfInfo : isCodeword (laceEncode (infoA % 2 ^ 240)) && isCodeword (laceEncode 1) &&
    isCodeword (laceEncode (2 ^ 239)) = true := by decide +kernel

theorem test_bobbinHoldsBothStreams :
    (let ws := (List.range 4).map (bobbinInfo infoA infoB)
     bobbinStream ws 0 == infoA && bobbinStream ws 1 == infoB) = true := by decide +kernel

/-- The APB's fixed fields and CRC, and the beginning of PRBS6 and PRBS13 worked out by hand. -/
theorem test_blocksOfTheLine :
    (let v := bitsNat (apbBits 513 0x47 5)
     am0Match v && apbCrcOk v && apbField v 64 16 == 513 && apbField v 80 8 == 0x47 && (apbBits 0 0 0).length == 256 &&
      (bmbBits 3).length == 256 && (bobbinBits infoA infoB).length == 1024 && picotBits.length == 64 &&
      bitsNat (picotBits.take 12) == 0b111111000001 && pilotBits.take 14 == List.replicate 13 true ++ [false]) = true := by
  decide +kernel

theorem test_mapsGiveTheBitsBack :
    (let l := natBits 35 0x2B7C3D19E
     (mapBits 0 l).1.flatMap grayBits == l.take 34 && (mapBits 2 l).1 == l.map bitVal &&
      pam6Demap ((mapBits 1 l).1.map fun x => ⟨x, 0⟩) == l && (List.range 32).all fun g =>
        pam6Group (pam6Pair g).1 (pam6Pair g).2 == some g) = true := by decide +kernel

/-- R89 at the corner (5, 5): the smaller margin moves inward. -/
theorem test_cornersMoveInward : cornerFix 5 5 2 3 = (4, 5) ∧ cornerFix 0 5 3 2 = (0, 4) ∧ cornerFix 1 5 0 0 = (1, 5) := by
  decide

/-- R53: levels 3, 0, 2 after y = 1 are sent as 2, 2, 0. -/
theorem test_precode : precode [3, 0, 2] 1 = ([2, 2, 0], 0) ∧ unprecode [2, 2, 0] 1 = [3, 0, 2] := by decide

/-- R135, R139: the outer levels are ±1 and give the ends of the DAC's range through a centre tap of 256. -/
theorem test_amplitudesAndCodes : normAmp 0 8 3 = (1, 1) ∧ normAmp 0 8 0 = (-1, 1) ∧ normAmp 0 0 2 = (64, 192) ∧
    dacCode (firOut [256] [(1, 1)]) = 127 ∧ dacCode (firOut [256] [(-1, 1)]) = 0 ∧ dacCode (0, 1) = 64 := by decide

/-- R90: half away from zero, and the clamp. -/
theorem test_softValues : softValue 1 64 = 1 ∧ softValue 1 (-64) = -1 ∧ softValue 1 63 = 0 ∧ softValue 0 128 = 1 ∧
    softValue 1 1000000 = 31 := by decide

/-- A noiseless PAM4 sequence through a target (1, 0, 0) is decided 64 symbols later. -/
theorem test_sequenceDetector :
    (let lv : List Int := [-3, -1, 1, 3]
     (mlseRun 0 true lv 0 0 ((3 :: 1 :: List.replicate 64 (-3)).map fun y => (y, false)) []).2) = [3, 2] := by decide +kernel

def sending : State :=
  ((lane0 3 1).wr Reg.LN.TX_STAT.TX_ACTIVE 1 0).setTx 0 
    { bank := [0, 0, 256, 0, 0, 0, 0, 0], configured := true, path := { fill := 1, srcA := 1, srcB := 1 } }

theorem witness_TransmitBlock : [
    gives (.txBlockBoundary 0 ⟨[], []⟩) sending (fun t => t.out.length == 1) ].all id = true := by decide +kernel

/-- R263: a HEARTBEAT and a TX_TIME, laid out by hand; R225: one symbol through the taps of reset, four symbols later. -/
theorem test_filkorBlocksAndHostTaps : heartbeatBlock 5 3 1 2 4 = 0x0402010305A1 ∧
    txTimeBlock 1 2 3 4 = 0x40000C00081A5 ∧
    hostFir [0, 0, 0, -8, 112, -8, 0] [5, 0, 0] [0, 0, 3, 0, 0, 0] = [-24, 336, -24] := by decide

/-- R219, R227: a host lane in DATA whose generator runs sends 64 symbols, and a near loop keeps them from the balls. -/
theorem test_hostBlock :
    (let s := (hl 3 {} fun s => (s.wr Reg.HL.PRBS_CTRL.GEN_EN 1 0).wr Reg.HL.PRBS_CTRL.LOOP 1 0).setHtx 0 { gen := 1 }
     match (s.hostBlock 0).out with | [.hostTx 0 true l] => l.length == 64 | _ => false) = true := by
  decide +kernel

end Sys2Proof.Tests
end

section
/-! What every operation and every command keeps: the queue of commands behind it, and the canonical form of the
register file, which changes only by `Tab.set` and by removing entries. -/

namespace Sys2Proof.Machine

/-- How the register file of a step comes from the one before: fields are written at their width, and entries are
removed; the first 8 bytes of BAR0, the identity and the fused capabilities (R1), are left alone. -/
inductive RegSteps : Tab Nat → Tab Nat → Prop
  | refl (a) : RegSteps a a
  | write {a b} (h : RegSteps a b) (f : Fld) (v i j : Nat) (hf : 8 ≤ f.addr) :
      RegSteps a (Tab.set f.rst b (f.key i j) (v % 2 ^ f.w))
  | remove {a b} (h : RegSteps a b) (p : Nat × Nat → Bool) (hp : ∀ q, q.1 < 64 → p q = true) :
      RegSteps a (b.filter p)

theorem RegSteps.sorted {a b : Tab Nat} (h : RegSteps a b) (ha : Tab.sorted a = true) : Tab.sorted b = true := by
  induction h with
  | refl => exact ha
  | write _ _ _ _ _ _ ih => exact Tab.set_sorted _ _ _ _ ih
  | remove _ p _ ih => exact Tab.filter_sorted _ p ih

/-- A field of a block other than the global one, and a field of any block that is not read-only, lies beyond the first
8 bytes of BAR0: those hold the identity and the fused capabilities (R1). -/
theorem Blk.fields_addr (b : Blk) : ∀ f ∈ b.fields, (f.acc ≠ .ro ∨ b ≠ .glb) → 8 ≤ f.addr := by
  cases b <;> decide +kernel

theorem slotsAt_addr {d : Nat} {p : Slot'} (hp : p ∈ slotsAt d) (ha : p.1.acc ≠ .ro) : 8 ≤ p.1.addr := by
  unfold slotsAt at hp
  split at hp
  · cases hp
  · next b copy _ =>
    obtain ⟨f, hf, hp⟩ := List.mem_flatMap.mp hp
    have he : p.1 = f := by
      unfold Fld.slots at hp
      have hm := List.mem_of_mem_filter hp
      split at hm
      · obtain ⟨_, _, rfl⟩ := List.mem_map.mp hm
        rfl
      · obtain ⟨_, _, rfl⟩ := List.mem_map.mp hm
        rfl
    exact he ▸ b.fields_addr f hf (.inl (he ▸ ha))

theorem setSlots_addr {s : State} {c : Nat} {p : Fld × Nat × Nat} (hp : p ∈ s.setSlots c) : 8 ≤ p.1.addr := by
  obtain ⟨b, hb, hp⟩ := List.mem_flatMap.mp hp
  obtain ⟨f, hf, hp⟩ := List.mem_flatMap.mp hp
  obtain ⟨i, -, hp⟩ := List.mem_flatMap.mp hp
  obtain ⟨j, -, rfl⟩ := List.mem_map.mp hp
  exact b.fields_addr f (List.mem_of_mem_filter hf) (.inr (by rintro rfl; simp at hb))

/-- From `s₀` to `s` the queue and the fused ratio are untouched, and the register file has only been written field by
field. -/
structure State.Kept (s₀ s : State) : Prop where
  pending : s.pending = s₀.pending
  bgFused : s.bgFused = s₀.bgFused
  regs : RegSteps s₀.regs s.regs

/-- A command answers a next state, reached with `State.Kept`. -/
def Answers (s₀ : State) (o : Host.Outcome State Fault Refusal) : Prop := ∃ t, o = .next t ∧ s₀.Kept t

/-- What an engine's instruction does to the state beside its engine. -/
structure BodyKept (b : Body) : Prop where
  kept : ∀ {s₀ s t : State} {x y : EngX} {a : Acct}, s₀.Kept s → b s x = .ok (t, y, a) → s₀.Kept t

namespace State.Kept
variable {s₀ s t : State}

theorem refl (s : State) : Kept s s := ⟨rfl, rfl, .refl _⟩

/-- An update of other parts of the state: one record update, whatever its fields. -/
theorem keep
    {time freeCtr out phase rings fns arb vecs vfEnable raises held doorHeld pwr cores engMap failed subst therm sec
     upd twin tests hod rx tx cal bst shots epoch host htx chk seeds retire bgHigh bgLow mortar bias scv dec
     cmis eng tapIr}
    (h : Kept s₀ s) :
    Kept s₀ ⟨time, s.pending, freeCtr, out, phase, s.regs, rings, fns, arb, vecs, vfEnable, raises, held, doorHeld, pwr,
      cores, engMap, failed, subst, therm, sec, upd, twin, tests, hod, rx, tx, cal, bst, shots, epoch, host, htx, chk,
      seeds, retire, s.bgFused, bgHigh, bgLow, mortar, bias, scv, dec, cmis, eng, tapIr⟩ :=
  ⟨h.pending, h.bgFused, h.regs⟩

/-- An update that removes entries of the register file, whatever the other fields. -/
theorem remove
    {time freeCtr out phase rings fns arb vecs vfEnable raises held doorHeld pwr cores engMap failed subst therm sec
     upd twin tests hod rx tx cal bst shots epoch host htx chk seeds retire bgHigh bgLow mortar bias scv dec
     cmis eng tapIr}
    {p : Nat × Nat → Bool} (h : Kept s₀ s) (hp : ∀ q, q.1 < 64 → p q = true) :
    Kept s₀ ⟨time, s.pending, freeCtr, out, phase, s.regs.filter p, rings, fns, arb, vecs, vfEnable, raises, held,
      doorHeld, pwr, cores, engMap, failed, subst, therm, sec, upd, twin, tests, hod, rx, tx, cal, bst, shots, epoch,
      host, htx, chk, seeds, retire, s.bgFused, bgHigh, bgLow, mortar, bias, scv, dec, cmis, eng, tapIr⟩ :=
  ⟨h.pending, h.bgFused, .remove h.regs p hp⟩

theorem ite {c : Prop} [Decidable c] (ht : Kept s₀ s) (he : Kept s₀ t) : Kept s₀ (if c then s else t) := by
  split
  · exact ht
  · exact he

theorem foldl {α : Type} {f : State → α → State} {l : List α} (hf : ∀ {t x}, Kept s₀ t → Kept s₀ (f t x))
    (h : Kept s₀ s) : Kept s₀ (l.foldl f s) := by
  induction l generalizing s with
  | nil => exact h
  | cons x xs ih => exact ih (hf h)

theorem foldlOn {α : Type} {f : State → α → State} {l : List α} {p : α → Prop} (hl : ∀ x ∈ l, p x)
    (hf : ∀ {t x}, p x → Kept s₀ t → Kept s₀ (f t x)) (h : Kept s₀ s) : Kept s₀ (l.foldl f s) := by
  induction l generalizing s with
  | nil => exact h
  | cons x xs ih => exact ih (fun y hy => hl y (.tail _ hy)) (hf (hl x (.head _)) h)

/-- A fold that carries an answer beside the state. -/
theorem foldlFst {α β : Type} {f : State × β → α → State × β} {l : List α} {p : State × β}
    (hf : ∀ {q x}, Kept s₀ q.1 → Kept s₀ (f q x).1) (h : Kept s₀ p.1) : Kept s₀ (l.foldl f p).1 := by
  induction l generalizing p with
  | nil => exact h
  | cons x xs ih => exact ih (hf h)

theorem fst {α : Type} {p : State × α} {a : α} (hp : p = (s, a)) (h : Kept s₀ p.1) : Kept s₀ s := by
  subst hp; exact h

theorem snd {α : Type} {p : α × State} {a : α} (hp : p = (a, s)) (h : Kept s₀ p.2) : Kept s₀ s := by
  subst hp; exact h

theorem wrOf {f v i j} (h : Kept s₀ s) (hf : 8 ≤ f.addr) : Kept s₀ (s.wr f v i j) :=
  ⟨h.pending, h.bgFused, .write h.regs f v i j hf⟩

/-- A field named by a constant of `Reg` beyond the first 8 bytes: unification finds its address to be `addr + 8`. -/
theorem wr {blk addr istep icnt jstep jcnt lo w acc rst} {v i j} (h : Kept s₀ s) :
    Kept s₀ (s.wr ⟨blk, addr + 8, istep, icnt, jstep, jcnt, lo, w, acc, rst⟩ v i j) := wrOf h (Nat.le_add_left 8 addr)

theorem clearRegsOf {lo hi} (h : Kept s₀ s) (hlo : 8 ≤ lo) : Kept s₀ (s.clearRegs lo hi) :=
  .remove h fun q hq => by simp; omega

theorem clearRegs {lo hi} (h : Kept s₀ s) : Kept s₀ (s.clearRegs (lo + 8) hi) := clearRegsOf h (Nat.le_add_left 8 lo)

end State.Kept

/-- Where an optional step answers, it is reached with `State.Kept`. -/
def State.KeptIn {α : Type} (s₀ : State) (o : Option (State × α)) : Prop := ∀ p, o = some p → s₀.Kept p.1

namespace State.KeptIn
variable {α : Type} {s₀ s : State} {a : α} {o p : Option (State × α)}

protected theorem none : KeptIn s₀ (.none : Option (State × α)) := fun _ h => nomatch h

protected theorem some (h : Kept s₀ s) : KeptIn s₀ (.some (s, a)) := fun _ hp => Option.some.inj hp ▸ h

theorem ite {c : Prop} [Decidable c] (ho : KeptIn s₀ o) (hp : KeptIn s₀ p) : KeptIn s₀ (if c then o else p) := by
  split
  · exact ho
  · exact hp

end State.KeptIn

/-! ## The two resets: entries are removed from what the core left -/

theorem State.coldReset_pending (s : State) : s.coldReset.pending = s.pending := by simp only [State.coldReset]

theorem State.coldReset_regs (s : State) : s.coldReset.regs =
    (s.coreDown false).dropSel.biasThermReset.nextLife.regs.filter fun q => keepsCold q.1 := by
  simp only [State.coldReset]

theorem State.warmReset_pending (s : State) (p : Phase) : (s.warmReset p).pending =
    (s.coreDown false).dropSel.biasThermReset.nextLife.pending := by simp only [State.warmReset]

theorem State.coldReset_bgFused (s : State) : s.coldReset.bgFused =
    (s.coreDown false).dropSel.biasThermReset.nextLife.bgFused := by simp only [State.coldReset]

theorem State.warmReset_bgFused (s : State) (p : Phase) : (s.warmReset p).bgFused =
    (s.coreDown false).dropSel.biasThermReset.nextLife.bgFused := by simp only [State.warmReset]

theorem keepsCold_of_lt {k : Nat} (h : k < 64) : keepsCold k = true := by
  simp only [keepsCold, Bool.or_eq_true, Bool.and_eq_true, decide_eq_true_eq]
  omega

theorem keepsWarm_of_keepsCold {k : Nat} (h : keepsCold k = true) : keepsWarm k = true := by
  simp only [keepsWarm, h, Bool.or_true, Bool.true_or]

theorem State.warmReset_regs (s : State) (p : Phase) : (s.warmReset p).regs =
    (s.coreDown false).dropSel.biasThermReset.nextLife.regs.filter fun q => keepsWarm q.1 := by
  simp only [State.warmReset]

namespace Answers
open State
variable {s₀ s : State}

theorem next (h : Kept s₀ s) : Answers s₀ (.next s) := ⟨s, rfl, h⟩

theorem ite {a b : Host.Outcome State Fault Refusal} {c : Prop} [Decidable c] (ha : Answers s₀ a) (hb : Answers s₀ b) :
    Answers s₀ (if c then a else b) := by
  split
  · exact ha
  · exact hb

end Answers

end Sys2Proof.Machine
end

section
/-! `State.Kept` through the operations, in the order of the model's text. -/

namespace Sys2Proof.Machine

namespace State.Kept
variable {s₀ s t : State}

/-! ## Machine/Ops -/

theorem wrBOf {f b i j} (h : Kept s₀ s) (hf : 8 ≤ f.addr) : Kept s₀ (s.wrB f b i j) := .wrOf h hf

theorem wrB {blk addr istep icnt jstep jcnt lo w acc rst} {b i j} (h : Kept s₀ s) :
    Kept s₀ (s.wrB ⟨blk, addr + 8, istep, icnt, jstep, jcnt, lo, w, acc, rst⟩ b i j) := .wr h

theorem countOf {f n i j} (h : Kept s₀ s) (hf : 8 ≤ f.addr) : Kept s₀ (s.count f n i j) := .wrOf h hf

theorem count {blk addr istep icnt jstep jcnt lo w acc rst} {n i j} (h : Kept s₀ s) :
    Kept s₀ (s.count ⟨blk, addr + 8, istep, icnt, jstep, jcnt, lo, w, acc, rst⟩ n i j) := .wr h

theorem countWrap {blk addr istep icnt jstep jcnt lo w acc rst} {n i j} (h : Kept s₀ s) :
    Kept s₀ (s.countWrap ⟨blk, addr + 8, istep, icnt, jstep, jcnt, lo, w, acc, rst⟩ n i j) := .wr h

theorem upTo {t} (h : Kept s₀ s) : Kept s₀ (s.upTo t) := .keep h

theorem freed (h : Kept s₀ s) : Kept s₀ s.freed := .keep h

theorem emit {o} (h : Kept s₀ s) : Kept s₀ (s.emit o) := .keep h

theorem filkorQueued (h : Kept s₀ s) : Kept s₀ s.filkorQueued := .ite (.wr (.keep h)) (.keep h)

theorem setRing {r x} (h : Kept s₀ s) : Kept s₀ (s.setRing r x) := .keep h

theorem setFn {f x} (h : Kept s₀ s) : Kept s₀ (s.setFn f x) := .keep h

theorem setShadow {f x} (h : Kept s₀ s) : Kept s₀ (s.setShadow f x) := .setFn h

theorem setChk {k x} (h : Kept s₀ s) : Kept s₀ (s.setChk k x) := .keep h

theorem setCore {k x} (h : Kept s₀ s) : Kept s₀ (s.setCore k x) := .keep h

theorem setEngMap {e x} (h : Kept s₀ s) : Kept s₀ (s.setEngMap e x) := .keep h

theorem setCoursePow {c p} (h : Kept s₀ s) : Kept s₀ (s.setCoursePow c p) := .keep h

theorem setQuadOn {q b} (h : Kept s₀ s) : Kept s₀ (s.setQuadOn q b) := .keep h

theorem setPadHeldC {c b} (h : Kept s₀ s) : Kept s₀ (s.setPadHeldC c b) := .keep h

theorem setPadHeldQ {q b} (h : Kept s₀ s) : Kept s₀ (s.setPadHeldQ q b) := .keep h

theorem setPadLatch {c x} (h : Kept s₀ s) : Kept s₀ (s.setPadLatch c x) := .keep h

/-! ## Machine/Flags -/

theorem raise {src detail} (h : Kept s₀ s) : Kept s₀ (s.raise src detail) :=
  .ite (.keep (.wr (.wr h))) (.keep (.wr (.wr h)))

theorem raiseRise {before after src detail} (h : Kept s₀ s) : Kept s₀ (s.raiseRise before after src detail) :=
  .ite (.raise h) h

theorem holdRaises (h : Kept s₀ s) : Kept s₀ s.holdRaises := .keep h

theorem dpAdd {i n} (h : Kept s₀ s) : Kept s₀ (s.dpAdd i n) :=
  .ite (.wr h) (.ite (.wr (.wr (.wr (.wr h)))) (.wr (.wr h)))

theorem dpCount {code inst n} (h : Kept s₀ s) : Kept s₀ (s.dpCount code inst n) :=
  .ite h (.foldl (fun ht => .ite (.dpAdd ht) ht) h)

theorem pmcAdd {e i n} (h : Kept s₀ s) : Kept s₀ (s.pmcAdd e i n) :=
  .ite (.wr h) (.ite (.wr (.wr (.wr (.wr h)))) (.wr (.wr h)))

theorem engCount {e code n} (h : Kept s₀ s) : Kept s₀ (s.engCount e code n) :=
  .ite h (.foldl (fun ht => .ite (.pmcAdd ht) ht) h)

theorem undelivered {n} (h : Kept s₀ s) : Kept s₀ (s.undelivered n) := .count h

/-! ## Machine/Rings -/

theorem setVec {f v x} (h : Kept s₀ s) : Kept s₀ (s.setVec f v x) := .keep h

theorem sendMsix {f v} (h : Kept s₀ s) : Kept s₀ (s.sendMsix f v) := .ite (.setVec h) (.emit h)

theorem sendOwed {r} (h : Kept s₀ s) : Kept s₀ (s.sendOwed r) := .foldl .sendMsix (.setRing h)

theorem signal {r v} (h : Kept s₀ s) : Kept s₀ (s.signal r v) :=
  .ite h (.ite (.wr h) (.ite (.sendOwed (.setRing h)) (.setRing h)))

theorem advanceCq {r} (h : Kept s₀ s) : Kept s₀ (s.advanceCq r) := .ite (.wr (.wr h)) (.wr h)

theorem writeEvent {r x} (h : Kept s₀ s) : Kept s₀ (s.writeEvent r x) :=
  .ite (.signal (.advanceCq (.setRing (.emit (.emit h))))) (.advanceCq (.setRing (.emit (.emit h))))

theorem toEventRing {r x} (h : Kept s₀ s) : Kept s₀ (s.toEventRing r x) :=
  .ite (.setRing h) (.ite (.writeEvent h) (.setRing h))

theorem deliver {x} (h : Kept s₀ s) : Kept s₀ (s.deliver x) := .ite h (.ite (.toEventRing h) (.undelivered h))

theorem drainPend {r n} (h : Kept s₀ s) : Kept s₀ (s.drainPend r n) := by
  induction n generalizing s with
  | zero => exact h
  | succ n ih =>
    unfold State.drainPend
    split
    · exact h
    · exact .ite (ih (.writeEvent (.keep h))) h

theorem judgeHeld {x} (h : Kept s₀ s) : Kept s₀ (s.judgeHeld x).1 := by
  unfold State.judgeHeld
  extract_lets
  split
  · exact h
  · split
    · exact .toEventRing h
    · split
      · exact .undelivered h
      · exact h

theorem judgeAll {xs} (h : Kept s₀ s) : Kept s₀ (s.judgeAll xs) := by
  induction xs generalizing s with
  | nil => exact h
  | cons x xs ih => exact .ite (.keep (ih (.judgeHeld h))) (ih (.judgeHeld h))

theorem judgeHeldAll (h : Kept s₀ s) : Kept s₀ s.judgeHeldAll := .ite (.judgeAll (.keep h)) h

theorem writeCompletion {r f res} (h : Kept s₀ s) : Kept s₀ (s.writeCompletion r f res) :=
  .signal (.advanceCq (.emit (.emit h)))

theorem flush {r fs} (h : Kept s₀ s) : Kept s₀ (s.flush r fs) := by
  induction fs generalizing s with
  | nil => exact .keep h
  | cons f fs ih =>
    unfold State.flush
    split
    · exact ih (.writeCompletion h)
    · exact .keep h

theorem hodRewritten {w n} (h : Kept s₀ s) : Kept s₀ (s.hodRewritten w n) := by
  induction n generalizing s w with
  | zero => exact h
  | succ n ih => exact ih (.keep h)

theorem logMirror {x} (h : Kept s₀ s) : Kept s₀ (s.logMirror x) := .hodRewritten (.keep h)

theorem finish {o res} (h : Kept s₀ s) : Kept s₀ (s.finish o res) := by
  unfold State.finish
  split
  · extract_lets
    split
    · exact h
    · extract_lets _ s1
      have h1 : Kept s₀ s1 := by
        unfold s1
        split
        · exact .logMirror h
        · exact h
      exact .flush h1
  · exact .emit (.filkorQueued (.ite (.logMirror h) h))
  · exact h
  · exact h

theorem finishSt {o st} (h : Kept s₀ s) : Kept s₀ (s.finishSt o st) := .finish h

theorem updTo {st ended} (h : Kept s₀ s) : Kept s₀ (s.updTo st ended) := .ite h (.raise (.wr h))

theorem emptySlot (h : Kept s₀ s) : Kept s₀ s.emptySlot := .wr (.wr (.keep h))

theorem freeLock (h : Kept s₀ s) : Kept s₀ s.freeLock := .wr (.wr (.keep h))

theorem dropImage (h : Kept s₀ s) : Kept s₀ s.dropImage := .updTo (.freeLock (.emptySlot h))

theorem endSession {r} (h : Kept s₀ s) : Kept s₀ (s.endSession r) := by
  unfold State.endSession
  extract_lets
  refine .ite ?_ ?_
  · split
    · exact .finishSt (.dropImage (.setRing h))
    · exact .dropImage (.setRing h)
  · exact .setRing h

theorem enable {r} (h : Kept s₀ s) : Kept s₀ (s.enable r) :=
  .ite (.judgeHeldAll (.setRing (.wr (.wr (.wr (.wr (.wr (.wr (.wr (.wr h)))))))))) (.wr (.wr h))

theorem dropRing {r} (h : Kept s₀ s) : Kept s₀ (s.dropRing r) := .undelivered (.endSession (.setRing h))

theorem disable {r} (h : Kept s₀ s) : Kept s₀ (s.disable r) := .wr (.dropRing (.wr h))

theorem ringError {r cause} (h : Kept s₀ s) : Kept s₀ (s.ringError r cause) :=
  .raise (.wr (.wr (.wr (.wr (.wr (.dropRing (.wr h)))))))

theorem killRing {r} (h : Kept s₀ s) : Kept s₀ (s.killRing r) := .wr (.wr (.setRing (.dropRing (.wr h))))

/-! ## Machine/Commands -/

theorem fetch {r op e d xfer} (h : Kept s₀ s) : Kept s₀ (s.fetch r op e d xfer) :=
  .setRing (.wr (.ite (.endSession h) h))

theorem setPhase {r fid p} (h : Kept s₀ s) : Kept s₀ (s.setPhase r fid p) := .setRing h

theorem setFlightDma {r fid d} (h : Kept s₀ s) : Kept s₀ (s.setFlightDma r fid d) := .setRing h

theorem takeUp (h : Kept s₀ s) {r op e d f} (hu : s.takeUp r op e d = some (t, f)) : Kept s₀ t := by
  unfold State.takeUp at hu
  split at hu
  · split at hu
    · cases hu; exact .keep h
    · cases hu
  · split at hu
    · extract_lets s1 at hu
      have h1 : Kept s₀ s1 := .fetch h
      clear_value s1
      split at hu
      · cases hu; exact h1
      · cases hu
    · cases hu

theorem sendMirror {r f} (h : Kept s₀ s) : Kept s₀ (s.sendMirror r f) :=
  .emit (.filkorQueued (.keep (.setRing (.setPhase h))))

theorem serve {run o r e d chk} (hrun : ∀ {t g f}, Kept s₀ t → Kept s₀ (run t g f)) (h : Kept s₀ s) :
    Kept s₀ (s.serve o r e d chk run) := by
  unfold State.serve
  split
  · exact h
  · next u f hu =>
    have hu : Kept s₀ u := h.takeUp hu
    extract_lets g dry
    split
    · exact hu
    · split
      · exact hu
      · exact .keep hu
      · exact .finishSt hu
      · split
        · exact .finish hu
        · exact .ite (.finishSt hu) (hrun (.keep hu))
      · split
        · exact .finish hu
        · exact .ite (.finishSt hu) (.sendMirror hu)

/-! ## Machine/Access -/

theorem unsupported {f a} (h : Kept s₀ s) : Kept s₀ (s.unsupported f a) := .emit h

theorem logOffDomain {a wr} (h : Kept s₀ s) : Kept s₀ (s.logOffDomain a wr) :=
  .ite (.count h) (.raise (.wr (.wrB (.wr (.count h)))))

theorem regAccess {f i j wr k} (hk : ∀ {t}, Kept s₀ t → Kept s₀ (k t)) (h : Kept s₀ s) :
    Kept s₀ (s.regAccess f i j wr k) := .ite (.keep h) (.ite (.logOffDomain (.keep h)) (hk (.keep h)))

/-! ## Machine/Hod -/

theorem hostWrite {d a data} (h : Kept s₀ s) : Kept s₀ (s.hostWrite d a data).1 := by
  unfold State.hostWrite
  split
  · exact .emit h
  · split
    · exact .ite h (.emit h)
    · exact .emit h

theorem setHodWord {w x} (h : Kept s₀ s) : Kept s₀ (s.setHodWord w x) := .wr (.keep h)

theorem hodUncorr {w src quiet} (h : Kept s₀ s) : Kept s₀ (s.hodUncorr w src quiet) :=
  .ite (.wr (.wr (.wr (.count h)))) (.raise (.wr (.wr (.wr (.count h)))))

theorem saveOverlay (h : Kept s₀ s) : Kept s₀ s.saveOverlay := .ite (.wr (.keep h)) (.wr (.keep h))

theorem repairExhausted {sub col} (h : Kept s₀ s) : Kept s₀ (s.repairExhausted sub col) := .raiseRise (.wr h)

theorem fieldRepair {sub col which} (h : Kept s₀ s) : Kept s₀ (s.fieldRepair sub col which) :=
  .ite h (.ite (.repairExhausted h) (.saveOverlay (.raise (.wr (.keep h)))))

theorem readUncorr {w src v quiet} (h : Kept s₀ s) : Kept s₀ (s.readUncorr w src v quiet) :=
  .setHodWord (.fieldRepair (.hodUncorr h))

theorem readCorr {w bit scrub} (h : Kept s₀ s) : Kept s₀ (s.readCorr w bit scrub) := by
  unfold State.readCorr
  extract_lets _ _ _ _ _ _ _ _ _ _ _ s3
  have h3 : Kept s₀ s3 := .ite (.fieldRepair (.keep (.count h))) (.keep (.count h))
  exact .ite (.fieldRepair h3) h3

theorem hodRead {w src ecc} (h : Kept s₀ s) : Kept s₀ (s.hodRead w src ecc).1 := by
  unfold State.hodRead
  split
  · exact h
  · extract_lets
    split
    · split
      · exact .hodUncorr (.freed h)
      · split
        · exact .readUncorr (.freed h)
        · exact .ite (.count (.freed h)) (.freed h)
    · split
      · exact .hodUncorr h
      · split
        · exact h
        · split
          · exact .readCorr h
          · exact .readUncorr (.freed h)

theorem hodReads {src ecc w n} (h : Kept s₀ s) : Kept s₀ (s.hodReads src ecc w n).1 := by
  induction n generalizing s w with
  | zero => exact h
  | succ n ih => exact ih (.hodRead h)

theorem hodReadsOf {ecc w vs} (h : Kept s₀ s) : Kept s₀ (s.hodReadsOf ecc w vs).1 := by
  induction vs generalizing s w with
  | nil => exact h
  | cons v vs ih => exact ih (.hodRead h)

theorem hodWriteWord {w at_ new ecc} (h : Kept s₀ s) : Kept s₀ (s.hodWriteWord w at_ new ecc) := by
  unfold State.hodWriteWord
  split
  · exact .setHodWord h
  · split
    · exact .setHodWord h
    · extract_lets bank put
      have hput : ∀ {t v bad}, Kept s₀ t → Kept s₀ (put t v bad) := .setHodWord
      split
      · split
        · exact hput (.hodUncorr (.keep h))
        · split
          · exact hput (.readUncorr (.keep h))
          · exact hput (.ite (.count (.keep h)) (.keep h))
      · split
        · exact hput (.hodUncorr h)
        · split
          · exact hput h
          · split
            · exact hput (.readCorr h)
            · exact hput (.readUncorr (.keep h))

theorem hodWrite {ecc fuel ofs bs} (h : Kept s₀ s) : Kept s₀ (s.hodWrite ecc fuel ofs bs) := by
  induction fuel generalizing s ofs bs with
  | zero => exact h
  | succ n ih =>
    cases bs with
    | nil => exact h
    | cons b bs => exact ih (.hodWriteWord h)

theorem hodStore {ofs bs ecc} (h : Kept s₀ s) : Kept s₀ (s.hodStore ofs bs ecc) := .hodWrite h

theorem fillWords {v w n} (h : Kept s₀ s) : Kept s₀ (s.fillWords v w n) := by
  induction n generalizing s w with
  | zero => exact h
  | succ n ih => exact ih (.setHodWord h)

theorem runHodFill {g f} (h : Kept s₀ s) : Kept s₀ (runHodFill s g f) := .finishSt (.fillWords h)

theorem runHodWrite {ecc g f} (h : Kept s₀ s) : Kept s₀ (runHodWrite ecc s g f) := by
  unfold Machine.runHodWrite
  extract_lets
  split
  · exact .ite (.finish (.hodStore h)) (.finishSt (.hodStore h))
  · exact .finishSt (.hodStore h)

theorem deliverHod {g d ofs n addr r0 ecc} (h : Kept s₀ s) : Kept s₀ (s.deliverHod g d ofs n addr r0 ecc) := by
  unfold State.deliverHod
  extract_lets _ _ uninit
  split
  split
  split
  · exact .finish (.fst ‹_› (.hostWrite (.fst ‹_› (.hodReads h))))
  · split
    · exact .finish (.fst ‹_› (.hostWrite (.fst ‹_› (.hodReads h))))
    · clear_value uninit
      split
      · exact .finish (.fst ‹_› (.hostWrite (.fst ‹_› (.hodReads h))))
      · exact .finish (.fst ‹_› (.hostWrite (.fst ‹_› (.hodReads h))))

theorem runHodRead {ecc g f} (h : Kept s₀ s) : Kept s₀ (runHodRead ecc s g f) := .deliverHod h

theorem storeRows {rs bs} (h : Kept s₀ s) : Kept s₀ (s.storeRows rs bs) := by
  induction rs generalizing s bs with
  | nil => exact h
  | cons r rs ih =>
    cases bs with
    | nil => exact h
    | cons b bs => exact ih (.hodStore h)

theorem endCapture {c st w} (h : Kept s₀ s) : Kept s₀ (s.endCapture c st w) :=
  .ite (.finish (.keep h)) (.finish (.storeRows (.keep (.keep h))))

theorem stopCapture {n} (h : Kept s₀ s) : Kept s₀ (s.stopCapture n) := by
  unfold State.stopCapture
  split
  · exact h
  · exact .endCapture (.keep h)

theorem runCaptureStart {g f} (h : Kept s₀ s) : Kept s₀ (runCaptureStart s g f) := .keep (.freed h)

theorem swatchRead {rows ecc w n} (h : Kept s₀ s) : Kept s₀ (s.swatchRead rows ecc w n).1 := by
  induction n generalizing s w with
  | zero => exact h
  | succ n ih =>
    unfold State.swatchRead
    split
    · exact h
    · exact ih (.hodRead h)

theorem runCaptureDrain {ecc g f} (h : Kept s₀ s) : Kept s₀ (runCaptureDrain ecc s g f) := by
  unfold Machine.runCaptureDrain
  split
  · exact .finishSt h
  · extract_lets
    split
    split
    split
    · exact .finish (.fst ‹_› (.hostWrite (.fst ‹_› (.swatchRead h))))
    · split
      · exact .finish (.fst ‹_› (.hostWrite (.fst ‹_› (.swatchRead h))))
      · exact .finish (.fst ‹_› (.hostWrite (.fst ‹_› (.swatchRead h))))

theorem runCaptureFree {g f} (h : Kept s₀ s) : Kept s₀ (runCaptureFree s g f) := .finishSt (.keep h)

/-! ## Machine/SliceOps -/

theorem setRx {n x} (h : Kept s₀ s) : Kept s₀ (s.setRx n x) := .keep h

theorem setTx {n x} (h : Kept s₀ s) : Kept s₀ (s.setTx n x) := .keep h

theorem setCal {n x} (h : Kept s₀ s) : Kept s₀ (s.setCal n x) := .keep h

theorem setBst {n x} (h : Kept s₀ s) : Kept s₀ (s.setBst n x) := .keep h

theorem takeLaneShot {n} (h : Kept s₀ s) : Kept s₀ (s.takeLaneShot n) := .keep h

theorem takeCourseShot {c} (h : Kept s₀ s) : Kept s₀ (s.takeCourseShot c) := .keep h

theorem setEpoch {c x} (h : Kept s₀ s) : Kept s₀ (s.setEpoch c x) := .keep h

theorem setHost {k x} (h : Kept s₀ s) : Kept s₀ (s.setHost k x) := .keep h

theorem setHtx {k x} (h : Kept s₀ s) : Kept s₀ (s.setHtx k x) := .keep h

theorem setMortar {c x} (h : Kept s₀ s) : Kept s₀ (s.setMortar c x) := .keep h

theorem flushBufs {n} (h : Kept s₀ s) : Kept s₀ (s.flushBufs n) := .setMortar h

theorem setSlice {n i v} (h : Kept s₀ s) : Kept s₀ (s.setSlice n i v) := .setCal h

theorem setSuspect {n v} (h : Kept s₀ s) : Kept s₀ (s.setSuspect n v) := .raiseRise (.wr h)

theorem refreshS {n} (h : Kept s₀ s) : Kept s₀ (s.refreshS n) := .setSuspect h

theorem writeRetireMap {n} (h : Kept s₀ s) : Kept s₀ (s.writeRetireMap n) := .ite (.setCal (.keep h)) (.setCal h)

theorem noSpare {n} (h : Kept s₀ s) : Kept s₀ (s.noSpare n) := .raiseRise (.wr h)

theorem unqueue {n i} (h : Kept s₀ s) : Kept s₀ (s.unqueue n i) := .setCal h

theorem retireSlice {n i rotate} (h : Kept s₀ s) : Kept s₀ (s.retireSlice n i rotate) := by
  unfold State.retireSlice
  refine .ite ?_ ?_
  · exact .ite (.noSpare h) (.noSpare (.ite (.setCal (.setSlice (.unqueue h))) (.setSlice (.unqueue h))))
  · exact .raise (.writeRetireMap (.setSlice (.unqueue h)))

theorem rangeTurn {n i} (h : Kept s₀ s) : Kept s₀ (s.rangeTurn n i) := .refreshS (.retireSlice (.setSlice h))

theorem suspectTurn {n i} (h : Kept s₀ s) : Kept s₀ (s.suspectTurn n i) :=
  .ite (.refreshS (.retireSlice (.setSlice h))) (.refreshS (.setCal (.setSlice h)))

theorem joinP {n} (h : Kept s₀ s) : Kept s₀ (s.joinP n) := .ite (.setCal h) h

theorem borrowSpare {n} (h : Kept s₀ s) : Kept s₀ (s.borrowSpare n) := by
  unfold State.borrowSpare
  split
  · exact .ite (.setSlice (.joinP h)) h
  · exact h

theorem startGroups {c} (h : Kept s₀ s) : Kept s₀ (s.startGroups c) := by
  unfold State.startGroups
  refine .foldl (fun ht1 => ?_) h
  extract_lets
  refine .ite ?_ ?_
  · split
    · exact .setCal ht1
    · exact .borrowSpare ht1
  · exact ht1

theorem queueGroups {n mask} (h : Kept s₀ s) : Kept s₀ (s.queueGroups n mask) := .wr (.ite (.wr h) h)

theorem calTrigger {n} (h : Kept s₀ s) : Kept s₀ (s.calTrigger n) := by
  unfold State.calTrigger
  extract_lets _ _ _ _ _ _ s2
  have h2 : Kept s₀ s2 := .ite (.wr (.ite (.queueGroups h) h)) (.ite (.queueGroups h) h)
  split
  · exact .ite (.setSlice (.joinP h2)) h2
  · exact h2

theorem calTriggers {c} (h : Kept s₀ s) : Kept s₀ (s.calTriggers c) :=
  .startGroups (.foldl (fun ht => .ite (.calTrigger ht) ht) h)

theorem cutGroup {n} (h : Kept s₀ s) : Kept s₀ (s.cutGroup n) := by
  unfold State.cutGroup
  split
  · exact h
  · exact .wr (.setCal h)

theorem abandonGroup {n} (h : Kept s₀ s) : Kept s₀ (s.abandonGroup n) := .ite h (.cutGroup h)

theorem abandonCal {n} (h : Kept s₀ s) : Kept s₀ (s.abandonCal n) := by
  unfold State.abandonCal
  split
  · exact .setCal (.setSlice h)
  · exact h

theorem abandonShadow {n} (h : Kept s₀ s) : Kept s₀ (s.abandonShadow n) := by
  unfold State.abandonShadow
  split
  · exact .setCal (.setSlice h)
  · exact h

theorem abandonSteps {n} (h : Kept s₀ s) : Kept s₀ (s.abandonSteps n) :=
  .ite (.ite h (.abandonCal h)) (.abandonShadow (.ite h (.abandonCal h)))

theorem startCal {n} (h : Kept s₀ s) : Kept s₀ (s.startCal n) := by
  unfold State.startCal
  refine .ite ?_ ?_
  · split
    · exact .joinP (.setSlice (.setCal h))
    · exact h
  · exact h

theorem sliceSwap {n i} (h : Kept s₀ s) : Kept s₀ (s.sliceSwap n i) := by
  unfold State.sliceSwap
  extract_lets _ s1
  have h1 : Kept s₀ s1 := by
    unfold s1
    split
    · exact .setCal (.setSlice h)
    · exact h
  exact .refreshS (.countWrap (.setCal (.setSlice h1)))

theorem swapIfDue {n} (h : Kept s₀ s) : Kept s₀ (s.swapIfDue n) := by
  unfold State.swapIfDue
  refine .ite ?_ ?_
  · split
    · exact .sliceSwap h
    · exact .setCal h
  · exact h

theorem slicesSettle {n} (h : Kept s₀ s) : Kept s₀ (s.slicesSettle n) :=
  .ite (.startCal (.abandonSteps (.swapIfDue h))) h

theorem calSettle {n} (h : Kept s₀ s) : Kept s₀ (s.calSettle n) := .slicesSettle (.abandonGroup h)

theorem rotationCut {n} (h : Kept s₀ s) : Kept s₀ (s.rotationCut n) := by
  unfold State.rotationCut
  refine .ite ?_ ?_
  · extract_lets s1
    have h1 : Kept s₀ s1 := .abandonCal (.swapIfDue (.cutGroup h))
    exact .startCal (.ite h1 (.abandonShadow h1))
  · exact h

theorem replaceActive {n i} (h : Kept s₀ s) : Kept s₀ (s.replaceActive n i) := by
  unfold State.replaceActive
  split
  · exact .setSlice (.setSlice (.unqueue h))
  · exact h

theorem testRetire {n i} (h : Kept s₀ s) : Kept s₀ (s.testRetire n i) := by
  unfold State.testRetire
  split
  · exact h
  · refine .ite ?_ ?_
    · exact .retireSlice h
    · exact .ite (.noSpare (.replaceActive h)) (.refreshS (.retireSlice (.replaceActive h)))
  · exact .refreshS (.retireSlice (.abandonShadow h))
  · exact .refreshS (.retireSlice h)

/-! ## Machine/LaneOps -/

theorem txCheck {n} (h : Kept s₀ s) : Kept s₀ (s.txCheck n) := .ite h (.wr h)

theorem hostUnaligned {k} (h : Kept s₀ s) : Kept s₀ (s.hostUnaligned k) := by
  unfold State.hostUnaligned
  extract_lets f
  have hf : 8 ≤ f.addr := by
    unfold f
    split
    · decide
    · decide
  exact .ite (.wr (.wr (.wrOf h hf))) h

theorem refreshSig {k} (h : Kept s₀ s) : Kept s₀ (s.refreshSig k) :=
  .ite h (.raiseRise (.wr (.wrB (.ite h (.hostUnaligned h)))))

theorem startTraining {k} (h : Kept s₀ s) : Kept s₀ (s.startTraining k) :=
  .refreshSig (.hostUnaligned (.wr (.wr (.wr (.wr (.setHost h))))))

theorem enterData {k trained} (h : Kept s₀ s) : Kept s₀ (s.enterData k trained) :=
  .refreshSig (.ite (.setHtx (.wr h)) (.wr (.wr (.setHtx (.wr h)))))

theorem clearHostTest {k} (h : Kept s₀ s) : Kept s₀ (s.clearHostTest k) :=
  .ite h (.setChk (.wr (.wr (.wr (.wr h)))))

theorem refreshHost {k} (h : Kept s₀ s) : Kept s₀ (s.refreshHost k) := by
  unfold State.refreshHost
  extract_lets _ _ _ _ s3 _ s1
  have h3 : Kept s₀ s3 := .ite (.wr (.wr (.setHost h))) (.wr (.setHost h))
  have h1 : Kept s₀ s1 := by
    refine .ite ?_ ?_
    · exact .ite (.wr h) (.ite (.startTraining h) (.ite h (.enterData h)))
    · exact .refreshSig (.ite (.wr (.hostUnaligned (.wr h3))) (.hostUnaligned (.wr h3)))
  exact .clearHostTest h1

theorem refreshBond {n} (h : Kept s₀ s) : Kept s₀ (s.refreshBond n) := .refreshHost (.refreshHost h)

theorem leaveActive {n} (h : Kept s₀ s) : Kept s₀ (s.leaveActive n) := .setRx (.wr (.wr (.wr (.wr (.keep h)))))

theorem setTaps {n taps} (h : Kept s₀ s) : Kept s₀ (s.setTaps n taps) := .setRx h

theorem setTarget {n a1 a2} (h : Kept s₀ s) : Kept s₀ (s.setTarget n a1 a2) := .wr (.wr h)

theorem endNear {n} (h : Kept s₀ s) : Kept s₀ (s.endNear n) := by
  unfold State.endNear
  extract_lets
  split
  · exact h
  · exact .setTarget (.wr (.setTaps (.setRx h)))

theorem setLoop {n v} (h : Kept s₀ s) : Kept s₀ (s.setLoop n v) := .ite (.wr h) (.wr (.setTx (.wr h)))

theorem leaveMaint {n} (h : Kept s₀ s) : Kept s₀ (s.leaveMaint n) :=
  .endNear (.setChk (.wr (.setLoop (.wr (.wr h)))))

theorem abandonForeground {n st} (h : Kept s₀ s) : Kept s₀ (s.abandonForeground n st) := by
  unfold State.abandonForeground
  extract_lets
  split
  · exact h
  · exact .txCheck (.finishSt (.setTx (.setCal h)))

theorem dropLocks {n} (h : Kept s₀ s) : Kept s₀ (s.dropLocks n) := .setRx (.wr (.wr (.wr (.wr h))))

theorem endBursts {n} (h : Kept s₀ s) : Kept s₀ (s.endBursts n) := .wr (.setBst h)

theorem setLane {n st} (h : Kept s₀ s) : Kept s₀ (s.setLane n st) := by
  unfold State.setLane
  extract_lets _ _ s2 s3 s4 _ _ s6 _ s8
  have h2 : Kept s₀ s2 := .ite (.leaveActive (.ite h (.stopCapture h))) (.ite h (.stopCapture h))
  have h3 : Kept s₀ s3 := .ite (.leaveMaint (.abandonForeground h2)) h2
  have h4 : Kept s₀ s4 := .ite (.wr (.endBursts h3)) h3
  have h6 : Kept s₀ s6 := .ite (.setRx (.wr h4)) (.wr (.setRx (.wr h4)))
  have h8 : Kept s₀ s8 := .ite (.wr (.ite (.dropLocks h6) h6)) (.ite (.dropLocks h6) h6)
  exact .calSettle (.txCheck (.refreshBond h8))

theorem setSoft {n v} (h : Kept s₀ s) : Kept s₀ (s.setSoft n v) := .ite (.wr h) h

theorem loadDefaults {n} (h : Kept s₀ s) : Kept s₀ (s.loadDefaults n) :=
  .setTaps (.setRx (.setSoft (.setTarget (.wr (.wr h)))))

theorem loadSeed {n x} (h : Kept s₀ s) : Kept s₀ (s.loadSeed n x) :=
  .setTaps (.setRx (.wr (.setSoft (.setTarget (.wr (.wr h))))))

theorem setSweep {n b} (h : Kept s₀ s) : Kept s₀ (s.setSweep n b) := .setRx h

theorem enterAcquire {n step} (h : Kept s₀ s) : Kept s₀ (s.enterAcquire n step) := .setRx (.wr (.wr (.setLane h)))

theorem startAcquire {n} (h : Kept s₀ s) : Kept s₀ (s.startAcquire n) := by
  unfold State.startAcquire
  extract_lets
  split
  · exact .enterAcquire (.wr (.loadSeed (.setRx (.dropLocks h))))
  · exact .setSweep (.enterAcquire (.wr (.loadDefaults (.setRx (.dropLocks h)))))

theorem frameLockLost {n} (h : Kept s₀ s) : Kept s₀ (s.frameLockLost n) :=
  .ite (.setRx (.enterAcquire (.ite (.wr (.wr (.wr h))) (.wr (.wr h))))) (.ite (.wr (.wr (.wr h))) (.wr (.wr h)))

theorem enterActive {n} (h : Kept s₀ s) : Kept s₀ (s.enterActive n) := by
  unfold State.enterActive
  exact .raise (.setRx (.setLane h))

theorem clearConfig {n} (h : Kept s₀ s) : Kept s₀ (s.clearConfig n) := .setTx (.wr (.wr (.wr (.wr (.wr h)))))

/-! ## Machine/LineTx -/

theorem pathArrive {n a b} (h : Kept s₀ s) : Kept s₀ (s.pathArrive n a b) := .setTx h

theorem seedPath {n} (h : Kept s₀ s) : Kept s₀ (s.seedPath n) := .ite h (.freed (.freed (.freed (.setTx h))))

theorem formIsyon {n} (h : Kept s₀ s) : Kept s₀ (s.formIsyon n) := .ite (.setTx h) (.setTx h)

theorem formBurst {n len pre} (h : Kept s₀ s) : Kept s₀ (s.formBurst n len pre) :=
  .ite (.setTx h) (.ite (.setTx h) (.ite (.setTx h) (.ite (.setTx h) (.setTx h))))

theorem formUnit {n} (h : Kept s₀ s) : Kept s₀ (s.formUnit n) := by
  unfold State.formUnit
  extract_lets
  refine .ite ?_ ?_
  · exact .formIsyon h
  · refine .ite ?_ ?_
    · split
      · exact .formBurst h
      · exact h
    · exact .setTx h

theorem formBlock {n} (h : Kept s₀ s) : Kept s₀ (s.formBlock n) := .foldl (fun ht => .ite (.formUnit ht) ht) h

theorem sendBlock {n} (h : Kept s₀ s) : Kept s₀ (s.sendBlock n) :=
  .ite h (.ite (.emit (.setTx (.formBlock (.seedPath h)))) (.setTx (.formBlock (.seedPath h))))

theorem pathTo {n fc pos} (h : Kept s₀ s) : Kept s₀ (s.pathTo n fc pos) :=
  .ite (.setTx h) (.setTx (.formUnit (.seedPath (.freed (.setTx h)))))

theorem farPush {n bits} (h : Kept s₀ s) : Kept s₀ (s.farPush n bits) := .ite h (.setTx h)

theorem genStart {n pat} (h : Kept s₀ s) : Kept s₀ (s.genStart n pat) := .freed (.setTx h)

/-! ## Machine/Format -/

theorem apbFields {n bits} (h : Kept s₀ s) : Kept s₀ (s.apbFields n bits) :=
  .setRx (.wr (.wr (.wr (.wr (.wr (.wr h))))))

theorem declareAligned {n} (h : Kept s₀ s) : Kept s₀ (s.declareAligned n) := .setRx (.wr (.wr h))

theorem alignmentLost {n} (h : Kept s₀ s) : Kept s₀ (s.alignmentLost n) := .frameLockLost (.setRx (.count (.wr h)))

theorem apbSeen {n bits expected} (h : Kept s₀ s) : Kept s₀ (s.apbSeen n bits expected) := by
  unfold State.apbSeen
  extract_lets _ _ _ _ _ s2
  have h2 : Kept s₀ s2 := .ite (.apbFields (.setRx h)) (.setRx h)
  refine .ite ?_ ?_
  · exact .ite h (.ite (.ite (.apbFields (.setRx h)) (.count (.setRx h))) (.ite (.alignmentLost h) (.setRx h)))
  · exact .ite (.ite (.declareAligned h2) h2) (.setRx h)

theorem rxFill {n k} (h : Kept s₀ s) : Kept s₀ (s.rxFill n k).2 := .freed (.setRx h)

theorem toHost {n stream w v} (h : Kept s₀ s) : Kept s₀ (s.toHost n stream w v) := .emit (.setHtx h)

theorem hostSend {n stream w v} (h : Kept s₀ s) : Kept s₀ (s.hostSend n stream w v) := .ite h (.toHost h)

theorem deliverInfo {n info} (h : Kept s₀ s) : Kept s₀ (s.deliverInfo n info) := by
  unfold State.deliverInfo
  refine .ite ?_ ?_
  · exact .ite (.setRx h) (.ite (.setRx h) (.hostSend (.hostSend (.setRx h))))
  · exact .ite (.setRx h) (.ite (.toHost h) (.toHost (.rxFill h)))

theorem deliverBlock {n w v} (h : Kept s₀ s) : Kept s₀ (s.deliverBlock n w v) := .ite (.setRx h) (.hostSend h)

theorem countCodeword {n corr} (h : Kept s₀ s) : Kept s₀ (s.countCodeword n corr) := by
  unfold State.countCodeword
  extract_lets
  split
  · exact .count (.dpCount (.count h))
  · exact .count (.dpCount (.count h))

theorem mlseDecide {n r} (h : Kept s₀ s) : Kept s₀ (s.mlseDecide n r).2 := .setRx h

theorem burstCodeword {n corr} (h : Kept s₀ s) : Kept s₀ (s.burstCodeword n corr) := .ite h (.setBst h)

theorem decideM100 {n r} (h : Kept s₀ s) : Kept s₀ (s.decideM100 n r) := .deliverBlock (.farPush (.mlseDecide h))

theorem decodeM200 {n v hard std} (h : Kept s₀ s) : Kept s₀ (s.decodeM200 n v hard std) :=
  .ite (.deliverBlock (.farPush h)) (.deliverBlock (.countCodeword (.farPush h)))

theorem deskew {n skew} (h : Kept s₀ s) : Kept s₀ (s.deskew n skew) := .setHost (.setHost (.setTx h))

theorem ocmAdd {n c} (h : Kept s₀ s) : Kept s₀ (s.ocmAdd n c) :=
  .count (.count (.count (.count (.countWrap (.countWrap (.countWrap h))))))

theorem ocmZero {n} (h : Kept s₀ s) : Kept s₀ (s.ocmZero n) := .wr (.wr (.wr (.wr (.wr (.wr (.wr h))))))

theorem ocmFreeze {n on} (h : Kept s₀ s) : Kept s₀ (s.ocmFreeze n on) := .ite (.wrB h) (.setRx (.ocmAdd (.wrB h)))

/-! ## Machine/Receive -/

theorem stopAcqClock {n} (h : Kept s₀ s) : Kept s₀ (s.stopAcqClock n) := .ite h (.setRx h)

theorem losOn {n} (h : Kept s₀ s) : Kept s₀ (s.losOn n) := by
  unfold State.losOn
  extract_lets _ _ s2
  have h2 : Kept s₀ s2 := .raise (.setRx (.wr h))
  refine .ite ?_ ?_
  · exact .enterAcquire h2
  · exact .ite (.slicesSettle (.stopAcqClock (.ite (.setSweep (.wr h2)) h2))) (.slicesSettle h2)

theorem losOff {n} (h : Kept s₀ s) : Kept s₀ (s.losOff n) :=
  .ite (.slicesSettle (.ite (.wr (.setRx (.wr h))) (.setRx (.wr h)))) (.slicesSettle (.wr h))

theorem burstAgc {n rms} (h : Kept s₀ s) : Kept s₀ (s.burstAgc n rms) := .setBst (.wr h)

theorem cdrRun {n det syms} (h : Kept s₀ s) : Kept s₀ (s.cdrRun n det syms) := .ite h (.setRx (.wr h))

theorem cdrLost {n} (h : Kept s₀ s) : Kept s₀ (s.cdrLost n) :=
  .slicesSettle (.ite (.enterAcquire (.ite (.wr (.wr (.wr h))) (.wr h))) (.ite (.wr (.wr (.wr h))) (.wr h)))

theorem ctleForce {n} (h : Kept s₀ s) : Kept s₀ (s.ctleForce n) := .ite h (.wr h)

theorem acqNext {n k} (h : Kept s₀ s) : Kept s₀ (s.acqNext n k) := .wr h

theorem acqStep {n xs lev p95} (h : Kept s₀ s) : Kept s₀ (s.acqStep n xs lev p95) := by
  unfold State.acqStep
  extract_lets
  split
  · exact .acqNext h
  · exact .ite (.acqNext h) h
  · exact .ite (.acqNext (.ctleForce h)) (.ite h (.acqNext (.setRx (.wr h))))
  · exact .ite (.acqNext (.setRx h)) h
  · exact .ite (.acqNext h) h
  · exact .acqNext (.ite (.ite h (.setTarget h)) (.setRx (.ite h (.setTarget h))))
  · exact .ite (.acqNext h) (.ite (.acqNext (.wr h)) h)
  · exact .ite (.acqNext h) (.enterActive (.ite h (.setSoft h)))
  · exact h

theorem surveyDegrade {n cw c u} (h : Kept s₀ s) : Kept s₀ (s.surveyDegrade n cw c u) :=
  .ite h (.ite (.ite (.wr (.setRx h)) (.setRx h)) (.ite (.raise (.wr (.setRx h))) (.setRx h)))

theorem surveyGap {n gap} (h : Kept s₀ s) : Kept s₀ (s.surveyGap n gap) :=
  .ite (.ite (.wr (.setRx h)) (.setRx h)) (.ite (.raise (.wr (.setRx h))) (.setRx h))

theorem surveyConst {n snr other} (h : Kept s₀ s) : Kept s₀ (s.surveyConst n snr other) :=
  .ite h (.ite (.setRx (.wr h)) (.ite (.setRx (.wr h)) (.setRx h)))

theorem surveySoft {n p95} (h : Kept s₀ s) : Kept s₀ (s.surveySoft n p95) := .ite h (.wr h)

theorem surveyCtle {n m} (h : Kept s₀ s) : Kept s₀ (s.surveyCtle n m) := by
  unfold State.surveyCtle
  refine .ite ?_ ?_
  · exact .setRx (.ctleForce h)
  · exact .ite (.setRx (.ctleForce h)) (.ite (.ctleForce h) (.setTaps (.setRx (.wr (.ctleForce h)))))

theorem surveyTarget {n snr m} (h : Kept s₀ s) : Kept s₀ (s.surveyTarget n snr m) := by
  unfold State.surveyTarget
  extract_lets _ _ _ near
  refine .ite ?_ ?_
  · exact .setRx h
  · clear_value near
    split
    · exact .setRx h
    · exact .setTaps (.setRx (.wr (.wr h)))

theorem writeSeed {n} (h : Kept s₀ s) : Kept s₀ (s.writeSeed n) := .keep h

theorem surveySeed {n} (h : Kept s₀ s) : Kept s₀ (s.surveySeed n) := .ite (.writeSeed (.setRx h)) h

theorem surveyShown {n snr mfb m} (h : Kept s₀ s) : Kept s₀ (s.surveyShown n snr mfb m) :=
  .ite (.wr (.wr (.wr (.wr (.ite h (.wr (.wr (.wr h)))))))) (.wr (.wr (.ite h (.wr (.wr (.wr h))))))

theorem surveyFigures {n snr mfb m} (h : Kept s₀ s) : Kept s₀ (s.surveyFigures n snr mfb m) := by
  unfold State.surveyFigures
  extract_lets _ _ _ _ _ _ s4
  have h4 : Kept s₀ s4 := .ite (.surveyConst (.wr (.setRx (.keep h)))) (.wr (.setRx (.keep h)))
  exact .ite (.surveyGap (.wr h4)) h4

theorem surveyCdr {n m} (h : Kept s₀ s) : Kept s₀ (s.surveyCdr n m) :=
  .ite h (.ite (.cdrLost (.cdrRun h)) (.cdrRun h))

theorem survey {n m} (h : Kept s₀ s) : Kept s₀ (s.survey n m) := by
  unfold State.survey
  extract_lets s _ _ _ _ _ _ _ sf s1 _ _ _ s3
  have hf : Kept s₀ sf := .ite (.surveyCdr h) (.surveyShown (.surveyCdr h))
  have h1 : Kept s₀ s1 := .ite (.surveyFigures hf) hf
  have h3 : Kept s₀ s3 := .setRx (.hodRewritten (.surveyDegrade h1))
  exact .takeLaneShot (.ite (.surveySeed (.surveyTarget (.surveyCtle (.surveySoft h3)))) h3)

/-! ## Machine/Slices -/

theorem groupEnd {n g ms} (h : Kept s₀ s) : Kept s₀ (s.groupEnd n g ms) := .setSuspect (.setCal (.wr h))

theorem shadowFailed {n} (h : Kept s₀ s) : Kept s₀ (s.shadowFailed n) := by
  unfold State.shadowFailed
  extract_lets
  refine .ite ?_ ?_
  · split
    · exact .setSlice (.setCal h)
    · exact .setCal h
  · exact .setCal h

theorem watchPos {n m p} (h : Kept s₀ s) : Kept s₀ (s.watchPos n m p) := by
  unfold State.watchPos
  split
  · exact h
  · extract_lets
    refine .ite ?_ ?_
    · split
      · exact .ite (.setCal (.setSlice h)) (.setCal (.setSlice (.setSlice h)))
      · exact .setCal (.setSlice h)
    · exact .setSlice h

theorem watch {n m} (h : Kept s₀ s) : Kept s₀ (s.watch n m) := .ite (.foldl .watchPos h) h

theorem calSlice {n i ms} (h : Kept s₀ s) : Kept s₀ (s.calSlice n i ms) := by
  unfold State.calSlice
  extract_lets
  refine .ite ?_ ?_
  · exact h
  · split
    · exact .setSlice h
    · exact .ite (.retireSlice (.setSlice h)) (.setSlice h)
    · exact .retireSlice (.setSlice h)

theorem assignPositions {n} (h : Kept s₀ s) : Kept s₀ (s.assignPositions n) :=
  .ite (.noSpare (.setCal (.foldl .setSlice h))) (.wr (.setCal (.foldl .setSlice h)))

theorem fullCal {n slices groups} (h : Kept s₀ s) : Kept s₀ (s.fullCal n slices groups) :=
  .setSuspect (.wr (.wr (.setCal (.assignPositions (.foldl .calSlice h)))))

theorem firstCal {n q} (h : Kept s₀ s) : Kept s₀ (s.firstCal n q) := by
  unfold State.firstCal
  extract_lets _ _ s1 s2
  have h1 : Kept s₀ s1 := .foldl .setSlice (.setCal (.ite h (.keep h)))
  have h2 : Kept s₀ s2 := .foldl (fun ht => .ite ht (.retireSlice ht)) h1
  exact .slicesSettle (.wr (.setCal (.fullCal h2)))

theorem runCalibrate {g f} (h : Kept s₀ s) : Kept s₀ (runCalibrate s g f) :=
  .ite (.slicesSettle (.txCheck (.setTx (.setCal h)))) (.finish (.startGroups (.queueGroups h)))

theorem bandgapFreeze (h : Kept s₀ s) : Kept s₀ s.bandgapFreeze :=
  .foldl (fun ht => .calSettle (.abandonForeground ht)) (.raise (.wr h))

theorem bandgapRelease (h : Kept s₀ s) : Kept s₀ s.bandgapRelease :=
  .ite (.foldl .calSettle (.foldl .calTriggers (.wr h))) h

/-! ## Machine/Transmit -/

theorem firReject {n cause} (h : Kept s₀ s) : Kept s₀ (s.firReject n cause) := .wr (.wr h)

theorem firCommit {n} (h : Kept s₀ s) : Kept s₀ (s.firCommit n) := .ite (.setTx h) (.firReject h)

theorem stageWrite {n v} (h : Kept s₀ s) : Kept s₀ (s.stageWrite n v) := .ite (.setTx (.wr (.wr h))) (.wr (.wr h))

theorem maskWrite {n v} (h : Kept s₀ s) : Kept s₀ (s.maskWrite n v) := by
  unfold State.maskWrite
  extract_lets
  refine .ite ?_ ?_
  · exact .firReject h
  · split
    · exact .ite (.wr h) (.firReject (.setTx (.wr h)))
    · exact .wr h

theorem runLaneFir {g f} (h : Kept s₀ s) : Kept s₀ (runLaneFir s g f) := .finishSt (.setTx h)

theorem txBoundary {n} (h : Kept s₀ s) : Kept s₀ (s.txBoundary n) := by
  unfold State.txBoundary
  refine .ite ?_ ?_
  · exact h
  · extract_lets _ s1
    have h1 : Kept s₀ s1 := by
      unfold s1
      split
      · exact .wr h
      · exact h
    exact .ite (.wr (.setTx h1)) (.setTx h1)

theorem txConfigure {n drive fresh idle} (h : Kept s₀ s) : Kept s₀ (s.txConfigure n drive fresh idle) :=
  .txCheck (.setTx (.ite (.wr (.wr (.wr (.wr h)))) (.wr h)))

theorem injectLine {n} (h : Kept s₀ s) : Kept s₀ (s.injectLine n) := .emit (.setTx h)

theorem startNear {n} (h : Kept s₀ s) : Kept s₀ (s.startNear n) := .ite h (.wr (.wr (.wr (.setRx h))))

theorem prbsWrite {n v} (h : Kept s₀ s) : Kept s₀ (s.prbsWrite n v) := by
  unfold State.prbsWrite
  extract_lets _ _ _ _ _ s2 _ s3 _ s4
  have h2 : Kept s₀ s2 := .wr (.setLoop (.wr (.wr (.wr (.wr h)))))
  have h3 : Kept s₀ s3 := .ite (.setChk (.wr h2)) h2
  have h4 : Kept s₀ s4 := .ite (.startNear (.ite (.genStart h3) h3)) (.endNear (.ite (.genStart h3) h3))
  exact .ite (.wr (.ite (.injectLine h4) h4)) (.ite (.injectLine h4) h4)

/-! ## Machine/Burst -/

theorem startEpoch {c b} (h : Kept s₀ s) : Kept s₀ (s.startEpoch c b) := .wr (.wr (.setEpoch h))

theorem pruneRecords {n} (h : Kept s₀ s) : Kept s₀ (s.pruneRecords n) := .wr (.setBst h)

theorem activateBank {c i} (h : Kept s₀ s) : Kept s₀ (s.activateBank c i) := by
  unfold State.activateBank
  extract_lets
  split
  · exact .setEpoch (.wr (.wr h))
  · extract_lets s2 _ s4
    have h2 : Kept s₀ s2 := .wrB (.wrB (.wr (.setEpoch (.wr (.wr h)))))
    have h4 : Kept s₀ s4 := .foldl .pruneRecords (.wr (.wr h2))
    exact .ite h4 (.ite (.startEpoch h4) (.ite (.wr h4) (.ite h4 (.ite (.startEpoch h4) h4))))

theorem commitOff {c} (h : Kept s₀ s) : Kept s₀ (s.commitOff c) := by
  unfold State.commitOff
  split
  · exact .activateBank h
  · exact h

theorem epochRefresh {c} (h : Kept s₀ s) : Kept s₀ (s.epochRefresh c) := by
  unfold State.epochRefresh
  refine .ite ?_ ?_
  · exact .commitOff (.ite h (.wr h))
  · refine .ite ?_ ?_
    · split
      · exact .startEpoch h
      · exact h
    · exact h

theorem runSchedWrite {g f} (h : Kept s₀ s) : Kept s₀ (runSchedWrite s g f) := by
  unfold Machine.runSchedWrite
  extract_lets
  split
  · exact .finishSt h
  · exact .finishSt (.ite (.activateBank (.wr (.setEpoch h))) (.wr (.setEpoch h)))

theorem epochSlip {c t} (h : Kept s₀ s) : Kept s₀ (s.epochSlip c t) := .setEpoch (.wr (.wr (.raise h)))

theorem defineBoundary {c t b} (h : Kept s₀ s) : Kept s₀ (s.defineBoundary c t b) := .wr (.setEpoch h)

theorem evaluateEdge {c t b} (h : Kept s₀ s) : Kept s₀ (s.evaluateEdge c t b) :=
  .ite (.count h) (.ite (.setEpoch (.wr (.wr (.setEpoch h)))) (.epochSlip (.wr (.setEpoch h))))

theorem syncEdge {t c} (h : Kept s₀ s) : Kept s₀ (s.syncEdge t c) := by
  unfold State.syncEdge
  split
  · exact h
  · refine .ite ?_ ?_
    · exact h
    · split
      · exact .defineBoundary h
      · exact .evaluateEdge h
      · exact .ite (.defineBoundary h) h
      · exact h

theorem burstException {n} (h : Kept s₀ s) : Kept s₀ (s.burstException n) := .ite h (.raise (.setBst h))

theorem burstLos {n} (h : Kept s₀ s) : Kept s₀ (s.burstLos n) :=
  .ite h (.ite (.slicesSettle (.raise (.wr (.setBst h)))) (.setBst h))

theorem laneBoundary {n fresh} (h : Kept s₀ s) : Kept s₀ (s.laneBoundary n fresh) :=
  .ite h (.ite (.burstException (.setBst (.ite (.burstLos h) h))) (.setBst (.ite (.burstLos h) h)))

theorem setPhase6 {n p} (h : Kept s₀ s) : Kept s₀ (s.setPhase6 n p) := .wr h

theorem startOnset {n t} (h : Kept s₀ s) : Kept s₀ (s.startOnset n t) := .setPhase6 (.wr (.wr (.wrB (.setBst h))))

theorem armSlot {n t} (h : Kept s₀ s) : Kept s₀ (s.armSlot n t) :=
  .ite (.startOnset (.setPhase6 (.wr (.setBst h)))) (.setPhase6 (.wr (.setBst h)))

theorem toCtl {n words} (h : Kept s₀ s) : Kept s₀ (s.toCtl n words) := .emit (.setHtx h)

theorem slotEnded {n good} (h : Kept s₀ s) : Kept s₀ (s.slotEnded n good) := by
  unfold State.slotEnded
  extract_lets
  split
  · exact h
  · exact .setBst h

theorem slotMissed {n} (h : Kept s₀ s) : Kept s₀ (s.slotMissed n) := by
  unfold State.slotMissed
  extract_lets _ s1
  have h1 : Kept s₀ s1 := .burstException (.count (.slotEnded h))
  split
  · exact h
  · exact .setPhase6 (.setBst (.ite (.wr (.setBst (.toCtl (.setBst h1)))) h1))

theorem receiverFree {n} (h : Kept s₀ s) : Kept s₀ (s.receiverFree n) := by
  unfold State.receiverFree
  extract_lets _ s1
  have h1 : Kept s₀ s1 := .swapIfDue (.setPhase6 (.setBst h))
  split
  · exact h1
  · exact .ite (.slotMissed (.wr (.setBst h1))) (.armSlot h1)

theorem rearm {n} (h : Kept s₀ s) : Kept s₀ (s.rearm n) :=
  .ite (.receiverFree h) (.swapIfDue (.setPhase6 (.setBst h)))

theorem fromStep3 {n} (h : Kept s₀ s) : Kept s₀ (s.fromStep3 n) := .setPhase6 (.setBst h)

theorem putRec {n src r} (h : Kept s₀ s) : Kept s₀ (s.putRec n src r) := .wr (.setBst h)

theorem endBurst {n status} (h : Kept s₀ s) : Kept s₀ (s.endBurst n status) := by
  unfold State.endBurst
  extract_lets
  split
  · exact h
  · extract_lets _ _ s1 _ _ s3
    have h1 : Kept s₀ s1 := .ite h (.toHost (.rxFill h))
    have h3 : Kept s₀ s3 := .slotEnded (.setBst (.wr (.toCtl h1)))
    exact .ite (.setBst (.wr (.countWrap (.putRec h3)))) (.burstException (.putRec h3))

theorem learnSource {n src g lev p95} (h : Kept s₀ s) : Kept s₀ (s.learnSource n src g lev p95) :=
  .ite (.putRec h) h

theorem startTxBurst {n t} (h : Kept s₀ s) : Kept s₀ (s.startTxBurst n t) := .setTx h

/-! ## Machine/LaneCmds -/

theorem clearIsyon {n} (h : Kept s₀ s) : Kept s₀ (s.clearIsyon n) :=
  .wr (.foldlOn (p := fun f => 8 ≤ f.addr) (by decide) (fun hf ht => .wrOf ht hf) h)

theorem setFmt {n m pre byp ocm nrz} (h : Kept s₀ s) : Kept s₀ (s.setFmt n m pre byp ocm nrz) :=
  .wrB (.wrB (.wrB (.wr (.wr (.ite h (.clearIsyon h))))))

theorem setHostCfg {k m prof train req} (h : Kept s₀ s) : Kept s₀ (s.setHostCfg k m prof train req) :=
  .wrB (.wr (.wrB (.wrB (.wr h))))

theorem hostReconfigure {k old} (h : Kept s₀ s) : Kept s₀ (s.hostReconfigure k old) :=
  .ite h (.ite (.startTraining h) (.enterData (.setHost h)))

theorem clearCounts {n} (h : Kept s₀ s) : Kept s₀ (s.clearCounts n) := .setRx (.wr (.wr (.wr (.wr (.wr h)))))

theorem burstCtle {n} (h : Kept s₀ s) : Kept s₀ (s.burstCtle n) := .wr h

theorem enterBurst {n} (h : Kept s₀ s) : Kept s₀ (s.enterBurst n) :=
  .setLane (.endBursts (.burstCtle (.dropLocks h)))

theorem runLaneConfig {g f} (h : Kept s₀ s) : Kept s₀ (runLaneConfig s g f) := by
  unfold Machine.runLaneConfig
  extract_lets _ _ _ _ _ _ _ _ s1 _ _ t2 s2 s3 s4
  have h1 : Kept s₀ s1 := .flushBufs (.clearCounts (.setFmt h))
  have ht2 : Kept s₀ t2 := .ite (.setHostCfg (.setHostCfg h1)) (.setHostCfg h1)
  have h2 : Kept s₀ s2 := .ite (.setTx h1) (.txConfigure ht2)
  have h3 : Kept s₀ s3 := .ite (.setLane h2) (.ite (.enterBurst h2) (.startAcquire h2))
  have h4 : Kept s₀ s4 := .epochRefresh (.ite h3 (.hostReconfigure (.hostReconfigure h3)))
  exact .finish h4

theorem resumeLane {n} (h : Kept s₀ s) : Kept s₀ (s.resumeLane n) :=
  .ite (.enterBurst h) (.ite (.enterAcquire h) (.setLane h))

theorem runLaneState {g f} (h : Kept s₀ s) : Kept s₀ (runLaneState s g f) :=
  .finishSt (.ite (.ite (.resumeLane h) h) (.ite h (.setLane h)))

/-! ## Machine/Mortar -/

theorem slackCrit {c} (h : Kept s₀ s) : Kept s₀ (s.slackCrit c) := .setMortar (.raiseRise (.wr h))

theorem dropFill {n b} (h : Kept s₀ s) : Kept s₀ (s.dropFill n b) := by
  unfold State.dropFill
  refine .ite ?_ ?_
  · exact .ite (.toHost (.rxFill (.toHost (.rxFill h)))) (.toHost (.rxFill h))
  · exact .ite (.setTx (.seedPath h)) (.setTx (.seedPath h))

theorem dropBooked {n b} (h : Kept s₀ s) : Kept s₀ (s.dropBooked n b) :=
  .ite (.setBst (.ite (.setRx h) h)) (.ite (.setRx h) h)

theorem dropBlock {c b rate} (h : Kept s₀ s) : Kept s₀ (s.dropBlock c b rate) :=
  .dropBooked (.dropFill (.slackCrit (.dpCount (.setMortar (.setRx (.ite (.count h) (.count h)))))))

theorem setBuf {c b x} (h : Kept s₀ s) : Kept s₀ (s.setBuf c b x) := .setMortar h

theorem bufPass {c b} (h : Kept s₀ s) : Kept s₀ (s.bufPass c b) := .ite (.setBuf h) (.ite (.setBuf h) h)

theorem surveyLow {c cur} (h : Kept s₀ s) : Kept s₀ (s.surveyLow c cur) :=
  .ite (.raiseRise (.wr (.setMortar h))) (.ite (.wr (.setMortar h)) (.setMortar h))

theorem surveyCrit {c cur m} (h : Kept s₀ s) : Kept s₀ (s.surveyCrit c cur m) :=
  .ite (.slackCrit h) (.ite (.wr (.setMortar h)) (.setMortar h))

theorem surveyNone {c} (h : Kept s₀ s) : Kept s₀ (s.surveyNone c) :=
  .setMortar (.wr (.wr (.wr (.wr (.wr (.wr (.wr h)))))))

theorem slackSurvey {c} (h : Kept s₀ s) : Kept s₀ (s.slackSurvey c) := by
  unfold State.slackSurvey
  extract_lets
  split
  · exact .surveyNone h
  · exact .ite (.surveyNone h) (.setMortar (.surveyCrit (.surveyLow (.wrB (.wrB (.wr (.wr (.wr (.wr h)))))))))

theorem slackMinClr {c} (h : Kept s₀ s) : Kept s₀ (s.slackMinClr c) := .wr h

theorem avsAdvice (h : Kept s₀ s) : Kept s₀ s.avsAdvice := by
  unfold State.avsAdvice
  split
  extract_lets _ _ _ s1
  have h1 : Kept s₀ s1 := by
    unfold s1
    split
    · exact .wr (.wr (.wr h))
    · exact .wrB (.wr (.wr (.wr h)))
  exact .freed (.countWrap (.wr h1))

/-! ## Machine/HostLanes -/

theorem trainRestart {k} (h : Kept s₀ s) : Kept s₀ (s.trainRestart k) := .ite (.clearHostTest (.startTraining h)) h

theorem hostEq {k} (h : Kept s₀ s) : Kept s₀ (s.hostEq k) := .freed (.wr (.freed (.wr (.freed (.wr h)))))

theorem txEqWrite {k v} (h : Kept s₀ s) : Kept s₀ (s.txEqWrite k v) :=
  .ite (.wr h) (.ite (.wr h) (.ite (.setHost (.wr h)) (.wr (.wr h))))

theorem injectHost {k} (h : Kept s₀ s) : Kept s₀ (s.injectHost k) := .emit (.setHtx h)

theorem injectOne {p} (h : Kept s₀ s) : Kept s₀ (s.injectOne p) := by
  unfold State.injectOne
  refine .ite ?_ ?_
  · exact h
  · split
    · exact .injectLine h
    · exact .injectHost h
    · exact .emit h

theorem portAccess {p k} (hk : ∀ {t}, Kept s₀ t → Kept s₀ (k t)) (h : Kept s₀ s) :
    Kept s₀ (s.portAccess p k) := by
  cases p with
  | line n => exact .regAccess hk h
  | host k => exact .regAccess hk h
  | filkor i => exact .regAccess hk h

theorem prbsClear {x1} (h : Kept s₀ s) : Kept s₀ (s.prbsClear x1) := by
  unfold State.prbsClear
  split
  · exact .wr h
  · exact .wr h
  · exact .wr h

theorem checkBits {p lockF cntF i at_ bits} (h : Kept s₀ s) (hl : 8 ≤ lockF.addr) (hc : 8 ≤ cntF.addr) :
    Kept s₀ (s.checkBits p lockF cntF i at_ bits) :=
  .wrBOf (.countOf (.setChk h) hc) hl

theorem hostGenStart {k pat} (h : Kept s₀ s) : Kept s₀ (s.hostGenStart k pat) := .freed (.setHtx h)

theorem hostPrbsWrite {k v} (h : Kept s₀ s) : Kept s₀ (s.hostPrbsWrite k v) := by
  unfold State.hostPrbsWrite
  extract_lets _ _ _ _ _ s2 s3 s3a s4
  have h2 : Kept s₀ s2 := .wr (.wr (.wr (.wr (.wr (.wr h)))))
  have h3 : Kept s₀ s3 := .ite (.setChk (.wr h2)) h2
  have h3a : Kept s₀ s3a := .ite (.hostGenStart h3) h3
  have h4 : Kept s₀ s4 := .ite (.injectHost h3a) h3a
  exact .ite (.wr h4) h4

theorem hostFill {k len} (h : Kept s₀ s) : Kept s₀ (s.hostFill k len).2 := .freed (.setHost h)

theorem idleBlock {k} (h : Kept s₀ s) : Kept s₀ (s.idleBlock k) := .setHtx (.hostFill h)

theorem hostBits {k} (h : Kept s₀ s) : Kept s₀ (s.hostBits k).2 := by
  unfold State.hostBits
  extract_lets
  split
  · exact .setHtx h
  · split
    · exact .setHtx h
    · split
      · exact .hostFill h
      · split
        · exact .ite (.idleBlock h) h
        · exact .setHtx (.ite (.idleBlock h) h)

theorem hostBlock {k} (h : Kept s₀ s) : Kept s₀ (s.hostBlock k) :=
  .ite h (.ite (.setHtx (.hostBits h)) (.emit (.setHtx (.hostBits h))))

theorem hostFar {k bits} (h : Kept s₀ s) : Kept s₀ (s.hostFar k bits) := .ite (.setHtx h) h

theorem hostBlocks {n m} (h : Kept s₀ s) : Kept s₀ (s.hostBlocks n m) :=
  .hostBlock (.hostBlock (.hostFar (.hostFar h)))

/-! ## Machine/Bias -/

theorem setBias {b x} (h : Kept s₀ s) : Kept s₀ (s.setBias b x) := .keep h

theorem biasPhase {b p} (h : Kept s₀ s) : Kept s₀ (s.biasPhase b p) := .setBias h

theorem biasJoin {b} (h : Kept s₀ s) : Kept s₀ (s.biasJoin b) := .setBias (.wr (.wr h))

theorem biasOpenBall {b p} (h : Kept s₀ s) : Kept s₀ (s.biasOpenBall b p) := .setBias (.wr (.wr (.wr h)))

theorem biasEnable {b} (h : Kept s₀ s) : Kept s₀ (s.biasEnable b) := by
  unfold State.biasEnable
  extract_lets
  split
  · exact .biasPhase (.wr h)
  · exact .setBias (.wr h)
  · exact .wr h

theorem biasDisable {b} (h : Kept s₀ s) : Kept s₀ (s.biasDisable b) := by
  unfold State.biasDisable
  extract_lets
  split
  · exact .setBias (.wr h)
  · exact .setBias (.wr h)
  · exact .setBias (.wr h)
  · exact .biasOpenBall (.wr h)
  · exact .biasOpenBall (.wr h)
  · exact .wr h

theorem biasWrite {b range code} (h : Kept s₀ s) : Kept s₀ (s.biasWrite b range code) :=
  .ite (.setBias (.wr (.wr (.wr h)))) (.wr (.wr (.wr h)))

theorem runBiasSet {g f} (h : Kept s₀ s) : Kept s₀ (runBiasSet s g f) := by
  refine .finishSt (.foldl (fun {t i} ht => ?_) h)
  split
  next b range wr act code =>
  extract_lets t1
  have h1 : Kept s₀ t1 := .ite (.biasWrite ht) ht
  exact .ite (.biasEnable h1) (.ite (.biasDisable h1) h1)

theorem quenchMember {b} (h : Kept s₀ s) : Kept s₀ (s.quenchMember b) := by
  unfold State.quenchMember
  extract_lets
  split
  · exact .setBias (.wr h)
  · exact .setBias (.wr h)
  · exact .setBias (.wr h)
  · exact .wr h

theorem quenchGroup {g cause} (h : Kept s₀ s) : Kept s₀ (s.quenchGroup g cause) :=
  .foldl (fun ht => .ite (.quenchMember ht) ht) (.ite h (.wr (.wr h)))

theorem runQuench {g f} (h : Kept s₀ s) : Kept s₀ (runQuench s g f) :=
  .finishSt (.ite (.foldl .quenchGroup h) (.foldl (fun ht => .wr (.wr ht)) h))

theorem biasJudge {b vbias m} (h : Kept s₀ s) : Kept s₀ (s.biasJudge b vbias m) := .wrB (.wrB h)

theorem biasTick {b} (h : Kept s₀ s) : Kept s₀ (s.biasTick b) := by
  unfold State.biasTick
  extract_lets
  split
  · exact .setBias (.wr h)
  · exact .ite (.biasOpenBall (.wr h)) (.wr h)
  · exact .ite (.biasPhase (.wr h)) (.wr h)
  · exact h

theorem biasAct {b act cause} (h : Kept s₀ s) : Kept s₀ (s.biasAct b act cause) := by
  unfold State.biasAct
  split
  · exact h
  · exact .wr h
  · exact .ite (.quenchGroup h) (.wr h)

theorem biasCondition {b now flag k act cause} (h : Kept s₀ s) (hn : 8 ≤ now.addr) (hf : 8 ≤ flag.addr) :
    Kept s₀ (s.biasCondition b now flag k act cause) :=
  .ite h (.biasAct (.raiseRise (.wrOf (.wrOf h hn) hf)))

theorem biasFlagWrite {b v} (h : Kept s₀ s) : Kept s₀ (s.biasFlagWrite b v) :=
  .wrB (.ite (.wr (.ite (.wr h) h)) (.ite (.wr h) h))

theorem biasThermOff (h : Kept s₀ s) : Kept s₀ s.biasThermOff :=
  .ite h (.foldl (fun ht => .wr (.wr (.ite (.biasDisable ht) ht))) (.wr h))

theorem biasThermReset (h : Kept s₀ s) : Kept s₀ s.biasThermReset :=
  .ite h (.foldl (fun ht => .biasOpenBall (.wr (.wr (.wr (.wr ht))))) (.wr h))

theorem biasClear (h : Kept s₀ s) : Kept s₀ s.biasClear := .keep (.clearRegs h)

/-! ## Machine/Supervise -/

theorem setScv {x v} (h : Kept s₀ s) : Kept s₀ (s.setScv x v) := .keep h

theorem setDec {j v} (h : Kept s₀ s) : Kept s₀ (s.setDec j v) := .keep h

theorem refSettle {x} (h : Kept s₀ s) : Kept s₀ (s.refSettle x) := .ite h (.wr (.setScv h))

theorem startRun {x} (h : Kept s₀ s) : Kept s₀ (s.startRun x) := .ite h (.ite (.setScv h) (.ite h (.setScv h)))

theorem hostTrigger {x o} (h : Kept s₀ s) : Kept s₀ (s.hostTrigger x o) := .ite (.startRun (.setScv h)) (.wr h)

theorem startRound {x} (h : Kept s₀ s) : Kept s₀ (s.startRound x) :=
  .foldl (fun ht => .ite (.setDec ht) ht) (.wr (.foldl .wr (.setScv h)))

theorem injResult {x i uv} (h : Kept s₀ s) : Kept s₀ (s.injResult x i uv) := .countWrap (.wrB (.wrB (.wr h)))

theorem markShifted {x entry} (h : Kept s₀ s) : Kept s₀ (s.markShifted x entry) := .ite (.setScv h) h

theorem endHostRun {x uv} (h : Kept s₀ s) : Kept s₀ (s.endHostRun x uv) := by
  unfold State.endHostRun
  extract_lets _ _ s2
  have h2 : Kept s₀ s2 := .setScv (.foldl .injResult h)
  split
  · exact h2
  · exact .finish h2

theorem endSystemRun {x uv} (h : Kept s₀ s) : Kept s₀ (s.endSystemRun x uv) := .wr (.setScv h)

theorem thrRaise {old} (h : Kept s₀ s) : Kept s₀ (s.thrRaise old) := .foldl .raiseRise h

theorem thrRise {j} (h : Kept s₀ s) : Kept s₀ (s.thrRise j) :=
  .ite (.quenchGroup (.thrRaise (.wr h))) (.thrRaise (.wr h))

theorem threshold {j v} (h : Kept s₀ s) : Kept s₀ (s.threshold j v) :=
  .ite (.thrRise (.wrB (.wrB (.setDec h)))) (.wrB (.wrB (.setDec h)))

theorem decOutput {j} (h : Kept s₀ s) : Kept s₀ (s.decOutput j) := by
  unfold State.decOutput
  extract_lets d m win
  split
  next v s1 hv =>
  have h1 : Kept s₀ s1 := by
    split at hv
    · cases hv; exact h
    · cases hv; exact .freed h
  extract_lets s2 s3 s4 d4
  have h3 : Kept s₀ s3 := .countWrap (.wr (.wrB (.wrB (.wrB (.wr h1)))))
  have h4 : Kept s₀ s4 := .ite (.threshold h3) (.setDec h3)
  split
  exact .ite h4 (.setDec h4)

theorem decRound {j res} (h : Kept s₀ s) : Kept s₀ (s.decRound j res) := by
  unfold State.decRound
  refine .ite ?_ ?_
  · exact h
  · extract_lets
    split
    · exact .setDec h
    · exact .ite (.decOutput (.setDec h)) (.setDec h)

theorem roundResult {x i hd} (h : Kept s₀ s) : Kept s₀ (s.roundResult x i hd) := .countWrap (.wrB (.wrB (.wr h)))

theorem scCtrlWritten {x old} (h : Kept s₀ s) : Kept s₀ (s.scCtrlWritten old x) :=
  .ite (.startRound (.refSettle h)) (.refSettle h)

theorem decCfgWritten {j old} (h : Kept s₀ s) : Kept s₀ (s.decCfgWritten old j) :=
  .thrRaise (.ite (.setDec h) (.ite (.wr (.wr (.wr (.setDec h)))) h))

theorem decThrWritten {j} (h : Kept s₀ s) : Kept s₀ (s.decThrWritten j) := .setDec h

/-! ## Machine/Cmis -/

theorem setCmis {c x} (h : Kept s₀ s) : Kept s₀ (s.setCmis c x) := .keep h

theorem cmisSend {c} (h : Kept s₀ s) : Kept s₀ (s.cmisSend c) := by
  unfold State.cmisSend
  split
  · exact h
  · exact .emit h

theorem cmisNext {c} (h : Kept s₀ s) : Kept s₀ (s.cmisNext c) := .cmisSend (.setCmis h)

theorem cmisQueue {c j} (h : Kept s₀ s) : Kept s₀ (s.cmisQueue c j) := .ite (.cmisSend (.setCmis h)) (.setCmis h)

theorem runCmis {wr g f} (h : Kept s₀ s) : Kept s₀ (runCmis wr s g f) := .cmisQueue h

theorem cmisStop {c st} (h : Kept s₀ s) : Kept s₀ (s.cmisStop c st) := .foldl .finishSt (.setCmis h)

/-! ## Machine/TwinOps -/

theorem twinTo {st} (h : Kept s₀ s) : Kept s₀ (s.twinTo st) :=
  .ite h (.raise (.ite (.wr (.ite (.wr (.wr h)) (.wr h))) (.wr (.ite (.wr (.wr h)) (.wr h)))))

theorem twinDegrade {cause} (h : Kept s₀ s) : Kept s₀ (s.twinDegrade cause) := by
  unfold State.twinDegrade
  extract_lets
  split
  · exact .twinTo (.wr (.keep h))
  · exact .twinTo (.wr (.keep h))
  · exact .ite (.wr (.keep h)) h
  · exact h

theorem startMove (h : Kept s₀ s) : Kept s₀ s.startMove := .ite h (.twinTo (.keep h))

theorem endMoves (h : Kept s₀ s) : Kept s₀ s.endMoves := .ite (.twinTo h) h

theorem modelSide {c} (h : Kept s₀ s) : Kept s₀ (s.modelSide c) := .ite h (.keep h)

theorem settleMoves {c} (h : Kept s₀ s) : Kept s₀ (s.settleMoves c) :=
  .endMoves (.ite (.foldl .finish (.keep h)) (.foldl .finishSt (.keep h)))

theorem remodel {c} (h : Kept s₀ s) : Kept s₀ (s.remodel c) :=
  .ite h (.settleMoves (.ite (.modelSide h) (.raise (.modelSide h))))

theorem setOwnSel {c b} (h : Kept s₀ s) : Kept s₀ (s.setOwnSel c b) := .ite h (.remodel (.keep h))

theorem takeCourse {c o} (h : Kept s₀ s) : Kept s₀ (s.takeCourse c o) :=
  .ite h (.ite (.settleMoves (.keep (.startMove h))) (.setOwnSel (.keep (.startMove h))))

theorem courseYield {c} (h : Kept s₀ s) : Kept s₀ (s.courseYield c) := .ite (.setOwnSel (.keep h)) (.setOwnSel h)

theorem twinImageLost (h : Kept s₀ s) : Kept s₀ s.twinImageLost := .ite (.dropImage h) h

theorem linkTo {l} (h : Kept s₀ s) : Kept s₀ (s.linkTo l) := by
  unfold State.linkTo
  extract_lets _ s1 _ _ s3
  have h1 : Kept s₀ s1 := by
    refine .foldl (fun ht1 => ?_) (.wr h)
    exact .ite (.ite (.wr (.wr ht1)) (.wr ht1)) (.wr (.wr (.ite (.wr (.wr ht1)) (.wr ht1))))
  have h3 : Kept s₀ s3 := .twinDegrade (.raise (.ite (.wr (.ite (.keep h1) h1)) (.ite (.keep h1) h1)))
  exact .ite (.raise (.ite (.keep h1) h1)) (.ite (.twinImageLost h3) (.ite (.keep h1) h1))

theorem flkTestSettle (h : Kept s₀ s) : Kept s₀ s.flkTestSettle :=
  .ite h (.ite (.ite h (.linkTo h)) (.ite (.linkTo h) h))

theorem flkDown (h : Kept s₀ s) : Kept s₀ s.flkDown :=
  .keep (.clearRegs (.clearRegs (.ite (.twinImageLost (.raise (.twinDegrade h))) (.twinDegrade h))))

theorem twinCfgWritten (h : Kept s₀ s) : Kept s₀ s.twinCfgWritten :=
  .flkTestSettle (.ite (.wr (.twinTo (.foldl .finishSt (.keep h)))) h)

/-! ## Machine/Bist -/

theorem bistRecord {t logic mem pats misr f aborted} (h :
    Kept s₀ s) : Kept s₀ (s.bistRecord t logic mem pats misr f aborted) := by
  unfold State.bistRecord
  extract_lets s1 _ _ s3
  have h1 : Kept s₀ s1 := .countWrap (.wrB (.wr (.wr (.wr h))))
  have h3 : Kept s₀ s3 := by
    exact .ite (.ite h1 (.wr (.wr h1))) (.wr (.wr (.wr (.wr (.wr (.ite h1 (.wr (.wr h1))))))))
  exact .finish h3

theorem reloadClusters (h : Kept s₀ s) : Kept s₀ s.reloadClusters := .keep h

theorem bistAfter {code} (h : Kept s₀ s) : Kept s₀ (s.bistAfter code) :=
  .ite (.calSettle (.txCheck (.flushBufs (.setRx h)))) (.ite (.judgeHeldAll (.reloadClusters h)) h)

theorem stopTests {p} (h : Kept s₀ s) : Kept s₀ (s.stopTests p) :=
  .foldl (fun ht => .bistAfter (.bistRecord (.keep (.freed (.freed (.freed ht)))))) h

theorem bistRetire {n i} (h : Kept s₀ s) : Kept s₀ (s.bistRetire n i) :=
  .ite (.ite h (.ite (.keep h) (.setCal h))) (.testRetire h)

theorem runBistRun {g f} (h : Kept s₀ s) : Kept s₀ (runBistRun s g f) :=
  .ite (.calSettle (.txCheck (.keep h))) (.ite (.holdRaises (.keep h)) (.keep h))

/-! ## Machine/EngineOps -/

theorem setEng {e x} (h : Kept s₀ s) : Kept s₀ (s.setEng e x) := .keep h

theorem leaveUser {e} (h : Kept s₀ s) : Kept s₀ (s.leaveUser e) := .setEng (.freed h)

theorem progReload {n} (h : Kept s₀ s) : Kept s₀ (s.progReload n) := by
  unfold State.progReload
  extract_lets
  split
  · exact h
  · exact .ite (.setEng (.wr (.wr (.count (.hodReads h))))) (.setEng (.count (.hodReads h)))

theorem readBlock {ecc e slot} (h : Kept s₀ s) : Kept s₀ (s.readBlock ecc e slot).1 := .hodReads h

theorem resumeBlock {ecc e} (h : Kept s₀ s) : Kept s₀ (s.resumeBlock ecc e) := by
  unfold State.resumeBlock
  extract_lets
  split
  · exact .setEng (.fst ‹_› (.readBlock h))
  · split
    · exact .setEng (.fst ‹_› (.readBlock (.fst ‹_› (.readBlock h))))
    · exact .setEng (.fst ‹_› (.readBlock (.fst ‹_› (.readBlock h))))

theorem dropBlocks {slot} (h : Kept s₀ s) : Kept s₀ (s.dropBlocks slot) := .foldl (fun ht => .ite ht (.setEng ht)) h

theorem startFallback {o} (h : Kept s₀ s) : Kept s₀ (s.startFallback o) := by
  unfold State.startFallback
  extract_lets
  split
  · exact .finishSt (.updTo (.wr (.keep h)))
  · exact .updTo (.wr (.keep h))

theorem bootFallback (h : Kept s₀ s) : Kept s₀ s.bootFallback := .ite (.startFallback (.keep (.keep h))) (.keep h)

theorem updFault (h : Kept s₀ s) : Kept s₀ s.updFault :=
  .ite (.startFallback (.keep h)) (.ite (.bootFallback (.keep h)) (.keep h))

theorem engineEvent {e cause spare} (h : Kept s₀ s) : Kept s₀ (s.engineEvent e cause spare) := .raise h

theorem engineLost {e} (h : Kept s₀ s) : Kept s₀ (s.engineLost e) := .ite (.calSettle (.setRx h)) h

theorem engineUnmapped {e cause} (h : Kept s₀ s) : Kept s₀ (s.engineUnmapped e cause) :=
  .ite (.courseYield (.engineEvent (.engineLost (.setEngMap h)))) (.engineEvent (.engineLost (.setEngMap h)))

theorem startSubst {n} (h : Kept s₀ s) : Kept s₀ (s.startSubst n) := by
  induction n generalizing s with
  | zero => exact h
  | succ n ih =>
    unfold State.startSubst
    refine .ite h ?_
    split
    · exact h
    · refine .ite h ?_
      split
      · exact ih (.engineUnmapped (.keep h))
      · exact .ite (.keep (.wr (.wr h))) (ih (.engineEvent (.setEngMap (.keep (.wr (.wr h))))))

theorem dropSpare {e} (h : Kept s₀ s) : Kept s₀ (s.dropSpare e) :=
  .foldl (fun ht => .ite (.setEngMap (.wr ht)) ht) h

theorem engineFail {e cause pc} (h : Kept s₀ s) : Kept s₀ (s.engineFail e cause pc) := by
  unfold State.engineFail
  refine .ite ?_ ?_
  · exact h
  · extract_lets _ s2
    have h2 : Kept s₀ s2 := .updFault (.dropSpare (.wr h))
    exact .ite (.engineUnmapped h2) (.startSubst (.engineLost (.setEngMap (.keep h2))))

theorem sleepIdle {e} (h : Kept s₀ s) : Kept s₀ (s.sleepIdle e) := .ite (.setEng h) h

theorem engineFresh {ecc e} (h : Kept s₀ s) : Kept s₀ (s.engineFresh ecc e) := by
  unfold State.engineFresh
  extract_lets _ _ s2
  have h2 : Kept s₀ s2 := .ite (.resumeBlock (.foldl .wr (.setEng h))) (.foldl .wr (.setEng h))
  exact .sleepIdle (.ite (.progReload h2) h2)

theorem enginesOff {c} (h : Kept s₀ s) : Kept s₀ (s.enginesOff c) := by
  unfold State.enginesOff
  extract_lets s1
  have h1 : Kept s₀ s1 := .foldl (fun ht => .setEng (.clearRegsOf ht (by omega))) h
  split
  · exact .ite (.startSubst (.engineEvent (.setEngMap (.keep h1)))) (.startSubst h1)
  · exact .startSubst h1

theorem enginesOn {c} (h : Kept s₀ s) : Kept s₀ (s.enginesOn c) := by
  unfold State.enginesOn
  refine .foldl (fun ht1 => ?_) h
  extract_lets
  split
  · exact ht1
  · split
    · exact ht1
    · exact .progReload (.setEng (.wr (.wr (.wr ht1))))

theorem requeue {o} (h : Kept s₀ s) : Kept s₀ (s.requeue o) := by
  unfold State.requeue
  split
  · exact .setRing h
  · exact h

theorem k3Lost {restarts} (h : Kept s₀ s) : Kept s₀ (s.k3Lost restarts) := by
  unfold State.k3Lost
  extract_lets _ s2 _ _ s4
  have h2 : Kept s₀ s2 := .foldl .requeue (.foldl .requeue h)
  have h4 : Kept s₀ s4 := .twinDegrade (.endMoves (.keep h2))
  exact .ite (.foldl .setOwnSel h4) h4

theorem keepFault {k cause} (h : Kept s₀ s) : Kept s₀ (s.keepFault k cause) := by
  unfold State.keepFault
  extract_lets _ _ _ s1 _ s3 _ s5
  have h1 : Kept s₀ s1 := .setCore (.ite (.holdRaises h) h)
  have h3 : Kept s₀ s3 := .raise (.setEng (.wr h1))
  have h5 : Kept s₀ s5 := .ite (.k3Lost (.updFault h3)) (.updFault h3)
  exact .ite h (.ite (.judgeHeldAll (.ite (.stopTests h5) h5)) (.ite (.stopTests h5) h5))

theorem foremanFault {cause} (h : Kept s₀ s) : Kept s₀ (s.foremanFault cause) := by
  unfold State.foremanFault
  extract_lets _ _ _ s2 _ s3 s4
  have h2 : Kept s₀ s2 := .raise (.wr (.setEng (.setCore h)))
  have h3 : Kept s₀ s3 := .ite (.keep h2) (.updFault h2)
  have h4 : Kept s₀ s4 := by
    unfold s4
    split
    · exact .wr h3
    · exact h3
  exact .ite h (.ite (.foldl .engineUnmapped (.keep h4)) h3)

theorem anyEngineFail {e cause pc} (h : Kept s₀ s) : Kept s₀ (s.anyEngineFail e cause pc) :=
  .ite (.engineFail h) (.ite (.foremanFault h) (.ite (.keepFault h) h))

/-! ## Machine/Asyan -/

theorem sandboxViolation {n cause pc} (h : Kept s₀ s) : Kept s₀ (s.sandboxViolation n cause pc) := by
  unfold State.sandboxViolation
  extract_lets _ _ s2
  have h2 : Kept s₀ s2 := by
    unfold s2
    split
    · extract_lets t
      have ht : Kept s₀ t := .setEng (.wr (.wr (.wr h)))
      split
      · exact .finishSt ht
      · exact ht
    · exact .wr (.wr (.wr h))
  exact .leaveUser (.raise h2)

theorem engTrap {e cause pc} (h : Kept s₀ s) : Kept s₀ (s.engTrap e cause pc) :=
  .ite (.sandboxViolation h) (.anyEngineFail h)

theorem tagRetire {e pc beats user inRep waited} (h :
    Kept s₀ s) : Kept s₀ (s.tagRetire e pc beats user inRep waited) := by
  unfold State.tagRetire
  refine .ite ?_ ?_
  · exact h
  · extract_lets _ _ _ _ s1
    have h1 : Kept s₀ s1 := by
      exact .ite (.setEng (.wr (.wr (.wr (.wrB (.wrB (.wrB (.wr (.wr (.ite (.count h) h)))))))))) h
    exact .ite (.setEng h1) (.setEng h1)

theorem runUnit {b : Body} {n x a} (hb : BodyKept b) (h : Kept s₀ s) : Kept s₀ (Machine.runUnit b n s x a).1 := by
  induction n generalizing s x a with
  | zero => exact h
  | succ n ih =>
    unfold Machine.runUnit
    split
    · exact h
    · next hok => exact ih (hb.kept h hok)

theorem stopSettle {n} (h : Kept s₀ s) : Kept s₀ (s.stopSettle n) := by
  unfold State.stopSettle
  extract_lets
  split
  · split
    · exact .ite (.finishSt (.leaveUser (.wr (.setEng h)))) h
    · exact h
  · exact h

theorem noteOverrun {n} (h : Kept s₀ s) : Kept s₀ (s.noteOverrun n) := by
  unfold State.noteOverrun
  split
  · exact h
  · exact .wr h

theorem engExec {b : Body} {e k} (hb : BodyKept b) (h : Kept s₀ s) : Kept s₀ (s.engExec e k b) := by
  unfold State.engExec
  extract_lets x bad n u pend
  refine .ite h (.ite (.engTrap h) ?_)
  clear_value bad
  split
  · exact .engTrap (.setEng h)
  · split
    next t y a fault hr =>
    have ht : Kept s₀ t := .fst hr (.runUnit hb h)
    split
    · exact .engTrap (.setEng ht)
    · extract_lets beats s2 s3 s4 s5
      have h2 : Kept s₀ s2 := .setEng ht
      have h3 : Kept s₀ s3 := .engCount (.engCount (.engCount (.engCount (.engCount (.engCount h2)))))
      have h4 : Kept s₀ s4 := .engCount (.engCount (.engCount (.engCount h3)))
      have h5 : Kept s₀ s5 := .tagRetire (.ite h4 (.count h4))
      exact .ite (.stopSettle (.noteOverrun h5)) h5

end State.Kept

theorem BodyKept.pure {f} : BodyKept (pureBody f) := by
  refine ⟨fun h hb => ?_⟩
  cases hb
  exact h

theorem BodyKept.free {f} : BodyKept (freeBody f) := by
  refine ⟨fun h hb => ?_⟩
  cases hb
  exact .freed h

namespace State.Kept
variable {s₀ s t : State}

/-! ## Machine/AsyanAlu -/

theorem alu {e rd rs rt f} (h : Kept s₀ s) : Kept s₀ (s.alu e rd rs rt f) := .engExec .pure h

theorem aluImm {e rd rs f} (h : Kept s₀ s) : Kept s₀ (s.aluImm e rd rs f) := .engExec .free h

/-! ## Machine/AsyanMem -/

theorem loadValue {e x sp a n} (h : Kept s₀ s) : Kept s₀ (s.loadValue e x sp a n).1 := by
  unfold State.loadValue
  split
  · exact h
  · split
    · exact h
    · exact .freed h
  · exact .freed h

/-! ## Machine/AsyanFlow -/

theorem pmcClear {e i} (h : Kept s₀ s) : Kept s₀ (s.pmcClear e i) := .wr (.wr (.wr h))

theorem pmcSelWrite {e i v} (h : Kept s₀ s) : Kept s₀ (s.pmcSelWrite e i v) :=
  .ite (.pmcClear (.wr (.wr (.wr (.wr (.ite h (.wr h))))))) (.wr (.wr (.wr (.wr (.ite h (.wr h))))))

theorem sysRead {e x num} (h : Kept s₀ s) : KeptIn s₀ (s.sysRead e x num) :=
  .ite (.some h) (.ite (.some h) (.ite (.some h) (.ite (.some h) (.ite (.some h) (.ite (.some h) (.ite (.some h)
    (.ite (.some h) (.ite (.some h) (.ite (.some h) (.ite (.some h) (.ite (.some h) (.ite (.ite (.some h) (.some h))
      (.ite (.some (.freed h)) .none)))))))))))))

theorem sysWrite {e x num v} (h : Kept s₀ s) : KeptIn s₀ (s.sysWrite e x num v) :=
  .ite (.some h) (.ite (.some h) (.ite (.some h) (.ite (.some h) (.ite (.some h) (.ite (.some (.wr (.wr h)))
    (.ite (.some h) (.ite (.some h) (.ite (.some h) (.ite (.some h) (.ite (.some (.ite h (.pmcSelWrite h)))
      (.ite (.some h) (.ite (.some h) .none))))))))))))

theorem suspendSettle {n} (h : Kept s₀ s) : Kept s₀ (s.suspendSettle n) := by
  unfold State.suspendSettle
  extract_lets
  split
  · exact .ite (.leaveUser (.setEng h)) h
  · exact h

theorem matchedTaps (h : Kept s₀ s) : Kept s₀ s.matchedTaps.1 := .keep h

theorem firmwareCall {n num x} (h : Kept s₀ s) : KeptIn s₀ (s.firmwareCall n num x) := by
  unfold State.firmwareCall
  split
  · exact .some h
  · exact .some h
  · exact .ite (.some h) (.ite (.some h) (.some (.setTaps h)))
  · exact .ite (.some h) (.ite (.some h) (.some (.setTaps (.wr (.wr (.matchedTaps h))))))
  · exact .none

/-! ## Machine/Programs -/

theorem runProgramLoad {g f} (h : Kept s₀ s) : Kept s₀ (runProgramLoad s g f) :=
  .finishSt (.wr (.wr (.wr (.setEng (.hodStore h)))))

theorem runProgramCtrl {g f} (h : Kept s₀ s) : Kept s₀ (runProgramCtrl s g f) := by
  unfold Machine.runProgramCtrl
  extract_lets
  split
  · exact .finishSt h
  · split
    · exact .ite (.stopSettle (.setEng h)) (.finishSt (.wr (.setEng h)))
    · exact .finishSt (.wr (.setEng h))
    · exact .finishSt (.wr (.setEng h))

theorem storeBlock {e slot b} (h : Kept s₀ s) : Kept s₀ (s.storeBlock e slot b) := .setEng (.hodStore h)

theorem dpClear {i} (h : Kept s₀ s) : Kept s₀ (s.dpClear i) := .wr (.wr (.wr h))

/-! ## Machine/RingRows -/

theorem heldEnable {r} (h : Kept s₀ s) : Kept s₀ (s.heldEnable r) := .ite (.enable h) h

theorem writeOwner {f r v} (h : Kept s₀ s) : Kept s₀ (s.writeOwner f r v) :=
  .ite h (.ite (.wr h) (.wr (.wr (.wr h))))

theorem writeShape {r v} (h : Kept s₀ s) : Kept s₀ (s.writeShape r v) := .ite (.wr (.wr h)) h

theorem writeEn {r en} (h : Kept s₀ s) : Kept s₀ (s.writeEn r en) :=
  .ite (.ite h (.ite (.enable h) (.wr h))) (.ite (.disable h) (.wr h))

theorem writeCfg {f r v} (h : Kept s₀ s) : Kept s₀ (s.writeCfg f r v) :=
  .ite h (.writeEn (.writeShape (.writeOwner h)))

theorem dropDoorbell {f r} (h : Kept s₀ s) : Kept s₀ (s.dropDoorbell f r) := .wr (.wr (.count h))

theorem sqTail {r t} (h : Kept s₀ s) : Kept s₀ (s.sqTail r t) :=
  .ite (.dpCount h) (.ite (.wr (.dpCount h)) (.ringError (.dpCount h)))

theorem cqHead {r hd} (h : Kept s₀ s) : Kept s₀ (s.cqHead r hd) :=
  .ite (.drainPend (.wr (.dpCount h))) (.ringError (.dpCount h))

theorem doorbell {f r ofs width v} (h : Kept s₀ s) : Kept s₀ (s.doorbell f r ofs width v) := by
  unfold State.doorbell
  refine .ite ?_ ?_
  · exact .keep h
  · refine .ite ?_ ?_
    · exact h
    · refine .ite ?_ ?_
      · exact .dropDoorbell h
      · exact .ite (.dropDoorbell h) (.ite (.ite (.dropDoorbell h) (.sqTail h)) (.cqHead h))

theorem setArb {a} (h : Kept s₀ s) : Kept s₀ (s.setArb a) := .keep h

theorem arbitrate (h : Kept s₀ s) {u n r} (hp : s.arbitrate u n = some (r, t)) : Kept s₀ t := by
  induction n generalizing s with
  | zero => cases hp
  | succ n ih =>
    unfold State.arbitrate at hp
    split at hp
    · split at hp
      · cases hp
      · exact ih (.keep h) hp
    · split at hp
      · exact ih (.keep h) hp
      · extract_lets credit cost at hp
        split at hp
        · cases hp; exact .keep h
        · exact ih (.keep h) hp

theorem serveUnit {u r} (h : Kept s₀ s) : Kept s₀ (s.serveUnit u r) := by
  unfold State.serveUnit
  split
  · exact .setRing h
  · split
    · exact h
    · refine .ite ?_ ?_
      · exact .ringError h
      · extract_lets
        split
        · exact .fetch h
        · refine .ite ?_ ?_
          · exact .fetch h
          · split
            · exact .finishSt (.fetch h)
            · exact .setPhase (.fetch h)
            · exact .fetch h

theorem unmask {f v} (h : Kept s₀ s) : Kept s₀ (s.unmask f v) := .ite (.emit (.setVec h)) (.setVec h)

theorem deliverSrc {src} (h : Kept s₀ s) : Kept s₀ (s.deliverSrc src) := .foldl .deliver (.keep h)

theorem writeMap {src v} (h : Kept s₀ s) : Kept s₀ (s.writeMap src v) :=
  .wr (.wr (.wr (.wr (.wr (.keep (.deliverSrc h))))))

theorem consumeNonce {r} (h : Kept s₀ s) : Kept s₀ (s.consumeNonce r) := .setRing h

theorem sigFail {f} (h : Kept s₀ s) : Kept s₀ (s.sigFail f) := .ite (.count h) (.setFn (.count h))

theorem bindSession {r f slot role idle} (h : Kept s₀ s) : Kept s₀ (s.bindSession r f slot role idle) :=
  .setFn (.wr (.setRing (.endSession h)))

theorem runSessionOpen {o f} (h : Kept s₀ s) : Kept s₀ (runSessionOpen s o f) := by
  unfold Machine.runSessionOpen
  extract_lets _ _ _ _ st s1' s2
  have h1' : Kept s₀ s1' := .ite h (.ite h (.consumeNonce h))
  have h2 : Kept s₀ s2 := by
    unfold s2
    clear_value st
    split
    · exact .bindSession h1'
    · exact .sigFail h1'
    · exact h1'
  exact .ite (.finish (.setRing (.freed h))) (.finishSt h2)

theorem runSessionClose {o x2} (h : Kept s₀ s) : Kept s₀ (runSessionClose s o x2) := .finishSt (.endSession h)

theorem runNop {o x2} (h : Kept s₀ s) : Kept s₀ (runNop s o x2) := .finish h

/-! ## Machine/Ladder -/

theorem setLadder {c x} (h : Kept s₀ s) : Kept s₀ (s.setLadder c x) := .keep h

theorem shedLane {c n} (h : Kept s₀ s) : Kept s₀ (s.shedLane c n) :=
  .clearConfig (.setLane (.ite (.courseYield h) h))

theorem cutBlock {n} (h : Kept s₀ s) : Kept s₀ (s.cutBlock n) := .ite (.setRx h) h

theorem cutLane {n} (h : Kept s₀ s) : Kept s₀ (s.cutLane n) := .setRx (.ite h (.setTaps h))

theorem ladderApply {c step} (h : Kept s₀ s) : Kept s₀ (s.ladderApply c step) := by
  unfold State.ladderApply
  refine .foldl (fun ht1 => ?_) h
  refine .ite ?_ ?_
  · exact .ite (.cutLane ht1) ht1
  · refine .ite ?_ ?_
    · exact .cutBlock (.ite (.cutLane ht1) ht1)
    · exact .ite (.calSettle (.ite (.cutLane ht1) ht1)) (.ite (.cutLane ht1) ht1)

theorem ladderExhausted {c sensor} (h : Kept s₀ s) : Kept s₀ (s.ladderExhausted c sensor) := .raise (.wr h)

theorem ladderTake {c sensor} (h : Kept s₀ s) : Kept s₀ (s.ladderTake c sensor) := by
  unfold State.ladderTake
  split
  · exact h
  · extract_lets st x mark
    have hmark : ∀ {t shed}, Kept s₀ t → Kept s₀ (mark t shed) := fun ht => .wr (.keep ht)
    split
    · exact .ladderExhausted h
    · split
      · split
        · exact .ladderExhausted h
        · exact .ite (.ladderExhausted h) (.raise (.wr (hmark (.shedLane h))))
      · exact .raise (.ladderApply (hmark h))

theorem ladderDue {c sensor} (h : Kept s₀ s) : Kept s₀ (s.ladderDue c sensor) :=
  .ite (.setLadder h) (.ite h (.ladderTake h))

theorem ladderResume {c} (h : Kept s₀ s) : Kept s₀ (s.ladderResume c) := by
  unfold State.ladderResume
  extract_lets
  refine .ite ?_ ?_
  · exact h
  · split
    · exact .ladderDue h
    · exact .setLadder h

theorem ladderResumeAll (h : Kept s₀ s) : Kept s₀ s.ladderResumeAll := .foldl .ladderResume h

theorem ladderReverse {c} (h : Kept s₀ s) : Kept s₀ (s.ladderReverse c) := by
  unfold State.ladderReverse
  refine .ite ?_ ?_
  · exact .wr h
  · extract_lets
    refine .ite ?_ ?_
    · exact .ite (.wr (.wr (.setLadder (.wr h)))) (.wr (.setLadder (.wr h)))
    · split
      · exact .ladderApply (.wr (.wr h))
      · exact .wr h

theorem reverseWrite {v} (h : Kept s₀ s) : Kept s₀ (s.reverseWrite v) :=
  .foldl (fun ht => .ite (.ladderReverse ht) ht) h

/-! ## Machine/Power -/

theorem stopNow {n} (h : Kept s₀ s) : Kept s₀ (s.stopNow n) := by
  unfold State.stopNow
  extract_lets
  split
  · exact .ite (.stopSettle (.setEng h)) h
  · exact h

theorem slackEnd {c} (h : Kept s₀ s) : Kept s₀ (s.slackEnd c) := .setMortar (.surveyNone h)

theorem latchCourse {c} (h : Kept s₀ s) : Kept s₀ (s.latchCourse c) := .ite h (.setPadHeldC (.setPadLatch h))

theorem courseDown {c} (h : Kept s₀ s) : Kept s₀ (s.courseDown c) := by
  unfold State.courseDown
  extract_lets _ s1 s2 s3 s4 s5
  have h1 : Kept s₀ s1 := .foldl (fun ht => .setLane (.stopNow ht)) h
  have h2 : Kept s₀ s2 := .latchCourse (.cmisStop h1)
  have h3 : Kept s₀ s3 := .enginesOff (.setCoursePow h2)
  have h4 : Kept s₀ s4 := .clearRegsOf (.clearRegsOf h3 (by omega)) (by omega)
  have h5 : Kept s₀ s5 := .foldl (fun ht => .setChk (.setBst (.setCal (.setTx (.setRx ht))))) h4
  exact .setCmis (.setMortar (.setEpoch h5))

theorem courseSleep {c} (h : Kept s₀ s) : Kept s₀ (s.courseSleep c) := by
  unfold State.courseSleep
  extract_lets s1 s2
  have h1 : Kept s₀ s1 := .foldl (fun ht => .setRx (.setLane (.stopNow ht))) h
  have h2 : Kept s₀ s2 := .slackEnd (.commitOff (.wr h1))
  exact .foldl .calSettle (.setCoursePow (.foldl .setEng h2))

theorem txRestart {n} (h : Kept s₀ s) : Kept s₀ (s.txRestart n) := .ite (.txCheck (.setTx h)) h

theorem laneWake {n} (h : Kept s₀ s) : Kept s₀ (s.laneWake n) := by
  unfold State.laneWake
  extract_lets _ _ _ s1
  have h1 : Kept s₀ s1 := .ite (.setLane h) (.setTaps (.setLane h))
  exact .ite h1 (.txRestart (.ite (.enterBurst h1) (.enterAcquire (.dropLocks h1))))

theorem courseWake {c} (h : Kept s₀ s) : Kept s₀ (s.courseWake c) :=
  .calTriggers (.foldl .calSettle (.epochRefresh (.foldl .laneWake (.foldl .setEng (.setCoursePow h)))))

theorem courseUp {c cal} (h : Kept s₀ s) : Kept s₀ (s.courseUp c cal) := by
  unfold State.courseUp
  extract_lets s1 s2
  have h1 : Kept s₀ s1 := .enginesOn (.setCoursePow h)
  have h2 : Kept s₀ s2 := .foldl (fun ht => .firstCal (.setLane ht)) h1
  exact .ite (.raise h2) h2

theorem quadDown {q} (h : Kept s₀ s) : Kept s₀ (s.quadDown q) := by
  unfold State.quadDown
  extract_lets s1 s2
  have h1 : Kept s₀ s1 := .foldl (fun ht => .ite (.setLane ht) ht) h
  have h2 : Kept s₀ s2 := .foldl .refreshHost (.setPadHeldQ (.setQuadOn h1))
  exact .foldl (fun ht => .setChk (.setHtx (.setHost ht))) (.clearRegsOf h2 (by omega))

theorem quadUp {q} (h : Kept s₀ s) : Kept s₀ (s.quadUp q) := by
  unfold State.quadUp
  extract_lets _ s2
  have h2 : Kept s₀ s2 := .foldl .refreshHost (.wr (.setQuadOn h))
  exact .ite (.raise (.raise h2)) h2

theorem setFlk {b} (h : Kept s₀ s) : Kept s₀ (s.setFlk b) := .keep h

theorem startTransition {dtype i to_ o alone} (h : Kept s₀ s) : Kept s₀ (s.startTransition dtype i to_ o alone) :=
  .keep (.ite (.foldl (fun ht => .ite (.courseYield ht) ht) h) h)

theorem runPowerSet {g f} (h : Kept s₀ s) : Kept s₀ (runPowerSet s g f) := .ite (.finish h) (.startTransition h)

theorem pwrCtrlWrite {v} (h : Kept s₀ s) : Kept s₀ (s.pwrCtrlWrite v) := by
  unfold State.pwrCtrlWrite
  refine .ite ?_ ?_
  · exact .wr (.wr (.wr h))
  · refine .ite ?_ ?_
    · exact .wr (.wr (.wr (.wr h)))
    · exact .ite (.wr (.wr (.wr h))) (.startTransition (.wr (.wr (.wr h))))

theorem moveDomain {x cal} (h : Kept s₀ s) : Kept s₀ (s.moveDomain x cal) := by
  unfold State.moveDomain
  split
  · exact .ite (.courseDown h) (.ite (.courseSleep h) (.ite (.courseWake h) (.courseUp h)))
  · exact .ite (.quadDown h) (.quadUp h)
  · exact .ite (.setFlk (.flkDown h)) (.flkTestSettle (.setFlk h))

theorem powerDone {dtype i} (h : Kept s₀ s) : Kept s₀ (s.powerDone dtype i) := .foldl .raise h

theorem endTransition {x pll cal} (h : Kept s₀ s) : Kept s₀ (s.endTransition x pll cal) := by
  unfold State.endTransition
  extract_lets _ _ _ _ s2
  have h2 : Kept s₀ s2 := .ite (.moveDomain (.wr (.keep h))) (.wr (.keep h))
  exact .ite (.ladderResume (.startSubst (.finish (.powerDone h2)))) (.finish (.powerDone h2))

theorem powerEnd {pll cal} (h : Kept s₀ s) : Kept s₀ (s.powerEnd pll cal) := by
  unfold State.powerEnd
  split
  · exact .ladderResume (.foldl .finishSt (.powerDone (.courseDown (.keep h))))
  · split
    · exact h
    · exact .ite h (.endTransition h)

theorem abortTransition (h : Kept s₀ s) : Kept s₀ s.abortTransition := by
  unfold State.abortTransition
  split
  · exact h
  · exact .finishSt (.wr (.keep h))

theorem runCourseOffImmediate {g f} (h : Kept s₀ s) : Kept s₀ (runCourseOffImmediate s g f) := by
  unfold Machine.runCourseOffImmediate
  extract_lets _ _ s2 s3
  have h2 : Kept s₀ s2 := .ite (.abortTransition (.stopTests h)) (.stopTests h)
  have h3 : Kept s₀ s3 := .ite (.courseYield h2) h2
  exact .ite (.finishSt h2) (.keep h3)

theorem runPadRelease {g f} (h : Kept s₀ s) : Kept s₀ (runPadRelease s g f) :=
  .ite (.finish (.setPadHeldC h)) (.finish (.setPadHeldQ h))

/-! ## Machine/Update -/

theorem takeLock {r fn} (h : Kept s₀ s) : Kept s₀ (s.takeLock r fn) := .updTo (.wr (.wr (.keep (.emptySlot h))))

theorem runUpdateStage {g f} (h : Kept s₀ s) : Kept s₀ (runUpdateStage s g f) :=
  .ite (.keep (.keep (.hodStore (.ite (.takeLock h) h)))) (.finishSt (.keep (.hodStore (.ite (.takeLock h) h))))

theorem stagedImage {ecc} (h : Kept s₀ s) : Kept s₀ (s.stagedImage ecc).1 := .hodReads h

theorem eraseKeys {p} (h : Kept s₀ s) : Kept s₀ (s.eraseKeys p) := by
  unfold State.eraseKeys
  extract_lets s1
  have h1 : Kept s₀ s1 := .foldl (fun ht => .ite (.keep ht) ht) h
  refine .foldl (fun ht1 => ?_) h1
  split
  · exact .ite (.endSession ht1) ht1
  · exact ht1

theorem endAllSessions (h : Kept s₀ s) : Kept s₀ s.endAllSessions := .foldl .endSession h

theorem lifeToken {target} (h : Kept s₀ s) : Kept s₀ (s.lifeToken target) := by
  unfold State.lifeToken
  extract_lets _ _ s2 _ s2'
  have h2 : Kept s₀ s2 := .eraseKeys (.wr (.keep h))
  have h2' : Kept s₀ s2' := .endAllSessions (.eraseKeys (.wr (.keep h)))
  exact .ite (.ite (.keep h2) (.wr (.keep h))) (.wr (.keep (.keep h2')))

theorem spendToken {img} (h : Kept s₀ s) : Kept s₀ (s.spendToken img) := .ite (.wr (.keep h)) (.lifeToken h)

theorem runUpdateActivate {g f} (h : Kept s₀ s) : Kept s₀ (runUpdateActivate s g f) := by
  unfold Machine.runUpdateActivate
  extract_lets
  split
  · exact .finishSt h
  · exact .ite (.finishSt (.dropImage (.spendToken (.stagedImage h)))) (.updTo (.wr (.wr (.keep h))))

theorem swapEngines (h : Kept s₀ s) : Kept s₀ s.swapEngines :=
  .foldl .engineFresh (.foldl (fun ht => .ite (.ite (.rotationCut (.engineFresh ht)) (.engineFresh ht)) ht) h)

theorem setRunning {i} (h : Kept s₀ s) : Kept s₀ (s.setRunning i) := .wr (.keep h)

theorem seedFormat (h : Kept s₀ s) : Kept s₀ s.seedFormat := .keep h

theorem confirm (h : Kept s₀ s) : Kept s₀ s.confirm := by
  unfold State.confirm
  extract_lets _ _ s2 s3
  have h2 : Kept s₀ s2 := .dropBlocks (.seedFormat (.keep h))
  have h3 : Kept s₀ s3 := .foldl (fun ht => .ite (.writeSeed ht) ht) h2
  exact .updTo (.freeLock (.wr (.keep h3)))

theorem runUpdateConfirm {g x2} (h : Kept s₀ s) : Kept s₀ (runUpdateConfirm s g x2) := .finish (.confirm h)

theorem runUpdateAbort {g x2} (h : Kept s₀ s) : Kept s₀ (runUpdateAbort s g x2) := by
  unfold Machine.runUpdateAbort
  refine .ite ?_ ?_
  · exact .startFallback h
  · extract_lets
    refine .finishSt ?_
    split
    · exact .finishSt (.dropImage h)
    · exact .dropImage h

theorem putRecord {r} (h : Kept s₀ s) : Kept s₀ (s.putRecord r) := .emit (.wr (.keep h))

theorem fuseArb {v} (h : Kept s₀ s) : Kept s₀ (s.fuseArb v) := .wr h

theorem nvmDo {j} (h : Kept s₀ s) : Kept s₀ (s.nvmDo j) := by
  unfold State.nvmDo
  split
  · exact .ite (.wr (.keep (.putRecord h))) (.putRecord h)
  · exact .fuseArb h
  · exact .saveOverlay h

theorem nvmWrite {j} (h : Kept s₀ s) : Kept s₀ (s.nvmWrite j) := .ite (.nvmDo h) (.keep h)

theorem runUpdateCommit {g x2} (h : Kept s₀ s) : Kept s₀ (runUpdateCommit s g x2) := .updTo (.wr (.keep h))

theorem pushWrite {accepted} (h : Kept s₀ s) : Kept s₀ (s.pushWrite accepted) :=
  .ite h (.ite (.wr h) (.wr (.emit (.emit (.filkorQueued (.stagedImage h))))))

/-! ## Machine/Rings -/

theorem deliver' {g d a data} (h : Kept s₀ s) : Kept s₀ (s.deliver' g d a data) := by
  unfold State.deliver'
  split
  · exact .finishSt (.fst ‹_› (.hostWrite h))
  · exact .finish (.fst ‹_› (.hostWrite h))

/-! ## Machine/Identity -/

theorem runAttest {x1 x2} (h : Kept s₀ s) : Kept s₀ (runAttest s x1 x2) := h

theorem runIdentityRead {g f} (h : Kept s₀ s) : Kept s₀ (runIdentityRead s g f) := .deliver' h

theorem runKeyslotWrite {g f} (h : Kept s₀ s) : Kept s₀ (runKeyslotWrite s g f) := .finishSt (.keep (.eraseKeys h))

theorem runKeyslotErase {g f} (h : Kept s₀ s) : Kept s₀ (runKeyslotErase s g f) := .finishSt (.keep (.eraseKeys h))

/-! ## Machine/Restart -/

theorem flrVf {f} (h : Kept s₀ s) : Kept s₀ (s.flrVf f) := .setFn (.keep (.foldl .killRing h))

theorem flrPf (h : Kept s₀ s) : Kept s₀ s.flrPf := .foldl .setFn (.keep (.foldl (fun ht => .wr (.killRing ht)) h))

theorem clearCore (h : Kept s₀ s) : Kept s₀ s.clearCore := by
  unfold State.clearCore
  extract_lets s1 left s2
  have h1 : Kept s₀ s1 := .clearRegs (.clearRegs (.clearRegs (.clearRegs (.clearRegs h))))
  have h2 : Kept s₀ s2 := .remove h1 fun q hq => by simp only [Bool.or_eq_true, decide_eq_true_eq]; omega
  exact .clearRegs (.clearRegs h2)

theorem coreDown {hodKept} (h : Kept s₀ s) : Kept s₀ (s.coreDown hodKept) := by
  unfold State.coreDown
  extract_lets _ s2 s3 s4 _ _ _ _ _ src''
  have h2 : Kept s₀ s2 := .foldl (fun ht => .ite (.courseDown ht) ht) (.flrPf h)
  have h3 : Kept s₀ s3 := .foldl (fun ht => .ite (.quadDown ht) ht) h2
  have h4 : Kept s₀ s4 := .holdRaises (.ite (.setFlk (.flkDown h3)) h3)
  have hrc'' : Kept s₀ src'' := .clearRegs (.keep (.clearCore h4))
  exact .ite (.wr (.wr (.keep (.keep (.clearCore h4))))) (.wr (.keep hrc''))

theorem dropSel (h : Kept s₀ s) : Kept s₀ s.dropSel := .foldl .setOwnSel h

theorem nextLife (h : Kept s₀ s) : Kept s₀ s.nextLife := by
  unfold State.nextLife
  split
  · exact .wr (.wr (.keep h))
  · exact h

theorem warmReset {p} (h : Kept s₀ s) : Kept s₀ (s.warmReset p) := by
  have h1 : Kept s₀ (s.coreDown false).dropSel.biasThermReset.nextLife :=
    .nextLife (.biasThermReset (.dropSel (.coreDown h)))
  refine ⟨(warmReset_pending s p).trans h1.pending, (warmReset_bgFused s p).trans h1.bgFused, ?_⟩
  rw [warmReset_regs]
  exact .remove h1.regs _ fun q hq => keepsWarm_of_keepsCold (keepsCold_of_lt hq)

theorem coldReset (h : Kept s₀ s) : Kept s₀ s.coldReset := by
  have h1 : Kept s₀ (s.coreDown false).dropSel.biasThermReset.nextLife :=
    .nextLife (.biasThermReset (.dropSel (.coreDown h)))
  refine ⟨(coldReset_pending s).trans h.pending, (coldReset_bgFused s).trans h1.bgFused, ?_⟩
  rw [coldReset_regs]
  exact .remove h1.regs _ fun _ hq => keepsCold_of_lt hq

theorem noteFail {slot cause} (h : Kept s₀ s) : Kept s₀ (s.noteFail slot cause) := .ite (.wr h) (.wr h)

theorem recordFallback {slot i} (h : Kept s₀ s) : Kept s₀ (s.recordFallback slot i) := .ite (.putRecord h) h

theorem firstChoice {b} (h : Kept s₀ s) : Kept s₀ (s.firstChoice b).2.2 := by
  unfold State.firstChoice
  split
  · exact h
  · split
    · exact h
    · split
      · exact h
      · extract_lets n _ s1
        have h1 : Kept s₀ s1 := .wr (.keep h)
        split
        · exact .recordFallback (.noteFail h1)
        · exact h1

theorem loadSlot {b slot i trial active} (h : Kept s₀ s) : Kept s₀ (s.loadSlot b slot i trial active) :=
  .wrB (.wrB (.wr (.wr (.keep h))))

theorem haltKeep (h : Kept s₀ s) : Kept s₀ s.haltKeep := .keep (.wr h)

theorem chooseSlot {b} (h : Kept s₀ s) : Kept s₀ (s.chooseSlot b) := by
  unfold State.chooseSlot
  extract_lets active
  split
  next slot trial s1 hc =>
  have h1 : Kept s₀ s1 := by simpa only [hc] using firstChoice (b := b) h
  extract_lets img s2 prev
  have h2 : Kept s₀ s2 := .noteFail h1
  split
  · exact .loadSlot h1
  · split
    · exact .loadSlot (.recordFallback h2)
    · exact .haltKeep (.ite (.noteFail h2) h2)

theorem keepTestFault {k} (h : Kept s₀ s) : Kept s₀ (s.keepTestFault k) := .raise (.setCore h)

theorem mapTested {bad e} (h : Kept s₀ s) : Kept s₀ (s.mapTested bad e) := by
  unfold State.mapTested
  split
  · exact .engineEvent (.wr (.wr h))
  · exact .engineEvent (.setEngMap h)

theorem spareTested {bad i} (h : Kept s₀ s) : Kept s₀ (s.spareTested bad i) :=
  .ite (.mapTested (.wr (.setEngMap h))) (.setEngMap h)

theorem startTests {b} (h : Kept s₀ s) : Kept s₀ (s.startTests b) := by
  unfold State.startTests
  extract_lets _ _ s1 _ s3
  have h1 : Kept s₀ s1 := .wr (.wr (.wr (.keep h)))
  have h3 : Kept s₀ s3 := .foldl (fun ht => .wr (.wr ht)) (.ite h1 (.raise h1))
  refine .foldl (fun ht1 => ?_) h3
  exact .ite (.spareTested ht1) (.ite ht1 (.ite (.keepTestFault ht1) (.ite ht1 (.mapTested ht1))))

theorem readMram {b} (h : Kept s₀ s) : Kept s₀ (s.readMram b) := .keep h

theorem readOverlay {b} (h : Kept s₀ s) : Kept s₀ (s.readOverlay b) := .ite (.wr (.keep h)) h

theorem boot {b p} (h : Kept s₀ s) : Kept s₀ (s.boot b p) :=
  .chooseSlot (.startTests (.wr (.clearRegs (.readMram (.keep h)))))

theorem sampleStrap {b} (h : Kept s₀ s) : Kept s₀ (s.sampleStrap b) := .wr (.keep h)

theorem loadTrip (h : Kept s₀ s) : Kept s₀ s.loadTrip := by
  unfold State.loadTrip
  split
  · exact .ite h (.wr (.wr (.wr (.wr (.wr h)))))
  · exact h

theorem leaveReset {b} (h : Kept s₀ s) : Kept s₀ (s.leaveReset b) :=
  .ite (.keep h) (.boot (.readOverlay (.loadTrip (.sampleStrap h))))

theorem judgeDoorbells (h : Kept s₀ s) : Kept s₀ s.judgeDoorbells := .foldl .dropDoorbell (.keep h)

theorem enterDKeep (h : Kept s₀ s) : Kept s₀ s.enterDKeep := .keep (.wr (.coreDown h))

/-! ## Machine/Thermal -/

theorem setSensor {t x} (h : Kept s₀ s) : Kept s₀ (s.setSensor t x) := .keep h

theorem sensorFail {t} (h : Kept s₀ s) : Kept s₀ (s.sensorFail t) := by
  unfold State.sensorFail
  extract_lets s1
  have h1 : Kept s₀ s1 := .wr (.wr (.wr (.wr (.wr h))))
  exact .ite (.raise (.setSensor (.wr h1))) (.foldl .raise (.setSensor (.wr h1)))

theorem latchTrip {t reading} (h : Kept s₀ s) : Kept s₀ (s.latchTrip t reading) :=
  .wr (.wr (.wr (.wr (.wr (.wr (.keep h))))))

theorem preemptAll (h : Kept s₀ s) : Kept s₀ s.preemptAll := .foldl .finishSt (.keep (.abortTransition h))

theorem yieldAll (h : Kept s₀ s) : Kept s₀ s.yieldAll :=
  .ite (.emit (.filkorQueued (.foldl .courseYield h))) (.foldl .courseYield h)

theorem thermalShutdown {t reading} (h : Kept s₀ s) : Kept s₀ (s.thermalShutdown t reading) := by
  unfold State.thermalShutdown
  extract_lets _ s2 s3
  have h2 : Kept s₀ s2 := .yieldAll (.stopTests (.preemptAll (.latchTrip h)))
  have h3 : Kept s₀ s3 := .coreDown (.biasThermOff h2)
  split
  · exact .biasThermOff (.latchTrip h)
  · exact .biasThermOff (.latchTrip h)
  · exact .biasThermOff (.latchTrip h)
  · exact .keep h3

theorem sensorSample {t v} (h : Kept s₀ s) : Kept s₀ (s.sensorSample t v) := by
  unfold State.sensorSample
  extract_lets
  split
  split
  split
  extract_lets s1 s2 _ s4 s5 s6
  have h1 : Kept s₀ s1 := .countWrap (.wr (.setSensor h))
  have h2 : Kept s₀ s2 := .wrB (.wrB (.wrB (.wrB h1)))
  have h4 : Kept s₀ s4 := .raiseRise (.foldl .raiseRise h2)
  have h5 : Kept s₀ s5 := .ite (.foldl .ladderDue h4) h4
  have h6 : Kept s₀ s6 := .ite (.calTriggers h5) h5
  exact .ite (.thermalShutdown h6) h6

theorem restartDwell (h : Kept s₀ s) : Kept s₀ s.restartDwell := .foldl .setSensor h

theorem threshWrite {v} (h : Kept s₀ s) : Kept s₀ (s.threshWrite v) :=
  .ite h (.ite (.wr h) (.restartDwell (.wr (.wr (.wr (.wr (.wr h)))))))

/-! ## Machine/TwinLink -/

theorem sendCaps (h : Kept s₀ s) : Kept s₀ s.sendCaps := .emit (.freed h)

theorem retrain (h : Kept s₀ s) : Kept s₀ s.retrain := .ite (.linkTo (.keep h)) h

theorem fl2Enter (h : Kept s₀ s) : Kept s₀ s.fl2Enter := .ite (.wr (.wr (.linkTo (.keep h)))) h

theorem fl2Leave (h : Kept s₀ s) : Kept s₀ s.fl2Leave :=
  .ite (.flkTestSettle (.keep (.ite (.foldl (fun ht => .wr (.wr ht)) (.linkTo (.wr (.wr h)))) (.wr (.wr h))))) h

theorem flkCtrlWrite {v} (h : Kept s₀ s) : Kept s₀ (s.flkCtrlWrite v) := by
  unfold State.flkCtrlWrite
  extract_lets _ s2 s3
  have h2 : Kept s₀ s2 := .ite (.wr (.wrB h)) (.wrB h)
  have h3 : Kept s₀ s3 := .ite (.fl2Enter h2) (.fl2Leave h2)
  exact .ite (.retrain h3) h3

theorem flkPrbsWrite {i v} (h : Kept s₀ s) : Kept s₀ (s.flkPrbsWrite i v) := by
  unfold State.flkPrbsWrite
  extract_lets _ s2 s3 _ s5
  have h2 : Kept s₀ s2 := .wr (.wr (.wr (.wr (.wr h))))
  have h3 : Kept s₀ s3 := .ite h2 (.setChk (.wr h2))
  have h5 : Kept s₀ s5 := .ite (.emit (.flkTestSettle h3)) (.flkTestSettle h3)
  exact .ite (.wr h5) h5

theorem setFields {m} (h : Kept s₀ s) : Kept s₀ (s.setFields m) :=
  .foldlOn (p := fun p => 8 ≤ p.1.addr) (fun _ hp => setSlots_addr hp) (fun hp ht => .ite ht (.wrOf ht hp)) h

theorem setLanes {m old} (h : Kept s₀ s) : Kept s₀ (s.setLanes old m) := by
  unfold State.setLanes
  extract_lets s1
  have h1 : Kept s₀ s1 := by
    refine .foldl (fun ht1 => ?_) h
    extract_lets _ _ _ t2 t3
    have ht2 : Kept s₀ t2 := .setFields (.txConfigure (.clearCounts ht1))
    have ht3 : Kept s₀ t3 := .ite (.enterBurst ht2) (.startAcquire ht2)
    exact .ite ht1 (.ite (.setLane (.clearCounts ht1)) (.hostReconfigure (.hostReconfigure ht3)))
  exact .foldl (fun ht => .ite ht (.txCheck (.setTx ht))) h1

theorem setBiases {m} (h : Kept s₀ s) : Kept s₀ (s.setBiases m) := by
  unfold State.setBiases
  refine .ite ?_ ?_
  · exact h
  · refine .foldl (fun ht1 => ?_) h
    extract_lets _ t1
    have ht11 : Kept s₀ t1 := .ite (.biasWrite ht1) ht1
    exact .ite (.ite ht11 (.biasEnable ht11)) (.ite (.biasDisable ht11) ht11)

theorem setPower {m} (h : Kept s₀ s) : Kept s₀ (s.setPower m) := by
  unfold State.setPower
  extract_lets _ _ t _ t' s2
  have ht : Kept s₀ t := .ite h (.ite (.quadUp h) (.quadDown h))
  have ht' : Kept s₀ t' := by
    refine .ite ?_ ?_
    · exact .courseUp (.ite h (.setPadHeldQ ht))
    · exact .ite (.courseWake (.ite h (.setPadHeldQ ht))) (.ite h (.setPadHeldQ ht))
  have h2 : Kept s₀ s2 := by
    refine .ite ?_ ?_
    · exact .ite h (.setPadHeldQ ht)
    · exact .ite (.courseDown (.ite h (.setPadHeldQ ht))) (.ite (.courseSleep ht') ht')
  exact .setPadHeldC h2

theorem takeSet {m} (h : Kept s₀ s) : Kept s₀ (s.takeSet m) := by
  unfold State.takeSet
  extract_lets _ _ s2
  have h2 : Kept s₀ s2 := .setBiases (.setFields (.setPower h))
  exact .ite h (.ite h2 (.epochRefresh (.setEpoch (.setLanes h2))))

theorem pairTo {st} (h : Kept s₀ s) : Kept s₀ (s.pairTo st) := .ite (.keep h) (.twinTo h)

theorem startPairing {q} (h : Kept s₀ s) : Kept s₀ (s.startPairing q) := by
  unfold State.startPairing
  extract_lets _ _ s2 s3
  have h2 : Kept s₀ s2 := .keep (.wr (.pairTo h))
  have h3 : Kept s₀ s3 := .ite (.foldl (fun ht => .ite (.setOwnSel ht) ht) h2) h2
  exact .foldl (fun ht => .ite (.emit (.filkorQueued ht)) ht) (.wr h3)

theorem capsFail {cause} (h : Kept s₀ s) : Kept s₀ (s.capsFail cause) := .wr (.pairTo (.keep h))

theorem heartbeat (h : Kept s₀ s) : Kept s₀ s.heartbeat := .emit (.filkorQueued (.keep h))

theorem handoverReady {c} (h : Kept s₀ s) : Kept s₀ (s.handoverReady c) := .ite (.ite (.keep h) (.setOwnSel h)) h

theorem releaseArmed {c} (h : Kept s₀ s) : Kept s₀ (s.releaseArmed c) :=
  .endMoves (.setOwnSel (.foldl .finish (.keep h)))

/-! ## Machine/Mmio -/

theorem readEffect {d} (h : Kept s₀ s) : Kept s₀ (s.readEffect d) := by
  refine .foldlOn (p := fun p => p.1.acc ≠ .ro → 8 ≤ p.1.addr) (fun _ hp => slotsAt_addr hp) (fun {t p} hp ht => ?_) h
  split
  · next hrc => exact .wrOf ht (hp (by simp [hrc]))
  · exact .ite (.setEng ht) ht

theorem placeEffect {x1} (h : Kept s₀ s) : Kept s₀ (s.placeEffect x1) := by
  unfold State.placeEffect
  split
  · exact .ite h (.readEffect h)
  · exact h

theorem logOff {ps wr} (h : Kept s₀ s) : Kept s₀ (s.logOff ps wr) := by
  unfold State.logOff
  split
  · exact .logOffDomain h
  · exact h

theorem mmioLive {f a n d ps} (h : Kept s₀ s) : Kept s₀ (s.mmioLive f a n d ps) :=
  .emit (.setShadow (.logOff (.foldl .placeEffect h)))

theorem mmioRead {f a n} (h : Kept s₀ s) : Kept s₀ (s.mmioRead f a n) := by
  unfold State.mmioRead
  refine .ite ?_ ?_
  · exact .unsupported h
  · extract_lets ds ps
    clear_value ds
    clear_value ps
    split
    · exact .ite (.emit (.setShadow h)) (.mmioLive h)
    · exact .mmioLive h
    · exact h

/-! ## Machine/MmioWrite -/

theorem writeSlot {old w v p} (hp : p.1.acc ≠ .ro → 8 ≤ p.1.addr) (h : Kept s₀ s) :
    Kept s₀ (State.writeSlot old w v s p) := by
  unfold State.writeSlot
  split
  next f i j =>
  extract_lets k lo n x new
  split
  · next ha => exact .wrOf h (hp (by simp [ha]))
  · next ha => exact .ite h (.wrOf h (hp (by simp [ha])))
  · next ha => exact .ite (.wrOf h (hp (by simp [ha]))) h
  · exact h
  · exact h
  · exact h
  · exact h

theorem plainWrite {d v} (h : Kept s₀ s) : Kept s₀ (s.plainWrite d v) :=
  .foldlOn (fun _ hp => slotsAt_addr hp) .writeSlot h

theorem txCtrlWrite {n v} (h : Kept s₀ s) : Kept s₀ (s.txCtrlWrite n v) := by
  unfold State.txCtrlWrite
  extract_lets _ _ _ _ s2 _ s4
  have h2 : Kept s₀ s2 := .ite (.setTx (.wr (.wr (.wr (.wr h))))) (.wr (.wr (.wr (.wr h))))
  have h4 : Kept s₀ s4 := .txCheck (.ite h2 (.maskWrite h2))
  exact .ite (.firCommit h4) h4

theorem burstCntClear {n} (h : Kept s₀ s) : Kept s₀ (s.burstCntClear n) :=
  .foldlOn (p := fun f => 8 ≤ f.addr) (by decide) (fun hf ht => .wrOf ht hf) h

theorem bstCtrlWritten {n v} (h : Kept s₀ s) : Kept s₀ (s.bstCtrlWritten n v) :=
  .ite (.wr (.setBst (.ite (.burstCntClear h) h))) (.ite (.burstCntClear h) h)

theorem dpSelWrite {i v} (h : Kept s₀ s) : Kept s₀ (s.dpSelWrite i v) :=
  .ite (.dpClear (.wr (.wr (.wr (.wr (.ite h (.wr h))))))) (.wr (.wr (.wr (.wr (.ite h (.wr h))))))

theorem pmcCtrlWrite {v} (h : Kept s₀ s) : Kept s₀ (s.pmcCtrlWrite v) := .ite (.foldl .wr (.wr h)) (.wr h)

theorem tagCtrlWritten {e old} (h : Kept s₀ s) : Kept s₀ (s.tagCtrlWritten old e) := .ite (.setEng h) h

theorem updCtrlWrite {v} (h : Kept s₀ s) : Kept s₀ (s.updCtrlWrite v) := .ite (.pushWrite (.freed (.wr h))) (.wr h)

theorem writeGlb {d v f i} (h : Kept s₀ s) : Kept s₀ (s.writeGlb d v f i) := by
  unfold State.writeGlb
  refine .ite ?_ ?_
  · exact .pwrCtrlWrite h
  · refine .ite ?_ ?_
    · exact .threshWrite h
    · refine .ite ?_ ?_
      · exact .ite (.plainWrite h) (.restartDwell (.plainWrite h))
      · refine .ite ?_ ?_
        · exact .reverseWrite h
        · refine .ite ?_ ?_
          · exact .updCtrlWrite h
          · refine .ite ?_ ?_
            · exact .writeMap h
            · exact .ite (.ite (.bandgapRelease (.plainWrite h)) (.plainWrite h)) (.plainWrite h)

theorem writeCrs {d v f c} (h : Kept s₀ s) : Kept s₀ (s.writeCrs d v f c) :=
  .ite (.ite (.slackMinClr (.setMortar (.plainWrite h))) (.setMortar (.plainWrite h))) (.plainWrite h)

theorem rxCtrlWritten {n old} (h : Kept s₀ s) : Kept s₀ (s.rxCtrlWritten old n) := .ite (.setRx h) h

theorem writeLn {d v f n} (h : Kept s₀ s) : Kept s₀ (s.writeLn d v f n) := by
  unfold State.writeLn
  refine .ite ?_ ?_
  · exact .rxCtrlWritten (.plainWrite h)
  · refine .ite ?_ ?_
    · exact .setRx (.plainWrite h)
    · refine .ite ?_ ?_
      · exact .setRx (.plainWrite h)
      · refine .ite ?_ ?_
        · exact .ctleForce (.plainWrite h)
        · refine .ite ?_ ?_
          · exact .setTarget (.plainWrite h)
          · refine .ite ?_ ?_
            · exact .slicesSettle (.plainWrite h)
            · refine .ite ?_ ?_
              · exact .txCtrlWrite h
              · refine .ite ?_ ?_
                · exact .stageWrite h
                · refine .ite ?_ ?_
                  · exact .prbsWrite h
                  · refine .ite ?_ ?_
                    · exact .ite (.ocmZero (.ocmFreeze h)) (.ocmFreeze h)
                    · exact .ite (.bstCtrlWritten (.plainWrite h)) (.plainWrite h)

theorem hostCtrlWritten {k old} (h : Kept s₀ s) : Kept s₀ (s.hostCtrlWritten old k) := .ite h (.refreshSig (.wr h))

theorem writeHl {d v f k} (h : Kept s₀ s) : Kept s₀ (s.writeHl d v f k) := by
  unfold State.writeHl
  refine .ite ?_ ?_
  · exact .hostCtrlWritten (.plainWrite h)
  · refine .ite ?_ ?_
    · exact .ite (.trainRestart (.plainWrite h)) (.plainWrite h)
    · exact .ite (.txEqWrite h) (.ite (.hostPrbsWrite h) (.plainWrite h))

theorem writeFlk {d v f i} (h : Kept s₀ s) : Kept s₀ (s.writeFlk d v f i) :=
  .ite (.flkCtrlWrite h) (.ite (.twinCfgWritten (.plainWrite h)) (.ite (.flkPrbsWrite h) (.plainWrite h)))

theorem writeSupervise {d v f i} (h : Kept s₀ s) : Kept s₀ (s.writeSupervise d v f i) := by
  unfold State.writeSupervise
  refine .ite ?_ ?_
  · exact .biasFlagWrite h
  · refine .ite ?_ ?_
    · exact .scCtrlWritten (.plainWrite h)
    · exact .ite (.decCfgWritten (.plainWrite h)) (.ite (.decThrWritten (.plainWrite h)) (.plainWrite h))

theorem writeRing {fn d v f r} (h : Kept s₀ s) : Kept s₀ (s.writeRing fn d v f r) :=
  .ite (.writeCfg h) (.ite (.ite (.plainWrite h) h) (.plainWrite h))

theorem writeEng {d v f e j} (h : Kept s₀ s) : Kept s₀ (s.writeEng d v f e j) :=
  .ite (.pmcSelWrite h) (.ite (.tagCtrlWritten (.plainWrite h)) (.ite h (.plainWrite h)))

theorem writeDword {fn d v} (h : Kept s₀ s) : Kept s₀ (s.writeDword fn d v) := by
  unfold State.writeDword
  split
  · exact h
  · split
    · exact .writeGlb h
    · exact .writeCrs h
    · exact .writeLn h
    · exact .writeHl h
    · exact .writeFlk h
    · exact .writeFlk h
    · exact .writeSupervise h
    · exact .writeSupervise h
    · exact .writeSupervise h
    · exact .writeSupervise h
    · exact .writeSupervise h
    · exact .ite (.dpSelWrite h) (.ite (.pmcCtrlWrite h) (.plainWrite h))
    · exact .writeRing h
    · exact .writeEng h
    · exact .plainWrite h
    · exact .plainWrite h
    · exact .plainWrite h

theorem vecWrite {f v k x} (h : Kept s₀ s) : Kept s₀ (s.vecWrite f v k x) :=
  .ite (.setVec h) (.ite (.setVec h) (.ite (.setVec h) (.ite (.setVec h) (.unmask h))))

theorem placeWrite {f p v} (h : Kept s₀ s) : Kept s₀ (s.placeWrite f p v) := by
  unfold State.placeWrite
  split
  · exact .ite h (.writeDword h)
  · exact .vecWrite h
  · exact h
  · exact h

theorem mmioWrite {f a n v} (h : Kept s₀ s) : Kept s₀ (s.mmioWrite f a n v) :=
  .ite (.unsupported h) (.ite (.count (.setShadow h)) (.logOff (.foldl .placeWrite (.setShadow h))))

/-! ## Machine/CfgCmds -/

theorem applyTriple {cls t a x} (h : Kept s₀ a.1) : Kept s₀ (State.applyTriple cls t a x).1 := .writeDword h

theorem runCfgWrite {g f} (h : Kept s₀ s) : Kept s₀ (runCfgWrite s g f) := .finish (.foldlFst .applyTriple h)

theorem runSnapshot {g f} (h : Kept s₀ s) : Kept s₀ (runSnapshot s g f) := by
  unfold Machine.runSnapshot
  extract_lets
  split
  · exact .finish (.fst ‹_› (.hostWrite h))
  · exact .finish (.fst ‹_› (.hostWrite h))

theorem readSurveys {ecc n vs} (h : Kept s₀ s) : Kept s₀ (s.readSurveys ecc n vs).1 := by
  induction vs generalizing s with
  | nil => exact h
  | cons v vs ih =>
    unfold State.readSurveys
    split
    next hr => exact ih (.fst hr (.hodReadsOf h))

/-- A SURVEY_READ's run keeps the state's regs, said of the function before it is applied: applied, its body would be
evaluated by the kernel down to the order of sequence numbers modulo 2^32. -/
structure SurveyKept (run : List EccHit → State → Origin → Flight → State) : Prop where
  kept : ∀ ⦃s₀ s ecc g f⦄, Kept s₀ s → Kept s₀ (run ecc s g f)

theorem SurveyKept.run : SurveyKept Machine.runSurveyRead := by
  delta Machine.runSurveyRead
  refine ⟨fun s₀ s ecc g f h => ?_⟩
  have hs : ∀ n rs, Kept s₀ (s.readSurveys ecc n rs).1 := fun _ _ => .readSurveys h
  extract_lets n x rs
  clear_value rs
  split
  next h0 =>
  split
  next h1 => exact .finish (.fst h1 (.hostWrite (.fst h0 (hs n rs))))
  next h1 => exact .finish (.fst h1 (.hostWrite (.fst h0 (hs n rs))))

theorem runSurveyRead {ecc g f} (h : Kept s₀ s) : Kept s₀ (runSurveyRead ecc s g f) :=
  SurveyKept.run.kept h

/-! ## Machine/Mirror -/

theorem mirrorRun {o chk run g f} (hm : Machine.mirrorRun o = some (chk, run)) (h : Kept s₀ s) :
    Kept s₀ (run s g f) := by
  unfold Machine.mirrorRun at hm
  split at hm <;> cases hm
  · exact .runLaneConfig h
  · exact .runLaneState h
  · exact .runLaneFir h
  · exact .runCfgWrite h
  · exact .runSchedWrite h
  · exact .runPowerSet h
  · exact .runCourseOffImmediate h
  · exact .runPadRelease h
  · exact .runCalibrate h
  · exact .runBiasSet h
  · exact .runQuench h

theorem frameTaken {q} (h : Kept s₀ s) : Kept s₀ (s.frameTaken q) := .wr (.keep h)

theorem dropOut {q} (h : Kept s₀ s) : Kept s₀ (s.dropOut q) := .keep h

theorem unmirror {r fid} (h : Kept s₀ s) : Kept s₀ (s.unmirror r fid) := .setRing h

theorem mirrorFails {m cause} (h : Kept s₀ s) : Kept s₀ (s.mirrorFails m cause) :=
  .endMoves (.finishSt (.unmirror (.keep (.twinDegrade (.dropOut h)))))

theorem runTwinHandover {g f} (h : Kept s₀ s) : Kept s₀ (runTwinHandover s g f) :=
  .emit (.filkorQueued (.keep (.startMove h)))

theorem runTwinTakeover {g f} (h : Kept s₀ s) : Kept s₀ (runTwinTakeover s g f) := .takeCourse h

theorem readLog {ecc k xs} (h : Kept s₀ s) : Kept s₀ (s.readLog ecc k xs).1 := by
  induction xs generalizing s k with
  | nil => exact h
  | cons x xs ih =>
    unfold State.readLog
    split
    next hr => exact ih (.fst hr (.hodReadsOf h))

theorem runTwinLogQuery {ecc g f} (h : Kept s₀ s) : Kept s₀ (runTwinLogQuery ecc s g f) := by
  unfold Machine.runTwinLogQuery
  split
  extract_lets _ ms
  clear_value ms
  split
  · exact .finish (.fst ‹_› (.readLog h))
  · exact .finish (.fst ‹_› (.readLog h))

end State.Kept

/-! ## What the engines' instructions do beside their engine -/

theorem BodyKept.mac {n f} : BodyKept (macBody n f) := by
  refine ⟨fun h hb => ?_⟩
  cases hb
  exact h

theorem BodyKept.branch {taken to_} : BodyKept (branchBody taken to_) := by
  refine ⟨fun h hb => ?_⟩
  cases hb
  exact h

theorem BodyKept.load {e n rd m busy ecc f} : BodyKept (loadBody e n rd m busy ecc f) := by
  refine ⟨fun h hb => ?_⟩
  unfold loadBody at hb
  split at hb
  · cases hb
  · extract_lets sp hit at hb
    split at hb
    · cases hb
    · split at hb
      · cases hb
      · split at hb
        next hp =>
        cases hb
        split at hp
        · cases hp; exact .freed h
        · exact .fst hp (.loadValue h)

theorem BodyKept.store {e n m busy v bad} : BodyKept (storeBody e n m busy v bad) := by
  refine ⟨fun h hb => ?_⟩
  unfold storeBody at hb
  split at hb
  · cases hb
  · split at hb
    extract_lets y' acct at hb
    clear_value y' acct
    split at hb
    · cases hb; exact h
    · cases hb; exact .emit h
    · cases hb

end Sys2Proof.Machine
end

section
/-! `State.Kept` through the commands, and the register file's canonical form along the run. -/

namespace Sys2Proof.Machine

namespace Answers
open State
variable {s₀ s t : State}

/-! ## Machine/Format -/

theorem execCodewordDecode {n llr std} (h : Kept s₀ s) : Answers s₀ (execCodewordDecode n llr std s) := by
  unfold Machine.execCodewordDecode
  refine .next ?_
  extract_lets _ _ _ _ _ _ s1
  have h1 : Kept s₀ s1 := .ite (.farPush (.freed h)) (.dpCount (.farPush (.freed h)))
  refine .ite ?_ ?_
  · exact h
  · refine .ite ?_ ?_
    · exact .decideM100 h
    · refine .ite ?_ ?_
      · exact .decodeM200 (.freed h)
      · refine .ite ?_ ?_
        · exact .deliverInfo h1
        · split
          · exact .deliverInfo (.burstCodeword (.countCodeword h1))
          · exact .deliverInfo (.burstCodeword (.countCodeword h1))

theorem execHostAlignmentMarkerLock {k lock at_} (h : Kept s₀ s) :
    Answers s₀ (execHostAlignmentMarkerLock k lock at_ s) := by
  unfold Machine.execHostAlignmentMarkerLock
  refine .next ?_
  extract_lets _ _ _ _ _ _ s1
  have h1 : Kept s₀ s1 := .ite (.wrB (.setHost h)) (.wrB (.setHost h))
  exact .ite h (.ite (.ite (.wr (.wr (.ite h1 (.deskew h1)))) (.wr (.wr h1))) (.wr (.wr h1)))

/-! ## Machine/Receive -/

theorem execCdrLock {n det} (h : Kept s₀ s) : Answers s₀ (execCdrLock n det s) :=
  .next (.ite h (.ite (.cdrRun h) (.slicesSettle (.ite (.wr (.wr (.cdrRun h))) (.wr (.cdrRun h))))))

theorem execFrameLockTimeout {n} (h : Kept s₀ s) : Answers s₀ (execFrameLockTimeout n s) := by
  unfold Machine.execFrameLockTimeout
  refine .next ?_
  extract_lets
  split
  · exact .ite (.acqNext (.setRx (.upTo h))) (.setRx h)
  · exact h

theorem execGradientBlockEnd {n g mse lev} (h : Kept s₀ s) : Answers s₀ (execGradientBlockEnd n g mse lev s) := by
  unfold Machine.execGradientBlockEnd
  refine .next ?_
  extract_lets _ _ _ _ _ s2
  have h2 : Kept s₀ s2 := .ite (.setRx h) (.setTaps (.setRx h))
  exact .ite h (.ite (.setRx h) (.ite h (.ite h2 (.setRx h2))))

/-! ## Machine/Slices -/

theorem execCalStepDone {n m} (h : Kept s₀ s) : Answers s₀ (execCalStepDone n m s) := by
  unfold Machine.execCalStepDone
  refine .next ?_
  split
  · exact h
  · refine .ite ?_ ?_
    · exact .calSettle h
    · extract_lets _ _ _ _ s1
      have h1 : Kept s₀ s1 := by
        unfold s1
        split
        · exact .refreshS (.setSlice (.ite (.groupEnd h) h))
        · exact .suspectTurn (.setSlice (.ite (.groupEnd h) h))
        · exact .rangeTurn (.setSlice (.ite (.groupEnd h) h))
      exact .startGroups (.slicesSettle h1)

theorem execShadowStart {n} (h : Kept s₀ s) : Answers s₀ (execShadowStart n s) := by
  unfold Machine.execShadowStart
  refine .next ?_
  extract_lets _ s1
  have h1 : Kept s₀ s1 := by
    unfold s1
    split
    · exact .upTo h
    · exact h
  split
  · exact h
  · refine .ite ?_ ?_
    · exact h
    · split
      · exact .ite (.setSlice (.setCal h)) h
      · exact .ite (.setSlice (.setCal h1)) h

theorem execShadowCompareDone {n ms win} (h : Kept s₀ s) : Answers s₀ (execShadowCompareDone n ms win s) := by
  unfold Machine.execShadowCompareDone
  refine .next ?_
  extract_lets
  split
  · exact h
  · refine .ite ?_ ?_
    · exact .slicesSettle h
    · extract_lets
      split
      · exact .slicesSettle (.suspectTurn (.shadowFailed h))
      · exact .slicesSettle (.rangeTurn (.shadowFailed h))
      · refine .ite ?_ ?_
        · exact .slicesSettle (.setCal (.setSlice h))
        · exact .ite (.setCal (.setSlice h)) (.slicesSettle (.suspectTurn (.shadowFailed (.setSlice h))))

theorem execCaptureComplete {n w} (h : Kept s₀ s) : Answers s₀ (execCaptureComplete n w s) := by
  unfold Machine.execCaptureComplete
  refine .next ?_
  split
  · exact .ite (.slicesSettle (.endCapture h)) h
  · exact h

theorem execCaptureTimeout {n w} (h : Kept s₀ s) : Answers s₀ (execCaptureTimeout n w s) := by
  unfold Machine.execCaptureTimeout
  refine .next ?_
  split
  · exact .ite h (.slicesSettle (.endCapture (.upTo h)))
  · exact h

theorem execSurveyEnd {n m} (h : Kept s₀ s) : Answers s₀ (execSurveyEnd n m s) :=
  .next (.ite h (.ite (.writeRetireMap (.watch (.survey (.upTo h)))) (.watch (.survey (.upTo h)))))

theorem execCalGroupDone {n ms} (h : Kept s₀ s) : Answers s₀ (execCalGroupDone n ms s) := by
  unfold Machine.execCalGroupDone
  refine .next ?_
  split
  · exact h
  · exact .ite (.calSettle h) (.ite h (.startGroups (.groupEnd h)))

theorem execForegroundCalDone {n slices groups} (h : Kept s₀ s) :
    Answers s₀ (execForegroundCalDone n slices groups s) := by
  unfold Machine.execForegroundCalDone
  refine .next ?_
  extract_lets _ _ _ _ _ s2
  have h2 : Kept s₀ s2 := .slicesSettle (.setTx (.fullCal (.setCal h)))
  split
  · exact h
  · exact .finish h2

theorem execBandgapCheck {r0 r1} (h : Kept s₀ s) : Answers s₀ (execBandgapCheck r0 r1 s) := by
  unfold Machine.execBandgapCheck
  refine .next ?_
  exact .ite h (.ite (.bandgapFreeze (.wrB (.keep (.wrB (.wr (.wr h)))))) (.wrB (.keep (.wrB (.wr (.wr h))))))

/-! ## Machine/Burst -/

theorem execEpochBoundary {c} (h : Kept s₀ s) : Answers s₀ (execEpochBoundary c s) := by
  unfold Machine.execEpochBoundary
  refine .next ?_
  split
  · exact h
  · refine .ite ?_ ?_
    · exact h
    · extract_lets _ _ _ s2 _ s4
      have h2 : Kept s₀ s2 := .ite (.wr (.setEpoch h)) (.count (.countWrap (.setEpoch h)))
      have h4 : Kept s₀ s4 := by
        unfold s4
        split
        · exact .ite (.activateBank (.foldl .laneBoundary h2)) (.foldl .laneBoundary h2)
        · exact .foldl .laneBoundary h2
      exact .ite (.emit h4) h4

theorem execSlotArm {n i} (h : Kept s₀ s) : Answers s₀ (execSlotArm n i s) := by
  unfold Machine.execSlotArm
  refine .next ?_
  split
  · exact h
  · exact .ite h (.ite (.burstException h) (.ite (.setBst h) (.armSlot h)))

theorem execBurstOnset {n level} (h : Kept s₀ s) : Answers s₀ (execBurstOnset n level s) := by
  unfold Machine.execBurstOnset
  refine .next ?_
  split
  · exact h
  · exact .ite h (.startOnset h)

theorem execBurstDetect {n m} (h : Kept s₀ s) : Answers s₀ (execBurstDetect n m s) := by
  unfold Machine.execBurstDetect
  refine .next ?_
  extract_lets
  split
  · exact h
  · refine .ite ?_ ?_
    · exact h
    · refine .ite ?_ ?_
      · exact .setTaps (.setRx (.setSoft (.setTarget (.setPhase6 (.setBst h)))))
      · exact .setTaps (.setRx (.setSoft (.setTarget (.setPhase6 (.setBst h)))))

theorem execSdMatch {n peaks sd m} (h : Kept s₀ s) : Answers s₀ (execSdMatch n peaks sd m s) := by
  unfold Machine.execSdMatch
  refine .next ?_
  extract_lets _ _ _ _ _ s1
  have h1 : Kept s₀ s1 := .setRx (.setBst (.freed h))
  split
  · exact h
  · exact .ite h (.setPhase6 (.toCtl (.wr (.wr (.wr h1)))))

theorem execFalseStart {n at_} (h : Kept s₀ s) : Answers s₀ (execFalseStart n at_ s) := by
  unfold Machine.execFalseStart
  refine .next ?_
  split
  · exact h
  · refine .ite ?_ ?_
    · exact h
    · extract_lets s1
      have h1 : Kept s₀ s1 := .burstException (.count h)
      exact .ite (.receiverFree (.slotMissed h1)) (.rearm h1)

theorem execBurstPolicyTrigger {m} (h : Kept s₀ s) : Answers s₀ (execBurstPolicyTrigger m s) := by
  unfold Machine.execBurstPolicyTrigger
  refine .next ?_
  extract_lets
  split
  · exact h
  · refine .ite ?_ ?_
    · exact h
    · refine .ite ?_ ?_
      · exact .receiverFree (.setBst (.endBurst h))
      · exact .ite (.fromStep3 (.wr (.setBst (.endBurst (.count h))))) (.rearm (.endBurst (.count h)))

theorem execEdTest {n r g lev p95} (h : Kept s₀ s) : Answers s₀ (execEdTest n r g lev p95 s) := by
  unfold Machine.execEdTest
  refine .next ?_
  extract_lets
  split
  · exact h
  · exact .ite h (.receiverFree (.ite (.learnSource (.endBurst h)) (.endBurst (.count h))))

theorem execSlotMissed {n} (h : Kept s₀ s) : Answers s₀ (execSlotMissed n s) := by
  unfold Machine.execSlotMissed
  refine .next ?_
  refine .ite ?_ ?_
  · exact h
  · exact .ite (.burstException (.setPhase6 (.setBst h))) (.ite (.setPhase6 (.setBst h)) (.slotMissed h))

theorem execTxHeaderReceived {n block at_} (h : Kept s₀ s) : Answers s₀ (execTxHeaderReceived n block at_ s) := by
  unfold Machine.execTxHeaderReceived
  refine .next ?_
  extract_lets _ _ bad
  have hbad : Kept s₀ bad := .burstException (.count h)
  refine .ite ?_ ?_
  · exact h
  · refine .ite ?_ ?_
    · exact h
    · split
      · exact hbad
      · exact .ite hbad (.ite (.burstException (.count h)) (.setBst h))

theorem execTxSlotStart {n i} (h : Kept s₀ s) : Answers s₀ (execTxSlotStart n i s) := by
  unfold Machine.execTxSlotStart
  refine .next ?_
  extract_lets
  refine .ite ?_ ?_
  · exact h
  · split
    · exact h
    · exact .ite (.burstException h) (.ite (.startTxBurst (.setBst h)) (.burstException (.count (.setBst h))))

/-! ## Machine/Mortar -/

theorem execPulseLost {c} (h : Kept s₀ s) : Answers s₀ (execPulseLost c s) := by
  unfold Machine.execPulseLost
  refine .next ?_
  extract_lets _ s1
  have h1 : Kept s₀ s1 := by
    unfold s1
    split
    · exact .wr h
    · exact .wr h
  exact .ite h (.raiseRise h1)

/-! ## Machine/HostLanes -/

theorem execHostTrainTimeout {k} (h : Kept s₀ s) : Answers s₀ (execHostTrainTimeout k s) := by
  unfold Machine.execHostTrainTimeout
  refine .next ?_
  extract_lets
  refine .ite ?_ ?_
  · exact h
  · split
    · exact .startTraining (.upTo h)
    · exact .count (.wr (.setHost (.upTo h)))

theorem execSigLockChange {k pll los cdr} (h : Kept s₀ s) : Answers s₀ (execSigLockChange k pll los cdr s) := by
  unfold Machine.execSigLockChange
  refine .next ?_
  refine .ite ?_ ?_
  · exact h
  · extract_lets _ _ _ _ s2
    have h2 : Kept s₀ s2 := .ite (.wrB h) (.ite (.hostEq (.wrB (.wrB (.wrB h)))) (.wrB (.wrB (.wrB h))))
    exact .ite (.refreshSig h2) (.foldl .refreshSig h2)

theorem execCheckerLock {p count bits} (h : Kept s₀ s) : Answers s₀ (execCheckerLock p count bits s) := by
  unfold Machine.execCheckerLock
  refine .next ?_
  extract_lets
  split
  · exact .ite h (.checkBits h (by decide) (by decide))
  · exact .ite h (.checkBits h (by decide) (by decide))
  · exact .ite h (.checkBits h (by decide) (by decide))

/-! ## Machine/Bias -/

theorem execBiasParkStep {b} (h : Kept s₀ s) : Answers s₀ (execBiasParkStep b s) := by
  unfold Machine.execBiasParkStep
  refine .next ?_
  refine .ite ?_ ?_
  · exact h
  · split
    · exact .biasOpenBall h
    · exact .biasJoin h
    · exact h

/-! ## Machine/Supervise -/

theorem execInjectedRunEnd {x uv entry} (h : Kept s₀ s) : Answers s₀ (execInjectedRunEnd x uv entry s) := by
  unfold Machine.execInjectedRunEnd
  refine .next ?_
  exact .ite h (.startRun (.refSettle (.ite (.endHostRun (.markShifted h)) (.endSystemRun (.markShifted h)))))

/-! ## Machine/Cmis -/

theorem execCmisPoll {c m} (h : Kept s₀ s) : Answers s₀ (execCmisPoll c m s) := by
  unfold Machine.execCmisPoll
  refine .next ?_
  extract_lets _ _ _ _ s1
  have h1 : Kept s₀ s1 := .countWrap (.wr (.wrB (.wrB h)))
  exact .ite h (.ite (.raise (.setCmis h1)) (.setCmis h1))

theorem execCmisBusTimeout {c} (h : Kept s₀ s) : Answers s₀ (execCmisBusTimeout c s) := by
  unfold Machine.execCmisBusTimeout
  refine .next ?_
  extract_lets
  refine .ite ?_ ?_
  · exact h
  · refine .ite ?_ ?_
    · exact .cmisSend (.setCmis h)
    · split
      · exact .setCmis (.wr h)
      · exact .finishSt (.cmisNext (.wr h))

theorem execCmisAccessDone {c data} (h : Kept s₀ s) : Answers s₀ (execCmisAccessDone c data s) := by
  unfold Machine.execCmisAccessDone
  refine .next ?_
  refine .ite ?_ ?_
  · exact h
  · split
    · exact h
    · exact .ite (.finishSt (.cmisNext h)) (.finishSt (.hostWrite (.cmisNext h)))

/-! ## Machine/Bist -/

theorem execBistRunEnd {code q} (h : Kept s₀ s) : Answers s₀ (execBistRunEnd code q s) := by
  unfold Machine.execBistRunEnd
  refine .next ?_
  split
  · exact h
  · exact .bistAfter (.bistRecord (.keep (.foldl .bistRetire h)))

/-! ## Machine/EngineOps -/

theorem execEngineSubstituted {ecc} (h : Kept s₀ s) : Answers s₀ (execEngineSubstituted ecc s) := by
  unfold Machine.execEngineSubstituted
  refine .next ?_
  split
  · exact h
  · refine .ite ?_ ?_
    · exact h
    · extract_lets _ _ s2 s3
      have h2 : Kept s₀ s2 := .engineEvent (.engineFresh (.setEngMap (.keep h)))
      have h3 : Kept s₀ s3 := .ite (.calSettle h2) (.ite (.cmisSend h2) h2)
      exact .startSubst h3

/-! ## Machine/AsyanAlu -/

theorem execEngDmac {e a rs rt hs ht} (h : Kept s₀ s) : Answers s₀ (execEngDmac e a rs rt hs ht s) := by
  refine .next (.engExec ⟨fun ht hb => ?_⟩ h)
  split at hb <;> cases hb
  exact ht

theorem execEngExt {e rd a sh} (h : Kept s₀ s) : Answers s₀ (execEngExt e rd a sh s) := by
  refine .next (.engExec ⟨fun ht hb => ?_⟩ h)
  split at hb <;> cases hb
  exact ht

/-! ## Machine/AsyanFlow -/

theorem execEngBal {e ofs} (h : Kept s₀ s) : Answers s₀ (execEngBal e ofs s) := by
  refine .next (.engExec ⟨fun ht hb => ?_⟩ h)
  cases hb
  exact ht

theorem execEngMfs {e rd num} (h : Kept s₀ s) : Answers s₀ (execEngMfs e rd num s) := by
  refine .next (.engExec ⟨fun ht hb => ?_⟩ h)
  split at hb
  · cases hb
  · split at hb
    · cases hb
    · next hr => cases hb; exact State.Kept.sysRead ht _ hr

theorem execEngMts {e rs num} (h : Kept s₀ s) : Answers s₀ (execEngMts e rs num s) := by
  refine .next (.engExec ⟨fun ht hb => ?_⟩ h)
  split at hb
  · cases hb
  · split at hb
    · cases hb
    · next hw => cases hb; exact State.Kept.sysWrite ht _ hw

theorem execEngWait {e} (h : Kept s₀ s) : Answers s₀ (execEngWait e s) := by
  refine .next (.engExec ⟨fun ht hb => ?_⟩ h)
  split_ifs at hb <;> cases hb <;> exact ht

theorem execEngineWake {e src level early} (h : Kept s₀ s) : Answers s₀ (execEngineWake e src level early s) := by
  unfold Machine.execEngineWake
  refine .next ?_
  extract_lets
  refine .ite ?_ ?_
  · exact h
  · refine .ite ?_ ?_
    · exact h
    · split
      · exact .ite (.engCount (.setEng h)) (.setEng h)
      · exact .setEng h

theorem execEngineInterrupt {e} (h : Kept s₀ s) : Answers s₀ (execEngineInterrupt e s) := by
  unfold Machine.execEngineInterrupt
  refine .next ?_
  extract_lets
  refine .ite ?_ ?_
  · exact h
  · split
    · exact h
    · exact .engCount (.engCount (.setEng h))

theorem execEngRti {e} (h : Kept s₀ s) : Answers s₀ (execEngRti e s) := by
  refine .next (.engExec ⟨fun ht hb => ?_⟩ h)
  cases hb
  exact ht

theorem execBudgetExhausted {n} (h : Kept s₀ s) : Answers s₀ (execBudgetExhausted n s) := by
  unfold Machine.execBudgetExhausted
  refine .next ?_
  extract_lets
  split
  · exact .ite (.suspendSettle (.setEng h)) h
  · exact h

theorem execBudgetPeriod {n} (h : Kept s₀ s) : Answers s₀ (execBudgetPeriod n s) := by
  unfold Machine.execBudgetPeriod
  refine .next ?_
  extract_lets
  split
  · exact .ite (.setEng h) (.setEng h)
  · exact h

theorem execEngSvc {e num beats} (h : Kept s₀ s) : Answers s₀ (execEngSvc e num beats s) := by
  unfold Machine.execEngSvc
  refine .next ?_
  extract_lets t
  have ht : Kept s₀ t := by
    refine .engExec ⟨fun hu hb => ?_⟩ h
    extract_lets y at hb
    split at hb
    · split at hb
      · cases hb
      · next hc => cases hb; exact State.Kept.firmwareCall hu _ hc
    · cases hb; exact .keep hu
  exact .ite (.suspendSettle ht) ht

/-! ## Machine/Programs -/

theorem execStateBlockWrite {e data} (h : Kept s₀ s) : Answers s₀ (execStateBlockWrite e data s) :=
  .next (.ite h (.ite (.storeBlock h) (.ite (.storeBlock h) (.storeBlock (.storeBlock h)))))

theorem execPmcClear {p} (h : Kept s₀ s) : Answers s₀ (execPmcClear p s) := by
  unfold Machine.execPmcClear
  refine .next ?_
  split
  · exact .regAccess .pmcClear h
  · exact .regAccess .dpClear h

theorem execPmcCounterWrap {p} (h : Kept s₀ s) : Answers s₀ (execPmcCounterWrap p s) := by
  unfold Machine.execPmcCounterWrap
  refine .next ?_
  split
  · exact .ite (.pmcAdd h) h
  · exact .ite (.dpAdd h) h

/-! ## Machine/RingRows -/

theorem execWorkUnitServe {u} (h : Kept s₀ s) : Answers s₀ (execWorkUnitServe u s) := by
  refine .next (.ite ?_ h)
  split
  · next hp => exact .dpCount (.dpCount (.serveUnit (h.arbitrate hp)))
  · exact .keep h

theorem execEventRecordWrite (h : Kept s₀ s) : Answers s₀ (execEventRecordWrite s) := by
  unfold Machine.execEventRecordWrite
  refine .next ?_
  refine .ite ?_ ?_
  · split
    · exact h
    · exact .deliver (.keep h)
  · exact h

theorem execNonceExpiry {r} (h : Kept s₀ s) : Answers s₀ (execNonceExpiry r s) := by
  unfold Machine.execNonceExpiry
  refine .next ?_
  split
  · exact h
  · exact .setRing (.upTo h)

theorem execSessionIdleExpiry {r} (h : Kept s₀ s) : Answers s₀ (execSessionIdleExpiry r s) := by
  unfold Machine.execSessionIdleExpiry
  refine .next ?_
  split
  · exact h
  · exact .endSession (.upTo h)

/-! ## Machine/Ladder -/

theorem execStepWaitExpiry {c} (h : Kept s₀ s) : Answers s₀ (execStepWaitExpiry c s) := by
  unfold Machine.execStepWaitExpiry
  refine .next ?_
  extract_lets
  refine .ite ?_ ?_
  · exact h
  · split
    · exact .setLadder h
    · exact .ladderDue (.upTo h)

/-! ## Machine/Update -/

theorem execImageVerifyDone {ecc} (h : Kept s₀ s) : Answers s₀ (execImageVerifyDone ecc s) := by
  unfold Machine.execImageVerifyDone
  refine .next ?_
  refine .ite ?_ ?_
  · exact h
  · extract_lets
    split
    extract_lets _ _ s2
    have h2 : Kept s₀ s2 := .keep (.fst ‹_› (.stagedImage h))
    exact .ite (.finish (.updTo (.wr (.keep h2)))) (.finishSt (.dropImage h2))

theorem execActivationComplete (h : Kept s₀ s) : Answers s₀ (execActivationComplete s) := by
  unfold Machine.execActivationComplete
  refine .next ?_
  split
  · exact .ite h (.finishSt (.updTo (.keep (.wr (.swapEngines (.setRunning h))))))
  · exact h

theorem execFallbackEnd (h : Kept s₀ s) : Answers s₀ (execFallbackEnd s) := by
  unfold Machine.execFallbackEnd
  refine .next ?_
  split
  · exact h
  · refine .ite ?_ ?_
    · exact h
    · extract_lets _ _ _ _ s0 s2 s3 _ _ _ s4
      have h0 : Kept s₀ s0 := .seedFormat (.swapEngines (.setRunning (.keep h)))
      have h2 : Kept s₀ s2 := .wr (.ite (.dropBlocks h0) h0)
      have h3 : Kept s₀ s3 := .updTo (.freeLock (.emptySlot h2))
      have h4 : Kept s₀ s4 := .ite (.nvmWrite (.wr (.keep h3))) h3
      exact .finishSt h4

theorem execCommitRecordWritten {good ecc} (h : Kept s₀ s) : Answers s₀ (execCommitRecordWritten good ecc s) := by
  unfold Machine.execCommitRecordWritten
  refine .next ?_
  split
  · split
    extract_lets _ _ s2 _ s3
    have h2 : Kept s₀ s2 := .emit (.keep (.fst ‹_› (.stagedImage h)))
    have h3 : Kept s₀ s3 := .wr (.emptySlot (.putRecord h2))
    exact .ite (.finishSt (.updTo h2)) (.ite (.finishSt (.updTo h2)) (.finishSt (.updTo (.keep h3))))
  · exact h

theorem execBootTrialHealthy (h : Kept s₀ s) : Answers s₀ (execBootTrialHealthy s) :=
  .next (.ite h (.ite (.nvmWrite (.nvmWrite (.wr (.keep (.upTo h))))) (.nvmWrite (.wr (.keep (.upTo h))))))

theorem execForemanRestartDone (h : Kept s₀ s) : Answers s₀ (execForemanRestartDone s) := by
  unfold Machine.execForemanRestartDone
  refine .next ?_
  refine .ite ?_ ?_
  · exact h
  · extract_lets _ s2 s3
    have h2 : Kept s₀ s2 := .startSubst (.judgeHeldAll (.foldl .setCore h))
    have h3 : Kept s₀ s3 := .ite (.startFallback h2) h2
    exact .ladderResumeAll h3

theorem execTwinImageOffer {n} (h : Kept s₀ s) : Answers s₀ (execTwinImageOffer n s) := by
  unfold Machine.execTwinImageOffer
  refine .next ?_
  exact .ite (.emit (.filkorQueued (.updTo (.wr (.keep (.emptySlot h)))))) (.ite (.emit (.filkorQueued h)) h)

theorem execTwinImageReceived {data} (h : Kept s₀ s) : Answers s₀ (execTwinImageReceived data s) := by
  unfold Machine.execTwinImageReceived
  refine .next ?_
  split
  · exact h
  · exact .wr (.keep (.hodStore h))

/-! ## Machine/Identity -/

theorem execAttestationSigned {r} (h : Kept s₀ s) : Answers s₀ (execAttestationSigned r s) := by
  unfold Machine.execAttestationSigned
  refine .next ?_
  split
  · exact h
  · exact .ite (.finishSt h) (.deliver' h)

/-! ## Machine/Restart -/

theorem execDeviceReady (h : Kept s₀ s) : Answers s₀ (execDeviceReady s) := by
  unfold Machine.execDeviceReady
  refine .next ?_
  refine .ite ?_ ?_
  · exact h
  · extract_lets _ _ _ s2 s3 s4 _ s6
    have h2 : Kept s₀ s2 := .wr (.wr (.wr (.wr (.keep h))))
    have h3 : Kept s₀ s3 := .ite (.flkTestSettle (.setFlk h2)) h2
    have h4 : Kept s₀ s4 := .judgeHeldAll (.judgeDoorbells h3)
    have h6 : Kept s₀ s6 := .foldl (fun ht => .ite (.remodel ht) (.setOwnSel ht)) (.ite (.raise h4) h4)
    exact .ladderResumeAll h6

theorem execPcieLinkTrained {speed width flit} (h : Kept s₀ s) :
    Answers s₀ (execPcieLinkTrained speed width flit s) :=
  .next (.ite h (.raiseRise (.ite (.wrB (.wrB (.wr (.wr h)))) (.wr (.wrB (.wrB (.wr (.wr h))))))))

theorem execTapInstruction {i} (h : Kept s₀ s) : Answers s₀ (execTapInstruction i s) := by
  unfold Machine.execTapInstruction
  refine .next ?_
  extract_lets d
  clear_value d
  split
  · exact .emit (.keep h)
  · exact .emit (.keep h)
  · exact .emit (.keep h)
  · exact .emit (.keep h)
  · exact .emit (.keep h)
  · exact .emit (.keep h)
  · exact .emit (.keep h)
  · exact .emit (.keep h)

/-! ## Machine/Thermal -/

theorem execTripRecordCopy (h : Kept s₀ s) : Answers s₀ (execTripRecordCopy s) := by
  unfold Machine.execTripRecordCopy
  refine .next ?_
  split
  · exact .ite (.keep h) h
  · exact h

/-! ## Machine/TwinLink -/

theorem execCapsFrameReceived {q} (h : Kept s₀ s) : Answers s₀ (execCapsFrameReceived q s) := by
  unfold Machine.execCapsFrameReceived
  refine .next ?_
  refine .ite ?_ ?_
  · exact h
  · extract_lets _ _ s1
    have h1 : Kept s₀ s1 := .wr (.linkTo (.keep (.ite (.sendCaps h) h)))
    exact .ite h1 (.ite (.startPairing h1) (.capsFail h1))

theorem execHeartbeatReceived {hd} (h : Kept s₀ s) : Answers s₀ (execHeartbeatReceived hd s) := by
  unfold Machine.execHeartbeatReceived
  refine .next ?_
  refine .ite ?_ ?_
  · exact h
  · refine .foldl (fun ht1 => ?_) (.wr (.keep h))
    exact .handoverReady (.ite (.releaseArmed (.ite (.takeCourse ht1) ht1)) (.ite (.takeCourse ht1) ht1))

theorem execTwinSilence (h : Kept s₀ s) : Answers s₀ (execTwinSilence s) := by
  unfold Machine.execTwinSilence
  refine .next ?_
  refine .ite ?_ ?_
  · exact h
  · extract_lets s1 _ s2
    have h1 : Kept s₀ s1 := .twinDegrade (.wr (.upTo h))
    have h2 : Kept s₀ s2 := .endMoves (.foldl .finishSt (.keep h1))
    exact .ite (.foldl (fun ht => .ite ht (.takeCourse ht)) h2) h2

theorem execTxBlockBoundary {n m} (h : Kept s₀ s) : Answers s₀ (execTxBlockBoundary n m s) := by
  unfold Machine.execTxBlockBoundary
  refine .next ?_
  extract_lets _ s1 s2
  have h1 : Kept s₀ s1 := .pathArrive (.txBoundary h)
  have h2 : Kept s₀ s2 := .hostBlocks (.sendBlock h1)
  exact .ite (.setOwnSel h2) h2

/-! ## Machine/Mirror -/

theorem execMirrorFrameReceived {q r op e d} (h : Kept s₀ s) :
    Answers s₀ (execMirrorFrameReceived q r op e d s) := by
  refine .next (.ite h ?_)
  extract_lets g c
  split
  · exact .keep (.filkorQueued (.ite (.frameTaken h) (.takeCourse (.frameTaken h))))
  · split
    · exact .finishSt (.frameTaken h)
    · split
      · exact .finishSt (.frameTaken h)
      · next hm =>
        split
        · exact h
        · exact .finishSt (.frameTaken h)
        · split
          · exact .finish (.frameTaken h)
          · exact .mirrorRun hm (.frameTaken h)

theorem execMirrorAckReceived {q st} (h : Kept s₀ s) : Answers s₀ (execMirrorAckReceived q st s) := by
  refine .next (.ite h ?_)
  split
  · exact h
  · refine .ite (.mirrorFails (.wr h)) ?_
    split
    · exact .keep (.wr h)
    · next hm =>
      obtain ⟨o, -, hm⟩ := Option.bind_eq_some_iff.mp hm
      exact .mirrorRun hm (.keep (.wr h))

theorem execMirrorAckTimeout (h : Kept s₀ s) : Answers s₀ (execMirrorAckTimeout s) := by
  unfold Machine.execMirrorAckTimeout
  refine .next ?_
  split
  · exact h
  · exact .ite h (.ite (.emit (.filkorQueued (.count (.keep (.upTo h))))) (.mirrorFails (.upTo h)))

theorem execPairingWaitTimeout {r} (h : Kept s₀ s) : Answers s₀ (execPairingWaitTimeout r s) := by
  unfold Machine.execPairingWaitTimeout
  refine .next ?_
  split
  · exact h
  · extract_lets
    split
    · exact .finishSt (.upTo h)
    · exact h

theorem execTakeoverTimeout {c} (h : Kept s₀ s) : Answers s₀ (execTakeoverTimeout c s) := by
  unfold Machine.execTakeoverTimeout
  refine .next ?_
  split
  · exact h
  · exact .endMoves (.foldl .finish (.keep (.upTo h)))

/-! ## Machine/Dispatch -/

/-- Every command answers a next state and has only written the register file, field by field. -/
theorem exec (h : Kept s₀ s) : ∀ c, Answers s₀ (exec c s)
  | .coldReset => .next (.coldReset h)
  | .warmReset => .next (.warmReset h)
  | .perstRelease .. => .next (.ite (.leaveReset h) h)
  | .deviceReady => .execDeviceReady h
  | .supplyLoss .. => .next (.ite (.coldReset h) (.warmReset h))
  | .supplyRestored .. => .next (.ite (.leaveReset h) h)
  | .vbiasPowerUp => .next (.ite h (.wr (.wr (.biasClear h))))
  | .vbiasLoss => .next (.ite (.wr (.biasClear h)) h)
  | .functionLevelReset .. => .next (.ite h (.ite (.flrPf h) (.flrVf h)))
  | .dKeepEntry => .next (.ite h (.ite (.keep h) (.enterDKeep h)))
  | .dKeepExit .. => .next (.ite (.startSubst (.boot (.wr (.clearRegs (.keep h))))) h)
  | .vfD3hot .. => .next (.ite h (.setFn h))
  | .pcieLinkTrained .. => .execPcieLinkTrained h
  | .regWrite .. => .next (.mmioWrite h)
  | .regReadClear .. => .next (.mmioRead h)
  | .regLoRead .. => .next (.mmioRead h)
  | .offDomainAccess .. => .next (.ite (.unsupported h) (.ite h (.ite (.logOff (.setShadow h)) (.mmioRead h))))
  | .ringEnable .. => .next (.ite (.writeCfg (.setShadow h)) (.unsupported h))
  | .ringDisable .. => .next (.ite (.writeCfg (.setShadow h)) (.unsupported h))
  | .ringQuiesced .. => .next (.ite h (.ite (.heldEnable (.wr h)) (.ite (.heldEnable h) h)))
  | .ringOwnerWrite .. => .next (.ite (.writeCfg (.setShadow h)) (.unsupported h))
  | .sqTailDoorbell .. => .next (.doorbell h)
  | .cqHeadDoorbell .. => .next (.doorbell h)
  | .workUnitServe .. => .execWorkUnitServe h
  | .eventRecordWrite => .execEventRecordWrite h
  | .coalesceTimerExpiry .. => .next (.ite h (.sendOwed (.upTo h)))
  | .msixVectorUnmask .. => .next (.ite (.unmask h) h)
  | .evtMapWrite .. => .next (.ite (.unsupported h) (.ite (.setShadow h) (.writeMap (.setShadow h))))
  | .sessionOpen .. => .next (.serve .runSessionOpen h)
  | .lockoutExpiry .. => .next (.setFn (.upTo h))
  | .nonceExpiry .. => .execNonceExpiry h
  | .sessionClose .. => .next (.serve .runSessionClose h)
  | .sessionIdleExpiry .. => .execSessionIdleExpiry h
  | .nop .. => .next (.serve .runNop h)
  | .laneConfig .. => .next (.serve .runLaneConfig h)
  | .laneState .. => .next (.serve .runLaneState h)
  | .laneFir .. => .next (.serve .runLaneFir h)
  | .cfgWrite .. => .next (.serve .runCfgWrite h)
  | .schedWrite .. => .next (.serve .runSchedWrite h)
  | .powerSet .. => .next (.serve .runPowerSet h)
  | .powerTransitionEnd .. => .next (.ite h (.ite (.enterDKeep (.powerEnd h)) (.powerEnd h)))
  | .pwrGo .. => .next (.ite h (.regAccess .pwrCtrlWrite h))
  | .courseOffImmediate .. => .next (.serve .runCourseOffImmediate h)
  | .padRelease .. => .next (.serve .runPadRelease h)
  | .snapshot .. => .next (.serve .runSnapshot h)
  | .surveyRead .. => .next (.serve .runSurveyRead h)
  | .captureStart .. => .next (.serve .runCaptureStart h)
  | .captureTrigger .. => .next (.keep h)
  | .captureComplete .. => .execCaptureComplete h
  | .captureTimeout .. => .execCaptureTimeout h
  | .captureDrain .. => .next (.serve .runCaptureDrain h)
  | .captureFree .. => .next (.serve .runCaptureFree h)
  | .hodFill .. => .next (.serve .runHodFill h)
  | .hodWrite .. => .next (.serve .runHodWrite h)
  | .hodRead .. => .next (.serve .runHodRead h)
  | .seedSave .. => .next (.serve (fun ht => .finishSt (.writeSeed ht)) h)
  | .seedErase .. => .next (.serve (fun ht => .finishSt (.keep ht)) h)
  | .retireMapClear .. => .next (.serve (fun ht => .finishSt (.keep ht)) h)
  | .calibrate .. => .next (.serve .runCalibrate h)
  | .foregroundCalDone .. => .execForegroundCalDone h
  | .biasSet .. => .next (.serve .runBiasSet h)
  | .quench .. => .next (.serve .runQuench h)
  | .scInject .. => .next (.serve .hostTrigger h)
  | .cmisRead .. => .next (.serve .runCmis h)
  | .cmisWrite .. => .next (.serve .runCmis h)
  | .updateStage .. => .next (.serve .runUpdateStage h)
  | .imageVerifyDone .. => .execImageVerifyDone h
  | .updateActivate .. => .next (.serve .runUpdateActivate h)
  | .activationComplete => .execActivationComplete h
  | .trialHealthy => .next (.ite h (.ite (.wr (.upTo h)) (.confirm (.wr (.upTo h)))))
  | .updateConfirm .. => .next (.serve .runUpdateConfirm h)
  | .updateAbort .. => .next (.serve .runUpdateAbort h)
  | .confirmWindowExpiry => .next (.ite (.startFallback (.upTo h)) h)
  | .fallbackEnd => .execFallbackEnd h
  | .updateCommit .. => .next (.serve .runUpdateCommit h)
  | .commitRecordWritten .. => .execCommitRecordWritten h
  | .bootTrialHealthy => .execBootTrialHealthy h
  | .bootTrialWindowExpiry => .next (.ite (.bootFallback (.upTo h)) h)
  | .nvmWriteRetry => .next (.ite h (.foldl .nvmDo (.keep h)))
  | .twinImagePush .. => .next (.ite h (.regAccess .pushWrite h))
  | .twinImageOffer .. => .execTwinImageOffer h
  | .twinImageReceived .. => .execTwinImageReceived h
  | .attest .. => .next (.serve .runAttest h)
  | .identityRead .. => .next (.serve .runIdentityRead h)
  | .keyslotWrite .. => .next (.serve .runKeyslotWrite h)
  | .keyslotErase .. => .next (.serve .runKeyslotErase h)
  | .bistRun .. => .next (.serve .runBistRun h)
  | .bistRunEnd .. => .execBistRunEnd h
  | .twinHandover .. => .next (.serve .runTwinHandover h)
  | .twinTakeover .. => .next (.serve .runTwinTakeover h)
  | .takeoverTimeout .. => .execTakeoverTimeout h
  | .twinLogQuery .. => .next (.serve .runTwinLogQuery h)
  | .programLoad .. => .next (.serve .runProgramLoad h)
  | .programCtrl .. => .next (.serve .runProgramCtrl h)
  | .engineFailure .. => .next (.ite h (.ite (.engineFail h) (.ite h (.ite h (.ite (.setEngMap (.wr h)) h)))))
  | .engineSubstituted .. => .execEngineSubstituted h
  | .keepCoreFault .. => .next (.ite h (.keepFault h))
  | .foremanFault .. => .next (.ite h (.foremanFault h))
  | .foremanRestartDone => .execForemanRestartDone h
  | .watchdogExpiry .. => .next (.ite h (.anyEngineFail h))
  | .engineInterrupt .. => .execEngineInterrupt h
  | .engineWake .. => .execEngineWake h
  | .engAdd .. => .next (.engExec .pure h)
  | .engSub .. => .next (.engExec .free h)
  | .engAnd .. => .next (.alu h)
  | .engOr .. => .next (.alu h)
  | .engXor .. => .next (.alu h)
  | .engSll .. => .next (.alu h)
  | .engSrl .. => .next (.alu h)
  | .engSra .. => .next (.alu h)
  | .engMin .. => .next (.alu h)
  | .engMax .. => .next (.alu h)
  | .engSlt .. => .next (.alu h)
  | .engSltu .. => .next (.alu h)
  | .engAdds .. => .next (.engExec .pure h)
  | .engSubs .. => .next (.engExec .pure h)
  | .engClz .. => .next (.engExec .pure h)
  | .engAbs .. => .next (.engExec .free h)
  | .engAddi .. => .next (.engExec .pure h)
  | .engSlti .. => .next (.aluImm h)
  | .engAndi .. => .next (.aluImm h)
  | .engOri .. => .next (.aluImm h)
  | .engXori .. => .next (.aluImm h)
  | .engSlli .. => .next (.aluImm h)
  | .engSrli .. => .next (.aluImm h)
  | .engSrai .. => .next (.aluImm h)
  | .engLui .. => .next (.aluImm h)
  | .engMul .. => .next (.engExec .mac h)
  | .engMac .. => .next (.engExec .mac h)
  | .engMsu .. => .next (.engExec .mac h)
  | .engDmac .. => .execEngDmac h
  | .engDmacs .. => .next (.engExec .mac h)
  | .engExt .. => .execEngExt h
  | .engClra .. => .next (.engExec .pure h)
  | .engMova .. => .next (.engExec .pure h)
  | .engAdda .. => .next (.engExec .pure h)
  | .engAsra .. => .next (.engExec .pure h)
  | .engGrda .. => .next (.engExec .pure h)
  | .engLw .. => .next (.engExec .load h)
  | .engLh .. => .next (.engExec .load h)
  | .engLhu .. => .next (.engExec .load h)
  | .engSw .. => .next (.engExec .store h)
  | .engSh .. => .next (.engExec .store h)
  | .engSacw .. => .next (.engExec .store h)
  | .engSach .. => .next (.engExec .store h)
  | .engBra .. => .next (.engExec .branch h)
  | .engBeqz .. => .next (.engExec .branch h)
  | .engBnez .. => .next (.engExec .branch h)
  | .engBltz .. => .next (.engExec .branch h)
  | .engBgez .. => .next (.engExec .branch h)
  | .engBal .. => .execEngBal h
  | .engJr .. => .next (.engExec .branch h)
  | .engRep .. => .next (.engExec .pure h)
  | .engMfs .. => .execEngMfs h
  | .engMts .. => .execEngMts h
  | .engWait .. => .execEngWait h
  | .engSvc .. => .execEngSvc h
  | .engRti .. => .execEngRti h
  | .engSync .. => .next (.engExec .pure h)
  | .engNop .. => .next (.engExec .pure h)
  | .budgetExhausted .. => .execBudgetExhausted h
  | .budgetPeriod .. => .execBudgetPeriod h
  | .stateBlockWrite .. => .execStateBlockWrite h
  | .pmcClear .. => .execPmcClear h
  | .dpClear => .next (.regAccess (fun ht => .foldl .wr ht) h)
  | .losAssert .. => .next (.ite h (.losOn h))
  | .losClear .. => .next (.ite (.losOff h) h)
  | .agcBlockEnd .. => .next (.ite (.ite (.burstAgc h) h) (.ite h (.setRx (.wr h))))
  | .gradientBlockEnd .. => .execGradientBlockEnd h
  | .cdrLock .. => .execCdrLock h
  | .cdrLockLoss .. => .next (.ite h (.cdrLost h))
  | .acqStepComplete .. => .next (.ite h (.acqStep h))
  | .acqRetry .. => .next (.ite h (.setRx (.wr (.acqNext (.loadDefaults (.count (.upTo h)))))))
  | .apbReceived .. => .next (.ite h (.apbSeen (.ite (.farPush h) h)))
  | .frameLockLoss .. => .next (.ite (.frameLockLost h) h)
  | .frameLockTimeout .. => .execFrameLockTimeout h
  | .codewordDecode .. => .execCodewordDecode h
  | .ocmCodeword .. => .next (.ite h (.ite (.setRx h) (.ocmAdd h)))
  | .ocmClear .. => .next (.regAccess .ocmZero h)
  | .ocmFreeze .. => .next (.regAccess .ocmFreeze h)
  | .surveyEnd .. => .execSurveyEnd h
  | .calStepDone .. => .execCalStepDone h
  | .shadowStart .. => .execShadowStart h
  | .shadowCompareDone .. => .execShadowCompareDone h
  | .calGroupDone .. => .execCalGroupDone h
  | .bandgapCheck .. => .execBandgapCheck h
  | .bandgapRelease => .next (.regAccess .bandgapRelease h)
  | .firCommit .. => .next (.regAccess .firCommit h)
  | .txFirStageWrite .. => .next (.regAccess .stageWrite h)
  | .maskWrite .. => .next (.regAccess .maskWrite h)
  | .txOutputEnable .. => .next (.ite h (.txBoundary (.setTx h)))
  | .prbsInjOne .. => .next (.portAccess .injectOne h)
  | .prbsErrClear .. => .next (.portAccess .prbsClear h)
  | .checkerLock .. => .execCheckerLock h
  | .epochSyncEdge .. => .next (.foldl .syncEdge h)
  | .epochBoundary .. => .execEpochBoundary h
  | .slotArm .. => .execSlotArm h
  | .burstOnset .. => .execBurstOnset h
  | .burstDetect .. => .execBurstDetect h
  | .sdMatch .. => .execSdMatch h
  | .falseStart .. => .execFalseStart h
  | .acqRestart .. => .next (.ite h (.fromStep3 (.count h)))
  | .burstPolicyTrigger .. => .execBurstPolicyTrigger h
  | .burstTruncated .. => .next (.ite h (.receiverFree (.endBurst (.count h))))
  | .edTest .. => .execEdTest h
  | .slotMissed .. => .execSlotMissed h
  | .txHeaderReceived .. => .execTxHeaderReceived h
  | .txSlotStart .. => .execTxSlotStart h
  | .hostFramingLock .. => .next (.ite h (.setBst h))
  | .blockDrop .. => .next (.ite (.bufPass h) (.dropBlock (.setBuf (.bufPass h))))
  | .slackSurvey .. => .next (.ite (.takeCourseShot (.slackSurvey (.foldl .bufPass h))) h)
  | .avsAdvice => .next (.ite (.avsAdvice h) h)
  | .slackMinClr .. => .next (.ite h (.regAccess .slackMinClr h))
  | .hostTrainReady .. => .next (.ite h (.enterData (.wr (.wrB (.wr (.wr (.wr (.wr (.setHost h)))))))))
  | .hostTrainTimeout .. => .execHostTrainTimeout h
  | .hostTrainRestart .. => .next (.regAccess .trainRestart h)
  | .sigLockChange .. => .execSigLockChange h
  | .txEqWrite .. => .next (.regAccess .txEqWrite h)
  | .biasConnect .. => .next (.ite (.biasJoin h) h)
  | .biasRampTick .. => .next (.ite (.biasJudge (.biasTick h)) h)
  | .biasParkStep .. => .execBiasParkStep h
  | .biasComplianceDetect .. => .next (.ite h (.biasCondition (.upTo h) (by decide) (by decide)))
  | .biasOpenDetect .. => .next (.ite h (.biasCondition (.ite (.wr (.upTo h)) (.upTo h)) (by decide) (by decide)))
  | .biasFlagClear .. => .next (.regAccess (fun ht => .biasFlagWrite (.biasJudge ht)) h)
  | .referenceReady .. => .next (.ite h (.startRun (.ite (.startRound (.wr h)) (.wr h))))
  | .scRoundEnd .. => .next (.ite h (.startRound (.foldl .decRound (.countWrap (.foldl .roundResult h)))))
  | .injectTimer .. => .next (.ite (.hostTrigger h) h)
  | .systemInjection .. => .next (.ite (.startRun (.refSettle (.setScv h))) h)
  | .injectedRunEnd .. => .execInjectedRunEnd h
  | .cmisPoll .. => .execCmisPoll h
  | .modIntAssert .. => .next (.ite h (.setCmis (.wr h)))
  | .cmisBusTimeout .. => .execCmisBusTimeout h
  | .filkorDetectProbe .. => .next (.ite h (.ite (.linkTo (.foldl .wrB h)) (.foldl .wrB h)))
  | .filkorBitlock => .next (.ite h (.foldl (fun ht => .freed (.wr (.wr ht))) (.linkTo h)))
  | .filkorBlocklock .. => .next (.ite h (.foldl (fun ht => .wr (.wr ht)) (.sendCaps (.linkTo h))))
  | .filkorTrainTimeout => .next (.ite h (.count (.linkTo (.upTo h))))
  | .blockLockLoss .. => .next (.ite h (.linkTo (.count h)))
  | .farTerminationLoss .. => .next (.ite h (.wr (.linkTo h)))
  | .filkorRetrain => .next (.regAccess .retrain h)
  | .fl1Entry => .next (.ite (.wr (.upTo h)) h)
  | .fl2Enter => .next (.regAccess .fl2Enter h)
  | .fl2Exit => .next (.regAccess .fl2Leave h)
  | .capsFrameReceived .. => .execCapsFrameReceived h
  | .pairingTransferDone .. => .next (.ite h (.pairTo (.foldl .takeSet h)))
  | .heartbeatSend => .next (.ite h (.ite (.foldl .emit (.heartbeat (.keep (.upTo h)))) (.keep (.upTo h))))
  | .heartbeatReceived .. => .execHeartbeatReceived h
  | .twinSilence => .execTwinSilence h
  | .leaseExpiry .. => .next (.ite (.setOwnSel (.upTo h)) h)
  | .twinSenseChange .. => .next (.ite (.remodel (.keep h)) (.ite (.keep h) (.modelSide (.keep h))))
  | .secondarySoloRaise .. => .next (.ite (.setOwnSel (.upTo h)) h)
  | .secondaryHoldTimeout => .next (.ite (.keep (.upTo h)) h)
  | .txTimeReceived .. => .next (.ite h (.keep (.setTx (.pathTo h))))
  | .mirrorFrameReceived .. => .execMirrorFrameReceived h
  | .mirrorAckReceived .. => .execMirrorAckReceived h
  | .mirrorAckTimeout => .execMirrorAckTimeout h
  | .pairingWaitTimeout .. => .execPairingWaitTimeout h
  | .sensorSample .. => .next (.ite h (.ite (.sensorFail h) (.sensorSample h)))
  | .stepWaitExpiry .. => .execStepWaitExpiry h
  | .ladderReverse .. => .next (.ite h (.regAccess .reverseWrite h))
  | .threshWrite .. => .next (.ite h (.regAccess .threshWrite h))
  | .tripRecordCopy => .execTripRecordCopy h
  | .resetHoldRelease .. => .next (.ite (.leaveReset h) h)
  | .scrubRead .. => .next (.ite h (.ite (.countWrap (.hodRead h)) (.hodRead h)))
  | .coursePllFailure .. => .next (.ite h (.foldl .cdrLost (.ite (.courseYield h) h)))
  | .hostAlignmentMarkerLock .. => .execHostAlignmentMarkerLock h
  | .ocmCodewordLock .. => .next (.ite h (.wrB h))
  | .txBlockBoundary .. => .execTxBlockBoundary h
  | .txUnderrun .. => .next (.ite h (.burstException (.count (.setTx (.seedPath h)))))
  | .runningMeanBelowCrit .. => .next (.ite (.slackCrit (.bufPass h)) (.bufPass h))
  | .pulseLost .. => .execPulseLost h
  | .vfEnableWrite .. => .next (.ite h (.keep (.ite h (.foldl .disable h))))
  | .tapInstruction .. => .execTapInstruction h
  | .cmisAccessDone .. => .execCmisAccessDone h
  | .attestationSigned .. => .execAttestationSigned h
  | .swapBoundExpiry => .next (.ite (.startFallback h) h)
  | .pmcCounterWrap .. => .execPmcCounterWrap h

end Answers

/-- A step from a canonical register file leads to a canonical one. -/
theorem step_regs_sorted {s t : State} (hs : Tab.sorted s.regs = true) (ht : step s = .next t) :
    Tab.sorted t.regs = true := by
  unfold step at ht
  split at ht
  · cases ht
    exact hs
  · next c cs _ =>
    obtain ⟨u, hu, -, -, hr⟩ := Answers.exec (.refl { s with pending := cs }) c
    cases hu.symm.trans ht
    exact hr.sorted hs

/-- Settles O4: `Answers.exec` for the command at the front, and `RegSteps.sorted` for what it wrote. -/
theorem stepKeepsTheRegisterFileCanonical : Obligations.StepKeepsTheRegisterFileCanonical :=
  fun _ _ hs ht => step_regs_sorted hs ht

end Sys2Proof.Machine
end

section
/-! Facts about folds, filtered tables and the frame `OnlyRegs` that several statements share. -/

namespace Sys2Proof.Machine

theorem Gives.of {c : Instr} {s t : State} {P : State → Prop} (he : exec c s = .next t) (hp : P t) : Gives c s P :=
  ⟨t, he, hp⟩

/-- What every step of a fold leaves alone, the fold leaves alone. -/
theorem foldl_proj {α β γ : Type} (g : β → γ) {f : β → α → β} (h : ∀ b a, g (f b a) = g b) (l : List α) (b : β) :
    g (l.foldl f b) = g b := by
  induction l generalizing b with
  | nil => rfl
  | cons a l ih => exact (ih _).trans (h b a)

/-! ## Tables cut by a filter -/

theorem Tab.get_filter_keep {α : Type} (d : α) (t : Tab α) (p : Nat × α → Bool) (k : Nat) (h : ∀ v, p (k, v) = true) :
    Tab.get d (t.filter p) k = Tab.get d t k := by
  induction t with
  | nil => rfl
  | cons q t ih =>
    obtain ⟨k', v⟩ := q
    by_cases hk : k = k'
    · subst hk
      simp [h, Tab.get]
    · rw [List.filter_cons]
      split
      · simp [Tab.get, hk, ih]
      · simp [Tab.get, hk, ih]

theorem Tab.get_filter_drop {α : Type} (d : α) (t : Tab α) (p : Nat × α → Bool) (k : Nat) (h : ∀ v, p (k, v) = false) :
    Tab.get d (t.filter p) k = d := by
  induction t with
  | nil => rfl
  | cons q t ih =>
    obtain ⟨k', v⟩ := q
    rw [List.filter_cons]
    split
    · next hp =>
      have hk : k ≠ k' := by
        rintro rfl
        simp [h] at hp
      simp [Tab.get, hk, ih]
    · exact ih

/-! ## Register writes and the frame `OnlyRegs` -/

theorem OnlyRegs.of_regs {s t : State} {keys : List Nat} (h : t = s) : OnlyRegs s t keys := by
  subst h
  exact ⟨rfl, fun _ _ _ => rfl⟩

/-- A write at one of the places leaves the rest alone. -/
theorem OnlyRegs.wr {s t : State} {keys : List Nat} {f : Fld} {v i j : Nat} (h : OnlyRegs s t keys)
    (hk : f.key i j ∈ keys) : OnlyRegs s (t.wr f v i j) keys := by
  obtain ⟨ht, hr⟩ := h
  refine ⟨?_, fun k d hd => ?_⟩
  · rw [ht]
    rfl
  · rw [State.get_wr_ne _ _ _ _ _ _ _ (by rintro rfl; exact hd hk), hr k d hd]

namespace State
variable (s : State)

/-- A count reads one more, up to the field's largest value. -/
theorem count_rd (f : Fld) (n i j : Nat) : (s.count f n i j).rd f i j = min (s.rd f i j + n) (2 ^ f.w - 1) := by
  rw [count, rd_wr_same]
  have := Nat.two_pow_pos f.w
  exact Nat.mod_eq_of_lt (by omega)

@[simp] theorem raise_twin (src detail : Nat) : (s.raise src detail).twin = s.twin := by
  obtain ⟨_, _, h⟩ := s.raise_eq src detail
  rw [h]
  rfl

@[simp] theorem raise_out (src detail : Nat) : (s.raise src detail).out = s.out := by
  obtain ⟨_, _, h⟩ := s.raise_eq src detail
  rw [h]
  rfl

@[simp] theorem raise_rings (src detail : Nat) : (s.raise src detail).rings = s.rings := by
  obtain ⟨_, _, h⟩ := s.raise_eq src detail
  rw [h]
  rfl

@[simp] theorem advanceCq_rings (r : Nat) : (s.advanceCq r).rings = s.rings := by
  unfold advanceCq
  extract_lets slot
  split <;> rfl

end State

end Sys2Proof.Machine
end

section
/-! The flight a command row takes up is of the opcode of the row (R303, R328). -/

namespace Sys2Proof.Machine

/-! ## The flight a command row takes up is of the row's opcode -/

/-- A flight that has not started. -/
def Flight.waits (f : Flight) : Bool :=
  match f.phase with
  | .waiting | .parked _ => true
  | _ => false

theorem firstWaiting_cons (f : Flight) (fs : List Flight) :
    firstWaiting (f :: fs) = if f.waits then some f else firstWaiting fs := by
  unfold Flight.waits
  rw [firstWaiting]
  cases f.phase <;> rfl

theorem firstWaiting_none {fs : List Flight} : firstWaiting fs = none ↔ ∀ f ∈ fs, f.waits = false := by
  induction fs with
  | nil => simp [firstWaiting]
  | cons f fs ih =>
    rw [firstWaiting_cons]
    cases hf : f.waits with
    | false => simp [hf, ih]
    | true => simp [hf]

theorem firstWaiting_append {fs : List Flight} (h : firstWaiting fs = none) (f : Flight) :
    firstWaiting (fs ++ [f]) = firstWaiting [f] := by
  induction fs with
  | nil => rfl
  | cons g fs ih =>
    have hg := firstWaiting_none.mp h
    rw [List.cons_append, firstWaiting_cons, if_neg (by simp [hg g (.head _)])]
    exact ih (firstWaiting_none.mpr fun x hx => hg x (.tail _ hx))

/-- Marking a flight as done makes none of the others wait. -/
theorem firstWaiting_map_done {fs : List Flight} (h : firstWaiting fs = none) (fid : Nat) (res : Res) :
    firstWaiting (fs.map fun g => if g.fid = fid then { g with phase := .done res } else g) = none := by
  refine firstWaiting_none.mpr fun x hx => ?_
  obtain ⟨g, hg, rfl⟩ := List.mem_map.mp hx
  split
  · rfl
  · exact firstWaiting_none.mp h g hg

namespace State
variable (s : State)

theorem ring_of_rings {s t : State} (h : t.rings = s.rings) (r : Nat) : t.ring r = s.ring r := by
  rw [ring, ring, h]

/-- An update of a ring that keeps its flights keeps those of every ring. -/
theorem setRing_flights {r : Nat} {x : RingX} (hx : x.flights = (s.ring r).flights) (q : Nat) :
    ((s.setRing r x).ring q).flights = (s.ring q).flights := by
  by_cases hq : q = r
  · rw [hq, ring_setRing_same, hx]
  · rw [ring_setRing_ne _ _ _ _ hq]

@[simp] theorem sendMsix_rings (f v : Nat) : (s.sendMsix f v).rings = s.rings := by
  unfold sendMsix
  split <;> rfl

theorem sendOwed_flights (r q : Nat) : ((s.sendOwed r).ring q).flights = (s.ring q).flights := by
  have h : (s.sendOwed r).rings = (s.setRing r { s.ring r with coalCount := 0, coalVecs := [] }).rings :=
    foldl_proj State.rings (fun _ _ => sendMsix_rings ..) _ _
  rw [ring_of_rings h]
  exact s.setRing_flights (by rfl) q

theorem signal_flights (r v q : Nat) : ((s.signal r v).ring q).flights = (s.ring q).flights := by
  unfold signal
  split
  · rfl
  · split
    · rfl
    · extract_lets x x' s1
      have h1 : (s1.ring q).flights = (s.ring q).flights := s.setRing_flights (by rfl) q
      split
      · rw [sendOwed_flights, h1]
      · exact h1

theorem writeCompletion_flights (r : Nat) (f : Flight) (res : Res) (q : Nat) :
    ((s.writeCompletion r f res).ring q).flights = (s.ring q).flights := by
  unfold writeCompletion
  rw [signal_flights, ring_of_rings (advanceCq_rings ..)]
  rfl

/-- After a flush of ring `r` no flight waits in a ring where none waited, or, in `r` itself, among those flushed. -/
theorem flush_firstWaiting {r q : Nat} {fs : List Flight} (hfs : q = r → firstWaiting fs = none)
    (hq : q ≠ r → firstWaiting (s.ring q).flights = none) : firstWaiting ((s.flush r fs).ring q).flights = none := by
  have hset : ∀ (t : State) (gs : List Flight), (q = r → firstWaiting gs = none) →
      (q ≠ r → firstWaiting (t.ring q).flights = none) →
      firstWaiting ((t.setRing r { t.ring r with flights := gs }).ring q).flights = none := by
    intro t gs hgs ht
    by_cases h : q = r
    · rw [h, ring_setRing_same]
      exact hgs h
    · rw [ring_setRing_ne _ _ _ _ h]
      exact ht h
  induction fs generalizing s with
  | nil => exact hset s [] (fun _ => rfl) hq
  | cons f fs ih =>
    unfold flush
    split
    · next hp =>
      refine ih _ (fun h => ?_) fun h => ?_
      · have hf : f.waits = false := by rw [Flight.waits, hp]
        simpa [firstWaiting_cons, hf] using hfs h
      · rw [writeCompletion_flights]
        exact hq h
    · exact hset s _ hfs hq

@[simp] theorem hodRewritten_rings (w n : Nat) : (s.hodRewritten w n).rings = s.rings := by
  induction n generalizing s w with
  | zero => rfl
  | succ n ih => exact ih _ _

@[simp] theorem logMirror_rings (x : MirrorLog) : (s.logMirror x).rings = s.rings := hodRewritten_rings ..

@[simp] theorem filkorQueued_rings : s.filkorQueued.rings = s.rings := by
  unfold filkorQueued
  extract_lets
  split <;> rfl

theorem finish_firstWaiting (o : Origin) (res : Res) {q : Nat} (hq : firstWaiting (s.ring q).flights = none) :
    firstWaiting ((s.finish o res).ring q).flights = none := by
  unfold finish
  split
  next r fid =>
    extract_lets fs
    split
    · exact hq
    · next f _ =>
      extract_lets res' s1
      have h1 : s1.rings = s.rings := by
        unfold s1
        split
        · exact logMirror_rings ..
        · rfl
      refine s1.flush_firstWaiting (fun h => firstWaiting_map_done ?_ _ _) fun _ => ?_
      · rwa [h] at hq
      · rwa [ring_of_rings h1]
  next q r tag =>
    extract_lets s1
    have h1 : (s1.filkorQueued.emit (.filkorBlock (ackBlock q (statusCode res.st)))).rings = s.rings := by
      refine (filkorQueued_rings s1).trans ?_
      unfold s1
      split
      · exact logMirror_rings ..
      · rfl
    rwa [ring_of_rings h1]
  · exact hq
  · exact hq

theorem dropImage_rings : s.dropImage.rings = s.rings := by
  unfold dropImage updTo
  extract_lets old
  split
  · rfl
  · exact raise_rings ..

theorem endSession_firstWaiting {r q : Nat} (hq : firstWaiting (s.ring q).flights = none) :
    firstWaiting ((s.endSession r).ring q).flights = none := by
  unfold endSession
  extract_lets _ s1
  have h1 : firstWaiting (s1.ring q).flights = none := by rwa [s.setRing_flights (by rfl) q]
  have h2 : firstWaiting (s1.dropImage.ring q).flights = none := by rwa [ring_of_rings (dropImage_rings s1)]
  split
  · split
    · exact finish_firstWaiting _ _ _ h2
    · exact h2
  · exact h1

/-- The flight a fetch adds is the only one of its ring that waits. -/
theorem fetch_firstWaiting {r op : Nat} {e : Entry} {d : Dma} {xfer : Nat} (h : firstWaiting (s.ring r).flights = none)
    {f : Flight} (hf : firstWaiting ((s.fetch r op e d xfer).ring r).flights = some f) : f.op = op := by
  unfold fetch at hf
  extract_lets s0 head x live g at hf
  have h0 : firstWaiting (s0.ring r).flights = none := by
    unfold s0
    split
    · exact endSession_firstWaiting _ h
    · exact h
  rw [ring_setRing_same, firstWaiting_append h0] at hf
  rw [← Option.some.inj hf]

theorem takeUp_op {r op : Nat} {e : Entry} {d : Dma} {u : State} {f : Flight} (h : s.takeUp r op e d = some (u, f)) :
    f.op = op := by
  unfold takeUp at h
  split at h
  · next g _ =>
    split at h
    · next hg =>
      cases h
      exact hg.1
    · cases h
  · next hw =>
    split at h
    · extract_lets s1 at h
      split at h
      · next g hg =>
        rw [← (Prod.mk.inj (Option.some.inj h)).2]
        exact fetch_firstWaiting _ hw hg
      · cases h
    · cases h

/-- A command that passes the checks of R328 names a target within its class. -/
theorem judge_fieldsOk {f : Flight} {o : Op} (ho : opOfCode f.op = some o) (h : s.judge f = .applies) :
    fieldsOk o f.e = true := by
  by_contra hno
  have hf : fieldsOk o f.e = false := by simpa using hno
  unfold judge at h
  rw [ho] at h
  split at h
  · cases h
  · dsimp only at h
    rw [hf] at h
    split at h
    · cases h
    · split at h
      · cases h
      · cases h

theorem opOfCode_opCode (o : Op) : opOfCode (opCode o) = some o := by
  cases o <;> rfl

end State

/-- A lane command that passes the checks of R328 names a line lane. -/
theorem Taken.lane_lt {s u : State} {o : Op} {r : Nat} {e : Entry} {d : Dma} {f : Flight} (h : Taken s o r e d u f)
    (ho : opClasses o = [2]) : f.e.target.toNat < 64 := by
  obtain ⟨htake, -, hjudge, -⟩ := h
  have hop : opOfCode f.op = some o := by rw [State.takeUp_op _ htake, State.opOfCode_opCode]
  have hf := State.judge_fieldsOk _ hop hjudge
  simp only [fieldsOk, ho, Bool.and_eq_true, decide_eq_true_eq, List.contains_cons, List.contains_nil, Bool.or_false,
    beq_iff_eq] at hf
  obtain ⟨⟨⟨-, hcls⟩, htarget⟩, -⟩ := hf
  simpa [hcls, targetLimit] using htarget

end Sys2Proof.Machine
end

section
/-! The state right after the application of VDD_KEEP (R6). -/

namespace Sys2Proof.Machine

/-- Settles O5: the tables of `State.reset` are empty, so that each reads its default. -/
theorem resetHoldsTheResetValues : Obligations.ResetHoldsTheResetValues :=
  ⟨fun _ _ _ => rfl, rfl, rfl, rfl, rfl, fun _ => ⟨rfl, rfl⟩, fun _ => ⟨rfl, rfl⟩, fun _ _ => rfl, fun _ => rfl⟩

end Sys2Proof.Machine
end

section
/-! The two resets (R6, R9): what they clear, what they leave, and the levels of TWIN_SEL. -/

namespace Sys2Proof.Machine

namespace State
variable (s : State)

@[simp] theorem filkorQueued_ownSel : s.filkorQueued.twin.ownSel = s.twin.ownSel := by
  unfold filkorQueued
  extract_lets
  split <;> rfl

@[simp] theorem sendMsix_twin (f v : Nat) : (s.sendMsix f v).twin = s.twin := by
  unfold sendMsix
  split <;> rfl

@[simp] theorem sendOwed_twin (r : Nat) : (s.sendOwed r).twin = s.twin :=
  foldl_proj State.twin (fun _ _ => sendMsix_twin ..) _ _

@[simp] theorem signal_twin (r v : Nat) : (s.signal r v).twin = s.twin := by
  unfold signal
  split
  · rfl
  · split
    · rfl
    · dsimp only
      split
      · exact sendOwed_twin ..
      · rfl

@[simp] theorem advanceCq_twin (r : Nat) : (s.advanceCq r).twin = s.twin := by
  unfold advanceCq
  dsimp only
  split <;> rfl

@[simp] theorem writeCompletion_twin (r : Nat) (f : Flight) (res : Res) :
    (s.writeCompletion r f res).twin = s.twin := by
  simp [writeCompletion]

@[simp] theorem flush_twin (r : Nat) (fs : List Flight) : (s.flush r fs).twin = s.twin := by
  induction fs generalizing s with
  | nil => rfl
  | cons f fs ih =>
    unfold flush
    split
    · rw [ih, writeCompletion_twin]
    · rfl

@[simp] theorem hodRewritten_twin (w n : Nat) : (s.hodRewritten w n).twin = s.twin := by
  induction n generalizing s w with
  | zero => rfl
  | succ n ih => exact ih _ _

@[simp] theorem logMirror_ownSel (x : MirrorLog) : (s.logMirror x).twin.ownSel = s.twin.ownSel := by
  simp [logMirror]

@[simp] theorem finish_ownSel (o : Origin) (res : Res) : (s.finish o res).twin.ownSel = s.twin.ownSel := by
  unfold finish
  split
  · dsimp only
    split
    · rfl
    · rw [flush_twin]
      split
      · exact logMirror_ownSel ..
      · rfl
  · dsimp only
    split <;> simp
  · rfl
  · rfl

@[simp] theorem twinTo_twin (st : Nat) : (s.twinTo st).twin = s.twin := by
  unfold twinTo
  dsimp only
  split
  · rfl
  · rw [raise_twin]
    split
    · split <;> rfl
    · split <;> rfl

@[simp] theorem endMoves_twin : s.endMoves.twin = s.twin := by
  unfold endMoves
  split
  · exact twinTo_twin ..
  · rfl

@[simp] theorem settleMoves_ownSel (c : Nat) : (s.settleMoves c).twin.ownSel = s.twin.ownSel := by
  unfold settleMoves
  dsimp only
  rw [endMoves_twin]
  split
  · exact foldl_proj (fun t : State => t.twin.ownSel) (fun _ _ => finish_ownSel ..) _ _
  · exact foldl_proj (fun t : State => t.twin.ownSel) (fun _ _ => finish_ownSel ..) _ _

@[simp] theorem modelSide_ownSel (c : Nat) : (s.modelSide c).twin.ownSel = s.twin.ownSel := by
  unfold modelSide
  extract_lets
  split <;> rfl

@[simp] theorem remodel_ownSel (c : Nat) : (s.remodel c).twin.ownSel = s.twin.ownSel := by
  unfold remodel
  split
  · rfl
  · dsimp only
    rw [settleMoves_ownSel]
    split <;> simp

theorem ownSel_of_twin {s t : State} (h : t.twin = s.twin) {c : Nat} : t.ownSel c = s.ownSel c := by
  rw [ownSel, ownSel, h]

theorem setOwnSel_ownSel (c c' : Nat) (b : Bool) :
    (s.setOwnSel c b).ownSel c' = if c' = c then b else s.ownSel c' := by
  unfold setOwnSel
  split
  · next h =>
    split
    · next hc => rw [hc, h]
    · rfl
  · unfold ownSel
    rw [remodel_ownSel]
    by_cases hc : c' = c
    · rw [if_pos hc, hc]
      exact Tab.get_set_same ..
    · rw [if_neg hc]
      exact Tab.get_set_ne _ _ _ _ _ _ hc

/-- R272: a reset takes the level of every course away. -/
theorem dropSel_ownSel {c : Nat} (hc : c < 8) : s.dropSel.ownSel c = false := by
  have h : ∀ (l : List Nat) (t : State), (c ∈ l ∨ t.ownSel c = false) →
      (l.foldl (fun (t : State) (c : Nat) => t.setOwnSel c false) t).ownSel c = false := by
    intro l
    induction l with
    | nil => simp
    | cons a l ih =>
      intro t ht
      refine ih _ ?_
      rw [setOwnSel_ownSel]
      by_cases hca : c = a
      · simp [hca]
      · simpa [hca] using ht
  exact h _ _ (.inl (List.mem_range.mpr hc))

@[simp] theorem biasOpenBall_twin (b : Nat) (p : BiasPhase) : (s.biasOpenBall b p).twin = s.twin := by
  simp [biasOpenBall]

@[simp] theorem biasThermReset_twin : s.biasThermReset.twin = s.twin := by
  unfold biasThermReset
  split
  · rfl
  · exact foldl_proj State.twin (fun _ _ => by simp) _ _

@[simp] theorem nextLife_twin : s.nextLife.twin = s.twin := by
  unfold nextLife
  split <;> rfl

end State

/-- The first 8 bytes of BAR0, the identity and the fused capabilities (R1), are never written. -/
theorem RegSteps.get_fused {a b : Tab Nat} (h : RegSteps a b) {k : Nat} (hk : k < 64) (d : Nat) :
    Tab.get d b k = Tab.get d a k := by
  induction h with
  | refl => rfl
  | write _ f v i j hf ih =>
    rw [Tab.get_set_ne _ _ _ _ _ _ (by unfold Fld.key; omega), ih]
  | remove _ p hp ih => rw [Tab.get_filter_keep _ _ _ _ fun v => hp (k, v) hk, ih]

namespace State
variable (s : State)

theorem Kept.rd_fused {s₀ s : State} (h : Kept s₀ s) {f : Fld} {i j : Nat} (hf : f.key i j < 64) :
    s.rd f i j = s₀.rd f i j := h.regs.get_fused hf _

theorem coldReset_kept : s.Kept s.coldReset := .coldReset (.refl s)

/-- R1: a cold reset leaves the fused grade as it is. -/
theorem coldReset_grade : s.coldReset.rd Reg.GLB.CAP.GRADE = s.rd Reg.GLB.CAP.GRADE :=
  s.coldReset_kept.rd_fused (by simp)

theorem coldReset_rd {f : Fld} {i j : Nat} (h : keepsCold (f.key i j) = false) : s.coldReset.rd f i j = f.rst := by
  rw [rd, coldReset_regs]
  exact Tab.get_filter_drop _ _ _ _ fun _ => h

theorem warmReset_rd (p : Phase) {f : Fld} {i j : Nat} (h : keepsWarm (f.key i j) = false) :
    (s.warmReset p).rd f i j = f.rst := by
  rw [rd, warmReset_regs]
  exact Tab.get_filter_drop _ _ _ _ fun _ => h

theorem warmReset_twin (p : Phase) :
    (s.warmReset p).twin = (s.coreDown false).dropSel.biasThermReset.nextLife.twin := by
  simp only [warmReset]

theorem warmReset_ownSel (p : Phase) {c : Nat} (hc : c < 8) : (s.warmReset p).ownSel c = false := by
  have h : (s.warmReset p).twin = (s.coreDown false).dropSel.twin := by
    rw [warmReset_twin, nextLife_twin, biasThermReset_twin]
  rw [ownSel_of_twin h]
  exact dropSel_ownSel _ hc

/-- What a cold reset takes from `State.reset`: the phase, the time, and the tables of rings, engines, lanes, the pair
and power. -/
theorem coldReset_cleared : s.coldReset.phase = reset.phase ∧ s.coldReset.time = 0 ∧ s.coldReset.rings = [] ∧
    s.coldReset.eng = [] ∧ s.coldReset.rx = [] ∧ s.coldReset.tx = [] ∧ s.coldReset.twin.ownSel = [] ∧
    s.coldReset.pwr = {} := by
  simp only [coldReset]
  exact ⟨trivial, rfl, rfl, rfl, rfl, rfl, trivial, rfl⟩

/-- What a warm reset clears beside the registers: cores, power and the enabling of virtual functions. -/
theorem warmReset_cleared (p : Phase) : (s.warmReset p).phase = p ∧ (s.warmReset p).cores = [] ∧
    (s.warmReset p).vfEnable = false ∧ (s.warmReset p).pwr = {} := by
  simp only [warmReset]
  exact ⟨trivial, trivial, trivial, trivial⟩

/-- With the power state of reset every course is off, its pads are latched, and no quad is on. -/
theorem unpowered {t : State} (h : t.pwr = {}) (c q : Nat) :
    t.coursePow c = .off ∧ t.padHeldC c = true ∧ t.quadOn q = false := by
  unfold coursePow padHeldC quadOn
  rw [h]
  exact ⟨rfl, rfl, rfl⟩

end State

/-- Settles O24: the lemmas on `State.coldReset` and `State.warmReset`, which the losses of supply run too. -/
theorem resetsClearTheDevice : Obligations.ResetsClearTheDevice := by
  refine ⟨fun s => ?_, fun _ => rfl, fun s => ?_, fun s => ?_⟩
  · obtain ⟨hphase, htime, hrings, heng, hrx, htx, hsel, hpwr⟩ := s.coldReset_cleared
    refine ⟨_, rfl, hphase, htime, s.coldReset_pending, fun r => ?_, fun e => ?_, fun n => ⟨?_, ?_⟩, fun c => ⟨?_, ?_⟩,
      s.coldReset_grade, s.coldReset_kept.bgFused, ?_, fun _ _ _ h => s.coldReset_rd h⟩
    · rw [State.ring, hrings]
      rfl
    · rw [State.engOf, heng]
      rfl
    · rw [State.rxOf, hrx]
      rfl
    · rw [State.txOf, htx]
      rfl
    · rw [State.ownSel, hsel]
      rfl
    · exact ⟨(State.unpowered hpwr c 0).1, (State.unpowered hpwr c 0).2.1⟩
    · rw [hpwr]
  · obtain ⟨hphase, hcores, hvf, hpwr⟩ := s.warmReset_cleared (if s.phase = .brownout then .brownout else .inReset)
    refine ⟨_, rfl, hphase, fun _ _ _ h => s.warmReset_rd _ h, fun k => ?_, hvf, fun c => ?_, fun q => ?_⟩
    · rw [State.core, hcores]
      exact ⟨rfl, rfl⟩
    · exact ⟨s.warmReset_ownSel _ c.isLt, (State.unpowered hpwr c 0).1, (State.unpowered hpwr c 0).2.1⟩
    · exact (State.unpowered hpwr 0 q).2.2
  · exact ⟨_, rfl, (s.warmReset_cleared _).1, fun _ _ _ h => s.warmReset_rd _ h⟩

end Sys2Proof.Machine
end

section
/-! Event records, messages and the event map (R304, R307, R309, R503). -/

namespace Sys2Proof.Machine

namespace State
variable (s : State)

/-! ## The record of an event (R304, R307) -/

theorem advanceCq_rd_tail (r : Nat) : (s.advanceCq r).rd Reg.RING.CQ_PTR.TAIL r =
    if s.rd Reg.RING.CQ_PTR.TAIL r + 1 = s.ringSize r then 0 else (s.rd Reg.RING.CQ_PTR.TAIL r + 1) % 65536 := by
  unfold advanceCq
  extract_lets slot
  split
  · rw [rd_wr_ne _ _ _ _ _ _ _ _ (by simp), rd_wr_same]
    rfl
  · rw [rd_wr_same]
    rfl

theorem advanceCq_onlyRegs {s₀ : State} {r : Nat} {keys : List Nat} (h : OnlyRegs s₀ s keys)
    (ht : Reg.RING.CQ_PTR.TAIL.key r 0 ∈ keys) (hp : Reg.RING.STAT.PHASE.key r 0 ∈ keys) :
    OnlyRegs s₀ (s.advanceCq r) keys := by
  unfold advanceCq
  extract_lets slot
  split
  · exact (h.wr ht).wr hp
  · exact h.wr ht

@[simp] theorem advanceCq_out (r : Nat) : (s.advanceCq r).out = s.out := by
  unfold advanceCq
  extract_lets slot
  split <;> rfl

@[simp] theorem advanceCq_raises (r : Nat) : (s.advanceCq r).raises = s.raises := by
  unfold advanceCq
  extract_lets slot
  split <;> rfl

/-- A raise of a source in no event ring's pending list goes into the ring's next slot as a record. -/
theorem deliver_writes {x : Raise} {r : Nat} (hen : s.rd Reg.EVT.MAP.EN x.src = 1)
    (hr : s.rd Reg.EVT.MAP.RING x.src = r)
    (hring : s.eventRing r = true) (hfree : s.eventFree r = true) (hnew : ∀ y ∈ (s.ring r).pend, y.src ≠ x.src) :
    s.deliver x = s.writeEvent r x := by
  have hp : ((s.ring r).pend.any fun y => y.src == x.src) = false := by simpa using hnew
  unfold deliver toEventRing
  simp [hen, hr, hring, hfree, hp]

/-- The record of a raise whose source asks for no interrupt: the tail moves on, and the ring counts the record. -/
theorem writeEvent_noIntr {x : Raise} {r : Nat} (hi : s.rd Reg.EVT.MAP.INTR x.src = 0) :
    s.writeEvent r x = (((s.emit (.event r (s.rd Reg.RING.CQ_PTR.TAIL r) (s.rd Reg.RING.STAT.PHASE r) x
      (s.ring r).rseq)).emit (.hostWrite (s.cqAddr r) (eventBytes (s.rd Reg.RING.STAT.PHASE r) x (s.ring r).rseq))).setRing r
        { s.ring r with rseq := ((s.ring r).rseq + 1) % 2 ^ 32 }).advanceCq r := by
  unfold writeEvent
  rw [if_neg (by omega)]

/-! ## Messages (R309) -/

theorem sendOwed_one {r v : Nat} (h : (s.ring r).coalVecs = [v]) : s.sendOwed r =
    (s.setRing r { s.ring r with coalCount := 0, coalVecs := [] }).sendMsix (s.ringOwner r) v := by
  unfold sendOwed
  extract_lets x s1
  rw [h]
  rfl

theorem sendOwed_masked {r v : Nat} (h : (s.ring r).coalVecs = [v]) (hm : (s.vec (s.ringOwner r) v).masked = true) :
    s.sendOwed r = (s.setRing r { s.ring r with coalCount := 0, coalVecs := [] }).setVec (s.ringOwner r) v
      { s.vec (s.ringOwner r) v with pend := true } :=
  (s.sendOwed_one h).trans (if_pos hm)

theorem sendOwed_unmasked {r v : Nat} (h : (s.ring r).coalVecs = [v]) (hm : ¬ (s.vec (s.ringOwner r) v).masked = true) :
    s.sendOwed r = (s.setRing r { s.ring r with coalCount := 0, coalVecs := [] }).emit (.msix (s.ringOwner r) v) :=
  (s.sendOwed_one h).trans (if_neg hm)

/-! ## The event map (R503) -/

theorem deliverSrc_none {src : Nat} (h : ∀ x ∈ s.raises, x.src ≠ src) : s.deliverSrc src = s := by
  have h1 : (s.raises.filter fun x => x.src == src) = [] := by simpa [List.filter_eq_nil_iff] using h
  have h2 : (s.raises.filter fun x => x.src != src) = s.raises := by simpa [List.filter_eq_self] using h
  unfold deliverSrc
  rw [h1, h2]
  rfl

/-- The five fields of `EVT.MAP[src]`, set from a word. -/
def setMap (src v : Nat) : State :=
  ((((s.wr Reg.EVT.MAP.RING (bitsOf v 0 12) src).wr Reg.EVT.MAP.EN (bitsOf v 12 1) src).wr
    Reg.EVT.MAP.OWN_VEC (bitsOf v 13 1) src).wr Reg.EVT.MAP.VECTOR (bitsOf v 14 11) src).wr
    Reg.EVT.MAP.INTR (bitsOf v 25 1) src

theorem writeMap_eq {src v : Nat} (h : ∀ x ∈ s.raises, x.src ≠ src) :
    s.writeMap src v = ({ s with held := s.held.filter fun x => x.src != src } : State).setMap src v := by
  unfold writeMap
  rw [s.deliverSrc_none h]
  rfl

@[simp] theorem setMap_raises (src v : Nat) : (s.setMap src v).raises = s.raises := rfl

theorem setMap_reads (src v : Nat) :
    (s.setMap src v).rd Reg.EVT.MAP.RING src = bitsOf v 0 12 ∧ (s.setMap src v).rd Reg.EVT.MAP.EN src = bitsOf v 12 1 ∧
      (s.setMap src v).rd Reg.EVT.MAP.OWN_VEC src = bitsOf v 13 1 ∧
      (s.setMap src v).rd Reg.EVT.MAP.VECTOR src = bitsOf v 14 11 ∧
      (s.setMap src v).rd Reg.EVT.MAP.INTR src = bitsOf v 25 1 ∧
      OnlyRegs s (s.setMap src v) [Reg.EVT.MAP.RING.key src 0, Reg.EVT.MAP.EN.key src 0, Reg.EVT.MAP.OWN_VEC.key src 0,
        Reg.EVT.MAP.VECTOR.key src 0, Reg.EVT.MAP.INTR.key src 0] := by
  unfold setMap
  refine ⟨?_, ?_, ?_, ?_, ?_, ?_⟩
  · simp [rd_wr_ne, bitsOf]
  · simp [rd_wr_ne, bitsOf]
  · simp [rd_wr_ne, bitsOf]
  · simp [rd_wr_ne, bitsOf]
  · simp [bitsOf]
  · exact (((((OnlyRegs.of_regs rfl).wr (by simp)).wr (by simp)).wr (by simp)).wr (by simp)).wr (by simp)

end State

/-- The state EVENT_RECORD_WRITE runs on, with the oldest raise taken. -/
theorem eventRecordWrite_eq {s : State} {x : Raise} {xs : List Raise} (hk : s.k4On = true) (hr : s.raises = x :: xs) :
    exec .eventRecordWrite s = .next (({ s with raises := xs } : State).deliver x) := by
  show execEventRecordWrite s = _
  unfold execEventRecordWrite
  rw [if_pos hk, hr]

/-- Settles O9: the oldest raise through `deliver_writes` and `writeEvent_noIntr`, the owed message through `sendMsix`,
and the map's five fields through `OnlyRegs.wr`. -/
theorem eventRecordsMessagesAndTheMap : Obligations.EventRecordsMessagesAndTheMap := by
  refine ⟨⟨?_, ?_⟩, ?_, ?_, ?_⟩
  · intro s x xs hk hr hen
    exact ⟨_, eventRecordWrite_eq hk hr, if_pos hen⟩
  · intro s x xs r hk hr hen hmap hring hfree hnew hi
    have he :=
      (State.deliver_writes { s with raises := xs } hen hmap hring hfree hnew).trans (State.writeEvent_noIntr _ hi)
    refine ⟨_, (eventRecordWrite_eq hk hr).trans (congrArg _ he), ?_, ?_, ?_, ?_, ?_⟩
    · exact State.advanceCq_raises ..
    · simp [State.emit, State.setRing, State.cqAddr, State.rd, State.ring]
    · rw [State.ring, State.advanceCq_rings]
      exact congrArg RingX.rseq (State.ring_setRing_same ..)
    · exact State.advanceCq_rd_tail ..
    · refine State.advanceCq_onlyRegs _ (.of_regs ?_) (by simp) (by simp)
      simp [State.setRing, State.emit]
  · intro r v s hc hv
    have he : exec (.coalesceTimerExpiry r) s =
        .next ((s.upTo ((s.ring r).coalFirst + 1000 * s.rd Reg.RING.INTR.COAL_US r)).sendOwed r) :=
      congrArg Host.Outcome.next (if_neg hc)
    by_cases hm : (s.vec (s.ringOwner r) v).masked = true
    · rw [State.sendOwed_masked (s.upTo _) hv hm] at he
      refine .of he ⟨rfl, ?_, ?_, rfl, ?_⟩
      · exact congrArg RingX.coalCount (State.ring_setRing_same ..)
      · exact congrArg RingX.coalVecs (State.ring_setRing_same ..)
      · rw [if_pos hm]
        exact ⟨rfl, congrArg Vec.pend (State.vec_setVec_same ..)⟩
    · rw [State.sendOwed_unmasked (s.upTo _) hv hm] at he
      refine .of he ⟨rfl, ?_, ?_, rfl, ?_⟩
      · exact congrArg RingX.coalCount (State.ring_setRing_same ..)
      · exact congrArg RingX.coalVecs (State.ring_setRing_same ..)
      · rw [if_neg hm]
        exact ⟨rfl, rfl⟩
  · intro f v s hv
    refine ⟨s.unmask f v, congrArg Host.Outcome.next (if_pos hv), ?_⟩
    unfold State.unmask
    extract_lets x s1
    have h1 : s1.vec f v = { x with masked := false, pend := false } := State.vec_setVec_same ..
    split
    · exact ⟨congrArg Vec.masked h1, congrArg Vec.pend h1, rfl, rfl⟩
    · exact ⟨congrArg Vec.masked h1, congrArg Vec.pend h1, rfl, rfl⟩
  · intro src v s hc hnone
    have he : exec (.evtMapWrite 0 src v) s = .next ((s.setShadow 0 none).writeMap src v.toNat) := by
      show execEvtMapWrite 0 src v s = _
      simp [execEvtMapWrite, hc]
    rw [State.writeMap_eq (s.setShadow 0 none) hnone] at he
    obtain ⟨hring, hen, hown, hvec, hintr, ho⟩ := State.setMap_reads
      { s.setShadow 0 none with held := s.held.filter fun x => x.src != src.val } src v.toNat
    refine .of he ⟨hring, hen, hown, hvec, hintr, ?_, State.setMap_raises ..⟩
    rw [State.setMap_raises]
    exact ho

end Sys2Proof.Machine
end

section
/-! Lane configuration and lane state (R335, R336). -/

namespace Sys2Proof.Machine

/-! ## The fields that say how a lane is configured and what state it is in -/

/-- The fields of a lane that only its configuration, the Isyon format's status and its changes of state write. -/
def laneFlds : List Fld :=
  [Reg.LN.RX_STAT.LANE_STATE, Reg.LN.FMT_CFG.MODE, Reg.LN.FMT_CFG.PRECODE, Reg.LN.FMT_CFG.OCM_EN,
    Reg.LN.FMT_STAT.SF_PHASE, Reg.LN.FMT_STAT.FAR_RDI, Reg.LN.FMT_STAT.FAR_DEGRADE, Reg.LN.FMT_STAT.FAR_SRC_FAULT,
    Reg.LN.FMT_STAT.FAR_LANE, Reg.LN.FMT_STAT.FAR_CONST, Reg.LN.CONST_ADV.MARGIN_P4, Reg.LN.CONST_ADV.MARGIN_P6]

/-- The place of a field within the 0x4000 bytes of a lane's block. -/
def Fld.inLane (f : Fld) : Nat := (8 * f.addr + f.lo) % 131072

/-- A field that is none of `laneFlds`, as its constant shows: it lies beyond the lane blocks, or its copies stand at
another place modulo the size of a lane's block. -/
def Fld.quiet (f : Fld) : Bool :=
  Nat.ble 0x300000 f.addr ||
    (f.blk != .hl && f.jstep == 0 && f.istep % 131072 == 0 && laneFlds.all fun g => f.inLane != g.inLane)

theorem laneFlds_place : ∀ g ∈ laneFlds, g.blk ≠ .hl ∧ g.istep = 131072 ∧
    8 * 0x200000 ≤ 8 * g.addr + g.lo ∧ 8 * g.addr + g.lo < 8 * 0x204000 := by
  decide

theorem laneFlds_key {l : Nat} (hl : l < 64) {g : Fld} (hg : g ∈ laneFlds) :
    8 * 0x200000 ≤ g.key l 0 ∧ g.key l 0 < 8 * 0x300000 ∧ g.key l 0 % 131072 = g.inLane := by
  obtain ⟨hb, hi, hlo, hhi⟩ := laneFlds_place g hg
  rw [Fld.key, if_neg hb, hi, Nat.mul_zero, Nat.add_zero, Nat.add_mul_mod_self_left]
  exact ⟨by omega, by omega, rfl⟩

theorem Fld.quiet_key {f : Fld} (hf : f.quiet = true) {l : Nat} (hl : l < 64) (i j : Nat) :
    ∀ g ∈ laneFlds, g.key l 0 ≠ f.key i j := by
  intro g hg he
  obtain ⟨-, hlt, hmod⟩ := laneFlds_key hl hg
  simp only [quiet, Bool.or_eq_true, Bool.and_eq_true, List.all_eq_true, bne_iff_ne, beq_iff_eq, Nat.ble_eq] at hf
  rcases hf with hf | ⟨⟨⟨hb, hj⟩, hi⟩, hall⟩
  · unfold Fld.key at he hlt
    omega
  · obtain ⟨c, hc⟩ := Nat.dvd_of_mod_eq_zero hi
    refine hall g hg ?_
    rw [← hmod, he, Fld.key, hj, hc, if_neg hb, Fld.inLane]
    rw [Nat.zero_mul, Nat.add_zero, Nat.mul_assoc, Nat.add_mul_mod_self_left]

/-! ## What leaves them alone -/

/-- From `s₀` to `s` the fields `laneFlds` of lane `l` read the same. `ok` says that the last write was of a quiet
field; where the field is a constant, unification finds it to be `true`. -/
def State.Still (l : Nat) (s₀ s : State) (ok : Bool := true) : Prop :=
  ok = true → l < 64 ∧ ∀ g ∈ laneFlds, s.rd g l = s₀.rd g l

namespace State.Still
variable {l : Nat} {s₀ s t : State}

theorem refl (s : State) (hl : l < 64) : Still l s s := fun _ => ⟨hl, fun _ _ => rfl⟩

theorem lt (h : Still l s₀ s) : l < 64 := (h rfl).1

/-- An update of other parts of the state: one record update, whatever its fields. -/
theorem keep
    {time freeCtr out phase rings fns arb vecs vfEnable raises held doorHeld pwr cores engMap failed subst therm
     sec upd twin tests hod rx tx cal bst shots epoch host htx chk seeds retire bgFused bgHigh bgLow mortar bias
     scv dec cmis eng tapIr pending}
    (h : Still l s₀ s) :
    Still l s₀ ⟨time, pending, freeCtr, out, phase, s.regs, rings, fns, arb, vecs, vfEnable, raises, held, doorHeld,
      pwr, cores, engMap, failed, subst, therm, sec, upd, twin, tests, hod, rx, tx, cal, bst, shots, epoch,
      host, htx, chk, seeds, retire, bgFused, bgHigh, bgLow, mortar, bias, scv, dec, cmis, eng, tapIr⟩ := h

theorem ite {c : Prop} [Decidable c] (ht : Still l s₀ s) (he : Still l s₀ t) : Still l s₀ (if c then s else t) := by
  split
  · exact ht
  · exact he

theorem foldl {α : Type} {f : State → α → State} {xs : List α} (hf : ∀ {t x}, Still l s₀ t → Still l s₀ (f t x))
    (h : Still l s₀ s) : Still l s₀ (xs.foldl f s) := by
  induction xs generalizing s with
  | nil => exact h
  | cons x xs ih => exact ih (hf h)

theorem wr {f v i j} (h : Still l s₀ s) : Still l s₀ (s.wr f v i j) f.quiet := by
  intro hf
  obtain ⟨hl, hr⟩ := h rfl
  exact ⟨hl, fun g hg => (rd_wr_ne _ _ _ _ _ _ _ _ (Fld.quiet_key hf hl i j g hg)).trans (hr g hg)⟩

theorem wrB {f b i j} (h : Still l s₀ s) : Still l s₀ (s.wrB f b i j) f.quiet := .wr h

theorem count {f n i j} (h : Still l s₀ s) : Still l s₀ (s.count f n i j) f.quiet := .wr h

theorem countWrap {f n i j} (h : Still l s₀ s) : Still l s₀ (s.countWrap f n i j) f.quiet := .wr h

theorem raise {src detail} (h : Still l s₀ s) (hs : l < 64 → src < 608) : Still l s₀ (s.raise src detail) := by
  intro _
  obtain ⟨hl, hr⟩ := h rfl
  refine ⟨hl, fun g hg => (raise_rd _ _ _ _ _ _ ?_ ?_).trans (hr g hg)⟩
  · obtain ⟨hlow, -, -⟩ := laneFlds_key hl hg
    have hsrc := hs hl
    simp only [Reg.EVT.LATCH.RAISED_key]
    omega
  · exact Fld.quiet_key (f := Reg.EVT.STAT.LAST_SRC) (by decide) hl 0 0 g hg

theorem raiseRise {before after src detail} (h : Still l s₀ s) (hs : l < 64 → src < 608) :
    Still l s₀ (s.raiseRise before after src detail) := .ite (.raise h hs) h

theorem freed (h : Still l s₀ s) : Still l s₀ s.freed := .keep h

theorem emit {o} (h : Still l s₀ s) : Still l s₀ (s.emit o) := .keep h

theorem filkorQueued (h : Still l s₀ s) : Still l s₀ s.filkorQueued := .ite (.wr (.keep h)) (.keep h)

theorem setRing {r x} (h : Still l s₀ s) : Still l s₀ (s.setRing r x) := .keep h

theorem setChk {k x} (h : Still l s₀ s) : Still l s₀ (s.setChk k x) := .keep h

theorem setVec {f v x} (h : Still l s₀ s) : Still l s₀ (s.setVec f v x) := .keep h

theorem sendMsix {f v} (h : Still l s₀ s) : Still l s₀ (s.sendMsix f v) := .ite (.setVec h) (.emit h)

theorem sendOwed {r} (h : Still l s₀ s) : Still l s₀ (s.sendOwed r) := .foldl .sendMsix (.setRing h)

theorem signal {r v} (h : Still l s₀ s) : Still l s₀ (s.signal r v) :=
  .ite h (.ite (.wr h) (.ite (.sendOwed (.setRing h)) (.setRing h)))

theorem advanceCq {r} (h : Still l s₀ s) : Still l s₀ (s.advanceCq r) := .ite (.wr (.wr h)) (.wr h)

theorem writeCompletion {r f res} (h : Still l s₀ s) : Still l s₀ (s.writeCompletion r f res) :=
  .signal (.advanceCq (.emit (.emit h)))

theorem flush {r fs} (h : Still l s₀ s) : Still l s₀ (s.flush r fs) := by
  induction fs generalizing s with
  | nil => exact .keep h
  | cons f fs ih =>
    unfold State.flush
    split
    · exact ih (.writeCompletion h)
    · exact .keep h

theorem hodRewritten {w n} (h : Still l s₀ s) : Still l s₀ (s.hodRewritten w n) := by
  induction n generalizing s w with
  | zero => exact h
  | succ n ih => exact ih (.keep h)

theorem logMirror {x} (h : Still l s₀ s) : Still l s₀ (s.logMirror x) := .hodRewritten (.keep h)

theorem finish {o res} (h : Still l s₀ s) : Still l s₀ (s.finish o res) := by
  unfold State.finish
  split
  · extract_lets
    split
    · exact h
    · extract_lets _ s1
      have h1 : Still l s₀ s1 := by
        unfold s1
        split
        · exact .logMirror h
        · exact h
      exact .flush h1
  · exact .emit (.filkorQueued (.ite (.logMirror h) h))
  · exact h
  · exact h

theorem finishSt {o st} (h : Still l s₀ s) : Still l s₀ (s.finishSt o st) := .finish h

theorem hostWrite {d a data} (h : Still l s₀ s) : Still l s₀ (s.hostWrite d a data).1 := by
  unfold State.hostWrite
  split
  · exact .emit h
  · split
    · exact .ite h (.emit h)
    · exact .emit h

theorem setHodWord {w x} (h : Still l s₀ s) : Still l s₀ (s.setHodWord w x) := .wr (.keep h)

theorem hodUncorr {w src quiet} (h : Still l s₀ s) : Still l s₀ (s.hodUncorr w src quiet) :=
  .ite (.wr (.wr (.wr (.count h)))) (.raise (.wr (.wr (.wr (.count h)))) (by omega))

theorem saveOverlay (h : Still l s₀ s) : Still l s₀ s.saveOverlay := .ite (.wr (.keep h)) (.wr (.keep h))

theorem repairExhausted {sub col} (h : Still l s₀ s) : Still l s₀ (s.repairExhausted sub col) :=
  .raiseRise (.wr h) (by omega)

theorem fieldRepair {sub col which} (h : Still l s₀ s) : Still l s₀ (s.fieldRepair sub col which) :=
  .ite h (.ite (.repairExhausted h) (.saveOverlay (.raise (.wr (.keep h)) (by omega))))

theorem readUncorr {w src v quiet} (h : Still l s₀ s) : Still l s₀ (s.readUncorr w src v quiet) :=
  .setHodWord (.fieldRepair (.hodUncorr h))

theorem readCorr {w bit scrub} (h : Still l s₀ s) : Still l s₀ (s.readCorr w bit scrub) := by
  unfold State.readCorr
  extract_lets _ _ _ _ _ _ _ _ _ _ _ s3
  have h3 : Still l s₀ s3 := .ite (.fieldRepair (.keep (.count h))) (.keep (.count h))
  exact .ite (.fieldRepair h3) h3

theorem hodWriteWord {w at_ new ecc} (h : Still l s₀ s) : Still l s₀ (s.hodWriteWord w at_ new ecc) := by
  unfold State.hodWriteWord
  split
  · exact .setHodWord h
  · split
    · exact .setHodWord h
    · extract_lets bank put
      have hput : ∀ {t v bad}, Still l s₀ t → Still l s₀ (put t v bad) := .setHodWord
      split
      · split
        · exact hput (.hodUncorr (.keep h))
        · split
          · exact hput (.readUncorr (.keep h))
          · exact hput (.ite (.count (.keep h)) (.keep h))
      · split
        · exact hput (.hodUncorr h)
        · split
          · exact hput h
          · split
            · exact hput (.readCorr h)
            · exact hput (.readUncorr (.keep h))

theorem hodWrite {ecc fuel ofs bs} (h : Still l s₀ s) : Still l s₀ (s.hodWrite ecc fuel ofs bs) := by
  induction fuel generalizing s ofs bs with
  | zero => exact h
  | succ n ih =>
    cases bs with
    | nil => exact h
    | cons b bs => exact ih (.hodWriteWord h)

theorem hodStore {ofs bs ecc} (h : Still l s₀ s) : Still l s₀ (s.hodStore ofs bs ecc) := .hodWrite h

theorem storeRows {rs bs} (h : Still l s₀ s) : Still l s₀ (s.storeRows rs bs) := by
  induction rs generalizing s bs with
  | nil => exact h
  | cons r rs ih =>
    cases bs with
    | nil => exact h
    | cons b bs => exact ih (.hodStore h)

theorem endCapture {c st w} (h : Still l s₀ s) : Still l s₀ (s.endCapture c st w) :=
  .ite (.finish (.keep h)) (.finish (.storeRows (.keep (.keep h))))

theorem stopCapture {n} (h : Still l s₀ s) : Still l s₀ (s.stopCapture n) := by
  unfold State.stopCapture
  split
  · exact h
  · exact .endCapture (.keep h)

theorem setRx {n x} (h : Still l s₀ s) : Still l s₀ (s.setRx n x) := .keep h

theorem setTx {n x} (h : Still l s₀ s) : Still l s₀ (s.setTx n x) := .keep h

theorem setCal {n x} (h : Still l s₀ s) : Still l s₀ (s.setCal n x) := .keep h

theorem setBst {n x} (h : Still l s₀ s) : Still l s₀ (s.setBst n x) := .keep h

theorem setEpoch {c x} (h : Still l s₀ s) : Still l s₀ (s.setEpoch c x) := .keep h

theorem setHost {k x} (h : Still l s₀ s) : Still l s₀ (s.setHost k x) := .keep h

theorem setHtx {k x} (h : Still l s₀ s) : Still l s₀ (s.setHtx k x) := .keep h

theorem setMortar {c x} (h : Still l s₀ s) : Still l s₀ (s.setMortar c x) := .keep h

theorem flushBufs {n} (h : Still l s₀ s) : Still l s₀ (s.flushBufs n) := .setMortar h

theorem setSlice {n i v} (h : Still l s₀ s) : Still l s₀ (s.setSlice n i v) := .setCal h

theorem setSuspect {v} (h : Still l s₀ s) : Still l s₀ (s.setSuspect l v) :=
  .raiseRise (.wr h) fun hl => by unfold laneSrc; omega

theorem refreshS (h : Still l s₀ s) : Still l s₀ (s.refreshS l) := .setSuspect h

theorem joinP {n} (h : Still l s₀ s) : Still l s₀ (s.joinP n) := .ite (.setCal h) h

theorem cutGroup {n} (h : Still l s₀ s) : Still l s₀ (s.cutGroup n) := by
  unfold State.cutGroup
  split
  · exact h
  · exact .wr (.setCal h)

theorem abandonGroup {n} (h : Still l s₀ s) : Still l s₀ (s.abandonGroup n) := .ite h (.cutGroup h)

theorem abandonCal {n} (h : Still l s₀ s) : Still l s₀ (s.abandonCal n) := by
  unfold State.abandonCal
  split
  · exact .setCal (.setSlice h)
  · exact h

theorem abandonShadow {n} (h : Still l s₀ s) : Still l s₀ (s.abandonShadow n) := by
  unfold State.abandonShadow
  split
  · exact .setCal (.setSlice h)
  · exact h

theorem abandonSteps {n} (h : Still l s₀ s) : Still l s₀ (s.abandonSteps n) :=
  .ite (.ite h (.abandonCal h)) (.abandonShadow (.ite h (.abandonCal h)))

theorem startCal {n} (h : Still l s₀ s) : Still l s₀ (s.startCal n) := by
  unfold State.startCal
  refine .ite ?_ ?_
  · split
    · exact .joinP (.setSlice (.setCal h))
    · exact h
  · exact h

theorem sliceSwap {i} (h : Still l s₀ s) : Still l s₀ (s.sliceSwap l i) := by
  unfold State.sliceSwap
  extract_lets _ s1
  have h1 : Still l s₀ s1 := by
    unfold s1
    split
    · exact .setCal (.setSlice h)
    · exact h
  exact .refreshS (.countWrap (.setCal (.setSlice h1)))

theorem swapIfDue (h : Still l s₀ s) : Still l s₀ (s.swapIfDue l) := by
  unfold State.swapIfDue
  refine .ite ?_ ?_
  · split
    · exact .sliceSwap h
    · exact .setCal h
  · exact h

theorem slicesSettle (h : Still l s₀ s) : Still l s₀ (s.slicesSettle l) :=
  .ite (.startCal (.abandonSteps (.swapIfDue h))) h

theorem calSettle (h : Still l s₀ s) : Still l s₀ (s.calSettle l) := .slicesSettle (.abandonGroup h)

theorem txCheck {n} (h : Still l s₀ s) : Still l s₀ (s.txCheck n) := .ite h (.wr h)

theorem hostUnaligned {k} (h : Still l s₀ s) : Still l s₀ (s.hostUnaligned k) := by
  unfold State.hostUnaligned
  extract_lets f
  refine .ite (.wr (.wr ?_)) h
  unfold f
  split
  · exact .wr h
  · exact .wr h

theorem refreshSig {k} (h : Still l s₀ s) : Still l s₀ (s.refreshSig k) :=
  .ite h (.raiseRise (.wr (.wrB (.ite h (.hostUnaligned h)))) (by omega))

theorem startTraining {k} (h : Still l s₀ s) : Still l s₀ (s.startTraining k) :=
  .refreshSig (.hostUnaligned (.wr (.wr (.wr (.wr (.setHost h))))))

theorem enterData {k trained} (h : Still l s₀ s) : Still l s₀ (s.enterData k trained) :=
  .refreshSig (.ite (.setHtx (.wr h)) (.wr (.wr (.setHtx (.wr h)))))

theorem clearHostTest {k} (h : Still l s₀ s) : Still l s₀ (s.clearHostTest k) :=
  .ite h (.setChk (.wr (.wr (.wr (.wr h)))))

theorem refreshHost {k} (h : Still l s₀ s) : Still l s₀ (s.refreshHost k) := by
  unfold State.refreshHost
  extract_lets _ _ _ _ s3 _ s1
  have h3 : Still l s₀ s3 := .ite (.wr (.wr (.setHost h))) (.wr (.setHost h))
  have h1 : Still l s₀ s1 := by
    refine .ite ?_ ?_
    · exact .ite (.wr h) (.ite (.startTraining h) (.ite h (.enterData h)))
    · exact .refreshSig (.ite (.wr (.hostUnaligned (.wr h3))) (.hostUnaligned (.wr h3)))
  exact .clearHostTest h1

theorem refreshBond {n} (h : Still l s₀ s) : Still l s₀ (s.refreshBond n) := .refreshHost (.refreshHost h)

theorem leaveActive {n} (h : Still l s₀ s) : Still l s₀ (s.leaveActive n) := .setRx (.wr (.wr (.wr (.wr (.keep h)))))

theorem setTaps {n taps} (h : Still l s₀ s) : Still l s₀ (s.setTaps n taps) := .setRx h

theorem setTarget {n a1 a2} (h : Still l s₀ s) : Still l s₀ (s.setTarget n a1 a2) := .wr (.wr h)

theorem endNear {n} (h : Still l s₀ s) : Still l s₀ (s.endNear n) := by
  unfold State.endNear
  extract_lets
  split
  · exact h
  · exact .setTarget (.wr (.setTaps (.setRx h)))

theorem setLoop {n v} (h : Still l s₀ s) : Still l s₀ (s.setLoop n v) := .ite (.wr h) (.wr (.setTx (.wr h)))

theorem leaveMaint {n} (h : Still l s₀ s) : Still l s₀ (s.leaveMaint n) :=
  .endNear (.setChk (.wr (.setLoop (.wr (.wr h)))))

theorem abandonForeground {n st} (h : Still l s₀ s) : Still l s₀ (s.abandonForeground n st) := by
  unfold State.abandonForeground
  extract_lets
  split
  · exact h
  · exact .txCheck (.finishSt (.setTx (.setCal h)))

theorem dropLocks {n} (h : Still l s₀ s) : Still l s₀ (s.dropLocks n) := .setRx (.wr (.wr (.wr (.wr h))))

theorem endBursts {n} (h : Still l s₀ s) : Still l s₀ (s.endBursts n) := .wr (.setBst h)

theorem setSoft {n v} (h : Still l s₀ s) : Still l s₀ (s.setSoft n v) := .ite (.wr h) h

theorem loadDefaults {n} (h : Still l s₀ s) : Still l s₀ (s.loadDefaults n) :=
  .setTaps (.setRx (.setSoft (.setTarget (.wr (.wr h)))))

theorem loadSeed {n x} (h : Still l s₀ s) : Still l s₀ (s.loadSeed n x) :=
  .setTaps (.setRx (.wr (.setSoft (.setTarget (.wr (.wr h))))))

theorem setSweep {n b} (h : Still l s₀ s) : Still l s₀ (s.setSweep n b) := .setRx h

theorem watchPos {n m p} (h : Still l s₀ s) : Still l s₀ (s.watchPos n m p) := by
  unfold State.watchPos
  split
  · exact h
  · extract_lets
    refine .ite ?_ ?_
    · split
      · exact .ite (.setCal (.setSlice h)) (.setCal (.setSlice (.setSlice h)))
      · exact .setCal (.setSlice h)
    · exact .setSlice h

theorem watch {n m} (h : Still l s₀ s) : Still l s₀ (s.watch n m) := .ite (.foldl .watchPos h) h

theorem txConfigure {n drive fresh idle} (h : Still l s₀ s) : Still l s₀ (s.txConfigure n drive fresh idle) :=
  .txCheck (.setTx (.ite (.wr (.wr (.wr (.wr h)))) (.wr h)))

theorem startEpoch {c b} (h : Still l s₀ s) : Still l s₀ (s.startEpoch c b) := .wr (.wr (.setEpoch h))

theorem pruneRecords {n} (h : Still l s₀ s) : Still l s₀ (s.pruneRecords n) := .wr (.setBst h)

theorem activateBank {c i} (h : Still l s₀ s) : Still l s₀ (s.activateBank c i) := by
  unfold State.activateBank
  extract_lets
  split
  · exact .setEpoch (.wr (.wr h))
  · extract_lets s2 _ s4
    have h2 : Still l s₀ s2 := .wrB (.wrB (.wr (.setEpoch (.wr (.wr h)))))
    have h4 : Still l s₀ s4 := .foldl .pruneRecords (.wr (.wr h2))
    exact .ite h4 (.ite (.startEpoch h4) (.ite (.wr h4) (.ite h4 (.ite (.startEpoch h4) h4))))

theorem commitOff {c} (h : Still l s₀ s) : Still l s₀ (s.commitOff c) := by
  unfold State.commitOff
  split
  · exact .activateBank h
  · exact h

theorem epochRefresh {c} (h : Still l s₀ s) : Still l s₀ (s.epochRefresh c) := by
  unfold State.epochRefresh
  refine .ite ?_ ?_
  · exact .commitOff (.ite h (.wr h))
  · refine .ite ?_ ?_
    · split
      · exact .startEpoch h
      · exact h
    · exact h

theorem setHostCfg {k m prof train req} (h : Still l s₀ s) : Still l s₀ (s.setHostCfg k m prof train req) :=
  .wrB (.wr (.wrB (.wrB (.wr h))))

theorem hostReconfigure {k old} (h : Still l s₀ s) : Still l s₀ (s.hostReconfigure k old) :=
  .ite h (.ite (.startTraining h) (.enterData (.setHost h)))

theorem clearCounts {n} (h : Still l s₀ s) : Still l s₀ (s.clearCounts n) := .setRx (.wr (.wr (.wr (.wr (.wr h)))))

theorem burstCtle {n} (h : Still l s₀ s) : Still l s₀ (s.burstCtle n) := .wr h
end State.Still

/-! ## A lane takes a state -/

/-- From `s₀` to `s` lane `l` has gone to state `st`, and its configuration reads the same. -/
structure State.Enters (l st : Nat) (s₀ s : State) : Prop where
  lt : l < 64
  cfg : ∀ g ∈ laneFlds.tail, s.rd g l = s₀.rd g l
  lane : s.lane l = st

namespace State.Enters
variable {l st : Nat} {s₀ s t : State}

/-- What leaves the lane's fields alone keeps the state it has entered. -/
theorem still (h : Enters l st s₀ s) (ht : State.Still l s t) : Enters l st s₀ t := by
  obtain ⟨hl, hcfg, hlane⟩ := h
  obtain ⟨-, hr⟩ := ht rfl
  exact ⟨hl, fun g hg => (hr g (List.mem_of_mem_tail hg)).trans (hcfg g hg), (hr _ (.head _)).trans hlane⟩

theorem write (h : State.Still l s₀ s) (hst : st < 8) : Enters l st s₀ (s.wr Reg.LN.RX_STAT.LANE_STATE st l) := by
  obtain ⟨hl, hr⟩ := h rfl
  refine ⟨hl, fun g hg => ?_, (rd_wr_same ..).trans (Nat.mod_eq_of_lt hst)⟩
  have hne : g.inLane ≠ Reg.LN.RX_STAT.LANE_STATE.inLane := by
    revert g
    decide
  have hk : g.key l 0 ≠ Reg.LN.RX_STAT.LANE_STATE.key l 0 := by
    intro he
    obtain ⟨-, -, hg'⟩ := laneFlds_key hl (List.mem_of_mem_tail hg)
    obtain ⟨-, -, hs'⟩ := laneFlds_key hl (g := Reg.LN.RX_STAT.LANE_STATE) (.head _)
    exact hne (hg'.symm.trans ((congrArg (· % 131072) he).trans hs'))
  exact (rd_wr_ne _ _ _ _ _ _ _ _ hk).trans (hr g (List.mem_of_mem_tail hg))

theorem setLane (h : State.Still l s₀ s) (hst : st < 8) : Enters l st s₀ (s.setLane l st) := by
  unfold State.setLane
  extract_lets old s1 s2 s3 s4 _ s5 s6 s7 s8
  have h1 : State.Still l s₀ s1 := .ite h (.stopCapture h)
  have h2 : State.Still l s₀ s2 := .ite (.leaveActive h1) h1
  have h3 : State.Still l s₀ s3 := .ite (.leaveMaint (.abandonForeground h2)) h2
  have h4 : State.Still l s₀ s4 := .ite (.wr (.endBursts h3)) h3
  have h5 : Enters l st s₀ s5 := (write h4 hst).still (.setRx (.refl _ h4.lt))
  have h6 : State.Still l s5 s6 := .ite (.refl _ h5.lt) (.wr (.refl _ h5.lt))
  have h7 : State.Still l s5 s7 := .ite (.dropLocks h6) h6
  have h8 : State.Still l s5 s8 := .ite (.wr h7) h7
  exact h5.still (.calSettle (.txCheck (.refreshBond h8)))

theorem enterBurst (h : State.Still l s₀ s) : Enters l 4 s₀ (s.enterBurst l) :=
  setLane (.endBursts (.burstCtle (.dropLocks h))) (by decide)

theorem enterAcquire {step : Nat} (h : State.Still l s₀ s) : Enters l 2 s₀ (s.enterAcquire l step) := by
  have h1 : Enters l 2 s₀ (s.setLane l 2) := setLane h (by decide)
  exact h1.still (.setRx (.wr (.wr (.refl _ h1.lt))))

theorem startAcquire (h : State.Still l s₀ s) : Enters l 2 s₀ (s.startAcquire l) := by
  unfold State.startAcquire
  extract_lets s0 _ s1
  have h1 : State.Still l s₀ s1 := .setRx (.dropLocks h)
  split
  · exact enterAcquire (.wr (.loadSeed h1))
  · have h2 : Enters l 2 s₀ (((s1.loadDefaults l).wr Reg.LN.RX_STAT.SEED_LOADED 0 l).enterAcquire l 2) :=
      enterAcquire (.wr (.loadDefaults h1))
    exact h2.still (.setSweep (.refl _ h2.lt))

end State.Enters

/-! ## The configuration in force (R64) -/

/-- The Isyon status a lane in another mode reads as zero (R38). -/
def isyonFlds : List Fld :=
  [Reg.LN.FMT_STAT.SF_PHASE, Reg.LN.FMT_STAT.FAR_RDI, Reg.LN.FMT_STAT.FAR_DEGRADE, Reg.LN.FMT_STAT.FAR_SRC_FAULT,
    Reg.LN.FMT_STAT.FAR_LANE, Reg.LN.FMT_STAT.FAR_CONST, Reg.LN.CONST_ADV.MARGIN_P4, Reg.LN.CONST_ADV.MARGIN_P6]

namespace State
variable (s : State)

theorem clearIsyon_rd (n : Nat) : ∀ g ∈ isyonFlds, (s.clearIsyon n).rd g n = 0 := by
  simp [isyonFlds, clearIsyon, rd_wr_ne]

theorem setFmt_reads {n m : Nat} (hm : m < 7) (pre byp ocm nrz : Bool) :
    (s.setFmt n m pre byp ocm nrz).mode n = m ∧ (s.setFmt n m pre byp ocm nrz).flag Reg.LN.FMT_CFG.PRECODE n = pre ∧
      (s.setFmt n m pre byp ocm nrz).flag Reg.LN.FMT_CFG.OCM_EN n = ocm := by
  refine ⟨?_, ?_, ?_⟩
  · simp [setFmt, mode, wrB_eq, rd_wr_ne]
    omega
  · cases pre <;> simp [setFmt, flag, wrB_eq, rd_wr_ne, bitVal]
  · cases ocm <;> simp [setFmt, flag, wrB_eq, bitVal]

theorem setFmt_isyon {n m : Nat} (hm : isyon m = false) (pre byp ocm nrz : Bool) :
    ∀ g ∈ isyonFlds, (s.setFmt n m pre byp ocm nrz).rd g n = 0 := by
  have h := s.clearIsyon_rd n
  simp only [isyonFlds, List.mem_cons, List.not_mem_nil, or_false, forall_eq_or_imp, forall_eq] at h ⊢
  simpa [setFmt, hm, wrB_eq, rd_wr_ne] using h

/-! ## LANE_CONFIG (R335) -/

/-- What LANE_CONFIG refuses with BAD_FIELD (R2, R60, R143, R335). -/
def laneConfigBad (u : State) (f : Flight) : Prop :=
  let n := f.e.target.toNat
  let m := opByte f.e 16
  let bit (i : Nat) : Bool := opBits f.e 17 i 1 == 1
  6 < m ∨ (0 < m ∧ bitOf (u.rd Reg.GLB.CAP.MODES) (m - 1) = false) ∨ u.lane n = 5 ∨ u.lane n = 6 ∨
    (m = 0 ∧ (opByte f.e 17 ≠ 0 ∨ opByte f.e 18 ≠ 0)) ∨ (m ≠ 0 ∧ bit 0 = true ∧ m ≠ 3 ∧ m ≠ 4) ∨
    (m ≠ 0 ∧ driveOk m (opBits f.e 17 4 2) = false) ∨ (bit 2 = true ∧ m = 6) ∨ (bit 3 = true ∧ m ≠ 0 ∧ m ≠ 6) ∨
    (bit 1 = true ∧ (m = 1 ∨ m = 6))

theorem chkLaneConfig_eq (u : State) (f : Flight) [Decidable (laneConfigBad u f)] :
    chkLaneConfig u f = if laneConfigBad u f then some { st := .badField } else none := by
  unfold chkLaneConfig
  extract_lets n m b st bad
  have hb : bad = true ↔ laneConfigBad u f := by
    unfold bad laneConfigBad
    by_cases hm : m = 0
    · have hm' : opByte f.e 16 = 0 := hm
      simp [hm', m, modeEnabled, or_assoc, n, st]
    · have hm' : ¬ opByte f.e 16 = 0 := hm
      simp [hm', m, modeEnabled, or_assoc, n, st, b, Nat.pos_of_ne_zero hm', and_assoc]
  simp only [hb]

/-- The state with the configuration fields in force that a LANE_CONFIG names. -/
def laneFmt (f : Flight) : State :=
  s.setFmt f.e.target.toNat (opByte f.e 16) (opBits f.e 17 0 1 == 1) (opBits f.e 17 1 1 == 1)
    (opBits f.e 17 2 1 == 1) (opBits f.e 17 3 1 == 1)

/-- LANE_CONFIG leaves the lane in the state its mode calls for, with its configuration as `laneFmt` sets it. -/
theorem runLaneConfig_enters (g : Origin) (f : Flight) (hn : f.e.target.toNat < 64) :
    ∃ t res, runLaneConfig s g f = State.finish t g res ∧ res.st = .ok ∧
      res.r0 % 2 = (if opByte f.e 16 = 0 then 0 else 1) ∧
      Enters f.e.target.toNat (if opByte f.e 16 = 0 then 1 else if opByte f.e 16 = 6 then 4 else 2)
        (s.laneFmt f) t := by
  unfold runLaneConfig
  extract_lets n m b drive const prof fresh idle s1 t t' t2 s2 s3 s4 trained
  refine ⟨s4, _, rfl, rfl, ?_, ?_⟩
  · have hr : ∀ x y z : Nat, (x + 2 * y + 4 * z) % 2 = x % 2 := by omega
    rw [hr]
    by_cases hm : m = 0
    · rw [if_pos hm, hm]
      rfl
    · rw [if_neg hm, bne_iff_ne.mpr hm]
      rfl
  · have h1 : Still n (s.laneFmt f) s1 := .flushBufs (.clearCounts (.refl _ hn))
    have ht2 : Still n (s.laneFmt f) t2 := .ite (.setHostCfg (.setHostCfg h1)) (.setHostCfg h1)
    have h2 : Still n (s.laneFmt f) s2 := .ite (.setTx h1) (.txConfigure ht2)
    have h3 : Enters n (if m = 0 then 1 else if m = 6 then 4 else 2) (s.laneFmt f) s3 := by
      unfold s3
      split
      · exact .setLane h2 (by decide)
      · split
        · exact .enterBurst h2
        · exact .startAcquire h2
    have h4 : Still n s3 s4 :=
      .epochRefresh (.ite (.refl _ hn) (.hostReconfigure (.hostReconfigure (.refl _ hn))))
    exact h3.still h4

/-! ## LANE_STATE (R336) -/

theorem resumeLane_enters {n : Nat} (hn : n < 64) :
    Enters n (if s.mode n = 6 then 4 else if s.mode n = 0 then 1 else 2) s (s.resumeLane n) := by
  unfold resumeLane
  by_cases h6 : s.mode n = 6
  · rw [if_pos h6, if_pos h6]
    exact .enterBurst (.refl _ hn)
  · rw [if_neg h6, if_neg h6]
    by_cases h0 : s.mode n = 0
    · rw [if_pos h0, if_neg (by simp [h0])]
      exact .setLane (.refl _ hn) (by decide)
    · rw [if_neg h0, if_pos h0]
      exact .enterAcquire (.refl _ hn)

theorem laneStateOk_iff {to_ st : Nat} : laneStateOk to_ st = true ↔
    (to_ = 1 ∧ 1 ≤ st ∧ st ≤ 6) ∨ (to_ = 5 ∧ 1 ≤ st ∧ st ≤ 5) ∨ (to_ = 3 ∧ 2 ≤ st ∧ st ≤ 5) := by
  unfold laneStateOk
  split
  · simp
  · simp
  · simp
  · next h1 h5 h3 =>
    refine iff_of_false (by simp) ?_
    rintro (⟨h, -⟩ | ⟨h, -⟩ | ⟨h, -⟩)
    · exact h1 h
    · exact h5 h
    · exact h3 h

/-- LANE_STATE would take the lane out of IDLE, or out of MAINT to receive, with its quad off. -/
def needsQuad (f : Flight) : Prop :=
  (opByte f.e 16 = 5 ∧ s.lane f.e.target.toNat = 1) ∨
    (opByte f.e 16 = 3 ∧ s.lane f.e.target.toNat = 5 ∧ s.mode f.e.target.toNat ≠ 0)

/-- A lane in the target state already, or one not in MAINT that is to leave it, needs no quad. -/
theorem not_needsQuad {f : Flight} (h : s.lane f.e.target.toNat = opByte f.e 16 ∨
    (opByte f.e 16 = 3 ∧ s.lane f.e.target.toNat ≠ 5)) : ¬ s.needsQuad f := by
  unfold needsQuad
  omega

theorem chkLaneState_badField {f : Flight} (h : laneStateOk (opByte f.e 16) (s.lane f.e.target.toNat) = false) :
    chkLaneState s f = some { st := .badField } := by
  simp [chkLaneState, h]

theorem chkLaneState_domainOff {f : Flight} (h : laneStateOk (opByte f.e 16) (s.lane f.e.target.toNat) = true)
    (hq : s.needsQuad f) (hoff : s.quadOn (quadOfLane f.e.target.toNat) = false) :
    chkLaneState s f = some { st := .domainOff } := by
  rcases hq with ⟨ht, hl⟩ | ⟨ht, hl, hm⟩
  · rw [ht, hl] at h
    simp [chkLaneState, ht, hl, h, hoff]
  · rw [ht, hl] at h
    simp [chkLaneState, ht, hl, hm, h, hoff]

theorem chkLaneState_ok {f : Flight} (h : laneStateOk (opByte f.e 16) (s.lane f.e.target.toNat) = true)
    (hq : s.needsQuad f → s.quadOn (quadOfLane f.e.target.toNat) = true) : chkLaneState s f = none := by
  unfold chkLaneState
  extract_lets n t
  rw [if_neg (by simp [n, t, h]), if_neg ?_, if_neg ?_]
  · rintro ⟨ht, hl, hm, hoff⟩
    simp [n, hq (.inr ⟨ht, hl, hm⟩)] at hoff
  · rintro ⟨ht, hl, hoff⟩
    simp [n, hq (.inl ⟨ht, hl⟩)] at hoff

theorem runLaneState_stays (g : Origin) {f : Flight} (h : s.lane f.e.target.toNat = opByte f.e 16 ∨
    (opByte f.e 16 = 3 ∧ s.lane f.e.target.toNat ≠ 5)) : runLaneState s g f = s.finish g {} := by
  unfold runLaneState
  extract_lets n t st
  refine congrArg (fun u : State => u.finish g {}) ?_
  by_cases ht : t = 3
  · have h5 : ¬ st = 5 := by
      rcases h with h | h
      · exact fun h5 => absurd (h5.symm.trans (h.trans ht)) (by decide)
      · exact h.2
    rw [if_pos ht, if_neg h5]
  · have hst : st = t := h.resolve_right fun h => ht h.1
    rw [if_neg ht, if_pos hst]

theorem runLaneState_moves (g : Origin) {f : Flight} (h3 : opByte f.e 16 ≠ 3)
    (h : s.lane f.e.target.toNat ≠ opByte f.e 16) :
    runLaneState s g f = (s.setLane f.e.target.toNat (opByte f.e 16)).finish g {} := by
  simp [runLaneState, h3, h, finishSt]

theorem runLaneState_resumes (g : Origin) {f : Flight} (h3 : opByte f.e 16 = 3)
    (h : s.lane f.e.target.toNat = 5) : runLaneState s g f = (s.resumeLane f.e.target.toNat).finish g {} := by
  simp [runLaneState, h3, h, finishSt]

end State

/-- Settles O36: `runLaneConfig_enters` and `resumeLane_enters` for where the lane goes, and the two commands' own
conditions for what is refused. -/
theorem laneConfigAndLaneState : Obligations.LaneConfigAndLaneState := by
  refine ⟨?_, ?_⟩
  · intro s u r e d f ht n m bit bad
    have hn : n < 64 := ht.lane_lt rfl
    classical
    refine ⟨fun hb => ?_, fun hb => ?_⟩
    · have hc : chkLaneConfig u f = some { st := .badField } := (State.chkLaneConfig_eq u f).trans (if_pos hb)
      exact ⟨u, congrArg Host.Outcome.next (State.serve_refused ht _ hc), rfl⟩
    · have hc : chkLaneConfig u f = none := (State.chkLaneConfig_eq u f).trans (if_neg hb)
      obtain ⟨t, res, hrun, hst, hr0, hent⟩ :=
        (u.setPhase r f.fid .running).runLaneConfig_enters (.host r f.fid) f hn
      obtain ⟨-, hcfg, hlane⟩ := hent
      have hm : m < 7 := by
        by_contra h
        exact hb (.inl (Nat.lt_of_not_le fun h' => h (Nat.lt_succ_of_le h')))
      obtain ⟨hmode, hpre, hocm⟩ :=
        (u.setPhase r f.fid .running).setFmt_reads (n := n) hm (bit 0) (bit 1) (bit 2) (bit 3)
      refine ⟨res, hst, hr0, t, congrArg Host.Outcome.next ((State.serve_taken ht hc).trans hrun),
        ?_, hlane, ?_, ?_, ?_⟩
      · exact (hcfg _ (by decide)).trans hmode
      · rw [← hpre, State.flag, State.flag, hcfg _ (by decide)]
        rfl
      · rw [← hocm, State.flag, State.flag, hcfg _ (by decide)]
        rfl
      · intro hnot g hg
        have hiso : isyon m = false := by
          have h4 : m ≠ 4 ∧ m ≠ 5 := by omega
          simp [isyon, h4.1, h4.2]
        have hin : ∀ g ∈ isyonFlds, g ∈ laneFlds.tail := by decide
        exact (hcfg g (hin g hg)).trans (State.setFmt_isyon _ hiso _ _ _ _ g hg)
  · intro s u r e d f ht n to_ st ok
    have hn : n < 64 := ht.lane_lt rfl
    have hok : laneStateOk to_ st = true ↔ ok := State.laneStateOk_iff
    refine ⟨fun h => ?_, fun h hsame => ?_, fun h h3 hne hq => ?_, fun h hneeds hoff => ?_, fun h h3 h5 hq => ?_⟩
    · have hc := u.chkLaneState_badField (f := f) (by simpa using mt hok.mp h)
      exact ⟨u, congrArg Host.Outcome.next (State.serve_refused ht _ hc), rfl⟩
    · have hc := u.chkLaneState_ok (hok.mpr h) fun hn => absurd hn (u.not_needsQuad hsame)
      have hrun := (u.setPhase r f.fid .running).runLaneState_stays (.host r f.fid) (f := f) hsame
      exact ⟨_, congrArg Host.Outcome.next ((State.serve_taken ht hc).trans hrun), rfl⟩
    · have hquad : u.needsQuad f → u.quadOn (quadOfLane n) = true := by
        rintro (⟨h5, h1⟩ | ⟨h, -⟩)
        · exact hq h5 h1
        · exact absurd h h3
      have hc := u.chkLaneState_ok (hok.mpr h) hquad
      have hrun := (u.setPhase r f.fid .running).runLaneState_moves (.host r f.fid) h3 hne
      have hto : to_ < 8 := by omega
      exact ⟨_, congrArg Host.Outcome.next ((State.serve_taken ht hc).trans hrun),
        (State.Enters.setLane (.refl _ hn) hto).lane⟩
    · have hc := u.chkLaneState_domainOff (hok.mpr h) hneeds hoff
      exact ⟨u, congrArg Host.Outcome.next (State.serve_refused ht _ hc), rfl⟩
    · have hc := u.chkLaneState_ok (hok.mpr h) fun _ => hq
      have hrun := (u.setPhase r f.fid .running).runLaneState_resumes (.host r f.fid) h3 h5
      exact ⟨_, congrArg Host.Outcome.next ((State.serve_taken ht hc).trans hrun),
        ((u.setPhase r f.fid .running).resumeLane_enters hn).lane⟩

end Sys2Proof.Machine
end

section
/-! Register accesses through BAR0 (R9, R490 to R494, R498). -/

namespace Sys2Proof.Machine

/-! ## Which slots a dword holds (R490) -/

theorem Fld.key_copy {f : Fld} (hb : f.blk ≠ .hl) (i j : Nat) : f.key i j = f.key 0 j + f.istep * i := by
  simp [Fld.key, hb]

theorem idxs_shift (step cnt k w c : Nat) : idxs step cnt (k + c) (w + c) = idxs step cnt k w := by
  have h1 : w + c - (k + c) = w - k := by omega
  have h2 : w + c + 31 - (k + c) = w + 31 - k := by omega
  simp only [idxs, h1, h2]

/-- The same dword of another copy of a block holds the same fields. -/
theorem Fld.slots_copy {f : Fld} (hb : f.blk ≠ .hl) (i w : Nat) :
    f.slots (some i) (w + f.istep * i) = (f.slots (some 0) w).map fun p => (p.1, i, p.2.2) := by
  unfold Fld.slots
  dsimp only
  rw [Fld.key_copy hb i 0, idxs_shift, List.filter_map, List.filter_map, List.map_map]
  refine congrArg _ (List.filter_congr fun j _ => ?_)
  have h1 : f.key i j < w + f.istep * i + 32 ↔ f.key 0 j < w + 32 := by rw [Fld.key_copy hb]; omega
  have h2 : w + f.istep * i < f.key i j + f.w ↔ w < f.key 0 j + f.w := by rw [Fld.key_copy hb]; omega
  simp only [Function.comp_apply, h1, h2]

theorem slotsAt_copy {d d' i step : Nat} {b : Blk} (hd' : blkAt d' = some (b, some i)) (hd : blkAt d = some (b, some 0))
    (hs : 8 * d' = 8 * d + step * i) (hf : ∀ f ∈ b.fields, f.blk ≠ .hl ∧ f.istep = step) :
    slotsAt d' = (slotsAt d).map fun p => (p.1, i, p.2.2) := by
  unfold slotsAt
  rw [hd', hd]
  dsimp only
  rw [List.map_flatMap, hs]
  refine List.flatMap_congr fun f hm => ?_
  obtain ⟨hb, rfl⟩ := hf f hm
  exact Fld.slots_copy hb ..

theorem blkAt_ring (r : Nat) (o : Fin 64) (hr : r < 4096) :
    blkAt (0x3C0000 + 64 * r + o) = some (.ring, some r) := by
  have ho := o.isLt
  unfold blkAt
  repeat rw [if_neg (by omega)]
  rw [if_pos (by omega)]
  congr 3
  omega

theorem slotsAt_ring (r : RingNo) (o : Fin 64) :
    slotsAt (0x3C0000 + 64 * r + o) = (slotsAt (0x3C0000 + o)).map fun p => (p.1, r.val, p.2.2) :=
  slotsAt_copy (step := 512) (blkAt_ring r o r.isLt) (blkAt_ring 0 o (by decide)) (by omega) (by decide)

theorem slotsAt_sqBase_low (r : RingNo) : slotsAt (0x3C0000 + 64 * r) = [(Reg.RING.SQ_BASE.ADDR, r.val, 0)] := by
  have h : slotsAt 0x3C0000 = [(Reg.RING.SQ_BASE.ADDR, 0, 0)] := by decide +kernel
  exact (slotsAt_ring r 0).trans (congrArg _ h)

theorem slotsAt_sqBase_high (r : RingNo) : slotsAt (0x3C0000 + 64 * r + 4) = [(Reg.RING.SQ_BASE.ADDR, r.val, 0)] := by
  have h : slotsAt 0x3C0004 = [(Reg.RING.SQ_BASE.ADDR, 0, 0)] := by decide +kernel
  exact (slotsAt_ring r 4).trans (congrArg _ h)

theorem blkAt_lane (n : LaneNo) : blkAt (0x200000 + 0x4000 * n) = some (.ln, some n.val) := by
  have hn := n.isLt
  unfold blkAt
  repeat rw [if_neg (by omega)]
  rw [if_pos (by omega)]
  congr 3
  omega

theorem slotsAt_lane (n : LaneNo) :
    slotsAt (0x200000 + 0x4000 * n) = (slotsAt 0x200000).map fun p => (p.1, n.val, p.2.2) :=
  slotsAt_copy (step := 0x20000) (blkAt_lane n) (blkAt_lane 0) (by omega) (by decide +kernel)

theorem blkAt_bias (b : BiasNo) : blkAt (0x360100 + 16 * b) = some (.biasCh, some b.val) := by
  have hb := b.isLt
  unfold blkAt
  repeat rw [if_neg (by omega)]
  rw [if_pos (by omega), if_pos (by omega)]
  congr 3
  omega

theorem slotsAt_bias (b : BiasNo) :
    slotsAt (0x360100 + 16 * b) = (slotsAt 0x360100).map fun p => (p.1, b.val, p.2.2) :=
  slotsAt_copy (step := 128) (blkAt_bias b) (blkAt_bias 0) (by omega) (by decide)

namespace State
variable (s : State)

/-! ## A read of one dword by PF0 (R492, R494) -/

theorem placeOf_reg {d : Nat} (hd : d < 0x3F00000) : s.placeOf 0 d = .reg d := by
  unfold placeOf
  rw [if_pos rfl, if_neg (by omega), if_neg (by omega)]

theorem barOk_pf0 {a n : Nat} (hn : 1 ≤ n) (ha : a % 8 + n ≤ 8) (hd : a < 0x4000000) : s.barOk 0 a n = true := by
  simp [barOk, hn, ha, hd]

theorem dwordsOf_four {d : Nat} (hd : d % 4 = 0) : dwordsOf d 4 = [d] := by
  unfold dwordsOf
  rw [if_pos (by omega)]
  congr 1
  omega

/-- What a read of one register dword comes to: its value, what reading it clears, and the shadow of its upper half. -/
theorem mmioRead_dword {d : Nat} (hc : s.coreOn = true) (h4 : d % 4 = 0) (hd : d < 0x3F00000)
    (hsh : (s.fn 0).shadow = none) : s.mmioRead 0 d 4 =
      (((s.placeEffect (.reg d)).logOff [.reg d] false).setShadow 0
        (if isLo d && !s.dwordOff d then some (d + 4, s.placeRead 0 (s.placeOf 0 (d + 4))) else none)).emit
        (.readData 0 d 4 (s.placeRead 0 (.reg d) % 2 ^ 32)) := by
  unfold mmioRead
  rw [hc, s.barOk_pf0 (by omega) (by omega) (by omega), dwordsOf_four h4]
  simp [s.placeOf_reg hd, hsh, mmioLive, placeLo, placeOff]

theorem placeRead_on {f d : Nat} (h : s.dwordOff d = false) : s.placeRead f (.reg d) = s.readDword d := by
  simp [placeRead, h]

/-- The read of the upper half returns what the read of the lower half captured, and uses it up (R494). -/
theorem mmioRead_shadow {d v : Nat} (hc : s.coreOn = true) (h4 : d % 4 = 0) (hd : d < 0x3F00000)
    (hsh : (s.fn 0).shadow = some (d, v)) :
    s.mmioRead 0 d 4 = (s.setShadow 0 none).emit (.readData 0 d 4 (v % 2 ^ 32)) := by
  unfold mmioRead
  rw [hc, s.barOk_pf0 (by omega) (by omega) (by omega), dwordsOf_four h4]
  simp [hsh, h4]

theorem logOff_on {d : Nat} (wr : Bool) (h : s.dwordOff d = false) : s.logOff [.reg d] wr = s := by
  simp [logOff, placeOff, h]

theorem logOff_off {d : Nat} (wr : Bool) (h : s.dwordOff d = true) : s.logOff [.reg d] wr = s.logOffDomain d wr := by
  simp [logOff, placeOff, h, placeAddr]

/-- Where no slot reaches into the dword it is a reserved one: it reads as zero, and reading it does nothing. -/
theorem reserved_dword {d : Nat} (h : slotsAt d = []) :
    s.dwordOff d = false ∧ s.readDword d = 0 ∧ s.readEffect d = s := by
  simp [dwordOff, readDword, readEffect, h]

/-- A dword of the global block answers always. -/
theorem dwordOff_glb {d : Nat} {p : Slot'} {ps : List Slot'} (h : slotsAt d = p :: ps) (hb : p.1.blk = .glb) :
    s.dwordOff d = false := by
  simp [dwordOff, h, fieldOn, hb]

theorem slotsAt_accErr : slotsAt 0x108 = [(Reg.GLB.ACC_ERR.COUNT, 0, 0)] := by decide +kernel

theorem slotsAt_timeLow : slotsAt 0x208 = [(Reg.GLB.TIME.NS, 0, 0)] := by decide +kernel

theorem slotsAt_timeHigh : slotsAt 0x20C = [(Reg.GLB.TIME.NS, 0, 0)] := by decide +kernel

theorem slotsAt_id : slotsAt 0 = [(Reg.GLB.ID.PART, 0, 0), (Reg.GLB.ID.REV_MAJOR, 0, 0),
    (Reg.GLB.ID.REV_MINOR, 0, 0), (Reg.GLB.ID.FAMILY, 0, 0)] := by
  decide +kernel

theorem slotsAt_offdom : slotsAt 0x100 =
    [(Reg.GLB.OFFDOM.OFFSET, 0, 0), (Reg.GLB.OFFDOM.WRITE, 0, 0), (Reg.GLB.OFFDOM.VALID, 0, 0)] := by
  decide +kernel

theorem readDword_accErr : s.readDword 0x108 = s.rd Reg.GLB.ACC_ERR.COUNT % 65536 := by
  have hsee : s.see Reg.GLB.ACC_ERR.COUNT 0 0 = s.rd Reg.GLB.ACC_ERR.COUNT := by rfl
  simp only [readDword, slotsAt_accErr, List.map_cons, List.map_nil, List.foldl_cons, List.foldl_nil, slotBits, hsee]
  simp
  omega

theorem readDword_timeLow : s.readDword 0x208 = s.time % 2 ^ 32 := by
  have hsee : s.see Reg.GLB.TIME.NS 0 0 = s.time := by rfl
  simp only [readDword, slotsAt_timeLow, List.map_cons, List.map_nil, List.foldl_cons, List.foldl_nil, slotBits, hsee]
  simp

theorem readDword_timeHigh : s.readDword 0x20C = s.time / 2 ^ 32 % 2 ^ 32 := by
  have hsee : s.see Reg.GLB.TIME.NS 0 0 = s.time := by rfl
  simp only [readDword, slotsAt_timeHigh, List.map_cons, List.map_nil, List.foldl_cons, List.foldl_nil, slotBits, hsee]
  simp
  omega

theorem readEffect_accErr : s.readEffect 0x108 = s.wr Reg.GLB.ACC_ERR.COUNT 0 := by
  rw [readEffect, slotsAt_accErr]
  rfl

theorem readEffect_timeLow : s.readEffect 0x208 = s := by
  rw [readEffect, slotsAt_timeLow]
  rfl

/-! ## A write by PF0 (R492, R493) -/

theorem mmioWrite_partial {a n v : Nat} (hc : s.coreOn = true) (ha : a < 0x4000000) (hn : 1 ≤ n) (h8 : a % 8 + n ≤ 8)
    (hp : a % 4 ≠ 0 ∨ n % 4 ≠ 0) : s.mmioWrite 0 a n v = (s.setShadow 0 none).count Reg.GLB.ACC_ERR.COUNT := by
  unfold mmioWrite
  rw [hc, s.barOk_pf0 hn h8 ha]
  exact if_pos hp

/-- A write of one register dword whose block answers. -/
theorem mmioWrite_on {d v : Nat} (hc : s.coreOn = true) (h4 : d % 4 = 0) (hd : d < 0x3F00000)
    (hon : s.dwordOff d = false) : s.mmioWrite 0 d 4 v = (s.setShadow 0 none).writeDword 0 d (bitsOf v 0 32) := by
  have hon' : (s.setShadow 0 none).dwordOff d = false := hon
  unfold mmioWrite
  rw [hc, s.barOk_pf0 (by omega) (by omega) (by omega), dwordsOf_four h4]
  simp [h4, placeOf_reg _ hd, placeOff, placeWrite, hon', logOff]

/-- A write of one register dword whose block is off is logged and changes nothing of the block. -/
theorem mmioWrite_off {d v : Nat} (hc : s.coreOn = true) (h4 : d % 4 = 0) (hd : d < 0x3F00000)
    (hoff : s.dwordOff d = true) : s.mmioWrite 0 d 4 v = (s.setShadow 0 none).logOffDomain d true := by
  have hoff' : (s.setShadow 0 none).dwordOff d = true := hoff
  unfold mmioWrite
  rw [hc, s.barOk_pf0 (by omega) (by omega) (by omega), dwordsOf_four h4]
  simp [h4, placeOf_reg _ hd, placeOff, placeWrite, hoff', logOff, placeAddr]

/-- A write of both halves of a register whose block answers, where neither half's write has an effect. -/
theorem mmioWrite_both {d v : Nat} (hc : s.coreOn = true) (h8 : d % 8 = 0) (hd : d < 0x3F00000 - 8)
    (hlo : s.dwordOff d = false) (hhi : s.dwordOff (d + 4) = false)
    (hl : ∀ x, (s.setShadow 0 none).writeDword 0 d x = s.setShadow 0 none)
    (hh : ∀ x, (s.setShadow 0 none).writeDword 0 (d + 4) x = s.setShadow 0 none) :
    s.mmioWrite 0 d 8 v = s.setShadow 0 none := by
  have hlo' : (s.setShadow 0 none).dwordOff d = false := hlo
  have hhi' : (s.setShadow 0 none).dwordOff (d + 4) = false := hhi
  have h4 : d % 4 = 0 := by omega
  have hds : dwordsOf d 8 = [d, d + 4] := by
    unfold dwordsOf
    rw [if_neg (by omega)]
    congr 1
    · omega
    · congr 1
      omega
  unfold mmioWrite
  rw [hc, s.barOk_pf0 (by omega) (by omega) (by omega), hds]
  simp [h4, placeOf_reg _ (show d < 0x3F00000 by omega), placeOf_reg _ (show d + 4 < 0x3F00000 by omega), placeOff,
    placeWrite, hlo', hhi', hl, hh, logOff]

/-! ## Access codes (R9) -/

theorem writeSlot_ro {old : State} {w v : Nat} {p : Slot'} (h : p.1.acc = .ro) : writeSlot old w v s p = s := by
  simp [writeSlot, h]

theorem writeSlot_locked {old : State} {w v : Nat} {p : Slot'} (h : p.1.acc = .rwl) (hl : old.locked p.1 = true) :
    writeSlot old w v s p = s := by
  simp [writeSlot, h, hl]

theorem plainWrite_ro {d v : Nat} (h : ∀ p ∈ slotsAt d, p.1.acc = .ro) : s.plainWrite d v = s := by
  unfold plainWrite
  generalize slotsAt d = l at h
  induction l with
  | nil => rfl
  | cons p l ih =>
    rw [List.foldl_cons, writeSlot_ro _ (h p (.head _))]
    exact ih fun q hq => h q (.tail _ hq)

theorem writeDword_id (v : Nat) : s.writeDword 0 0 v = s := by
  have hp : s.plainWrite 0 v = s := s.plainWrite_ro (by rw [slotsAt_id]; decide)
  rw [writeDword, slotsAt_id]
  exact hp

theorem writeDword_offdom : s.writeDword 0 0x100 (bitsOf 0x80000000 0 32) = s.wr Reg.GLB.OFFDOM.VALID 0 := by
  have hp : s.plainWrite 0x100 (bitsOf 0x80000000 0 32) = s.wr Reg.GLB.OFFDOM.VALID 0 := by
    rw [plainWrite, slotsAt_offdom, List.foldl_cons, List.foldl_cons, List.foldl_cons, List.foldl_nil,
      writeSlot_ro s (p := (Reg.GLB.OFFDOM.OFFSET, 0, 0)) rfl, writeSlot_ro s (p := (Reg.GLB.OFFDOM.WRITE, 0, 0)) rfl]
    have ha : Reg.GLB.OFFDOM.VALID.acc = .w1c := rfl
    simp [writeSlot, bitsOf, ha]
  rw [writeDword, slotsAt_offdom]
  exact hp

/-- Under LOCK a write of a bias channel's CFG reaches its ramp alone. -/
theorem writeDword_biasCfg (b : BiasNo) (v : Nat) (hl : s.flag Reg.BIAS.CTRL.LOCK = true) :
    ∃ x, s.writeDword 0 (0x360100 + 16 * b) v = s.wr Reg.BIAS.CFG.RAMP x b := by
  have h0 : slotsAt 0x360100 = [(Reg.BIAS.CFG.RANGE_MASK, 0, 0), (Reg.BIAS.CFG.RAMP, 0, 0),
      (Reg.BIAS.CFG.CODE_MAX, 0, 0), (Reg.BIAS.CFG.QGRP, 0, 0), (Reg.BIAS.CFG.QG_EN, 0, 0), (Reg.BIAS.CFG.COMP_ACT, 0, 0),
      (Reg.BIAS.CFG.OPEN_ACT, 0, 0)] := by decide +kernel
  have hs := (slotsAt_bias b).trans (congrArg _ h0)
  have hp : ∃ x, s.plainWrite (0x360100 + 16 * b) v = s.wr Reg.BIAS.CFG.RAMP x b := by
    rw [plainWrite, hs]
    have he : ∀ (f : Fld), f.acc = .rwl → f.blk = .biasCh → ∀ t : State,
        writeSlot s (8 * (0x360100 + 16 * b)) v t (f, b.val, 0) = t :=
      fun f ha hb t => t.writeSlot_locked ha (by simp [locked, hb, hl])
    simp only [List.map_cons, List.map_nil, List.foldl_cons, List.foldl_nil]
    rw [he Reg.BIAS.CFG.RANGE_MASK rfl rfl, he Reg.BIAS.CFG.CODE_MAX rfl rfl, he Reg.BIAS.CFG.QGRP rfl rfl,
      he Reg.BIAS.CFG.QG_EN rfl rfl, he Reg.BIAS.CFG.COMP_ACT rfl rfl, he Reg.BIAS.CFG.OPEN_ACT rfl rfl]
    exact ⟨_, rfl⟩
  rw [writeDword, hs]
  exact hp

theorem writeDword_sqBase (r : RingNo) {d : Nat} (v : Nat) (hd : slotsAt d = [(Reg.RING.SQ_BASE.ADDR, r.val, 0)])
    (hr : s.atRest r = false) : s.writeDword 0 d v = s := by
  rw [writeDword, hd]
  exact if_neg (by simp [hr])

/-! ## The log of accesses to a domain that is off (R498) -/

theorem logOffDomain_valid {a : Nat} {wr : Bool} (h : s.flag Reg.GLB.OFFDOM.VALID = true) :
    s.logOffDomain a wr = s.count Reg.GLB.OFFDOM_CNT.COUNT := if_pos h

/-- The first access to be logged: where it was, and OFF_DOMAIN. -/
theorem logOffDomain_first {a : Nat} {wr : Bool} (h : s.flag Reg.GLB.OFFDOM.VALID = false) :
    ∃ detail, s.logOffDomain a wr = ((((s.count Reg.GLB.OFFDOM_CNT.COUNT).wr Reg.GLB.OFFDOM.OFFSET (a / 4)).wrB
      Reg.GLB.OFFDOM.WRITE wr).wr Reg.GLB.OFFDOM.VALID 1).raise 15 detail :=
  ⟨_, if_neg (by simp [h])⟩

/-- What the log names of the first access: its dword and its direction, with OFF_DOMAIN raised. -/
theorem logOffDomain_named (a : Nat) (wr : Bool) (h : s.flag Reg.GLB.OFFDOM.VALID = false) :
    (s.logOffDomain a wr).rd Reg.GLB.OFFDOM.OFFSET = a / 4 % 2 ^ 24 ∧
      (s.logOffDomain a wr).rd Reg.GLB.OFFDOM.WRITE = bitVal wr % 2 ∧
      (s.logOffDomain a wr).flag Reg.EVT.LATCH.RAISED 15 = true := by
  obtain ⟨detail, he⟩ := s.logOffDomain_first (a := a) (wr := wr) h
  rw [he]
  refine ⟨?_, ?_, raise_latch _ _ _ (by decide)⟩
  · rw [raise_rd _ _ _ _ _ _ (by simp) (by simp), rd_wr_ne _ _ _ _ _ _ _ _ (by simp), wrB_eq,
      rd_wr_ne _ _ _ _ _ _ _ _ (by simp), rd_wr_same]
    rfl
  · rw [raise_rd _ _ _ _ _ _ (by simp) (by simp), rd_wr_ne _ _ _ _ _ _ _ _ (by simp), wrB_eq, rd_wr_same]
    rfl

/-- Every access to a domain that is off is counted and leaves VALID set; lanes keep their states, and nothing is
sent. -/
theorem logOffDomain_reads (a : Nat) (wr : Bool) :
    (s.logOffDomain a wr).rd Reg.GLB.OFFDOM_CNT.COUNT = min (s.rd Reg.GLB.OFFDOM_CNT.COUNT + 1) 65535 ∧
      (s.logOffDomain a wr).flag Reg.GLB.OFFDOM.VALID = true ∧ (s.logOffDomain a wr).out = s.out ∧
      ∀ n, (s.logOffDomain a wr).lane n = s.lane n := by
  have hcount := s.count_rd Reg.GLB.OFFDOM_CNT.COUNT 1 0 0
  cases h : s.flag Reg.GLB.OFFDOM.VALID with
  | true =>
    rw [logOffDomain_valid _ h]
    refine ⟨hcount, ?_, rfl, fun n => rd_wr_ne _ _ _ _ _ _ _ _ (by simp; omega)⟩
    rw [flag, count, rd_wr_ne _ _ _ _ _ _ _ _ (by simp)]
    exact h
  | false =>
    obtain ⟨detail, he⟩ := s.logOffDomain_first (a := a) (wr := wr) h
    rw [he]
    refine ⟨?_, ?_, raise_out .., fun n => ?_⟩
    · rw [raise_rd _ _ _ _ _ _ (by simp) (by simp), rd_wr_ne _ _ _ _ _ _ _ _ (by simp), wrB_eq,
        rd_wr_ne _ _ _ _ _ _ _ _ (by simp), rd_wr_ne _ _ _ _ _ _ _ _ (by simp)]
      exact hcount
    · rw [flag, raise_rd _ _ _ _ _ _ (by simp) (by simp), rd_wr_same]
      rfl
    · rw [lane, raise_rd _ _ _ _ _ _ (by simp; omega) (by simp; omega), rd_wr_ne _ _ _ _ _ _ _ _ (by simp; omega),
        wrB_eq, rd_wr_ne _ _ _ _ _ _ _ _ (by simp; omega), rd_wr_ne _ _ _ _ _ _ _ _ (by simp; omega), count,
        rd_wr_ne _ _ _ _ _ _ _ _ (by simp; omega)]
      rfl

end State


theorem dwordOff_lane (s : State) (n : LaneNo) :
    s.dwordOff (0x200000 + 0x4000 * n) = !(s.courseD (courseOf n) && !s.laneInTest n) := by
  have h0 : ∃ p ps, slotsAt 0x200000 = p :: ps ∧ p.1.blk = .ln := ⟨_, _, rfl, rfl⟩
  obtain ⟨p, ps, hp, hb⟩ := h0
  have hs := (slotsAt_lane n).trans (congrArg _ hp)
  simp [State.dwordOff, hs, State.fieldOn, hb]

theorem dwordOff_bias (s : State) (b : BiasNo) (h : s.vbias = true) : s.dwordOff (0x360100 + 16 * b) = false := by
  have h0 : ∃ p ps, slotsAt 0x360100 = p :: ps ∧ p.1.blk = .biasCh := ⟨_, _, rfl, rfl⟩
  obtain ⟨p, ps, hp, hb⟩ := h0
  have hs := (slotsAt_bias b).trans (congrArg _ hp)
  simp [State.dwordOff, hs, State.fieldOn, hb, h]

/-- OFF_DOMAIN_ACCESS finds nothing to do where the block answers, and is a read or a logged write where it does not. -/
theorem offDomainAccess_read (s : State) {d : Nat} (hc : s.coreOn = true) (h4 : d % 4 = 0) (hd : d < 0x3F00000) :
    execOffDomainAccess 0 d false s = .next (if s.dwordOff d then s.mmioRead 0 d 4 else s) := by
  have ha : d / 4 * 4 = d := by omega
  unfold execOffDomainAccess
  rw [ha, hc]
  simp only [Fin.val_zero, s.placeOf_reg hd, s.barOk_pf0 (n := 4) (by omega) (by omega) (show d < 0x4000000 by omega)]
  cases h : s.dwordOff d <;> simp [State.placeOff, h]

/-- Settles O35: each access through `mmioRead_dword` or one of the `mmioWrite` lemmas, and what the dword's slots
are. -/
theorem registerReadsAndWrites : Obligations.RegisterReadsAndWrites := by
  refine ⟨⟨?_, ?_, ?_, ?_, ?_, ?_⟩, ?_, ?_, ?_, ?_, ?_, ?_, ?_, ?_⟩
  · intro f a n s h
    refine congrArg Host.Outcome.next (if_pos ?_)
    rcases h with h | h | h
    · simp [h]
    · simp [State.barOk, h]
    · simp [State.barOk, Nat.not_le.mpr h]
  · intro d s hc h4 hd hslots hsh
    obtain ⟨hoff, hread, heff⟩ := s.reserved_dword hslots
    have he : s.placeEffect (.reg d) = s := by simp [State.placeEffect, hoff, heff]
    refine .of (congrArg Host.Outcome.next (s.mmioRead_dword hc h4 hd hsh)) ?_
    rw [he, s.logOff_on _ hoff]
    refine ⟨?_, rfl⟩
    simp [State.placeRead, hoff, hread, State.emit, State.setShadow, State.setFn]
  · intro s hc hsh
    have hoff := s.dwordOff_glb State.slotsAt_accErr rfl
    refine .of (congrArg Host.Outcome.next (s.mmioRead_dword hc (by decide) (by decide) hsh)) ?_
    have he : s.placeEffect (.reg 0x108) = s.wr Reg.GLB.ACC_ERR.COUNT 0 := by
      simp [State.placeEffect, hoff, State.readEffect_accErr]
    rw [he, State.logOff_on _ _ (State.dwordOff_glb _ State.slotsAt_accErr rfl), s.placeRead_on hoff,
      State.readDword_accErr]
    have ho : OnlyRegs s (s.wr Reg.GLB.ACC_ERR.COUNT 0) [Reg.GLB.ACC_ERR.COUNT.key 0 0] :=
      (OnlyRegs.of_regs rfl).wr (by simp)
    refine ⟨?_, s.rd_wr_same Reg.GLB.ACC_ERR.COUNT 0 0 0, rfl, ho.2⟩
    simp [State.emit, State.setShadow, State.setFn]
    omega
  · intro s hc hsh
    have hlo := s.dwordOff_glb State.slotsAt_timeLow rfl
    have hhi := s.dwordOff_glb State.slotsAt_timeHigh rfl
    have he : s.placeEffect (.reg 0x208) = s := by simp [State.placeEffect, hlo, State.readEffect_timeLow]
    refine .of (congrArg Host.Outcome.next (s.mmioRead_dword hc (by decide) (by decide) hsh)) ?_
    rw [he, s.logOff_on _ hlo, s.placeOf_reg (by decide), s.placeRead_on hlo, s.placeRead_on hhi,
      State.readDword_timeLow, State.readDword_timeHigh, hlo]
    refine ⟨?_, congrArg FnX.shadow (State.fn_setFn_same ..), rfl⟩
    simp [State.emit, State.setShadow, State.setFn]
  · intro v s hc hsh hv
    have he := s.mmioRead_shadow hc (by decide) (by decide) hsh
    rw [Nat.mod_eq_of_lt hv] at he
    exact .of (congrArg Host.Outcome.next he) ⟨rfl, congrArg FnX.shadow (State.fn_setFn_same ..), rfl⟩
  · exact fun f s => ⟨rfl, rfl⟩
  · intro a n v s hc ha hn h8 hp
    refine .of (congrArg Host.Outcome.next (s.mmioWrite_partial hc ha hn h8 hp)) ⟨?_, ?_⟩
    · exact (s.setShadow 0 none).count_rd ..
    · exact (OnlyRegs.of_regs rfl).wr (by simp)
  · intro v s hc
    have he := s.mmioWrite_on (v := v) hc (by decide) (by decide) (s.dwordOff_glb State.slotsAt_id rfl)
    rw [State.writeDword_id] at he
    exact .of (congrArg Host.Outcome.next he) rfl
  · intro s hc
    have he := s.mmioWrite_on (v := 0x80000000) hc (by decide) (by decide) (s.dwordOff_glb State.slotsAt_offdom rfl)
    rw [State.writeDword_offdom] at he
    exact .of (congrArg Host.Outcome.next he) ⟨State.rd_wr_same .., (OnlyRegs.of_regs rfl).wr (by simp)⟩
  · intro b v s hc hv hl
    obtain ⟨x, hx⟩ := (s.setShadow 0 none).writeDword_biasCfg b (bitsOf v 0 32) hl
    have he := s.mmioWrite_on (d := 0x360100 + 16 * b) (v := v) hc (by omega) (by omega) (dwordOff_bias s b hv)
    rw [hx] at he
    exact .of (congrArg Host.Outcome.next he)
      ⟨State.rd_wr_ne _ _ _ _ _ _ _ _ (by simp), State.rd_wr_ne _ _ _ _ _ _ _ _ (by simp), rfl⟩
  · intro r v s hc hr
    have hrest : (s.setShadow 0 none).atRest r = false := by
      show s.atRest r = false
      simp [State.atRest, hr]
    have he := s.mmioWrite_both (d := 0x3C0000 + 64 * r) (v := v) hc (by omega) (by omega)
      (by simp [State.dwordOff, slotsAt_sqBase_low]; rfl) (by simp [State.dwordOff, slotsAt_sqBase_high]; rfl)
      (fun x => State.writeDword_sqBase _ r x (slotsAt_sqBase_low r) hrest)
      (fun x => State.writeDword_sqBase _ r x (slotsAt_sqBase_high r) hrest)
    exact .of (congrArg Host.Outcome.next he) rfl
  · intro n v s hc hoff
    have hd : s.dwordOff (0x200000 + 0x4000 * n) = true := by simp [dwordOff_lane, hoff]
    have he := s.mmioWrite_off (v := v) hc (by omega) (by omega) hd
    obtain ⟨hcount, hvalid, -, hlane⟩ := (s.setShadow 0 none).logOffDomain_reads (0x200000 + 0x4000 * n) true
    refine .of (congrArg Host.Outcome.next he) ⟨hcount, hvalid, fun h => ?_, fun h => ?_, hlane n⟩
    · obtain ⟨hofs, hwr, hraised⟩ := (s.setShadow 0 none).logOffDomain_named (0x200000 + 0x4000 * n) true h
      refine ⟨?_, ?_, hraised⟩
      · rw [hofs]
        omega
      · rw [State.flag, hwr]
        rfl
    · rw [State.logOffDomain_valid (s.setShadow 0 none) h]
      exact (OnlyRegs.of_regs rfl).wr (by simp)
  · intro n s hc hoff hsh
    have hd : s.dwordOff (0x200000 + 0x4000 * n) = true := by simp [dwordOff_lane, hoff]
    obtain ⟨hcount, -, hout, hlane⟩ := s.logOffDomain_reads (0x200000 + 0x4000 * n) false
    have hread := offDomainAccess_read s (d := 0x200000 + 0x4000 * n) hc (by omega) (by omega)
    rw [if_pos hd, s.mmioRead_dword hc (by omega) (by omega) hsh] at hread
    refine .of hread ?_
    have he : s.placeEffect (.reg (0x200000 + 0x4000 * n)) = s := by simp [State.placeEffect, hd]
    rw [he, s.logOff_off _ hd]
    refine ⟨?_, hcount, hlane n⟩
    simp [State.emit, State.setShadow, State.setFn, hout, State.placeRead, hd]
  · intro n s hc hon ht
    have hd : s.dwordOff (0x200000 + 0x4000 * n) = false := by simp [dwordOff_lane, hon, ht]
    have hread := offDomainAccess_read s (d := 0x200000 + 0x4000 * n) hc (by omega) (by omega)
    rwa [if_neg (by simp [hd])] at hread

end Sys2Proof.Machine
end

section
/-! Engines as units (R17 to R22, R31, R377): what the operations of a substitution and of a fault come to. -/

namespace Sys2Proof.Machine

/-- A fold whose steps all leave the start alone leaves it alone. -/
theorem foldl_stays {α β : Type} {f : β → α → β} {b : β} {l : List α} (h : ∀ a ∈ l, f b a = b) : l.foldl f b = b := by
  induction l with
  | nil => rfl
  | cons a l ih => rw [List.foldl_cons, h a (.head _), ih fun x hx => h x (.tail _ hx)]

/-- From `s` to `t` nothing but the register file and the raises on their way differs. -/
def Logs (s t : State) : Prop := t = { s with regs := t.regs, raises := t.raises, held := t.held }

namespace Logs
variable {s t : State}

theorem refl (s : State) : Logs s s := rfl

theorem wr {f : Fld} {v i j : Nat} (h : Logs s t) : Logs s (t.wr f v i j) := by
  unfold Logs at h ⊢
  exact congrArg (fun u : State => { u with regs := (t.wr f v i j).regs }) h

theorem raise {src detail : Nat} (h : Logs s t) : Logs s (t.raise src detail) := by
  obtain ⟨rs, hs, he⟩ := t.raise_eq src detail
  rw [he]
  unfold Logs at h ⊢
  exact congrArg (fun u : State => { (u.wr Reg.EVT.LATCH.RAISED 1 src).wr Reg.EVT.STAT.LAST_SRC src with
    regs := ((t.wr Reg.EVT.LATCH.RAISED 1 src).wr Reg.EVT.STAT.LAST_SRC src).regs, raises := rs, held := hs }) h

/-- What the log leaves alone. -/
theorem eqs (h : Logs s t) : t.phase = s.phase ∧ t.cores = s.cores ∧ t.tests = s.tests ∧ t.time = s.time ∧
    t.hod = s.hod ∧ t.eng = s.eng ∧ t.engMap = s.engMap ∧ t.failed = s.failed ∧ t.subst = s.subst := by
  rw [h]
  exact ⟨rfl, rfl, rfl, rfl, rfl, rfl, rfl, rfl, rfl⟩

end Logs

namespace State
variable (s : State)

/-! ## Raises -/

theorem raise_lastSrc {src detail : Nat} (h : src < 1024) : (s.raise src detail).rd Reg.EVT.STAT.LAST_SRC = src := by
  rw [rd_congr _ _ (s.raise_regs src detail), rd_wr_same]
  exact Nat.mod_eq_of_lt h

/-! ## The map of the engines and the spares -/

theorem engMapOf_setEngMap (e e' : Nat) (m : EngMap) :
    (s.setEngMap e m).engMapOf e' = if e' = e then m else s.engMapOf e' := by
  unfold engMapOf setEngMap
  split
  · next h => rw [h, Tab.get_set_same]
  · next h => exact Tab.get_set_ne _ _ _ _ _ _ h

@[simp] theorem wr_engMapOf (f : Fld) (v i j e : Nat) : (s.wr f v i j).engMapOf e = s.engMapOf e := rfl

theorem freeSpare_lt {i : Nat} (h : s.freeSpare = some i) : i < 8 := List.mem_range.mp (List.mem_of_find?_eq_some h)

/-- Which spare is free hangs on the map of the spares and on the flags of their use alone. -/
theorem freeSpare_congr {s t : State} (hm : ∀ i, t.flag Reg.GLB.ENG_SPARE_MAP.MAPPED i = s.flag Reg.GLB.ENG_SPARE_MAP.MAPPED i)
    (he : ∀ i, t.engMapOf (88 + i) = s.engMapOf (88 + i)) : t.freeSpare = s.freeSpare := by
  simp only [freeSpare, hm, he]

/-- An engine no spare stands in for gives none up when it fails. -/
theorem dropSpare_unmapped {e : Nat} (h : ∀ j < 8, s.flag Reg.GLB.ENG_SPARE_MAP.MAPPED j = true →
    s.rd Reg.GLB.ENG_SPARE_MAP.LOGICAL j ≠ e) : s.dropSpare e = s := by
  refine foldl_stays fun j hj => if_neg ?_
  simpa using h j (List.mem_range.mp hj)

/-! ## What the conditions of several chapters hang on -/

theorem coreRuns_congr {s t : State} (hc : t.cores = s.cores) (ht : t.tests = s.tests) (k : Nat) :
    t.coreRuns k = s.coreRuns k := by
  simp only [coreRuns, core, hc, ht]

theorem k4On_congr {s t : State} (hp : t.phase = s.phase) (hc : t.cores = s.cores) (ht : t.tests = s.tests) :
    t.k4On = s.k4On := by
  simp only [k4On, coreOn, hp, coreRuns_congr hc ht]

theorem inTransition_congr {s t : State} (h : t.pwr = s.pwr) (d i : Nat) : t.inTransition d i = s.inTransition d i := by
  simp only [inTransition, h]

theorem goingOff_congr {s t : State} (h : t.pwr = s.pwr) (c : Nat) : t.goingOff c = s.goingOff c := by
  simp only [goingOff, h]

theorem courseD_congr {s t : State} (h : t.pwr = s.pwr) (c : Nat) : t.courseD c = s.courseD c := by
  simp only [courseD, coursePow, h]

/-! ## A fault outside an update (R459, R460, R464) -/

/-- The update state after a fault that starts no fallback. -/
def faultNoted : State := { s with upd := { s.upd with faulted := true } }

theorem updFault_quiet (h : s.updQuiet) : s.updFault = s.faultNoted := by
  obtain ⟨h3, h4, hb⟩ := h
  unfold updFault
  extract_lets s1 st
  rw [if_neg (by rintro (h | h) <;> contradiction), if_neg (by simp [hb])]
  rfl

/-! ## The foreman takes a failed engine (R17, R31) -/

variable {s}

theorem startSubst_empty (h : s.failed = []) (fuel : Nat) : s.startSubst fuel = s := by
  cases fuel with
  | zero => rfl
  | succ fuel => rw [startSubst, h]; simp [lowestFailed]

/-- A power transition of the engine's course comes first. -/
theorem startSubst_waits {f : FailedEng} (hf : s.failed = [f]) (ht : s.inTransition 1 (courseOfEngine f.e) = true)
    (fuel : Nat) : s.startSubst fuel = s := by
  cases fuel with
  | zero => rfl
  | succ fuel => rw [startSubst, hf]; simp [lowestFailed, ht]

/-- The lowest free spare is mapped, and the engine is loaded into it. -/
theorem startSubst_maps {f : FailedEng} {i : Nat} (hf : s.failed = [f]) (h0 : s.coreRuns 0 = true)
    (hs : s.subst = none) (ht : s.inTransition 1 (courseOfEngine f.e) = false)
    (hg : s.goingOff (courseOfEngine f.e) = false) (hi : s.freeSpare = some i)
    (hd : s.courseD (courseOfEngine f.e) = true) (fuel : Nat) : s.startSubst (fuel + 1) =
      (({ s with subst := some (f.e, i) } : State).wr Reg.GLB.ENG_SPARE_MAP.LOGICAL f.e i).wr
        Reg.GLB.ENG_SPARE_MAP.MAPPED 1 i := by
  have hl : lowestFailed s.failed = some f := by rw [hf]; rfl
  unfold startSubst
  rw [if_neg (by simp [hs, h0]), hl]
  dsimp only
  rw [if_neg (by simp [ht, hg]), hi]
  exact if_pos hd

variable (s)

/-! ## An engine is declared failed (R377) -/

/-- A framer or optics engine no spare stands in for has been declared failed, with the substitution `x` in progress. -/
def engineDown (e cause pc : Nat) (x : Option (Nat × Nat)) : State :=
  (({ s.faultNoted with failed := [⟨e, cause, pc⟩], subst := x } : State).setEngMap e .substituting).wr
    Reg.ENG.STAT.LAST_CAUSE cause e

theorem engineFail_eq {e cause pc : Nat} (he : 64 ≤ e) (hc : s.coreOn = true)
    (hd : s.courseD (courseOfEngine e) = true) (hr : s.engMapOf e = .running) (h0 : s.coreRuns 0 = true)
    (hs : s.subst = none) (hf : s.failed = []) (hu : s.updQuiet)
    (hm : ∀ j < 8, s.flag Reg.GLB.ENG_SPARE_MAP.MAPPED j = true → s.rd Reg.GLB.ENG_SPARE_MAP.LOGICAL j ≠ e) :
    s.engineFail e cause pc = (s.engineDown e cause pc none).startSubst 96 := by
  have hdrop : (s.wr Reg.ENG.STAT.LAST_CAUSE cause e).dropSpare e = s.wr Reg.ENG.STAT.LAST_CAUSE cause e := by
    refine dropSpare_unmapped _ fun j hj => ?_
    rw [flag, rd_wr_ne _ _ _ _ _ _ _ _ (by simp; omega), rd_wr_ne _ _ _ _ _ _ _ _ (by simp; omega)]
    exact hm j hj
  have hquiet : (s.wr Reg.ENG.STAT.LAST_CAUSE cause e).updQuiet := by
    unfold updQuiet
    rw [rd_wr_ne _ _ _ _ _ _ _ _ (by simp; omega)]
    exact hu
  have hnote : ((s.wr Reg.ENG.STAT.LAST_CAUSE cause e).dropSpare e).updFault =
      (s.wr Reg.ENG.STAT.LAST_CAUSE cause e).faultNoted := by rw [hdrop, updFault_quiet _ hquiet]
  have hstop : (s.core 0).stopped = false := by
    simp only [coreRuns, Bool.and_eq_true, Bool.not_eq_true'] at h0
    exact h0.1.1
  have hlost : ∀ t : State, t.engineLost e = t := fun t => if_neg (by omega)
  unfold engineFail
  rw [if_neg (by simp [hc, hd, hr])]
  simp only [hnote, hlost]
  rw [if_neg (by simpa [faultNoted, core] using hstop)]
  simp [engineDown, faultNoted, hf, hs, setEngMap, wr]

theorem engineDown_reads (e cause pc : Nat) (x : Option (Nat × Nat)) (hc : cause < 256) :
    (s.engineDown e cause pc x).engMapOf e = .substituting ∧
      (s.engineDown e cause pc x).rd Reg.ENG.STAT.LAST_CAUSE e = cause := by
  constructor
  · rw [engineDown, wr_engMapOf, engMapOf_setEngMap, if_pos rfl]
  · exact (rd_wr_same ..).trans (Nat.mod_eq_of_lt hc)

theorem engineDown_frame {e cause pc : Nat} {x : Option (Nat × Nat)} {keys : List Nat}
    (hk : Reg.ENG.STAT.LAST_CAUSE.key e 0 ∈ keys) :
    OnlyRegs (({ s.faultNoted with failed := [⟨e, cause, pc⟩], subst := x } : State).setEngMap e .substituting)
      (s.engineDown e cause pc x) keys := (OnlyRegs.of_regs rfl).wr hk

theorem engineDown_freeSpare {e cause pc : Nat} {x : Option (Nat × Nat)} (he : e < 80) :
    (s.engineDown e cause pc x).freeSpare = s.freeSpare := by
  refine freeSpare_congr (fun i => ?_) fun i => ?_
  · rw [engineDown, flag, rd_wr_ne _ _ _ _ _ _ _ _ (by simp; omega)]
    rfl
  · rw [engineDown, wr_engMapOf, engMapOf_setEngMap, if_neg (by omega)]
    rfl

theorem engineDown_keeps (e cause pc : Nat) (x : Option (Nat × Nat)) :
    (s.engineDown e cause pc x).failed = [⟨e, cause, pc⟩] ∧ (s.engineDown e cause pc x).subst = x ∧
      (s.engineDown e cause pc x).cores = s.cores ∧ (s.engineDown e cause pc x).tests = s.tests ∧
      (s.engineDown e cause pc x).pwr = s.pwr := ⟨rfl, rfl, rfl, rfl, rfl⟩

theorem engineDown_substituted {e cause pc i : Nat} (he : e < 80) (h0 : s.coreRuns 0 = true)
    (ht : s.inTransition 1 (courseOfEngine e) = false) (hg : s.goingOff (courseOfEngine e) = false)
    (hi : s.freeSpare = some i) (hd : s.courseD (courseOfEngine e) = true) :
    (s.engineDown e cause pc none).startSubst 96 =
      ((s.engineDown e cause pc (some (e, i))).wr Reg.GLB.ENG_SPARE_MAP.LOGICAL e i).wr
        Reg.GLB.ENG_SPARE_MAP.MAPPED 1 i := by
  obtain ⟨hf, hs, hc, htests, hp⟩ := s.engineDown_keeps e cause pc none
  exact startSubst_maps hf ((coreRuns_congr hc htests 0).trans h0) hs ((inTransition_congr hp ..).trans ht)
    ((goingOff_congr hp _).trans hg) ((s.engineDown_freeSpare he).trans hi) ((courseD_congr hp _).trans hd) 95

theorem engineDown_waits {e cause pc : Nat} (ht : s.inTransition 1 (courseOfEngine e) = true) :
    (s.engineDown e cause pc none).startSubst 96 = s.engineDown e cause pc none := by
  obtain ⟨hf, -, -, -, hp⟩ := s.engineDown_keeps e cause pc none
  exact startSubst_waits hf ((inTransition_congr hp ..).trans ht) 96

end State

theorem engineFailure_course {e : EngineNo} {cause : Fin 5} {s : State} (he : e.val < 80) (hc : cause.val ≠ 0) :
    exec (.engineFailure e cause) s = .next (s.engineFail e cause (s.engOf e).pc.toNat) := by
  show execEngineFailure e cause s = _
  rw [execEngineFailure, if_neg hc, if_pos he]

theorem engineFailure_spare {e : EngineNo} {cause : Fin 5} {s : State} (he : 88 ≤ e.val)
    (hc : cause.val = 1 ∨ cause.val = 4) (hon : s.coreOn = true)
    (hm : s.flag Reg.GLB.ENG_SPARE_MAP.MAPPED (e - 88) = false) (hr : s.engMapOf e = .running) :
    exec (.engineFailure e cause) s = .next ((s.wr Reg.ENG.STAT.LAST_CAUSE cause e).setEngMap e .unmapped) := by
  show execEngineFailure e cause s = _
  rw [execEngineFailure, if_neg (by omega), if_neg (by omega), if_neg (by simp [hon]; omega), if_neg (by simp [hm, hr]),
    if_pos hc]

theorem watchdogExpiry_course {e : EngineNo} {s : State} (he : e.val < 80) (ha : (s.engOf e).asleep = none) :
    exec (.watchdogExpiry e) s = exec (.engineFailure e 2) s := by
  rw [engineFailure_course he (by decide)]
  show execWatchdogExpiry e s = _
  simp [execWatchdogExpiry, ha, State.anyEngineFail, he]

namespace State
variable (s : State)

/-! ## The substitute of a framer runs (R17, R396) -/

/-- The memory of engine `e` is fresh; what its state blocks are is known, and the interval of its counters is partial. -/
def blank (e : Nat) : State :=
  (List.range 4).foldl (fun t i => t.wr Reg.ENG.PMC_SEL.PARTIAL 1 e i)
    (s.setEng e { prog := (s.engOf e).prog, blockSlot := (s.engOf e).blockSlot, blockLens := (s.engOf e).blockLens })

theorem engineFresh_course {e : Nat} (h : 64 ≤ e) (h' : e < 80) (ecc : List EccHit) :
    s.engineFresh ecc e = ((s.blank e).resumeBlock ecc e).sleepIdle e := by
  unfold engineFresh
  extract_lets x s1 s2
  rw [if_neg (by omega)]
  exact congrArg (fun t : State => t.sleepIdle e) (if_pos h')

theorem blank_frame (e : Nat) :
    s.blank e = { s with regs := (s.blank e).regs, eng := (s.blank e).eng } := by
  unfold blank
  generalize List.range 4 = l
  induction l using List.reverseRecOn with
  | nil => rfl
  | append_singleton l i ih =>
    rw [List.foldl_concat]
    exact congrArg (fun t : State => t.wr Reg.ENG.PMC_SEL.PARTIAL 1 e i) ih

theorem blank_engOf (e : Nat) : (s.blank e).engOf e =
    { prog := (s.engOf e).prog, blockSlot := (s.engOf e).blockSlot, blockLens := (s.engOf e).blockLens } := by
  have h : ∀ t : State, ((List.range 4).foldl (fun t i => t.wr Reg.ENG.PMC_SEL.PARTIAL 1 e i) t).eng = t.eng :=
    fun t => foldl_proj State.eng (fun _ _ => wr_eng ..) _ t
  rw [engOf, blank, h]
  exact engOf_setEng_same ..

/-- Outside the windows of the engines every register reads as before. -/
theorem blank_rd (e : Nat) {f : Fld} {i j : Nat} (h : f.key i j < 8 * 0x1000000) :
    (s.blank e).rd f i j = s.rd f i j := by
  have hne : ∀ n, f.key i j ≠ Reg.ENG.PMC_SEL.PARTIAL.key e n := fun n => by simp; omega
  simp only [blank, List.range, List.range.loop, List.foldl, rd_wr_ne _ _ _ _ _ _ _ _ (hne _)]
  rfl

/-- The state of an engine that goes on from slot `b` of its state blocks; `none`: from firmware defaults. -/
def resumeAt (e : Nat) (b : Option Nat) : State := s.setEng e { s.engOf e with resumed := b }

variable {s}

/-! ### Reading a state block -/

theorem readBlock_empty {e slot : Nat} (h : Tab.get 0 (s.engOf e).blockLens slot = 0) (ecc : List EccHit) :
    s.readBlock ecc e slot = (s, false) := by
  rw [readBlock, h]
  rfl

/-- The word at which slot `slot` of the state blocks begins lies beyond the general region of the hod. -/
theorem blockOfs_word (e slot : Nat) : captureBase ≤ 8 * (blockOfs e slot / 8) := by
  simp only [captureBase, blockOfs]
  omega

theorem readBlock_word {e slot : Nat} {w : HodWord} (hn : Tab.get 0 (s.engOf e).blockLens slot = 8)
    (hc : s.rd Reg.HOD.STAT.CHK_FAIL = 0) (hw : s.hodWord (blockOfs e slot / 8) = some w) :
    s.readBlock [] e slot =
      (if w.bad then s.hodUncorr (blockOfs e slot / 8) 1 false else s, !w.bad) := by
  have hread : s.hodRead (blockOfs e slot / 8) 1 [] =
      (if w.bad then s.hodUncorr (blockOfs e slot / 8) 1 false else s, w.v, w.bad) := by
    have hg : s.granule (blockOfs e slot / 8) = true := by simp [granule, blockOfs_word]
    have hb : ∀ k, bitOf 0 k = false := fun k => by simp [bitOf]
    unfold hodRead
    rw [hg, hw, hc]
    cases hbad : w.bad <;> simp [hb, hbad]
  simp only [readBlock, hn, hodReads, hread]
  cases w.bad <;> simp

variable (s)

/-- An uncorrectable word is counted and logged (R395). -/
def hodLogged (w src : Nat) : State :=
  (((s.count Reg.HOD.ECC_UNCORR.COUNT).wr Reg.HOD.ECC_LOG.WORD w).wr Reg.HOD.ECC_LOG.SOURCE src).wr
    Reg.HOD.ECC_LOG.VALID 1

theorem hodUncorr_cases (w src : Nat) (quiet : Bool) : s.hodUncorr w src quiet = s.hodLogged w src ∨
    s.hodUncorr w src quiet = (s.hodLogged w src).raise 10 (w + src * 2 ^ 25) := by
  unfold hodUncorr
  extract_lets was s1
  split
  · exact .inl rfl
  · exact .inr rfl

/-- A field outside the event registers reads as it does in the log. -/
theorem hodUncorr_rd (w src : Nat) (quiet : Bool) {f : Fld} {i j : Nat} (hf : 8 * 0x8000 ≤ f.key i j) :
    (s.hodUncorr w src quiet).rd f i j = (s.hodLogged w src).rd f i j := by
  rcases s.hodUncorr_cases w src quiet with he | he
  · rw [he]
  · rw [he, raise_rd _ _ _ _ _ _ (by simp; omega) (by simp; omega)]

theorem hodUncorr_source {w src : Nat} (quiet : Bool) (h : src < 8) :
    (s.hodUncorr w src quiet).rd Reg.HOD.ECC_LOG.SOURCE = src := by
  rw [hodUncorr_rd _ _ _ _ (by simp), hodLogged, rd_wr_ne _ _ _ _ _ _ _ _ (by simp), rd_wr_same]
  exact Nat.mod_eq_of_lt h

theorem hodUncorr_chkFail (w src : Nat) (quiet : Bool) :
    (s.hodUncorr w src quiet).rd Reg.HOD.STAT.CHK_FAIL = s.rd Reg.HOD.STAT.CHK_FAIL := by
  rw [hodUncorr_rd _ _ _ _ (by simp), hodLogged, rd_wr_ne _ _ _ _ _ _ _ _ (by simp),
    rd_wr_ne _ _ _ _ _ _ _ _ (by simp), rd_wr_ne _ _ _ _ _ _ _ _ (by simp), count, rd_wr_ne _ _ _ _ _ _ _ _ (by simp)]

end State

theorem Logs.hodUncorr {s t : State} {w src : Nat} {quiet : Bool} (h : Logs s t) : Logs s (t.hodUncorr w src quiet) := by
  have hlog : Logs s (t.hodLogged w src) := (((h.wr).wr).wr).wr
  rcases t.hodUncorr_cases w src quiet with he | he
  · rwa [he]
  · rw [he]
    exact hlog.raise

namespace State
variable (s : State)

/-! ### Where the engine goes on -/

variable {s}

/-- Slot `k` of the state blocks of engine `e` was written last. -/
theorem resumeBlock_first {ecc : List EccHit} {e k : Nat} {t : State} (hk : 1 - (s.engOf e).blockSlot = k)
    (h : s.readBlock ecc e k = (t, true)) : s.resumeBlock ecc e = t.resumeAt e (some k) := by
  simp only [resumeBlock, hk, h]
  rfl

theorem resumeBlock_other {ecc : List EccHit} {e k : Nat} {t u : State} (hk : 1 - (s.engOf e).blockSlot = k)
    (h : s.readBlock ecc e k = (t, false)) (h' : t.readBlock ecc e (1 - k) = (u, true)) :
    s.resumeBlock ecc e = u.resumeAt e (some (1 - k)) := by
  simp only [resumeBlock, hk, h, h']
  rfl

theorem resumeBlock_defaults {ecc : List EccHit} {e k : Nat} {t u : State} (hk : 1 - (s.engOf e).blockSlot = k)
    (h : s.readBlock ecc e k = (t, false)) (h' : t.readBlock ecc e (1 - k) = (u, false)) :
    s.resumeBlock ecc e = u.resumeAt e none := by
  simp only [resumeBlock, hk, h, h']
  rfl

variable (s)

theorem sleepIdle_frame (e : Nat) : s.sleepIdle e = { s with eng := (s.sleepIdle e).eng } := by
  unfold sleepIdle
  split
  · rfl
  · rfl

/-- An engine that sleeps holds what it held. -/
theorem sleepIdle_engOf (e : Nat) : ((s.sleepIdle e).engOf e).resumed = (s.engOf e).resumed ∧
    ((s.sleepIdle e).engOf e).g = (s.engOf e).g := by
  unfold sleepIdle
  split
  · rw [engOf_setEng_same]
    exact ⟨rfl, rfl⟩
  · exact ⟨rfl, rfl⟩

/-- The substitution of engine `e` is over, with no other engine failed: `e` runs again, its memory fresh. -/
def revived (e : Nat) : State := (({ s with subst := none, failed := [] } : State).setEngMap e .running).blank e

theorem revived_keeps (e : Nat) : (s.revived e).subst = none ∧ (s.revived e).failed = [] ∧
    (s.revived e).phase = s.phase ∧ (s.revived e).cores = s.cores ∧ (s.revived e).tests = s.tests ∧
    (s.revived e).time = s.time ∧ (s.revived e).raises = s.raises ∧ (s.revived e).hod = s.hod ∧
    (s.revived e).engMapOf e = .running := by
  have hmap : ∀ t : State, (t.blank e).engMapOf e = t.engMapOf e := fun t => by
    rw [engMapOf, t.blank_frame]
    rfl
  refine ⟨?_, ?_, ?_, ?_, ?_, ?_, ?_, ?_, ?_⟩
  case refine_9 => rw [revived, hmap, engMapOf_setEngMap, if_pos rfl]
  all_goals
    rw [revived, blank_frame]
    rfl

theorem revived_engOf (e : Nat) : (s.revived e).engOf e =
    { prog := (s.engOf e).prog, blockSlot := (s.engOf e).blockSlot, blockLens := (s.engOf e).blockLens } :=
  blank_engOf ..

theorem revived_rd (e : Nat) {f : Fld} {i j : Nat} (h : f.key i j < 8 * 0x1000000) :
    (s.revived e).rd f i j = s.rd f i j := blank_rd _ _ h

/-- The substitute serves: what its engine holds is in `t`, it goes on from `b`, and ENGINE_FAULT is raised. -/
def substServes (e cause i : Nat) (t : State) (b : Option Nat) : State :=
  ((t.resumeAt e b).sleepIdle e).engineEvent e cause (some i)

end State

theorem lt_of_engine {e : Nat} (h : e < 80) (h' : 64 ≤ e) : courseSrc (courseOfEngine e) 11 < 160 := by
  simp only [courseSrc, courseOfEngine, if_neg (show ¬ e < 64 by omega)]
  omega

theorem substServes_reads {s t : State} {e i cause : Nat} {b : Option Nat} (h1 : 64 ≤ e) (h2 : e < 80)
    (ht : Logs (s.revived e) t) :
    (State.substServes e cause i t b).engMapOf e = .running ∧ (State.substServes e cause i t b).subst = none ∧
      (State.substServes e cause i t b).failed = [] ∧ ((State.substServes e cause i t b).engOf e).g = [] ∧
      ((State.substServes e cause i t b).engOf e).resumed = b ∧
      (State.substServes e cause i t b).rd Reg.EVT.STAT.LAST_SRC = courseSrc (courseOfEngine e) 11 ∧
      (s.k4On = true → (State.substServes e cause i t b).raises = t.raises ++
        [⟨courseSrc (courseOfEngine e) 11, s.time, e + 256 * cause + (128 + 65536 * (88 + i)), false⟩]) ∧
      ∀ f k j, 8 * 0x8000 ≤ f.key k j → (State.substServes e cause i t b).rd f k j = t.rd f k j := by
  obtain ⟨hphase, hcores, htests, htime, -, heng, hmap, hfailed, hsubst⟩ := ht.eqs
  obtain ⟨rsubst, rfailed, rphase, rcores, rtests, rtime, -, -, rmap⟩ := s.revived_keeps e
  have hsrc := lt_of_engine h2 h1
  obtain ⟨u, hu⟩ : ∃ u, u = (t.resumeAt e b).sleepIdle e := ⟨_, rfl⟩
  have hserve : State.substServes e cause i t b =
      u.raise (courseSrc (courseOfEngine e) 11) (e + 256 * cause + (128 + 65536 * (88 + i))) := by rw [hu]; rfl
  have hframe : u = { t with eng := u.eng } := by rw [hu]; exact State.sleepIdle_frame ..
  have hengu : (u.engOf e).resumed = b ∧ (u.engOf e).g = [] := by
    obtain ⟨hres, hg⟩ := (t.resumeAt e b).sleepIdle_engOf e
    rw [hu, hres, hg, State.resumeAt, State.engOf_setEng_same]
    refine ⟨rfl, ?_⟩
    rw [State.engOf, heng]
    exact congrArg EngX.g (s.revived_engOf e)
  obtain ⟨-, -, -, -, -, qeng, qmap, qfailed, qsubst⟩ := ((Logs.refl u).raise
    (src := courseSrc (courseOfEngine e) 11) (detail := e + 256 * cause + (128 + 65536 * (88 + i)))).eqs
  rw [hserve]
  have hk4 : u.k4On = s.k4On := State.k4On_congr (by rw [hframe]; exact hphase.trans rphase)
    (by rw [hframe]; exact hcores.trans rcores) (by rw [hframe]; exact htests.trans rtests)
  have hut : u.time = s.time := by rw [hframe]; exact htime.trans rtime
  refine ⟨?_, ?_, ?_, ?_, ?_, State.raise_lastSrc _ (by omega), fun hk => ?_, fun f k j hf => ?_⟩
  · rw [State.engMapOf, qmap, hframe]
    exact (congrArg (fun m => Tab.get EngMap.running m e) hmap).trans rmap
  · rw [qsubst, hframe]; exact hsubst.trans rsubst
  · rw [qfailed, hframe]; exact hfailed.trans rfailed
  · rw [State.engOf, qeng]; exact hengu.2
  · rw [State.engOf, qeng]; exact hengu.1
  · rw [State.raise_raises _ _ _ (hk4.trans hk), hut, hframe]
  · rw [State.raise_rd _ _ _ _ _ _ (by simp; omega) (by simp; omega), hframe]
    rfl

/-- ENGINE_SUBSTITUTED for a framer whose state block has been looked for. -/
theorem engineSubstituted_framer {s t : State} {e i cause pc : Nat} {ecc : List EccHit} {b : Option Nat}
    (h1 : 64 ≤ e) (h2 : e < 80) (heven : e % 2 = 0) (h0 : s.coreRuns 0 = true) (hs : s.subst = some (e, i))
    (hf : s.failed = [⟨e, cause, pc⟩]) (ht : Logs (s.revived e) t)
    (hb : (s.revived e).resumeBlock ecc e = t.resumeAt e b) :
    exec (.engineSubstituted ecc) s = .next (State.substServes e cause i t b) := by
  obtain ⟨-, -, hfailed, -⟩ := substServes_reads (cause := cause) (i := i) (b := b) h1 h2 ht
  show execEngineSubstituted ecc s = _
  unfold execEngineSubstituted
  simp only [hs, h0, hf, List.find?_cons, List.filter_cons, List.filter_nil, beq_self_eq_true, bne_self_eq_false,
    Bool.not_true, Bool.false_eq_true, if_false, if_neg (show ¬ e < 64 by omega), if_neg (show ¬ e % 2 = 1 by omega),
    State.engineFresh_course _ h1 h2]
  refine congrArg Host.Outcome.next ?_
  have hfresh : ((({ s with subst := none, failed := [] } : State).setEngMap e .running).blank e).resumeBlock ecc e =
    t.resumeAt e b := hb
  rw [hfresh]
  exact State.startSubst_empty hfailed 96

/-- What a substitute finds in slot `j` of its state blocks is what the slot held. -/
theorem revived_readBlock {s t : State} {e j v : Nat} {bad : Bool} (ht : Logs (s.revived e) t)
    (hc : t.rd Reg.HOD.STAT.CHK_FAIL = 0) (hl : Tab.get 0 (s.engOf e).blockLens j = 8)
    (hw : s.hodWord (blockOfs e j / 8) = some ⟨v, bad⟩) :
    t.readBlock [] e j = (if bad then t.hodUncorr (blockOfs e j / 8) 1 false else t, !bad) := by
  obtain ⟨-, -, -, -, hhod, heng, -⟩ := ht.eqs
  obtain ⟨-, -, -, -, -, -, -, rhod, -⟩ := s.revived_keeps e
  refine State.readBlock_word (w := ⟨v, bad⟩) ?_ hc ?_
  · rw [State.engOf, heng]
    exact (congrArg (fun x => Tab.get 0 x.blockLens j) (s.revived_engOf e)).trans hl
  · simp only [State.hodWord, hhod, rhod]
    exact hw

/-- Settles O14: what a declared failure comes to (`engineFail_eq`), and where its substitute goes on
(`engineSubstituted_framer`, `revived_readBlock`). -/
theorem failedEnginesAreSubstituted : Obligations.FailedEnginesAreSubstituted := by
  refine ⟨⟨?_, ?_⟩, ?_, ?_, ?_⟩
  · intro e cause s i he1 he2 hcause hon hd hr h0 hs hf hu hi hm
    have hexec := (engineFailure_course he2 hcause).trans (congrArg Host.Outcome.next
      (s.engineFail_eq (pc := (s.engOf e).pc.toNat) (cause := cause) he1 hon hd hr h0 hs hf hu hm))
    constructor
    · intro ht hg
      rw [s.engineDown_substituted he2 h0 ht hg hi hd] at hexec
      obtain ⟨hmap, hlast⟩ := s.engineDown_reads e cause (s.engOf e).pc.toNat (some (e.val, i)) (by omega)
      have hi8 := s.freeSpare_lt hi
      refine .of hexec ⟨rfl, hmap, ?_, ?_, ?_, ?_⟩
      · rw [State.flag, State.rd_wr_same]
        rfl
      · rw [State.rd_wr_ne _ _ _ _ _ _ _ _ (by simp), State.rd_wr_same]
        exact Nat.mod_eq_of_lt (by show e.val < 128; omega)
      · rw [State.rd_wr_ne _ _ _ _ _ _ _ _ (by simp; omega), State.rd_wr_ne _ _ _ _ _ _ _ _ (by simp; omega)]
        exact hlast
      · have hframe := s.engineDown_frame (e := e.val) (cause := cause) (pc := (s.engOf e).pc.toNat) (x := some (e.val, i))
          (keys := [Reg.GLB.ENG_SPARE_MAP.MAPPED.key i 0, Reg.GLB.ENG_SPARE_MAP.LOGICAL.key i 0,
            Reg.ENG.STAT.LAST_CAUSE.key e 0]) (by simp)
        exact (hframe.wr (by simp)).wr (by simp)
    · intro ht
      rw [s.engineDown_waits ht] at hexec
      obtain ⟨hmap, -⟩ := s.engineDown_reads e cause (s.engOf e).pc.toNat none (by omega)
      refine .of hexec ⟨rfl, hmap, rfl, ?_⟩
      have hframe := s.engineDown_frame (e := e.val) (cause := cause) (pc := (s.engOf e).pc.toNat) (x := none)
        (keys := [Reg.ENG.STAT.LAST_CAUSE.key e 0]) (by simp)
      rw [hs]
      exact hframe
  · intro e cause s he hcause hon hm hr
    refine .of (engineFailure_spare he hcause hon hm hr) ⟨?_, ?_, ?_⟩
    · rw [State.engMapOf_setEngMap, if_pos rfl]
    · exact (State.rd_wr_same ..).trans (Nat.mod_eq_of_lt (by show cause.val < 256; omega))
    · exact OnlyRegs.wr (s := { s with engMap := _ }) (.of_regs rfl) (by simp)
  · intro s e i cause pc ecc h1 h2 heven hi h0 hs hf hl
    have hempty : ∀ j, Tab.get 0 ((s.revived e).engOf e).blockLens j = 0 := fun j => by
      rw [s.revived_engOf, hl]
      rfl
    have hb := State.resumeBlock_defaults rfl (State.readBlock_empty (hempty _) ecc) (State.readBlock_empty (hempty _) ecc)
    obtain ⟨hmap, hsub, hfail, hg, -, hsrc, hraise, -⟩ :=
      substServes_reads (cause := cause) (i := i) (b := none) h1 h2 (Logs.refl (s.revived e))
    refine .of (engineSubstituted_framer h1 h2 heven h0 hs hf (.refl _) hb) ⟨hmap, hsub, hfail, hg, hsrc, fun hk => ?_⟩
    obtain ⟨-, -, -, -, -, -, hraises, -⟩ := s.revived_keeps e
    rw [hraise hk, hraises]
  · intro s e i cause pc k h1 h2 heven hi h0 hs hf hc hk hslot hl
    have hrc : (s.revived e).rd Reg.HOD.STAT.CHK_FAIL = 0 := (s.revived_rd e (by simp)).trans hc
    have hfirst : 1 - ((s.revived e).engOf e).blockSlot = k := by
      rw [s.revived_engOf, hslot]
      omega
    constructor
    · intro v hv
      have hb := State.resumeBlock_first hfirst (revived_readBlock (.refl _) hrc hl hv)
      obtain ⟨-, -, -, -, hres, -, -, hrd⟩ :=
        substServes_reads (cause := cause) (i := i) (b := some k) h1 h2 (Logs.refl (s.revived e))
      refine .of (engineSubstituted_framer h1 h2 heven h0 hs hf (.refl _) hb) ⟨hres, ?_⟩
      rw [hrd _ _ _ (by simp), s.revived_rd _ (by simp)]
    · intro v hv hl'
      have hlost := revived_readBlock (.refl _) hrc hl hv
      have hlogs := (Logs.refl (s.revived e)).hodUncorr (w := blockOfs e k / 8) (src := 1) (quiet := false)
      have hchk := ((s.revived e).hodUncorr_chkFail (blockOfs e k / 8) 1 false).trans hrc
      constructor
      · intro v' hv'
        have hb := State.resumeBlock_other hfirst hlost (revived_readBlock hlogs hchk hl' hv')
        obtain ⟨-, -, -, -, hres, -, -, hrd⟩ :=
          substServes_reads (cause := cause) (i := i) (b := some (1 - k)) h1 h2 hlogs
        refine .of (engineSubstituted_framer h1 h2 heven h0 hs hf hlogs hb) ⟨hres, ?_⟩
        rw [hrd _ _ _ (by simp)]
        exact State.hodUncorr_source _ _ (by decide)
      · intro v' hv'
        have hb := State.resumeBlock_defaults hfirst hlost (revived_readBlock hlogs hchk hl' hv')
        have hlogs' := hlogs.hodUncorr (w := blockOfs e (1 - k) / 8) (src := 1) (quiet := false)
        obtain ⟨-, -, -, -, hres, -⟩ := substServes_reads (cause := cause) (i := i) (b := none) h1 h2 hlogs'
        exact .of (engineSubstituted_framer h1 h2 heven h0 hs hf hlogs' hb) hres
  · intro e s h1 h2 ha
    exact watchdogExpiry_course h2 ha

end Sys2Proof.Machine
end

section
/-! What the ends of courses, quads and links, faults and the moves of a pair spare: the keep cores with K0's engine and
the phase of the device (R21, R27), the image that runs with the status of its boot (R449), pads that are latched (R421),
and, while no engine waits for a spare, the map of the spares (R20). The lemmas follow the operations in the order of the
model's text. -/

namespace Sys2Proof.Machine

/-- No engine waits for a spare, and none is being loaded into one. -/
def State.calm (s : State) : Prop := s.failed = [] ∧ s.subst = none

/-- The bits of `GLB.ENG_SPARE_MAP` in the register file. -/
def mapPlace (k : Nat) : Prop := 8 * 0x1800 ≤ k ∧ k < 8 * 0x1808

/-- The bits of `SEC.BOOT_STAT` and `UPD.VERSION.RUNNING` in the register file. -/
def bootPlace (k : Nat) : Prop := 8 * 0x4004 ≤ k ∧ k < 8 * 0x4008 ∨ 8 * 0x4408 ≤ k ∧ k < 8 * 0x440C

/-- From `s₀` to `s` the parts of the state named above are as they were. -/
structure State.Spared (s₀ s : State) : Prop where
  phase : s.phase = s₀.phase
  cores : s.cores = s₀.cores
  k0 : s.engOf 80 = s₀.engOf 80
  running : s.upd.running = s₀.upd.running
  bootTrial : s.upd.bootTrial = s₀.upd.bootTrial
  boot : ∀ k d, bootPlace k → Tab.get d s.regs k = Tab.get d s₀.regs k
  padsC : ∀ c, s₀.padHeldC c = true → s.padHeldC c = true ∧ s.padLatch c = s₀.padLatch c
  padsQ : ∀ q, s₀.padHeldQ q = true → s.padHeldQ q = true
  spares : s₀.calm → s.calm ∧ ∀ k d, mapPlace k → Tab.get d s.regs k = Tab.get d s₀.regs k

theorem ne_k0_of_mem_courseLanes {c n : Nat} (hc : c < 8) (hn : n ∈ courseLanes c) : n ≠ 80 := by
  obtain ⟨i, hi, rfl⟩ := List.mem_map.mp hn
  have := List.mem_range.mp hi
  omega

theorem ne_k0_of_mem_courseEngines {c e : Nat} (hc : c < 8) (he : e ∈ courseEngines c) : e ≠ 80 := by
  rcases List.mem_append.mp he with he | he
  · exact ne_k0_of_mem_courseLanes hc he
  · simp only [framerOf, opticsOf, List.mem_cons, List.not_mem_nil, or_false] at he
    omega

theorem State.padHeldQ_setPadHeldQ (s : State) (q q' : Nat) (b : Bool) :
    (s.setPadHeldQ q b).padHeldQ q' = if q' = q then b else s.padHeldQ q' := by
  unfold padHeldQ setPadHeldQ
  split
  · next h => rw [h, Tab.get_set_same]
  · next h => exact Tab.get_set_ne _ _ _ _ _ _ h

theorem State.padHeldC_setPadHeldC_ne (s : State) (b : Bool) {c c' : Nat} (h : c' ≠ c) :
    (s.setPadHeldC c b).padHeldC c' = s.padHeldC c' := Tab.get_set_ne _ _ _ _ _ _ h

theorem State.padLatch_setPadLatch_ne (s : State) (x : PadLatch) {c c' : Nat} (h : c' ≠ c) :
    (s.setPadLatch c x).padLatch c' = s.padLatch c' := Tab.get_set_ne _ _ _ _ _ _ h

namespace State.Spared
variable {s₀ s t : State}

theorem refl (s : State) : Spared s s :=
  ⟨rfl, rfl, rfl, rfl, rfl, fun _ _ _ => rfl, fun _ h => ⟨h, rfl⟩, fun _ h => h, fun h => ⟨h, fun _ _ _ => rfl⟩⟩

/-- An update of other parts of the state: one record update, whatever its fields. -/
theorem keep
    {time pending freeCtr out rings fns arb vecs vfEnable raises held doorHeld engMap therm sec twin tests hod rx tx cal
     bst shots epoch host htx chk seeds retire bgFused bgHigh bgLow mortar bias scv dec cmis tapIr}
    (h : Spared s₀ s) :
    Spared s₀ ⟨time, pending, freeCtr, out, s.phase, s.regs, rings, fns, arb, vecs, vfEnable, raises, held, doorHeld,
      s.pwr, s.cores, engMap, s.failed, s.subst, therm, sec, s.upd, twin, tests, hod, rx, tx, cal, bst, shots, epoch,
      host, htx, chk, seeds, retire, bgFused, bgHigh, bgLow, mortar, bias, scv, dec, cmis, s.eng, tapIr⟩ := { h with }

theorem keepUpd {upd} (h : Spared s₀ s) (hr : upd.running = s.upd.running) (hb : upd.bootTrial = s.upd.bootTrial) :
    Spared s₀ { s with upd := upd } := { h with running := hr.trans h.running, bootTrial := hb.trans h.bootTrial }

theorem keepPwr {pwr} (h : Spared s₀ s) (hc : pwr.heldC = s.pwr.heldC) (hl : pwr.latch = s.pwr.latch)
    (hq : pwr.heldQ = s.pwr.heldQ) : Spared s₀ { s with pwr := pwr } :=
  { h with
    padsC := fun c hc' => by
      simp only [padHeldC, padLatch, hc, hl]
      exact h.padsC c hc'
    padsQ := fun q hq' => by
      simp only [padHeldQ, hq]
      exact h.padsQ q hq' }

/-- With an engine waiting for a spare at the start nothing is said of those that wait later. -/
theorem keepBusy {failed subst} (h : Spared s₀ s) (hb : ¬ s₀.calm) :
    Spared s₀ { s with failed := failed, subst := subst } := { h with spares := fun hc => absurd hc hb }

theorem ite {c : Prop} [Decidable c] (ht : Spared s₀ s) (he : Spared s₀ t) : Spared s₀ (if c then s else t) := by
  split
  · exact ht
  · exact he

theorem foldlOn {α : Type} {f : State → α → State} {l : List α} {p : α → Prop} (hl : ∀ x ∈ l, p x)
    (hf : ∀ {t x}, p x → Spared s₀ t → Spared s₀ (f t x)) (h : Spared s₀ s) : Spared s₀ (l.foldl f s) := by
  induction l generalizing s with
  | nil => exact h
  | cons x xs ih => exact ih (fun y hy => hl y (.tail _ hy)) (hf (hl x (.head _)) h)

theorem foldl {α : Type} {f : State → α → State} {l : List α} (hf : ∀ {t x}, Spared s₀ t → Spared s₀ (f t x))
    (h : Spared s₀ s) : Spared s₀ (l.foldl f s) := foldlOn (p := fun _ => True) (fun _ _ => trivial) (fun _ => hf) h

/-- What holds of the register file before a change of other places holds after it. -/
theorem regs {r : Tab Nat} (h : Spared s₀ s) (hb : ∀ k d, bootPlace k → Tab.get d r k = Tab.get d s.regs k)
    (hm : s₀.calm → ∀ k d, mapPlace k → Tab.get d r k = Tab.get d s.regs k) : Spared s₀ { s with regs := r } :=
  { h with
    boot := fun k d hk => (hb k d hk).trans (h.boot k d hk)
    spares := fun hc =>
      have ⟨hcalm, hmap⟩ := h.spares hc
      ⟨hcalm, fun k d hk => (hm hc k d hk).trans (hmap k d hk)⟩ }

theorem wrOf {f v i j} (h : Spared s₀ s) (hf : 0x7E00 ≤ f.addr) : Spared s₀ (s.wr f v i j) := by
  have hk : 8 * 0x7E00 ≤ f.key i j := by
    unfold Fld.key
    omega
  refine .regs h (fun k d hb => Tab.get_set_ne _ _ _ _ _ _ ?_) fun _ k d hm => Tab.get_set_ne _ _ _ _ _ _ ?_
  · rintro rfl
    unfold bootPlace at hb
    omega
  · rintro rfl
    unfold mapPlace at hm
    omega

/-- A field named by a constant of `Reg` from the event latches on: unification finds its address to be
`addr + 0x7E00`. -/
theorem wr {blk addr istep icnt jstep jcnt lo w acc rst} {v i j} (h : Spared s₀ s) :
    Spared s₀ (s.wr ⟨blk, addr + 0x7E00, istep, icnt, jstep, jcnt, lo, w, acc, rst⟩ v i j) :=
  wrOf h (Nat.le_add_left 0x7E00 addr)

/-- A field of the update block other than the version that runs. -/
theorem wrAt {f v i j} (h : Spared s₀ s)
    (hk : (Nat.ble (8 * 0x4404) (f.key i j) && Nat.blt (f.key i j) (8 * 0x4408) ||
      Nat.ble (8 * 0x440C) (f.key i j)) = true) : Spared s₀ (s.wr f v i j) := by
  simp only [Bool.or_eq_true, Bool.and_eq_true, Nat.ble_eq, Nat.blt_eq] at hk
  refine .regs h (fun k d hb => Tab.get_set_ne _ _ _ _ _ _ ?_) fun _ k d hm => Tab.get_set_ne _ _ _ _ _ _ ?_
  · rintro rfl
    unfold bootPlace at hb
    omega
  · rintro rfl
    unfold mapPlace at hm
    omega

/-- A write to the map of the spares, made for an engine that waits for one. -/
theorem wrMap {lo w acc rst v i} (h : Spared s₀ s) (hb : ¬ s₀.calm) (hi : i < 8) (hlo : lo < 8) :
    Spared s₀ (s.wr ⟨.glb, 0x1800, 8, 8, 0, 1, lo, w, acc, rst⟩ v i) := by
  refine .regs h (fun k d hk => Tab.get_set_ne _ _ _ _ _ _ ?_) fun hc => absurd hc hb
  rintro rfl
  simp only [bootPlace, Fld.key, reduceCtorEq, if_false] at hk
  omega

theorem clearRegsOf {lo hi} (h : Spared s₀ s) (hlo : 0x7E00 ≤ lo) : Spared s₀ (s.clearRegs lo hi) := by
  refine .regs h (fun k d hb => Tab.get_clear_out _ _ _ _ _ ?_) fun _ k d hm => Tab.get_clear_out _ _ _ _ _ ?_
  · unfold bootPlace at hb
    omega
  · unfold mapPlace at hm
    omega

theorem clearRegs {lo hi} (h : Spared s₀ s) : Spared s₀ (s.clearRegs (lo + 0x7E00) hi) :=
  clearRegsOf h (Nat.le_add_left 0x7E00 lo)

/-! ## Machine/Ops -/

theorem wrB {blk addr istep icnt jstep jcnt lo w acc rst} {b i j} (h : Spared s₀ s) :
    Spared s₀ (s.wrB ⟨blk, addr + 0x7E00, istep, icnt, jstep, jcnt, lo, w, acc, rst⟩ b i j) := .wr h

theorem count {blk addr istep icnt jstep jcnt lo w acc rst} {n i j} (h : Spared s₀ s) :
    Spared s₀ (s.count ⟨blk, addr + 0x7E00, istep, icnt, jstep, jcnt, lo, w, acc, rst⟩ n i j) := .wr h

theorem countWrap {blk addr istep icnt jstep jcnt lo w acc rst} {n i j} (h : Spared s₀ s) :
    Spared s₀ (s.countWrap ⟨blk, addr + 0x7E00, istep, icnt, jstep, jcnt, lo, w, acc, rst⟩ n i j) := .wr h

theorem freed (h : Spared s₀ s) : Spared s₀ s.freed := .keep h

theorem emit {o} (h : Spared s₀ s) : Spared s₀ (s.emit o) := .keep h

theorem filkorQueued (h : Spared s₀ s) : Spared s₀ s.filkorQueued := .ite (.wr (.keep h)) (.keep h)

theorem setRing {r x} (h : Spared s₀ s) : Spared s₀ (s.setRing r x) := .keep h

theorem setFn {f x} (h : Spared s₀ s) : Spared s₀ (s.setFn f x) := .keep h

theorem setChk {k x} (h : Spared s₀ s) : Spared s₀ (s.setChk k x) := .keep h

theorem setEngMap {e x} (h : Spared s₀ s) : Spared s₀ (s.setEngMap e x) := .keep h

theorem setCoursePow {c p} (h : Spared s₀ s) : Spared s₀ (s.setCoursePow c p) := .keepPwr h rfl rfl rfl

theorem setQuadOn {q b} (h : Spared s₀ s) : Spared s₀ (s.setQuadOn q b) := .keepPwr h rfl rfl rfl

theorem setPadHeldQ {q} (h : Spared s₀ s) : Spared s₀ (s.setPadHeldQ q true) :=
  { h with
    padsQ := fun q' hq => by
      rw [padHeldQ_setPadHeldQ]
      split
      · rfl
      · exact h.padsQ q' hq }

/-! ## Machine/Flags -/

theorem raise {src detail} (h : Spared s₀ s) : Spared s₀ (s.raise src detail) :=
  .ite (.keep (.wr (.wr h))) (.keep (.wr (.wr h)))

theorem raiseRise {before after src detail} (h : Spared s₀ s) : Spared s₀ (s.raiseRise before after src detail) :=
  .ite (.raise h) h

theorem holdRaises (h : Spared s₀ s) : Spared s₀ s.holdRaises := .keep h

theorem undelivered {n} (h : Spared s₀ s) : Spared s₀ (s.undelivered n) := .count h

/-! ## Machine/Rings -/

theorem setVec {f v x} (h : Spared s₀ s) : Spared s₀ (s.setVec f v x) := .keep h

theorem sendMsix {f v} (h : Spared s₀ s) : Spared s₀ (s.sendMsix f v) := .ite (.setVec h) (.emit h)

theorem sendOwed {r} (h : Spared s₀ s) : Spared s₀ (s.sendOwed r) := .foldl .sendMsix (.setRing h)

theorem signal {r v} (h : Spared s₀ s) : Spared s₀ (s.signal r v) :=
  .ite h (.ite (.wr h) (.ite (.sendOwed (.setRing h)) (.setRing h)))

theorem advanceCq {r} (h : Spared s₀ s) : Spared s₀ (s.advanceCq r) := .ite (.wr (.wr h)) (.wr h)

theorem writeEvent {r x} (h : Spared s₀ s) : Spared s₀ (s.writeEvent r x) :=
  .ite (.signal (.advanceCq (.setRing (.emit (.emit h))))) (.advanceCq (.setRing (.emit (.emit h))))

theorem toEventRing {r x} (h : Spared s₀ s) : Spared s₀ (s.toEventRing r x) :=
  .ite (.setRing h) (.ite (.writeEvent h) (.setRing h))

theorem judgeHeld {x} (h : Spared s₀ s) : Spared s₀ (s.judgeHeld x).1 := by
  unfold State.judgeHeld
  extract_lets
  split
  · exact h
  · split
    · exact .toEventRing h
    · split
      · exact .undelivered h
      · exact h

theorem judgeAll {xs} (h : Spared s₀ s) : Spared s₀ (s.judgeAll xs) := by
  induction xs generalizing s with
  | nil => exact h
  | cons x xs ih => exact .ite (.keep (ih (.judgeHeld h))) (ih (.judgeHeld h))

theorem judgeHeldAll (h : Spared s₀ s) : Spared s₀ s.judgeHeldAll := .ite (.judgeAll (.keep h)) h

theorem writeCompletion {r f res} (h : Spared s₀ s) : Spared s₀ (s.writeCompletion r f res) :=
  .signal (.advanceCq (.emit (.emit h)))

theorem flush {r fs} (h : Spared s₀ s) : Spared s₀ (s.flush r fs) := by
  induction fs generalizing s with
  | nil => exact .keep h
  | cons f fs ih =>
    unfold State.flush
    split
    · exact ih (.writeCompletion h)
    · exact .keep h

theorem hodRewritten {w n} (h : Spared s₀ s) : Spared s₀ (s.hodRewritten w n) := by
  induction n generalizing s w with
  | zero => exact h
  | succ n ih => exact ih (.keep h)

theorem logMirror {x} (h : Spared s₀ s) : Spared s₀ (s.logMirror x) := .hodRewritten (.keep h)

theorem finish {o res} (h : Spared s₀ s) : Spared s₀ (s.finish o res) := by
  unfold State.finish
  split
  · extract_lets
    split
    · exact h
    · extract_lets _ s1
      have h1 : Spared s₀ s1 := by
        unfold s1
        split
        · exact .logMirror h
        · exact h
      exact .flush h1
  · exact .emit (.filkorQueued (.ite (.logMirror h) h))
  · exact h
  · exact h

theorem finishSt {o st} (h : Spared s₀ s) : Spared s₀ (s.finishSt o st) := .finish h

theorem updTo {st ended} (h : Spared s₀ s) : Spared s₀ (s.updTo st ended) := .ite h (.raise (.wrAt h rfl))

theorem emptySlot (h : Spared s₀ s) : Spared s₀ s.emptySlot := .wrAt (.wrAt (.keepUpd h rfl rfl) rfl) rfl

theorem freeLock (h : Spared s₀ s) : Spared s₀ s.freeLock := .wrAt (.wrAt (.keepUpd h rfl rfl) rfl) rfl

theorem dropImage (h : Spared s₀ s) : Spared s₀ s.dropImage := .updTo (.freeLock (.emptySlot h))

theorem endSession {r} (h : Spared s₀ s) : Spared s₀ (s.endSession r) := by
  unfold State.endSession
  extract_lets
  refine .ite ?_ ?_
  · split
    · exact .finishSt (.dropImage (.setRing h))
    · exact .dropImage (.setRing h)
  · exact .setRing h

theorem dropRing {r} (h : Spared s₀ s) : Spared s₀ (s.dropRing r) := .undelivered (.endSession (.setRing h))

theorem killRing {r} (h : Spared s₀ s) : Spared s₀ (s.killRing r) := .wr (.wr (.setRing (.dropRing (.wr h))))

/-! ## Machine/Hod -/

theorem setHodWord {w x} (h : Spared s₀ s) : Spared s₀ (s.setHodWord w x) := .wr (.keep h)

theorem hodUncorr {w src quiet} (h : Spared s₀ s) : Spared s₀ (s.hodUncorr w src quiet) :=
  .ite (.wr (.wr (.wr (.count h)))) (.raise (.wr (.wr (.wr (.count h)))))

theorem saveOverlay (h : Spared s₀ s) : Spared s₀ s.saveOverlay := .ite (.wr (.keep h)) (.wr (.keepUpd h rfl rfl))

theorem repairExhausted {sub col} (h : Spared s₀ s) : Spared s₀ (s.repairExhausted sub col) := .raiseRise (.wr h)

theorem fieldRepair {sub col which} (h : Spared s₀ s) : Spared s₀ (s.fieldRepair sub col which) :=
  .ite h (.ite (.repairExhausted h) (.saveOverlay (.raise (.wr (.keep h)))))

theorem readUncorr {w src v quiet} (h : Spared s₀ s) : Spared s₀ (s.readUncorr w src v quiet) :=
  .setHodWord (.fieldRepair (.hodUncorr h))

theorem readCorr {w bit scrub} (h : Spared s₀ s) : Spared s₀ (s.readCorr w bit scrub) := by
  unfold State.readCorr
  extract_lets _ _ _ _ _ _ _ _ _ _ _ s3
  have h3 : Spared s₀ s3 := .ite (.fieldRepair (.keep (.count h))) (.keep (.count h))
  exact .ite (.fieldRepair h3) h3

theorem hodWriteWord {w at_ new ecc} (h : Spared s₀ s) : Spared s₀ (s.hodWriteWord w at_ new ecc) := by
  unfold State.hodWriteWord
  split
  · exact .setHodWord h
  · split
    · exact .setHodWord h
    · extract_lets bank put
      have hput : ∀ {t v bad}, Spared s₀ t → Spared s₀ (put t v bad) := .setHodWord
      split
      · split
        · exact hput (.hodUncorr (.keep h))
        · split
          · exact hput (.readUncorr (.keep h))
          · exact hput (.ite (.count (.keep h)) (.keep h))
      · split
        · exact hput (.hodUncorr h)
        · split
          · exact hput h
          · split
            · exact hput (.readCorr h)
            · exact hput (.readUncorr (.keep h))

theorem hodWrite {ecc fuel ofs bs} (h : Spared s₀ s) : Spared s₀ (s.hodWrite ecc fuel ofs bs) := by
  induction fuel generalizing s ofs bs with
  | zero => exact h
  | succ n ih =>
    cases bs with
    | nil => exact h
    | cons b bs => exact ih (.hodWriteWord h)

theorem hodStore {ofs bs ecc} (h : Spared s₀ s) : Spared s₀ (s.hodStore ofs bs ecc) := .hodWrite h

theorem storeRows {rs bs} (h : Spared s₀ s) : Spared s₀ (s.storeRows rs bs) := by
  induction rs generalizing s bs with
  | nil => exact h
  | cons r rs ih =>
    cases bs with
    | nil => exact h
    | cons b bs => exact ih (.hodStore h)

theorem endCapture {c st w} (h : Spared s₀ s) : Spared s₀ (s.endCapture c st w) :=
  .ite (.finish (.keep h)) (.finish (.storeRows (.keep (.keep h))))

theorem stopCapture {n} (h : Spared s₀ s) : Spared s₀ (s.stopCapture n) := by
  unfold State.stopCapture
  split
  · exact h
  · exact .endCapture (.keep h)

/-! ## Machine/SliceOps -/

theorem setRx {n x} (h : Spared s₀ s) : Spared s₀ (s.setRx n x) := .keep h

theorem setTx {n x} (h : Spared s₀ s) : Spared s₀ (s.setTx n x) := .keep h

theorem setCal {n x} (h : Spared s₀ s) : Spared s₀ (s.setCal n x) := .keep h

theorem setBst {n x} (h : Spared s₀ s) : Spared s₀ (s.setBst n x) := .keep h

theorem setEpoch {c x} (h : Spared s₀ s) : Spared s₀ (s.setEpoch c x) := .keep h

theorem setHost {k x} (h : Spared s₀ s) : Spared s₀ (s.setHost k x) := .keep h

theorem setHtx {k x} (h : Spared s₀ s) : Spared s₀ (s.setHtx k x) := .keep h

theorem setMortar {c x} (h : Spared s₀ s) : Spared s₀ (s.setMortar c x) := .keep h

theorem flushBufs {n} (h : Spared s₀ s) : Spared s₀ (s.flushBufs n) := .setMortar h

theorem setSlice {n i v} (h : Spared s₀ s) : Spared s₀ (s.setSlice n i v) := .setCal h

theorem setSuspect {n v} (h : Spared s₀ s) : Spared s₀ (s.setSuspect n v) := .raiseRise (.wr h)

theorem refreshS {n} (h : Spared s₀ s) : Spared s₀ (s.refreshS n) := .setSuspect h

theorem joinP {n} (h : Spared s₀ s) : Spared s₀ (s.joinP n) := .ite (.setCal h) h

theorem cutGroup {n} (h : Spared s₀ s) : Spared s₀ (s.cutGroup n) := by
  unfold State.cutGroup
  split
  · exact h
  · exact .wr (.setCal h)

theorem abandonGroup {n} (h : Spared s₀ s) : Spared s₀ (s.abandonGroup n) := .ite h (.cutGroup h)

theorem abandonCal {n} (h : Spared s₀ s) : Spared s₀ (s.abandonCal n) := by
  unfold State.abandonCal
  split
  · exact .setCal (.setSlice h)
  · exact h

theorem abandonShadow {n} (h : Spared s₀ s) : Spared s₀ (s.abandonShadow n) := by
  unfold State.abandonShadow
  split
  · exact .setCal (.setSlice h)
  · exact h

theorem abandonSteps {n} (h : Spared s₀ s) : Spared s₀ (s.abandonSteps n) :=
  .ite (.ite h (.abandonCal h)) (.abandonShadow (.ite h (.abandonCal h)))

theorem startCal {n} (h : Spared s₀ s) : Spared s₀ (s.startCal n) := by
  unfold State.startCal
  refine .ite ?_ ?_
  · split
    · exact .joinP (.setSlice (.setCal h))
    · exact h
  · exact h

theorem sliceSwap {n i} (h : Spared s₀ s) : Spared s₀ (s.sliceSwap n i) := by
  unfold State.sliceSwap
  extract_lets _ s1
  have h1 : Spared s₀ s1 := by
    unfold s1
    split
    · exact .setCal (.setSlice h)
    · exact h
  exact .refreshS (.countWrap (.setCal (.setSlice h1)))

theorem swapIfDue {n} (h : Spared s₀ s) : Spared s₀ (s.swapIfDue n) := by
  unfold State.swapIfDue
  refine .ite ?_ ?_
  · split
    · exact .sliceSwap h
    · exact .setCal h
  · exact h

theorem slicesSettle {n} (h : Spared s₀ s) : Spared s₀ (s.slicesSettle n) :=
  .ite (.startCal (.abandonSteps (.swapIfDue h))) h

theorem calSettle {n} (h : Spared s₀ s) : Spared s₀ (s.calSettle n) := .slicesSettle (.abandonGroup h)

/-! ## Machine/LaneOps -/

theorem txCheck {n} (h : Spared s₀ s) : Spared s₀ (s.txCheck n) := .ite h (.wr h)

theorem hostUnaligned {k} (h : Spared s₀ s) : Spared s₀ (s.hostUnaligned k) := by
  unfold State.hostUnaligned
  extract_lets f
  have hf : 0x7E00 ≤ f.addr := by
    unfold f
    split
    · decide
    · decide
  exact .ite (.wr (.wr (.wrOf h hf))) h

theorem refreshSig {k} (h : Spared s₀ s) : Spared s₀ (s.refreshSig k) :=
  .ite h (.raiseRise (.wr (.wrB (.ite h (.hostUnaligned h)))))

theorem startTraining {k} (h : Spared s₀ s) : Spared s₀ (s.startTraining k) :=
  .refreshSig (.hostUnaligned (.wr (.wr (.wr (.wr (.setHost h))))))

theorem enterData {k trained} (h : Spared s₀ s) : Spared s₀ (s.enterData k trained) :=
  .refreshSig (.ite (.setHtx (.wr h)) (.wr (.wr (.setHtx (.wr h)))))

theorem clearHostTest {k} (h : Spared s₀ s) : Spared s₀ (s.clearHostTest k) :=
  .ite h (.setChk (.wr (.wr (.wr (.wr h)))))

theorem refreshHost {k} (h : Spared s₀ s) : Spared s₀ (s.refreshHost k) := by
  unfold State.refreshHost
  extract_lets _ _ _ _ s3 _ s1
  have h3 : Spared s₀ s3 := .ite (.wr (.wr (.setHost h))) (.wr (.setHost h))
  have h1 : Spared s₀ s1 := by
    refine .ite ?_ ?_
    · exact .ite (.wr h) (.ite (.startTraining h) (.ite h (.enterData h)))
    · exact .refreshSig (.ite (.wr (.hostUnaligned (.wr h3))) (.hostUnaligned (.wr h3)))
  exact .clearHostTest h1

theorem refreshBond {n} (h : Spared s₀ s) : Spared s₀ (s.refreshBond n) := .refreshHost (.refreshHost h)

theorem leaveActive {n} (h : Spared s₀ s) : Spared s₀ (s.leaveActive n) :=
  .setRx (.wr (.wr (.wr (.wr (.keepUpd h rfl rfl)))))

theorem setTaps {n taps} (h : Spared s₀ s) : Spared s₀ (s.setTaps n taps) := .setRx h

theorem setTarget {n a1 a2} (h : Spared s₀ s) : Spared s₀ (s.setTarget n a1 a2) := .wr (.wr h)

theorem endNear {n} (h : Spared s₀ s) : Spared s₀ (s.endNear n) := by
  unfold State.endNear
  extract_lets
  split
  · exact h
  · exact .setTarget (.wr (.setTaps (.setRx h)))

theorem setLoop {n v} (h : Spared s₀ s) : Spared s₀ (s.setLoop n v) := .ite (.wr h) (.wr (.setTx (.wr h)))

theorem leaveMaint {n} (h : Spared s₀ s) : Spared s₀ (s.leaveMaint n) :=
  .endNear (.setChk (.wr (.setLoop (.wr (.wr h)))))

theorem abandonForeground {n st} (h : Spared s₀ s) : Spared s₀ (s.abandonForeground n st) := by
  unfold State.abandonForeground
  extract_lets
  split
  · exact h
  · exact .txCheck (.finishSt (.setTx (.setCal h)))

theorem dropLocks {n} (h : Spared s₀ s) : Spared s₀ (s.dropLocks n) := .setRx (.wr (.wr (.wr (.wr h))))

theorem endBursts {n} (h : Spared s₀ s) : Spared s₀ (s.endBursts n) := .wr (.setBst h)

theorem setLane {n st} (h : Spared s₀ s) : Spared s₀ (s.setLane n st) := by
  unfold State.setLane
  extract_lets _ _ s2 s3 s4 _ _ s6 _ s8
  have h2 : Spared s₀ s2 := .ite (.leaveActive (.ite h (.stopCapture h))) (.ite h (.stopCapture h))
  have h3 : Spared s₀ s3 := .ite (.leaveMaint (.abandonForeground h2)) h2
  have h4 : Spared s₀ s4 := .ite (.wr (.endBursts h3)) h3
  have h6 : Spared s₀ s6 := .ite (.setRx (.wr h4)) (.wr (.setRx (.wr h4)))
  have h8 : Spared s₀ s8 := .ite (.wr (.ite (.dropLocks h6) h6)) (.ite (.dropLocks h6) h6)
  exact .calSettle (.txCheck (.refreshBond h8))

/-! ## Machine/Cmis -/

theorem setCmis {c x} (h : Spared s₀ s) : Spared s₀ (s.setCmis c x) := .keep h

theorem cmisStop {c st} (h : Spared s₀ s) : Spared s₀ (s.cmisStop c st) := .foldl .finishSt (.setCmis h)

/-! ## Machine/TwinOps -/

theorem twinTo {st} (h : Spared s₀ s) : Spared s₀ (s.twinTo st) :=
  .ite h (.raise (.ite (.wr (.ite (.wr (.wr h)) (.wr h))) (.wr (.ite (.wr (.wr h)) (.wr h)))))

theorem twinDegrade {cause} (h : Spared s₀ s) : Spared s₀ (s.twinDegrade cause) := by
  simp only [State.twinDegrade]
  split
  · exact .twinTo (.wr (.keepUpd h rfl rfl))
  · exact .twinTo (.wr (.keepUpd h rfl rfl))
  · exact .ite (.wr (.keepUpd (s := { s with twin := { s.twin with prev := 3 } }) (.keep h) rfl rfl)) h
  · exact h

theorem endMoves (h : Spared s₀ s) : Spared s₀ s.endMoves := .ite (.twinTo h) h

theorem modelSide {c} (h : Spared s₀ s) : Spared s₀ (s.modelSide c) := .ite h (.keep h)

theorem settleMoves {c} (h : Spared s₀ s) : Spared s₀ (s.settleMoves c) :=
  .endMoves (.ite (.foldl .finish (.keep h)) (.foldl .finishSt (.keep h)))

theorem remodel {c} (h : Spared s₀ s) : Spared s₀ (s.remodel c) :=
  .ite h (.settleMoves (.ite (.modelSide h) (.raise (.modelSide h))))

theorem setOwnSel {c b} (h : Spared s₀ s) : Spared s₀ (s.setOwnSel c b) := .ite h (.remodel (.keep h))

theorem courseYield {c} (h : Spared s₀ s) : Spared s₀ (s.courseYield c) := .ite (.setOwnSel (.keep h)) (.setOwnSel h)

theorem twinImageLost (h : Spared s₀ s) : Spared s₀ s.twinImageLost := .ite (.dropImage h) h

theorem flkDown (h : Spared s₀ s) : Spared s₀ s.flkDown :=
  .keep (.clearRegs (.clearRegs (.ite (.twinImageLost (.raise (.twinDegrade h))) (.twinDegrade h))))

/-! ## Machine/Bist -/

theorem bistRecord {t logic mem pats misr f aborted} (h :
    Spared s₀ s) : Spared s₀ (s.bistRecord t logic mem pats misr f aborted) := by
  unfold State.bistRecord
  extract_lets s1 _ _ s3
  have h1 : Spared s₀ s1 := .countWrap (.wrB (.wr (.wr (.wr h))))
  have h3 : Spared s₀ s3 := by
    exact .ite (.ite h1 (.wr (.wr h1))) (.wr (.wr (.wr (.wr (.wr (.ite h1 (.wr (.wr h1))))))))
  exact .finish h3

theorem reloadClusters (h : Spared s₀ s) : Spared s₀ s.reloadClusters :=
  { h with k0 := ((Tab.get_clear_out _ _ _ _ _ (by omega)).trans (Tab.get_clear_out _ _ _ _ _ (by omega))).trans h.k0 }

theorem bistAfter {code} (h : Spared s₀ s) : Spared s₀ (s.bistAfter code) :=
  .ite (.calSettle (.txCheck (.flushBufs (.setRx h)))) (.ite (.judgeHeldAll (.reloadClusters h)) h)

theorem stopTests {p} (h : Spared s₀ s) : Spared s₀ (s.stopTests p) :=
  .foldl (fun ht => .bistAfter (.bistRecord (.keep (.freed (.freed (.freed ht)))))) h

/-! ## Machine/EngineOps -/

theorem setEng {e x} (h : Spared s₀ s) (he : e ≠ 80) : Spared s₀ (s.setEng e x) :=
  { h with k0 := (Tab.get_set_ne _ _ _ _ _ _ he.symm).trans h.k0 }

theorem leaveUser {e} (h : Spared s₀ s) (he : e ≠ 80) : Spared s₀ (s.leaveUser e) := .setEng (.freed h) he

theorem engineEvent {e cause spare} (h : Spared s₀ s) : Spared s₀ (s.engineEvent e cause spare) := .raise h

theorem engineLost {e} (h : Spared s₀ s) : Spared s₀ (s.engineLost e) := .ite (.calSettle (.setRx h)) h

theorem engineUnmapped {e cause} (h : Spared s₀ s) : Spared s₀ (s.engineUnmapped e cause) :=
  .ite (.courseYield (.engineEvent (.engineLost (.setEngMap h)))) (.engineEvent (.engineLost (.setEngMap h)))

/-- While an engine waits for a spare the map of the spares is the foreman's to write. -/
theorem startSubst {n} (h : Spared s₀ s) : Spared s₀ (s.startSubst n) := by
  induction n generalizing s with
  | zero => exact h
  | succ n ih =>
    unfold State.startSubst
    refine .ite h ?_
    split
    · exact h
    · next f hf =>
      have hb : ¬ s₀.calm := fun hc => by simp [(h.spares hc).1.1, lowestFailed] at hf
      extract_lets rest
      refine .ite h ?_
      split
      · exact ih (.engineUnmapped (.keepBusy h hb))
      · next i hi =>
        extract_lets s1
        have h1 : Spared s₀ s1 := .wrMap (.wrMap h hb (s.freeSpare_lt hi) (by decide)) hb (s.freeSpare_lt hi) (by decide)
        exact .ite (.keepBusy h1 hb) (ih (.engineEvent (.setEngMap (.keepBusy h1 hb))))

theorem enginesOff {c} (h : Spared s₀ s) (hc : c < 8) : Spared s₀ (s.enginesOff c) := by
  unfold State.enginesOff
  extract_lets s1
  have h1 : Spared s₀ s1 := .foldlOn (p := (· ≠ 80)) (fun e he => ne_k0_of_mem_courseEngines hc he)
    (fun he ht => .setEng (.clearRegsOf ht (by omega)) he) h
  split
  · next e i hs =>
    have hb : ¬ s₀.calm := fun hc => by simp [(h1.spares hc).1.2] at hs
    exact .ite (.startSubst (.engineEvent (.setEngMap (.keepBusy h1 hb)))) (.startSubst h1)
  · exact .startSubst h1

theorem requeue {o} (h : Spared s₀ s) : Spared s₀ (s.requeue o) := by
  unfold State.requeue
  split
  · exact .setRing h
  · exact h

theorem k3Lost {restarts} (h : Spared s₀ s) : Spared s₀ (s.k3Lost restarts) := by
  unfold State.k3Lost
  extract_lets _ s2 _ _ s4
  have h2 : Spared s₀ s2 := .foldl .requeue (.foldl .requeue h)
  have h4 : Spared s₀ s4 := .twinDegrade (.endMoves (.keep h2))
  exact .ite (.foldl .setOwnSel h4) h4

/-! ## Machine/Asyan -/

theorem stopSettle {n} (h : Spared s₀ s) (hn : n ≠ 80) : Spared s₀ (s.stopSettle n) := by
  unfold State.stopSettle
  extract_lets
  split
  · split
    · exact .ite (.finishSt (.leaveUser (.wr (.setEng h hn)) hn)) h
    · exact h
  · exact h

/-! ## Machine/Power -/

theorem stopNow {n} (h : Spared s₀ s) (hn : n ≠ 80) : Spared s₀ (s.stopNow n) := by
  unfold State.stopNow
  extract_lets
  split
  · exact .ite (.stopSettle (.setEng h hn) hn) h
  · exact h

/-- A course whose pads are latched keeps the levels they hold. -/
theorem latchCourse {c} (h : Spared s₀ s) : Spared s₀ (s.latchCourse c) := by
  unfold State.latchCourse
  split
  · exact h
  · next hl =>
    refine { h with padsC := fun c' hc' => ?_ }
    obtain ⟨hheld, hlatch⟩ := h.padsC c' hc'
    have hne : c' ≠ c := by
      rintro rfl
      exact hl hheld
    constructor
    · rw [padHeldC_setPadHeldC_ne _ _ hne]
      exact hheld
    · rw [← hlatch]
      exact padLatch_setPadLatch_ne _ _ hne

theorem courseDown {c} (h : Spared s₀ s) (hc : c < 8) : Spared s₀ (s.courseDown c) := by
  unfold State.courseDown
  extract_lets _ s1 s2 s3 s4 s5
  have h1 : Spared s₀ s1 := .foldlOn (p := (· ≠ 80)) (fun n hn => ne_k0_of_mem_courseLanes hc hn)
    (fun hn ht => .setLane (.stopNow ht hn)) h
  have h2 : Spared s₀ s2 := .latchCourse (.cmisStop h1)
  have h3 : Spared s₀ s3 := .enginesOff (.setCoursePow h2) hc
  have h4 : Spared s₀ s4 := .clearRegsOf (.clearRegsOf h3 (by omega)) (by omega)
  have h5 : Spared s₀ s5 := .foldl (fun ht => .setChk (.setBst (.setCal (.setTx (.setRx ht))))) h4
  exact .setCmis (.setMortar (.setEpoch h5))

theorem quadDown {q} (h : Spared s₀ s) : Spared s₀ (s.quadDown q) := by
  unfold State.quadDown
  extract_lets s1 s2
  have h1 : Spared s₀ s1 := .foldl (fun ht => .ite (.setLane ht) ht) h
  have h2 : Spared s₀ s2 := .foldl .refreshHost (.setPadHeldQ (.setQuadOn h1))
  exact .foldl (fun ht => .setChk (.setHtx (.setHost ht))) (.clearRegsOf h2 (by omega))

/-! ## Machine/Restart -/

theorem flrPf (h : Spared s₀ s) : Spared s₀ s.flrPf := .foldl .setFn (.keep (.foldl (fun ht => .wr (.killRing ht)) h))

end State.Spared

end Sys2Proof.Machine
end

section
/-! A keep core's fault (R21) and the foreman's (R22). -/

namespace Sys2Proof.Machine
open Sys2Proof.Machine.State

section
variable (s : State)

/-- What every fault of a keep core leaves first: the core's record, the cause in its engine, whose state is lost, and
KEEP_CORE_FAULT. -/
def State.coreFaulted (k cause : Nat) (x : CoreX) (detail : Nat) : State :=
  (((s.setCore k x).wr Reg.ENG.STAT.LAST_CAUSE cause (80 + k)).setEng (80 + k) {}).raise 0 detail

/-- What a fault of K1 to K7 ends besides: the moves at K3, the tests in flight at K7, the raises held for K4. -/
def State.coreDuties (k : Nat) (again : Bool) : State :=
  let s5 := if k = 3 then s.k3Lost (!again) else s
  let s6 := if k = 7 then s5.stopTests fun _ => true else s5
  if k = 4 then s6.judgeHeldAll else s6

@[simp] theorem State.core_setCore_same (k : Nat) (x : CoreX) : (s.setCore k x).core k = x :=
  Tab.get_set_same _ _ _ _

theorem State.coreFaulted_cores (k cause : Nat) (x : CoreX) (detail : Nat) :
    (s.coreFaulted k cause x detail).cores = (s.setCore k x).cores := by
  obtain ⟨_, _, h⟩ := raise_eq (((s.setCore k x).wr Reg.ENG.STAT.LAST_CAUSE cause (80 + k)).setEng (80 + k) {}) 0 detail
  rw [coreFaulted, h]
  rfl

theorem State.coreFaulted_upd (k cause : Nat) (x : CoreX) (detail : Nat) :
    (s.coreFaulted k cause x detail).upd = s.upd := by
  obtain ⟨_, _, h⟩ := raise_eq (((s.setCore k x).wr Reg.ENG.STAT.LAST_CAUSE cause (80 + k)).setEng (80 + k) {}) 0 detail
  rw [coreFaulted, h]
  rfl

theorem State.coreFaulted_failed (k cause : Nat) (x : CoreX) (detail : Nat) :
    (s.coreFaulted k cause x detail).failed = s.failed := by
  obtain ⟨_, _, h⟩ := raise_eq (((s.setCore k x).wr Reg.ENG.STAT.LAST_CAUSE cause (80 + k)).setEng (80 + k) {}) 0 detail
  rw [coreFaulted, h]
  rfl

theorem State.coreFaulted_core (k cause : Nat) (x : CoreX) (detail : Nat) :
    (s.coreFaulted k cause x detail).core k = x := by
  rw [core, coreFaulted_cores]
  exact core_setCore_same s k x

theorem State.coreFaulted_updState (k cause : Nat) (x : CoreX) (detail : Nat) :
    (s.coreFaulted k cause x detail).rd Reg.UPD.STAT.STATE = s.rd Reg.UPD.STAT.STATE := by
  rw [coreFaulted, raise_rd _ _ _ _ _ _ (by simp) (by simp)]
  exact rd_wr_ne _ _ _ _ _ _ _ _ (by simp; omega)

theorem State.coreFaulted_updQuiet (k cause : Nat) (x : CoreX) (detail : Nat) (h : s.updQuiet) :
    (s.coreFaulted k cause x detail).updQuiet := by
  simpa only [updQuiet, coreFaulted_updState, coreFaulted_upd] using h

theorem State.coreFaulted_cause (k cause : Nat) (x : CoreX) (detail : Nat) (hc : cause < 256) :
    (s.coreFaulted k cause x detail).rd Reg.ENG.STAT.LAST_CAUSE (80 + k) = cause := by
  rw [coreFaulted, raise_rd _ _ _ _ _ _ (by simp; omega) (by simp; omega)]
  exact (rd_wr_same (s.setCore k x) _ _ _ _).trans (Nat.mod_eq_of_lt (by simpa using hc))

theorem State.k4On_setCore {k : Nat} (x : CoreX) (hk : k ≠ 4) : (s.setCore k x).k4On = s.k4On := by
  have h4 : (s.setCore k x).core 4 = s.core 4 := Tab.get_set_ne _ _ _ _ _ _ hk.symm
  unfold k4On coreRuns
  rw [h4]
  rfl

theorem State.coreFaulted_raises {k : Nat} (cause : Nat) (x : CoreX) (detail : Nat) (hk : k ≠ 4) (h : s.k4On = true) :
    (s.coreFaulted k cause x detail).raises = s.raises ++ [⟨0, s.time, detail, false⟩] :=
  raise_raises _ 0 detail ((k4On_congr (s := s.setCore k x) rfl rfl rfl).trans ((s.k4On_setCore x hk).trans h))

/-- The duties leave the record of every core. -/
theorem State.coreDuties_cores (k : Nat) (again : Bool) : (s.coreDuties k again).cores = s.cores := by
  have h : Spared s (s.coreDuties k again) :=
    have h5 : Spared s (if k = 3 then s.k3Lost (!again) else s) := .ite (.k3Lost (.refl s)) (.refl s)
    have h6 := Spared.ite (c := k = 7) (.stopTests (p := fun _ => true) h5) h5
    .ite (.judgeHeldAll h6) h6
  exact h.cores

theorem State.coreDuties_other {k : Nat} (again : Bool) (h3 : k ≠ 3) (h4 : k ≠ 4) (h7 : k ≠ 7) :
    s.coreDuties k again = s := by
  simp only [coreDuties, if_neg h3, if_neg h4, if_neg h7]

/-- A fault of K1 to K7 with no update that it could end (R21). -/
theorem State.keepFault_eq (k cause : Nat) (hon : s.coreOn = true) (hs : (s.core k).stopped = false)
    (hr : (s.core k).restarting = false) (hq : s.updQuiet) :
    let again := decide (1 ≤ (s.core k).faults) || (s.core 0).stopped
    let x : CoreX :=
      ⟨(s.core k).faults + 1, again || (s.core 0).restarting, !again && (s.core 0).restarting⟩
    s.keepFault k cause = (((if k = 4 then s.holdRaises else s).coreFaulted k cause x
      (k + 8 * bitVal (!again) + 256 * cause)).faultNoted).coreDuties k again := by
  intro again x
  have hq' : (if k = 4 then s.holdRaises else s).updQuiet := by
    split
    · exact hq
    · exact hq
  rw [← updFault_quiet _ (coreFaulted_updQuiet _ _ _ _ _ hq')]
  unfold keepFault
  rw [if_neg (by simp [hon, hs, hr])]
  rfl

theorem State.keepFault_core (k cause : Nat) (hon : s.coreOn = true) (hs : (s.core k).stopped = false)
    (hr : (s.core k).restarting = false) (hq : s.updQuiet) :
    let again := decide (1 ≤ (s.core k).faults) || (s.core 0).stopped
    (s.keepFault k cause).core k =
      ⟨(s.core k).faults + 1, again || (s.core 0).restarting, !again && (s.core 0).restarting⟩ := by
  intro again
  rw [s.keepFault_eq k cause hon hs hr hq, core, coreDuties_cores]
  exact coreFaulted_core ..

/-- What K0's fault does to an update: an image being activated waits for K0. -/
theorem State.foremanNotes_eq (hu : s.updState = 3 ∨ s.updQuiet) :
    (if s.rd Reg.UPD.STAT.STATE = 3 then s.faultNoted else s.updFault) = s.faultNoted := by
  split
  · rfl
  · next h3 => exact s.updFault_quiet (hu.resolve_left h3)

/-- K0's first fault: it restarts, and what it does in the update is only noted (R22, R459). -/
theorem State.foremanFault_first (cause : Nat) (hp : s.phase = .active) (hs : (s.core 0).stopped = false)
    (hf : (s.core 0).faults = 0) (hu : s.updState = 3 ∨ s.updQuiet) :
    s.foremanFault cause = (s.coreFaulted 0 cause ⟨1, false, true⟩ (8 + 256 * cause)).faultNoted := by
  have hu' : (s.coreFaulted 0 cause ⟨1, false, true⟩ (8 + 256 * cause)).updState = 3 ∨
      (s.coreFaulted 0 cause ⟨1, false, true⟩ (8 + 256 * cause)).updQuiet :=
    hu.imp (coreFaulted_updState _ _ _ _ _).trans (coreFaulted_updQuiet _ _ _ _ _)
  rw [← foremanNotes_eq _ hu']
  unfold foremanFault
  rw [if_neg (by simp [hs, hp])]
  simp only [hf]
  rfl

/-- K0's next fault: it is left stopped, whatever becomes of the engines that wait for a spare (R22). -/
theorem State.foremanFault_again (cause : Nat) (hp : s.phase = .active) (hs : (s.core 0).stopped = false)
    (hf : 1 ≤ (s.core 0).faults) (hq : s.updQuiet) :
    (s.foremanFault cause).cores = (s.setCore 0 ⟨(s.core 0).faults + 1, true, false⟩).cores := by
  unfold foremanFault
  rw [if_neg (by simp [hs, hp])]
  extract_lets again s1 s2 _ s3 s4
  have hagain : again = true := decide_eq_true hf
  have h2 : s2 = s.coreFaulted 0 cause ⟨(s.core 0).faults + 1, true, false⟩ (8 * bitVal false + 256 * cause) := by
    unfold s2 s1
    rw [hagain]
    rfl
  rw [if_pos hagain]
  have h3 : s3 = s2.faultNoted := foremanNotes_eq s2 (.inr (h2 ▸ coreFaulted_updQuiet _ _ _ _ _ hq))
  have h4 : s4.cores = s2.cores := by
    unfold s4
    rw [h3]
    split
    · rfl
    · rfl
  calc _ = s4.cores := (Spared.foldl (fun h => .engineUnmapped h) (.refl { s4 with failed := [], subst := none })).cores
    _ = s2.cores := h4
    _ = _ := by rw [h2, coreFaulted_cores]

end

theorem execKeepCoreFault_eq (s : State) (k : Fin 7) {cause : Fin 4} (hc : cause.val ≠ 0) :
    exec (.keepCoreFault k cause) s = .next (s.keepFault (k.val + 1) cause) := congrArg _ (if_neg hc)

theorem execForemanFault_eq (s : State) {cause : Fin 4} (hc : cause.val ≠ 0) :
    exec (.foremanFault cause) s = .next (s.foremanFault cause) := congrArg _ (if_neg hc)

/-- Settles O15: the record a fault leaves is what the fault writes first, since nothing that follows touches a core. -/
theorem keepCoreRestartsOnceThenStaysStopped : Obligations.KeepCoreRestartsOnceThenStaysStopped := by
  refine ⟨?_, ?_, ?_, ?_⟩
  · intro k cause s hc hon hs hr hq again
    refine .of (execKeepCoreFault_eq s k hc) ?_
    rw [s.keepFault_core (k.val + 1) cause hon hs hr hq]
    refine ⟨?_, ?_, ?_, rfl⟩
    · intro ha
      simp only [again] at ha
      simp [ha]
    · intro ha h0
      simp only [again, not_or] at ha
      simp [ha, h0]
    · intro ha h0
      simp only [again, not_or] at ha
      simp [ha, h0]
  · intro k cause s hc hon h2 h3 h6 hs hr hq again
    have hact : s.coreOn = true := (Bool.and_eq_true_iff.mp hon).1
    have hother := coreDuties_other (k := k.val + 1) (h3 := by omega) (h4 := by omega) (h7 := by omega)
    refine .of ((execKeepCoreFault_eq s k hc).trans (congrArg _
      ((s.keepFault_eq (k.val + 1) cause hact hs hr hq).trans (hother _ _)))) ⟨?_, ?_, ?_⟩
    · exact raise_latch _ _ _ (by decide)
    · rw [show 81 + k.val = 80 + (k.val + 1) by omega]
      exact coreFaulted_cause _ (k.val + 1) cause.val _ _ (by omega)
    · refine ⟨8 * bitVal (!(decide (1 ≤ (s.core (k.val + 1)).faults) || (s.core 0).stopped)), ?_, ?_⟩
      · by_cases ha : again
        · exact .inr ⟨by rw [Bool.or_eq_true_iff.mpr (ha.imp decide_eq_true id)]; rfl, ha⟩
        · obtain ⟨hf, h0⟩ := not_or.mp ha
          exact .inl ⟨by rw [decide_eq_false hf, Bool.eq_false_iff.mpr h0]; rfl, ha⟩
      · rw [if_neg (by omega)]
        exact s.coreFaulted_raises _ _ _ (by omega) hon
  · intro cause s hc hp hs hq
    refine .of (execForemanFault_eq s hc) ?_
    split
    · next hf =>
      rw [s.foremanFault_first cause hp hs hf (.inr hq)]
      exact ⟨coreFaulted_core .., coreFaulted_failed ..⟩
    · next hf =>
      have hcore : (s.foremanFault cause).core 0 = ⟨(s.core 0).faults + 1, true, false⟩ := by
        show Tab.get {} (s.foremanFault cause).cores 0 = _
        rw [s.foremanFault_again cause hp hs (by omega) hq]
        exact core_setCore_same s 0 _
      rw [hcore]
      exact ⟨rfl, rfl⟩
  · intro cause s hc hp hs hf hu
    refine .of (execForemanFault_eq s hc) ?_
    rw [s.foremanFault_first cause hp hs hf (.inl hu)]
    exact ⟨coreFaulted_core .., (coreFaulted_updState ..).trans hu, rfl⟩

end Sys2Proof.Machine
end

section
/-! The device becomes ready (R448, R482). -/

namespace Sys2Proof.Machine
open Sys2Proof.Machine.State

section
variable (s : State)

/-! ## Levels of a device with no twin (R270, R482) -/

/-- A device with no twin models no roles: its level is all that changes. -/
theorem State.setOwnSel_solo (c : Nat) (b : Bool) (h : s.twin.strap = 0) :
    s.setOwnSel c b = { s with twin := (s.setOwnSel c b).twin } ∧ (s.setOwnSel c b).twin.strap = 0 := by
  unfold setOwnSel
  split
  · exact ⟨rfl, h⟩
  · rw [remodel, if_pos (by exact h)]
    exact ⟨rfl, h⟩

/-- The device raises the levels of all eight courses. -/
def State.raiseSel : State := (List.range 8).foldl (fun (t : State) (c : Nat) => t.setOwnSel c true) s

theorem State.foldl_raiseSel_solo (l : List Nat) (h : s.twin.strap = 0) :
    let t := l.foldl (fun (t : State) (c : Nat) => t.setOwnSel c true) s
    t = { s with twin := t.twin } ∧ l.foldl (fun (t : State) (c : Nat) =>
      if t.twin.strap = 2 then t.remodel c else t.setOwnSel c true) s = t := by
  induction l generalizing s with
  | nil => exact ⟨rfl, rfl⟩
  | cons c l ih =>
    obtain ⟨hc, hs⟩ := s.setOwnSel_solo c true h
    obtain ⟨ht, he⟩ := ih _ hs
    have h2 : ¬ s.twin.strap = 2 := by omega
    constructor
    · exact ht.trans (congrArg (fun u : State => { u with
        twin := (l.foldl (fun (t : State) (c : Nat) => t.setOwnSel c true) (s.setOwnSel c true)).twin }) hc)
    · rw [List.foldl_cons, if_neg h2]
      exact he

theorem State.raiseSel_solo (h : s.twin.strap = 0) : ∃ x, s.raiseSel = { s with twin := x } :=
  ⟨_, (s.foldl_raiseSel_solo (List.range 8) h).1⟩

theorem State.raiseSel_rd (h : s.twin.strap = 0) (f : Fld) (i j : Nat) : s.raiseSel.rd f i j = s.rd f i j := by
  obtain ⟨x, hx⟩ := s.raiseSel_solo h
  rw [hx]
  rfl

theorem State.raiseSel_phase (h : s.twin.strap = 0) : s.raiseSel.phase = s.phase := by
  obtain ⟨x, hx⟩ := s.raiseSel_solo h
  rw [hx]

theorem State.raiseSel_therm (h : s.twin.strap = 0) : s.raiseSel.therm = s.therm := by
  obtain ⟨x, hx⟩ := s.raiseSel_solo h
  rw [hx]

theorem State.raiseSel_ownSel {c : Nat} (hc : c < 8) : s.raiseSel.ownSel c = true := by
  have h : ∀ (l : List Nat) (t : State), (c ∈ l ∨ t.ownSel c = true) →
      (l.foldl (fun (t : State) (c : Nat) => t.setOwnSel c true) t).ownSel c = true := by
    intro l
    induction l with
    | nil => simp
    | cons a l ih =>
      intro t ht
      refine ih _ ?_
      rw [setOwnSel_ownSel]
      split
      · exact .inr rfl
      · next hca => exact ht.imp_left (fun hm => (List.mem_cons.mp hm).resolve_left hca)
  exact h _ _ (.inl (List.mem_range.mpr hc))

/-! ## What waits for CORE -/

theorem State.judgeHeldAll_empty (h : s.held = []) : s.judgeHeldAll = s := by
  unfold judgeHeldAll
  split
  · rw [h]
    exact congrArg (fun x => { s with held := x }) h.symm
  · rfl

theorem State.judgeDoorbells_empty (h : s.doorHeld = []) : s.judgeDoorbells = s := by
  unfold judgeDoorbells
  rw [h]
  exact congrArg (fun x => { s with doorHeld := x }) h.symm

theorem State.ladderResumeAll_idle (h : ∀ c < 8, (s.ladder c).due = false) : s.ladderResumeAll = s := by
  refine foldl_stays fun c hc => ?_
  unfold ladderResume
  exact if_pos (by simp [h c (List.mem_range.mp hc)])

/-! ## DEVICE_READY -/

/-- What DEVICE_READY writes whatever the device is: CORE serves and the hod is ready. -/
def State.readied : State :=
  (((({ s with
    phase := .active
    twin := { s.twin with readyAt := s.time, lastHb := s.time }
    upd := { s.upd with trialStart := s.time, bootTrialEnd := s.time + 180000000000, faulted := false } } : State).wr
    Reg.SEC.BOOT_STAT.READY 1).wr Reg.HOD.STAT.READY 1).wr Reg.HOD.STAT.SELF_REFRESH 0).wr
    Reg.HOD.REPAIR_STAT.ENTRIES s.hod.overlay.length

/-- A trip record held is reported (R438). -/
def State.tripTold : State := if s.flag Reg.THM.STAT.TRIP_VALID then s.raise 9 s.tripInfo else s

theorem State.tripTold_parts :
    s.tripTold.phase = s.phase ∧ s.tripTold.twin = s.twin ∧ s.tripTold.therm = s.therm := by
  unfold tripTold
  split
  · obtain ⟨_, _, h⟩ := s.raise_eq 9 s.tripInfo
    rw [h]
    exact ⟨rfl, rfl, rfl⟩
  · exact ⟨rfl, rfl, rfl⟩

theorem State.tripTold_rd (f : Fld) (i j : Nat) (h1 : f.key i j ≠ Reg.EVT.LATCH.RAISED.key 9 0)
    (h2 : f.key i j ≠ Reg.EVT.STAT.LAST_SRC.key 0 0) : s.tripTold.rd f i j = s.rd f i j := by
  unfold tripTold
  split
  · exact raise_rd s _ _ _ _ _ h1 h2
  · rfl

/-- DEVICE_READY on a device with no twin, with nothing held for CORE. -/
theorem State.deviceReady_solo (hp : s.phase = .booting ∨ s.phase = .waking) (hstrap : s.twin.strap = 0)
    (hheld : s.held = []) (hdoor : s.doorHeld = []) (hdue : ∀ c < 8, (s.ladder c).due = false) :
    exec .deviceReady s = .next s.readied.tripTold.raiseSel := by
  have hquiet : s.readied.judgeDoorbells.judgeHeldAll = s.readied := by
    rw [judgeDoorbells_empty _ (by exact hdoor), judgeHeldAll_empty _ (by exact hheld)]
  obtain ⟨-, htwin, htherm⟩ := s.readied.tripTold_parts
  have hsolo : s.readied.tripTold.twin.strap = 0 := htwin ▸ hstrap
  have hladder : s.readied.tripTold.raiseSel.ladderResumeAll = s.readied.tripTold.raiseSel := by
    refine ladderResumeAll_idle _ fun c hc => ?_
    unfold ladder
    rw [raiseSel_therm _ hsolo, htherm]
    exact hdue c hc
  refine congrArg Host.Outcome.next ?_
  rw [if_neg fun h => hp.elim h.1 h.2]
  calc _ = ((List.range 8).foldl (fun (t : State) (c : Nat) =>
        if t.twin.strap = 2 then t.remodel c else t.setOwnSel c true)
          s.readied.judgeDoorbells.judgeHeldAll.tripTold).ladderResumeAll := by
        extract_lets _ _ _ _ s3 s4 s5 s6
        have h3 : s3 = s.readied := if_neg (not_not_intro hstrap)
        unfold s6 s5 s4
        rw [h3]
        rfl
    _ = s.readied.tripTold.raiseSel.ladderResumeAll := by
        rw [hquiet, (s.readied.tripTold.foldl_raiseSel_solo (List.range 8) hsolo).2]
        rfl
    _ = s.readied.tripTold.raiseSel := hladder

theorem State.readied_tripValid : s.readied.flag Reg.THM.STAT.TRIP_VALID = s.flag Reg.THM.STAT.TRIP_VALID := by
  unfold flag readied
  rw [rd_wr_ne _ _ _ _ _ _ _ _ (by simp), rd_wr_ne _ _ _ _ _ _ _ _ (by simp), rd_wr_ne _ _ _ _ _ _ _ _ (by simp),
    rd_wr_ne _ _ _ _ _ _ _ _ (by simp)]
  rfl

theorem State.readied_reads : s.readied.rd Reg.SEC.BOOT_STAT.READY = 1 ∧ s.readied.rd Reg.HOD.STAT.READY = 1 ∧
    s.readied.rd Reg.HOD.STAT.SELF_REFRESH = 0 := by
  unfold readied
  refine ⟨?_, ?_, ?_⟩
  · rw [rd_wr_ne _ _ _ _ _ _ _ _ (by simp), rd_wr_ne _ _ _ _ _ _ _ _ (by simp), rd_wr_ne _ _ _ _ _ _ _ _ (by simp),
      rd_wr_same]
    rfl
  · rw [rd_wr_ne _ _ _ _ _ _ _ _ (by simp), rd_wr_ne _ _ _ _ _ _ _ _ (by simp), rd_wr_same]
    rfl
  · rw [rd_wr_ne _ _ _ _ _ _ _ _ (by simp), rd_wr_same]
    rfl

/-- The places of the status of the boot and of the hod that DEVICE_READY writes. -/
def readyKeys : List Nat :=
  [Reg.SEC.BOOT_STAT.READY.key 0 0, Reg.HOD.STAT.READY.key 0 0, Reg.HOD.STAT.SELF_REFRESH.key 0 0,
   Reg.HOD.REPAIR_STAT.ENTRIES.key 0 0]

theorem State.readied_regsBut : RegsBut s s.readied readyKeys := by
  intro k d hk
  simp only [readyKeys, List.mem_cons, List.not_mem_nil, or_false, not_or] at hk
  obtain ⟨h1, h2, h3, h4⟩ := hk
  unfold readied
  rw [get_wr_ne _ _ _ _ _ _ _ h4, get_wr_ne _ _ _ _ _ _ _ h3, get_wr_ne _ _ _ _ _ _ _ h2, get_wr_ne _ _ _ _ _ _ _ h1]

/-- O25, DEVICE_READY: a device with no twin. -/
theorem State.deviceReady_gives (hp : s.phase = .booting ∨ s.phase = .waking) (hstrap : s.twin.strap = 0)
    (hheld : s.held = []) (hdoor : s.doorHeld = []) (hdue : ∀ c < 8, (s.ladder c).due = false) :
    Gives .deviceReady s fun t =>
      t.phase = .active ∧ t.rd Reg.SEC.BOOT_STAT.READY = 1 ∧ t.rd Reg.HOD.STAT.READY = 1 ∧
      t.rd Reg.HOD.STAT.SELF_REFRESH = 0 ∧ (∀ c : CourseNo, t.ownSel c = true) ∧
      (s.flag Reg.THM.STAT.TRIP_VALID = true → t.flag Reg.EVT.LATCH.RAISED 9 = true) ∧
      (s.flag Reg.THM.STAT.TRIP_VALID = false → t.raises = s.raises ∧ OnlyRegs
        { s with phase := .active, twin := t.twin, upd := t.upd } t readyKeys) := by
  obtain ⟨hphase, htwin, -⟩ := s.readied.tripTold_parts
  have hsolo : s.readied.tripTold.twin.strap = 0 := htwin ▸ hstrap
  obtain ⟨hr, hh, hsr⟩ := s.readied_reads
  refine .of (s.deviceReady_solo hp hstrap hheld hdoor hdue)
    ⟨(raiseSel_phase _ hsolo).trans hphase, ?_, ?_, ?_, fun c => raiseSel_ownSel _ c.isLt, fun hv => ?_, fun hv => ?_⟩
  · rw [raiseSel_rd _ hsolo, tripTold_rd _ _ _ _ (by simp) (by simp), hr]
  · rw [raiseSel_rd _ hsolo, tripTold_rd _ _ _ _ (by simp) (by simp), hh]
  · rw [raiseSel_rd _ hsolo, tripTold_rd _ _ _ _ (by simp) (by simp), hsr]
  · rw [flag, raiseSel_rd _ hsolo, tripTold, if_pos (s.readied_tripValid.trans hv)]
    exact raise_latch _ 9 _ (by decide)
  · have htold : s.readied.tripTold = s.readied := if_neg (by simp [readied_tripValid, hv])
    obtain ⟨x, hx⟩ := s.readied.raiseSel_solo hstrap
    rw [htold, hx]
    exact ⟨rfl, rfl, s.readied_regsBut⟩

end
end Sys2Proof.Machine
end

section
/-! The start of the device (R437, R448, R449, R450). -/

namespace Sys2Proof.Machine
open Sys2Proof.Machine.State

/-! ## What judging an image reads -/

/-- The bits of `SEC.LC` and `SEC.ARB` in the register file. -/
def lifePlace (k : Nat) : Prop := 8 * 0x4000 ≤ k ∧ k < 8 * 0x4004 ∨ 8 * 0x4008 ≤ k ∧ k < 8 * 0x4010

/-- An image is judged by the keys and the fuses alone. -/
theorem State.slotFail_congr {s t : State} (hsec : t.sec = s.sec)
    (hlife : ∀ k d, lifePlace k → Tab.get d t.regs k = Tab.get d s.regs k) (img : Option (List Byte)) :
    t.slotFail img = s.slotFail img := by
  have hlc : t.lc = s.lc := hlife _ _ (.inl (by simp))
  have hroot : t.custRoot = s.custRoot := by simp only [custRoot, hlc, hsec]
  have harb : t.rd Reg.SEC.ARB.COUNTER = s.rd Reg.SEC.ARB.COUNTER := hlife _ _ (.inr (by simp))
  have hsig : ∀ l, t.imageSigned l = s.imageSigned l := fun l => by
    unfold imageSigned
    rw [hroot, hsec]
  have himg : ∀ l, t.imageFail l = s.imageFail l := fun l => by
    unfold imageFail
    rw [hsig, harb]
  unfold slotFail
  split
  · rfl
  · rw [himg]

/-- From `s₀` to `s` a start test or the sampling of a strap has run: what judges an image, the hod, the pads and the
update are as they were, and a field-repair overlay found bad stays so. -/
structure State.Tested (s₀ s : State) : Prop where
  phase : s.phase = s₀.phase
  sec : s.sec = s₀.sec
  upd : s.upd = s₀.upd
  hod : s.hod = s₀.hod
  pwr : s.pwr = s₀.pwr
  life : ∀ k d, lifePlace k → Tab.get d s.regs k = Tab.get d s₀.regs k
  overlay : s₀.rd Reg.HOD.REPAIR_STAT.OVERLAY_BAD = 1 → s.rd Reg.HOD.REPAIR_STAT.OVERLAY_BAD = 1

namespace State.Tested
variable {s₀ s : State}

theorem refl (s : State) : Tested s s := ⟨rfl, rfl, rfl, rfl, rfl, fun _ _ _ => rfl, id⟩

theorem foldlOn {α : Type} {f : State → α → State} {l : List α} {p : α → Prop} (hl : ∀ x ∈ l, p x)
    (hf : ∀ {t x}, p x → Tested s₀ t → Tested s₀ (f t x)) (h : Tested s₀ s) : Tested s₀ (l.foldl f s) := by
  induction l generalizing s with
  | nil => exact h
  | cons x xs ih => exact ih (fun y hy => hl y (.tail _ hy)) (hf (hl x (.head _)) h)

theorem wr {f : Fld} {v i j : Nat} (h : Tested s₀ s) (hl : ¬ lifePlace (f.key i j))
    (ho : Reg.HOD.REPAIR_STAT.OVERLAY_BAD.key 0 0 ≠ f.key i j) : Tested s₀ (s.wr f v i j) :=
  { h with
    life := fun k d hk => (get_wr_ne _ _ _ _ _ _ _ (fun he => hl (he ▸ hk))).trans (h.life k d hk)
    overlay := fun hb => (rd_wr_ne _ _ _ _ _ _ _ _ ho).trans (h.overlay hb) }

/-- The latch of a source: its bit is set, wherever it stands. -/
theorem latch {src : Nat} (h : Tested s₀ s) : Tested s₀ (s.wr Reg.EVT.LATCH.RAISED 1 src) := by
  by_cases ho : Reg.HOD.REPAIR_STAT.OVERLAY_BAD.key 0 0 = Reg.EVT.LATCH.RAISED.key src 0
  · refine { h with life := fun k d hk => ?_, overlay := fun _ => ?_ }
    · refine (get_wr_ne _ _ _ _ _ _ _ ?_).trans (h.life k d hk)
      rintro rfl
      simp [lifePlace] at hk
      omega
    · show Tab.get 0 _ (Reg.HOD.REPAIR_STAT.OVERLAY_BAD.key 0 0) = 1
      rw [ho]
      exact rd_wr_same s Reg.EVT.LATCH.RAISED 1 src 0
  · exact .wr h (by simp [lifePlace]; omega) ho

theorem raise {src detail : Nat} (h : Tested s₀ s) : Tested s₀ (s.raise src detail) := by
  obtain ⟨_, _, he⟩ := s.raise_eq src detail
  rw [he]
  exact { Tested.wr (f := Reg.EVT.STAT.LAST_SRC) (v := src) (i := 0) (j := 0) (latch h) (by simp [lifePlace]) (by simp)
    with }

theorem engMap {m : Tab EngMap} (h : Tested s₀ s) : Tested s₀ { s with engMap := m } := { h with }

theorem setCore {k : Nat} {x : CoreX} (h : Tested s₀ s) : Tested s₀ (s.setCore k x) := { h with }

theorem wrMapped {v i : Nat} (h : Tested s₀ s) (hi : i < 8) : Tested s₀ (s.wr Reg.GLB.ENG_SPARE_MAP.MAPPED v i) :=
  .wr h (by simp [lifePlace]; omega) (by simp; omega)

theorem wrLogical {v i : Nat} (h : Tested s₀ s) (hi : i < 8) : Tested s₀ (s.wr Reg.GLB.ENG_SPARE_MAP.LOGICAL v i) :=
  .wr h (by simp [lifePlace]; omega) (by simp; omega)

theorem keepTestFault {k : Nat} (h : Tested s₀ s) : Tested s₀ (s.keepTestFault k) := .raise (.setCore h)

theorem mapTested {bad : List Nat} {e : Nat} (h : Tested s₀ s) : Tested s₀ (s.mapTested bad e) := by
  unfold State.mapTested
  split
  · next i hi =>
    have hi8 : i < 8 := List.mem_range.mp (List.mem_of_find?_eq_some hi)
    exact .raise (.wrMapped (.wrLogical h hi8) hi8)
  · exact .raise (.engMap h)

theorem spareTested {bad : List Nat} {i : Nat} (h : Tested s₀ s) (hi : i < 8) : Tested s₀ (s.spareTested bad i) := by
  unfold State.spareTested
  extract_lets s1
  have h1 : Tested s₀ s1 := .engMap h
  split
  · exact .mapTested (.wrMapped h1 hi)
  · exact h1

theorem startTests {b : BootIn} (h : Tested s₀ s) : Tested s₀ (s.startTests b) := by
  unfold State.startTests
  extract_lets bad s0 s1 s2 s3
  have hbad : ∀ e ∈ bad, e < 96 := fun e he => List.mem_range.mp (List.mem_of_mem_filter he)
  have h1 : Tested s₀ s1 := .wr (.wr (.wr (.engMap h) (by simp [lifePlace]) (by simp)) (by simp [lifePlace]) (by simp))
    (by simp [lifePlace]) (by simp)
  have h2 : Tested s₀ s2 := by
    unfold s2
    split
    · exact h1
    · exact .raise h1
  have h3 : Tested s₀ s3 := .foldlOn hbad
    (fun he ht => .wr (.wr ht (by simp [lifePlace]; omega) (by simp; omega)) (by simp [lifePlace]; omega) (by simp; omega)) h2
  refine .foldlOn hbad (fun {t e} he ht => ?_) h3
  split
  · exact .spareTested ht (by omega)
  · split
    · exact ht
    · split
      · exact .keepTestFault ht
      · split
        · exact ht
        · exact .mapTested ht

theorem sampleStrap {b : BootIn} (h : Tested s₀ s) : Tested s₀ (s.sampleStrap b) :=
  { Tested.wr (f := Reg.FLK.TWIN_STAT.ROLE_STRAP) (v := b.strap.val) (i := 0) (j := 0) h (by simp [lifePlace]) (by simp)
    with }

theorem loadTrip (h : Tested s₀ s) : Tested s₀ s.loadTrip := by
  unfold State.loadTrip
  split
  · split
    · exact h
    · exact .wr (.wr (.wr (.wr (.wr h (by simp [lifePlace]) (by simp)) (by simp [lifePlace]) (by simp))
        (by simp [lifePlace]) (by simp)) (by simp [lifePlace]) (by simp)) (by simp [lifePlace]) (by simp)
  · exact h

end State.Tested

section
variable (s : State) (b : BootIn)

/-! ## The choice of the slot with no commit record (R449, R450) -/

/-- With no record slot A is tried first, as proven, then slot B. -/
theorem State.chooseSlot_noRecord (hr : s.upd.record = none) :
    s.chooseSlot b = match s.slotImage b 0 with
      | some i => s.loadSlot b 0 i false 0
      | none =>
        let s2 := s.noteFail 0 (s.slotFail b.imgA)
        match s2.slotImage b 1 with
        | some i => (s2.recordFallback 1 i).loadSlot b 1 i false 0
        | none => (s2.noteFail 1 (s2.slotFail b.imgB)).haltKeep := by
  have hf : s.firstChoice b = (0, false, s) := by simp only [firstChoice, hr]
  have ha : s.activeSlot = 0 := by simp only [activeSlot, hr]
  unfold chooseSlot
  rw [hf, ha]
  simp only [hr]
  rfl

theorem State.slotImage_some {img : List Byte} (hi : b.imgA = some img) (hf : s.slotFail b.imgA = 0) :
    s.slotImage b 0 = some (imageInfo img) := by
  unfold slotImage
  rw [if_pos rfl, if_pos hf, hi]
  rfl

theorem State.slotImage_empty {slot : Nat} (ha : b.imgA = none) (hb : b.imgB = none) : s.slotImage b slot = none := by
  have himg : (if slot = 0 then b.imgA else b.imgB) = none := by simp [ha, hb]
  unfold slotImage
  rw [himg]
  rfl

/-- What loading a slot shows. -/
theorem State.loadSlot_reads (slot : Nat) (i : ImageInfo) (trial : Bool) (active : Nat) :
    let t := s.loadSlot b slot i trial active
    t.phase = s.phase ∧ t.upd.running = i ∧ t.upd.bootTrial = trial ∧
      t.rd Reg.SEC.BOOT_STAT.SLOT = slot % 2 ∧ t.rd Reg.SEC.BOOT_STAT.BOOT_TRIAL = bitVal trial ∧
      t.rd Reg.UPD.VERSION.RUNNING = i.version % 2 ^ 32 := by
  refine ⟨rfl, rfl, rfl, ?_, ?_, ?_⟩
  · unfold loadSlot wrB
    rw [rd_wr_ne _ _ _ _ _ _ _ _ (by simp), rd_wr_ne _ _ _ _ _ _ _ _ (by simp), rd_wr_same]
    rfl
  · unfold loadSlot wrB
    rw [rd_wr_ne _ _ _ _ _ _ _ _ (by simp), rd_wr_same]
    cases trial <;> rfl
  · unfold loadSlot wrB
    rw [rd_wr_ne _ _ _ _ _ _ _ _ (by simp), rd_wr_ne _ _ _ _ _ _ _ _ (by simp), rd_wr_ne _ _ _ _ _ _ _ _ (by simp),
      rd_wr_same]
    rfl

/-- Slot A verifies: it is booted as proven. -/
theorem State.chooseSlot_slotA {img : List Byte} (hr : s.upd.record = none) (hi : b.imgA = some img)
    (hf : s.slotFail b.imgA = 0) : s.chooseSlot b = s.loadSlot b 0 (imageInfo img) false 0 := by
  rw [s.chooseSlot_noRecord b hr, s.slotImage_some b hi hf]

/-- Neither slot can be read: the device halts in KEEP. -/
theorem State.chooseSlot_empty (hr : s.upd.record = none) (ha : b.imgA = none) (hb : b.imgB = none) :
    s.chooseSlot b = ((s.noteFail 0 1).noteFail 1 1).haltKeep := by
  rw [s.chooseSlot_noRecord b hr, s.slotImage_empty b ha hb]
  dsimp only
  rw [slotImage_empty _ b ha hb, ha, hb]
  rfl

theorem State.haltKeep_reads :
    let t := ((s.noteFail 0 1).noteFail 1 1).haltKeep
    t.phase = .halted ∧ t.rd Reg.SEC.BOOT_STAT.FLASH_RELEASED = 1 ∧ t.rd Reg.SEC.BOOT_STAT.FAIL_A = 1 ∧
      t.rd Reg.SEC.BOOT_STAT.FAIL_B = 1 := by
  refine ⟨rfl, ?_, ?_, ?_⟩
  · exact rd_wr_same ((s.noteFail 0 1).noteFail 1 1) Reg.SEC.BOOT_STAT.FLASH_RELEASED 1 0 0
  · show (((s.wr Reg.SEC.BOOT_STAT.FAIL_A 1).wr Reg.SEC.BOOT_STAT.FAIL_B 1).wr Reg.SEC.BOOT_STAT.FLASH_RELEASED 1).rd _ = 1
    rw [rd_wr_ne _ _ _ _ _ _ _ _ (by simp), rd_wr_ne _ _ _ _ _ _ _ _ (by simp), rd_wr_same]
    rfl
  · show (((s.wr Reg.SEC.BOOT_STAT.FAIL_A 1).wr Reg.SEC.BOOT_STAT.FAIL_B 1).wr Reg.SEC.BOOT_STAT.FLASH_RELEASED 1).rd _ = 1
    rw [rd_wr_ne _ _ _ _ _ _ _ _ (by simp), rd_wr_same]
    rfl

/-! ## What the choice leaves alone -/

/-- From `s` to `t` the hod with its overlay and the pads are as they were. -/
def State.HodKept (t : State) : Prop :=
  t.hod = s.hod ∧ t.pwr = s.pwr ∧ t.rd Reg.HOD.REPAIR_STAT.OVERLAY_BAD = s.rd Reg.HOD.REPAIR_STAT.OVERLAY_BAD

section
variable {s}
variable {t : State}

theorem State.HodKept.wr {f : Fld} {v i j : Nat} (h : s.HodKept t)
    (ho : Reg.HOD.REPAIR_STAT.OVERLAY_BAD.key 0 0 ≠ f.key i j) : s.HodKept (t.wr f v i j) := by
  obtain ⟨hh, hp, hr⟩ := h
  exact ⟨hh, hp, (rd_wr_ne _ _ _ _ _ _ _ _ ho).trans hr⟩

theorem State.HodKept.noteFail {slot cause : Nat} (h : s.HodKept t) : s.HodKept (t.noteFail slot cause) := by
  unfold State.noteFail
  split
  · exact h.wr (by simp)
  · exact h.wr (by simp)

theorem State.HodKept.recordFallback {slot : Nat} {i : ImageInfo} (h : s.HodKept t) :
    s.HodKept (t.recordFallback slot i) := by
  obtain ⟨hh, hp, hr⟩ := h
  unfold State.recordFallback
  split
  · exact ⟨hh, hp, (rd_wr_ne _ _ _ _ _ _ _ _ (by simp)).trans hr⟩
  · exact ⟨hh, hp, hr⟩

theorem State.HodKept.loadSlot {slot active : Nat} {i : ImageInfo} {trial : Bool} (h : s.HodKept t) :
    s.HodKept (t.loadSlot b slot i trial active) := by
  obtain ⟨hh, hp, hr⟩ := h
  refine ⟨hh, hp, ?_⟩
  unfold State.loadSlot wrB
  rw [rd_wr_ne _ _ _ _ _ _ _ _ (by simp), rd_wr_ne _ _ _ _ _ _ _ _ (by simp), rd_wr_ne _ _ _ _ _ _ _ _ (by simp),
    rd_wr_ne _ _ _ _ _ _ _ _ (by simp)]
  exact hr

theorem State.HodKept.haltKeep (h : s.HodKept t) : s.HodKept t.haltKeep :=
  h.wr (f := Reg.SEC.BOOT_STAT.FLASH_RELEASED) (v := 1) (i := 0) (j := 0) (by simp)

end

theorem State.chooseSlot_hodKept (hr : s.upd.record = none) : s.HodKept (s.chooseSlot b) := by
  have h : s.HodKept s := ⟨rfl, rfl, rfl⟩
  rw [s.chooseSlot_noRecord b hr]
  split
  · exact h.loadSlot b
  · dsimp only
    split
    · exact h.noteFail.recordFallback.loadSlot b
    · exact h.noteFail.noteFail.haltKeep

/-! ## The start (R448) -/

/-- The state the start tests run in, with no commit record. -/
def State.bootStart (p : Phase) : State :=
  ((({ s with
    phase := p, therm := { s.therm with tripL := false }
    upd := { s.upd with record := none, copy := 1 } } : State).readMram b).clearRegs 0x4004 0x4008).wr Reg.UPD.RECORD.SEQ 0

theorem State.boot_noRecord (p : Phase) (h0 : recordOf b.rec0 = none) (h1 : recordOf b.rec1 = none) :
    s.boot b p = ((s.bootStart b p).startTests b).chooseSlot b := by
  have hn : newestRecord b = none := by simp only [newestRecord, h0, h1]
  unfold boot
  rw [hn]
  rfl

theorem State.bootStart_slotFail (p : Phase) (img : Option (List Byte)) :
    (s.bootStart b p).slotFail img = s.slotFail img := by
  refine slotFail_congr (s := s) (t := s.bootStart b p) rfl (fun k d hk => ?_) img
  unfold bootStart
  unfold lifePlace at hk
  rw [get_wr_ne _ _ _ _ _ _ _ (by simp; omega)]
  exact Tab.get_clear_out _ _ _ _ _ (by omega)

theorem State.bootStart_overlayBad (p : Phase) :
    (s.bootStart b p).rd Reg.HOD.REPAIR_STAT.OVERLAY_BAD = s.rd Reg.HOD.REPAIR_STAT.OVERLAY_BAD := by
  unfold bootStart
  rw [rd_wr_ne _ _ _ _ _ _ _ _ (by simp)]
  exact Tab.get_clear_out _ _ _ _ _ (by simp)

/-- What `t` shows after a start of `s` with no commit record: slot A booted as proven where it verifies, the device
halted where neither slot can be read. -/
def State.Boots (p : Phase) (t : State) : Prop :=
  (∀ img, b.imgA = some img → s.slotFail b.imgA = 0 → t.phase = p ∧ t.rd Reg.SEC.BOOT_STAT.SLOT = 0 ∧
    t.rd Reg.SEC.BOOT_STAT.BOOT_TRIAL = 0 ∧ t.rd Reg.UPD.VERSION.RUNNING = (imageInfo img).version % 2 ^ 32 ∧
    t.upd.running = imageInfo img ∧ t.upd.bootTrial = false) ∧
  (b.imgA = none → b.imgB = none → t.phase = .halted ∧ t.rd Reg.SEC.BOOT_STAT.FLASH_RELEASED = 1 ∧
    t.rd Reg.SEC.BOOT_STAT.FAIL_A = 1 ∧ t.rd Reg.SEC.BOOT_STAT.FAIL_B = 1)

theorem State.boot_boots (p : Phase) (h0 : recordOf b.rec0 = none) (h1 : recordOf b.rec1 = none) :
    s.Boots b p (s.boot b p) := by
  have htest : Tested (s.bootStart b p) ((s.bootStart b p).startTests b) := .startTests (.refl _)
  have hr : ((s.bootStart b p).startTests b).upd.record = none := by
    rw [htest.upd]
    rfl
  rw [s.boot_noRecord b p h0 h1]
  constructor
  · intro img hi hf
    have hf' : ((s.bootStart b p).startTests b).slotFail b.imgA = 0 := by
      rw [slotFail_congr htest.sec htest.life, s.bootStart_slotFail b p, hf]
    rw [chooseSlot_slotA _ b hr hi hf']
    obtain ⟨hphase, hrun, htrial, hslot, hbt, hver⟩ :=
      loadSlot_reads ((s.bootStart b p).startTests b) b 0 (imageInfo img) false 0
    exact ⟨hphase.trans htest.phase, hslot, hbt, hver, hrun, htrial⟩
  · intro ha hb
    rw [chooseSlot_empty _ b hr ha hb]
    exact haltKeep_reads _

/-- A start leaves the hod and the pads as they were, and an overlay found bad stays so. -/
theorem State.boot_hod (p : Phase) (h0 : recordOf b.rec0 = none) (h1 : recordOf b.rec1 = none) :
    (s.boot b p).hod = s.hod ∧ (s.boot b p).pwr = s.pwr ∧ (s.rd Reg.HOD.REPAIR_STAT.OVERLAY_BAD = 1 →
      (s.boot b p).rd Reg.HOD.REPAIR_STAT.OVERLAY_BAD = 1) := by
  have htest : Tested (s.bootStart b p) ((s.bootStart b p).startTests b) := .startTests (.refl _)
  have hr : ((s.bootStart b p).startTests b).upd.record = none := by
    rw [htest.upd]
    rfl
  rw [s.boot_noRecord b p h0 h1]
  obtain ⟨hh, hp, hb⟩ := chooseSlot_hodKept _ b hr
  exact ⟨hh.trans htest.hod, hp.trans htest.pwr,
    fun h => hb.trans (htest.overlay ((s.bootStart_overlayBad b p).trans h))⟩

variable {s b}

/-- The keys and fuses alone judge slot A. -/
theorem State.Boots.of_slotFail {u t : State} {p : Phase} (h : u.Boots b p t)
    (hf : u.slotFail b.imgA = s.slotFail b.imgA) : s.Boots b p t := by
  unfold State.Boots
  rw [← hf]
  exact h

/-- What a start shows outlasts what spares it. -/
theorem State.Boots.of_spared {t t' : State} {p : Phase} (h : s.Boots b p t) (hs : Spared t t') : s.Boots b p t' := by
  have hrd : ∀ f : Fld, bootPlace (f.key 0 0) → t'.rd f = t.rd f := fun f hf => hs.boot _ _ hf
  unfold State.Boots
  rw [hs.phase, hs.running, hs.bootTrial, hrd Reg.SEC.BOOT_STAT.SLOT (by simp [bootPlace]),
    hrd Reg.SEC.BOOT_STAT.BOOT_TRIAL (by simp [bootPlace]), hrd Reg.UPD.VERSION.RUNNING (by simp [bootPlace]),
    hrd Reg.SEC.BOOT_STAT.FLASH_RELEASED (by simp [bootPlace]), hrd Reg.SEC.BOOT_STAT.FAIL_A (by simp [bootPlace]),
    hrd Reg.SEC.BOOT_STAT.FAIL_B (by simp [bootPlace])]
  exact h

variable (s b)

/-! ## The release of a reset (R437, R403) and D_KEEP_EXIT (R420) -/

/-- What precedes the start at the release of a reset: the straps, the trip record and the overlay are read. -/
def State.sampled : State := ((s.sampleStrap b).loadTrip).readOverlay b

theorem State.sampled_slotFail (img : Option (List Byte)) : (s.sampled b).slotFail img = s.slotFail img := by
  have h : Tested s (s.sampleStrap b).loadTrip := .loadTrip (.sampleStrap (.refl s))
  refine Eq.trans ?_ (slotFail_congr h.sec h.life img)
  unfold sampled readOverlay
  split
  · refine slotFail_congr ?_ (fun k d hk => ?_) img
    · rfl
    · unfold lifePlace at hk
      rw [get_wr_ne _ _ _ _ _ _ _ (by simp; omega)]
  · rfl

theorem State.sampled_badOverlay (h : b.badOverlay = true) : (s.sampled b).hod.overlay = [] ∧
    (s.sampled b).hod.saved = [] ∧ (s.sampled b).rd Reg.HOD.REPAIR_STAT.OVERLAY_BAD = 1 := by
  unfold sampled readOverlay
  rw [if_pos h]
  exact ⟨rfl, rfl, rd_wr_same _ _ _ _ _⟩

theorem State.leaveReset_hot (h : s.tooHot = true) : s.leaveReset b = { s with phase := .heldHot } := if_pos h

theorem State.leaveReset_boots (h : s.tooHot = false) (h0 : recordOf b.rec0 = none) (h1 : recordOf b.rec1 = none) :
    s.Boots b .booting (s.leaveReset b) ∧ (b.badOverlay = true → (s.leaveReset b).hod.overlay = [] ∧
      (s.leaveReset b).hod.saved = [] ∧ (s.leaveReset b).rd Reg.HOD.REPAIR_STAT.OVERLAY_BAD = 1) := by
  have hl : s.leaveReset b = (s.sampled b).boot b .booting := if_neg (by simp [h])
  obtain ⟨hh, -, ho⟩ := (s.sampled b).boot_hod b .booting h0 h1
  rw [hl]
  refine ⟨((s.sampled b).boot_boots b .booting h0 h1).of_slotFail (s.sampled_slotFail b _), fun hb => ?_⟩
  obtain ⟨hov, hsv, hbad⟩ := s.sampled_badOverlay b hb
  rw [hh]
  exact ⟨hov, hsv, ho hbad⟩

/-- The device as it wakes from D_KEEP, before its start: pads latched at their reset levels, engines to be loaded. -/
def State.woken : State :=
  (({ s with
    twin := { s.twin with holdOver := true }
    pwr := { s.pwr with heldC := [], heldQ := [], latch := [] }
    cores := s.cores.filterMap fun (p : Nat × CoreX) =>
      if p.2.faults = 0 then none else some (p.1, { faults := p.2.faults })
    eng := [] } : State).clearRegs 0x1A00000 0x1A20000).wr Reg.FLK.TWIN_STAT.ROLE_STRAP s.twin.strap

theorem State.woken_slotFail (img : Option (List Byte)) : s.woken.slotFail img = s.slotFail img := by
  refine slotFail_congr (s := s) (t := s.woken) rfl (fun k d hk => ?_) img
  unfold lifePlace at hk
  unfold woken
  rw [get_wr_ne _ _ _ _ _ _ _ (by simp; omega)]
  exact Tab.get_clear_out _ _ _ _ _ (by omega)

theorem State.dKeepExit_gives (hp : s.phase = .dkeep) (h0 : recordOf b.rec0 = none) (h1 : recordOf b.rec1 = none) :
    Gives (.dKeepExit b) s fun t => s.Boots b .waking t ∧
      (∀ c : CourseNo, t.padHeldC c = true ∧ t.padLatch c = {}) ∧ ∀ q, t.padHeldQ q = true := by
  have hs : Spared (s.woken.boot b .waking) ((s.woken.boot b .waking).startSubst 96) := .startSubst (.refl _)
  obtain ⟨-, hpwr, -⟩ := s.woken.boot_hod b .waking h0 h1
  have hC : ∀ c, (s.woken.boot b .waking).padHeldC c = true ∧ (s.woken.boot b .waking).padLatch c = {} := by
    intro c
    unfold padHeldC padLatch
    rw [hpwr]
    exact ⟨rfl, rfl⟩
  have hQ : ∀ q, (s.woken.boot b .waking).padHeldQ q = true := by
    intro q
    unfold padHeldQ
    rw [hpwr]
    rfl
  refine .of (congrArg Host.Outcome.next (if_pos hp)) ⟨?_, fun c => ?_, fun q => hs.padsQ q (hQ q)⟩
  · exact ((s.woken.boot_boots b .waking h0 h1).of_slotFail (s.woken_slotFail _)).of_spared hs
  · obtain ⟨hheld, hlatch⟩ := hC c
    obtain ⟨hheld', hlatch'⟩ := hs.padsC c hheld
    exact ⟨hheld', hlatch'.trans hlatch⟩

end

end Sys2Proof.Machine
end

section
/-! D_KEEP_ENTRY (R420), and the start as a whole. -/

namespace Sys2Proof.Machine
open Sys2Proof.Machine.State

section
variable (s : State)

/-- CORE's domains are off, and their registers and the rest of CORE's state still stand. -/
def State.domainsOff : State :=
  let s1 := s.flrPf
  let s2 := (List.range 8).foldl (fun (t : State) (c : Nat) => if t.courseD c then t.courseDown c else t) s1
  let s3 := (List.range 4).foldl (fun (t : State) (q : Nat) => if t.quadOn q then t.quadDown q else t) s2
  (if s3.pwr.flkOn then s3.flkDown.setFlk false else s3).holdRaises

theorem State.Spared.setFlk {s₀ s : State} {b : Bool} (h : Spared s₀ s) : Spared s₀ (s.setFlk b) :=
  .keepPwr h rfl rfl rfl

theorem State.domainsOff_spared : Spared s s.domainsOff := by
  unfold domainsOff
  extract_lets s1 s2 s3
  have h2 : Spared s s2 := .foldlOn (p := (· < 8)) (fun _ hc => List.mem_range.mp hc)
    (fun hc ht => .ite (.courseDown ht hc) ht) (.flrPf (.refl s))
  have h3 : Spared s s3 := .foldl (fun ht => .ite (.quadDown ht) ht) h2
  exact .holdRaises (.ite (.setFlk (.flkDown h3)) h3)

/-- The map of the spares is in KEEP (R20). -/
theorem State.clearCore_spareMap {k : Nat} (d : Nat) (hk : mapPlace k) :
    Tab.get d s.clearCore.regs k = Tab.get d s.regs k := by
  unfold mapPlace at hk
  unfold clearCore
  refine (Tab.get_clear_out _ _ _ _ _ (by omega)).trans ((Tab.get_clear_out _ _ _ _ _ (by omega)).trans ?_)
  refine (Tab.get_filter_keep d _ _ k (fun v => by simp; omega)).trans ?_
  refine (Tab.get_clear_out _ _ _ _ _ (by omega)).trans ((Tab.get_clear_out _ _ _ _ _ (by omega)).trans ?_)
  refine (Tab.get_clear_out _ _ _ _ _ (by omega)).trans ((Tab.get_clear_out _ _ _ _ _ (by omega)).trans ?_)
  exact Tab.get_clear_out _ _ _ _ _ (by omega)

theorem coresKept_k0 (l : Tab CoreX) : Tab.get {} (coresKept l) 0 = Tab.get {} l 0 := by
  induction l with
  | nil => rfl
  | cons p l ih =>
    obtain ⟨k, x⟩ := p
    have hcons : coresKept ((k, x) :: l) =
      (if k = 0 then [(k, x)] else if x.faults = 0 then [] else [(k, { faults := x.faults })]) ++ coresKept l := by
      unfold coresKept
      rw [List.filterMap_cons]
      by_cases hk : k = 0
      · simp [hk]
      · by_cases hf : x.faults = 0
        · simp [hk, hf]
        · simp [hk, hf]
    rw [hcons]
    by_cases hk : k = 0
    · subst hk
      rfl
    · have hk' : ¬ 0 = k := fun h => hk h.symm
      by_cases hf : x.faults = 0
      · simp [hk, hf, Tab.get, hk', ih]
      · simp [hk, hf, Tab.get, hk', ih]

/-- The end of CORE's registers leaves every other part of the state. -/
theorem State.clearCore_proj {α : Type} (g : State → α) (hg : ∀ (t : State) (r : Tab Nat), g { t with regs := r } = g t) :
    g s.clearCore = g s := by
  have hc : ∀ (t : State) (lo hi : Nat), g (t.clearRegs lo hi) = g t := fun t lo hi => hg t _
  unfold clearCore
  extract_lets s1 left s2
  have h1 : g s1 = g s := by
    unfold s1
    rw [hc, hc, hc, hc, hc]
  rw [hc, hc, ← h1]
  exact hg s1 left

/-- What CORE holds beside its registers is lost. -/
def State.coreLost : State :=
  { s with
    tests := [], eng := s.eng.filter fun (q : Nat × EngX) => q.1 == 80, scv := [], dec := [], cmis := [], host := [], htx := []
    bst := [], chk := [], shots := [], epoch := [], mortar := [], bgHigh := 0, bgLow := 0, twin := s.twin.kept, upd := s.upd.kept
    cores := coresKept s.cores
    pwr := { s.pwr with trans := none, offNow := [], d3Wait := false }, hod := { s.hod with caps := [] } }

/-- The device in D_KEEP: the hod is in self-refresh (R407), and nothing serves. -/
def State.kept : State :=
  { ((s.wr Reg.HOD.STAT.READY 0).wr Reg.HOD.STAT.SELF_REFRESH 1).wr Reg.SEC.BOOT_STAT.READY 0 with phase := .dkeep }

theorem State.enterDKeep_eq : s.enterDKeep = s.domainsOff.clearCore.coreLost.kept := by
  unfold enterDKeep coreDown domainsOff
  extract_lets s1 s2 s3 s4 s5
  have h5 : s4.clearCore = s5 := rfl
  clear_value s5
  rw [h5]
  rfl

theorem State.kept_eng : s.coreLost.kept.eng = s.eng.filter fun (q : Nat × EngX) => q.1 == 80 := by rfl

theorem State.kept_phase : s.coreLost.kept.phase = .dkeep := by rfl

theorem State.kept_trans : s.coreLost.kept.pwr.trans = none := by rfl

theorem State.kept_cores : s.coreLost.kept.cores = coresKept s.cores := by rfl

theorem State.kept_regs : s.coreLost.kept.regs = (((s.wr Reg.HOD.STAT.READY 0).wr Reg.HOD.STAT.SELF_REFRESH 1).wr
    Reg.SEC.BOOT_STAT.READY 0).regs := by rfl

theorem State.kept_engOf (e : Nat) : s.coreLost.kept.engOf e = if e = 80 then s.engOf 80 else {} := by
  unfold engOf
  rw [kept_eng]
  split
  · next h =>
    rw [h]
    exact Tab.get_filter_keep _ _ _ _ fun _ => rfl
  · next h => exact Tab.get_filter_drop _ _ _ _ fun _ => by simpa using h

theorem State.kept_core0 : s.coreLost.kept.core 0 = s.core 0 := by
  unfold core
  rw [kept_cores, coresKept_k0]

theorem State.kept_reads : s.coreLost.kept.rd Reg.SEC.BOOT_STAT.READY = 0 ∧ s.coreLost.kept.rd Reg.HOD.STAT.READY = 0 ∧
    s.coreLost.kept.rd Reg.HOD.STAT.SELF_REFRESH = 1 := by
  refine ⟨?_, ?_, ?_⟩
  · rw [rd_congr _ _ s.kept_regs, rd_wr_same]
    rfl
  · rw [rd_congr _ _ s.kept_regs, rd_wr_ne _ _ _ _ _ _ _ _ (by simp), rd_wr_ne _ _ _ _ _ _ _ _ (by simp), rd_wr_same]
    rfl
  · rw [rd_congr _ _ s.kept_regs, rd_wr_ne _ _ _ _ _ _ _ _ (by simp), rd_wr_same]
    rfl

theorem State.kept_spareMap {k : Nat} (d : Nat) (hk : mapPlace k) :
    Tab.get d s.coreLost.kept.regs k = Tab.get d s.regs k := by
  unfold mapPlace at hk
  rw [kept_regs, get_wr_ne _ _ _ _ _ _ _ (by simp; omega), get_wr_ne _ _ _ _ _ _ _ (by simp; omega),
    get_wr_ne _ _ _ _ _ _ _ (by simp; omega)]

/-- O25, D_KEEP_ENTRY: with no transition in flight the device is in D_KEEP, K0 and the spares as they were. -/
theorem State.dKeepEntry_gives (hon : s.coreOn = true) (ht : s.pwr.trans = none) (ho : s.pwr.offNow = []) :
    Gives .dKeepEntry s fun t =>
      t.phase = .dkeep ∧ t.rd Reg.SEC.BOOT_STAT.READY = 0 ∧ t.rd Reg.HOD.STAT.READY = 0 ∧
      t.rd Reg.HOD.STAT.SELF_REFRESH = 1 ∧ (∀ e, e ≠ 80 → t.engOf e = {}) ∧ t.engOf 80 = s.engOf 80 ∧ t.core 0 = s.core 0 ∧
      (s.failed = [] → s.subst = none → ∀ i < 8,
        t.flag Reg.GLB.ENG_SPARE_MAP.MAPPED i = s.flag Reg.GLB.ENG_SPARE_MAP.MAPPED i ∧
        t.rd Reg.GLB.ENG_SPARE_MAP.LOGICAL i = s.rd Reg.GLB.ENG_SPARE_MAP.LOGICAL i) ∧ t.pwr.trans = none := by
  have hs := s.domainsOff_spared
  have heng : s.domainsOff.clearCore.engOf 80 = s.engOf 80 :=
    (clearCore_proj _ (engOf · 80) fun _ _ => rfl).trans hs.k0
  have hcores : s.domainsOff.clearCore.cores = s.cores := (clearCore_proj _ cores fun _ _ => rfl).trans hs.cores
  have hcore : s.domainsOff.clearCore.core 0 = s.core 0 := by
    unfold State.core
    rw [hcores]
  have hexec : exec .dKeepEntry s = .next s.domainsOff.clearCore.coreLost.kept := by
    refine congrArg Host.Outcome.next ?_
    rw [if_neg (by simp [hon]), if_neg (by simp [ht, ho]), enterDKeep_eq]
  obtain ⟨hr, hh, hsr⟩ := s.domainsOff.clearCore.kept_reads
  refine .of hexec ⟨kept_phase _, hr, hh, hsr, fun e he => ?_, ?_, ?_, fun hf hsub i hi => ?_, kept_trans _⟩
  · rw [kept_engOf, if_neg he]
  · rw [kept_engOf, if_pos rfl, heng]
  · rw [kept_core0, hcore]
  · obtain ⟨-, hmap⟩ := hs.spares ⟨hf, hsub⟩
    have hrd : ∀ f : Fld, mapPlace (f.key i 0) → s.domainsOff.clearCore.coreLost.kept.rd f i = s.rd f i :=
      fun f hk => (kept_spareMap _ _ hk).trans ((clearCore_spareMap _ _ hk).trans (hmap _ _ hk))
    refine ⟨?_, hrd _ (by simp [mapPlace]; omega)⟩
    unfold flag
    rw [hrd _ (by simp [mapPlace]; omega)]

end

/-- Settles O25: a start is its tests and its choice of a slot, and D_KEEP is entered with every domain of CORE off; what
follows either spares what the statement speaks of. -/
theorem startsDeviceReadyAndDKeep : Obligations.StartsDeviceReadyAndDKeep := by
  refine ⟨⟨?_, ?_⟩, ?_, ?_, ?_⟩
  · intro b s hhot
    refine ⟨fun hp => ?_, fun hp => ?_, fun hp => ?_⟩
    all_goals exact congrArg Host.Outcome.next ((if_pos hp).trans (s.leaveReset_hot b hhot))
  · intro b s h0 h1 A
    constructor
    · intro hcool
      obtain ⟨⟨hA, hnone⟩, hbad⟩ := s.leaveReset_boots b hcool h0 h1
      have hstart : A .booting (s.leaveReset b) := ⟨hA, hnone, fun hb _ => hbad hb⟩
      refine ⟨fun hp => ?_, fun hp => ?_, fun hp => ?_⟩
      all_goals exact .of (congrArg Host.Outcome.next (if_pos hp)) hstart
    · intro hp
      obtain ⟨t, he, ⟨hA, hnone⟩, hpads, hquads⟩ := s.dKeepExit_gives b hp h0 h1
      exact ⟨t, he, ⟨hA, hnone, fun _ hw => absurd hw (by decide)⟩, hpads, hquads⟩
  · intro s hp hstrap hheld hdoor hdue
    exact s.deviceReady_gives hp hstrap hheld hdoor fun c hc => hdue ⟨c, hc⟩
  · intro s hon hbusy
    refine congrArg Host.Outcome.next ?_
    rw [if_neg (by simp [hon]), if_pos ?_]
    rcases hbusy with ht | ho
    · simp [Option.isSome_iff_ne_none.mpr ht]
    · simp [ho]
  · intro s hon ht ho
    exact s.dKeepEntry_gives hon ht ho

end Sys2Proof.Machine
end

section
/-! Precoding where the mode fixes it off or has none (R53, R54). -/

namespace Sys2Proof.Machine

namespace State
variable {s u : State} {o : Op} {r : Nat} {e : Entry} {d : Dma} {f : Flight} {chk : State → Flight → Option Res}
  {run : State → Origin → Flight → State}

/-- A command refused with a bare status finishes with it alone, in a dry run and before the twin is told too (R324, R328). -/
theorem serve_refused_bare (h1 : s.takeUp r (opCode o) e d = some (u, f))
    (h2 : startable (u.ring r).flights f = true) (h3 : u.judge f = .applies ∨ u.judge f = .mirrors) {st : Status}
    (hc : chk u f = some { st := st }) : s.serve o r e d chk run = u.finish (.host r f.fid) { st := st } := by
  unfold serve
  rw [h1]
  rcases h3 with h3 | h3 <;> simp [h2, h3, hc]

/-- M100, M200, MB and M400-P6 are bad configurations with precoding (R53, R54). -/
theorem laneConfigBad_of_precode (hpre : opBits f.e 17 0 1 = 1)
    (hm : opByte f.e 16 = 1 ∨ opByte f.e 16 = 2 ∨ opByte f.e 16 = 5 ∨ opByte f.e 16 = 6) : laneConfigBad u f := by
  have hfixed : opByte f.e 16 ≠ 0 ∧ opByte f.e 16 ≠ 3 ∧ opByte f.e 16 ≠ 4 := by omega
  obtain ⟨h0, h3, h4⟩ := hfixed
  exact .inr (.inr (.inr (.inr (.inr (.inl ⟨h0, by simp [hpre], h3, h4⟩)))))

end State

/-- Settles O37: the configuration is bad, and a command refused by its own conditions leaves the state it was fetched in. -/
theorem precodingIsRefusedWhereTheModeFixesIt : Obligations.PrecodingIsRefusedWhereTheModeFixesIt := by
  intro s u r e d f htake hstart hjudge hpre hm
  classical
  have hc : chkLaneConfig u f = some { st := .badField } :=
    (State.chkLaneConfig_eq u f).trans (if_pos (State.laneConfigBad_of_precode hpre hm))
  exact ⟨u, congrArg Host.Outcome.next (State.serve_refused_bare htake hstart hjudge hc), rfl⟩

end Sys2Proof.Machine
end

section
/-! What captures, host lanes, slice rotation and the end of ACTIVE write inside the lane blocks, and with it what a lane
that returns from ACTIVE to ACQUIRE keeps (R65, R75). -/

namespace Sys2Proof.Machine

/-! ## Places of the lane blocks -/

/-- The fields of a lane that captures, its host lanes, its output, its slices and its leaving ACTIVE write (R49, R63,
R100, R104, R112, R123, R128, R146). -/
def sideFlds : List Fld :=
  [Reg.LN.FMT_STAT.HOST_A_ALIGNED, Reg.LN.FMT_STAT.HOST_B_ALIGNED, Reg.LN.FMT_STAT.DESKEW, Reg.LN.FMT_STAT.SKEW_OVR,
    Reg.LN.TX_STAT.TX_ACTIVE, Reg.LN.CAL_STAT.PENDING, Reg.LN.CAL_STAT.SUSPECT, Reg.LN.SLICE_STAT.SWAPS,
    Reg.LN.RX_STAT.FEC_DEG, Reg.LN.RX_STAT.GAP_HIGH, Reg.LN.RX_GAP.VALID, Reg.LN.LATENCY.VALID]

/-- A place of the lane blocks (R490) that no field of `sideFlds` starts at. -/
def ownPlace (k : Nat) : Prop :=
  8 * 0x200000 ≤ k ∧ k < 8 * 0x300000 ∧ ∀ g ∈ sideFlds, g.inLane ≠ k % 131072

/-- A field that stands beyond the lane blocks or is one of `sideFlds`, as its constant shows. -/
def Fld.side (f : Fld) : Bool :=
  Nat.ble 0x300000 f.addr ||
    (f.blk != .hl && f.jstep == 0 && f.istep == 0 && Nat.blt (8 * f.addr + f.lo) (8 * 0x200000)) ||
    (f.blk != .hl && f.jstep == 0 && f.istep == 131072 && sideFlds.any fun g => g.inLane == f.inLane)

theorem Fld.side_key {f : Fld} (hf : f.side = true) {k : Nat} (hk : ownPlace k) (i j : Nat) : k ≠ f.key i j := by
  rintro rfl
  obtain ⟨hlo, hhi, hside⟩ := hk
  simp only [side, Bool.or_eq_true, Bool.and_eq_true, List.any_eq_true, bne_iff_ne, beq_iff_eq, Nat.ble_eq,
    Nat.blt_eq] at hf
  rcases hf with (hf | ⟨⟨⟨hb, hj⟩, hi⟩, ha⟩) | ⟨⟨⟨hb, hj⟩, hi⟩, g, hg, he⟩
  · unfold Fld.key at hhi
    omega
  · rw [Fld.key, if_neg hb, hi, hj] at hlo
    omega
  · refine hside g hg ?_
    rw [Fld.key, if_neg hb, hi, hj, Nat.zero_mul, Nat.add_zero, Nat.add_mul_mod_self_left]
    exact he

/-- A field of the lane blocks that is none of `sideFlds`, as its constant shows. -/
def Fld.own (g : Fld) : Bool :=
  g.blk != .hl && g.istep == 131072 && Nat.ble (8 * 0x200000) (8 * g.addr + g.lo) &&
    Nat.blt (8 * g.addr + g.lo) (8 * 0x204000) && sideFlds.all fun f => f.inLane != g.inLane

theorem Fld.own_place {g : Fld} (hg : g.own = true) {l : Nat} (hl : l < 64) : ownPlace (g.key l 0) := by
  simp only [own, Bool.and_eq_true, List.all_eq_true, bne_iff_ne, beq_iff_eq, Nat.ble_eq, Nat.blt_eq] at hg
  obtain ⟨⟨⟨⟨hb, hi⟩, hlo⟩, hhi⟩, hside⟩ := hg
  rw [Fld.key, if_neg hb, hi, Nat.mul_zero, Nat.add_zero]
  refine ⟨by omega, by omega, fun f hf => ?_⟩
  rw [Nat.add_mul_mod_self_left]
  exact hside f hf

/-! ## What leaves them alone -/

/-- From `s₀` to `s` the lane blocks read the same but for `sideFlds`. `ok` says that the last write was of such a field
or beyond the lane blocks; where the field is a constant, unification finds it to be `true`. -/
def State.Beside (s₀ s : State) (ok : Bool := true) : Prop :=
  ok = true → ∀ k d, ownPlace k → Tab.get d s.regs k = Tab.get d s₀.regs k

namespace State.Beside
variable {s₀ s t : State}

theorem refl (s : State) : Beside s s := fun _ _ _ _ => rfl

theorem trans (h : Beside s₀ s) (ht : Beside s t) : Beside s₀ t := fun _ k d hk => (ht rfl k d hk).trans (h rfl k d hk)

theorem rd (h : Beside s₀ s) {g : Fld} (hg : g.own = true) {l : Nat} (hl : l < 64) : s.rd g l = s₀.rd g l :=
  h rfl _ _ (Fld.own_place hg hl)

/-- An update of other parts of the state: one record update, whatever its fields. -/
theorem keep
    {time freeCtr out phase rings fns arb vecs vfEnable raises held doorHeld pwr cores engMap failed subst therm
     sec upd twin tests hod rx tx cal bst shots epoch host htx chk seeds retire bgFused bgHigh bgLow mortar bias
     scv dec cmis eng tapIr pending}
    (h : Beside s₀ s) :
    Beside s₀ ⟨time, pending, freeCtr, out, phase, s.regs, rings, fns, arb, vecs, vfEnable, raises, held, doorHeld,
      pwr, cores, engMap, failed, subst, therm, sec, upd, twin, tests, hod, rx, tx, cal, bst, shots, epoch,
      host, htx, chk, seeds, retire, bgFused, bgHigh, bgLow, mortar, bias, scv, dec, cmis, eng, tapIr⟩ := h

theorem ite {c : Prop} [Decidable c] (ht : Beside s₀ s) (he : Beside s₀ t) : Beside s₀ (if c then s else t) := by
  split
  · exact ht
  · exact he

theorem foldl {α : Type} {f : State → α → State} {xs : List α} (hf : ∀ {t x}, Beside s₀ t → Beside s₀ (f t x))
    (h : Beside s₀ s) : Beside s₀ (xs.foldl f s) := by
  induction xs generalizing s with
  | nil => exact h
  | cons x xs ih => exact ih (hf h)

theorem wr {f v i j} (h : Beside s₀ s) : Beside s₀ (s.wr f v i j) f.side := fun hf k d hk =>
  (get_wr_ne _ _ _ _ _ _ _ (Fld.side_key hf hk i j)).trans (h rfl k d hk)

theorem wrB {f b i j} (h : Beside s₀ s) : Beside s₀ (s.wrB f b i j) f.side := .wr h

theorem count {f n i j} (h : Beside s₀ s) : Beside s₀ (s.count f n i j) f.side := .wr h

theorem countWrap {f n i j} (h : Beside s₀ s) : Beside s₀ (s.countWrap f n i j) f.side := .wr h

theorem raise {src detail} (h : Beside s₀ s) (hs : src < 608) : Beside s₀ (s.raise src detail) := by
  intro _ k d hk
  rw [raise_regs, get_wr_ne _ _ _ _ _ _ _ (Fld.side_key (by decide) hk 0 0), get_wr_ne, h rfl k d hk]
  obtain ⟨hlo, -, -⟩ := hk
  simp only [Reg.EVT.LATCH.RAISED_key]
  omega

theorem raiseRise {before after src detail} (h : Beside s₀ s) (hs : src < 608) :
    Beside s₀ (s.raiseRise before after src detail) := .ite (.raise h hs) h

/-! ## Completions and captures (R303, R304, R346, R394 to R405) -/

theorem signal {r v} (h : Beside s₀ s) : Beside s₀ (s.signal r v) :=
  have owed {t : State} (ht : Beside s₀ t) : Beside s₀ (t.sendOwed r) :=
    .foldl (fun hu => .ite (.keep hu) (.keep hu)) (.keep ht)
  .ite h (.ite (.wr h) (.ite (owed (.keep h)) (.keep h)))

theorem writeCompletion {r f res} (h : Beside s₀ s) : Beside s₀ (s.writeCompletion r f res) :=
  .signal (.ite (.wr (.wr (.keep h))) (.wr (.keep h)))

theorem flush {r fs} (h : Beside s₀ s) : Beside s₀ (s.flush r fs) := by
  induction fs generalizing s with
  | nil => exact .keep h
  | cons f fs ih =>
    unfold State.flush
    split
    · exact ih (.writeCompletion h)
    · exact .keep h

theorem hodRewritten {w n} (h : Beside s₀ s) : Beside s₀ (s.hodRewritten w n) := by
  induction n generalizing s w with
  | zero => exact h
  | succ n ih => exact ih (.keep h)

theorem finish {o res} (h : Beside s₀ s) : Beside s₀ (s.finish o res) := by
  unfold State.finish
  split
  · extract_lets
    split
    · exact h
    · extract_lets _ s1
      have h1 : Beside s₀ s1 := by
        unfold s1
        split
        · exact .hodRewritten (.keep h)
        · exact h
      exact .flush h1
  · exact .keep (.ite (.wr (.keep (.ite (.hodRewritten (.keep h)) h))) (.keep (.ite (.hodRewritten (.keep h)) h)))
  · exact h
  · exact h

theorem fieldRepair {sub col which} (h : Beside s₀ s) : Beside s₀ (s.fieldRepair sub col which) :=
  have saved {t : State} (ht : Beside s₀ t) : Beside s₀ t.saveOverlay := .ite (.wr (.keep ht)) (.wr (.keep ht))
  .ite h (.ite (.raiseRise (.wr h) (by omega)) (saved (.raise (.wr (.keep h)) (by omega))))

theorem setHodWord {w x} (h : Beside s₀ s) : Beside s₀ (s.setHodWord w x) := .wr (.keep h)

theorem hodUncorr {w src quiet} (h : Beside s₀ s) : Beside s₀ (s.hodUncorr w src quiet) :=
  .ite (.wr (.wr (.wr (.count h)))) (.raise (.wr (.wr (.wr (.count h)))) (by omega))

theorem readUncorr {w src v quiet} (h : Beside s₀ s) : Beside s₀ (s.readUncorr w src v quiet) :=
  .setHodWord (.fieldRepair (.hodUncorr h))

theorem readCorr {w bit scrub} (h : Beside s₀ s) : Beside s₀ (s.readCorr w bit scrub) := by
  unfold State.readCorr
  extract_lets _ _ _ _ _ _ _ _ _ _ _ s3
  have h3 : Beside s₀ s3 := .ite (.fieldRepair (.keep (.count h))) (.keep (.count h))
  exact .ite (.fieldRepair h3) h3

theorem hodWriteWord {w at_ new ecc} (h : Beside s₀ s) : Beside s₀ (s.hodWriteWord w at_ new ecc) := by
  unfold State.hodWriteWord
  split
  · exact .setHodWord h
  · split
    · exact .setHodWord h
    · extract_lets bank put
      have hput {t v bad} (ht : Beside s₀ t) : Beside s₀ (put t v bad) := .setHodWord ht
      split
      · split
        · exact hput (.hodUncorr (.keep h))
        · split
          · exact hput (.readUncorr (.keep h))
          · exact hput (.ite (.count (.keep h)) (.keep h))
      · split
        · exact hput (.hodUncorr h)
        · split
          · exact hput h
          · split
            · exact hput (.readCorr h)
            · exact hput (.readUncorr (.keep h))

theorem hodWrite {ecc fuel ofs bs} (h : Beside s₀ s) : Beside s₀ (s.hodWrite ecc fuel ofs bs) := by
  induction fuel generalizing s ofs bs with
  | zero => exact h
  | succ n ih =>
    cases bs with
    | nil => exact h
    | cons b bs => exact ih (.hodWriteWord h)

theorem storeRows {rs bs} (h : Beside s₀ s) : Beside s₀ (s.storeRows rs bs) := by
  induction rs generalizing s bs with
  | nil => exact h
  | cons r rs ih =>
    cases bs with
    | nil => exact h
    | cons b bs => exact ih (.hodWrite h)

theorem stopCapture {n} (h : Beside s₀ s) : Beside s₀ (s.stopCapture n) := by
  unfold State.stopCapture
  split
  · exact h
  · exact .ite (.finish (.keep h)) (.finish (.storeRows (.keep (.keep (.keep h)))))

/-! ## Host lanes and the output (R49, R146, R218 to R228) -/

theorem hostUnaligned {k} (h : Beside s₀ s) : Beside s₀ (s.hostUnaligned k) := by
  unfold State.hostUnaligned
  extract_lets f
  refine .ite (.wr (.wr ?_)) h
  unfold f
  split
  · exact .wr h
  · exact .wr h

theorem refreshSig {k} (h : Beside s₀ s) : Beside s₀ (s.refreshSig k) :=
  .ite h (.raiseRise (.wr (.wrB (.ite h (.hostUnaligned h)))) (by omega))

theorem startTraining {k} (h : Beside s₀ s) : Beside s₀ (s.startTraining k) :=
  .refreshSig (.hostUnaligned (.wr (.wr (.wr (.wr (.keep h))))))

theorem enterData {k trained} (h : Beside s₀ s) : Beside s₀ (s.enterData k trained) :=
  .refreshSig (.ite (.keep (.wr h)) (.wr (.wr (.keep (.wr h)))))

theorem refreshHost {k} (h : Beside s₀ s) : Beside s₀ (s.refreshHost k) := by
  unfold State.refreshHost
  extract_lets _ _ _ _ s3 _ s1
  have h3 : Beside s₀ s3 := .ite (.wr (.wr (.keep h))) (.wr (.keep h))
  have h1 : Beside s₀ s1 := by
    refine .ite ?_ ?_
    · exact .ite (.wr h) (.ite (.startTraining h) (.ite h (.enterData h)))
    · exact .refreshSig (.ite (.wr (.hostUnaligned (.wr h3))) (.hostUnaligned (.wr h3)))
  exact .ite h1 (.keep (.wr (.wr (.wr (.wr h1)))))

theorem txCheck {n} (h : Beside s₀ s) : Beside s₀ (s.txCheck n) := .ite h (.wr h)

/-! ## Slices and groups (R111 to R128) -/

theorem abandonGroup {n} (h : Beside s₀ s) : Beside s₀ (s.abandonGroup n) := by
  refine .ite h ?_
  unfold State.cutGroup
  split
  · exact h
  · exact .wr (.keep h)

theorem abandonCal {n} (h : Beside s₀ s) : Beside s₀ (s.abandonCal n) := by
  unfold State.abandonCal
  split
  · exact .keep h
  · exact h

theorem abandonShadow {n} (h : Beside s₀ s) : Beside s₀ (s.abandonShadow n) := by
  unfold State.abandonShadow
  split
  · exact .keep h
  · exact h

theorem startCal {n} (h : Beside s₀ s) : Beside s₀ (s.startCal n) := by
  unfold State.startCal
  refine .ite ?_ ?_
  · split
    · exact .ite (.keep h) (.keep h)
    · exact h
  · exact h

theorem sliceSwap {n i} (hn : n < 64) (h : Beside s₀ s) : Beside s₀ (s.sliceSwap n i) := by
  unfold State.sliceSwap
  extract_lets _ s1
  have h1 : Beside s₀ s1 := by
    unfold s1
    split
    · exact .keep h
    · exact h
  exact .raiseRise (.wr (.countWrap (.keep h1))) (by unfold laneSrc; omega)

theorem slicesSettle {n} (hn : n < 64) (h : Beside s₀ s) : Beside s₀ (s.slicesSettle n) := by
  have h1 : Beside s₀ (s.swapIfDue n) := by
    unfold State.swapIfDue
    refine .ite ?_ ?_
    · split
      · exact .sliceSwap hn h
      · exact .keep h
    · exact h
  have h2 : Beside s₀ (if (s.swapIfDue n).calAllowed n then s.swapIfDue n else (s.swapIfDue n).abandonCal n) :=
    .ite h1 (.abandonCal h1)
  exact .ite (.startCal (.ite h2 (.abandonShadow h2))) h

end State.Beside

/-! ## A lane returns from ACTIVE to ACQUIRE (R65, R75) -/

namespace State
variable {s : State} {n : Nat}

/-- The lane's state aside, only `sideFlds` and places beyond the lane blocks change. -/
theorem setLane_acquire (hn : n < 64) (h3 : s.lane n = 3) :
    ∃ t, Beside s t ∧ Beside (t.wr Reg.LN.RX_STAT.LANE_STATE 2 n) (s.setLane n 2) := by
  unfold setLane
  extract_lets old s1 s2 s3 s4 _ s5 s6 s7 s8
  have h1 : Beside s s1 := .ite (.refl s) (.stopCapture (.refl s))
  have h2 : Beside s s2 := .ite (.keep (.wr (.wr (.wr (.wr (.keep h1)))))) h1
  have h4 : s4 = s2 := (if_neg (by simp [old, h3])).trans (if_neg (by simp [old, h3]))
  have h5 : Beside (s2.wr Reg.LN.RX_STAT.LANE_STATE 2 n) s5 := by
    unfold s5
    rw [h4]
    exact .keep (.refl _)
  have h8 : s8 = s5 := (if_neg (by decide)).trans ((if_neg (by decide)).trans (if_pos rfl))
  rw [h8]
  exact ⟨s2, h2, .slicesSettle hn (.abandonGroup (.txCheck (.refreshHost (.refreshHost h5))))⟩

/-- A field that neither the move nor what follows from it writes reads the same. -/
theorem setLane_acquire_rd (hn : n < 64) (h3 : s.lane n = 3) {g : Fld} (hg : g.own = true)
    (hne : g.key n 0 ≠ Reg.LN.RX_STAT.LANE_STATE.key n 0) : (s.setLane n 2).rd g n = s.rd g n := by
  obtain ⟨t, ht, hs⟩ := setLane_acquire hn h3
  rw [hs.rd hg hn, rd_wr_ne _ _ _ _ _ _ _ _ hne, ht.rd hg hn]

theorem enterAcquire_regs (s : State) (n step : Nat) : (s.enterAcquire n step).regs =
    (((s.setLane n 2).wr Reg.LN.RX_STAT.ACQ_STEP (if (s.setLane n 2).los n then min step 2 else step) n).wr
      Reg.LN.CONST_ADV.REC 3 n).regs := by
  unfold enterAcquire
  generalize s.setLane n 2 = t
  rfl

theorem enterAcquire_rd (hn : n < 64) (h3 : s.lane n = 3) {step : Nat} {g : Fld} (hg : g.own = true)
    (hne : ∀ f ∈ [Reg.LN.RX_STAT.LANE_STATE, Reg.LN.RX_STAT.ACQ_STEP, Reg.LN.CONST_ADV.REC], g.key n 0 ≠ f.key n 0) :
    (s.enterAcquire n step).rd g n = s.rd g n := by
  simp only [List.mem_cons, List.not_mem_nil, or_false, forall_eq_or_imp, forall_eq] at hne
  obtain ⟨hlane, hstep, hrec⟩ := hne
  rw [rd_congr _ _ (enterAcquire_regs s n step), rd_wr_ne _ _ _ _ _ _ _ _ hrec, rd_wr_ne _ _ _ _ _ _ _ _ hstep,
    setLane_acquire_rd hn h3 hg hlane]

/-- With a signal the lane enters at the step named. -/
theorem enterAcquire_step (hn : n < 64) (h3 : s.lane n = 3) (hlos : s.los n = false) {step : Nat} (hstep : step < 16) :
    (s.enterAcquire n step).rd Reg.LN.RX_STAT.ACQ_STEP n = step := by
  have hl : (s.setLane n 2).los n = false := by
    unfold los flag at hlos ⊢
    rwa [setLane_acquire_rd hn h3 (by decide) (by simp)]
  rw [rd_congr _ _ (enterAcquire_regs s n step), rd_wr_ne _ _ _ _ _ _ _ _ (by simp), rd_wr_same, hl]
  exact Nat.mod_eq_of_lt hstep

theorem enterAcquire_lane (hn : n < 64) (step : Nat) : (s.enterAcquire n step).lane n = 2 :=
  (Enters.enterAcquire (.refl _ hn)).lane

end State

end Sys2Proof.Machine
end

section
/-! Alignment of a lane (R40 to R43): what a candidate position comes to. -/

namespace Sys2Proof.Machine

/-! ## Registers and the receive half of a lane -/

namespace State
variable (s : State)

@[simp] theorem setRx_rd (n : Nat) (x : RxX) (f : Fld) (i j : Nat) : (s.setRx n x).rd f i j = s.rd f i j := rfl

@[simp] theorem wr_rxOf (f : Fld) (v i j n : Nat) : (s.wr f v i j).rxOf n = s.rxOf n := rfl

theorem flag_eq_false {f : Fld} {i j : Nat} (h : s.rd f i j = 0) : s.flag f i j = false := by
  rw [flag, h]
  rfl

theorem flag_eq_true {f : Fld} {i j : Nat} (h : s.rd f i j = 1) : s.flag f i j = true := by
  rw [flag, h]
  rfl

/-- No far loop runs: decided bits go nowhere else (R155). -/
theorem farPush_off {n : Nat} (h : s.rd Reg.LN.PRBS_CTRL.LOOP n ≠ 2) (bits : List Bool) : s.farPush n bits = s :=
  if_pos h

/-! ## Frame lock is lost (R67, R74) -/

/-- The fields the loss of frame lock writes beside `sideFlds`. -/
def frameFlds : List Fld :=
  [Reg.LN.RX_STAT.FRAME_LOCK, Reg.LN.FMT_STAT.OCM_LOCK, Reg.LN.RX_STAT.LANE_STATE, Reg.LN.RX_STAT.ACQ_STEP,
    Reg.LN.CONST_ADV.REC]

/-- What the loss writes before an ACTIVE lane returns to ACQUIRE. -/
def lockDropped (n : Nat) : State :=
  let s0 := (s.wr Reg.LN.RX_STAT.FRAME_LOCK 0 n).wr Reg.LN.FMT_STAT.OCM_LOCK 0 n
  if s.lane n = 2 ∧ s.rd Reg.LN.RX_STAT.ACQ_STEP n = 9 then s0.wr Reg.LN.RX_STAT.ACQ_STEP 8 n else s0

variable {s} {n : Nat}

theorem frameLockLost_regs : (s.frameLockLost n).regs =
    if s.lane n = 3 then ((s.lockDropped n).enterAcquire n 8).regs else (s.lockDropped n).regs := by
  unfold frameLockLost lockDropped
  extract_lets s0 s1 s2
  split
  · exact setRx_regs s2 n _
  · rfl

theorem lockDropped_rd {g : Fld} (hne : ∀ f ∈ frameFlds, g.key n 0 ≠ f.key n 0) :
    (s.lockDropped n).rd g n = s.rd g n := by
  simp only [frameFlds, List.mem_cons, List.not_mem_nil, or_false, forall_eq_or_imp, forall_eq] at hne
  obtain ⟨hframe, hocm, -, hstep, -⟩ := hne
  have h0 : ((s.wr Reg.LN.RX_STAT.FRAME_LOCK 0 n).wr Reg.LN.FMT_STAT.OCM_LOCK 0 n).rd g n = s.rd g n := by
    rw [rd_wr_ne _ _ _ _ _ _ _ _ hocm, rd_wr_ne _ _ _ _ _ _ _ _ hframe]
  unfold lockDropped
  extract_lets s0
  split
  · rw [rd_wr_ne _ _ _ _ _ _ _ _ hstep, h0]
  · exact h0

theorem lockDropped_lane : (s.lockDropped n).lane n = s.lane n := by
  unfold lockDropped lane
  split
  · simp [rd_wr_ne]
  · simp [rd_wr_ne]

theorem lockDropped_lock : (s.lockDropped n).rd Reg.LN.RX_STAT.FRAME_LOCK n = 0 := by
  unfold lockDropped
  split
  · simp [rd_wr_ne]
  · simp [rd_wr_ne]

theorem frameLockLost_rd (hn : n < 64) {g : Fld} (hg : g.own = true)
    (hne : ∀ f ∈ frameFlds, g.key n 0 ≠ f.key n 0) : (s.frameLockLost n).rd g n = s.rd g n := by
  refine Eq.trans ?_ (lockDropped_rd hne)
  by_cases h3 : s.lane n = 3
  · rw [rd_congr _ _ (frameLockLost_regs.trans (if_pos h3))]
    exact enterAcquire_rd hn (lockDropped_lane.trans h3) hg fun f hf => hne f (.tail _ (.tail _ hf))
  · exact rd_congr _ _ (frameLockLost_regs.trans (if_neg h3)) ..

theorem frameLockLost_lock (hn : n < 64) : (s.frameLockLost n).rd Reg.LN.RX_STAT.FRAME_LOCK n = 0 := by
  refine Eq.trans ?_ (lockDropped_lock (s := s) (n := n))
  by_cases h3 : s.lane n = 3
  · rw [rd_congr _ _ (frameLockLost_regs.trans (if_pos h3))]
    exact enterAcquire_rd hn (lockDropped_lane.trans h3) (by decide) (by simp)
  · exact rd_congr _ _ (frameLockLost_regs.trans (if_neg h3)) ..

theorem frameLockLost_lane (hn : n < 64) (h3 : s.lane n = 3) : (s.frameLockLost n).lane n = 2 :=
  (rd_congr _ _ (frameLockLost_regs.trans (if_pos h3)) ..).trans (enterAcquire_lane hn 8)

/-! ## A candidate position (R41, R42) -/

/-- Four expected positions without a match (R41). -/
theorem alignmentLost_reads (hn : n < 64) :
    (s.alignmentLost n).flag Reg.LN.FMT_STAT.ALIGNED n = false ∧
      (s.alignmentLost n).flag Reg.LN.RX_STAT.FRAME_LOCK n = false ∧
      (s.alignmentLost n).rd Reg.LN.APB_CNT.ALIGN_LOSS n = min (s.rd Reg.LN.APB_CNT.ALIGN_LOSS n + 1) 255 ∧
      (s.lane n = 3 → (s.alignmentLost n).lane n = 2) := by
  unfold alignmentLost
  extract_lets s1
  have hloss : s1.rd Reg.LN.APB_CNT.ALIGN_LOSS n = min (s.rd Reg.LN.APB_CNT.ALIGN_LOSS n + 1) 255 :=
    (count_rd ..).trans (by simp [rd_wr_ne])
  have haligned : s1.rd Reg.LN.FMT_STAT.ALIGNED n = 0 := by simp [s1, count, rd_wr_ne]
  have hlane : s1.lane n = s.lane n := by simp [s1, count, lane, rd_wr_ne]
  refine ⟨flag_eq_false _ ?_, flag_eq_false _ (frameLockLost_lock hn), ?_, fun h3 => frameLockLost_lane hn ?_⟩
  · exact (frameLockLost_rd hn (by decide) (by simp [frameFlds])).trans haligned
  · exact (frameLockLost_rd hn (by decide) (by simp [frameFlds])).trans hloss
  · exact hlane.trans h3

variable (s n)

/-- The fields of a correct APB (R40, R42). -/
theorem apbFields_far (bits : Nat) :
    (s.apbFields n bits).rd Reg.LN.FMT_STAT.FAR_LANE n = apbField bits 80 8 % 64 ∧
      (s.apbFields n bits).rd Reg.LN.FMT_STAT.FAR_CONST n = apbField bits 80 8 / 64 ∧
      (s.apbFields n bits).rd Reg.LN.FMT_STAT.FAR_DEGRADE n = apbField bits 88 8 / 2 % 2 := by
  have htag : apbField bits 80 8 < 2 ^ 8 := Nat.mod_lt _ (Nat.two_pow_pos 8)
  have hconst : apbField bits 80 8 / 64 < 4 := by omega
  simp only [apbFields, setRx_rd]
  refine ⟨?_, ?_, ?_⟩
  · simp [rd_wr_ne]
  · simpa [rd_wr_ne] using hconst
  · simp [rd_wr_ne]

theorem apbFields_rx (bits : Nat) :
    (s.apbFields n bits).rxOf n = { s.rxOf n with fcount := apbField bits 64 16 } := by
  simp only [apbFields, rxOf_setRx_same, wr_rxOf]

/-- A field that is none of those an APB carries reads as before. -/
theorem apbFields_rd (bits : Nat) {g : Fld} (hne : ∀ f ∈ [Reg.LN.FMT_STAT.FAR_LANE, Reg.LN.FMT_STAT.FAR_CONST,
      Reg.LN.FMT_STAT.FAR_RDI, Reg.LN.FMT_STAT.FAR_DEGRADE, Reg.LN.FMT_STAT.FAR_SRC_FAULT, Reg.LN.FMT_STAT.SF_PHASE],
      g.key n 0 ≠ f.key n 0) : (s.apbFields n bits).rd g n = s.rd g n := by
  simp only [List.mem_cons, List.not_mem_nil, or_false, forall_eq_or_imp, forall_eq] at hne
  obtain ⟨hlane, hconst, hrdi, hdeg, hsrc, hphase⟩ := hne
  unfold apbFields
  extract_lets fc tag far s1 s2
  rw [setRx_rd, rd_wr_ne _ _ _ _ _ _ _ _ hphase, rd_wr_ne _ _ _ _ _ _ _ _ hsrc, rd_wr_ne _ _ _ _ _ _ _ _ hdeg,
    rd_wr_ne _ _ _ _ _ _ _ _ hrdi, rd_wr_ne _ _ _ _ _ _ _ _ hconst, rd_wr_ne _ _ _ _ _ _ _ _ hlane]

theorem apbFields_noRaise (bits : Nat) : NoRaise s (s.apbFields n bits) := by
  simp [NoRaise, apbFields]

/-- What 256 line bits at an expected position come to on an aligned lane. -/
theorem apbSeen_aligned (bits : Nat) (h : s.flag Reg.LN.FMT_STAT.ALIGNED n = true) : s.apbSeen n bits true =
    if am0Match bits then
      if apbCrcOk bits then (s.setRx n { s.rxOf n with amMiss := 0 }).apbFields n bits
      else (s.setRx n { s.rxOf n with amMiss := 0 }).count Reg.LN.APB_CNT.CRC_ERR 1 n
    else if 4 ≤ (s.rxOf n).amMiss + 1 then s.alignmentLost n
    else s.setRx n { s.rxOf n with amMiss := (s.rxOf n).amMiss + 1 } := by
  simp [apbSeen, h]

/-- A lane that searches and takes a match into its run, the fields of a correct one with it. -/
def apbTaken (bits : Nat) : State :=
  let s1 := s.setRx n { s.rxOf n with amRun := apbCrcOk bits :: (s.rxOf n).amRun.take 2, searchFrames := 0 }
  if apbCrcOk bits then s1.apbFields n bits else s1

theorem apbSeen_searching {bits : Nat} (h : s.flag Reg.LN.FMT_STAT.ALIGNED n = false) (hm : am0Match bits = true) :
    s.apbSeen n bits true =
      if 3 ≤ (apbCrcOk bits :: (s.rxOf n).amRun.take 2).length ∧
          (apbCrcOk bits :: (s.rxOf n).amRun.take 2).any (fun b => b) then (s.apbTaken n bits).declareAligned n
      else s.apbTaken n bits := by
  simp [apbSeen, apbTaken, h, hm]

theorem apbTaken_reads (bits : Nat) :
    (s.apbTaken n bits).rd Reg.LN.FMT_STAT.ALIGNED n = s.rd Reg.LN.FMT_STAT.ALIGNED n ∧
      (s.apbTaken n bits).lane n = s.lane n ∧
      ((s.apbTaken n bits).rxOf n).amRun = apbCrcOk bits :: (s.rxOf n).amRun.take 2 := by
  unfold apbTaken
  extract_lets run s1
  split
  · exact ⟨s1.apbFields_rd n bits (by simp), s1.apbFields_rd n bits (by simp), by simp [apbFields_rx, s1, run]⟩
  · exact ⟨rfl, rfl, by simp [s1, run]⟩

theorem declareAligned_reads : (s.declareAligned n).flag Reg.LN.FMT_STAT.ALIGNED n = true ∧
    (s.declareAligned n).flag Reg.LN.RX_STAT.FRAME_LOCK n = true ∧ (s.declareAligned n).lane n = s.lane n := by
  refine ⟨flag_eq_true _ ?_, flag_eq_true _ ?_, ?_⟩
  · simp [declareAligned, rd_wr_ne]
  · simp [declareAligned]
  · simp [declareAligned, lane, rd_wr_ne]

end State

/-- The bits at a candidate position are judged where the lane searches or holds its alignment (R41). -/
theorem apbReceived_next {n : LaneNo} (syms : List RxSym) {at_ : ApbAt} {s : State} (hm : s.mode n = 4 ∨ s.mode n = 5)
    (hl : s.lane n = 2 ∨ s.lane n = 3 ∨ s.lane n = 5) (he : at_.expected = true)
    (hp : s.rd Reg.LN.PRBS_CTRL.LOOP n ≠ 2) : exec (.apbReceived n syms at_) s =
      .next (s.apbSeen n (bitsNat (((s.lineBits n syms).drop at_.ofs).take 256)) true) := by
  have hiso : isyon (s.mode n) = true := by
    rcases hm with hm | hm <;> simp [isyon, hm]
  have hrecv : (!isyon (s.mode n) || s.lane n != 2 && s.lane n != 3 && s.lane n != 5) = false := by
    rcases hl with hl | hl | hl <;> simp [hiso, hl]
  refine congrArg Host.Outcome.next ((if_neg (by simp [hrecv])).trans ?_)
  rw [State.farPush_off _ hp, ite_self, he]

end Sys2Proof.Machine
end

section
/-! Codewords of a stretcher bond (R45 to R48, R101) and the counts of the outer-code monitor (R60, R61). -/

namespace Sys2Proof.Machine

/-! ## Datapath counters (R385) -/

/-- The datapath counters stand beyond the lane blocks. -/
theorem dpKeys_ge : ∀ k ∈ dpKeys, 8 * 0x390400 ≤ k := by
  intro k hk
  rcases List.mem_append.mp hk with hk | hk
  · obtain ⟨i, -, rfl⟩ := List.mem_map.mp hk
    simp only [Reg.PMC.DP_CNT.COUNT_key]
    omega
  · obtain ⟨i, -, rfl⟩ := List.mem_map.mp hk
    simp only [Reg.PMC.DP_SEL.OVF_key]
    omega

theorem count_mem_dpKeys {i : Nat} (hi : i < 32) : Reg.PMC.DP_CNT.COUNT.key i 0 ∈ dpKeys :=
  List.mem_append_left _ (List.mem_map.mpr ⟨i, List.mem_range.mpr hi, rfl⟩)

theorem ovf_mem_dpKeys {i : Nat} (hi : i < 32) : Reg.PMC.DP_SEL.OVF.key i 0 ∈ dpKeys :=
  List.mem_append_right _ (List.mem_map.mpr ⟨i, List.mem_range.mpr hi, rfl⟩)

namespace OnlyRegs
variable {s t : State}

theorem dpAdd (h : OnlyRegs s t dpKeys) {i : Nat} (hi : i < 32) (n : Nat) : OnlyRegs s (t.dpAdd i n) dpKeys := by
  unfold State.dpAdd
  extract_lets x s1 s2 u
  have h1 : OnlyRegs s s1 dpKeys := h.wr (count_mem_dpKeys hi)
  have h2 : OnlyRegs s s2 dpKeys := h1.wr (ovf_mem_dpKeys hi)
  split
  · exact h1
  · split
    · next hc =>
      have hi' : i + 1 < 32 := by omega
      exact (h2.wr (count_mem_dpKeys hi')).wr (ovf_mem_dpKeys hi')
    · exact h2

/-- Counting datapath events changes their counters alone. -/
theorem dpCount (h : OnlyRegs s t dpKeys) (code inst n : Nat) : OnlyRegs s (t.dpCount code inst n) dpKeys := by
  unfold State.dpCount
  split
  · exact h
  · refine List.foldlRecOn (motive := fun u => OnlyRegs s u dpKeys) _ _ h fun u hu i hi => ?_
    split
    · exact hu.dpAdd (List.mem_range.mp hi) n
    · exact hu

end OnlyRegs

namespace State
variable (s : State)

theorem dpCount_only (code inst n : Nat) : OnlyRegs s (s.dpCount code inst n) dpKeys :=
  OnlyRegs.dpCount (.of_regs rfl) code inst n

/-- A register below the datapath counters reads as before. -/
theorem dpCount_rd (code inst n : Nat) {f : Fld} {i j : Nat} (hf : f.key i j < 8 * 0x390400) :
    (s.dpCount code inst n).rd f i j = s.rd f i j := by
  obtain ⟨-, h⟩ := s.dpCount_only code inst n
  exact h _ _ fun hk => absurd (dpKeys_ge _ hk) (by omega)

@[simp] theorem dpCount_out (code inst n : Nat) : (s.dpCount code inst n).out = s.out := by
  rw [(s.dpCount_only code inst n).1]

@[simp] theorem dpCount_rxOf (code inst n k : Nat) : (s.dpCount code inst n).rxOf k = s.rxOf k := by
  rw [(s.dpCount_only code inst n).1]
  rfl

/-! ## The counters of the inner decoder (R101) -/

variable {s} {n : Nat}

theorem countCodeword_out (c : Option Nat) : (s.countCodeword n c).out = s.out := by
  unfold countCodeword
  cases c <;> simp [count]

theorem countCodeword_rxOf (c : Option Nat) : (s.countCodeword n c).rxOf n = s.rxOf n := by
  unfold countCodeword
  cases c <;> simp [count]

/-- Every codeword is counted; the other two counts follow its outcome. -/
theorem countCodeword_reads (hn : n < 64) (c : Option Nat) :
    (s.countCodeword n c).rd Reg.LN.DEC_CW.COUNT n = min (s.rd Reg.LN.DEC_CW.COUNT n + 1) (2 ^ 64 - 1) ∧
      (s.countCodeword n c).rd Reg.LN.DEC_CORR.COUNT n = (match c with
        | some k => min (s.rd Reg.LN.DEC_CORR.COUNT n + k) (2 ^ 64 - 1)
        | none => s.rd Reg.LN.DEC_CORR.COUNT n) ∧
      (s.countCodeword n c).rd Reg.LN.DEC_UNCORR.COUNT n = (match c with
        | some _ => s.rd Reg.LN.DEC_UNCORR.COUNT n
        | none => min (s.rd Reg.LN.DEC_UNCORR.COUNT n + 1) (2 ^ 64 - 1)) := by
  unfold countCodeword
  extract_lets s1
  have hcw : s1.rd Reg.LN.DEC_CW.COUNT n = min (s.rd Reg.LN.DEC_CW.COUNT n + 1) (2 ^ 64 - 1) :=
    (dpCount_rd _ _ _ _ (by simp; omega)).trans (count_rd ..)
  have hcorr : s1.rd Reg.LN.DEC_CORR.COUNT n = s.rd Reg.LN.DEC_CORR.COUNT n :=
    (dpCount_rd _ _ _ _ (by simp; omega)).trans (rd_wr_ne _ _ _ _ _ _ _ _ (by simp))
  have huncorr : s1.rd Reg.LN.DEC_UNCORR.COUNT n = s.rd Reg.LN.DEC_UNCORR.COUNT n :=
    (dpCount_rd _ _ _ _ (by simp; omega)).trans (rd_wr_ne _ _ _ _ _ _ _ _ (by simp))
  cases c with
  | some k =>
    refine ⟨(rd_wr_ne _ _ _ _ _ _ _ _ (by simp)).trans hcw, (count_rd ..).trans ?_,
      (rd_wr_ne _ _ _ _ _ _ _ _ (by simp)).trans huncorr⟩
    rw [hcorr]
    rfl
  | none =>
    refine ⟨(rd_wr_ne _ _ _ _ _ _ _ _ (by simp)).trans hcw, (rd_wr_ne _ _ _ _ _ _ _ _ (by simp)).trans hcorr,
      (count_rd ..).trans ?_⟩
    rw [huncorr]
    rfl

theorem countCodeword_mode (hn : n < 64) (c : Option Nat) : (s.countCodeword n c).mode n = s.mode n := by
  unfold countCodeword mode
  extract_lets s1
  have h1 : s1.rd Reg.LN.FMT_CFG.MODE n = s.rd Reg.LN.FMT_CFG.MODE n :=
    (dpCount_rd _ _ _ _ (by simp; omega)).trans (rd_wr_ne _ _ _ _ _ _ _ _ (by simp))
  cases c with
  | some k => exact (rd_wr_ne _ _ _ _ _ _ _ _ (by simp)).trans h1
  | none => exact (rd_wr_ne _ _ _ _ _ _ _ _ (by simp)).trans h1

/-! ## What is decoded of a codeword of a stretcher bond (R45 to R48) -/

/-- While fewer than three codewords of a bobbin are there, a further one joins them. -/
theorem deliverInfo_gathers (hm : s.mode n = 4) (hb : (s.rxOf n).bobbin.length < 3) (info : Nat) :
    s.deliverInfo n info = s.setRx n { s.rxOf n with bobbin := (s.rxOf n).bobbin ++ [info] } := by
  have hiso : isyon (s.mode n) = true := by simp [isyon, hm]
  unfold deliverInfo
  rw [if_pos hiso, if_pos (by simpa using Nat.succ_lt_succ hb)]

/-- Outside MB no burst counts the codeword. -/
theorem burstCodeword_off (hm : s.mode n = 4) (c : Option Nat) : s.burstCodeword n c = s :=
  if_pos (.inl (by simp [hm]))

theorem decodes_active (hl : s.lane n = 3) (hf : s.flag Reg.LN.RX_STAT.FRAME_LOCK n = true) (hm : s.mode n = 4) :
    s.decodes n = true := by
  simp [decodes, hl, hf, hm]

end State

section
variable {n : LaneNo} {llr : List Int} {std : Option Nat} {s : State}

/-- With the decoder bypassed the hard decisions are delivered (R47). -/
theorem codewordDecode_bypass (hd : s.decodes n = true) (hm : s.mode n = 4) (hp : s.rd Reg.LN.PRBS_CTRL.LOOP n ≠ 2)
    (hb : s.flag Reg.LN.FMT_CFG.INNER_BYPASS n = true) : exec (.codewordDecode n llr std) s =
      .next (s.freed.deliverInfo n (hardWord (llr.take 256) s.free / 65536)) := by
  have hfar (bits : List Bool) : s.freed.farPush n bits = s.freed := State.farPush_off s.freed hp bits
  refine congrArg Host.Outcome.next ?_
  simp [hd, hm, m200, hb, hfar]

/-- A decoded codeword is counted by its outcome, and its information bits join the bobbin, or those of its hard decisions
where there is none (R45, R46). -/
theorem codewordDecode_counts (hd : s.decodes n = true) (hm : s.mode n = 4) (hp : s.rd Reg.LN.PRBS_CTRL.LOOP n ≠ 2)
    (hb : s.flag Reg.LN.FMT_CFG.INNER_BYPASS n = false) (hg : (s.rxOf n).bobbin.length < 3) {hard : Nat}
    (hh : hard = hardWord (llr.take 256) s.free) {c : Option Nat}
    (hc : c = chaseDecode ((llr.map (softValue (s.rd Reg.LN.MLSE_CTRL.SOFT_SCALE n))).take 256) hard (s.chaseL n)) :
    exec (.codewordDecode n llr std) s =
      .next (((s.freed.dpCount 6 n (2 ^ s.chaseL n)).countCodeword n (c.map (wordDistance · hard))).setRx n
        { s.rxOf n with bobbin := (s.rxOf n).bobbin ++ [c.getD hard / 65536] }) := by
  have hfar (bits : List Bool) : s.freed.farPush n bits = s.freed := State.farPush_off s.freed hp bits
  have hmode (k : Option Nat) : ((s.freed.dpCount 6 n (2 ^ s.chaseL n)).countCodeword n k).mode n = 4 :=
    (State.countCodeword_mode n.isLt k).trans ((State.dpCount_rd _ _ _ _ (by simp; omega)).trans hm)
  have hrx (k : Option Nat) : ((s.freed.dpCount 6 n (2 ^ s.chaseL n)).countCodeword n k).rxOf n = s.rxOf n :=
    (State.countCodeword_rxOf k).trans (State.dpCount_rxOf ..)
  have hdel (k : Option Nat) (info : Nat) :
      (((s.freed.dpCount 6 n (2 ^ s.chaseL n)).countCodeword n k).burstCodeword n k).deliverInfo n info =
        ((s.freed.dpCount 6 n (2 ^ s.chaseL n)).countCodeword n k).setRx n
          { s.rxOf n with bobbin := (s.rxOf n).bobbin ++ [info] } := by
    rw [State.burstCodeword_off (hmode k), State.deliverInfo_gathers (hmode k) (by rwa [hrx]), hrx]
  refine congrArg Host.Outcome.next ?_
  simp only [hd, hm, m200, hb, hfar, ← hh, ← hc]
  cases c with
  | some c => simp [hdel]
  | none => simp [hdel]

end

/-! ## The outer-code monitor (R60, R61) -/

namespace State
variable (s : State) (n : Nat)

/-- A register write from PF0 to a lane block that answers is carried out (R423, R492). -/
theorem regAccess_lane {f : Fld} (hb : f.blk = .ln) (hc : s.coreOn = true) (hd : s.courseD (courseOf n) = true)
    (ht : s.laneInTest n = false) (j : Nat) (wr : Bool) (k : State → State) :
    s.regAccess f n j wr k = k (s.setShadow 0 none) := by
  have hon : s.fieldOn f n = true := by
    unfold fieldOn
    rw [hb]
    simp [hd, ht]
  simp [regAccess, hc, hon]

theorem ocmAdd_reads (c : List Nat) :
    (s.ocmAdd n c).rd Reg.LN.OCM_CW.COUNT n = (s.rd Reg.LN.OCM_CW.COUNT n + c.getD 0 0) % 2 ^ 64 ∧
      (s.ocmAdd n c).rd Reg.LN.OCM_SYM.COUNT n = (s.rd Reg.LN.OCM_SYM.COUNT n + c.getD 1 0) % 2 ^ 64 ∧
      (s.ocmAdd n c).rd Reg.LN.OCM_UNCORR.COUNT n = (s.rd Reg.LN.OCM_UNCORR.COUNT n + c.getD 2 0) % 2 ^ 64 ∧
      (s.ocmAdd n c).rd Reg.LN.OCM_CTRL.FREEZE n = s.rd Reg.LN.OCM_CTRL.FREEZE n := by
  simp [ocmAdd, countWrap, count, rd_wr_ne]

theorem ocmZero_reads : (s.ocmZero n).rd Reg.LN.OCM_CW.COUNT n = 0 ∧ (s.ocmZero n).rd Reg.LN.OCM_SYM.COUNT n = 0 ∧
    (s.ocmZero n).rd Reg.LN.OCM_UNCORR.COUNT n = 0 ∧ (s.ocmZero n).rd Reg.LN.OCM_HIST.BIN_1_3 n = 0 ∧
    (s.ocmZero n).rd Reg.LN.OCM_HIST.BIN_12_15 n = 0 := by
  simp [ocmZero, rd_wr_ne]

end State

/-- What an outer codeword adds to the first three counts (R61). -/
theorem ocmOf_counts (e : Nat) : (ocmOf e).getD 0 0 = 1 ∧ (e ≤ 15 → (ocmOf e).getD 1 0 = e ∧ (ocmOf e).getD 2 0 = 0) ∧
    (15 < e → (ocmOf e).getD 1 0 = 0 ∧ (ocmOf e).getD 2 0 = 1) := by
  unfold ocmOf
  split
  · simp; omega
  · simp; omega

section
variable {n : LaneNo} {s : State}

theorem ocmCodewordLock_next (hen : s.flag Reg.LN.FMT_CFG.OCM_EN n = true)
    (hl : s.lane n = 2 ∨ s.lane n = 3 ∨ s.lane n = 5) (lock : Bool) : exec (.ocmCodewordLock n lock) s =
      .next (s.wrB Reg.LN.FMT_STAT.OCM_LOCK (lock && s.flag Reg.LN.RX_STAT.FRAME_LOCK n) n) := by
  refine congrArg Host.Outcome.next (if_neg ?_)
  rcases hl with hl | hl | hl <;> simp [hen, hl]

theorem ocmCodeword_next (hen : s.flag Reg.LN.FMT_CFG.OCM_EN n = true)
    (hlock : s.flag Reg.LN.FMT_STAT.OCM_LOCK n = true) (hframe : s.flag Reg.LN.RX_STAT.FRAME_LOCK n = true)
    (errs : Nat) : exec (.ocmCodeword n errs) s = .next (if s.flag Reg.LN.OCM_CTRL.FREEZE n then
      s.setRx n { s.rxOf n with
        ocmHeld := (List.range 7).map fun i => (s.rxOf n).ocmHeld.getD i 0 + (ocmOf errs).getD i 0 }
      else s.ocmAdd n (ocmOf errs)) :=
  congrArg Host.Outcome.next (if_neg (by simp [hen, hlock, hframe]))

end

end Sys2Proof.Machine
end

section
/-! Codes and maps of the line (R44, R45, R51 to R53), the deskew of the host streams (R49), and the statement on line
formats. -/

namespace Sys2Proof.Machine

/-! ## The Lacework code (R44, R45) -/

/-- A codeword has no syndrome left, so the decoder changes nothing in it. -/
theorem laceAlgebraic_codeword {w : Nat} (h : isCodeword w = true) : laceAlgebraic w = some w := by
  simp only [isCodeword, Bool.and_eq_true, beq_iff_eq] at h
  obtain ⟨h1, h3⟩ := h
  simp [laceAlgebraic, h1, h3, laceStepA]

theorem bitOf_eq_testBit (v i : Nat) : bitOf v i = v.testBit i := by
  rw [Nat.testBit_eq_decide_div_mod_eq]
  rfl

theorem lt_two_pow_of_top_clear {v k : Nat} (hv : v < 2 ^ (k + 1)) (hb : v.testBit k = false) : v < 2 ^ k := by
  refine Nat.lt_pow_two_of_testBit _ fun i hi => ?_
  rcases Nat.lt_or_eq_of_le hi with hlt | rfl
  · exact Nat.testBit_eq_false_of_lt (hv.trans_le (Nat.pow_le_pow_right (by decide) hlt))
  · exact hb

/-- Taking the generator from a number whose highest bit is set clears that bit. -/
theorem xor_generator_lt {v k : Nat} (hv : v < 2 ^ (k + 17)) (hb : v.testBit (k + 16) = true) :
    v ^^^ (0x16F63 * 2 ^ k) < 2 ^ (k + 16) := by
  have hg : 0x16F63 * 2 ^ k < 2 ^ (k + 17) := by
    rw [Nat.pow_add, Nat.mul_comm]
    exact Nat.mul_lt_mul_of_pos_left (by decide) (Nat.two_pow_pos k)
  have htop : (0x16F63 * 2 ^ k).testBit (k + 16) = true := by
    rw [Nat.testBit_mul_two_pow, Nat.add_sub_cancel_left]
    simp [show Nat.testBit 0x16F63 16 = true from rfl]
  refine lt_two_pow_of_top_clear (Nat.xor_lt_two_pow hv hg) ?_
  rw [Nat.testBit_xor, hb, htop]
  rfl

/-- The division by the generator takes one bit after the other from the top, down to position 15. -/
theorem laceMod_lt {n u : Nat} (hu : u < 2 ^ (n + 16)) : laceMod n u < 2 ^ 16 := by
  have hstep : ∀ m ≤ n, (List.range m).foldl (fun v i =>
      if bitOf v (n + 15 - i) then v ^^^ (0x16F63 * 2 ^ (n - 1 - i)) else v) u < 2 ^ (n + 16 - m) := by
    intro m
    induction m with
    | zero => exact fun _ => hu
    | succ m ih =>
      intro hm
      have hv := ih (by omega)
      rw [List.range_succ, List.foldl_append, List.foldl_cons, List.foldl_nil]
      generalize (List.range m).foldl _ u = v at hv ⊢
      obtain ⟨k, rfl⟩ : ∃ k, n = k + m + 1 := ⟨n - m - 1, by omega⟩
      rw [show k + m + 1 + 16 - m = k + 17 by omega] at hv
      rw [show k + m + 1 + 16 - (m + 1) = k + 16 by omega, show k + m + 1 + 15 - m = k + 16 by omega,
        show k + m + 1 - 1 - m = k by omega, bitOf_eq_testBit]
      split
      · next hb => exact xor_generator_lt hv hb
      · next hb => exact lt_two_pow_of_top_clear hv (by simpa using hb)
  have h := hstep n le_rfl
  rwa [Nat.add_sub_cancel_left] at h

/-- The 16 check bits stand below the information bits. -/
theorem laceEncode_eq {info : Nat} (hi : info < 2 ^ 240) : ∃ p < 2 ^ 16, laceEncode info = info * 2 ^ 16 + p := by
  unfold laceEncode
  extract_lets c parity
  have hc : c = info * 2 ^ 16 := by rw [← Nat.mod_eq_of_lt hi]
  have hp : parity < 2 ^ 16 := laceMod_lt (Nat.mod_lt _ (Nat.two_pow_pos 255))
  refine ⟨_, ?_, congrArg (· + _) hc⟩
  split
  · exact Nat.xor_lt_two_pow hp (by decide)
  · exact hp

theorem laceEncode_info {info : Nat} (hi : info < 2 ^ 240) :
    laceEncode info / 2 ^ 16 = info ∧ laceEncode info < 2 ^ 256 := by
  obtain ⟨p, hp, he⟩ := laceEncode_eq hi
  rw [he]
  constructor
  · rw [Nat.add_comm, Nat.add_mul_div_right _ _ (Nat.two_pow_pos 16), Nat.div_eq_of_lt hp, Nat.zero_add]
  · calc info * 2 ^ 16 + p < (info + 1) * 2 ^ 16 := by omega
      _ ≤ 2 ^ 240 * 2 ^ 16 := Nat.mul_le_mul_right _ hi
      _ = 2 ^ 256 := by rw [← Nat.pow_add]

/-! ## Precoding and symbol maps (R51 to R53) -/

/-- The receiver adds what the transmitter took away. -/
theorem unprecode_precode (xs : List Nat) (y : Nat) (h : ∀ x ∈ xs, x < 4) :
    unprecode (precode xs y).1 (y % 4) = xs ∧ (precode xs y).1.length = xs.length := by
  induction xs generalizing y with
  | nil => exact ⟨rfl, rfl⟩
  | cons x xs ih =>
    have hx : x < 4 := h x (.head _)
    obtain ⟨hun, hlen⟩ := ih ((x + 4 - y % 4) % 4) fun z hz => h z (.tail _ hz)
    rw [Nat.mod_mod] at hun
    refine ⟨List.cons_eq_cons.mpr ⟨?_, hun⟩, congrArg (· + 1) hlen⟩
    omega

theorem grayBits_grayLevel (a b : Bool) : grayBits (grayLevel a b) = [a, b] := by
  revert a b
  decide

/-- The split on the rest follows the look-ahead of the PAM6 groups. -/
theorem mapBits_pam4 (a b : Bool) (l : List Bool) :
    mapBits 0 (a :: b :: l) = (grayLevel a b :: (mapBits 0 l).1, (mapBits 0 l).2) := by
  match l with
  | [] | [_] | [_, _] | _ :: _ :: _ :: _ => rfl

/-- The demapped PAM4 levels, with the bit that fills no pair yet, are the bits mapped. -/
theorem grayBits_mapBits : ∀ bits : List Bool, (mapBits 0 bits).1.flatMap grayBits ++ (mapBits 0 bits).2 = bits
  | [] => rfl
  | [a] => rfl
  | a :: b :: l => by
    rw [mapBits_pam4, List.flatMap_cons, grayBits_grayLevel, List.append_assoc, grayBits_mapBits l]
    rfl

/-- Every group of five bits comes back from its pair, which is no corner pair (R52, R89). -/
theorem pam6Bits_pam6Pair (a b c d e : Bool) :
    pam6Bits ⟨(pam6Pair (bitsNat [a, b, c, d, e])).1, 0⟩ ⟨(pam6Pair (bitsNat [a, b, c, d, e])).2, 0⟩ =
      [a, b, c, d, e] := by
  revert a b c d e
  decide +kernel

/-- The demapped PAM6 pairs, with the bits that fill no group yet, are the bits mapped. -/
theorem pam6Demap_mapBits : ∀ bits : List Bool, (mapBits 1 bits).2.length < 5 ∧
    pam6Demap ((mapBits 1 bits).1.map fun l => ⟨l, 0⟩) ++ (mapBits 1 bits).2 = bits
  | [] | [_] | [_, _] | [_, _, _] | [_, _, _, _] => ⟨Nat.le_of_ble_eq_true rfl, rfl⟩
  | a :: b :: c :: d :: e :: l => by
    obtain ⟨hlen, ih⟩ := pam6Demap_mapBits l
    have hmap : mapBits 1 (a :: b :: c :: d :: e :: l) =
        ((pam6Pair (bitsNat [a, b, c, d, e])).1 :: (pam6Pair (bitsNat [a, b, c, d, e])).2 :: (mapBits 1 l).1,
          (mapBits 1 l).2) := rfl
    rw [hmap]
    refine ⟨hlen, ?_⟩
    rw [List.map_cons, List.map_cons, pam6Demap, pam6Bits_pam6Pair, List.append_assoc, ih]
    rfl

/-! ## Host streams (R49) -/

namespace State
variable {s : State} {n : Nat}

@[simp] theorem wr_txOf (s : State) (f : Fld) (v i j k : Nat) : (s.wr f v i j).txOf k = s.txOf k := rfl

@[simp] theorem wr_hostOf (s : State) (f : Fld) (v i j k : Nat) : (s.wr f v i j).hostOf k = s.hostOf k := rfl

/-- Deskewing moves the lagging stream up: what is skipped of the two differs by their offsets and the skew. -/
theorem deskew_skips (s : State) (n : Nat) (skew : Int) :
    (((s.deskew n skew).txOf n).path.skipA : Int) - ((s.deskew n skew).txOf n).path.skipB =
      (s.txOf n).path.skipA - (s.txOf n).path.skipB + (s.hostOf (2 * n)).rsOfs - (s.hostOf (2 * n + 1)).rsOfs -
        10 * skew := by
  have htx : (s.deskew n skew).txOf n = (s.setTx n { s.txOf n with path := { (s.txOf n).path with
      skipA := (s.txOf n).path.skipA + (s.hostOf (2 * n)).rsOfs + (if skew < 0 then 10 * skew.natAbs else 0)
      skipB := (s.txOf n).path.skipB + (s.hostOf (2 * n + 1)).rsOfs +
        (if 0 < skew then 10 * skew.natAbs else 0) } }).txOf n := rfl
  rw [htx, txOf_setTx_same]
  dsimp only
  split <;> split <;> omega

end State

namespace State
variable {s : State} {n : Nat}

theorem flag_wrB_same (s : State) {f : Fld} (hw : f.w = 1) (b : Bool) {i j : Nat} :
    (s.wrB f b i j).flag f i j = b := by
  cases b <;> simp [flag, wrB_eq, bitVal, hw]

theorem hostOf_setHost_ne (s : State) {k k' : Nat} (x : HostX) (h : k' ≠ k) :
    (s.setHost k x).hostOf k' = s.hostOf k' := by
  simp [hostOf, setHost, Tab.get_set_ne _ _ _ _ _ _ h]

@[simp] theorem deskew_rd (s : State) (n : Nat) (skew : Int) (f : Fld) (i j : Nat) :
    (s.deskew n skew).rd f i j = s.rd f i j := rfl

/-- Stream B has found its alignment marker, with its symbol boundary `ofs` bits on. -/
def markerTaken (s : State) (k : Nat) (ofs : Nat) : State :=
  (s.setHost k { s.hostOf k with rsOfs := ofs }).wrB Reg.LN.FMT_STAT.HOST_B_ALIGNED true (k / 2)

theorem markerTaken_host (s : State) {k : Nat} (hk : k % 2 = 1) (ofs : Nat) :
    ((s.markerTaken k ofs).hostOf (2 * (k / 2))).rsOfs = (s.hostOf (2 * (k / 2))).rsOfs ∧
      ((s.markerTaken k ofs).hostOf (2 * (k / 2) + 1)).rsOfs = ofs := by
  unfold markerTaken
  rw [wrB_eq, wr_hostOf, wr_hostOf, hostOf_setHost_ne _ _ (by omega), show 2 * (k / 2) + 1 = k by omega,
    hostOf_setHost_same]
  exact ⟨rfl, rfl⟩

/-- Whether the bond stood aligned and within the reach of the deskew. -/
def bondAligned (s : State) (n : Nat) : Bool :=
  s.flag Reg.LN.FMT_STAT.HOST_A_ALIGNED n && s.flag Reg.LN.FMT_STAT.HOST_B_ALIGNED n &&
    !s.flag Reg.LN.FMT_STAT.SKEW_OVR n

/-- What the framer makes of the skew of two aligned streams. -/
def skewTaken (s : State) (n : Nat) (was : Bool) (skew : Int) : State :=
  if skew.natAbs ≤ 512 then
    ((if was then s else s.deskew n skew).wr Reg.LN.FMT_STAT.DESKEW skew.natAbs n).wr Reg.LN.FMT_STAT.SKEW_OVR 0 n
  else (s.wr Reg.LN.FMT_STAT.DESKEW 0 n).wr Reg.LN.FMT_STAT.SKEW_OVR 1 n

theorem skewTaken_rd (s : State) (n : Nat) (was : Bool) (skew : Int) {g : Fld}
    (hd : g.key n 0 ≠ Reg.LN.FMT_STAT.DESKEW.key n 0) (ho : g.key n 0 ≠ Reg.LN.FMT_STAT.SKEW_OVR.key n 0) :
    (s.skewTaken n was skew).rd g n = s.rd g n := by
  unfold skewTaken
  split
  · rw [rd_wr_ne _ _ _ _ _ _ _ _ ho, rd_wr_ne _ _ _ _ _ _ _ _ hd]
    split
    · rfl
    · rfl
  · rw [rd_wr_ne _ _ _ _ _ _ _ _ ho, rd_wr_ne _ _ _ _ _ _ _ _ hd]

/-- A skew in reach shows and, on a bond not aligned before, is taken out. -/
theorem skewTaken_near (s : State) (n : Nat) (was : Bool) {skew : Int} (h : skew.natAbs ≤ 512) :
    (s.skewTaken n was skew).rd Reg.LN.FMT_STAT.DESKEW n = skew.natAbs ∧
      (s.skewTaken n was skew).flag Reg.LN.FMT_STAT.SKEW_OVR n = false ∧
      (was = false → (s.skewTaken n was skew).txOf n = (s.deskew n skew).txOf n) := by
  have ht : s.skewTaken n was skew =
      ((if was then s else s.deskew n skew).wr Reg.LN.FMT_STAT.DESKEW skew.natAbs n).wr Reg.LN.FMT_STAT.SKEW_OVR 0 n :=
    if_pos h
  rw [ht]
  refine ⟨?_, flag_eq_false _ (by simp), ?_⟩
  · rw [rd_wr_ne _ _ _ _ _ _ _ _ (by simp), rd_wr_same]
    exact Nat.mod_eq_of_lt (h.trans_lt (by decide))
  · rintro rfl
    rfl

theorem skewTaken_far (s : State) (n : Nat) (was : Bool) {skew : Int} (h : 512 < skew.natAbs) :
    (s.skewTaken n was skew).rd Reg.LN.FMT_STAT.DESKEW n = 0 ∧
      (s.skewTaken n was skew).flag Reg.LN.FMT_STAT.SKEW_OVR n = true := by
  have ht : s.skewTaken n was skew = (s.wr Reg.LN.FMT_STAT.DESKEW 0 n).wr Reg.LN.FMT_STAT.SKEW_OVR 1 n :=
    if_neg (by omega)
  rw [ht]
  exact ⟨by simp [rd_wr_ne], flag_eq_true _ (by simp)⟩

end State

/-- The marker of stream B of a stretcher bond whose stream A is aligned. -/
theorem hostMarkerLock_next {k : HostLaneNo} (m : MarkerAt) {s : State} (h3 : s.rd Reg.HL.STAT.STATE k = 3)
    (hk : k.val % 2 = 1) (hm : s.mode (k / 2) = 4) (ha : s.flag Reg.LN.FMT_STAT.HOST_A_ALIGNED (k / 2) = true) :
    exec (.hostAlignmentMarkerLock k true m) s =
      .next ((s.markerTaken k m.ofs).skewTaken (k / 2) (s.bondAligned (k / 2)) m.skew) := by
  have hmode : (s.markerTaken k m.ofs).mode (k / 2) = 4 := by
    refine (State.rd_wr_ne _ _ _ _ _ _ _ _ (by simp)).trans hm
  have hA : (s.markerTaken k m.ofs).flag Reg.LN.FMT_STAT.HOST_A_ALIGNED (k / 2) = true := by
    rw [← ha, State.flag, State.flag]
    exact congrArg (· % 2 == 1) (State.rd_wr_ne _ _ _ _ _ _ _ _ (by simp))
  have hB : (s.markerTaken k m.ofs).flag Reg.LN.FMT_STAT.HOST_B_ALIGNED (k / 2) = true :=
    State.flag_eq_true _ (State.rd_wr_same ..)
  refine congrArg Host.Outcome.next ((if_neg (by simp [h3, hm, isyon])).trans ?_)
  extract_lets x s0 s1
  have hs1 : s1 = s.markerTaken k m.ofs := if_neg (by omega)
  rw [hs1, if_pos (by simp [hmode, hA, hB, isyon])]
  rfl

/-! ## The cases of the statement -/

section
variable {n : LaneNo} {syms : List RxSym} {at_ : ApbAt} {s : State} {bits : Nat}
  (hnext : exec (.apbReceived n syms at_) s = .next (s.apbSeen n bits true))

include hnext

/-- A matched APB with a wrong CRC is counted, and lock is kept. -/
theorem apbReceived_crcWrong (ha : s.flag Reg.LN.FMT_STAT.ALIGNED n = true) (hm : am0Match bits = true)
    (hc : apbCrcOk bits = false) : Gives (.apbReceived n syms at_) s fun t =>
      t.rd Reg.LN.APB_CNT.CRC_ERR n = min (s.rd Reg.LN.APB_CNT.CRC_ERR n + 1) 65535 ∧ (t.rxOf n).amMiss = 0 ∧
      OnlyRegs { s with rx := t.rx } t [Reg.LN.APB_CNT.CRC_ERR.key n 0] := by
  have ht := (s.apbSeen_aligned n bits ha).trans ((if_pos hm).trans (if_neg (by simp [hc])))
  refine .of (hnext.trans (congrArg _ ht)) ⟨State.count_rd .., ?_, (OnlyRegs.of_regs rfl).wr (by simp)⟩
  rw [State.count, State.wr_rxOf, State.rxOf_setRx_same]

/-- The fields of a correct APB are taken. -/
theorem apbReceived_correct (ha : s.flag Reg.LN.FMT_STAT.ALIGNED n = true) (hm : am0Match bits = true)
    (hc : apbCrcOk bits = true) : Gives (.apbReceived n syms at_) s fun t =>
      t.rd Reg.LN.FMT_STAT.FAR_LANE n = apbField bits 80 8 % 64 ∧
      t.rd Reg.LN.FMT_STAT.FAR_CONST n = apbField bits 80 8 / 64 ∧
      t.rd Reg.LN.FMT_STAT.FAR_DEGRADE n = apbField bits 88 8 / 2 % 2 ∧
      (t.rxOf n).fcount = apbField bits 64 16 ∧ t.flag Reg.LN.FMT_STAT.ALIGNED n = true ∧ NoRaise s t := by
  have ht := (s.apbSeen_aligned n bits ha).trans ((if_pos hm).trans (if_pos hc))
  generalize hu : s.setRx n { s.rxOf n with amMiss := 0 } = u at ht
  obtain ⟨hlane, hconst, hdeg⟩ := u.apbFields_far n bits
  refine .of (hnext.trans (congrArg _ ht)) ⟨hlane, hconst, hdeg, ?_, ?_, ?_⟩
  · rw [State.apbFields_rx]
  · rw [State.flag, State.apbFields_rd _ _ _ (by simp), ← hu]
    exact ha
  · obtain ⟨hr, hh⟩ := u.apbFields_noRaise n bits
    have hu' : u.raises = s.raises ∧ u.held = s.held := by simp [← hu]
    exact ⟨hr.trans hu'.1, hh.trans hu'.2⟩

/-- Up to the third position in a row without a match, it is only counted. -/
theorem apbReceived_missed (ha : s.flag Reg.LN.FMT_STAT.ALIGNED n = true) (hm : am0Match bits = false)
    (hk : (s.rxOf n).amMiss < 3) : Gives (.apbReceived n syms at_) s fun t =>
      t = { s with rx := t.rx } ∧ t.rxOf n = { s.rxOf n with amMiss := (s.rxOf n).amMiss + 1 } := by
  have ht := (s.apbSeen_aligned n bits ha).trans ((if_neg (by simp [hm])).trans (if_neg (by omega)))
  exact .of (hnext.trans (congrArg _ ht)) ⟨rfl, State.rxOf_setRx_same ..⟩

/-- At the fourth one alignment is lost. -/
theorem apbReceived_lost (ha : s.flag Reg.LN.FMT_STAT.ALIGNED n = true) (hm : am0Match bits = false)
    (hk : 3 ≤ (s.rxOf n).amMiss) : Gives (.apbReceived n syms at_) s fun t =>
      t.flag Reg.LN.FMT_STAT.ALIGNED n = false ∧ t.flag Reg.LN.RX_STAT.FRAME_LOCK n = false ∧
      t.rd Reg.LN.APB_CNT.ALIGN_LOSS n = min (s.rd Reg.LN.APB_CNT.ALIGN_LOSS n + 1) 255 ∧
      (s.lane n = 3 → t.lane n = 2) := by
  have ht := (s.apbSeen_aligned n bits ha).trans ((if_neg (by simp [hm])).trans (if_pos (by omega)))
  exact .of (hnext.trans (congrArg _ ht)) (State.alignmentLost_reads n.isLt)

/-- The third match in a row, its CRC correct, aligns a lane that searches. -/
theorem apbReceived_aligns {a b : Bool} (ha : ¬ s.flag Reg.LN.FMT_STAT.ALIGNED n = true) (hm : am0Match bits = true)
    (hc : apbCrcOk bits = true) (hr : (s.rxOf n).amRun = [a, b]) : Gives (.apbReceived n syms at_) s fun t =>
      t.flag Reg.LN.FMT_STAT.ALIGNED n = true ∧ t.flag Reg.LN.RX_STAT.FRAME_LOCK n = true ∧ t.lane n = s.lane n := by
  have ht := (s.apbSeen_searching n (by simpa using ha) hm).trans (if_pos (by simp [hr, hc]))
  obtain ⟨hal, hframe, hlane⟩ := (s.apbTaken n bits).declareAligned_reads n
  obtain ⟨-, hlane', -⟩ := s.apbTaken_reads n bits
  exact .of (hnext.trans (congrArg _ ht)) ⟨hal, hframe, hlane.trans hlane'⟩

/-- The first match begins a run. -/
theorem apbReceived_firstMatch (ha : ¬ s.flag Reg.LN.FMT_STAT.ALIGNED n = true) (hm : am0Match bits = true)
    (hr : (s.rxOf n).amRun = []) : Gives (.apbReceived n syms at_) s fun t =>
      t.flag Reg.LN.FMT_STAT.ALIGNED n = false ∧ (t.rxOf n).amRun = [apbCrcOk bits] := by
  have hna : s.flag Reg.LN.FMT_STAT.ALIGNED n = false := by simpa using ha
  have ht := (s.apbSeen_searching n hna hm).trans (if_neg (by simp [hr]))
  obtain ⟨hal, -, hrun⟩ := s.apbTaken_reads n bits
  refine .of (hnext.trans (congrArg _ ht)) ⟨?_, ?_⟩
  · rw [State.flag, hal]
    exact hna
  · rw [hrun, hr]
    rfl

end

section
variable {n : LaneNo} {llr : List Int} {std : Option Nat} {s : State} (hd : s.decodes n = true) (hm : s.mode n = 4)
  (hp : s.rd Reg.LN.PRBS_CTRL.LOOP n ≠ 2) (hg : (s.rxOf n).bobbin.length < 3)

include hd hm hp hg

theorem codewordDecode_bypassed (hb : s.flag Reg.LN.FMT_CFG.INNER_BYPASS n = true) :
    Gives (.codewordDecode n llr std) s fun t =>
      (t.rxOf n).bobbin = (s.rxOf n).bobbin ++ [hardWord (llr.take 256) s.free / 65536] ∧ t.regs = s.regs ∧
      t.out = s.out := by
  have ht := State.deliverInfo_gathers (s := s.freed) hm hg (hardWord (llr.take 256) s.free / 65536)
  refine .of ((codewordDecode_bypass hd hm hp hb).trans (congrArg _ ht)) ⟨?_, rfl, rfl⟩
  rw [State.rxOf_setRx_same]
  rfl

theorem codewordDecode_decoded (hb : s.flag Reg.LN.FMT_CFG.INNER_BYPASS n = false) {hard : Nat} {c : Option Nat}
    (hh : hard = hardWord (llr.take 256) s.free)
    (hc : c = chaseDecode ((llr.map (softValue (s.rd Reg.LN.MLSE_CTRL.SOFT_SCALE n))).take 256) hard (s.chaseL n)) :
    Gives (.codewordDecode n llr std) s fun t =>
      t.rd Reg.LN.DEC_CW.COUNT n = min (s.rd Reg.LN.DEC_CW.COUNT n + 1) (2 ^ 64 - 1) ∧ t.out = s.out ∧
      (t.rxOf n).bobbin = (s.rxOf n).bobbin ++ [c.getD hard / 65536] ∧
      t.rd Reg.LN.DEC_CORR.COUNT n = (match c.map (wordDistance · hard) with
        | some k => min (s.rd Reg.LN.DEC_CORR.COUNT n + k) (2 ^ 64 - 1)
        | none => s.rd Reg.LN.DEC_CORR.COUNT n) ∧
      t.rd Reg.LN.DEC_UNCORR.COUNT n = (match c.map (wordDistance · hard) with
        | some _ => s.rd Reg.LN.DEC_UNCORR.COUNT n
        | none => min (s.rd Reg.LN.DEC_UNCORR.COUNT n + 1) (2 ^ 64 - 1)) := by
  have hrd {f : Fld} (hf : f.key n 0 < 8 * 0x390400) :
      (s.freed.dpCount 6 n (2 ^ s.chaseL n)).rd f n = s.rd f n := State.dpCount_rd _ _ _ _ hf
  obtain ⟨hcw, hcorr, huncorr⟩ := (s.freed.dpCount 6 n (2 ^ s.chaseL n)).countCodeword_reads n.isLt
    (c.map (wordDistance · hard))
  rw [hrd (by simp; omega)] at hcw hcorr huncorr
  refine .of (codewordDecode_counts hd hm hp hb hg hh hc) ⟨hcw, ?_, ?_, hcorr, huncorr⟩
  · rw [State.setRx_out, State.countCodeword_out, State.dpCount_out]
    rfl
  · rw [State.rxOf_setRx_same]

end

/-- The marker of stream B aligns it; a skew in reach shows and is taken out, one out of reach only flags (R49). -/
theorem hostMarkerLock_gives {k : HostLaneNo} (m : MarkerAt) {s : State} (h3 : s.rd Reg.HL.STAT.STATE k = 3)
    (hk : k.val % 2 = 1) (hm : s.mode (k / 2) = 4) (ha : s.flag Reg.LN.FMT_STAT.HOST_A_ALIGNED (k / 2) = true) :
    Gives (.hostAlignmentMarkerLock k true m) s fun t =>
      let p := (s.txOf (k / 2)).path
      let q := (t.txOf (k / 2)).path
      t.flag Reg.LN.FMT_STAT.HOST_B_ALIGNED (k / 2) = true ∧
      (m.skew.natAbs ≤ 512 → t.rd Reg.LN.FMT_STAT.DESKEW (k / 2) = m.skew.natAbs ∧
        t.flag Reg.LN.FMT_STAT.SKEW_OVR (k / 2) = false ∧
        (s.flag Reg.LN.FMT_STAT.HOST_B_ALIGNED (k / 2) = false →
          (q.skipA : Int) - q.skipB = p.skipA - p.skipB + (s.hostOf (2 * (k / 2))).rsOfs - m.ofs - 10 * m.skew)) ∧
      (512 < m.skew.natAbs → t.rd Reg.LN.FMT_STAT.DESKEW (k / 2) = 0 ∧
        t.flag Reg.LN.FMT_STAT.SKEW_OVR (k / 2) = true) := by
  refine .of (hostMarkerLock_next m h3 hk hm ha) ⟨?_, fun hnear => ?_, fun hfar => State.skewTaken_far _ _ _ hfar⟩
  · refine State.flag_eq_true _ ((State.skewTaken_rd _ _ _ _ (by simp) (by simp)).trans ?_)
    exact State.rd_wr_same ..
  · obtain ⟨hshow, hovr, hskew⟩ := (s.markerTaken k m.ofs).skewTaken_near (k / 2) (s.bondAligned (k / 2)) hnear
    refine ⟨hshow, hovr, fun hb => ?_⟩
    obtain ⟨hA, hB⟩ := s.markerTaken_host hk m.ofs
    rw [hskew (by simp [State.bondAligned, hb]), State.deskew_skips, hA, hB]
    rfl

theorem ocmCodeword_counts {n : LaneNo} {s : State} (hen : s.flag Reg.LN.FMT_CFG.OCM_EN n = true)
    (hlock : s.flag Reg.LN.FMT_STAT.OCM_LOCK n = true) (hframe : s.flag Reg.LN.RX_STAT.FRAME_LOCK n = true)
    (hfz : s.flag Reg.LN.OCM_CTRL.FREEZE n = false) (errs : Nat) : Gives (.ocmCodeword n errs) s fun t =>
      t.rd Reg.LN.OCM_CW.COUNT n = (s.rd Reg.LN.OCM_CW.COUNT n + 1) % 2 ^ 64 ∧
      (errs ≤ 15 → t.rd Reg.LN.OCM_SYM.COUNT n = (s.rd Reg.LN.OCM_SYM.COUNT n + errs) % 2 ^ 64 ∧
        t.rd Reg.LN.OCM_UNCORR.COUNT n = s.rd Reg.LN.OCM_UNCORR.COUNT n % 2 ^ 64) ∧
      (15 < errs → t.rd Reg.LN.OCM_SYM.COUNT n = s.rd Reg.LN.OCM_SYM.COUNT n % 2 ^ 64 ∧
        t.rd Reg.LN.OCM_UNCORR.COUNT n = (s.rd Reg.LN.OCM_UNCORR.COUNT n + 1) % 2 ^ 64) := by
  obtain ⟨hcw, hsym, huncorr, -⟩ := s.ocmAdd_reads n (ocmOf errs)
  obtain ⟨h0, hle, hgt⟩ := ocmOf_counts errs
  refine .of ((ocmCodeword_next hen hlock hframe errs).trans (congrArg _ (if_neg (by simp [hfz]))))
    ⟨by rw [hcw, h0], fun h => ?_, fun h => ?_⟩
  · obtain ⟨h1, h2⟩ := hle h
    exact ⟨by rw [hsym, h1], by rw [huncorr, h2, Nat.add_zero]⟩
  · obtain ⟨h1, h2⟩ := hgt h
    exact ⟨by rw [hsym, h1, Nat.add_zero], by rw [huncorr, h2]⟩

theorem ocmCodeword_holds {n : LaneNo} {s : State} (hen : s.flag Reg.LN.FMT_CFG.OCM_EN n = true)
    (hlock : s.flag Reg.LN.FMT_STAT.OCM_LOCK n = true) (hframe : s.flag Reg.LN.RX_STAT.FRAME_LOCK n = true)
    (hfz : s.flag Reg.LN.OCM_CTRL.FREEZE n = true) (errs : Nat) : Gives (.ocmCodeword n errs) s fun t =>
      t = { s with rx := t.rx } ∧ (t.rxOf n).ocmHeld.getD 0 0 = (s.rxOf n).ocmHeld.getD 0 0 + 1 := by
  obtain ⟨h0, -, -⟩ := ocmOf_counts errs
  refine .of ((ocmCodeword_next hen hlock hframe errs).trans (congrArg _ (if_pos hfz))) ⟨rfl, ?_⟩
  rw [State.rxOf_setRx_same]
  exact congrArg ((s.rxOf n).ocmHeld.getD 0 0 + ·) h0

section
variable {n : LaneNo} {s : State} (hc : s.coreOn = true) (hd : s.courseD (courseOf n) = true)
  (ht : s.laneInTest n = false)

include hc hd ht

theorem ocmClear_gives : Gives (.ocmClear n) s fun t => t.rd Reg.LN.OCM_CW.COUNT n = 0 ∧
    t.rd Reg.LN.OCM_SYM.COUNT n = 0 ∧ t.rd Reg.LN.OCM_UNCORR.COUNT n = 0 ∧ t.rd Reg.LN.OCM_HIST.BIN_1_3 n = 0 ∧
    t.rd Reg.LN.OCM_HIST.BIN_12_15 n = 0 :=
  .of (congrArg Host.Outcome.next (s.regAccess_lane n rfl hc hd ht 0 true _)) (State.ocmZero_reads ..)

theorem ocmFreeze_on : Gives (.ocmFreeze n true) s fun t => t.flag Reg.LN.OCM_CTRL.FREEZE n = true ∧
    OnlyRegs (s.setShadow 0 none) t [Reg.LN.OCM_CTRL.FREEZE.key n 0] :=
  .of (congrArg Host.Outcome.next (s.regAccess_lane n rfl hc hd ht 0 true _))
    ⟨State.flag_eq_true _ (State.rd_wr_same ..), (OnlyRegs.of_regs rfl).wr (.head _)⟩

theorem ocmFreeze_off : Gives (.ocmFreeze n false) s fun t => t.flag Reg.LN.OCM_CTRL.FREEZE n = false ∧
    (t.rxOf n).ocmHeld = [] ∧ t.rd Reg.LN.OCM_CW.COUNT n =
      (s.rd Reg.LN.OCM_CW.COUNT n + (s.rxOf n).ocmHeld.getD 0 0) % 2 ^ 64 := by
  generalize hu : (s.setShadow 0 none).wrB Reg.LN.OCM_CTRL.FREEZE false n = u
  have hnext : exec (.ocmFreeze n false) s =
      .next ((u.ocmAdd n (u.rxOf n).ocmHeld).setRx n { u.rxOf n with ocmHeld := [] }) := by
    rw [← hu]
    exact congrArg Host.Outcome.next (s.regAccess_lane n rfl hc hd ht 0 true _)
  obtain ⟨hcw, -, -, hfz⟩ := u.ocmAdd_reads n (u.rxOf n).ocmHeld
  refine .of hnext ⟨State.flag_eq_false _ ?_, ?_, ?_⟩
  · rw [State.setRx_rd, hfz, ← hu]
    exact State.rd_wr_same ..
  · rw [State.rxOf_setRx_same]
  · rw [State.setRx_rd, hcw, ← hu, State.wrB_eq, State.wr_rxOf, State.rd_wr_ne _ _ _ _ _ _ _ _ (by simp)]
    rfl

end

/-- Settles O49: what an expected position comes to (`apbSeen_aligned`, `apbSeen_searching`), what a codeword is counted as
and delivers (`codewordDecode_counts`), the code and the maps, the deskew, and the outer-code counters. -/
theorem alignmentCodewordsAndOuterCounts : Obligations.AlignmentCodewordsAndOuterCounts := by
  refine ⟨?_, ?_, fun w => laceAlgebraic_codeword, fun info => laceEncode_info, fun xs y => unprecode_precode xs y,
    fun bits => ⟨grayBits_mapBits bits, pam6Demap_mapBits bits⟩, fun k m s h3 hk hm ha => hostMarkerLock_gives m h3 hk hm ha,
    ?_, fun n s hc hd ht => ⟨ocmClear_gives hc hd ht, ocmFreeze_on hc hd ht, ocmFreeze_off hc hd ht⟩⟩
  · intro n syms at_ s hm hl he hp x bits aligned
    have hnext := apbReceived_next syms hm hl he hp
    exact ⟨apbReceived_crcWrong hnext, apbReceived_correct hnext, apbReceived_missed hnext, apbReceived_lost hnext,
      fun a b => apbReceived_aligns hnext, apbReceived_firstMatch hnext⟩
  · intro n llr std s hl hf hm hg hp v hard l
    have hd : s.decodes n = true := State.decodes_active hl hf hm
    have hL : s.chaseL n = l := by simp [State.chaseL, hm, l]
    refine ⟨fun hb => codewordDecode_bypassed hd hm hp hg hb, fun hb => ?_⟩
    obtain ⟨t, hnext, hcw, hout, hbob, hcorr, huncorr⟩ :=
      codewordDecode_decoded (std := std) hd hm hp hg hb rfl rfl
    rw [hL] at hbob hcorr huncorr
    refine .of hnext ⟨hcw, hout, fun c hc => ?_, fun hc => ?_⟩
    · have hc' : chaseDecode ((llr.map (softValue (s.rd Reg.LN.MLSE_CTRL.SOFT_SCALE n))).take 256) hard l = some c := hc
      rw [hc'] at hbob hcorr huncorr
      exact ⟨hbob, hcorr, huncorr⟩
    · have hc' : chaseDecode ((llr.map (softValue (s.rd Reg.LN.MLSE_CTRL.SOFT_SCALE n))).take 256) hard l = none := hc
      rw [hc'] at hbob hcorr huncorr
      exact ⟨hbob, hcorr, huncorr⟩
  · intro n s hen
    exact ⟨fun lock hl => .of (ocmCodewordLock_next hen hl lock)
        ⟨State.flag_wrB_same _ rfl _, (OnlyRegs.of_regs rfl).wr (.head _)⟩,
      fun errs hlock hframe hfz => ocmCodeword_counts hen hlock hframe hfz errs,
      fun errs hlock hframe hfz => ocmCodeword_holds hen hlock hframe hfz errs⟩

end Sys2Proof.Machine
end

section
/-! The survey of a lane (R97 to R105) and its seeds (R94, R350). -/

namespace Sys2Proof.Machine

/-! ## What a step of the survey leaves alone -/

/-- The survey's own books of a lane (R102, R104): what its next record continues. -/
def RxX.book (x : RxX) : Nat × List SurveyRec × Nat × Nat × Nat × Nat :=
  (x.seq, x.hist, x.degUp, x.cw0, x.corr0, x.uncorr0)

theorem RxX.book_inj {x y : RxX} (h : x.book = y.book) : x.seq = y.seq ∧ x.hist = y.hist ∧ x.degUp = y.degUp ∧
    x.cw0 = y.cw0 ∧ x.corr0 = y.corr0 ∧ x.uncorr0 = y.uncorr0 := by
  simpa [book] using h

/-- From `s` to `t` the time stands, the registers change at `keys` alone, and the survey's books of lane `n` are the
same. -/
structure State.Adjusts (n : Nat) (keys : List Nat) (s t : State) : Prop where
  time : t.time = s.time
  regs : RegsBut s t keys
  book : (t.rxOf n).book = (s.rxOf n).book

theorem RegsBut.rd {s t : State} {keys : List Nat} (h : RegsBut s t keys) {f : Fld} {i j : Nat}
    (hk : f.key i j ∉ keys) : t.rd f i j = s.rd f i j := h _ _ hk

theorem RegsBut.trans {s t u : State} {ks ls : List Nat} (h : RegsBut s t ks) (h' : RegsBut t u ls) :
    RegsBut s u (ks ++ ls) := by
  intro k d hk
  obtain ⟨h1, h2⟩ := not_or.mp (mt List.mem_append.mpr hk)
  exact (h' k d h2).trans (h k d h1)

theorem RegsBut.mono {s t : State} {ks ls : List Nat} (h : RegsBut s t ks) (hs : ks ⊆ ls) : RegsBut s t ls :=
  fun k d hk => h k d (mt (@hs k) hk)

theorem RegsBut.of_regs {s t : State} {keys : List Nat} (h : t.regs = s.regs) : RegsBut s t keys := fun _ _ _ => by
  rw [h]

theorem RegsBut.wr {s t : State} {keys : List Nat} (h : RegsBut s t keys) {f : Fld} {v i j : Nat}
    (hk : f.key i j ∈ keys) : RegsBut s (t.wr f v i j) keys := fun k d hd =>
  (State.get_wr_ne _ _ _ _ _ _ _ (by rintro rfl; exact hd hk)).trans (h k d hd)

@[simp] theorem State.raise_time (s : State) (src detail : Nat) : (s.raise src detail).time = s.time := by
  obtain ⟨_, _, he⟩ := s.raise_eq src detail
  rw [he]
  rfl

@[simp] theorem State.raise_rxOf (s : State) (src detail n : Nat) : (s.raise src detail).rxOf n = s.rxOf n := by
  obtain ⟨_, _, he⟩ := s.raise_eq src detail
  rw [he]
  rfl

theorem RegsBut.raise {s t : State} {keys : List Nat} (h : RegsBut s t keys) {src detail : Nat}
    (hk : ∀ k ∈ raiseKeys src, k ∈ keys) : RegsBut s (t.raise src detail) keys := by
  intro k d hd
  rw [State.raise_regs]
  exact ((h.wr (hk _ (.head _))).wr (hk _ (.tail _ (.head _)))) k d hd

namespace State.Adjusts
variable {n : Nat} {keys : List Nat} {s t u : State}

theorem refl (s : State) : Adjusts n keys s s := ⟨rfl, fun _ _ _ => rfl, rfl⟩

theorem ite {c : Prop} [Decidable c] (ht : Adjusts n keys s t) (he : Adjusts n keys s u) :
    Adjusts n keys s (if c then t else u) := by
  split
  · exact ht
  · exact he

theorem wr (h : Adjusts n keys s t) {f : Fld} {v i j : Nat} (hk : f.key i j ∈ keys) :
    Adjusts n keys s (t.wr f v i j) := ⟨h.time, h.regs.wr hk, h.book⟩

theorem raise (h : Adjusts n keys s t) {src detail : Nat} (hk : ∀ k ∈ raiseKeys src, k ∈ keys) :
    Adjusts n keys s (t.raise src detail) :=
  ⟨(t.raise_time src detail).trans h.time, h.regs.raise hk,
    (congrArg RxX.book (t.raise_rxOf src detail n)).trans h.book⟩

theorem setRx (h : Adjusts n keys s t) {x : RxX} (hx : x.book = (t.rxOf n).book := by rfl) :
    Adjusts n keys s (t.setRx n x) :=
  ⟨h.time, h.regs, by rw [rxOf_setRx_same, hx, h.book]⟩

theorem setTaps (h : Adjusts n keys s t) (taps : List Int) : Adjusts n keys s (t.setTaps n taps) := h.setRx

end State.Adjusts

/-! ## Adjustments after a survey (R77, R78, R86, R91, R95) -/

/-- What the adjustments of an ACTIVE lane write. -/
def tuneKeys (n : Nat) : List Nat :=
  [Reg.LN.MLSE_CTRL.SOFT_SCALE.key n 0, Reg.LN.CTLE.SETTING.key n 0, Reg.LN.MLSE_CTRL.ALPHA1.key n 0,
    Reg.LN.MLSE_CTRL.ALPHA2.key n 0]

namespace State.Adjusts
variable {n : Nat} {s t : State}

theorem surveySoft (h : Adjusts n (tuneKeys n) s t) (p95 : Nat) : Adjusts n (tuneKeys n) s (t.surveySoft n p95) :=
  .ite h (h.wr (by simp [tuneKeys]))

theorem ctleForce (h : Adjusts n (tuneKeys n) s t) : Adjusts n (tuneKeys n) s (t.ctleForce n) :=
  .ite h (h.wr (by simp [tuneKeys]))

theorem surveyCtle (h : Adjusts n (tuneKeys n) s t) (m : SurveyIn) : Adjusts n (tuneKeys n) s (t.surveyCtle n m) := by
  have hf := h.ctleForce
  unfold State.surveyCtle
  exact .ite (.setRx hf) (.ite (.setRx hf) (.ite hf (.setTaps (.setRx (.wr hf (by simp [tuneKeys]))) _)))

theorem surveyTarget (h : Adjusts n (tuneKeys n) s t) (snr : Nat) (m : SurveyIn) :
    Adjusts n (tuneKeys n) s (t.surveyTarget n snr m) := by
  unfold State.surveyTarget
  extract_lets x a1 a2 near
  refine .ite (h.setRx) ?_
  clear_value near
  split
  · exact h.setRx
  · exact .setTaps (.setRx (.wr (.wr h (by simp [tuneKeys])) (by simp [tuneKeys]))) _

theorem surveySeed (h : Adjusts n (tuneKeys n) s t) : Adjusts n (tuneKeys n) s (t.surveySeed n) := by
  have hs : Adjusts n (tuneKeys n) s (t.setRx n { t.rxOf n with seedAuto := true }) := h.setRx
  exact .ite ⟨hs.time, hs.regs, hs.book⟩ h

end State.Adjusts

/-! ## Figures and conditions (R57, R58, R63, R97 to R101, R104, R105) -/

/-- What the figures of a survey are shown in. -/
def shownKeys (n : Nat) : List Nat :=
  [Reg.LN.RX_SNR.SNR_EQ.key n 0, Reg.LN.RX_SNR.SNR_MFB.key n 0, Reg.LN.RX_GAP.GAP.key n 0,
    Reg.LN.LATENCY.RX_LAT.key n 0, Reg.LN.LATENCY.TX_LAT.key n 0, Reg.LN.CONST_ADV.MARGIN_P4.key n 0,
    Reg.LN.CONST_ADV.MARGIN_P6.key n 0]

/-- What an ACTIVE lane draws from them, `LATENCY.VALID` aside. -/
def adviceKeys (n : Nat) : List Nat :=
  [Reg.LN.CONST_ADV.REC.key n 0, Reg.LN.RX_GAP.VALID.key n 0, Reg.LN.RX_STAT.GAP_HIGH.key n 0] ++
    raiseKeys (laneSrc n 3)

/-- What the FEC_DEGRADE condition writes. -/
def degradeKeys (n : Nat) : List Nat := Reg.LN.RX_STAT.FEC_DEG.key n 0 :: raiseKeys (laneSrc n 2)

/-- A number found from the top bit down fits in its bits. -/
theorem foldl_topBits_lt (p : Nat → Prop) [DecidablePred p] (w : Nat) : (List.range w).foldl (fun v i =>
    if p (v + 2 ^ (w - 1 - i)) then v + 2 ^ (w - 1 - i) else v) 0 < 2 ^ w := by
  have hfold : ∀ m ≤ w, (List.range m).foldl (fun v i =>
      if p (v + 2 ^ (w - 1 - i)) then v + 2 ^ (w - 1 - i) else v) 0 + 2 ^ (w - m) ≤ 2 ^ w := by
    intro m
    induction m with
    | zero => exact fun _ => by simp
    | succ m ih =>
      intro hm
      have hv := ih (by omega)
      rw [List.range_succ, List.foldl_append, List.foldl_cons, List.foldl_nil]
      generalize (List.range m).foldl _ 0 = v at hv ⊢
      obtain ⟨k, rfl⟩ : ∃ k, w = k + m + 1 := ⟨w - m - 1, by omega⟩
      rw [show k + m + 1 - m = k + 1 by omega, Nat.pow_succ] at hv
      rw [show k + m + 1 - 1 - m = k by omega, show k + m + 1 - (m + 1) = k by omega]
      split
      · omega
      · omega
  have h := hfold w le_rfl
  rw [Nat.sub_self, Nat.pow_zero] at h
  exact h

theorem centiDb_lt (a b : Nat) : centiDb a b < 65536 := by
  unfold centiDb
  split
  · decide
  · exact foldl_topBits_lt (fun t => 10 ^ (2 * t - 1) * b ^ 2000 ≤ a ^ 2000) 16

namespace State
variable {n : Nat}

theorem surveyShown_adjusts (s : State) (n snr mfb : Nat) (m : SurveyIn) :
    Adjusts n (shownKeys n) s (s.surveyShown n snr mfb m) := by
  unfold surveyShown
  extract_lets gap s1 s2 p
  have h1 : Adjusts n (shownKeys n) s s1 :=
    .ite (.refl s) (.wr (.wr (.wr (.refl s) (by simp [shownKeys])) (by simp [shownKeys])) (by simp [shownKeys]))
  have h2 : Adjusts n (shownKeys n) s s2 := .wr (.wr h1 (by simp [shownKeys])) (by simp [shownKeys])
  exact .ite (.wr (.wr h2 (by simp [shownKeys])) (by simp [shownKeys])) h2

/-- Both latencies show, up to the largest value of their fields (R63). -/
theorem surveyShown_latency (s : State) (n snr mfb : Nat) (m : SurveyIn) :
    (s.surveyShown n snr mfb m).rd Reg.LN.LATENCY.RX_LAT n = min 4095 m.rxLat ∧
      (s.surveyShown n snr mfb m).rd Reg.LN.LATENCY.TX_LAT n = min 4095 m.txLat := by
  unfold surveyShown
  extract_lets gap s1 s2 p
  have hfit (lat : Nat) : min 4095 lat % 2 ^ 12 = min 4095 lat :=
    Nat.mod_eq_of_lt (Nat.lt_succ_of_le (Nat.min_le_left ..))
  have hrx : s2.rd Reg.LN.LATENCY.RX_LAT n = min 4095 m.rxLat :=
    (rd_wr_ne _ _ _ _ _ _ _ _ (by simp)).trans ((rd_wr_same ..).trans (hfit _))
  have htx : s2.rd Reg.LN.LATENCY.TX_LAT n = min 4095 m.txLat :=
    (rd_wr_same ..).trans (hfit _)
  split
  · exact ⟨by simpa [rd_wr_ne] using hrx, by simpa [rd_wr_ne] using htx⟩
  · exact ⟨hrx, htx⟩

/-- The SNRs of an M400-P4 lane, and its margin beside that of PAM6 (R57, R97, R98). -/
theorem surveyShown_p4 {s : State} {snr mfb : Nat} (m : SurveyIn) (hm : s.mode n = 4)
    (hc : s.rd Reg.LN.FMT_CFG.CONST n = 0) (hsnr : snr < 65536) (hmfb : mfb < 65536) :
    (s.surveyShown n snr mfb m).rd Reg.LN.RX_SNR.SNR_EQ n = snr ∧
      (s.surveyShown n snr mfb m).rd Reg.LN.RX_SNR.SNR_MFB n = mfb ∧
      (s.surveyShown n snr mfb m).rd Reg.LN.CONST_ADV.MARGIN_P4 n = sat12 ((snr : Int) - 1680) ∧
      (s.surveyShown n snr mfb m).rd Reg.LN.CONST_ADV.MARGIN_P6 n = sat12 (m.other - 2090) := by
  have hsat (v : Int) : sat12 v % 2 ^ 12 = sat12 v := Nat.mod_eq_of_lt (by unfold sat12 patternOf; omega)
  have h6 : ¬ s.mode n = 6 := by rw [hm]; decide
  have hmargins : s.margins n snr m.other = ((snr : Int) - 1680, m.other - 2090) := by
    simp [margins, hc, requiredSnr]
  have hiso : isyon (s.mode n) = true := by simp [isyon, hm]
  unfold surveyShown
  extract_lets gap s1 s2 p
  have hs1 : s1 = ((s.wr Reg.LN.RX_SNR.SNR_EQ snr n).wr Reg.LN.RX_SNR.SNR_MFB mfb n).wr Reg.LN.RX_GAP.GAP
      (sat12 gap) n := if_neg h6
  have hp : p = ((snr : Int) - 1680, m.other - 2090) := hmargins
  rw [if_pos hiso, hp]
  refine ⟨?_, ?_, ?_, ?_⟩
  · simpa [s2, hs1, rd_wr_ne] using hsnr
  · simpa [s2, hs1, rd_wr_ne] using hmfb
  · simpa [rd_wr_ne] using hsat _
  · simpa using hsat _

/-- An ACTIVE survey validates the latencies, then advises. -/
theorem surveyFigures_adjusts (s : State) (n snr mfb : Nat) (m : SurveyIn) :
    Adjusts n (adviceKeys n) (s.wr Reg.LN.LATENCY.VALID 1 n) (s.surveyFigures n snr mfb m) := by
  have hconst {t : State} (h : Adjusts n (adviceKeys n) (s.wr Reg.LN.LATENCY.VALID 1 n) t) (other : Int) :
      Adjusts n (adviceKeys n) (s.wr Reg.LN.LATENCY.VALID 1 n) (t.surveyConst n snr other) :=
    .ite h (.ite (.setRx (.wr h (by simp [adviceKeys])))
      (.ite (.setRx (.wr h (by simp [adviceKeys]))) (.setRx h)))
  have hgap {t : State} (h : Adjusts n (adviceKeys n) (s.wr Reg.LN.LATENCY.VALID 1 n) t) (gap : Int) :
      Adjusts n (adviceKeys n) (s.wr Reg.LN.LATENCY.VALID 1 n) (t.surveyGap n gap) :=
    .ite (.ite (.wr (.setRx h) (by simp [adviceKeys])) (.setRx h))
      (.ite (.raise (.wr (.setRx h) (by simp [adviceKeys])) fun k hk => List.mem_append_right _ hk) (.setRx h))
  unfold surveyFigures
  extract_lets x gap _ s0 s1 s3 s4
  have h3 : Adjusts n (adviceKeys n) (s.wr Reg.LN.LATENCY.VALID 1 n) s3 :=
    ⟨rfl, .of_regs (by simp [s3, s1, s0]), by simp only [s3, s1, wr_rxOf, rxOf_setRx_same]; rfl⟩
  have h4 : Adjusts n (adviceKeys n) (s.wr Reg.LN.LATENCY.VALID 1 n) s4 := .ite (hconst h3 _) h3
  exact .ite (hgap (.wr h4 (by simp [adviceKeys])) _) h4

theorem surveyDegrade_regs (s : State) (n cw c u : Nat) : (s.surveyDegrade n cw c u).time = s.time ∧
    RegsBut s (s.surveyDegrade n cw c u) (degradeKeys n) ∧
    ((s.surveyDegrade n cw c u).rxOf n).seq = (s.rxOf n).seq := by
  have hs : RegsBut s s (degradeKeys n) := .of_regs rfl
  unfold surveyDegrade
  extract_lets st m x need len up dn s1
  have hx : (s1.rxOf n).seq = (s.rxOf n).seq := by rw [show s1.rxOf n = _ from rxOf_setRx_same s n _]
  split
  · exact ⟨rfl, hs, rfl⟩
  · clear_value up dn
    split
    · split
      · exact ⟨rfl, .wr hs (.head _), hx⟩
      · exact ⟨rfl, hs, hx⟩
    · split
      · exact ⟨raise_time .., .raise (.wr (t := s1) hs (.head _)) fun k hk => .tail _ hk,
          (congrArg RxX.seq (raise_rxOf ..)).trans hx⟩
      · exact ⟨rfl, hs, hx⟩

/-- Enough surveys in a row above the threshold raise FEC_DEGRADE (R101, R104). -/
theorem surveyDegrade_rises {s : State} {cw c u : Nat} (hn : n < 64) (h3 : s.lane n = 3) (h4 : s.mode n = 4)
    (hby : s.flag Reg.LN.FMT_CFG.INNER_BYPASS n = false) (hdeg : s.flag Reg.LN.RX_STAT.FEC_DEG n = false)
    (hcw : 0 < cw) (habove : berAbove c u cw 256 (s.rd Reg.LN.RX_THRESH.DEG_SET n) = true)
    (hneed : max 1 (s.rd Reg.LN.RX_THRESH.DEG_N n) ≤ (s.rxOf n).degUp + 1) :
    (s.surveyDegrade n cw c u).flag Reg.LN.RX_STAT.FEC_DEG n = true ∧
      (s.surveyDegrade n cw c u).flag Reg.EVT.LATCH.RAISED (laneSrc n 2) = true := by
  unfold surveyDegrade
  extract_lets st m x need len up dn s1
  have hup : up = x.degUp + 1 := if_pos (by rw [show len = 256 by simp [len, m, h4, innerLength, m200], habove])
  have hrun : ¬((st ≠ 3 ∧ st ≠ 4) ∨ cw = 0 ∨ m = 1 ∨ s.flag Reg.LN.FMT_CFG.INNER_BYPASS n) := by
    simp [st, m, h3, h4, hby]
    omega
  rw [if_neg hrun, if_neg (by simp [hdeg]), if_pos (hup ▸ hneed)]
  have hsrc : laneSrc n 2 < 608 := by unfold laneSrc; omega
  refine ⟨flag_eq_true _ ?_, raise_latch _ _ _ hsrc⟩
  rw [raise_rd _ _ _ _ _ _ (by simp; omega) (by simp; omega), rd_wr_same]
  rfl

end State

end Sys2Proof.Machine
end

section
/-! A survey period as a whole (R97 to R106). -/

namespace Sys2Proof.Machine

/-! ## The lane engine's part -/

/-- What a survey writes once its figures show. -/
def laterKeys (n : Nat) : List Nat :=
  Reg.LN.LATENCY.VALID.key n 0 :: adviceKeys n ++ degradeKeys n ++ tuneKeys n

/-- What a survey writes, its clock recovery at the stop aside. -/
def surveyKeys (n : Nat) : List Nat := Reg.LN.CDR.FREQ.key n 0 :: (shownKeys n ++ laterKeys n)

/-- What the survey of lane `n` with the measurements `m` makes of the state `s` its clock recovery leaves (R57, R63, R97
to R104). -/
structure State.Surveyed (n : Nat) (m : SurveyIn) (s t : State) : Prop where
  time : t.time = s.time
  regs : RegsBut s t (surveyKeys n)
  seq : (t.rxOf n).seq = ((s.rxOf n).seq + 1) % 2 ^ 32
  record : ∃ v : SurveyRec, (t.rxOf n).hist = (v :: (s.rxOf n).hist).take 1024 ∧ v.seq = (s.rxOf n).seq % 2 ^ 32 ∧
    v.flags % 8 = s.lane n % 8 ∧ v.cw = (s.rd Reg.LN.DEC_CW.COUNT n - (s.rxOf n).cw0) % 2 ^ 32
  latency : s.mode n ≠ 0 → t.rd Reg.LN.LATENCY.RX_LAT n = min 4095 m.rxLat ∧
    t.rd Reg.LN.LATENCY.TX_LAT n = min 4095 m.txLat
  valid : s.lane n = 3 → t.flag Reg.LN.LATENCY.VALID n = true
  figures : s.mode n = 4 → s.rd Reg.LN.FMT_CFG.CONST n = 0 →
    let snr := snrEqOf 0 (s.rd Reg.LN.MLSE_CTRL.ALPHA1 n) (s.rd Reg.LN.MLSE_CTRL.ALPHA2 n) m.pe
    t.rd Reg.LN.RX_SNR.SNR_EQ n = snr ∧ t.rd Reg.LN.RX_SNR.SNR_MFB n = snrMfbOf 0 m.mfb ∧
      t.rd Reg.LN.CONST_ADV.MARGIN_P4 n = sat12 ((snr : Int) - 1680) ∧
      t.rd Reg.LN.CONST_ADV.MARGIN_P6 n = sat12 (m.other - 2090)
  degrade : n < 64 → s.lane n = 3 → s.mode n = 4 → s.flag Reg.LN.FMT_CFG.INNER_BYPASS n = false →
    s.flag Reg.LN.RX_STAT.FEC_DEG n = false → s.rd Reg.LN.DEC_CW.COUNT n - (s.rxOf n).cw0 ≠ 0 →
    berAbove (s.rd Reg.LN.DEC_CORR.COUNT n - (s.rxOf n).corr0) (s.rd Reg.LN.DEC_UNCORR.COUNT n - (s.rxOf n).uncorr0)
      (s.rd Reg.LN.DEC_CW.COUNT n - (s.rxOf n).cw0) 256 (s.rd Reg.LN.RX_THRESH.DEG_SET n) = true →
    max 1 (s.rd Reg.LN.RX_THRESH.DEG_N n) ≤ (s.rxOf n).degUp + 1 →
    t.flag Reg.LN.RX_STAT.FEC_DEG n = true ∧ t.flag Reg.EVT.LATCH.RAISED (laneSrc n 2) = true

/-- What shows the figures is not written again. -/
theorem shownKeys_not_later {n : Nat} : ∀ k ∈ shownKeys n, k ∉ laterKeys n := by
  simp only [shownKeys, List.forall_mem_cons]
  refine ⟨?_, ?_, ?_, ?_, ?_, ?_, ?_, fun _ hk => absurd hk List.not_mem_nil⟩ <;>
    (simp [laterKeys, adviceKeys, degradeKeys, tuneKeys, raiseKeys, laneSrc]; omega)

/-- What a survey keeps of the lane's state (R74, R76), unless it loses the clock. -/
theorem surveyKeys_state {n : Nat} :
    ∀ f ∈ [Reg.LN.RX_STAT.LANE_STATE, Reg.LN.RX_STAT.CDR_LOCK, Reg.LN.RX_STAT.ACQ_STEP],
      f.key n 0 ∉ surveyKeys n := by
  simp only [List.forall_mem_cons]
  refine ⟨?_, ?_, ?_, fun _ hf => absurd hf List.not_mem_nil⟩ <;>
    (simp [surveyKeys, shownKeys, laterKeys, adviceKeys, degradeKeys, tuneKeys, raiseKeys, laneSrc]; omega)

/-- What the FEC_DEGRADE condition reads. -/
def degradeFlds : List Fld :=
  [Reg.LN.RX_STAT.LANE_STATE, Reg.LN.FMT_CFG.MODE, Reg.LN.FMT_CFG.INNER_BYPASS, Reg.LN.RX_STAT.FEC_DEG,
    Reg.LN.RX_THRESH.DEG_SET, Reg.LN.RX_THRESH.DEG_N]

/-- What the FEC_DEGRADE condition reads is not written before it. -/
theorem degradeFlds_not_before {n : Nat} : ∀ f ∈ degradeFlds,
    f.key n 0 ∉ shownKeys n ++ Reg.LN.LATENCY.VALID.key n 0 :: adviceKeys n := by
  simp only [degradeFlds, List.forall_mem_cons]
  refine ⟨?_, ?_, ?_, ?_, ?_, ?_, fun _ hf => absurd hf List.not_mem_nil⟩ <;>
    (simp [shownKeys, adviceKeys, raiseKeys, laneSrc]; omega)

namespace State
variable {n : Nat}

theorem hodRewritten_frame (s : State) (w k : Nat) : (s.hodRewritten w k).regs = s.regs ∧
    (s.hodRewritten w k).rx = s.rx ∧ (s.hodRewritten w k).time = s.time := by
  induction k generalizing s w with
  | zero => exact ⟨rfl, rfl, rfl⟩
  | succ k ih => exact ih _ _

/-- The flags of a record begin with the lane's state (R102). -/
theorem surveyRec_state (s : State) (n snr mfb : Nat) (m : SurveyIn) (cw c u : Nat) (parted : Bool) :
    (s.surveyRec n snr mfb m cw c u parted).flags % 8 = s.lane n % 8 := by
  unfold surveyRec
  simp only
  omega

theorem Adjusts.takeLaneShot {keys : List Nat} {s t : State} (h : Adjusts n keys s t) :
    Adjusts n keys s (t.takeLaneShot n) := ⟨h.time, h.regs, h.book⟩

/-- What a survey does with its figures while the lane is ACTIVE, the only state in which it uses them. -/
theorem surveyFigures_active (active : Prop) [Decidable active] (s : State) (n snr mfb : Nat) (m : SurveyIn) :
    Adjusts n (Reg.LN.LATENCY.VALID.key n 0 :: adviceKeys n) s (if active then s.surveyFigures n snr mfb m else s) ∧
      (active → (if active then s.surveyFigures n snr mfb m else s).flag Reg.LN.LATENCY.VALID n = true) := by
  split
  · have hf := surveyFigures_adjusts s n snr mfb m
    have hv : RegsBut s (s.wr Reg.LN.LATENCY.VALID 1 n) [Reg.LN.LATENCY.VALID.key n 0] := .wr (.of_regs rfl) (.head _)
    refine ⟨⟨hf.time, hv.trans hf.regs, hf.book⟩, fun _ => flag_eq_true _ ?_⟩
    rw [hf.regs.rd (by simp [adviceKeys, raiseKeys, laneSrc]; omega), rd_wr_same]
    rfl
  · exact ⟨.refl s, fun h => absurd h ‹_›⟩

/-- The lane engine's part of a survey, after its clock recovery (R102). -/
theorem survey_surveyed (s0 : State) (n : Nat) (m : SurveyIn) :
    Surveyed n m (s0.surveyCdr n m) (s0.survey n m) := by
  unfold survey
  extract_lets s x const snr mfb cw c u sf s1 s2 r _ s3
  change Surveyed n m s _
  clear_value s
  have hsf : Adjusts n (shownKeys n) s sf := .ite (.refl s) (surveyShown_adjusts ..)
  obtain ⟨⟨ht1, hr1, hb1⟩, hv1⟩ : Adjusts n (Reg.LN.LATENCY.VALID.key n 0 :: adviceKeys n) sf s1 ∧
      (s.lane n = 3 → s1.flag Reg.LN.LATENCY.VALID n = true) := surveyFigures_active ..
  obtain ⟨ht2, hr2, hq2⟩ := surveyDegrade_regs s1 n cw c u
  obtain ⟨hregs, -, htime⟩ := hodRewritten_frame s2 (surveyWord n x.seq) 6
  have h3 : Adjusts n (tuneKeys n) s3 (if s3.lane n = 3 then
      ((((s3.surveySoft n m.p95).surveyCtle n m).surveyTarget n snr m).surveySeed n) else s3) :=
    .ite (.surveySeed (.surveyTarget (.surveyCtle (.surveySoft (.refl s3) _) _) _ _)) (.refl s3)
  obtain ⟨ht, hr, hb⟩ := h3.takeLaneShot
  generalize State.takeLaneShot _ n = t at ht hr hb ⊢
  have h23 : RegsBut s2 t (tuneKeys n) := fun k d hk => (hr k d hk).trans (congrArg (Tab.get d · k) hregs)
  have hlater : RegsBut sf t (laterKeys n) := (hr1.trans hr2).trans h23
  have hshown {f : Fld} (hf : f.key n 0 ∈ shownKeys n) : t.rd f n = sf.rd f n :=
    hlater.rd (shownKeys_not_later _ hf)
  have hlane : s2.lane n = s.lane n :=
    ((hr1.trans hr2).rd (by simp [adviceKeys, degradeKeys, raiseKeys, laneSrc]; omega)).trans
      (hsf.regs.rd (by simp [shownKeys]))
  obtain ⟨hseq, hhist, -⟩ := RxX.book_inj hb
  rw [show s3.rxOf n = _ from rxOf_setRx_same ..] at hseq hhist
  obtain ⟨hx, -, hup, -⟩ := RxX.book_inj (hb1.trans hsf.book)
  have hs1 : RegsBut s s1 (shownKeys n ++ Reg.LN.LATENCY.VALID.key n 0 :: adviceKeys n) := hsf.regs.trans hr1
  refine ⟨ht.trans (htime.trans (ht2.trans (ht1.trans hsf.time))),
    (hsf.regs.trans hlater).mono (List.subset_cons_self ..), hseq,
    ⟨r, hhist, congrArg (· % 2 ^ 32) (hq2.trans hx), (surveyRec_state ..).trans (congrArg (· % 8) hlane), rfl⟩,
    fun h0 => ?_, fun h3 => ?_, fun h4 hc => ?_, fun hn h3 h4 hby hdeg hcw habove hneed => ?_⟩
  · obtain ⟨hrx, htx⟩ := surveyShown_latency s n snr mfb m
    rw [show s.surveyShown n snr mfb m = sf from (if_neg h0).symm] at hrx htx
    exact ⟨(hshown (by simp [shownKeys])).trans hrx, (hshown (by simp [shownKeys])).trans htx⟩
  · unfold flag
    rw [h23.rd (by simp [tuneKeys]), hr2.rd (by simp [degradeKeys, raiseKeys, laneSrc]; omega)]
    exact hv1 h3
  · have hmode : ¬(s.mode n = 6 ∨ s.mode n = 0) := by omega
    have hsnr : snr = snrEqOf 0 (s.rd Reg.LN.MLSE_CTRL.ALPHA1 n) (s.rd Reg.LN.MLSE_CTRL.ALPHA2 n) m.pe :=
      (if_neg hmode).trans (congrArg (snrEqOf · _ _ _) hc)
    have hmfb : mfb = snrMfbOf 0 m.mfb := (if_neg hmode).trans (congrArg (snrMfbOf · _) hc)
    obtain ⟨heq, hbound, hp4, hp6⟩ :=
      surveyShown_p4 m h4 hc (snr := snr) (mfb := mfb) (hsnr ▸ centiDb_lt ..) (hmfb ▸ centiDb_lt ..)
    rw [show s.surveyShown n snr mfb m = sf from (if_neg (by omega)).symm] at heq hbound hp4 hp6
    rw [hsnr] at heq hp4
    rw [hmfb] at hbound
    exact ⟨(hshown (by simp [shownKeys])).trans heq, (hshown (by simp [shownKeys])).trans hbound,
      (hshown (by simp [shownKeys])).trans hp4, (hshown (by simp [shownKeys])).trans hp6⟩
  · have hin : ∀ f ∈ degradeFlds, s1.rd f n = s.rd f n := fun f hf => hs1.rd (degradeFlds_not_before f hf)
    simp only [degradeFlds, List.forall_mem_cons] at hin
    obtain ⟨hst, hmd, hbp, hfd, hset, hdn, -⟩ := hin
    unfold flag at hby hdeg
    obtain ⟨hraised, hlatch⟩ := surveyDegrade_rises (s := s1) (cw := cw) (c := c) (u := u) hn (hst.trans h3)
      (hmd.trans h4) (by rwa [flag, hbp]) (by rwa [flag, hfd]) (Nat.pos_of_ne_zero hcw) (by rwa [hset])
      (by rwa [hdn, hup])
    unfold flag at hraised hlatch ⊢
    rw [h23.rd (by simp [tuneKeys]), h23.rd (by simp [tuneKeys, laneSrc]; omega)]
    exact ⟨hraised, hlatch⟩

end State

end Sys2Proof.Machine
end

section
/-! A survey and the clock recovery, the watch of the slices, and the seeds of a lane (R82, R94, R102, R117, R350). -/

namespace Sys2Proof.Machine

namespace State
variable {s t u : State} {n : Nat}

/-! ## The clock recovery over a survey (R81, R82) -/

theorem cdrRun_adjusts (s : State) (n : Nat) (det : Int) (syms : Nat) :
    Adjusts n [Reg.LN.CDR.FREQ.key n 0] s (s.cdrRun n det syms) :=
  .ite (.refl s) (.setRx (.wr (.refl s) (.head _)))

theorem cdrRun_upTo (s : State) (at_ n : Nat) (det : Int) (syms : Nat) :
    (s.upTo at_).cdrRun n det syms = (s.cdrRun n det syms).upTo at_ := by
  by_cases h : s.flag Reg.LN.RX_CTRL.CDR_FREEZE n = true
  · rw [cdrRun, if_pos (show (s.upTo at_).flag Reg.LN.RX_CTRL.CDR_FREEZE n = true from h), cdrRun, if_pos h]
  · rw [cdrRun, if_neg (show ¬(s.upTo at_).flag Reg.LN.RX_CTRL.CDR_FREEZE n = true from h), cdrRun, if_neg h]
    rfl

theorem cdrRun_flag (s : State) {f : Fld} (hf : f.key n 0 ≠ Reg.LN.CDR.FREQ.key n 0) (det : Int) (syms : Nat) :
    (s.cdrRun n det syms).flag f n = s.flag f n :=
  congrArg (· % 2 == 1) ((cdrRun_adjusts s n det syms).regs.rd (mt List.mem_singleton.mp hf))

/-- The survey of the lane finds its accumulator at a stop and its lock held by it (R82). -/
def cdrStops (s : State) (n : Nat) (m : SurveyIn) : Prop :=
  s.cdrOn n = true ∧ s.flag Reg.LN.RX_STAT.CDR_LOCK n = true ∧ s.flag Reg.LN.RX_CTRL.CDR_FREEZE n = false ∧
    (s.cdrRun n m.det m.syms).cdrAtStop n = true

theorem cdrStops_upTo (s : State) (at_ n : Nat) (m : SurveyIn) : (s.upTo at_).cdrStops n m ↔ s.cdrStops n m := by
  unfold cdrStops
  rw [cdrRun_upTo]
  rfl

theorem surveyCdr_adjusts {m : SurveyIn} (h : ¬ s.cdrStops n m) :
    Adjusts n [Reg.LN.CDR.FREQ.key n 0] s (s.surveyCdr n m) := by
  have hr := cdrRun_adjusts s n m.det m.syms
  unfold surveyCdr
  extract_lets t
  split
  · exact .refl s
  · next hon =>
    refine (congrArg (Adjusts n _ s) (if_neg fun hstop => h ?_)).mpr hr
    simp only [t, cdrRun_flag s (f := Reg.LN.RX_STAT.CDR_LOCK) (n := n) (by simp),
      cdrRun_flag s (f := Reg.LN.RX_CTRL.CDR_FREEZE) (n := n) (by simp), Bool.and_eq_true,
      Bool.not_eq_true'] at hon hstop
    obtain ⟨⟨hat, hlock⟩, hfreeze⟩ := hstop
    exact ⟨eq_true_of_ne_false hon, hlock, hfreeze, hat⟩

theorem surveyCdr_stops {m : SurveyIn} (h : s.cdrStops n m) :
    s.surveyCdr n m = (s.cdrRun n m.det m.syms).cdrLost n := by
  obtain ⟨hon, hlock, hfreeze, hat⟩ := h
  refine (if_neg (by simp [hon])).trans (if_pos ?_)
  rw [cdrRun_flag s (by simp), cdrRun_flag s (by simp), hat, hlock, hfreeze]
  rfl

/-- An ACTIVE lane that loses CDR lock acquires again from step 5 (R75, R76). -/
theorem cdrLost_reads (hn : n < 64) (h3 : s.lane n = 3) (hlos : s.los n = false) :
    (s.cdrLost n).rd Reg.LN.RX_STAT.CDR_LOCK n = 0 ∧ (s.cdrLost n).lane n = 2 ∧
      (s.cdrLost n).rd Reg.LN.RX_STAT.ACQ_STEP n = 5 := by
  unfold cdrLost
  extract_lets s1 s2
  have h2 : s2.rd Reg.LN.RX_STAT.CDR_LOCK n = 0 ∧ s2.lane n = 3 ∧ s2.los n = false := by
    unfold lane los flag at *
    unfold s2 s1
    split
    · simpa [rd_wr_ne, h3] using hlos
    · simpa [rd_wr_ne, h3] using hlos
  obtain ⟨hlock, hlane, hl⟩ := h2
  rw [if_pos h3]
  have hs : Beside (s2.enterAcquire n 5) ((s2.enterAcquire n 5).slicesSettle n) := .slicesSettle hn (.refl _)
  refine ⟨?_, ?_, ?_⟩
  · rw [hs.rd (by decide) hn, enterAcquire_rd hn hlane (by decide) (by simp), hlock]
  · exact (hs.rd (by decide) hn).trans (enterAcquire_lane hn 5)
  · rw [hs.rd (by decide) hn, enterAcquire_step hn hlane hl (by decide)]

/-! ## The watch of the slices leaves the lane engine's part alone (R117, R120) -/

/-- From `s` to `t` the registers, the receive halves of the lanes and the time stand. -/
structure SameRx (s t : State) : Prop where
  regs : t.regs = s.regs
  rx : t.rx = s.rx
  time : t.time = s.time

namespace SameRx

theorem refl (s : State) : SameRx s s := ⟨rfl, rfl, rfl⟩

theorem setCal (h : SameRx s t) (x : CalX) : SameRx s (t.setCal n x) := ⟨h.regs, h.rx, h.time⟩

theorem setSlice (h : SameRx s t) (i : Nat) (x : SliceX) : SameRx s (t.setSlice n i x) := h.setCal _

theorem watchPos (h : SameRx s t) (m : SurveyIn) (p : Nat) : SameRx s (t.watchPos n m p) := by
  unfold State.watchPos
  split
  · exact h
  · next i _ =>
    extract_lets k _ s1 x y
    have h1 : SameRx s s1 := h.setSlice i _
    split
    · split
      · split
        · exact h1.setCal y
        · exact (h1.setSlice _ _).setCal _
      · exact h1.setCal y
    · exact h1

theorem watch (h : SameRx s t) (m : SurveyIn) : SameRx s (t.watch n m) := by
  unfold State.watch
  split
  · refine List.foldlRecOn (motive := SameRx s) _ _ h fun _ hb p _ => hb.watchPos m p
  · exact h

theorem writeRetireMap (h : SameRx s t) : SameRx s (t.writeRetireMap n) := by
  unfold State.writeRetireMap
  split
  · exact ⟨h.regs, h.rx, h.time⟩
  · exact h.setCal _

end SameRx

/-- SURVEY_END on a lane whose engine runs: the survey, and slices and retire map after it. -/
theorem exec_surveyEnd {n : LaneNo} (m : SurveyIn) (hon : s.courseOn (courseOf n) = true) (h0 : s.lane n ≠ 0)
    (heng : s.laneEngineOn n = true) :
    ∃ t, exec (.surveyEnd n m) s = .next t ∧ SameRx ((s.upTo (s.surveyAt n)).survey n m) t := by
  refine ⟨_, congrArg Host.Outcome.next (if_neg (by simp [hon, h0, heng])), ?_⟩
  have hw : SameRx _ (((s.upTo (s.surveyAt n)).survey n m).watch n m) := SameRx.watch (.refl _) m
  extract_lets s1
  split
  · exact hw.writeRetireMap
  · exact hw

theorem Surveyed.sameRx {m : SurveyIn} (h : Surveyed n m s t) (hu : SameRx t u) : Surveyed n m s u := by
  obtain ⟨htime, hregs, hseq, hrecord, hlatency, hvalid, hfigures, hdegrade⟩ := h
  have hx : u.rxOf n = t.rxOf n := by rw [rxOf, hu.rx, rxOf]
  have hr (f : Fld) (i : Nat) : u.rd f i = t.rd f i := rd_congr _ _ hu.regs ..
  have hf (f : Fld) (i : Nat) : u.flag f i = t.flag f i := congrArg (· % 2 == 1) (hr f i)
  constructor
  case time => exact hu.time.trans htime
  case regs => exact fun k d hk => (congrArg (Tab.get d · k) hu.regs).trans (hregs k d hk)
  all_goals simp only [hx, hr, hf]; assumption

/-- The clock recovery moves nothing that the survey after it reads. -/
theorem Surveyed.of_cdr {m : SurveyIn} (hu : Adjusts n [Reg.LN.CDR.FREQ.key n 0] s u) (h : Surveyed n m u t) :
    Surveyed n m s t := by
  obtain ⟨htime, hregs, hseq, hrecord, hlatency, hvalid, hfigures, hdegrade⟩ := h
  have hr {f : Fld} (hf : f.key n 0 ≠ Reg.LN.CDR.FREQ.key n 0) : u.rd f n = s.rd f n :=
    hu.regs.rd (mt List.mem_singleton.mp hf)
  obtain ⟨hxseq, hxhist, hxup, hxcw, hxcorr, hxuncorr⟩ := RxX.book_inj hu.book
  have hlane : u.lane n = s.lane n := hr (by simp)
  have hmode : u.mode n = s.mode n := hr (by simp)
  have hconst : u.rd Reg.LN.FMT_CFG.CONST n = s.rd Reg.LN.FMT_CFG.CONST n := hr (by simp)
  have ha1 : u.rd Reg.LN.MLSE_CTRL.ALPHA1 n = s.rd Reg.LN.MLSE_CTRL.ALPHA1 n := hr (by simp)
  have ha2 : u.rd Reg.LN.MLSE_CTRL.ALPHA2 n = s.rd Reg.LN.MLSE_CTRL.ALPHA2 n := hr (by simp)
  have hcw : u.rd Reg.LN.DEC_CW.COUNT n = s.rd Reg.LN.DEC_CW.COUNT n := hr (by simp)
  have hcorr : u.rd Reg.LN.DEC_CORR.COUNT n = s.rd Reg.LN.DEC_CORR.COUNT n := hr (by simp)
  have huncorr : u.rd Reg.LN.DEC_UNCORR.COUNT n = s.rd Reg.LN.DEC_UNCORR.COUNT n := hr (by simp)
  have hset : u.rd Reg.LN.RX_THRESH.DEG_SET n = s.rd Reg.LN.RX_THRESH.DEG_SET n := hr (by simp)
  have hdn : u.rd Reg.LN.RX_THRESH.DEG_N n = s.rd Reg.LN.RX_THRESH.DEG_N n := hr (by simp)
  have hby : u.flag Reg.LN.FMT_CFG.INNER_BYPASS n = s.flag Reg.LN.FMT_CFG.INNER_BYPASS n :=
    congrArg (· % 2 == 1) (hr (by simp))
  have hdeg : u.flag Reg.LN.RX_STAT.FEC_DEG n = s.flag Reg.LN.RX_STAT.FEC_DEG n :=
    congrArg (· % 2 == 1) (hr (by simp))
  rw [hxseq] at hseq
  simp only [hlane, hmode, hconst, ha1, ha2, hcw, hcorr, huncorr, hset, hdn, hby, hdeg, hxseq, hxhist, hxup, hxcw,
    hxcorr, hxuncorr] at hrecord hlatency hvalid hfigures hdegrade
  have hkeys : RegsBut s u (surveyKeys n) := hu.regs.mono (by simp [surveyKeys])
  exact ⟨htime.trans hu.time, fun k d hk => (hregs k d hk).trans (hkeys k d hk), hseq, hrecord, hlatency, hvalid,
    hfigures, hdegrade⟩

/-- The state of the lane after a survey is the one its clock recovery left. -/
theorem Surveyed.state {m : SurveyIn} (h : Surveyed n m s t) : t.lane n = s.lane n ∧
    t.rd Reg.LN.RX_STAT.CDR_LOCK n = s.rd Reg.LN.RX_STAT.CDR_LOCK n ∧
    t.rd Reg.LN.RX_STAT.ACQ_STEP n = s.rd Reg.LN.RX_STAT.ACQ_STEP n :=
  ⟨h.regs.rd (surveyKeys_state _ (by simp)), h.regs.rd (surveyKeys_state _ (by simp)),
    h.regs.rd (surveyKeys_state _ (by simp))⟩

end State

/-! ## SURVEY_END (R82, R102) -/

section
variable {s : State} {n : LaneNo} {m : SurveyIn} (hon : s.courseOn (courseOf n) = true) (h0 : s.lane n ≠ 0)
  (heng : s.laneEngineOn n = true)
include hon h0 heng

theorem surveyEnd_stops (h : s.cdrStops n m) (h3 : s.lane n = 3) (hlos : s.los n = false) :
    Gives (.surveyEnd n m) s fun t =>
      t.flag Reg.LN.RX_STAT.CDR_LOCK n = false ∧ t.lane n = 2 ∧ t.rd Reg.LN.RX_STAT.ACQ_STEP n = 5 := by
  obtain ⟨t, he, ht⟩ := State.exec_surveyEnd m hon h0 heng
  rw [← State.cdrStops_upTo s (s.surveyAt n)] at h
  have hr := State.cdrRun_adjusts (s.upTo (s.surveyAt n)) n m.det m.syms
  have hs := State.survey_surveyed (s.upTo (s.surveyAt n)) n m
  rw [State.surveyCdr_stops h] at hs
  obtain ⟨hlane, hlock, hstep⟩ := (hs.sameRx ht).state
  obtain ⟨hlock', hlane', hstep'⟩ := State.cdrLost_reads n.isLt
    ((hr.regs.rd (f := Reg.LN.RX_STAT.LANE_STATE) (by simp)).trans h3) ((State.cdrRun_flag _ (by simp) _ _).trans hlos)
  exact .of he ⟨State.flag_eq_false _ (hlock.trans hlock'), hlane.trans hlane', hstep.trans hstep'⟩

theorem surveyEnd_surveyed (h : ¬ s.cdrStops n m) :
    Gives (.surveyEnd n m) s (State.Surveyed n m (s.upTo (s.surveyAt n))) := by
  obtain ⟨t, he, ht⟩ := State.exec_surveyEnd m hon h0 heng
  rw [← State.cdrStops_upTo s (s.surveyAt n)] at h
  exact .of he (.of_cdr (State.surveyCdr_adjusts h) ((State.survey_surveyed _ n m).sameRx ht))

end

end Sys2Proof.Machine
end

section
/-! Seeds by command, and what the survey and the seeds come to (R94, R102, R350). -/

namespace Sys2Proof.Machine

/-! ## SEED_SAVE and SEED_ERASE (R350) -/

theorem chkSeedSave_bad {u : State} {f : Flight}
    (h : u.lane f.e.target.toNat ≠ 3 ∨ u.anyFreeze f.e.target.toNat = true) :
    chkSeedSave u f = some { st := .badField } := if_pos h

theorem chkSeedSave_good {u : State} {f : Flight} (h3 : u.lane f.e.target.toNat = 3)
    (hfree : u.anyFreeze f.e.target.toNat = false) :
    chkSeedSave u f = if u.nvmOpen then none else some { st := .nvmTemp } := by
  refine (if_neg (by simp [h3, hfree])).trans ?_
  cases u.nvmOpen <;> rfl

theorem State.writeSeed_same (s : State) (n : Nat) : Tab.get none (s.writeSeed n).seeds n = some (s.makeSeed n) :=
  Tab.get_set_same none s.seeds n (some (s.makeSeed n))

theorem State.writeSeed_ne (s : State) {n k : Nat} (h : k ≠ n) :
    Tab.get none (s.writeSeed n).seeds k = Tab.get none s.seeds k :=
  Tab.get_set_ne none none s.seeds n k (some (s.makeSeed n)) h

section
variable {s u : State} {r : RingNo} {e : Entry} {d : Dma} {f : Flight}

theorem seedSave_settles (ht : Taken s .seedSave r e d u f) :
    let n := f.e.target.toNat
    (u.lane n ≠ 3 ∨ u.anyFreeze n = true → Finishes (.seedSave r e d) s r f { st := .badField } fun t => t = u) ∧
    (u.lane n = 3 → u.anyFreeze n = false → u.nvmOpen = false →
      Finishes (.seedSave r e d) s r f { st := .nvmTemp } fun t => t = u) ∧
    (u.lane n = 3 → u.anyFreeze n = false → u.nvmOpen = true →
      Finishes (.seedSave r e d) s r f {} fun t => t = (u.setPhase r f.fid .running).writeSeed n) := by
  refine ⟨fun hbad => ?_, fun h3 hfree hnvm => ?_, fun h3 hfree hnvm => ?_⟩
  · exact ⟨u, congrArg Host.Outcome.next (State.serve_refused ht _ (chkSeedSave_bad hbad)), rfl⟩
  · have hc : chkSeedSave u f = some { st := .nvmTemp } := (chkSeedSave_good h3 hfree).trans (if_neg (by simp [hnvm]))
    exact ⟨u, congrArg Host.Outcome.next (State.serve_refused ht _ hc), rfl⟩
  · have hc : chkSeedSave u f = none := (chkSeedSave_good h3 hfree).trans (if_pos hnvm)
    exact ⟨_, congrArg Host.Outcome.next (State.serve_taken ht hc), rfl⟩

theorem seedErase_settles (ht : Taken s .seedErase r e d u f) :
    let n := f.e.target.toNat
    (u.nvmOpen = false → Finishes (.seedErase r e d) s r f { st := .nvmTemp } fun t => t = u) ∧
    (u.nvmOpen = true → Finishes (.seedErase r e d) s r f {} fun t => Tab.get none t.seeds n = none ∧ t.regs = u.regs ∧
      ∀ k, k ≠ n → Tab.get none t.seeds k = Tab.get none u.seeds k) := by
  refine ⟨fun hnvm => ?_, fun hnvm => ?_⟩
  · have hc : chkNvm u f = some { st := .nvmTemp } := if_neg (by simp [hnvm])
    exact ⟨u, congrArg Host.Outcome.next (State.serve_refused ht _ hc), rfl⟩
  · have hc : chkNvm u f = none := if_pos hnvm
    exact ⟨_, congrArg Host.Outcome.next (State.serve_taken ht hc), Tab.get_set_same none u.seeds f.e.target.toNat none,
      rfl, fun k hk => Tab.get_set_ne none none u.seeds f.e.target.toNat k none hk⟩

end

theorem berAbove_of {c u n len thr : Nat} (h : thr % 16 * (len * n) < (c + 3 * u) * 10 ^ (thr / 16))
    (hthr : thr % 16 ≠ 0) : berAbove c u n len thr = true := by
  simp [berAbove, h, hthr]

/-- Settles O47: `surveyEnd_surveyed` for a survey that keeps its clock and `surveyEnd_stops` for one that loses it,
`seedSave_settles` and `seedErase_settles` for the seeds. -/
theorem surveysAndSeeds : Obligations.SurveysAndSeeds := by
  refine ⟨?_, ?_, fun s u r e d f ht => seedErase_settles ht⟩
  · intro n m s hon h0 heng x lost
    refine ⟨fun hl h3 hlos => surveyEnd_stops hon h0 heng hl h3 hlos, fun hl => ?_⟩
    obtain ⟨t, he, ht⟩ := surveyEnd_surveyed hon h0 heng hl
    obtain ⟨hlane, -, -⟩ := ht.state
    refine .of he ⟨ht.time, ht.seq, ht.record, hlane, ht.latency, ht.valid, ht.figures, ?_⟩
    intro h3 h4 hby hdeg cw bits thr hcw habove hthr hneed
    exact ht.degrade n.isLt h3 h4 hby hdeg (Nat.ne_of_gt hcw) (berAbove_of habove hthr) hneed
  · intro s u r e d f ht n
    obtain ⟨hbad, hclosed, hsaved⟩ := seedSave_settles ht
    refine ⟨hbad, hclosed, fun h3 hfree hnvm => ?_⟩
    obtain ⟨_, he, rfl⟩ := hsaved h3 hfree hnvm
    exact ⟨_, he, rfl, rfl, fun k hk => State.writeSeed_ne _ hk, _, State.writeSeed_same _ n, rfl, rfl, rfl,
      rfl, rfl, rfl, rfl⟩

end Sys2Proof.Machine
end

section
/-! What a lane that returns to ACQUIRE and the rotation of its slices carry on: every event that is latched stays
latched (R501), and the taps of the lane stand (R75, R84). `Beside` speaks of the lane blocks alone, and the latches
stand outside them. -/

namespace Sys2Proof.Machine

/-- From `s₀` to `s` every event that is latched stays latched, and the taps of lane `n` stand. `ok` says that the last
write was beyond the latches; where the field is a constant, unification finds it to be `true`. -/
def State.Carries (n : Nat) (s₀ s : State) (ok : Bool := true) : Prop :=
  ok = true → (s.rxOf n).taps = (s₀.rxOf n).taps ∧
    ∀ k < 608, s₀.flag Reg.EVT.LATCH.RAISED k = true → s.flag Reg.EVT.LATCH.RAISED k = true

/-- A field that stands beyond the event latches, as its constant shows. -/
def Fld.pastLatch (f : Fld) : Bool := Nat.ble 0x7E4C f.addr

theorem Fld.pastLatch_key {f : Fld} (hf : f.pastLatch = true) {k : Nat} (hk : k < 608) (i j : Nat) :
    Reg.EVT.LATCH.RAISED.key k 0 ≠ f.key i j := by
  rw [pastLatch, Nat.ble_eq] at hf
  rw [Reg.EVT.LATCH.RAISED_key, Fld.key]
  omega

namespace State.Carries
variable {n : Nat} {s₀ s t : State}

theorem refl (s : State) : Carries n s s := fun _ => ⟨rfl, fun _ _ h => h⟩

theorem taps (h : Carries n s₀ s) : (s.rxOf n).taps = (s₀.rxOf n).taps := (h rfl).1

theorem latch (h : Carries n s₀ s) {k : Nat} (hk : k < 608) (hl : s₀.flag Reg.EVT.LATCH.RAISED k = true) :
    s.flag Reg.EVT.LATCH.RAISED k = true := (h rfl).2 k hk hl

theorem trans (h : Carries n s₀ s) (ht : Carries n s t) : Carries n s₀ t := fun _ =>
  ⟨ht.taps.trans h.taps, fun _ hk hl => ht.latch hk (h.latch hk hl)⟩

/-- An update of other parts of the state: one record update, whatever its fields. -/
theorem keep
    {time freeCtr out phase rings fns arb vecs vfEnable raises held doorHeld pwr cores engMap failed subst therm
     sec upd twin tests hod tx cal bst shots epoch host htx chk seeds retire bgFused bgHigh bgLow mortar bias
     scv dec cmis eng tapIr pending}
    (h : Carries n s₀ s) :
    Carries n s₀ ⟨time, pending, freeCtr, out, phase, s.regs, rings, fns, arb, vecs, vfEnable, raises, held, doorHeld,
      pwr, cores, engMap, failed, subst, therm, sec, upd, twin, tests, hod, s.rx, tx, cal, bst, shots, epoch,
      host, htx, chk, seeds, retire, bgFused, bgHigh, bgLow, mortar, bias, scv, dec, cmis, eng, tapIr⟩ := h

theorem ite {c : Prop} [Decidable c] (ht : Carries n s₀ s) (he : Carries n s₀ t) :
    Carries n s₀ (if c then s else t) := by
  split
  · exact ht
  · exact he

theorem foldl {α : Type} {f : State → α → State} {xs : List α} (hf : ∀ {t x}, Carries n s₀ t → Carries n s₀ (f t x))
    (h : Carries n s₀ s) : Carries n s₀ (xs.foldl f s) := by
  induction xs generalizing s with
  | nil => exact h
  | cons x xs ih => exact ih (hf h)

theorem setRx {x : RxX} (h : Carries n s₀ s) (hx : x.taps = (s.rxOf n).taps := by rfl) :
    Carries n s₀ (s.setRx n x) := fun _ =>
  ⟨(congrArg RxX.taps (rxOf_setRx_same s n x)).trans (hx.trans h.taps), fun _ hk hl => h.latch hk hl⟩

theorem wr {f v i j} (h : Carries n s₀ s) : Carries n s₀ (s.wr f v i j) f.pastLatch := fun hf =>
  ⟨h.taps, fun k hk hl => by
    rw [flag, rd_wr_ne _ _ _ _ _ _ _ _ (Fld.pastLatch_key hf hk i j)]
    exact h.latch hk hl⟩

theorem wrB {f b i j} (h : Carries n s₀ s) : Carries n s₀ (s.wrB f b i j) f.pastLatch := .wr h

theorem count {f m i j} (h : Carries n s₀ s) : Carries n s₀ (s.count f m i j) f.pastLatch := .wr h

theorem countWrap {f m i j} (h : Carries n s₀ s) : Carries n s₀ (s.countWrap f m i j) f.pastLatch := .wr h

/-- A raise sets one more latch. -/
theorem raise {src detail} (h : Carries n s₀ s) : Carries n s₀ (s.raise src detail) := by
  intro _
  refine ⟨(congrArg RxX.taps (raise_rxOf ..)).trans h.taps, fun k hk hl => ?_⟩
  rw [flag, rd_congr _ _ (raise_regs ..), rd_wr_ne _ _ _ _ _ _ _ _ (Fld.pastLatch_key (by decide) hk 0 0)]
  by_cases hs : k = src
  · rw [hs, rd_wr_same]
    rfl
  · rw [rd_wr_ne _ _ _ _ _ _ _ _ (by simpa using hs)]
    exact h.latch hk hl

theorem raiseRise {before after src detail} (h : Carries n s₀ s) :
    Carries n s₀ (s.raiseRise before after src detail) := .ite (.raise h) h

/-! ## Completions and captures (R303, R304, R346, R394 to R405) -/

theorem signal {r v} (h : Carries n s₀ s) : Carries n s₀ (s.signal r v) :=
  have owed {t : State} (ht : Carries n s₀ t) : Carries n s₀ (t.sendOwed r) :=
    .foldl (fun hu => .ite (.keep hu) (.keep hu)) (.keep ht)
  .ite h (.ite (.wr h) (.ite (owed (.keep h)) (.keep h)))

theorem flush {r fs} (h : Carries n s₀ s) : Carries n s₀ (s.flush r fs) := by
  induction fs generalizing s with
  | nil => exact .keep h
  | cons f fs ih =>
    unfold State.flush
    split
    · exact ih (.signal (.ite (.wr (.wr (.keep h))) (.wr (.keep h))))
    · exact .keep h

theorem hodRewritten {w k} (h : Carries n s₀ s) : Carries n s₀ (s.hodRewritten w k) := by
  induction k generalizing s w with
  | zero => exact h
  | succ k ih => exact ih (.keep h)

theorem finish {o res} (h : Carries n s₀ s) : Carries n s₀ (s.finish o res) := by
  have logged {x : MirrorLog} : Carries n s₀ (s.logMirror x) := .hodRewritten (.keep h)
  unfold State.finish
  split
  · extract_lets fs
    split
    · exact h
    · extract_lets _ s1
      have h1 : Carries n s₀ s1 := by
        unfold s1
        split
        · exact logged
        · exact h
      exact .flush h1
  · exact .keep (.ite (.wr (.keep (.ite logged h))) (.keep (.ite logged h)))
  · exact h
  · exact h

theorem fieldRepair {sub col which} (h : Carries n s₀ s) : Carries n s₀ (s.fieldRepair sub col which) :=
  have saved {t : State} (ht : Carries n s₀ t) : Carries n s₀ t.saveOverlay := .ite (.wr (.keep ht)) (.wr (.keep ht))
  .ite h (.ite (.raiseRise (.wr h)) (saved (.raise (.wr (.keep h)))))

theorem setHodWord {w x} (h : Carries n s₀ s) : Carries n s₀ (s.setHodWord w x) := .wr (.keep h)

theorem hodUncorr {w src quiet} (h : Carries n s₀ s) : Carries n s₀ (s.hodUncorr w src quiet) :=
  .ite (.wr (.wr (.wr (.count h)))) (.raise (.wr (.wr (.wr (.count h)))))

theorem readUncorr {w src v quiet} (h : Carries n s₀ s) : Carries n s₀ (s.readUncorr w src v quiet) :=
  .setHodWord (.fieldRepair (.hodUncorr h))

theorem readCorr {w bit scrub} (h : Carries n s₀ s) : Carries n s₀ (s.readCorr w bit scrub) := by
  unfold State.readCorr
  extract_lets _ _ _ _ _ _ _ _ _ _ _ s3
  have h3 : Carries n s₀ s3 := .ite (.fieldRepair (.keep (.count h))) (.keep (.count h))
  exact .ite (.fieldRepair h3) h3

theorem hodWriteWord {w at_ new ecc} (h : Carries n s₀ s) : Carries n s₀ (s.hodWriteWord w at_ new ecc) := by
  have put {t : State} {x} (ht : Carries n s₀ t) : Carries n s₀ (t.setHodWord w x) := .setHodWord ht
  unfold State.hodWriteWord
  split
  · exact put h
  · split
    · exact put h
    · extract_lets bank
      split
      · split
        · exact put (.hodUncorr (.keep h))
        · split
          · exact put (.readUncorr (.keep h))
          · exact put (.ite (.count (.keep h)) (.keep h))
      · split
        · exact put (.hodUncorr h)
        · split
          · exact put h
          · split
            · exact put (.readCorr h)
            · exact put (.readUncorr (.keep h))

theorem storeRows {rs bs} (h : Carries n s₀ s) : Carries n s₀ (s.storeRows rs bs) := by
  have stored {ecc fuel} : ∀ {t : State} {ofs bs}, Carries n s₀ t → Carries n s₀ (t.hodWrite ecc fuel ofs bs) := by
    induction fuel with
    | zero => exact fun ht => ht
    | succ m ih =>
      intro t ofs bs ht
      cases bs with
      | nil => exact ht
      | cons b bs => exact ih (.hodWriteWord ht)
  induction rs generalizing s bs with
  | nil => exact h
  | cons r rs ih =>
    cases bs with
    | nil => exact h
    | cons b bs => exact ih (stored h)

theorem stopCapture {l} (h : Carries n s₀ s) : Carries n s₀ (s.stopCapture l) := by
  unfold State.stopCapture
  split
  · exact h
  · exact .ite (.finish (.keep h)) (.finish (.storeRows (.keep (.keep (.keep h)))))

/-! ## Host lanes (R49, R218 to R228) -/

theorem hostUnaligned {k} (h : Carries n s₀ s) : Carries n s₀ (s.hostUnaligned k) := by
  unfold State.hostUnaligned
  extract_lets f
  refine .ite (.wr (.wr ?_)) h
  unfold f
  split
  · exact .wr h
  · exact .wr h

theorem refreshSig {k} (h : Carries n s₀ s) : Carries n s₀ (s.refreshSig k) :=
  .ite h (.raiseRise (.wr (.wrB (.ite h (.hostUnaligned h)))))

theorem refreshHost {k} (h : Carries n s₀ s) : Carries n s₀ (s.refreshHost k) := by
  have trains : Carries n s₀ (s.startTraining k) := .refreshSig (.hostUnaligned (.wr (.wr (.wr (.wr (.keep h))))))
  have data : Carries n s₀ (s.enterData k false) := .refreshSig (.ite (.keep (.wr h)) (.wr (.wr (.keep (.wr h)))))
  unfold State.refreshHost
  extract_lets _ _ _ _ s3 _ s1
  have h3 : Carries n s₀ s3 := .ite (.wr (.wr (.keep h))) (.wr (.keep h))
  have h1 : Carries n s₀ s1 := by
    refine .ite ?_ ?_
    · exact .ite (.wr h) (.ite trains (.ite h data))
    · exact .refreshSig (.ite (.wr (.hostUnaligned (.wr h3))) (.hostUnaligned (.wr h3)))
  exact .ite h1 (.keep (.wr (.wr (.wr (.wr h1)))))

/-! ## Slices and groups (R111 to R128) -/

theorem abandonGroup {l} (h : Carries n s₀ s) : Carries n s₀ (s.abandonGroup l) := by
  refine .ite h ?_
  unfold State.cutGroup
  split
  · exact h
  · exact .wr (.keep h)

end State.Carries

namespace State
variable {n : Nat}

/-- From `s` to `t` what the slices of the lanes hold changes, and nothing else. -/
def OnlyCal (s t : State) : Prop := ∃ c, t = { s with cal := c }

namespace OnlyCal
variable {s t u : State}

theorem refl (s : State) : OnlyCal s s := ⟨s.cal, rfl⟩

theorem setCal {x : CalX} (h : OnlyCal s t) : OnlyCal s (t.setCal n x) := by
  obtain ⟨c, rfl⟩ := h
  exact ⟨_, rfl⟩

theorem setSlice {i : Nat} {x : SliceX} (h : OnlyCal s t) : OnlyCal s (t.setSlice n i x) := .setCal h

theorem ite {c : Prop} [Decidable c] (ht : OnlyCal s t) (hu : OnlyCal s u) : OnlyCal s (if c then t else u) := by
  split
  · exact ht
  · exact hu

theorem abandonCal (h : OnlyCal s t) : OnlyCal s (t.abandonCal n) := by
  unfold State.abandonCal
  split
  · exact .setCal (.setSlice h)
  · exact h

theorem abandonShadow (h : OnlyCal s t) : OnlyCal s (t.abandonShadow n) := by
  unfold State.abandonShadow
  split
  · exact .setCal (.setSlice h)
  · exact h

theorem startCal (h : OnlyCal s t) : OnlyCal s (t.startCal n) := by
  unfold State.startCal
  refine .ite ?_ h
  split
  · exact .ite (.setCal (.setSlice (.setCal h))) (.setSlice (.setCal h))
  · exact h

/-- Steps that are abandoned, and those that begin (R111, R116). -/
theorem steps (h : OnlyCal s t) : OnlyCal s ((t.abandonSteps n).startCal n) := by
  have hcal : OnlyCal s (if t.calAllowed n then t else t.abandonCal n) := .ite h (.abandonCal h)
  exact .startCal (.ite hcal (.abandonShadow hcal))

end OnlyCal

/-- A swap counts itself and shows whether a slice is suspect (R112, R123); the rest is in the slices. -/
theorem sliceSwap_eq (s : State) (n i : Nat) :
    ∃ u v, OnlyCal s u ∧ s.sliceSwap n i = (u.countWrap Reg.LN.SLICE_STAT.SWAPS 1 n).setSuspect n v := by
  unfold sliceSwap
  extract_lets _ s1 _ s2 _ s3
  have h1 : OnlyCal s s1 := by
    unfold s1
    split
    · exact .setCal (.setSlice (.refl s))
    · exact .refl s
  exact ⟨s3, _, .setCal (.setSlice h1), rfl⟩

/-- Rotation changes what the slices of the lane hold, and shows the swap where one is due (R111, R114, R116). -/
theorem slicesSettle_eq (s : State) (n : Nat) : OnlyCal s (s.slicesSettle n) ∨ (s.calOf n).swapDue = true ∧
    ∃ u v, OnlyCal s u ∧
      OnlyCal ((u.countWrap Reg.LN.SLICE_STAT.SWAPS 1 n).setSuspect n v) (s.slicesSettle n) := by
  unfold slicesSettle swapIfDue
  split
  · split
    · next hdue =>
      simp only [Bool.and_eq_true] at hdue
      obtain ⟨⟨hdue, -⟩, -⟩ := hdue
      split
      · next i _ =>
        obtain ⟨u, v, hu, hswap⟩ := sliceSwap_eq s n i
        rw [hswap]
        exact .inr ⟨hdue, u, v, hu, .steps (.refl _)⟩
      · exact .inl (.steps (.setCal (.refl s)))
    · exact .inl (.steps (.refl s))
  · exact .inl (.refl s)

theorem OnlyCal.rxOf {s t : State} (h : OnlyCal s t) (m : Nat) : t.rxOf m = s.rxOf m := by
  obtain ⟨c, rfl⟩ := h
  rfl

@[simp] theorem slicesSettle_rxOf (s : State) (n m : Nat) : (s.slicesSettle n).rxOf m = s.rxOf m := by
  obtain h | ⟨-, u, v, hu, h⟩ := slicesSettle_eq s n
  · exact h.rxOf m
  · refine (h.rxOf m).trans (Eq.trans ?_ (hu.rxOf m))
    unfold setSuspect raiseRise
    split
    · exact raise_rxOf ..
    · rfl

/-- Rotation raises nothing but what a swap shows (R112, R123). -/
theorem slicesSettle_noRaise {s : State} (h : (s.calOf n).swapDue = false) : NoRaise s (s.slicesSettle n) := by
  obtain ⟨c, hc⟩ | ⟨hdue, -⟩ := slicesSettle_eq s n
  · rw [hc]
    exact ⟨rfl, rfl⟩
  · simp [h] at hdue

namespace Carries
variable {s₀ s t : State}

theorem onlyCal (h : Carries n s₀ s) (ht : OnlyCal s t) : Carries n s₀ t := by
  obtain ⟨c, rfl⟩ := ht
  exact .keep h

theorem slicesSettle {l} (h : Carries n s₀ s) : Carries n s₀ (s.slicesSettle l) := by
  obtain hc | ⟨-, u, v, hu, hc⟩ := slicesSettle_eq s l
  · exact h.onlyCal hc
  · exact onlyCal (.raiseRise (.wr (.countWrap (h.onlyCal hu)))) hc

theorem leaveActive (h : Carries n s₀ s) : Carries n s₀ (s.leaveActive n) := .setRx (.wr (.wr (.wr (.wr (.keep h)))))

/-- A lane that returns from ACTIVE to ACQUIRE keeps its coefficients (R75). -/
theorem enterAcquire {step : Nat} (h3 : s.lane n = 3) : Carries n s (s.enterAcquire n step) := by
  have hlane : Carries n s (s.setLane n 2) := by
    unfold State.setLane
    extract_lets old s1 s2 s3 s4 _ s5 s6 s7 s8
    have h1 : Carries n s s1 := .ite (.refl s) (.stopCapture (.refl s))
    have h2 : Carries n s s2 := .ite (.leaveActive h1) h1
    have h4 : Carries n s s4 := by
      rwa [show s4 = s2 from (if_neg (by simp [old, h3])).trans (if_neg (by simp [old, h3]))]
    have h5 : Carries n s s5 := .setRx (.wr h4)
    have h8 : s8 = s5 := (if_neg (by decide)).trans ((if_neg (by decide)).trans (if_pos rfl))
    rw [h8]
    exact .slicesSettle (.abandonGroup (.ite (.refreshHost (.refreshHost h5)) (.wr (.refreshHost (.refreshHost h5)))))
  unfold State.enterAcquire
  generalize s.setLane n 2 = t at hlane
  exact .setRx (.wr (.wr hlane))

end Carries

end State

end Sys2Proof.Machine
end

section
/-! Loss of signal, automatic gain and clock recovery of a lane (R75, R76, R79 to R82, R104, R172). -/

namespace Sys2Proof.Machine

theorem laneSrc_lt {n k : Nat} (hn : n < 64) (hk : k < 7) : laneSrc n k < 608 := by
  unfold laneSrc
  omega

theorem NoRaise.trans {s t u : State} (h : NoRaise s t) (h' : NoRaise t u) : NoRaise s u := by
  obtain ⟨hraises, hheld⟩ := h
  obtain ⟨hraises', hheld'⟩ := h'
  exact ⟨hraises'.trans hraises, hheld'.trans hheld⟩

namespace State
variable {s : State} {n : Nat}

theorem flag_congr {s t : State} {f : Fld} {i j : Nat} (h : t.rd f i j = s.rd f i j) : t.flag f i j = s.flag f i j :=
  congrArg (· % 2 == 1) h

/-- What rotation makes of a state reads as that state in a lane's own fields. -/
theorem slicesSettle_rd (hn : n < 64) {g : Fld} (hg : g.own = true) : (s.slicesSettle n).rd g n = s.rd g n :=
  (Beside.slicesSettle hn (.refl s)).rd hg hn

/-! ## Loss of signal (R75, R80, R104) -/

/-- LOS shows and is raised, whatever the lane's state. -/
def losShown (s : State) (n : Nat) : State :=
  ((s.wr Reg.LN.RX_STAT.LOS 1 n).setRx n { s.rxOf n with partialNow := true, agcOk := false }).raise (laneSrc n 0) 0

theorem losShown_rd (hn : n < 64) {g : Fld} (hg : g.own = true) :
    (s.losShown n).rd g n = (s.wr Reg.LN.RX_STAT.LOS 1 n).rd g n :=
  (Beside.raise (s := (s.wr Reg.LN.RX_STAT.LOS 1 n).setRx n _) (.keep (.refl (s.wr Reg.LN.RX_STAT.LOS 1 n)))
    (laneSrc_lt hn (by decide))).rd hg hn

theorem losShown_carries : Carries n s (s.losShown n) := .raise (.setRx (.wr (.refl s)))

theorem losShown_lane (hn : n < 64) : (s.losShown n).lane n = s.lane n :=
  (losShown_rd hn (by decide)).trans (rd_wr_ne _ _ _ _ _ _ _ _ (by simp))

theorem losShown_los (hn : n < 64) : (s.losShown n).rd Reg.LN.RX_STAT.LOS n = 1 :=
  (losShown_rd hn (by decide)).trans (rd_wr_same ..)

theorem losShown_step (hn : n < 64) : (s.losShown n).rd Reg.LN.RX_STAT.ACQ_STEP n = s.rd Reg.LN.RX_STAT.ACQ_STEP n :=
  (losShown_rd hn (by decide)).trans (rd_wr_ne _ _ _ _ _ _ _ _ (by simp))

theorem losOn_active (h3 : s.lane n = 3) : s.losOn n = (s.losShown n).enterAcquire n 2 := if_pos h3

/-- A lane that is not ACTIVE stays in its state, and one that acquires goes back to step 2 at most. -/
theorem losOn_stays (h3 : s.lane n ≠ 3) : ∃ u, s.losOn n = u.slicesSettle n ∧ Carries n (s.losShown n) u ∧
    u.regs = (if s.lane n = 2 ∧ 2 < s.rd Reg.LN.RX_STAT.ACQ_STEP n then
      (s.losShown n).wr Reg.LN.RX_STAT.ACQ_STEP 2 n else s.losShown n).regs := by
  have stops (t : State) : (t.stopAcqClock n).regs = t.regs := by
    unfold stopAcqClock
    extract_lets x
    split <;> rfl
  have carries {t : State} (h : Carries n (s.losShown n) t) : Carries n (s.losShown n) (t.stopAcqClock n) :=
    .ite h (.setRx h)
  by_cases h2 : s.lane n = 2
  · refine ⟨_, (if_neg h3).trans (if_pos h2), carries ?_, (stops _).trans ?_⟩
    · exact .ite (.setRx (.wr (.refl _))) (.refl _)
    · simp only [h2, true_and]
      split <;> rfl
  · exact ⟨_, (if_neg h3).trans (if_neg h2), .refl _, by simp [h2, losShown]⟩

theorem losOn_carries (hn : n < 64) : Carries n (s.losShown n) (s.losOn n) := by
  by_cases h3 : s.lane n = 3
  · rw [losOn_active h3]
    exact .enterAcquire ((losShown_lane hn).trans h3)
  · obtain ⟨u, hu, hc, -⟩ := losOn_stays h3
    rw [hu]
    exact .slicesSettle hc

/-- LOS shows, an ACTIVE lane acquires, and acquisition waits at step 2 (R75). -/
theorem losOn_reads (hn : n < 64) : (s.losOn n).rd Reg.LN.RX_STAT.LOS n = 1 ∧
    (s.losOn n).lane n = (if s.lane n = 3 then 2 else s.lane n) ∧
    (s.lane n = 3 → (s.losOn n).rd Reg.LN.RX_STAT.ACQ_STEP n = 2) ∧
    (s.lane n = 2 → (s.losOn n).rd Reg.LN.RX_STAT.ACQ_STEP n =
      if 2 < s.rd Reg.LN.RX_STAT.ACQ_STEP n then 2 else s.rd Reg.LN.RX_STAT.ACQ_STEP n) := by
  by_cases h3 : s.lane n = 3
  · have h3' : (s.losShown n).lane n = 3 := (losShown_lane hn).trans h3
    rw [losOn_active h3, if_pos h3]
    refine ⟨?_, enterAcquire_lane hn 2, fun _ => ?_, fun h2 => absurd (h2.symm.trans h3) (by decide)⟩
    · exact (enterAcquire_rd hn h3' (by decide) (by simp)).trans (losShown_los hn)
    · rw [rd_congr _ _ (enterAcquire_regs ..), rd_wr_ne _ _ _ _ _ _ _ _ (by simp), rd_wr_same, Nat.min_self, ite_self]
      rfl
  · obtain ⟨u, hu, -, hregs⟩ := losOn_stays h3
    have hr {g : Fld} (hg : g.own = true) (hne : g.key n 0 ≠ Reg.LN.RX_STAT.ACQ_STEP.key n 0) :
        (s.losOn n).rd g n = (s.losShown n).rd g n := by
      rw [hu, slicesSettle_rd hn hg, rd_congr _ _ hregs]
      split
      · exact rd_wr_ne _ _ _ _ _ _ _ _ hne
      · rfl
    refine ⟨(hr (by decide) (by simp)).trans (losShown_los hn), ?_, fun h => absurd h h3, fun h2 => ?_⟩
    · rw [if_neg h3]
      exact (hr (by decide) (by simp)).trans (losShown_lane hn)
    · rw [hu, slicesSettle_rd hn (by decide), rd_congr _ _ hregs]
      simp only [h2, true_and]
      split
      · exact rd_wr_same ..
      · exact losShown_step hn

/-- The loops resume, and a lane that waits at step 2 goes on from step 3 (R75, R80). -/
theorem losOff_eq (s : State) (n : Nat) : ∃ u, s.losOff n = u.slicesSettle n ∧ u.calOf n = s.calOf n ∧ NoRaise s u ∧
    u.regs = (if s.lane n = 2 ∧ s.rd Reg.LN.RX_STAT.ACQ_STEP n = 2 then
      (s.wr Reg.LN.RX_STAT.LOS 0 n).wr Reg.LN.RX_STAT.ACQ_STEP 3 n else s.wr Reg.LN.RX_STAT.LOS 0 n).regs := by
  have hstep : (s.wr Reg.LN.RX_STAT.LOS 0 n).rd Reg.LN.RX_STAT.ACQ_STEP n = s.rd Reg.LN.RX_STAT.ACQ_STEP n :=
    rd_wr_ne _ _ _ _ _ _ _ _ (by simp)
  unfold losOff
  extract_lets s1 _ s2
  have h2 : s2.rd Reg.LN.RX_STAT.ACQ_STEP n = s.rd Reg.LN.RX_STAT.ACQ_STEP n := hstep
  rw [h2]
  by_cases hl : s.lane n = 2
  · refine ⟨_, if_pos hl, ?_⟩
    simp only [hl, true_and]
    split
    · exact ⟨rfl, ⟨rfl, rfl⟩, rfl⟩
    · exact ⟨rfl, ⟨rfl, rfl⟩, rfl⟩
  · exact ⟨s1, if_neg hl, rfl, ⟨rfl, rfl⟩, by simp [hl, s1]⟩

theorem losOff_noRaise (h : (s.calOf n).swapDue = false) : NoRaise s (s.losOff n) := by
  obtain ⟨u, hu, hcal, hno, -⟩ := losOff_eq s n
  rw [hu]
  exact hno.trans (slicesSettle_noRaise (by rw [hcal, h]))

theorem losOff_reads (hn : n < 64) : (s.losOff n).rd Reg.LN.RX_STAT.LOS n = 0 ∧ (s.losOff n).lane n = s.lane n ∧
    (s.lane n = 2 → (s.losOff n).rd Reg.LN.RX_STAT.ACQ_STEP n =
      if s.rd Reg.LN.RX_STAT.ACQ_STEP n = 2 then 3 else s.rd Reg.LN.RX_STAT.ACQ_STEP n) := by
  obtain ⟨u, hu, -, -, hregs⟩ := losOff_eq s n
  have hr {g : Fld} (hg : g.own = true) := (slicesSettle_rd (s := u) hn hg).trans (rd_congr _ _ hregs g n 0)
  unfold lane at hr ⊢
  rw [hu, hr (by decide), hr (by decide), hr (by decide)]
  refine ⟨?_, ?_, fun h2 => ?_⟩
  · split <;> simp [rd_wr_ne]
  · split <;> simp [rd_wr_ne]
  · simp only [h2, true_and]
    split <;> simp [rd_wr_ne]

/-! ## Automatic gain (R79, R172) -/

/-- What a block of 16 does to the gain and to the burst's count of blocks (R172, R173). -/
theorem burstAgc_reads (s : State) (n rms : Nat) :
    let target := s.rd Reg.LN.AGC.TARGET n * 256
    let g := min 240 (s.rd Reg.LN.AGC.GAIN n)
    (s.burstAgc n rms).rd Reg.LN.AGC.GAIN n = min 240 (g + codesUp target rms) - codesUp rms target ∧
      ((s.burstAgc n rms).bstOf n).blocks = (s.bstOf n).blocks + 1 ∧
      ((s.burstAgc n rms).bstOf n).lastRms = some (rms, g) ∧
      (16 ≤ (s.bstOf n).blocks + 1 → ((s.burstAgc n rms).bstOf n).arm.isSome = true) ∧
      OnlyRegs { s with bst := (s.burstAgc n rms).bst } (s.burstAgc n rms) [Reg.LN.AGC.GAIN.key n 0] := by
  unfold burstAgc
  extract_lets target g b ok k
  refine ⟨?_, ?_, ?_, fun h16 => ?_, rfl, fun _ _ hk => get_wr_ne _ _ _ _ _ _ _ (mt List.mem_singleton.mpr hk)⟩
  · refine (rd_wr_same ..).trans (Nat.mod_eq_of_lt ?_)
    have : min 240 (g + codesUp target rms) ≤ 240 := Nat.min_le_left ..
    show _ < 256
    omega
  · rw [bstOf_setBst_same]
  · rw [bstOf_setBst_same]
  · rw [bstOf_setBst_same]
    have hk : 16 ≤ k := h16
    by_cases ha : b.arm.isSome = true <;> simp [ha, hk]

/-- The gain after a block of an ACTIVE or MAINT lane (R79). -/
def agcMoved (s : State) (n rms : Nat) : Nat :=
  let target := s.rd Reg.LN.AGC.TARGET n * 256
  let d := s.rd Reg.LN.AGC.DEADBAND n
  let g := min 240 (s.rd Reg.LN.AGC.GAIN n)
  if aboveDb rms target d then g - 1 else if aboveDb target rms d then min 240 (g + 1) else g

theorem agcMoved_lt (s : State) (n rms : Nat) : s.agcMoved n rms < 256 := by
  unfold agcMoved
  extract_lets target d g
  have hg : g ≤ 240 := Nat.min_le_left ..
  split
  · omega
  · split <;> omega

theorem agcMoved_high {rms : Nat}
    (h : 10 ^ s.rd Reg.LN.AGC.DEADBAND n * (s.rd Reg.LN.AGC.TARGET n * 256) ^ 160 < rms ^ 160) :
    s.agcMoved n rms = min 240 (s.rd Reg.LN.AGC.GAIN n) - 1 := if_pos (decide_eq_true h)

theorem agcMoved_low {rms : Nat}
    (h : 10 ^ s.rd Reg.LN.AGC.DEADBAND n * rms ^ 160 < (s.rd Reg.LN.AGC.TARGET n * 256) ^ 160) :
    s.agcMoved n rms = min 240 (min 240 (s.rd Reg.LN.AGC.GAIN n) + 1) := by
  have hhigh : ¬ 10 ^ s.rd Reg.LN.AGC.DEADBAND n * (s.rd Reg.LN.AGC.TARGET n * 256) ^ 160 < rms ^ 160 := by
    have hpos : 0 < 10 ^ s.rd Reg.LN.AGC.DEADBAND n := Nat.pow_pos (by decide)
    exact fun hhigh => absurd (((Nat.le_mul_of_pos_left _ hpos).trans_lt h).trans_le (Nat.le_mul_of_pos_left _ hpos))
      hhigh.not_gt
  exact (if_neg (by rwa [aboveDb, decide_eq_true_eq])).trans (if_pos (decide_eq_true h))

theorem agcMoved_level {rms : Nat}
    (hlow : rms ^ 160 ≤ 10 ^ s.rd Reg.LN.AGC.DEADBAND n * (s.rd Reg.LN.AGC.TARGET n * 256) ^ 160)
    (hhigh : (s.rd Reg.LN.AGC.TARGET n * 256) ^ 160 ≤ 10 ^ s.rd Reg.LN.AGC.DEADBAND n * rms ^ 160) :
    s.agcMoved n rms = min 240 (s.rd Reg.LN.AGC.GAIN n) :=
  (if_neg (by simpa [aboveDb] using hlow)).trans (if_neg (by simpa [aboveDb] using hhigh))

end State

section
variable {s : State} {n : LaneNo}

theorem exec_agcBlockEnd_held (rms : Nat)
    (h : s.flag Reg.LN.RX_CTRL.AGC_FREEZE n = true ∨
      (s.lane n ≠ 4 ∧ (s.los n = true ∨ ¬(s.lane n = 2 ∨ s.lane n = 3 ∨ s.lane n = 5))) ∨
      (s.lane n = 4 ∧ s.rd Reg.LN.BST_STAT.RX_PHASE n ≠ 2)) : exec (.agcBlockEnd n rms) s = .next s := by
  refine congrArg Host.Outcome.next ?_
  by_cases h4 : s.lane n = 4
  · refine (if_pos h4).trans (if_neg ?_)
    rcases h with hf | ⟨hne, -⟩ | ⟨-, hp⟩
    · simp [hf]
    · exact absurd h4 hne
    · simp [hp]
  · refine (if_neg h4).trans (if_pos ?_)
    rcases h with hf | ⟨-, hlos | hst⟩ | ⟨h4', -⟩
    · simp [hf]
    · simp [hlos]
    · simp only [not_or] at hst
      simp [hst]
    · exact absurd h4' h4

theorem exec_agcBlockEnd_burst (rms : Nat) (hf : s.flag Reg.LN.RX_CTRL.AGC_FREEZE n = false) (h4 : s.lane n = 4)
    (hp : s.rd Reg.LN.BST_STAT.RX_PHASE n = 2) : exec (.agcBlockEnd n rms) s = .next (s.burstAgc n rms) :=
  congrArg Host.Outcome.next ((if_pos h4).trans (if_pos (by simp [hp, hf])))

/-- The coarse steps of R79 are taken in ACQUIRE alone. -/
theorem exec_agcBlockEnd_tracks (rms : Nat) (hon : s.courseOn (courseOf n) = true)
    (hf : s.flag Reg.LN.RX_CTRL.AGC_FREEZE n = false) (hlos : s.los n = false) (hst : s.lane n = 3 ∨ s.lane n = 5) :
    let target := s.rd Reg.LN.AGC.TARGET n * 256
    let d := s.rd Reg.LN.AGC.DEADBAND n
    exec (.agcBlockEnd n rms) s = .next ((s.wr Reg.LN.AGC.GAIN (s.agcMoved n rms) n).setRx n
      { s.rxOf n with agcOk := !aboveDb rms target d && !aboveDb target rms d }) := by
  have h4 : s.lane n ≠ 4 := by omega
  have h2 : (s.lane n == 2) = false := beq_false_of_ne (by omega)
  refine congrArg Host.Outcome.next ((if_neg h4).trans ((if_neg ?_).trans ?_))
  · rcases hst with hst | hst <;> simp [hf, hlos, hst, hon]
  · rw [h2]
    rfl

end

/-! ## Clock recovery (R76, R81, R82) -/

theorem signedOf_patternOf {x : Int} (hlo : -2 ^ 15 ≤ x) (hhi : x < 2 ^ 15) :
    signedOf (patternOf x 16 % 2 ^ 16) 16 = x := by
  have hp : (patternOf x 16 : Int) = x % 2 ^ 16 := Int.toNat_of_nonneg (Int.emod_nonneg _ (by decide))
  unfold signedOf
  split <;> omega

theorem signedOf_range (v : Nat) : -2 ^ 15 ≤ signedOf v 16 ∧ signedOf v 16 < 2 ^ 15 := by
  unfold signedOf
  split <;> omega

namespace State
variable {s : State} {n : Nat}

/-- The accumulator after the loop has run: LOS holds it (R92), and it stops at ±300 ppm (R81). -/
def cdrMoved (s : State) (n : Nat) (det : Int) : Int :=
  if s.los n then s.cdrAcc n else cdrClamp (s.cdrAcc n + det * 10000000 / 2 ^ s.rd Reg.LN.CDR.KI n)

theorem cdrMoved_range (det : Int) (h0 : 0 ≤ (s.rxOf n).cdrFrac) (h1 : (s.rxOf n).cdrFrac < 2 ^ 20) :
    -2 ^ 15 ≤ s.cdrMoved n det / 2 ^ 20 ∧ s.cdrMoved n det / 2 ^ 20 < 2 ^ 15 := by
  have hr := signedOf_range (s.rd Reg.LN.CDR.FREQ n)
  unfold cdrMoved cdrAcc cdrClamp
  split <;> omega

/-- The loop leaves `CDR.FREQ` and the fraction below it. -/
theorem cdrRun_eq (det : Int) (syms : Nat) (hf : s.flag Reg.LN.RX_CTRL.CDR_FREEZE n = false) (h4 : s.lane n ≠ 4) :
    ∃ x, s.cdrRun n det syms = (s.wr Reg.LN.CDR.FREQ (patternOf (s.cdrMoved n det / 2 ^ 20) 16) n).setRx n x ∧
      x.cdrFrac = s.cdrMoved n det % 2 ^ 20 := by
  have ha : (if s.los n ∨ s.lane n = 4 then s.cdrAcc n
      else cdrClamp (s.cdrAcc n + det * 10000000 / 2 ^ s.rd Reg.LN.CDR.KI n)) = s.cdrMoved n det := by
    simp [cdrMoved, h4]
  unfold cdrRun
  rw [if_neg (by simp [hf]), ha]
  exact ⟨_, rfl, rfl⟩

theorem patternOf_mod (x : Int) (w : Nat) : patternOf x w % 2 ^ w = patternOf x w := by
  refine Nat.mod_eq_of_lt ?_
  have := Int.emod_lt_of_pos x (b := ((2 ^ w : Nat) : Int)) (by positivity)
  have := Int.emod_nonneg x (b := ((2 ^ w : Nat) : Int)) (by positivity)
  unfold patternOf
  omega

theorem cdrRun_atStop {det : Int} {syms : Nat} (hf : s.flag Reg.LN.RX_CTRL.CDR_FREEZE n = false) (h4 : s.lane n ≠ 4)
    (h0 : 0 ≤ (s.rxOf n).cdrFrac) (h1 : (s.rxOf n).cdrFrac < 2 ^ 20) : (s.cdrRun n det syms).cdrAtStop n = false ↔
      -3000 * 2 ^ 20 < s.cdrMoved n det ∧ s.cdrMoved n det < 3000 * 2 ^ 20 := by
  obtain ⟨hlo, hhi⟩ := cdrMoved_range det h0 h1
  obtain ⟨x, hx, hfrac⟩ := cdrRun_eq det syms hf h4
  have hacc : (s.cdrRun n det syms).cdrAcc n = s.cdrMoved n det := by
    rw [hx, cdrAcc, rxOf_setRx_same, hfrac, setRx_rd, rd_wr_same, show Reg.LN.CDR.FREQ.w = 16 from rfl,
      signedOf_patternOf hlo hhi]
    omega
  rw [cdrAtStop, hacc, decide_eq_false_iff_not]
  omega

/-- What the loss of CDR lock writes before an ACTIVE lane returns to ACQUIRE (R67, R82). -/
def cdrDropped (s : State) (n : Nat) : State :=
  let s1 := s.wr Reg.LN.RX_STAT.CDR_LOCK 0 n
  if s.mode n = 1 then (s1.wr Reg.LN.RX_STAT.FRAME_LOCK 0 n).wr Reg.LN.FMT_STAT.OCM_LOCK 0 n else s1

theorem cdrLost_eq (s : State) (n : Nat) : s.cdrLost n =
    (if s.lane n = 3 then (s.cdrDropped n).enterAcquire n 5 else s.cdrDropped n).slicesSettle n := rfl

theorem cdrDropped_reads (s : State) (n : Nat) : (s.cdrDropped n).rd Reg.LN.RX_STAT.CDR_LOCK n = 0 ∧
    (s.mode n = 1 → (s.cdrDropped n).rd Reg.LN.RX_STAT.FRAME_LOCK n = 0) ∧ (s.cdrDropped n).lane n = s.lane n := by
  unfold cdrDropped lane
  split
  · simp [rd_wr_ne]
  · next h1 => simp [rd_wr_ne, h1]

theorem cdrLost_rd (hn : n < 64) {g : Fld} (hg : g.own = true)
    (hne : ∀ f ∈ [Reg.LN.RX_STAT.LANE_STATE, Reg.LN.RX_STAT.ACQ_STEP, Reg.LN.CONST_ADV.REC], g.key n 0 ≠ f.key n 0) :
    (s.cdrLost n).rd g n = (s.cdrDropped n).rd g n := by
  obtain ⟨-, -, hlane⟩ := cdrDropped_reads s n
  rw [cdrLost_eq, slicesSettle_rd hn hg]
  split
  · next h3 => exact enterAcquire_rd hn (hlane.trans h3) hg hne
  · rfl

theorem cdrLost_lane (hn : n < 64) : (s.cdrLost n).lane n = if s.lane n = 3 then 2 else s.lane n := by
  obtain ⟨-, -, hlane⟩ := cdrDropped_reads s n
  rw [cdrLost_eq, lane, slicesSettle_rd hn (by decide)]
  split
  · exact enterAcquire_lane hn 5
  · exact hlane

theorem cdrLost_carries : Carries n s (s.cdrLost n) := by
  obtain ⟨-, -, hlane⟩ := cdrDropped_reads s n
  have hd : Carries n s (s.cdrDropped n) := .ite (.wr (.wr (.wr (.refl s)))) (.wr (.refl s))
  rw [cdrLost_eq]
  refine .slicesSettle ?_
  split
  · next h3 => exact hd.trans (.enterAcquire (hlane.trans h3))
  · exact hd

/-- The state in which CDR lock shows (R67, R82). -/
def cdrLocked (s : State) (n : Nat) : State :=
  let s1 := s.wr Reg.LN.RX_STAT.CDR_LOCK 1 n
  if s.mode n = 1 then s1.wr Reg.LN.RX_STAT.FRAME_LOCK 1 n else s1

theorem cdrLocked_reads (s : State) (n : Nat) : (s.cdrLocked n).rd Reg.LN.RX_STAT.CDR_LOCK n = 1 ∧
    (s.mode n = 1 → (s.cdrLocked n).rd Reg.LN.RX_STAT.FRAME_LOCK n = 1) ∧
    (s.cdrLocked n).rd Reg.LN.CDR.FREQ n = s.rd Reg.LN.CDR.FREQ n ∧ (s.cdrLocked n).lane n = s.lane n ∧
    (s.cdrLocked n).rxOf n = s.rxOf n ∧ (s.cdrLocked n).calOf n = s.calOf n ∧ NoRaise s (s.cdrLocked n) := by
  unfold cdrLocked lane
  split
  · simp [rd_wr_ne, NoRaise, calOf]
  · next h1 => simp [rd_wr_ne, h1, NoRaise, calOf]

end State

section
variable {s : State} {n : LaneNo} {det : Int} (hf : s.flag Reg.LN.RX_CTRL.CDR_FREEZE n = false)
  (hon : s.courseOn (courseOf n) = true) (hst : s.lane n = 2 ∨ s.lane n = 3 ∨ s.lane n = 5)
include hf hon hst

theorem exec_cdrLock (det : Int) : exec (.cdrLock n det) s = .next
    (if (s.cdrRun n det 65536).cdrAtStop n then s.cdrRun n det 65536
    else ((s.cdrRun n det 65536).cdrLocked n).slicesSettle n) := by
  have hmode : (s.cdrRun n det 65536).mode n = s.mode n := (State.cdrRun_adjusts s n det 65536).regs.rd (by simp)
  refine congrArg Host.Outcome.next ((if_neg ?_).trans ?_)
  · rcases hst with hst | hst | hst <;> simp [hf, State.cdrOn, hon, hst]
  · unfold State.cdrLocked
    rw [hmode]

end

/-! ## What the commands come to -/

section
variable {s : State} {n : LaneNo}

theorem exec_losAssert_held (h : s.los n = true ∨ s.rd Reg.LN.AGC.LOS_THR n = 0 ∨
    ¬(s.lane n = 1 ∨ s.lane n = 2 ∨ s.lane n = 3 ∨ s.lane n = 5)) : exec (.losAssert n) s = .next s := by
  refine congrArg Host.Outcome.next (if_pos ?_)
  rcases h with h | h | h
  · exact .inr (.inl h)
  · exact .inl h
  · exact .inr (.inr (.inr (by omega)))

theorem exec_losAssert (hon : s.courseOn (courseOf n) = true)
    (hst : s.lane n = 1 ∨ s.lane n = 2 ∨ s.lane n = 3 ∨ s.lane n = 5) (hlos : s.los n = false)
    (hthr : s.rd Reg.LN.AGC.LOS_THR n ≠ 0) : exec (.losAssert n) s = .next (s.losOn n) := by
  refine congrArg Host.Outcome.next (if_neg ?_)
  simp only [hthr, hlos, hon, Bool.not_true, Bool.false_eq_true, false_or]
  omega

theorem losAssert_settles (hon : s.courseOn (courseOf n) = true)
    (hst : s.lane n = 1 ∨ s.lane n = 2 ∨ s.lane n = 3 ∨ s.lane n = 5) (hlos : s.los n = false)
    (hthr : s.rd Reg.LN.AGC.LOS_THR n ≠ 0) : Gives (.losAssert n) s fun t =>
      t.los n = true ∧ t.flag Reg.EVT.LATCH.RAISED (laneSrc n 0) = true ∧
      t.lane n = (if s.lane n = 3 then 2 else s.lane n) ∧
      (s.lane n = 2 → t.rd Reg.LN.RX_STAT.ACQ_STEP n =
        if 2 < s.rd Reg.LN.RX_STAT.ACQ_STEP n then 2 else s.rd Reg.LN.RX_STAT.ACQ_STEP n) ∧
      (s.lane n = 3 → t.rd Reg.LN.RX_STAT.ACQ_STEP n = 2) ∧ (t.rxOf n).taps = (s.rxOf n).taps := by
  obtain ⟨hshows, hlane, h3, h2⟩ := State.losOn_reads (s := s) n.isLt
  have hc := State.losOn_carries (s := s) n.isLt
  have hsrc : laneSrc n 0 < 608 := laneSrc_lt n.isLt (by decide)
  exact .of (exec_losAssert hon hst hlos hthr) ⟨State.flag_eq_true _ hshows,
    hc.latch hsrc (State.raise_latch _ _ _ hsrc), hlane, h2, h3, hc.taps.trans State.losShown_carries.taps⟩

theorem losClear_settles (hst : s.lane n = 1 ∨ s.lane n = 2 ∨ s.lane n = 3 ∨ s.lane n = 5) (hlos : s.los n = true) :
    Gives (.losClear n) s fun t => t.los n = false ∧ t.lane n = s.lane n ∧
      ((s.calOf n).swapDue = false → NoRaise s t) ∧ (s.lane n = 2 → t.rd Reg.LN.RX_STAT.ACQ_STEP n =
        if s.rd Reg.LN.RX_STAT.ACQ_STEP n = 2 then 3 else s.rd Reg.LN.RX_STAT.ACQ_STEP n) := by
  obtain ⟨hgone, hlane, hstep⟩ := State.losOff_reads (s := s) n.isLt
  exact .of (congrArg Host.Outcome.next (if_pos ⟨hlos, hst⟩))
    ⟨State.flag_eq_false _ hgone, hlane, State.losOff_noRaise, hstep⟩

/-- The gain follows a block of an ACTIVE or MAINT lane (R79). -/
theorem agcBlockEnd_tracks (rms : Nat) (hon : s.courseOn (courseOf n) = true)
    (hf : s.flag Reg.LN.RX_CTRL.AGC_FREEZE n = false) (hlos : s.los n = false) (hst : s.lane n = 3 ∨ s.lane n = 5) :
    Gives (.agcBlockEnd n rms) s fun t => t.rd Reg.LN.AGC.GAIN n = s.agcMoved n rms ∧
      OnlyRegs { s with rx := t.rx } t [Reg.LN.AGC.GAIN.key n 0] := by
  refine .of (exec_agcBlockEnd_tracks rms hon hf hlos hst) ⟨?_, rfl, fun _ _ hk => ?_⟩
  · exact (State.rd_wr_same ..).trans (Nat.mod_eq_of_lt (s.agcMoved_lt n rms))
  · exact State.get_wr_ne _ _ _ _ _ _ _ (mt List.mem_singleton.mpr hk)

/-- Out of range the loop has run and nothing else is done (R82). -/
theorem cdrLock_stops {det : Int} (hf : s.flag Reg.LN.RX_CTRL.CDR_FREEZE n = false)
    (hon : s.courseOn (courseOf n) = true) (hst : s.lane n = 2 ∨ s.lane n = 3 ∨ s.lane n = 5)
    (h : (s.cdrRun n det 65536).cdrAtStop n = true) : Gives (.cdrLock n det) s fun t =>
      t.rd Reg.LN.CDR.FREQ n = patternOf (s.cdrMoved n det / 2 ^ 20) 16 ∧
      OnlyRegs { s with rx := t.rx } t [Reg.LN.CDR.FREQ.key n 0] := by
  obtain ⟨x, hx, -⟩ := State.cdrRun_eq (s := s) det 65536 hf (by omega)
  refine .of ((exec_cdrLock hf hon hst det).trans (congrArg _ ((if_pos h).trans hx))) ⟨?_, rfl, fun _ _ hk => ?_⟩
  · exact (State.rd_wr_same ..).trans (State.patternOf_mod _ 16)
  · exact State.get_wr_ne _ _ _ _ _ _ _ (mt List.mem_singleton.mpr hk)

theorem cdrLock_locks {det : Int} (hf : s.flag Reg.LN.RX_CTRL.CDR_FREEZE n = false)
    (hon : s.courseOn (courseOf n) = true) (hst : s.lane n = 2 ∨ s.lane n = 3 ∨ s.lane n = 5)
    (h : (s.cdrRun n det 65536).cdrAtStop n = false) : Gives (.cdrLock n det) s fun t =>
      t.flag Reg.LN.RX_STAT.CDR_LOCK n = true ∧
      t.rd Reg.LN.CDR.FREQ n = patternOf (s.cdrMoved n det / 2 ^ 20) 16 ∧
      (t.rxOf n).cdrFrac = s.cdrMoved n det % 2 ^ 20 ∧ t.lane n = s.lane n ∧
      ((s.calOf n).swapDue = false → NoRaise s t) ∧
      (s.mode n = 1 → t.flag Reg.LN.RX_STAT.FRAME_LOCK n = true) := by
  obtain ⟨x, hx, hfrac⟩ := State.cdrRun_eq (s := s) det 65536 hf (by omega)
  have he : exec (.cdrLock n det) s = .next (((s.cdrRun n det 65536).cdrLocked n).slicesSettle n) :=
    (exec_cdrLock hf hon hst det).trans (congrArg _ (if_neg (by simp [h])))
  generalize s.cdrRun n det 65536 = u at hx he
  obtain ⟨hlock, hframe, hfreq, hlane, hrx, hcal, hno⟩ := u.cdrLocked_reads n
  have hr {g : Fld} (hg : g.own = true) := State.slicesSettle_rd (s := u.cdrLocked n) n.isLt hg
  subst hx
  refine .of he ⟨State.flag_eq_true _ ((hr (by decide)).trans hlock), ?_, ?_, ?_, fun hdue => ?_, fun h1 => ?_⟩
  · rw [hr (by decide), hfreq]
    exact (State.rd_wr_same ..).trans (State.patternOf_mod _ 16)
  · rw [State.slicesSettle_rxOf, hrx, State.rxOf_setRx_same, hfrac]
  · rw [State.lane, hr (by decide)]
    exact hlane.trans (State.rd_wr_ne _ _ _ _ _ _ _ _ (by simp))
  · exact hno.trans (State.slicesSettle_noRaise (by rw [hcal]; exact hdue))
  · exact State.flag_eq_true _ ((hr (by decide)).trans (hframe ((State.rd_wr_ne _ _ _ _ _ _ _ _ (by simp)).trans h1)))

theorem cdrLockLoss_settles (hf : s.flag Reg.LN.RX_CTRL.CDR_FREEZE n = false)
    (hlock : s.flag Reg.LN.RX_STAT.CDR_LOCK n = true) : Gives (.cdrLockLoss n) s fun t =>
      t.flag Reg.LN.RX_STAT.CDR_LOCK n = false ∧
      (s.lane n = 3 → t.lane n = 2 ∧ (s.los n = false → t.rd Reg.LN.RX_STAT.ACQ_STEP n = 5)) ∧
      (s.lane n ≠ 3 → t.lane n = s.lane n) ∧ (s.mode n = 1 → t.flag Reg.LN.RX_STAT.FRAME_LOCK n = false) ∧
      (t.rxOf n).taps = (s.rxOf n).taps := by
  obtain ⟨hgone, hframe, -⟩ := s.cdrDropped_reads n
  have hlane := State.cdrLost_lane (s := s) n.isLt
  refine .of (congrArg Host.Outcome.next (if_neg (by simp [hf, hlock]))) ⟨State.flag_eq_false _ ?_, fun h3 => ?_,
    fun h3 => hlane.trans (if_neg h3), fun h1 => State.flag_eq_false _ ?_, State.cdrLost_carries.taps⟩
  · exact (State.cdrLost_rd n.isLt (by decide) (by simp)).trans hgone
  · refine ⟨hlane.trans (if_pos h3), fun hlos => ?_⟩
    obtain ⟨-, -, hstep⟩ := State.cdrLost_reads n.isLt h3 hlos
    exact hstep
  · exact (State.cdrLost_rd n.isLt (by decide) (by simp)).trans (hframe h1)

end

/-- Settles O45: LOS through `losOn_reads` and `losOff_reads`, the gain through `burstAgc_reads` and `agcMoved`, the
clock recovery through `cdrRun_atStop` and what lock and its loss write. -/
theorem signalGainAndClockRecovery : Obligations.SignalGainAndClockRecovery := by
  intro n s hon st live step
  refine ⟨exec_losAssert_held, losAssert_settles hon, losClear_settles, exec_agcBlockEnd_held, ?_, ?_, ?_, ?_, ?_, ?_⟩
  · exact fun rms hf h4 hp => .of (exec_agcBlockEnd_burst rms hf h4 hp) (s.burstAgc_reads n rms)
  · intro rms hf hlos hst target d g
    obtain ⟨t, he, hgain, hregs⟩ := agcBlockEnd_tracks rms hon hf hlos hst
    exact .of he ⟨fun h => hgain.trans (State.agcMoved_high h), fun h => hgain.trans (State.agcMoved_low h),
      fun hlow hhigh => hgain.trans (State.agcMoved_level hlow hhigh), hregs⟩
  · intro det hf hst h0 h1 acc a
    have hstop := State.cdrRun_atStop (s := s) (det := det) (syms := 65536) hf (by omega) h0 h1
    exact ⟨fun hin => cdrLock_locks hf hon hst (hstop.mpr hin),
      fun hout => cdrLock_stops hf hon hst (eq_true_of_ne_false (mt hstop.mp hout))⟩
  · exact fun det hf => congrArg Host.Outcome.next (if_pos (by simp [hf]))
  · exact fun hf => congrArg Host.Outcome.next (if_pos (by simp [hf]))
  · exact cdrLockLoss_settles

end Sys2Proof.Machine
end

section
/-! The steps of acquisition, its retries and the loss of frame lock (R67, R69 to R74, R77, R86, R96). -/

namespace Sys2Proof.Machine

/-! ## The choices of the sweep and of the target grid (R69, R77, R86) -/

theorem argMin_lt {l : List Nat} {k : Nat} (h : l.length ≤ k) (hk : 0 < k) : argMin l < k := by
  cases l with
  | nil => exact hk
  | cons x xs =>
    refine List.foldlRecOn (motive := fun b : Nat × Nat => b.2 < k) xs.zipIdx _ hk fun b hb p hp => ?_
    have hp2 := List.snd_lt_of_mem_zipIdx hp
    rw [List.length_cons] at h
    split
    · show p.2 + 1 < k
      omega
    · exact hb

namespace State
variable {s : State} {n : Nat}

theorem sweepCtle_range (xs : List Nat) (h : s.rd Reg.LN.CTLE.MIN n ≤ s.rd Reg.LN.CTLE.MAX n) :
    s.rd Reg.LN.CTLE.MIN n ≤ s.sweepCtle n xs ∧ s.sweepCtle n xs ≤ s.rd Reg.LN.CTLE.MAX n := by
  unfold sweepCtle
  extract_lets lo hi
  have hlt : argMin (xs.take (hi + 1 - lo)) < hi + 1 - lo := argMin_lt (List.length_take_le ..) (by omega)
  rw [if_neg (by omega)]
  omega

theorem setTarget_alpha1 (a1 a2 : Nat) (h : s.rd Reg.LN.MLSE_CTRL.ALPHA1_MAX n < 16) :
    (s.setTarget n a1 a2).rd Reg.LN.MLSE_CTRL.ALPHA1 n = min a1 (s.rd Reg.LN.MLSE_CTRL.ALPHA1_MAX n) := by
  refine (rd_wr_ne _ _ _ _ _ _ _ _ (by simp)).trans ((rd_wr_same ..).trans (Nat.mod_eq_of_lt ?_))
  show _ < 16
  omega

/-! ## Each step (R69 to R72) -/

theorem acqNext_step (s : State) (n : Nat) {k : Nat} (hk : k < 16) :
    (s.acqNext n k).rd Reg.LN.RX_STAT.ACQ_STEP n = k := (rd_wr_same ..).trans (Nat.mod_eq_of_lt hk)

theorem acqNext_rd {k : Nat} {g : Fld} (h : g.key n 0 ≠ Reg.LN.RX_STAT.ACQ_STEP.key n 0) :
    (s.acqNext n k).rd g n = s.rd g n := rd_wr_ne _ _ _ _ _ _ _ _ h

/-- A step that ends on a condition of its own. -/
theorem acqNext_ite_step {t : State} {c : Prop} [Decidable c] {k m : Nat} (hk : k < 16)
    (h : s.rd Reg.LN.RX_STAT.ACQ_STEP n = m) :
    (if c then t.acqNext n k else s).rd Reg.LN.RX_STAT.ACQ_STEP n = if c then k else m := by
  split
  · exact acqNext_step t n hk
  · exact h

variable {xs : List Nat} {lev : List Int} {p95 : Nat}

theorem acqStep_signal (h : s.rd Reg.LN.RX_STAT.ACQ_STEP n = 2) : s.acqStep n xs lev p95 = s.acqNext n 3 := by
  simp only [acqStep, h]

theorem acqStep_gain (h : s.rd Reg.LN.RX_STAT.ACQ_STEP n = 3) :
    s.acqStep n xs lev p95 = if (s.rxOf n).agcOk then s.acqNext n 4 else s := by
  simp only [acqStep, h]

theorem acqStep_ctle (h : s.rd Reg.LN.RX_STAT.ACQ_STEP n = 4) : s.acqStep n xs lev p95 =
    if !(s.rxOf n).sweep then (s.ctleForce n).acqNext n 5
    else if s.flag Reg.LN.RX_CTRL.CTLE_FREEZE n then s
    else ((s.wr Reg.LN.CTLE.SETTING (s.sweepCtle n xs) n).setRx n { s.rxOf n with sweep := false }).acqNext n 5 := by
  simp only [acqStep, h]

theorem acqStep_clock (h : s.rd Reg.LN.RX_STAT.ACQ_STEP n = 5) : s.acqStep n xs lev p95 =
    if s.flag Reg.LN.RX_STAT.CDR_LOCK n then (s.setRx n { s.rxOf n with mseRun := 0 }).acqNext n 6 else s := by
  simp only [acqStep, h]

theorem acqStep_taps (h : s.rd Reg.LN.RX_STAT.ACQ_STEP n = 6) :
    s.acqStep n xs lev p95 = if 8 ≤ (s.rxOf n).mseRun then s.acqNext n 7 else s := by
  simp only [acqStep, h]

theorem acqStep_frame (h : s.rd Reg.LN.RX_STAT.ACQ_STEP n = 8) (hm : m200 (s.mode n) = false) :
    s.acqStep n xs lev p95 = if s.flag Reg.LN.RX_STAT.FRAME_LOCK n then s.acqNext n 9 else s := by
  simp only [acqStep, h, hm, Bool.false_eq_true, if_false]

theorem acqStep_unlocked (h : s.rd Reg.LN.RX_STAT.ACQ_STEP n = 9)
    (hl : s.flag Reg.LN.RX_STAT.FRAME_LOCK n = false) : s.acqStep n xs lev p95 = s.acqNext n 8 := by
  simp only [acqStep, h, hl, Bool.not_false, if_true]

/-- The soft scale at most is set before the lane is ACTIVE. -/
theorem acqStep_last (h : s.rd Reg.LN.RX_STAT.ACQ_STEP n = 9) (hl : s.flag Reg.LN.RX_STAT.FRAME_LOCK n = true)
    (hn : n < 64) : ∃ u, s.acqStep n xs lev p95 = u.enterActive n ∧ Still n s u := by
  refine ⟨if s.mode n = 1 ∨ s.flag Reg.LN.RX_CTRL.SOFT_FREEZE n then s else s.setSoft n (softTarget p95), ?_,
    .ite (.refl s hn) (.setSoft (.refl s hn))⟩
  simp only [acqStep, h, hl, Bool.not_true, Bool.false_eq_true, if_false]

/-- The target of step 7, where its freeze bit lets it be taken (R86). -/
def targetTaken (s : State) (n : Nat) (xs : List Nat) : State :=
  if s.flag Reg.LN.RX_CTRL.TGT_FREEZE n then s else s.setTarget n (s.pickTarget n xs).1 (s.pickTarget n xs).2

theorem acqStep_target (h : s.rd Reg.LN.RX_STAT.ACQ_STEP n = 7) : s.acqStep n xs lev p95 =
    (if s.mode n = 1 ∨ s.flag Reg.LN.RX_CTRL.LEVEL_FREEZE n then s.targetTaken n xs
    else (s.targetTaken n xs).setRx n { (s.targetTaken n xs).rxOf n with levels := lev }).acqNext n 8 := by
  simp only [acqStep, h]
  rfl

theorem targetTaken_alpha1 (hf : s.flag Reg.LN.RX_CTRL.TGT_FREEZE n = false)
    (h : s.rd Reg.LN.MLSE_CTRL.ALPHA1_MAX n < 16) :
    (s.targetTaken n xs).rd Reg.LN.MLSE_CTRL.ALPHA1 n ≤ s.rd Reg.LN.MLSE_CTRL.ALPHA1_MAX n := by
  rw [targetTaken, if_neg (by simp [hf]), setTarget_alpha1 _ _ h]
  exact Nat.min_le_right ..

theorem Still.ctleForce {s₀ : State} (h : Still n s₀ s) : Still n s₀ (s.ctleForce n) := .ite h (.wr h)

/-- Before its last step a lane stays in ACQUIRE. -/
theorem acqStep_still (hn : n < 64) (h9 : s.rd Reg.LN.RX_STAT.ACQ_STEP n ≠ 9) :
    Still n s (s.acqStep n xs lev p95) := by
  have hs : Still n s s := .refl s hn
  by_cases h7 : s.rd Reg.LN.RX_STAT.ACQ_STEP n = 7
  · rw [acqStep_target h7]
    have ht : Still n s (s.targetTaken n xs) := .ite hs (.setTarget hs)
    exact .wr (.ite ht (.setRx ht))
  unfold acqStep
  extract_lets x
  split
  · exact .wr hs
  · exact .ite (.wr hs) hs
  · exact .ite (.wr (.ctleForce hs)) (.ite hs (.wr (.setRx (.wr hs))))
  · exact .ite (.wr (.setRx hs)) hs
  · exact .ite (.wr hs) hs
  · next h => exact absurd h h7
  · exact .ite (.wr hs) (.ite (.wr (.wr hs)) hs)
  · next h => exact absurd h h9
  · exact hs

theorem enterActive_active (hn : n < 64) : (s.enterActive n).lane n = 3 ∧
    (s.enterActive n).flag Reg.EVT.LATCH.RAISED (laneSrc n 1) = true := by
  have hsrc : laneSrc n 1 < 608 := laneSrc_lt hn (by decide)
  have hl : Enters n 3 s (s.setLane n 3) := .setLane (.refl s hn) (by decide)
  unfold enterActive
  generalize s.setLane n 3 = t at hl
  exact ⟨(hl.still (.raise (.setRx (.refl _ hn)) fun _ => hsrc)).lane, raise_latch _ _ _ hsrc⟩

/-! ## Defaults and the retry (R73, R96) -/

/-- What loading the defaults of a mode writes. -/
def defaultKeys (n : Nat) : List Nat := Reg.LN.AGC.GAIN.key n 0 :: tuneKeys n

theorem loadDefaults_adjusts (s : State) (n : Nat) : Adjusts n (defaultKeys n) s (s.loadDefaults n) := by
  have hs : Adjusts n (defaultKeys n) s s := .refl s
  unfold loadDefaults
  split
  extract_lets s1 s2
  have h1 : Adjusts n (defaultKeys n) s s1 :=
    .wr (.wr (.wr (.wr hs (by simp [defaultKeys, tuneKeys])) (by simp [defaultKeys])) (by simp [defaultKeys, tuneKeys]))
      (by simp [defaultKeys, tuneKeys])
  have h2 : Adjusts n (defaultKeys n) s s2 := .ite (.wr h1 (by simp [defaultKeys, tuneKeys])) h1
  exact .setTaps (.setRx h2) _

theorem loadDefaults_gain (s : State) (n : Nat) :
    (s.loadDefaults n).rd Reg.LN.AGC.GAIN n = (modeDefaults (s.mode n)).2.1 := by
  have hfit : ∀ m, (modeDefaults m).2.1 < 2 ^ 8 := fun m => by
    unfold modeDefaults
    split <;> decide
  unfold loadDefaults
  split
  next ctle vga a1 a2 soft h =>
    have hvga : vga < 2 ^ 8 := by simpa [h] using hfit (s.mode n)
    extract_lets s1 s2
    have h1 : s1.rd Reg.LN.AGC.GAIN n = vga := by
      simp only [s1, setTarget]
      simpa [rd_wr_ne] using hvga
    have h2 : s2.rd Reg.LN.AGC.GAIN n = vga := by
      unfold s2 setSoft
      split
      · exact (rd_wr_ne _ _ _ _ _ _ _ _ (by simp)).trans h1
      · exact h1
    rw [h, setTaps, setRx_rd, setRx_rd]
    exact h2

/-- The registers and the time of a lane that begins anew from the defaults of its mode, beside its count of R73. -/
def retried (s : State) (n : Nat) : State :=
  ((((s.upTo (s.retryAt n)).count Reg.LN.RX_STAT.ACQ_RETRY 1 n).loadDefaults n).acqNext n 3).wr
    Reg.LN.RX_STAT.SEED_LOADED 0 n

theorem retried_reads (s : State) (n : Nat) :
    (s.retried n).rd Reg.LN.RX_STAT.ACQ_RETRY n = min (s.rd Reg.LN.RX_STAT.ACQ_RETRY n + 1) 255 ∧
      (s.retried n).rd Reg.LN.RX_STAT.ACQ_STEP n = 3 ∧ (s.retried n).rd Reg.LN.RX_STAT.SEED_LOADED n = 0 ∧
      (s.retried n).lane n = s.lane n ∧ (s.retried n).time = max s.time (s.retryAt n) ∧
      (s.retried n).rd Reg.LN.AGC.GAIN n = (modeDefaults (s.mode n)).2.1 := by
  have hcount := (s.upTo (s.retryAt n)).count_rd Reg.LN.RX_STAT.ACQ_RETRY 1 n 0
  have h1 {g : Fld} (hg : g.key n 0 ≠ Reg.LN.RX_STAT.ACQ_RETRY.key n 0) :
      ((s.upTo (s.retryAt n)).count Reg.LN.RX_STAT.ACQ_RETRY 1 n).rd g n = s.rd g n :=
    rd_wr_ne (s.upTo (s.retryAt n)) _ _ _ _ _ _ _ hg
  have htime : ((s.upTo (s.retryAt n)).count Reg.LN.RX_STAT.ACQ_RETRY 1 n).time = max s.time (s.retryAt n) := rfl
  unfold retried lane
  generalize (s.upTo (s.retryAt n)).count Reg.LN.RX_STAT.ACQ_RETRY 1 n = u at hcount h1 htime
  have hd := u.loadDefaults_adjusts n
  have hgain := u.loadDefaults_gain n
  have ht {g : Fld} (hseed : g.key n 0 ≠ Reg.LN.RX_STAT.SEED_LOADED.key n 0)
      (hstep : g.key n 0 ≠ Reg.LN.RX_STAT.ACQ_STEP.key n 0) :
      (((u.loadDefaults n).acqNext n 3).wr Reg.LN.RX_STAT.SEED_LOADED 0 n).rd g n = (u.loadDefaults n).rd g n :=
    (rd_wr_ne _ _ _ _ _ _ _ _ hseed).trans (acqNext_rd hstep)
  refine ⟨?_, ?_, rd_wr_same .., ?_, ?_, ?_⟩
  · rw [ht (by simp) (by simp), hd.regs.rd (by simp [defaultKeys, tuneKeys])]
    exact hcount
  · exact (rd_wr_ne _ _ _ _ _ _ _ _ (by simp)).trans (acqNext_step _ _ (by decide))
  · rw [ht (by simp) (by simp), hd.regs.rd (by simp [defaultKeys, tuneKeys]), h1 (by simp)]
  · rw [wr_time, acqNext, wr_time, hd.time, htime]
  · rw [ht (by simp) (by simp), hgain, mode, h1 (by simp), mode]

/-! ## The loss of frame lock (R60, R67, R74) -/

theorem lockDropped_ocm : (s.lockDropped n).rd Reg.LN.FMT_STAT.OCM_LOCK n = 0 := by
  unfold lockDropped
  split <;> simp [rd_wr_ne]

theorem frameLockLost_stays (h3 : s.lane n ≠ 3) : s.frameLockLost n = s.lockDropped n := if_neg h3

/-- An ACTIVE lane returns to step 8 and looks for frame lock from then on (R74). -/
theorem frameLockLost_active (h3 : s.lane n = 3) : s.frameLockLost n = ((s.lockDropped n).enterAcquire n 8).setRx n
    { ((s.lockDropped n).enterAcquire n 8).rxOf n with lossAt := some ((s.lockDropped n).enterAcquire n 8).time } :=
  if_pos h3

theorem lockDropped_onlyRegs (s : State) (n : Nat) : OnlyRegs s (s.lockDropped n)
    [Reg.LN.RX_STAT.FRAME_LOCK.key n 0, Reg.LN.FMT_STAT.OCM_LOCK.key n 0, Reg.LN.RX_STAT.ACQ_STEP.key n 0] := by
  unfold lockDropped
  extract_lets s0
  have h0 : OnlyRegs s s0 [Reg.LN.RX_STAT.FRAME_LOCK.key n 0, Reg.LN.FMT_STAT.OCM_LOCK.key n 0,
      Reg.LN.RX_STAT.ACQ_STEP.key n 0] := .wr (.wr (.of_regs rfl) (by simp)) (by simp)
  split
  · exact .wr h0 (by simp)
  · exact h0

theorem lockDropped_step : (s.lockDropped n).rd Reg.LN.RX_STAT.ACQ_STEP n =
    if s.lane n = 2 ∧ s.rd Reg.LN.RX_STAT.ACQ_STEP n = 9 then 8 else s.rd Reg.LN.RX_STAT.ACQ_STEP n := by
  unfold lockDropped
  split <;> simp [rd_wr_ne]

theorem lockDropped_los : (s.lockDropped n).los n = s.los n :=
  flag_congr (lockDropped_rd (by simp [frameFlds]))

/-- Outer-code lock goes with frame lock, whatever state the lane is in (R60). -/
theorem frameLockLost_ocm (hn : n < 64) : (s.frameLockLost n).rd Reg.LN.FMT_STAT.OCM_LOCK n = 0 := by
  refine Eq.trans ?_ (lockDropped_ocm (s := s) (n := n))
  by_cases h3 : s.lane n = 3
  · rw [rd_congr _ _ (frameLockLost_regs.trans (if_pos h3))]
    exact enterAcquire_rd hn (lockDropped_lane.trans h3) (by decide) (by simp)
  · exact rd_congr _ _ (frameLockLost_regs.trans (if_neg h3)) ..

/-- An ACTIVE lane goes back to step 8 with its present coefficients, and the 10 ms of R74 begin. -/
theorem frameLockLost_acquires (hn : n < 64) (h3 : s.lane n = 3) (hlos : s.los n = false) :
    (s.frameLockLost n).rd Reg.LN.RX_STAT.ACQ_STEP n = 8 ∧
      ((s.frameLockLost n).rxOf n).lossAt = some (s.frameLockLost n).time ∧
      ((s.frameLockLost n).rxOf n).taps = (s.rxOf n).taps := by
  have h3' : (s.lockDropped n).lane n = 3 := lockDropped_lane.trans h3
  have hstep := enterAcquire_step hn h3' (lockDropped_los.trans hlos) (step := 8) (by decide)
  have hd : Carries n s (s.lockDropped n) := .ite (.wr (.wr (.wr (.refl s)))) (.wr (.wr (.refl s)))
  have hc : Carries n s ((s.lockDropped n).enterAcquire n 8) := hd.trans (.enterAcquire h3')
  rw [frameLockLost_active h3]
  generalize (s.lockDropped n).enterAcquire n 8 = u at hstep hc
  rw [rxOf_setRx_same]
  exact ⟨hstep, rfl, hc.taps⟩

end State

/-! ## What the commands come to -/

section
variable {s : State} {n : LaneNo}

theorem exec_acqStepComplete (xs : List Nat) (lev : List Int) (p95 : Nat) (hon : s.courseOn (courseOf n) = true)
    (h2 : s.lane n = 2) (hlos : s.los n = false) (heng : s.laneEngineOn n = true) :
    exec (.acqStepComplete n xs lev p95) s = .next (s.acqStep n xs lev p95) :=
  congrArg Host.Outcome.next (if_neg (by simp [h2, hlos, heng, hon]))

theorem exec_acqRetry (h2 : s.lane n = 2) (hlos : s.los n = false) (hstop : (s.rxOf n).acqStopped = false)
    (heng : s.laneEngineOn n = true) : ∃ x, exec (.acqRetry n) s = .next (s.retried n |>.setRx n x) :=
  ⟨_, congrArg Host.Outcome.next (if_neg (by simp [h2, hlos, hstop, heng]))⟩

theorem frameLockTimeout_restarts {at_ : Nat} (hat : (s.rxOf n).lossAt = some at_) (h2 : s.lane n = 2)
    (h8 : s.rd Reg.LN.RX_STAT.ACQ_STEP n = 8) (hl : s.flag Reg.LN.RX_STAT.FRAME_LOCK n = false) :
    exec (.frameLockTimeout n) s = .next (((s.upTo (at_ + 10000000)).setRx n
      { s.rxOf n with lossAt := none, sweep := false, agcOk := false }).acqNext n 3) := by
  refine congrArg Host.Outcome.next ?_
  extract_lets x
  rw [show x.lossAt = some at_ from hat]
  exact if_pos ⟨h2, h8, by simp [hl]⟩

end

end Sys2Proof.Machine
end

section
/-! The gradient block (R84, R88, R92), and what acquisition and adaptation come to. -/

namespace Sys2Proof.Machine

/-! ## The gradient block of an ACTIVE lane (R84, R88) -/

namespace State
variable {s : State} {n : Nat}

/-- The taps an ACTIVE lane takes from the gradients of a block (R84). -/
def tapsMoved (s : State) (n : Nat) (g : List Int) : List Int :=
  (s.rxOf n).taps.zipIdx.map fun p =>
    tapUpdate (muOf (s.rd Reg.LN.FFE_CTRL.MU_TRK n)) (s.rd Reg.LN.FFE_CTRL.LEAK n) p.1 (g.getD p.2 0)

/-- The centroids after a block (R88). -/
def levelsMoved (s : State) (n : Nat) (lev : List Int) : List Int :=
  (s.rxOf n).levels.zipIdx.map fun p => p.1 + lev.getD p.2 0 / 2 ^ 10

/-- A block cut by the ladder is spent, and any other has its error kept (R70, R84). -/
def blockSeen (s : State) (n mse : Nat) : State :=
  s.setRx n (if (s.rxOf n).cut then { s.rxOf n with cut := false }
    else { s.rxOf n with mse := mse, mseRun := mseRunNext (s.rxOf n) mse })

/-- The FFE of an ACTIVE lane adapts, unless its block was cut or its loop is held or owned (R84, R92). -/
def ffeAdapted (s : State) (n : Nat) (g : List Int) (mse : Nat) : State :=
  if (s.rxOf n).cut ∨ s.flag Reg.LN.RX_CTRL.FFE_FREEZE n ∨ s.flag Reg.ENG.PROG_CTRL.OWN_FFE n then s.blockSeen n mse
  else (s.blockSeen n mse).setTaps n (s.tapsMoved n g)

/-- The centroids of an ACTIVE lane adapt, unless they are frozen (R88). -/
def levelsAdapted (s u : State) (n : Nat) (lev : List Int) : State :=
  if s.flag Reg.LN.RX_CTRL.LEVEL_FREEZE n then u else u.setRx n { u.rxOf n with levels := s.levelsMoved n lev }

theorem levelsAdapted_reads (s u : State) (n : Nat) (lev : List Int) :
    (∃ r, s.levelsAdapted u n lev = { u with rx := r }) ∧
      ∃ l, (s.levelsAdapted u n lev).rxOf n = { u.rxOf n with levels := l } ∧
        (s.flag Reg.LN.RX_CTRL.LEVEL_FREEZE n = true → l = (u.rxOf n).levels) ∧
        (s.flag Reg.LN.RX_CTRL.LEVEL_FREEZE n = false → l = s.levelsMoved n lev) := by
  unfold levelsAdapted
  split
  · next h => exact ⟨⟨_, rfl⟩, _, rfl, fun _ => rfl, fun hf => by simp [h] at hf⟩
  · next h => exact ⟨⟨_, rfl⟩, _, rxOf_setRx_same .., fun hf => absurd hf h, fun _ => rfl⟩

theorem ffeAdapted_cut (g : List Int) (mse : Nat) (h : (s.rxOf n).cut = true) :
    s.ffeAdapted n g mse = s.setRx n { s.rxOf n with cut := false } := by
  simp [ffeAdapted, blockSeen, h]

theorem ffeAdapted_reads (g : List Int) (mse : Nat) (hcut : (s.rxOf n).cut = false)
    (hown : s.flag Reg.ENG.PROG_CTRL.OWN_FFE n = false) (hladder : s.ladderStep (courseOf n) 2 = false) :
    (∃ r, s.ffeAdapted n g mse = { s with rx := r }) ∧ ((s.ffeAdapted n g mse).rxOf n).mse = mse ∧
      ((s.ffeAdapted n g mse).rxOf n).levels = (s.rxOf n).levels ∧
      ((s.ffeAdapted n g mse).rxOf n).taps =
        if s.flag Reg.LN.RX_CTRL.FFE_FREEZE n then (s.rxOf n).taps else s.tapsMoved n g := by
  have hseen : s.blockSeen n mse =
      s.setRx n { s.rxOf n with mse := mse, mseRun := mseRunNext (s.rxOf n) mse } := by simp [blockSeen, hcut]
  unfold ffeAdapted
  rw [hseen]
  by_cases hf : s.flag Reg.LN.RX_CTRL.FFE_FREEZE n = true
  · rw [if_pos (.inr (.inl hf)), if_pos hf, rxOf_setRx_same]
    exact ⟨⟨_, rfl⟩, rfl, rfl, rfl⟩
  · have hwhole (x : RxX) (l : List Int) : (s.setRx n x).cutTaps n l = l :=
      if_neg (ne_true_of_eq_false hladder)
    rw [if_neg (by simp [hcut, hown, hf]), if_neg hf, setTaps, hwhole, rxOf_setRx_same, rxOf_setRx_same]
    exact ⟨⟨_, rfl⟩, rfl, rfl, rfl⟩

theorem tapsMoved_getD (s : State) (n : Nat) (g : List Int) {i : Nat} (hi : i < (s.rxOf n).taps.length) :
    (s.tapsMoved n g).getD i 0 = tapUpdate (muOf (s.rd Reg.LN.FFE_CTRL.MU_TRK n)) (s.rd Reg.LN.FFE_CTRL.LEAK n)
      ((s.rxOf n).taps.getD i 0) (g.getD i 0) := by
  simp [tapsMoved, List.getD_eq_getElem?_getD, hi]

theorem levelsMoved_getD (s : State) (n : Nat) (lev : List Int) {i : Nat} (hi : i < (s.rxOf n).levels.length) :
    (s.levelsMoved n lev).getD i 0 = (s.rxOf n).levels.getD i 0 + lev.getD i 0 / 2 ^ 10 := by
  simp [levelsMoved, List.getD_eq_getElem?_getD, hi]

end State

section
variable {s : State} {n : LaneNo} (hon : s.courseOn (courseOf n) = true) (h3 : s.lane n = 3)
include hon h3

/-- A block in which one was dropped is discarded (R92). -/
theorem exec_gradientBlockEnd_discard (g : List Int) (mse : Nat) (lev : List Int)
    (hd : (s.rxOf n).discard = true) : exec (.gradientBlockEnd n g mse lev) s =
      .next (s.setRx n { s.rxOf n with discard := false, cut := false }) :=
  congrArg Host.Outcome.next ((if_neg (by simp [h3, hon])).trans (if_pos hd))

theorem exec_gradientBlockEnd (g : List Int) (mse : Nat) (lev : List Int) (hd : (s.rxOf n).discard = false)
    (hheld : s.loopsHeld n = false) : exec (.gradientBlockEnd n g mse lev) s =
      .next (s.levelsAdapted (s.ffeAdapted n g mse) n lev) := by
  have hl : (s.flag Reg.LN.RX_CTRL.LEVEL_FREEZE n || (s.lane n == 2 && decide (s.rd Reg.LN.RX_STAT.ACQ_STEP n < 8))) =
      s.flag Reg.LN.RX_CTRL.LEVEL_FREEZE n := by simp [h3]
  refine congrArg Host.Outcome.next ((if_neg (by simp [h3, hon])).trans ((if_neg (by simp [hd])).trans
    ((if_neg (by simp [hheld])).trans ?_)))
  rw [hl, if_pos h3]
  rfl

/-- A block adapts the taps and the centroids of an ACTIVE lane whose FFE is whole and its own (R84, R88). -/
theorem gradientBlockEnd_adapts (g : List Int) (mse : Nat) (lev : List Int) (hd : (s.rxOf n).discard = false)
    (hcut : (s.rxOf n).cut = false) (hheld : s.loopsHeld n = false) (hladder : s.ladderStep (courseOf n) 2 = false)
    (hown : s.flag Reg.ENG.PROG_CTRL.OWN_FFE n = false) : Gives (.gradientBlockEnd n g mse lev) s fun t =>
      t = { s with rx := t.rx } ∧ (t.rxOf n).mse = mse ∧
      (t.rxOf n).taps = (if s.flag Reg.LN.RX_CTRL.FFE_FREEZE n then (s.rxOf n).taps else s.tapsMoved n g) ∧
      (t.rxOf n).levels =
        if s.flag Reg.LN.RX_CTRL.LEVEL_FREEZE n then (s.rxOf n).levels else s.levelsMoved n lev := by
  obtain ⟨⟨r, hu⟩, hmse, hlevels, htaps⟩ := State.ffeAdapted_reads g mse hcut hown hladder
  obtain ⟨⟨r', ht⟩, l, hx, hfrozen, hmoved⟩ := s.levelsAdapted_reads (s.ffeAdapted n g mse) n lev
  refine .of (exec_gradientBlockEnd hon h3 g mse lev hd hheld) ⟨?_, ?_, ?_, ?_⟩
  · have hs : s.levelsAdapted (s.ffeAdapted n g mse) n lev = { s with rx := r' } := ht.trans (by rw [hu])
    rw [hs]
  · rw [hx, hmse]
  · rw [hx, htaps]
  · rw [hx]
    split
    · next hf => exact (hfrozen hf).trans hlevels
    · next hf => exact hmoved (eq_false_of_ne_true hf)

theorem gradientBlockEnd_cut (g : List Int) (mse : Nat) (lev : List Int) (hd : (s.rxOf n).discard = false)
    (hcut : (s.rxOf n).cut = true) (hheld : s.loopsHeld n = false) : Gives (.gradientBlockEnd n g mse lev) s fun t =>
      (t.rxOf n).taps = (s.rxOf n).taps ∧ (t.rxOf n).bank = (s.rxOf n).bank ∧ (t.rxOf n).mse = (s.rxOf n).mse ∧
      (t.rxOf n).cut = false := by
  obtain ⟨-, l, hx, -⟩ := s.levelsAdapted_reads (s.ffeAdapted n g mse) n lev
  rw [State.ffeAdapted_cut g mse hcut, State.rxOf_setRx_same] at hx
  refine .of (exec_gradientBlockEnd hon h3 g mse lev hd hheld) ?_
  rw [State.ffeAdapted_cut g mse hcut, hx]
  exact ⟨rfl, rfl, rfl, rfl⟩

end

/-! ## The steps and their ends (R69 to R74) -/

section
variable {s : State} {n : LaneNo}

/-- Each step ends on its own condition, and the lane is ACTIVE after the last (R69). -/
theorem acqStep_ends (xs : List Nat) (lev : List Int) (p95 : Nat) (h2 : s.lane n = 2) :
    let x := s.rxOf n
    let step := s.rd Reg.LN.RX_STAT.ACQ_STEP n
    let t := s.acqStep n xs lev p95
    let now := t.rd Reg.LN.RX_STAT.ACQ_STEP n
    (step = 2 → now = 3) ∧ (step = 3 → now = if x.agcOk then 4 else 3) ∧ (step = 4 → x.sweep = false → now = 5) ∧
    (step = 4 → x.sweep = true → s.flag Reg.LN.RX_CTRL.CTLE_FREEZE n = true → now = 4) ∧
    (step = 4 → x.sweep = true → s.flag Reg.LN.RX_CTRL.CTLE_FREEZE n = false →
      s.rd Reg.LN.CTLE.MIN n ≤ s.rd Reg.LN.CTLE.MAX n → s.rd Reg.LN.CTLE.MAX n < 16 → now = 5 ∧
      s.rd Reg.LN.CTLE.MIN n ≤ t.rd Reg.LN.CTLE.SETTING n ∧ t.rd Reg.LN.CTLE.SETTING n ≤ s.rd Reg.LN.CTLE.MAX n) ∧
    (step = 5 → now = if s.flag Reg.LN.RX_STAT.CDR_LOCK n then 6 else 5) ∧
    (step = 6 → now = if 8 ≤ x.mseRun then 7 else 6) ∧
    (step = 7 → now = 8 ∧ (s.flag Reg.LN.RX_CTRL.TGT_FREEZE n = false → s.rd Reg.LN.MLSE_CTRL.ALPHA1_MAX n < 16 →
      t.rd Reg.LN.MLSE_CTRL.ALPHA1 n ≤ s.rd Reg.LN.MLSE_CTRL.ALPHA1_MAX n)) ∧
    (step = 8 → s.mode n = 4 ∨ s.mode n = 5 ∨ s.mode n = 1 →
      now = if s.flag Reg.LN.RX_STAT.FRAME_LOCK n then 9 else 8) ∧
    (step = 9 → s.flag Reg.LN.RX_STAT.FRAME_LOCK n = true →
      t.lane n = 3 ∧ t.flag Reg.EVT.LATCH.RAISED (laneSrc n 1) = true) ∧
    (step = 9 → s.flag Reg.LN.RX_STAT.FRAME_LOCK n = false → now = 8 ∧ t.lane n = 2) ∧ (step ≠ 9 → t.lane n = 2) := by
  intro x step t now
  refine ⟨fun h => ?_, fun h => ?_, fun h hsweep => ?_, fun h hsweep hf => ?_, fun h hsweep hf hle hmax => ?_,
    fun h => ?_, fun h => ?_, fun h => ?_, fun h hm => ?_, fun h hl => ?_, fun h hl => ?_, fun h => ?_⟩
  · simp only [now, t, State.acqStep_signal h]
    exact State.acqNext_step s n (by decide)
  · simp only [now, t, State.acqStep_gain h]
    exact State.acqNext_ite_step (by decide) h
  · simp only [now, t, State.acqStep_ctle h]
    rw [if_pos (by simpa using hsweep)]
    exact State.acqNext_step _ n (by decide)
  · simp only [now, t, State.acqStep_ctle h]
    rw [if_neg (by simpa using hsweep), if_pos hf]
    exact h
  · simp only [now, t, State.acqStep_ctle h]
    rw [if_neg (by simpa using hsweep), if_neg (by simp [hf])]
    have hin := State.sweepCtle_range (s := s) xs hle
    obtain ⟨hlo, hhi⟩ := hin
    refine ⟨State.acqNext_step _ n (by decide), ?_⟩
    rw [State.acqNext_rd (by simp), State.setRx_rd, State.rd_wr_same,
      Nat.mod_eq_of_lt (show _ < 2 ^ Reg.LN.CTLE.SETTING.w from hhi.trans_lt hmax)]
    exact ⟨hlo, hhi⟩
  · simp only [now, t, State.acqStep_clock h]
    exact State.acqNext_ite_step (by decide) h
  · simp only [now, t, State.acqStep_taps h]
    exact State.acqNext_ite_step (by decide) h
  · simp only [now, t, State.acqStep_target h]
    refine ⟨State.acqNext_step _ n (by decide), fun hf hmax => ?_⟩
    rw [State.acqNext_rd (by simp)]
    refine Eq.trans_le ?_ (State.targetTaken_alpha1 (xs := xs) hf hmax)
    split <;> rfl
  · have hm2 : m200 (s.mode n) = false := by
      rcases hm with hm | hm | hm <;> simp [m200, hm]
    simp only [now, t, State.acqStep_frame h hm2]
    exact State.acqNext_ite_step (by decide) h
  · obtain ⟨u, hu, -⟩ := State.acqStep_last (xs := xs) (lev := lev) (p95 := p95) h hl n.isLt
    simp only [t, hu]
    exact State.enterActive_active n.isLt
  · simp only [now, t, State.acqStep_unlocked h hl]
    exact ⟨State.acqNext_step s n (by decide), (State.acqNext_rd (by simp)).trans h2⟩
  · obtain ⟨-, hstill⟩ := State.acqStep_still (xs := xs) (lev := lev) (p95 := p95) n.isLt h rfl
    exact (hstill _ (.head _)).trans h2

/-- The lane begins anew at step 3 with its present coefficients (R74). -/
theorem frameLockTimeout_settles {at_ : Nat} (hat : (s.rxOf n).lossAt = some at_) (h2 : s.lane n = 2)
    (h8 : s.rd Reg.LN.RX_STAT.ACQ_STEP n = 8) (hl : s.flag Reg.LN.RX_STAT.FRAME_LOCK n = false) :
    Gives (.frameLockTimeout n) s fun t => t.rd Reg.LN.RX_STAT.ACQ_STEP n = 3 ∧ t.time = max s.time (at_ + 10000000) ∧
      (t.rxOf n).taps = (s.rxOf n).taps ∧
      OnlyRegs { s with rx := t.rx, time := t.time } t [Reg.LN.RX_STAT.ACQ_STEP.key n 0] := by
  refine .of (frameLockTimeout_restarts hat h2 h8 hl) ⟨State.acqNext_step _ n (by decide), rfl, ?_, ?_⟩
  · rw [State.acqNext, State.wr_rxOf, State.rxOf_setRx_same]
  · exact .wr (.of_regs rfl) (.head _)

theorem frameLockLoss_settles (hm : s.mode n = 2 ∨ s.mode n = 3) (hl : s.flag Reg.LN.RX_STAT.FRAME_LOCK n = true) :
    let step := s.rd Reg.LN.RX_STAT.ACQ_STEP n
    Gives (.frameLockLoss n) s fun t =>
      t.flag Reg.LN.RX_STAT.FRAME_LOCK n = false ∧ t.flag Reg.LN.FMT_STAT.OCM_LOCK n = false ∧
      (s.lane n ≠ 3 → OnlyRegs s t [Reg.LN.RX_STAT.FRAME_LOCK.key n 0, Reg.LN.FMT_STAT.OCM_LOCK.key n 0,
          Reg.LN.RX_STAT.ACQ_STEP.key n 0] ∧
        t.rd Reg.LN.RX_STAT.ACQ_STEP n = if s.lane n = 2 ∧ step = 9 then 8 else step) ∧
      (s.lane n = 3 → s.los n = false → t.lane n = 2 ∧ t.rd Reg.LN.RX_STAT.ACQ_STEP n = 8 ∧
        (t.rxOf n).lossAt = some t.time ∧ (t.rxOf n).taps = (s.rxOf n).taps) := by
  refine .of (congrArg Host.Outcome.next (if_pos ?_)) ⟨State.flag_eq_false _ (State.frameLockLost_lock n.isLt),
    State.flag_eq_false _ (State.frameLockLost_ocm n.isLt), fun h3 => ?_, fun h3 hlos => ?_⟩
  · rcases hm with hm | hm <;> simp [m200, hm, hl]
  · rw [State.frameLockLost_stays h3]
    exact ⟨s.lockDropped_onlyRegs n, State.lockDropped_step⟩
  · exact ⟨State.frameLockLost_lane n.isLt h3, State.frameLockLost_acquires n.isLt h3 hlos⟩

end

/-- Settles O46: `acqStep_ends` for the steps, `retried_reads` for the retry, `lockDropped` and `enterAcquire` for the
loss of frame lock, and `gradientBlockEnd_adapts` for the taps. -/
theorem acquisitionAndAdaptation : Obligations.AcquisitionAndAdaptation := by
  intro n s hon x step
  refine ⟨?_, ?_, fun _ => frameLockTimeout_settles, frameLockLoss_settles, ?_, ?_, ?_⟩
  · exact fun xs lev p95 h2 hlos heng =>
      ⟨_, exec_acqStepComplete xs lev p95 hon h2 hlos heng, acqStep_ends xs lev p95 h2⟩
  · intro h2 hlos hstop heng
    obtain ⟨y, he⟩ := exec_acqRetry h2 hlos hstop heng
    obtain ⟨hcount, hstep, hseed, hlane, htime, hgain⟩ := s.retried_reads n
    generalize s.retried n = u at he hcount hstep hseed hlane htime hgain
    exact .of he ⟨hcount, hstep, State.flag_eq_false _ hseed, hlane.trans h2, htime, hgain⟩
  · intro g mse lev h3 hd hcut hheld hladder hown
    obtain ⟨t, he, ht, hmse, htaps, hlevels⟩ := gradientBlockEnd_adapts hon h3 g mse lev hd hcut hheld hladder hown
    refine .of he ⟨.of_regs ht, hmse, fun hf => htaps.trans (if_pos hf), fun hf i hi => ?_, fun hf i hi => ?_,
      fun hf => hlevels.trans (if_pos hf)⟩
    · rw [htaps, if_neg (by simp [hf])]
      exact State.tapsMoved_getD s n g hi
    · rw [hlevels, if_neg (by simp [hf])]
      exact State.levelsMoved_getD s n lev hi
  · exact fun g mse lev h3 hd =>
      .of (exec_gradientBlockEnd_discard hon h3 g mse lev hd) ⟨rfl, State.rxOf_setRx_same ..⟩
  · exact fun g mse lev h3 hd hcut hheld => gradientBlockEnd_cut hon h3 g mse lev hd hcut hheld

end Sys2Proof.Machine
end

section
/-! Words of the hod: what a store, a fill and a read come to (R348, R349, R394 to R398, R402 to R405). -/

namespace Sys2Proof.Machine

namespace State
variable (s : State)

/-! ## One word (R394, R404) -/

theorem setHodWord_hodWord (w : Nat) (x : HodWord) (k : Nat) :
    (s.setHodWord w x).hodWord k = if k = w then some x else s.hodWord k := by
  have hw : (s.setHodWord w x).hod.words = Tab.set none s.hod.words w (some x) := rfl
  by_cases h : k = w
  · simp [hodWord, hw, h, Tab.get_set_same]
  · simp [hodWord, hw, h, Tab.get_set_ne _ _ _ _ _ _ h]

theorem granule_setHodWord_same (w : Nat) (x : HodWord) : (s.setHodWord w x).granule w = true := by
  simp [granule, setHodWord, flag]

/-- A granule that has been written stays written. -/
theorem granule_setHodWord {k : Nat} (h : s.granule k = true) (w : Nat) (x : HodWord) :
    (s.setHodWord w x).granule k = true := by
  by_cases hk : k / 8192 = w / 8192
  · simp [granule, setHodWord, flag, hk]
  · have hr : (s.setHodWord w x).rd Reg.HOD.WRITTEN.GRANULE (k / 8192) = s.rd Reg.HOD.WRITTEN.GRANULE (k / 8192) :=
      rd_wr_ne _ _ _ _ _ _ _ _ (by simpa using hk)
    rwa [granule, flag, hr]

/-- The general region is all that can be without a write (R394). -/
theorem lt_of_granule {w : Nat} (h : s.granule w = false) : 8 * w < captureBase := by
  simp only [granule, Bool.or_eq_false_iff, decide_eq_false_iff_not] at h
  omega

/-! ## HOD_FILL (R348) -/

/-- A fill changes what the hod holds and its written map, nothing else. -/
theorem fillWords_eq (v w n : Nat) : ∃ r h, s.fillWords v w n = { s with regs := r, hod := h } := by
  induction n generalizing s w with
  | zero => exact ⟨_, _, rfl⟩
  | succ n ih =>
    obtain ⟨r, h, he⟩ := ih (s.setHodWord w ⟨v, false⟩) (w + 1)
    exact ⟨r, h, he⟩

theorem fillWords_hodWord (v w n k : Nat) :
    (s.fillWords v w n).hodWord k = if w ≤ k ∧ k < w + n then some ⟨v, false⟩ else s.hodWord k := by
  induction n generalizing s w with
  | zero => rw [if_neg (by omega), fillWords]
  | succ n ih =>
    rw [fillWords, ih, setHodWord_hodWord]
    by_cases hk : k = w
    · rw [if_neg (by omega), if_pos hk, if_pos (by omega)]
    · simp only [hk, if_false, show (w + 1 ≤ k ∧ k < w + 1 + n) ↔ (w ≤ k ∧ k < w + (n + 1)) by omega]

theorem granule_fillWords {k : Nat} (h : s.granule k = true) (v w n : Nat) : (s.fillWords v w n).granule k = true := by
  induction n generalizing s w with
  | zero => exact h
  | succ n ih => exact ih _ (s.granule_setHodWord h w _) _

theorem fillWords_granule {v w n k : Nat} (h1 : w ≤ k) (h2 : k < w + n) : (s.fillWords v w n).granule k = true := by
  induction n generalizing s w with
  | zero => omega
  | succ n ih =>
    by_cases hk : k = w
    · rw [hk]
      exact granule_fillWords _ (s.granule_setHodWord_same w _) ..
    · exact ih _ (by omega) (by omega)

/-! ## HOD_WRITE (R348, R397) -/

theorem hodWrite_nil (ecc : List EccHit) (fuel ofs : Nat) : s.hodWrite ecc fuel ofs [] = s := by
  cases fuel <;> rfl

theorem hodWrite_step (ecc : List EccHit) (fuel ofs : Nat) {bs : List Byte} (h : bs ≠ []) :
    s.hodWrite ecc (fuel + 1) ofs bs =
      (s.hodWriteWord (ofs / 8) (ofs % 8) (bs.take (8 - ofs % 8)) ecc).hodWrite ecc fuel (ofs + (8 - ofs % 8))
        (bs.drop (8 - ofs % 8)) := by
  cases bs with
  | nil => contradiction
  | cons b bs => rfl

/-- Whole words are written without a read. -/
theorem hodWrite_whole (ecc : List EccHit) {fuel m ofs : Nat} {bs : List Byte} (h0 : ofs % 8 = 0)
    (hlen : bs.length = 8 * m) (hfuel : m ≤ fuel) (k : Nat) :
    (s.hodWrite ecc fuel ofs bs).hodWord k = if ofs / 8 ≤ k ∧ k < ofs / 8 + m then
      some ⟨leNat ((bs.drop (8 * (k - ofs / 8))).take 8), false⟩ else s.hodWord k := by
  induction m generalizing s fuel ofs bs with
  | zero => rw [List.length_eq_zero_iff.mp hlen, hodWrite_nil, if_neg (by omega)]
  | succ m ih =>
    obtain ⟨fuel, rfl⟩ := Nat.exists_eq_add_one.mpr (show 0 < fuel by omega)
    have hne : bs ≠ [] := List.ne_nil_of_length_pos (by omega)
    have hword : s.hodWriteWord (ofs / 8) (ofs % 8) (bs.take 8) ecc =
        s.setHodWord (ofs / 8) ⟨leNat (bs.take 8), false⟩ :=
      if_pos (by rw [List.length_take]; omega)
    rw [hodWrite_step _ _ _ _ hne, show 8 - ofs % 8 = 8 by omega, hword,
      ih _ (by omega) (by rw [List.length_drop]; omega) (by omega), setHodWord_hodWord]
    by_cases hk : k = ofs / 8
    · rw [if_neg (by omega), if_pos hk, if_pos (by omega), hk, Nat.sub_self, Nat.mul_zero, List.drop_zero]
    · simp only [hk, if_false, List.drop_drop, show (ofs + 8) / 8 = ofs / 8 + 1 by omega,
        show (ofs / 8 + 1 ≤ k ∧ k < ofs / 8 + 1 + m) ↔ (ofs / 8 ≤ k ∧ k < ofs / 8 + (m + 1)) by omega]
      split
      · next h => rw [show 8 + 8 * (k - (ofs / 8 + 1)) = 8 * (k - ofs / 8) by omega]
      · rfl

/-- A part of a word in a granule never written is merged into zeros (R397). -/
theorem hodWrite_part (ecc : List EccHit) {fuel ofs : Nat} {bs : List Byte} (hne : bs ≠ [])
    (hlen : ofs % 8 + bs.length < 8) (hg : s.granule (ofs / 8) = false) :
    s.hodWrite ecc (fuel + 1) ofs bs = s.setHodWord (ofs / 8)
      ⟨leNat (List.replicate (ofs % 8) 0 ++ bs ++ List.replicate (8 - ofs % 8 - bs.length) 0), false⟩ := by
  have hzero : leBytes 8 0 = List.replicate 8 0 := by decide
  have hmerge : mergeBytes 0 (ofs % 8) bs =
      leNat (List.replicate (ofs % 8) 0 ++ bs ++ List.replicate (8 - ofs % 8 - bs.length) 0) := by
    rw [mergeBytes, hzero, List.take_replicate, List.drop_replicate, Nat.min_eq_left (by omega), Nat.sub_sub]
  rw [hodWrite_step _ _ _ _ hne, List.take_of_length_le (by omega), List.drop_of_length_le (by omega), hodWrite_nil,
    ← hmerge]
  exact (if_neg (by omega)).trans (if_pos (by simp [hg, s.lt_of_granule hg]))

/-! ## The read of a word (R395, R398, R404, R405) -/

section
variable {s} {w : Nat} {x : HodWord} (src : Nat) {ecc : List EccHit}

theorem hodRead_never (ecc : List EccHit) (h : s.granule w = false) : s.hodRead w src ecc = (s, 0, false) :=
  if_pos (by simp [h, s.lt_of_granule h])

theorem hodRead_bad (ecc : List EccHit) (hg : s.granule w = true) (hw : s.hodWord w = some x) (hb : x.bad = true) :
    s.hodRead w src ecc = (s.hodUncorr w src false, x.v, true) := by
  simp [hodRead, hg, hw, hb]

variable (hg : s.granule w = true) (hw : s.hodWord w = some x) (hb : x.bad = false)
  (hbank : bitOf (s.rd Reg.HOD.STAT.CHK_FAIL) (hodBank (8 * w)) = false)
include hg hw hb hbank

theorem hodRead_clean (h : ∀ e ∈ ecc, e.word ≠ w) : s.hodRead w src ecc = (s, x.v, false) := by
  have hf : ecc.find? (fun e => e.word == w) = none := List.find?_eq_none.mpr (by simpa using h)
  simp [hodRead, hg, hw, hb, hbank, hf]

/-- A single-bit error is corrected (R395). -/
theorem hodRead_corr (b : Nat) : s.hodRead w src [⟨w, some b⟩] = (s.readCorr w b (src == 2), x.v, false) := by
  simp [hodRead, hg, hw, hb, hbank]

theorem hodRead_uncorr : s.hodRead w src [⟨w, none⟩] =
    (s.freed.readUncorr w src (s.free % 2 ^ 64) false, s.free % 2 ^ 64, true) := by
  simp [hodRead, hg, hw, hb, hbank]

end

/-! ## What errors log and repair (R395, R402, R403) -/

theorem raise_hod (src detail : Nat) : (s.raise src detail).hod = s.hod := by
  obtain ⟨_, _, h⟩ := s.raise_eq src detail
  rw [h]
  rfl

/-- An uncorrectable word is logged with its place. -/
theorem hodUncorr_reads (src : Nat) (quiet : Bool) {w : Nat} (h : w < 2 ^ 25) :
    (s.hodUncorr w src quiet).rd Reg.HOD.ECC_LOG.WORD = w ∧
      (s.hodUncorr w src quiet).flag Reg.HOD.ECC_LOG.VALID = true := by
  unfold flag
  rw [hodUncorr_rd _ _ _ _ (by simp), hodUncorr_rd _ _ _ _ (by simp), hodLogged, rd_wr_same,
    rd_wr_ne _ _ _ _ _ _ _ _ (by simp), rd_wr_ne _ _ _ _ _ _ _ _ (by simp), rd_wr_same]
  exact ⟨Nat.mod_eq_of_lt h, rfl⟩

theorem hodUncorr_logs (w src : Nat) (quiet : Bool) :
    (s.hodUncorr w src quiet).hod = s.hod ∧ (s.hodUncorr w src quiet).out = s.out := by
  have h : Logs s (s.hodUncorr w src quiet) := .hodUncorr (.refl s)
  constructor <;> rw [h]

/-- HOD_UNCORR is raised as the log becomes valid. -/
theorem hodUncorr_raises {w src : Nat} (h : s.flag Reg.HOD.ECC_LOG.VALID = false) :
    RaisesEvent s (s.hodUncorr w src false) 10 (w + src * 2 ^ 25) := by
  have he : s.hodUncorr w src false = (s.hodLogged w src).raise 10 (w + src * 2 ^ 25) := if_neg (by simp [h])
  rw [he]
  have hk4 : (s.hodLogged w src).k4On = s.k4On := k4On_congr rfl rfl rfl
  exact ⟨raise_latch _ _ _ (by omega), raise_lastSrc _ (by omega), fun hk => raise_raises _ _ _ (hk4.trans hk)⟩

end State

/-- What the hod controller keeps of captures (R346, R409). -/
def HodX.books (h : HodX) : List Capture × List Swatch × Nat := (h.caps, h.swatches, h.nextId)

/-- The places a field repair writes (R402, R403). -/
def repairKeys : List Nat :=
  raiseKeys 11 ++ [Reg.HOD.REPAIR_STAT.ENTRIES.key 0 0, Reg.HOD.REPAIR_STAT.EXHAUSTED.key 0 0,
    Reg.HOD.REPAIR_STAT.OVERLAY_PEND.key 0 0]

/-- From `s` to `t` repairs may have been made: the words, the captures and what has been sent stand. -/
structure State.Repairs (s t : State) : Prop where
  out : t.out = s.out
  words : t.hod.words = s.hod.words
  books : t.hod.books = s.hod.books
  regs : RegsBut s t repairKeys

namespace State.Repairs
variable {s t u : State}

theorem refl (s : State) : Repairs s s := ⟨rfl, rfl, rfl, fun _ _ _ => rfl⟩

theorem trans (h : Repairs s t) (h' : Repairs t u) : Repairs s u :=
  ⟨h'.out.trans h.out, h'.words.trans h.words, h'.books.trans h.books,
    fun k d hk => (h'.regs k d hk).trans (h.regs k d hk)⟩

theorem ite {c : Prop} [Decidable c] (ht : Repairs s t) (hu : Repairs s u) : Repairs s (if c then t else u) := by
  split
  · exact ht
  · exact hu

theorem wr (h : Repairs s t) {f : Fld} {v i j : Nat} (hk : f.key i j ∈ repairKeys) : Repairs s (t.wr f v i j) :=
  ⟨h.out, h.words, h.books, h.regs.wr hk⟩

theorem raise (h : Repairs s t) (detail : Nat) : Repairs s (t.raise 11 detail) := by
  refine ⟨(t.raise_out ..).trans h.out, ?_, ?_, h.regs.raise fun k hk => List.mem_append_left _ hk⟩
  · rw [raise_hod, h.words]
  · rw [raise_hod, h.books]

/-- The books of the hod other than its words and its captures. -/
theorem setHod (h : Repairs s t) {x : HodX} (hw : x.words = t.hod.words) (hb : x.books = t.hod.books) :
    Repairs s { t with hod := x } := ⟨h.out, hw.trans h.words, hb.trans h.books, h.regs⟩

theorem saveOverlay (h : Repairs s t) : Repairs s t.saveOverlay := by
  refine .ite (wr (h.setHod (by rfl) (by rfl)) (by simp [repairKeys])) (wr ?_ (by simp [repairKeys]))
  exact ⟨h.out, h.words, h.books, h.regs⟩

theorem fieldRepair (h : Repairs s t) (sub : Nat) (col : Bool) (which : Nat) :
    Repairs s (t.fieldRepair sub col which) := by
  unfold State.fieldRepair
  extract_lets used _ x s1
  have hx : x.words = t.hod.words ∧ x.books = t.hod.books := by
    unfold x
    split
    · exact ⟨rfl, rfl⟩
    · exact ⟨rfl, rfl⟩
  have h1 : Repairs s s1 := h.setHod hx.1 hx.2
  refine .ite h (.ite ?_ (.saveOverlay (.raise (.wr h1 (by simp [repairKeys])) _)))
  exact .ite (.raise (.wr h (by simp [repairKeys])) _) (.wr h (by simp [repairKeys]))

/-- A correctable error is counted, and what it shows repaired (R395). -/
theorem readCorr (s : State) (w bit : Nat) (scrub : Bool) :
    Repairs (s.count Reg.HOD.ECC_CORR.COUNT) (s.readCorr w bit scrub) := by
  unfold State.readCorr
  extract_lets _ _ _ _ s1 _ _ _ _ _ s2 s3
  have h2 : Repairs s1 s2 := setHod (.refl s1) (by rfl) (by rfl)
  have h3 : Repairs s1 s3 := .ite (h2.fieldRepair ..) h2
  exact .ite (h3.fieldRepair ..) h3

end State.Repairs

namespace State
variable (s : State)

theorem hodWord_congr {s t : State} (h : t.hod.words = s.hod.words) (w : Nat) : t.hodWord w = s.hodWord w := by
  rw [hodWord, h, hodWord]

theorem readCorr_reads (w bit : Nat) (scrub : Bool) (k : Nat) :
    (s.readCorr w bit scrub).out = s.out ∧ (s.readCorr w bit scrub).hodWord k = s.hodWord k ∧
      (s.readCorr w bit scrub).rd Reg.HOD.ECC_CORR.COUNT = min (s.rd Reg.HOD.ECC_CORR.COUNT + 1) (2 ^ 32 - 1) := by
  have h := Repairs.readCorr s w bit scrub
  exact ⟨h.out, hodWord_congr h.words k, (h.regs.rd (by simp [repairKeys, raiseKeys])).trans (count_rd ..)⟩

/-- An uncorrectable error of the arrays is logged, whatever is repaired after it. -/
theorem readUncorr_reads {w src : Nat} (v : Nat) (quiet : Bool) (hw : w < 2 ^ 25) (hsrc : src < 8) :
    (s.readUncorr w src v quiet).flag Reg.HOD.ECC_LOG.VALID = true ∧
      (s.readUncorr w src v quiet).rd Reg.HOD.ECC_LOG.WORD = w ∧
      (s.readUncorr w src v quiet).rd Reg.HOD.ECC_LOG.SOURCE = src := by
  obtain ⟨hword, hvalid⟩ := s.hodUncorr_reads src quiet hw
  have hr {f : Fld} (hf : f.key 0 0 < 29362176) (hk : f.key 0 0 ∉ repairKeys) :
      (s.readUncorr w src v quiet).rd f = (s.hodUncorr w src quiet).rd f := by
    refine (rd_wr_ne _ _ _ _ _ _ _ _ (by simp only [Reg.HOD.WRITTEN.GRANULE_key]; omega)).trans ?_
    exact ((Repairs.refl _).fieldRepair ..).regs.rd hk
  unfold flag at hvalid ⊢
  rw [hr (by simp) (by simp [repairKeys, raiseKeys]), hr (by simp) (by simp [repairKeys, raiseKeys]),
    hr (by simp) (by simp [repairKeys, raiseKeys])]
  exact ⟨hvalid, hword, s.hodUncorr_source quiet hsrc⟩

end State

end Sys2Proof.Machine
end

section
/-! The hod commands and the scrub (R348, R349, R394 to R405). -/

namespace Sys2Proof.Machine

variable {s u : State} {r : RingNo} {e : Entry} {d : Dma} {f : Flight}

theorem State.hodChk_eq {u : State} (hon : u.hodOn = true) (bad : Bool) :
    u.hodChk bad = if bad then some { st := .badField } else none := if_neg (by simp [hon])

/-! ## HOD_FILL (R348) -/

theorem hodFill_settles (ht : Taken s .hodFill r e d u f) (hon : u.hodOn = true) :
    let o := op32 f.e 16
    let n := op32 f.e 20
    ((o % 8 ≠ 0 ∨ n % 8 ≠ 0 ∨ 2 ^ 24 < n ∨ generalBytes < o + n) →
      Finishes (.hodFill r e d) s r f { st := .badField } fun t => t = u) ∧
    (o % 8 = 0 → n % 8 = 0 → n ≤ 2 ^ 24 → o + n ≤ generalBytes → Finishes (.hodFill r e d) s r f {} fun t =>
      t = (u.setPhase r f.fid .running).fillWords (op64 f.e 24) (o / 8) (n / 8)) := by
  refine ⟨fun hbad => ?_, fun ho hn h24 hr => ?_⟩
  · have hc : chkHodFill u f = some { st := .badField } := by
      refine (State.hodChk_eq hon _).trans (if_pos ?_)
      simpa [hodRangeOk, or_assoc] using hbad
    exact ⟨u, congrArg Host.Outcome.next (State.serve_refused ht _ hc), rfl⟩
  · have hc : chkHodFill u f = none := by
      refine (State.hodChk_eq hon _).trans (if_neg ?_)
      simp only [hodRangeOk, ho, hn, hr, decide_eq_true_eq, bne_self_eq_false, Bool.false_or, Bool.or_eq_true,
        decide_true, Bool.not_true, Bool.false_eq_true, or_false, if_false, not_lt]
      exact h24
    exact ⟨_, congrArg Host.Outcome.next (State.serve_taken ht hc), rfl⟩

/-! ## HOD_WRITE (R348) -/

/-- The operands of a HOD_WRITE that is refused. -/
def writeRefused (e : Entry) : Prop :=
  op32 e 20 = 0 ∨ 2 ^ 24 < op32 e 20 ∨ generalBytes < op32 e 16 + op32 e 20 ∨ op64 e 24 % 4 ≠ 0 ∨
    2 ^ 64 < op64 e 24 + op32 e 20

theorem hodWrite_settles (ht : Taken s .hodWrite r e d u f) (hon : u.hodOn = true) (ecc : List EccHit) :
    (writeRefused f.e → Finishes (.hodWrite r e d ecc) s r f { st := .badField } fun t => t = u) ∧
    (¬ writeRefused f.e → f.d.failAt = none → f.d.data.length = op32 f.e 20 →
      Finishes (.hodWrite r e d ecc) s r f {} fun t =>
        t = (u.setPhase r f.fid .running).hodStore (op32 f.e 16) f.d.data ecc) := by
  have hiff : (op32 f.e 20 == 0 || decide (2 ^ 24 < op32 f.e 20) || !hodRangeOk (op32 f.e 16) (op32 f.e 20) false ||
      op64 f.e 24 % 4 != 0 || decide (2 ^ 64 < op64 f.e 24 + op32 f.e 20)) = true ↔ writeRefused f.e := by
    simp [hodRangeOk, writeRefused, or_assoc]
  refine ⟨fun hbad => ?_, fun hok hfail hlen => ?_⟩
  · have hc : chkHodWrite u f = some { st := .badField } := (State.hodChk_eq hon _).trans (if_pos (hiff.mpr hbad))
    exact ⟨u, congrArg Host.Outcome.next (State.serve_refused ht _ hc), rfl⟩
  · have hc : chkHodWrite u f = none := (State.hodChk_eq hon _).trans (if_neg (mt hiff.mp hok))
    have hdata : (f.d.data ++ List.replicate (op32 f.e 20 - f.d.data.length) 0).take (op32 f.e 20) = f.d.data := by
      rw [← hlen, Nat.sub_self, List.replicate_zero, List.append_nil, List.take_length]
    refine ⟨_, congrArg Host.Outcome.next ((State.serve_taken ht hc).trans ?_), rfl⟩
    simp only [runHodWrite, hfail, hdata]
    rfl

/-! ## HOD_READ (R349) -/

/-- The operands of a HOD_READ that is refused. -/
def readRefused (e : Entry) : Prop :=
  2 ^ 24 < op32 e 20 ∨ 0x0B000000 < op32 e 16 + op32 e 20 ∨ op64 e 24 % 4 ≠ 0 ∨ op32 e 20 % 4 ≠ 0 ∨
    2 ^ 64 < op64 e 24 + op32 e 20

theorem leBytes_length (n v : Nat) : (leBytes n v).length = n := by simp [leBytes]

/-- A read of one whole word delivers what the word reads as, with the status of R349. -/
theorem runHodRead_word {u t : State} {ecc : List EccHit} {g : Origin} {v : Nat} {bad : Bool} (hn : op32 f.e 20 = 8)
    (ho : op32 f.e 16 % 8 = 0) (hfail : f.d.failAt = none) (h : u.hodRead (op32 f.e 16 / 8) 0 ecc = (t, v, bad)) :
    runHodRead ecc u g f = (t.emit (.hostWrite (op64 f.e 24) (leBytes 8 v))).finish g
      (if bad then { st := .eccUncorr, r1 := op32 f.e 16 }
       else if u.granule (op32 f.e 16 / 8) then {} else { st := .uninit, r1 := op32 f.e 16 }) := by
  have hofs : 8 * (op32 f.e 16 / 8) = op32 f.e 16 := by omega
  have huninit : u.firstUninit (op32 f.e 16 / 8) 1 =
      if u.granule (op32 f.e 16 / 8) then none else some (op32 f.e 16) := by
    cases hg : u.granule (op32 f.e 16 / 8) with
    | true => simp [State.firstUninit, hg]
    | false =>
      have hlt := u.lt_of_granule hg
      rw [hofs] at hlt
      simp [State.firstUninit, hg, hofs, hlt]
  have hreads : u.hodReads 0 ecc (op32 f.e 16 / 8) 1 = (t, leBytes 8 v, if bad then some (op32 f.e 16) else none) := by
    simp [State.hodReads, h, hofs]
  unfold runHodRead State.deliverHod
  rw [hn, ho]
  simp only [huninit, hreads, State.hostWrite, hfail, List.drop_zero, List.take_of_length_le (leBytes_length 8 v).le]
  cases bad <;> cases u.granule (op32 f.e 16 / 8) <;> rfl

theorem hodRead_settles (ht : Taken s .hodRead r e d u f) (hon : u.hodOn = true) (ecc : List EccHit) :
    (readRefused f.e → Finishes (.hodRead r e d ecc) s r f { st := .badField } fun t => t = u) ∧
    (¬ readRefused f.e → exec (.hodRead r e d ecc) s =
      .next (runHodRead ecc (u.setPhase r f.fid .running) (.host r f.fid) f)) := by
  have hiff : (decide (2 ^ 24 < op32 f.e 20) || !hodRangeOk (op32 f.e 16) (op32 f.e 20) true ||
      !addrOk (op64 f.e 24) (op32 f.e 20)) = true ↔ readRefused f.e := by
    simp only [hodRangeOk, addrOk, readRefused, Bool.or_eq_true, Bool.not_eq_true', Bool.and_eq_false_iff, or_assoc,
      decide_eq_true_eq, decide_eq_false_iff_not, beq_eq_false_iff_ne, if_true, not_le]
  refine ⟨fun hbad => ?_, fun hok => ?_⟩
  · have hc : chkHodRead u f = some { st := .badField } := (State.hodChk_eq hon _).trans (if_pos (hiff.mpr hbad))
    exact ⟨u, congrArg Host.Outcome.next (State.serve_refused ht _ hc), rfl⟩
  · have hc : chkHodRead u f = none := (State.hodChk_eq hon _).trans (if_neg (mt hiff.mp hok))
    exact congrArg Host.Outcome.next (State.serve_taken ht hc)

/-! ## SCRUB_READ (R400) -/

theorem exec_scrubRead {t : State} {w v : Nat} {hit : Bool} {bit : Option Nat} {bad : Bool} (hc : s.coreOn = true)
    (hon : s.hodOn = true) (hg : s.granule w = true) (hen : s.flag Reg.HOD.CTRL.SCRUB_EN = true) (hw : w < hodBytes / 8)
    (h : s.hodRead w 2 (if hit then [⟨w, bit⟩] else []) = (t, v, bad)) (last : Bool) :
    exec (.scrubRead w hit bit last) s = .next (if last then t.countWrap Reg.HOD.STAT.PASSES else t) := by
  refine congrArg Host.Outcome.next ((if_neg ?_).trans ?_)
  · simpa [hc, hon, hg, hen] using hw
  · rw [h]

/-- The end of a pass counts it, and shows in nothing else. -/
theorem passCounted_rd (t : State) (last : Bool) {g : Fld} (hg : g.key 0 0 ≠ Reg.HOD.STAT.PASSES.key 0 0) :
    (if last then t.countWrap Reg.HOD.STAT.PASSES else t).rd g = t.rd g := by
  split
  · exact State.rd_wr_ne _ _ _ _ _ _ _ _ hg
  · rfl

end Sys2Proof.Machine
end

section
/-! Captures: their start, trigger and ends, and the swatches they leave (R114, R346, R347, R409). -/

namespace Sys2Proof.Machine

/-! ## The books of the hod stand while its words are stored -/

namespace State
variable (s : State)

theorem hodUncorr_books (w src : Nat) (quiet : Bool) : (s.hodUncorr w src quiet).hod.books = s.hod.books :=
  congrArg HodX.books (s.hodUncorr_logs w src quiet).1

theorem readUncorr_books (w src v : Nat) (quiet : Bool) : (s.readUncorr w src v quiet).hod.books = s.hod.books :=
  ((Repairs.refl _).fieldRepair ..).books.trans (s.hodUncorr_books w src quiet)

theorem readCorr_books (w bit : Nat) (scrub : Bool) : (s.readCorr w bit scrub).hod.books = s.hod.books :=
  (Repairs.readCorr s w bit scrub).books

theorem hodWriteWord_books (w at_ : Nat) (new : List Byte) (ecc : List EccHit) :
    (s.hodWriteWord w at_ new ecc).hod.books = s.hod.books := by
  unfold hodWriteWord
  split
  · rfl
  · split
    · rfl
    · extract_lets bank put
      have hput (t : State) (v : Nat) (bad : Bool) : (put t v bad).hod.books = t.hod.books := rfl
      split
      · split
        · exact (hput ..).trans (hodUncorr_books ..)
        · split
          · exact (hput ..).trans (readUncorr_books ..)
          · refine (hput ..).trans ?_
            split <;> rfl
      · split
        · exact (hput ..).trans (hodUncorr_books ..)
        · split
          · exact hput ..
          · split
            · exact (hput ..).trans (readCorr_books ..)
            · exact (hput ..).trans (readUncorr_books ..)

theorem hodWrite_books (ecc : List EccHit) (fuel ofs : Nat) (bs : List Byte) :
    (s.hodWrite ecc fuel ofs bs).hod.books = s.hod.books := by
  induction fuel generalizing s ofs bs with
  | zero => rfl
  | succ n ih =>
    cases bs with
    | nil => rfl
    | cons b bs => exact (ih ..).trans (hodWriteWord_books ..)

theorem storeRows_books (rs : List Nat) (bs : List (List Byte)) : (s.storeRows rs bs).hod.books = s.hod.books := by
  induction rs generalizing s bs with
  | nil => rfl
  | cons r rs ih =>
    cases bs with
    | nil => rfl
    | cons b bs => exact (ih ..).trans (hodWrite_books ..)

/-! ## The end of a capture (R346) -/

variable {s} {c : Capture}

theorem capOn_one {n : Nat} (hcaps : s.hod.caps = [c]) (hn : c.lane = n) : s.capOn n = some c := by
  simp [capOn, hcaps, hn]

/-- The state with no capture on a lane that had the only one. -/
theorem caps_cleared (hcaps : s.hod.caps = [c]) : s.hod.caps.filter (fun x => x.lane != c.lane) = [] := by
  simp [hcaps]

theorem endCapture_nothing (hcaps : s.hod.caps = [c]) (st : Status) {w : SwatchData} (hw : w.rows = []) :
    s.endCapture c st w = ({ s with hod := { s.hod with caps := [] } } : State).finish c.origin
      { st := st, r1 := bitVal c.trigAt.isSome } := by
  refine (if_pos (by simp [hw])).trans ?_
  rw [caps_cleared hcaps]

/-- The rows a capture has stored become a swatch with the next ID (R409). -/
theorem endCapture_swatch (hcaps : s.hod.caps = [c]) (st : Status) {w : SwatchData} (hw : w.rows ≠ [])
    (hrows : 2 ≤ c.rows.length) :
    ∃ t : State, s.endCapture c st w = t.finish c.origin
        { st := st, r0 := s.hod.nextId, r1 := bitVal c.trigAt.isSome,
          r2 := 4096 * (min w.rows.length (c.rows.length - 1) + 1) } ∧
      t.hod.caps = [] ∧ t.hod.nextId = s.hod.nextId % (2 ^ 32 - 2) + 1 ∧ t.hod.swatches =
        s.hod.swatches ++ [⟨s.hod.nextId, c.rows.take (min w.rows.length (c.rows.length - 1) + 1)⟩] := by
  have hlen : (w.rows.take (c.rows.length - 1)).length = min w.rows.length (c.rows.length - 1) := by
    rw [List.length_take, Nat.min_comm]
  have hpos := List.length_pos_of_ne_nil hw
  unfold endCapture
  extract_lets _ s0 w' r1 id _ s1 s2
  have hw' : w'.rows.length = min w.rows.length (c.rows.length - 1) := hlen
  have hne : w'.rows.isEmpty = false := by
    rw [List.isEmpty_eq_false_iff, ← List.length_pos_iff]
    omega
  rw [if_neg (by simp [hne])]
  have hb : s2.hod.books = s1.hod.books := storeRows_books ..
  obtain ⟨hc2, hsw2, hid2⟩ : s2.hod.caps = s1.hod.caps ∧ s2.hod.swatches = s1.hod.swatches ∧
      s2.hod.nextId = s1.hod.nextId := by simpa [HodX.books] using hb
  refine ⟨s2, ?_, ?_, ?_, ?_⟩
  · rw [hw']
  · exact hc2.trans (caps_cleared hcaps)
  · exact hid2
  · rw [hsw2, ← hw']

end State

/-! ## CAPTURE_TRIGGER, CAPTURE_COMPLETE and CAPTURE_TIMEOUT (R346) -/

section
variable {s : State} {n : LaneNo} {c : Capture} (hcaps : s.hod.caps = [c]) (hn : c.lane = n.val)
include hcaps hn

theorem captureTrigger_once (sym : Nat) : Gives (.captureTrigger n sym) s fun t => t = { s with hod := t.hod } ∧
    t.capOn n = some (if c.trigAt = none then { c with trigAt := some (sym, s.time) } else c) := by
  refine .of rfl ⟨rfl, ?_⟩
  by_cases ht : c.trigAt = none
  · simp [State.capOn, hcaps, hn, ht]
  · simp [State.capOn, hcaps, hn, ht]

theorem exec_captureComplete (w : SwatchData) (ht : c.trigAt ≠ none) :
    exec (.captureComplete n w) s = .next ((s.endCapture c .ok w).slicesSettle n) := by
  show execCaptureComplete n w s = _
  rw [execCaptureComplete, State.capOn_one hcaps hn]
  exact congrArg Host.Outcome.next (if_pos (by simpa [Option.isSome_iff_ne_none] using ht))

theorem captureComplete_waits (w : SwatchData) (ht : c.trigAt = none) : exec (.captureComplete n w) s = .next s := by
  show execCaptureComplete n w s = _
  rw [execCaptureComplete, State.capOn_one hcaps hn]
  exact congrArg Host.Outcome.next (if_neg (by simp [ht]))

theorem exec_captureTimeout (w : SwatchData) (ht : c.trigAt = none) : exec (.captureTimeout n w) s =
    .next (((s.upTo (c.start + c.timeout * 1000000)).endCapture c .ok w).slicesSettle n) := by
  show execCaptureTimeout n w s = _
  rw [execCaptureTimeout, State.capOn_one hcaps hn]
  exact congrArg Host.Outcome.next (if_neg (by simp [ht]))

theorem captureTimeout_late (w : SwatchData) (ht : c.trigAt ≠ none) : exec (.captureTimeout n w) s = .next s := by
  show execCaptureTimeout n w s = _
  rw [execCaptureTimeout, State.capOn_one hcaps hn]
  exact congrArg Host.Outcome.next (if_pos (by simpa [Option.isSome_iff_ne_none] using ht))

theorem captureEnds (w : SwatchData) :
    (c.trigAt ≠ none → w.rows ≠ [] → 2 ≤ c.rows.length → EndsAndSettles (.captureComplete n w) s n c.origin
      { r0 := s.hod.nextId, r1 := 1, r2 := 4096 * (min w.rows.length (c.rows.length - 1) + 1) } fun t =>
        t.hod.caps = [] ∧ t.hod.nextId = s.hod.nextId % (2 ^ 32 - 2) + 1 ∧
        t.hod.swatches = s.hod.swatches ++ [⟨s.hod.nextId, c.rows.take (min w.rows.length (c.rows.length - 1) + 1)⟩]) ∧
    (c.trigAt ≠ none → w.rows = [] → EndsAndSettles (.captureComplete n w) s n c.origin { r1 := 1 } fun t =>
      t.hod = { s.hod with caps := [] } ∧ t.regs = s.regs) ∧
    (c.trigAt = none → exec (.captureComplete n w) s = .next s) ∧
    (c.trigAt = none → w.rows = [] → EndsAndSettles (.captureTimeout n w) s n c.origin {} fun t =>
      t.hod = { s.hod with caps := [] } ∧ t.regs = s.regs ∧ t.time = max s.time (c.start + c.timeout * 1000000)) ∧
    (c.trigAt ≠ none → exec (.captureTimeout n w) s = .next s) := by
  have hr1 (ht : c.trigAt ≠ none) : bitVal c.trigAt.isSome = 1 := by
    rw [Option.isSome_iff_ne_none.mpr ht]
    rfl
  refine ⟨fun ht hw hrows => ?_, fun ht hw => ?_, captureComplete_waits hcaps hn w, fun ht hw => ?_,
    captureTimeout_late hcaps hn w⟩
  · obtain ⟨t, he, hbooks⟩ := State.endCapture_swatch hcaps .ok hw hrows
    rw [hr1 ht] at he
    exact ⟨t, by rw [exec_captureComplete hcaps hn w ht, he], hbooks⟩
  · refine ⟨{ s with hod := { s.hod with caps := [] } }, ?_, rfl, rfl⟩
    rw [exec_captureComplete hcaps hn w ht, State.endCapture_nothing hcaps .ok hw, hr1 ht]
  · refine ⟨{ s.upTo (c.start + c.timeout * 1000000) with hod := { s.hod with caps := [] } }, ?_, rfl, rfl, rfl⟩
    rw [exec_captureTimeout hcaps hn w ht, State.endCapture_nothing (s := s.upTo _) hcaps .ok hw, ht]
    rfl

end

/-! ## CAPTURE_START, CAPTURE_DRAIN and CAPTURE_FREE (R346, R347) -/

section
variable {s u : State} {r : RingNo} {e : Entry} {d : Dma} {f : Flight}

theorem captureStart_settles (ht : Taken s .captureStart r e d u f) (hon : u.hodOn = true) :
    let n := f.e.target.toNat
    let point := opByte f.e 16
    let trig := opByte f.e 17
    let kib := op32 f.e 20
    let mode := u.mode n
    let bad := 4 < point ∨ 3 < trig ∨ kib = 0 ∨ 65536 < kib ∨ 607 < op16 f.e 24 ∨ u.lane n < 2 ∨ 5 < u.lane n ∨
      (trig = 2 ∧ mode ≠ 6) ∨ (point = 2 ∧ mode = 1) ∨
      (trig = 3 ∧ (mode = 1 ∨ u.flag Reg.LN.FMT_CFG.INNER_BYPASS n = true))
    (bad → Finishes (.captureStart r e d) s r f { st := .badField } fun t => t = u) ∧
    (¬ bad → u.capOn n ≠ none → Finishes (.captureStart r e d) s r f { st := .inUse } fun t => t = u) ∧
    (¬ bad → u.capOn n = none → u.freeRows.length < max 2 ((kib + 3) / 4) →
      Finishes (.captureStart r e d) s r f { st := .noSpace } fun t => t = u) ∧
    (¬ bad → u.capOn n = none → max 2 ((kib + 3) / 4) ≤ u.freeRows.length → exec (.captureStart r e d) s =
      .next (runCaptureStart (u.setPhase r f.fid .running) (.host r f.fid) f)) := by
  intro n point trig kib mode bad
  have hoff : ¬ (!u.hodOn) = true := by simp [hon]
  have refused {res : Res} (hc : chkCaptureStart u f = some res) :
      Finishes (.captureStart r e d) s r f res fun t => t = u :=
    ⟨u, congrArg Host.Outcome.next (State.serve_refused ht _ hc), rfl⟩
  refine ⟨fun hbad => refused ?_, fun hok hcap => refused ?_, fun hok hcap hroom => refused ?_,
    fun hok hcap hroom => ?_⟩
  · exact (if_neg hoff).trans (if_pos hbad)
  · exact (if_neg hoff).trans ((if_neg hok).trans (if_pos (Option.isSome_iff_ne_none.mpr hcap)))
  · exact (if_neg hoff).trans ((if_neg hok).trans ((if_neg (by simpa using hcap)).trans (if_pos hroom)))
  · have hc : chkCaptureStart u f = none :=
      (if_neg hoff).trans ((if_neg hok).trans ((if_neg (by simpa using hcap)).trans (if_neg (Nat.not_lt.mpr hroom))))
    exact congrArg Host.Outcome.next (State.serve_taken ht hc)

theorem runCaptureStart_reads (v : State) (g : Origin) (f : Flight)
    (hroom : swatchRows (op32 f.e 20) ≤ v.freeRows.length) :
    ∃ c : Capture, (runCaptureStart v g f).hod = { v.hod with caps := v.hod.caps ++ [c] } ∧ c.lane = f.e.target.toNat ∧
      c.point = opByte f.e 16 ∧ c.rows.length = swatchRows (op32 f.e 20) ∧ (∀ x ∈ c.rows, x ∈ v.freeRows) ∧
      c.timeout = (if op16 f.e 26 = 0 then 1000 else op16 f.e 26) ∧ c.origin = g ∧
      (opByte f.e 17 = 0 ↔ c.trigAt ≠ none) := by
  refine ⟨_, rfl, rfl, rfl, ?_, fun x hx => List.mem_of_mem_take hx, rfl, rfl, ?_⟩
  · rw [List.length_take, Nat.min_eq_left hroom]
  · by_cases h : opByte f.e 17 = 0 <;> simp [h]

theorem captureDrain_unknown (ht : Taken s .captureDrain r e d u f) (hon : u.hodOn = true)
    (hno : ∀ x ∈ u.hod.swatches, x.id ≠ op32 f.e 16) (ecc : List EccHit) :
    Finishes (.captureDrain r e d ecc) s r f { st := .badField } fun t => t = u := by
  have hany : (u.hod.swatches.any fun w => w.id == op32 f.e 16) = false := by simpa using hno
  have hc : chkCaptureDrain u f = some { st := .badField } :=
    (if_neg (by simp [hon])).trans (if_pos (by simp [hany]))
  exact ⟨u, congrArg Host.Outcome.next (State.serve_refused ht _ hc), rfl⟩

/-- The first eight bytes of a swatch of one row. -/
theorem captureDrain_word (ht : Taken s .captureDrain r e d u f) (hon : u.hodOn = true) {x : Swatch} {row v : Nat}
    (hsw : u.hod.swatches = [x]) (hid : x.id = op32 f.e 16) (hrows : x.rows = [row]) (hofs : op32 f.e 20 = 0)
    (hlen : op32 f.e 24 = 8) (ha : op64 f.e 32 % 4 = 0) (hend : op64 f.e 32 + 8 ≤ 2 ^ 64) (hfail : f.d.failAt = none)
    (hchk : u.rd Reg.HOD.STAT.CHK_FAIL = 0) (hw : u.hodWord ((captureBase + 4096 * row) / 8) = some ⟨v, false⟩) :
    Finishes (.captureDrain r e d []) s r f { r0 := 8 } fun t =>
      t = (u.setPhase r f.fid .running).emit (.hostWrite (op64 f.e 32) (leBytes 8 v)) := by
  have hc : chkCaptureDrain u f = none := by
    refine (if_neg (by simp [hon])).trans (if_neg ?_)
    simp only [hsw, hid, hlen, addrOk, ha, List.any_cons, beq_self_eq_true, Bool.true_or, Bool.not_true, Bool.false_or,
      Bool.true_and, Bool.or_eq_true, Bool.not_eq_true', decide_eq_false_iff_not, decide_eq_true_eq]
    omega
  have hread : (u.setPhase r f.fid .running).hodRead ((captureBase + 4096 * row) / 8) 0 [] =
      (u.setPhase r f.fid .running, v, false) := by
    refine State.hodRead_clean (x := ⟨v, false⟩) 0 ?_ hw rfl ?_ (by simp)
    · have hbase : captureBase ≤ 8 * ((captureBase + 4096 * row) / 8) := by
        simp only [captureBase]
        omega
      simp [State.granule, hbase]
    · rw [show (u.setPhase r f.fid .running).rd Reg.HOD.STAT.CHK_FAIL = 0 from hchk]
      simp [bitOf]
  have hswatch : (u.setPhase r f.fid .running).swatchRead x.rows [] 0 1 =
      (u.setPhase r f.fid .running, leBytes 8 v, none) := by
    simp only [State.swatchRead, hrows, Nat.zero_div, List.getElem?_cons_zero, Nat.zero_mod, Nat.add_zero, hread,
      List.append_nil]
    rfl
  refine ⟨_, congrArg Host.Outcome.next ((State.serve_taken ht hc).trans ?_), rfl⟩
  have hfind : (u.setPhase r f.fid .running).hod.swatches.find? (fun w => w.id == op32 f.e 16) = some x := by
    show u.hod.swatches.find? _ = _
    simp [hsw, hid]
  have hn : min (op32 f.e 24) (4096 * x.rows.length - 0) = 8 := by rw [hlen, hrows]; rfl
  simp only [runCaptureDrain, hfind, hn, hofs, Nat.zero_div, Nat.zero_mod, Nat.zero_add, Nat.reduceAdd, Nat.reduceDiv,
    hswatch, List.drop_zero, List.take_of_length_le (leBytes_length 8 v).le, State.hostWrite, hfail]

theorem captureFree_settles (ht : Taken s .captureFree r e d u f) (hon : u.hodOn = true) :
    let id := op32 f.e 16
    (id ≠ 0xFFFFFFFF → (∀ x ∈ u.hod.swatches, x.id ≠ id) →
      Finishes (.captureFree r e d) s r f { st := .badField } fun t => t = u) ∧
    (id = 0xFFFFFFFF ∨ (∃ x ∈ u.hod.swatches, x.id = id) → Finishes (.captureFree r e d) s r f {} fun t =>
      t.hod = { u.hod with swatches :=
        if id = 0xFFFFFFFF then [] else u.hod.swatches.filter fun x => x.id != id } ∧ t.regs = u.regs) := by
  intro id
  refine ⟨fun hall hno => ?_, fun hsome => ?_⟩
  · have hc : chkCaptureFree u f = some { st := .badField } := by
      refine (if_neg (by simp [hon])).trans (if_neg (not_or.mpr ⟨hall, ?_⟩))
      simpa using hno
    exact ⟨u, congrArg Host.Outcome.next (State.serve_refused ht _ hc), rfl⟩
  · have hc : chkCaptureFree u f = none := by
      refine (if_neg (by simp [hon])).trans (if_pos ?_)
      simpa [List.any_eq_true] using hsome
    exact ⟨_, congrArg Host.Outcome.next (State.serve_taken ht hc), rfl, rfl⟩

end

end Sys2Proof.Machine
end

section
/-! What the hod commands, the scrub and captures come to. -/

namespace Sys2Proof.Machine

section
variable {s u : State} {r : RingNo} {e : Entry} {d : Dma} {f : Flight}

/-- A fill leaves the pattern in every word of its range and in no other (R348). -/
theorem hodFill_fills (ht : Taken s .hodFill r e d u f) (hon : u.hodOn = true) :
    let o := op32 f.e 16
    let n := op32 f.e 20
    ((o % 8 ≠ 0 ∨ n % 8 ≠ 0 ∨ 2 ^ 24 < n ∨ generalBytes < o + n) →
      Finishes (.hodFill r e d) s r f { st := .badField } fun t => t = u) ∧
    (o % 8 = 0 → n % 8 = 0 → n ≤ 2 ^ 24 → o + n ≤ generalBytes → Finishes (.hodFill r e d) s r f {} fun t =>
      (∀ w, o ≤ 8 * w → 8 * w < o + n → t.hodWord w = some ⟨op64 f.e 24, false⟩ ∧ t.granule w = true) ∧
      (∀ w, (8 * w < o ∨ o + n ≤ 8 * w) → t.hodWord w = u.hodWord w) ∧ t.out = u.out ∧ NoRaise u t) := by
  intro o n
  obtain ⟨hbad, hfill⟩ := hodFill_settles ht hon
  refine ⟨hbad, fun ho hn h24 hr => ?_⟩
  obtain ⟨t, he, rfl⟩ := hfill ho hn h24 hr
  refine ⟨_, he, fun w h1 h2 => ⟨?_, ?_⟩, fun w hw => ?_, ?_, ?_⟩
  · rw [State.fillWords_hodWord, if_pos (by omega)]
  · exact State.fillWords_granule _ (by omega) (by omega)
  · rw [State.fillWords_hodWord, if_neg (by omega)]
    rfl
  · obtain ⟨_, _, hf⟩ := State.fillWords_eq (u.setPhase r f.fid .running) (op64 f.e 24) (o / 8) (n / 8)
    rw [hf]
    rfl
  · obtain ⟨_, _, hf⟩ := State.fillWords_eq (u.setPhase r f.fid .running) (op64 f.e 24) (o / 8) (n / 8)
    rw [hf]
    exact ⟨rfl, rfl⟩

/-- A write leaves the bytes of host memory in whole words, or merged into a word never written (R348, R397). -/
theorem hodWrite_writes (ht : Taken s .hodWrite r e d u f) (hon : u.hodOn = true) (ecc : List EccHit) :
    let o := op32 f.e 16
    let n := op32 f.e 20
    let a := op64 f.e 24
    ((n = 0 ∨ 2 ^ 24 < n ∨ generalBytes < o + n ∨ a % 4 ≠ 0 ∨ 2 ^ 64 < a + n) →
      Finishes (.hodWrite r e d ecc) s r f { st := .badField } fun t => t = u) ∧
    (0 < n → n ≤ 2 ^ 24 → o + n ≤ generalBytes → a % 4 = 0 → a + n ≤ 2 ^ 64 → f.d.failAt = none → f.d.data.length = n →
      (o % 8 = 0 → n % 8 = 0 → Finishes (.hodWrite r e d ecc) s r f {} fun t =>
        (∀ k < n / 8, t.hodWord (o / 8 + k) = some ⟨leNat ((f.d.data.drop (8 * k)).take 8), false⟩) ∧
        (∀ w, (8 * w < o ∨ o + n ≤ 8 * w) → t.hodWord w = u.hodWord w)) ∧
      (o % 8 + n < 8 → u.granule (o / 8) = false → Finishes (.hodWrite r e d ecc) s r f {} fun t =>
        t.hodWord (o / 8) =
          some ⟨leNat (List.replicate (o % 8) 0 ++ f.d.data ++ List.replicate (8 - o % 8 - n) 0), false⟩ ∧
        t.granule (o / 8) = true ∧ NoRaise u t ∧ ∀ w, w ≠ o / 8 → t.hodWord w = u.hodWord w)) := by
  intro o n a
  obtain ⟨hbad, hstore⟩ := hodWrite_settles ht hon ecc
  refine ⟨hbad, fun h0 h24 hr ha hend hfail hlen => ?_⟩
  have hok : ¬ writeRefused f.e := by
    unfold writeRefused
    omega
  obtain ⟨t, he, rfl⟩ := hstore hok hfail hlen
  refine ⟨fun ho hn => ?_, fun hpart hg => ?_⟩
  · have hwhole := State.hodWrite_whole (u.setPhase r f.fid .running) ecc (fuel := f.d.data.length / 8 + 2) (m := n / 8)
      (bs := f.d.data) ho (by omega) (by omega)
    refine ⟨_, he, fun k hk => ?_, fun w hw => ?_⟩
    · rw [State.hodStore, hwhole, if_pos (by omega), Nat.add_sub_cancel_left]
    · rw [State.hodStore, hwhole, if_neg (by omega)]
      rfl
  · have hne : f.d.data ≠ [] := List.ne_nil_of_length_pos (by omega)
    have hstored := State.hodWrite_part (u.setPhase r f.fid .running) ecc (fuel := f.d.data.length / 8 + 1) hne
      (by omega) hg
    have hstore' : (u.setPhase r f.fid .running).hodStore (op32 f.e 16) f.d.data ecc =
        (u.setPhase r f.fid .running).setHodWord (o / 8)
          ⟨leNat (List.replicate (o % 8) 0 ++ f.d.data ++ List.replicate (8 - o % 8 - n) 0), false⟩ := by
      rw [State.hodStore, hstored, hlen]
    refine ⟨_, he, ?_⟩
    rw [hstore']
    refine ⟨?_, State.granule_setHodWord_same .., ⟨rfl, rfl⟩, fun w hw => ?_⟩
    · rw [State.setHodWord_hodWord, if_pos rfl]
    · rw [State.setHodWord_hodWord, if_neg hw]
      rfl

/-- A read of a word delivers what it holds, with the status R349 gives it. -/
theorem hodRead_delivers (ht : Taken s .hodRead r e d u f) (hon : u.hodOn = true) (ecc : List EccHit) :
    let o := op32 f.e 16
    let n := op32 f.e 20
    let a := op64 f.e 24
    let w := o / 8
    ((2 ^ 24 < n ∨ 0x0B000000 < o + n ∨ a % 4 ≠ 0 ∨ n % 4 ≠ 0 ∨ 2 ^ 64 < a + n) →
      Finishes (.hodRead r e d ecc) s r f { st := .badField } fun t => t = u) ∧
    (n = 8 → o % 8 = 0 → o + n ≤ 0x0B000000 → a % 4 = 0 → a + n ≤ 2 ^ 64 → f.d.failAt = none →
      (u.granule w = false → Finishes (.hodRead r e d ecc) s r f { st := .uninit, r1 := o } fun t =>
        t = (u.setPhase r f.fid .running).emit (.hostWrite a (List.replicate 8 0))) ∧
      (∀ x : HodWord, u.granule w = true → u.hodWord w = some x →
        bitOf (u.rd Reg.HOD.STAT.CHK_FAIL) (hodBank o) = false →
        (x.bad = true → Finishes (.hodRead r e d ecc) s r f { st := .eccUncorr, r1 := o } fun t =>
          t.out = u.out ++ [.hostWrite a (leBytes 8 x.v)] ∧ t.rd Reg.HOD.ECC_LOG.WORD = w ∧
          t.flag Reg.HOD.ECC_LOG.VALID = true ∧ t.hod = u.hod ∧
          (u.flag Reg.HOD.ECC_LOG.VALID = false → RaisesEvent u t 10 w)) ∧
        (x.bad = false → (∀ h ∈ ecc, h.word ≠ w) → Finishes (.hodRead r e d ecc) s r f {} fun t =>
          t = (u.setPhase r f.fid .running).emit (.hostWrite a (leBytes 8 x.v))) ∧
        (∀ b, x.bad = false → ecc = [⟨w, some b⟩] → Finishes (.hodRead r e d ecc) s r f {} fun t =>
          t.out = u.out ++ [.hostWrite a (leBytes 8 x.v)] ∧ t.hodWord w = some x ∧
          t.rd Reg.HOD.ECC_CORR.COUNT = min (u.rd Reg.HOD.ECC_CORR.COUNT + 1) (2 ^ 32 - 1)))) := by
  intro o n a w
  obtain ⟨hbad, hrun⟩ := hodRead_settles ht hon ecc
  refine ⟨hbad, fun hn ho hr ha hend hfail => ?_⟩
  have hok : ¬ readRefused f.e := by
    unfold readRefused
    omega
  have hofs : 8 * w = o := by omega
  have hw25 : w < 2 ^ 25 := by omega
  have delivers {v : Nat} {bad : Bool} {t : State} {res : Res} {P : State → Prop}
      (h : (u.setPhase r f.fid .running).hodRead w 0 ecc = (t, v, bad))
      (hres : (if bad then { st := .eccUncorr, r1 := o }
        else if u.granule w then {} else { st := .uninit, r1 := o }) = res)
      (hP : P (t.emit (.hostWrite a (leBytes 8 v)))) : Finishes (.hodRead r e d ecc) s r f res P := by
    subst hres
    exact ⟨_, (hrun hok).trans (congrArg Host.Outcome.next (runHodRead_word hn ho hfail h)), hP⟩
  refine ⟨fun hg => ?_, fun x hg hw hbank => ?_⟩
  · refine delivers (State.hodRead_never (s := u.setPhase r f.fid .running) 0 ecc hg) (by simp [hg]) ?_
    rw [show leBytes 8 0 = List.replicate 8 0 by decide]
  rw [← hofs] at hbank
  refine ⟨fun hb => ?_, fun hb hno => ?_, fun b hb hecc => ?_⟩
  · refine delivers (State.hodRead_bad (s := u.setPhase r f.fid .running) 0 ecc hg hw hb) (by simp) ?_
    obtain ⟨hword, hvalid⟩ := (u.setPhase r f.fid .running).hodUncorr_reads 0 false hw25
    obtain ⟨hhod, hout⟩ := (u.setPhase r f.fid .running).hodUncorr_logs w 0 false
    refine ⟨congrArg (· ++ _) hout, hword, hvalid, hhod, fun hlog => ?_⟩
    exact State.hodUncorr_raises (s := u.setPhase r f.fid .running) (w := w) (src := 0) hlog
  · exact delivers (State.hodRead_clean (s := u.setPhase r f.fid .running) 0 hg hw hb hbank hno) (by simp [hg]) rfl
  · subst hecc
    obtain ⟨hout, hwords, hcount⟩ := (u.setPhase r f.fid .running).readCorr_reads w b false w
    exact delivers (State.hodRead_corr (s := u.setPhase r f.fid .running) 0 hg hw hb hbank b) (by simp [hg])
      ⟨congrArg (· ++ _) hout, hwords.trans hw, hcount⟩

end

/-- A scrub read corrects what it can, logs what it cannot, and the last one counts the pass (R395, R400, R405). -/
theorem scrubRead_scrubs {s : State} {w : Nat} {x : HodWord} (last : Bool) (hc : s.coreOn = true) (hon : s.hodOn = true)
    (hg : s.granule w = true) (hen : s.flag Reg.HOD.CTRL.SCRUB_EN = true) (hlt : w < hodBytes / 8)
    (hw : s.hodWord w = some x) (hb : x.bad = false)
    (hbank : bitOf (s.rd Reg.HOD.STAT.CHK_FAIL) (hodBank (8 * w)) = false) :
    (Gives (.scrubRead w false none last) s fun t =>
      t.rd Reg.HOD.STAT.PASSES = (if last then (s.rd Reg.HOD.STAT.PASSES + 1) % 65536 else s.rd Reg.HOD.STAT.PASSES) ∧
      OnlyRegs s t [Reg.HOD.STAT.PASSES.key 0 0]) ∧
    (∀ b, Gives (.scrubRead w true (some b) last) s fun t => t.hodWord w = some x ∧
      t.rd Reg.HOD.ECC_CORR.COUNT = min (s.rd Reg.HOD.ECC_CORR.COUNT + 1) (2 ^ 32 - 1)) ∧
    Gives (.scrubRead w true none last) s fun t => t.flag Reg.HOD.ECC_LOG.VALID = true ∧
      (s.flag Reg.HOD.CTRL.REPAIR_EN = false → t.rd Reg.HOD.ECC_LOG.WORD = w ∧ t.rd Reg.HOD.ECC_LOG.SOURCE = 2) := by
  have hw25 : w < 2 ^ 25 := by
    simp only [hodBytes] at hlt
    omega
  refine ⟨?_, fun b => ?_, ?_⟩
  · refine ⟨_, exec_scrubRead hc hon hg hen hlt (State.hodRead_clean 2 hg hw hb hbank (by simp)) last, ?_⟩
    cases last with
    | false => exact ⟨rfl, rfl, fun _ _ _ => rfl⟩
    | true => exact ⟨State.rd_wr_same .., OnlyRegs.wr ⟨rfl, fun _ _ _ => rfl⟩ (by simp)⟩
  · refine ⟨_, exec_scrubRead (hit := true) (bit := some b) hc hon hg hen hlt
      (State.hodRead_corr 2 hg hw hb hbank b) last, ?_⟩
    obtain ⟨-, hwords, hcount⟩ := s.readCorr_reads w b true w
    refine ⟨?_, ?_⟩
    · rw [← hw, ← hwords]
      split <;> rfl
    · rw [passCounted_rd _ _ (by simp)]
      exact hcount
  · refine ⟨_, exec_scrubRead (hit := true) (bit := none) hc hon hg hen hlt
      (State.hodRead_uncorr 2 hg hw hb hbank) last, ?_⟩
    obtain ⟨hvalid, hword, hsrc⟩ := s.freed.readUncorr_reads (s.free % 2 ^ 64) false hw25 (show 2 < 8 by decide)
    refine ⟨?_, fun _ => ⟨?_, ?_⟩⟩
    · rw [State.flag, passCounted_rd _ _ (by simp)]
      exact hvalid
    · rw [passCounted_rd _ _ (by simp)]
      exact hword
    · rw [passCounted_rd _ _ (by simp)]
      exact hsrc

/-- Settles O44: every clause is one of the lemmas above on its command. -/
theorem hodAndCaptures : Obligations.HodAndCaptures := by
  unfold Obligations.HodAndCaptures
  refine ⟨⟨?_, ?_, ?_, ?_⟩, ?_, ?_, ?_, ?_, ?_, ?_⟩
  · exact fun _ _ _ _ _ _ => hodFill_fills
  · exact fun _ _ _ _ _ ecc _ ht hon => hodWrite_writes ht hon ecc
  · exact fun _ _ _ _ _ ecc _ ht hon => hodRead_delivers ht hon ecc
  · exact fun _ last _ _ => scrubRead_scrubs last
  · intro s u r e d f ht hon
    obtain ⟨hbad, huse, hroom, hrun⟩ := captureStart_settles ht hon
    refine ⟨hbad, huse, hroom, fun hok hcap hfree => ⟨_, hrun hok hcap hfree, rfl, rfl, ?_⟩⟩
    exact runCaptureStart_reads (u.setPhase r f.fid .running) _ f hfree
  · exact fun _ sym _ _ hcaps hn => captureTrigger_once hcaps hn sym
  · exact fun _ w _ _ hcaps hn => captureEnds hcaps hn w
  · exact fun _ _ _ _ _ ecc _ ht hon hno => captureDrain_unknown ht hon hno ecc
  · intro s u r e d f x row w v ht hon hsw hid hrows hofs hlen ha hend hfail hchk hw hword
    exact captureDrain_word ht hon hsw hid hrows hofs hlen ha hend hfail hchk (hw ▸ hword)
  · intro s u r e d f ht hon id
    obtain ⟨hno, hfree⟩ := captureFree_settles ht hon
    refine ⟨hno, fun hall => ?_, fun hone hsome => ?_⟩
    · simpa only [id, hall, if_true] using hfree (.inl hall)
    · simpa only [id, hone, if_false] using hfree (.inr hsome)

end Sys2Proof.Machine
end

section
/-! What the slices of a lane change in the rest of the state: their books, the fields that show them, and the events
of the lane's calibration (R112, R118 to R123, R502). -/

namespace Sys2Proof.Machine

namespace State

theorem calOf_setCal_ne (s : State) {n l : Nat} (x : CalX) (h : l ≠ n) : (s.setCal n x).calOf l = s.calOf l :=
  Tab.get_set_ne _ _ _ _ _ _ h

/-- The fields that show the slices and the groups of lane `n`, and the places of its events CAL_SUSPECT and
SLICE_RETIRED. -/
def sliceKeys (n : Nat) : List Nat :=
  [Reg.LN.CAL_STAT.PENDING.key n 0, Reg.LN.CAL_STAT.SUSPECT.key n 0, Reg.LN.SLICE_STAT.SWAPS.key n 0,
    Reg.LN.SLICE_STAT.NO_SPARE.key n 0] ++ raiseKeys (laneSrc n 4) ++ raiseKeys (laneSrc n 6)

/-- From `s` to `t` the slices of lane `n` were at work: what slices hold, the retire maps, the fields `sliceKeys` and
the raises on their way may differ, nothing else. -/
def Slicing (n : Nat) (s t : State) : Prop :=
  (∃ c m g rs hs, t = { s with cal := c, retire := m, regs := g, raises := rs, held := hs }) ∧
    RegsBut s t (sliceKeys n)

namespace Slicing
variable {n : Nat} {s t u : State}

theorem refl (s : State) : Slicing n s s := ⟨⟨_, _, _, _, _, rfl⟩, fun _ _ _ => rfl⟩

theorem tests (h : Slicing n s t) : t.tests = s.tests := by
  obtain ⟨⟨_, _, _, _, _, rfl⟩, -⟩ := h
  rfl

theorem bias (h : Slicing n s t) : t.bias = s.bias := by
  obtain ⟨⟨_, _, _, _, _, rfl⟩, -⟩ := h
  rfl

/-- A field that is none of the lane's slices and no event reads as before. -/
theorem rd (h : Slicing n s t) {f : Fld} {i : Nat} (hk : f.key i 0 ∉ sliceKeys n) : t.rd f i = s.rd f i := h.2.rd hk

theorem onlyCal (h : Slicing n s t) (hu : OnlyCal t u) : Slicing n s u := by
  obtain ⟨⟨_, _, _, _, _, rfl⟩, hregs⟩ := h
  obtain ⟨_, rfl⟩ := hu
  exact ⟨⟨_, _, _, _, _, rfl⟩, hregs⟩

theorem setCal {l : Nat} {x : CalX} (h : Slicing n s t) : Slicing n s (t.setCal l x) := h.onlyCal (.setCal (.refl t))

theorem setSlice {l i : Nat} {x : SliceX} (h : Slicing n s t) : Slicing n s (t.setSlice l i x) := .setCal h

theorem setRetire {m : Tab (List Nat)} (h : Slicing n s t) : Slicing n s { t with retire := m } := by
  obtain ⟨⟨_, _, _, _, _, rfl⟩, hregs⟩ := h
  exact ⟨⟨_, _, _, _, _, rfl⟩, hregs⟩

theorem ite {c : Prop} [Decidable c] (ht : Slicing n s t) (hu : Slicing n s u) : Slicing n s (if c then t else u) := by
  split
  · exact ht
  · exact hu

theorem wr {f : Fld} {v : Nat} (h : Slicing n s t) (hk : f.key n 0 ∈ sliceKeys n) : Slicing n s (t.wr f v n) := by
  obtain ⟨⟨_, _, _, _, _, rfl⟩, hregs⟩ := h
  exact ⟨⟨_, _, _, _, _, rfl⟩, hregs.wr hk⟩

theorem raise {k detail : Nat} (h : Slicing n s t) (hk : k = 4 ∨ k = 6) :
    Slicing n s (t.raise (laneSrc n k) detail) := by
  have hregs : RegsBut s (t.raise (laneSrc n k) detail) (sliceKeys n) := by
    refine h.2.raise fun x hx => ?_
    obtain rfl | rfl := hk
    · exact List.mem_append_left _ (List.mem_append_right _ hx)
    · exact List.mem_append_right _ hx
  refine ⟨?_, hregs⟩
  obtain ⟨⟨_, _, _, _, _, rfl⟩, -⟩ := h
  obtain ⟨_, _, he⟩ := State.raise_eq _ (laneSrc n k) detail
  exact ⟨_, _, _, _, _, he⟩

theorem setSuspect {v : Nat} (h : Slicing n s t) : Slicing n s (t.setSuspect n v) :=
  .ite (.raise (.wr h (by simp [sliceKeys])) (.inl rfl)) (.wr h (by simp [sliceKeys]))

theorem refreshS (h : Slicing n s t) : Slicing n s (t.refreshS n) := .setSuspect h

theorem noSpare (h : Slicing n s t) : Slicing n s (t.noSpare n) :=
  .ite (.raise (.wr h (by simp [sliceKeys])) (.inr rfl)) (.wr h (by simp [sliceKeys]))

theorem writeRetireMap (h : Slicing n s t) : Slicing n s (t.writeRetireMap n) :=
  .ite (.setCal (.setRetire h)) (.setCal h)

theorem retireSlice {i : Nat} {rotate : Bool} (h : Slicing n s t) : Slicing n s (t.retireSlice n i rotate) := by
  have unqueued : Slicing n s (t.unqueue n i) := .setCal h
  refine .ite (.ite (.noSpare h) (.noSpare ?_)) (.raise (.writeRetireMap (.setSlice unqueued)) (.inr rfl))
  exact .ite (.setCal (.setSlice unqueued)) (.setSlice unqueued)

theorem abandonShadow (h : Slicing n s t) : Slicing n s (t.abandonShadow n) := h.onlyCal (.abandonShadow (.refl t))

theorem replaceActive {i : Nat} (h : Slicing n s t) : Slicing n s (t.replaceActive n i) := by
  unfold State.replaceActive
  split
  · exact .setSlice (.setSlice (.setCal h))
  · exact h

/-- A slice that fails a lane test leaves service where it can (R471). -/
theorem testRetire {i : Nat} (h : Slicing n s t) : Slicing n s (t.testRetire n i) := by
  have replaced : Slicing n s (t.replaceActive n i) := .replaceActive h
  unfold State.testRetire
  split
  · exact h
  · exact .ite (.retireSlice h) (.ite (.noSpare replaced) (.refreshS (.retireSlice replaced)))
  · exact .refreshS (.retireSlice (.abandonShadow h))
  · exact .refreshS (.retireSlice h)

theorem bistRetire {i : Nat} (h : Slicing n s t) : Slicing n s (t.bistRetire n i) :=
  .ite (.ite h (.ite (.setRetire h) (.setCal h))) (.testRetire h)

theorem slicesSettle (h : Slicing n s t) : Slicing n s (t.slicesSettle n) := by
  obtain hc | ⟨-, u, v, hu, hc⟩ := slicesSettle_eq t n
  · exact h.onlyCal hc
  · exact onlyCal (.setSuspect (.wr (h.onlyCal hu) (by simp [sliceKeys]))) hc

theorem cutGroup (h : Slicing n s t) : Slicing n s (t.cutGroup n) := by
  unfold State.cutGroup
  split
  · exact h
  · exact .wr (.setCal h) (by simp [sliceKeys])

theorem calSettle (h : Slicing n s t) : Slicing n s (t.calSettle n) := .slicesSettle (.ite h (.cutGroup h))

end Slicing

end State

end Sys2Proof.Machine
end

section
/-! Built-in tests: what BIST_RUN refuses and starts (R360, R466, R473). -/

namespace Sys2Proof.Machine

variable {s u : State} {r : RingNo} {e : Entry} {d : Dma} {f : Flight}

/-! ## BIST_RUN (R360, R473) -/

/-- The partition a BIST_RUN names is at rest for a test. -/
def testTargetOk (u : State) (cls n : Nat) : Prop :=
  (cls = 1 → u.coursePow n = .off ∧ u.inTransition 1 n = false) ∧ (cls = 2 → u.lane n = 5) ∧
    (cls = 3 → u.quadOn (n / 32) = false ∧ u.inTransition 2 (n / 32) = false)

/-- The targets of a test are the device, a course, a line lane or a host lane (R323, R360). -/
theorem Taken.testTarget (ht : Taken s .bistRun r e d u f) :
    f.e.cls.toNat = 0 ∨ f.e.cls.toNat = 1 ∧ f.e.target.toNat < 8 ∨ f.e.cls.toNat = 2 ∧ f.e.target.toNat < 64 ∨
      f.e.cls.toNat = 3 ∧ f.e.target.toNat < 128 := by
  obtain ⟨htake, -, hjudge, -⟩ := ht
  have hop : opOfCode f.op = some .bistRun := by rw [State.takeUp_op _ htake, State.opOfCode_opCode]
  have hf := State.judge_fieldsOk _ hop hjudge
  simp only [fieldsOk, opClasses, Bool.and_eq_true, decide_eq_true_eq, List.contains_cons, List.contains_nil,
    Bool.or_false, Bool.or_eq_true, beq_iff_eq] at hf
  obtain ⟨⟨⟨-, hcls⟩, htarget⟩, -⟩ := hf
  obtain hcls | hcls | hcls | hcls := hcls <;> simp_all [targetLimit]

theorem chkBistRun_settles (hcls : f.e.cls.toNat ≤ 3) :
    let bad := 2 < opByte f.e 16 ∨ ¬ testTargetOk u f.e.cls.toNat f.e.target.toNat
    (bad → chkBistRun u f = some { st := .badField }) ∧
    (¬ bad → chkBistRun u f = if 4 ≤ u.tests.length then some { st := .inUse } else none) := by
  have hvals : f.e.cls.toNat = 0 ∨ f.e.cls.toNat = 1 ∨ f.e.cls.toNat = 2 ∨ f.e.cls.toNat = 3 := by omega
  intro bad
  refine ⟨fun hbad => if_pos ?_, fun hok => if_neg ?_⟩
  · obtain h | h | h | h := hvals <;> simpa [bad, testTargetOk, h, imp_iff_not_or] using hbad
  · obtain h | h | h | h := hvals <;> simpa [bad, testTargetOk, h] using hok

theorem bistRun_settles (ht : Taken s .bistRun r e d u f) :
    let ok := testTargetOk u f.e.cls.toNat f.e.target.toNat
    let kind := opByte f.e 16
    (2 < kind ∨ ¬ ok → Finishes (.bistRun r e d) s r f { st := .badField } fun t => t = u) ∧
    (kind ≤ 2 → ok → 4 ≤ u.tests.length → Finishes (.bistRun r e d) s r f { st := .inUse } fun t => t = u) ∧
    (kind ≤ 2 → ok → u.tests.length < 4 → exec (.bistRun r e d) s =
      .next (runBistRun (u.setPhase r f.fid .running) (.host r f.fid) f)) := by
  intro ok kind
  have hcls : f.e.cls.toNat ≤ 3 := by
    have := ht.testTarget
    omega
  obtain ⟨hbad, hgood⟩ := chkBistRun_settles (u := u) hcls
  have refused {res : Res} (hc : chkBistRun u f = some res) : Finishes (.bistRun r e d) s r f res fun t => t = u :=
    ⟨u, congrArg Host.Outcome.next (State.serve_refused ht _ hc), rfl⟩
  refine ⟨fun hb => refused (hbad hb), fun hk hok hfull => refused ?_, fun hk hok hroom => ?_⟩
  · exact (hgood (not_or.mpr ⟨Nat.not_lt.mpr hk, not_not.mpr hok⟩)).trans (if_pos hfull)
  · have hc : chkBistRun u f = none :=
      (hgood (not_or.mpr ⟨Nat.not_lt.mpr hk, not_not.mpr hok⟩)).trans (if_neg (Nat.not_le.mpr hroom))
    exact congrArg Host.Outcome.next (State.serve_taken ht hc)

/-- A lane in test sends nothing (R148, R473). -/
theorem State.txCheck_inTest {s : State} {n : Nat} (h : s.inTest (64 + n) = true) :
    s.txCheck n = s.wr Reg.LN.TX_STAT.TX_ACTIVE 0 n := by
  have hidle : s.txIdle n = true := by
    simp [State.txIdle, State.idleCause, h, bitVal]
  exact if_neg (by simp [hidle])

/-- A run takes its partition, and what is in test keeps still (R473). -/
theorem runBistRun_takes (v : State) (g : Origin) (f : Flight)
    (hcls : f.e.cls.toNat = 0 ∨ f.e.cls.toNat = 1 ∧ f.e.target.toNat < 8 ∨ f.e.cls.toNat = 2 ∧ f.e.target.toNat < 64 ∨
      f.e.cls.toNat = 3 ∧ f.e.target.toNat < 128) :
    let n := f.e.target.toNat
    let cls := f.e.cls.toNat
    let t := runBistRun v g f
    t.tests = v.tests ++ [⟨bistCode cls n, opByte f.e 16, g⟩] ∧ t.bias = v.bias ∧
      (cls = 1 ∨ cls = 3 → t = { v with tests := t.tests }) ∧
      (cls = 2 → t.rd Reg.LN.TX_STAT.TX_ACTIVE n = 0) ∧ (cls = 0 → t.raises = [] ∧ t.regs = v.regs) := by
  intro n cls t
  have apart (hlo : ¬ 64 ≤ bistCode cls n) (h12 : bistCode cls n ≠ 12) :
      t = { v with tests := v.tests ++ [⟨bistCode cls n, opByte f.e 16, g⟩] } := (if_neg hlo).trans (if_neg h12)
  obtain hc | ⟨hc, hn⟩ | ⟨hc, hn⟩ | ⟨hc, hn⟩ := hcls
  · have ht : t = ({ v with tests := v.tests ++ [⟨bistCode cls n, opByte f.e 16, g⟩] } : State).holdRaises := by
      have hcode : bistCode cls n = 12 := by simp [cls, hc, bistCode]
      exact (if_neg (by rw [hcode]; decide)).trans (if_pos hcode)
    rw [ht]
    refine ⟨rfl, rfl, by omega, by omega, fun _ => ⟨rfl, rfl⟩⟩
  · have hcode : bistCode cls n = n := by simp [cls, hc, bistCode]
    rw [apart (by omega) (by omega)]
    exact ⟨rfl, rfl, fun _ => rfl, by omega, by omega⟩
  · have hcode : bistCode cls n = 64 + n := by simp [cls, hc, bistCode]
    have ht : t = ((({ v with tests := v.tests ++ [⟨64 + n, opByte f.e 16, g⟩] } : State).txCheck n).calSettle n) := by
      refine (if_pos (by rw [hcode]; omega)).trans ?_
      rw [hcode, Nat.add_sub_cancel_left]
    rw [State.txCheck_inTest (by simp [State.inTest])] at ht
    have hs := State.Slicing.calSettle (n := n) (.refl
      (({ v with tests := v.tests ++ [⟨64 + n, opByte f.e 16, g⟩] } : State).wr Reg.LN.TX_STAT.TX_ACTIVE 0 n))
    rw [← ht] at hs
    refine ⟨by rw [hs.tests, hcode]; rfl, hs.bias, by omega, fun _ => ?_, by omega⟩
    rw [hs.rd (by simp [State.sliceKeys, raiseKeys, laneSrc]; omega), State.rd_wr_same]
    rfl
  · have hcode : bistCode cls n = 8 + n / 32 := by simp [cls, hc, bistCode]
    rw [apart (by omega) (by omega)]
    exact ⟨rfl, rfl, fun _ => rfl, by omega, by omega⟩

end Sys2Proof.Machine
end

section
/-! The end of a test run: what it records, and the slices it takes out of service (R119, R120, R469 to R474). -/

namespace Sys2Proof.Machine

theorem Logs.ite {s t u : State} {c : Prop} [Decidable c] (ht : Logs s t) (hu : Logs s u) :
    Logs s (if c then t else u) := by
  split
  · exact ht
  · exact hu

/-! ## The record of a run (R469, R470, R474) -/

namespace State

/-- A run that ends by itself leaves its results in the registers, and nothing else changes before its completion. -/
theorem bistRecord_ended (s : State) (t : BistRun) (logic mem pats misr : Nat) (f : Option BistFail) :
    let c := f.getD ⟨0, 0, 0, 0, 0⟩
    ∃ u : State, s.bistRecord t logic mem pats misr f false = u.finish t.origin
        { r0 := logic + 4 * mem, r1 := c.cls + 256 * c.inst, r2 := c.addr, r3 := c.bit + 256 * c.slice } ∧
      Logs s u ∧ u.rd Reg.BIST.LAST.TARGET = t.code % 128 ∧
      u.rd Reg.BIST.LAST.LOGIC = logic % 4 ∧ u.rd Reg.BIST.LAST.MEM = mem % 4 ∧ u.rd Reg.BIST.LAST.ABORTED = 0 ∧
      u.rd Reg.BIST.LAST.COUNT = (s.rd Reg.BIST.LAST.COUNT + 1) % 65536 ∧
      (logic ≠ 3 → u.rd Reg.BIST.MISR.SIGNATURE = misr % 2 ^ 64 ∧ u.rd Reg.BIST.LAST_PAT.PATTERNS = pats % 2 ^ 32) ∧
      (mem ≠ 3 → u.rd Reg.BIST.FAIL_MEM.CLASS = c.cls % 256 ∧ u.rd Reg.BIST.FAIL_MEM.INSTANCE = c.inst % 256 ∧
        u.rd Reg.BIST.FAIL_ADDR.ADDR = c.addr % 2 ^ 32) := by
  intro c
  unfold bistRecord
  extract_lets s1 s2 c' s3
  have hc : c' = c := by
    unfold c c'
    cases f <;> rfl
  clear_value c c'
  subst hc
  have hs1 : Logs s s1 := .wr (.wr (.wr (.wr (.wr (.refl s)))))
  have hs2 : Logs s s2 := .ite hs1 (.wr (.wr hs1))
  refine ⟨s3, rfl, ?_, ?_⟩
  · exact .ite hs2 (.wr (.wr (.wr (.wr (.wr hs2)))))
  · -- the fields of a kind are written only where it ran
    by_cases hl : logic = 3 <;> by_cases hm : mem = 3 <;>
      simp [s3, s2, s1, hl, hm, State.rd_wr_ne, State.wrB, State.countWrap, bitVal]

end State

/-! ## Slices that fail a test in C_OFF (R119, R120, R471) -/

namespace State

/-- From `s` to `t` test failures of a course in C_OFF have been put on file: the retire maps and the notes for the next
C_ON only grow, and nothing else differs. -/
structure Files (s t : State) : Prop where
  rest : ∃ c m, t = { s with cal := c, retire := m }
  mapped : ∀ n j, j < 68 → j ∈ Tab.get [] s.retire n → j ∈ Tab.get [] t.retire n
  noted : ∀ n j, j ∈ (s.calOf n).tested → j ∈ (t.calOf n).tested

theorem Files.refl (s : State) : Files s s := ⟨⟨_, _, rfl⟩, fun _ _ _ h => h, fun _ _ h => h⟩

theorem Files.trans {s t u : State} (h : Files s t) (h' : Files t u) : Files s u := by
  obtain ⟨_, _, ht⟩ := h.rest
  obtain ⟨_, _, hu⟩ := h'.rest
  exact ⟨⟨_, _, by rw [hu, ht]⟩, fun n j hj hm => h'.mapped n j hj (h.mapped n j hj hm),
    fun n j hn => h'.noted n j (h.noted n j hn)⟩

theorem Files.coursePow {s t : State} (h : Files s t) (c : Nat) : t.coursePow c = s.coursePow c := by
  obtain ⟨_, _, rfl⟩ := h.rest
  rfl

theorem Files.nvmOpen {s t : State} (h : Files s t) : t.nvmOpen = s.nvmOpen := by
  obtain ⟨_, _, rfl⟩ := h.rest
  rfl

/-- The retire map of a lane with slice `i` in it. -/
def mapWith (m : List Nat) (i : Nat) : List Nat := (List.range 68).filter fun j => m.contains j || j == i

theorem mem_mapWith {m : List Nat} {i j : Nat} : j ∈ mapWith m i ↔ j < 68 ∧ (j ∈ m ∨ j = i) := by
  simp [mapWith]

theorem mapWith_length (m : List Nat) (i : Nat) : (mapWith m i).length ≤ m.length + 1 := by
  have hsub : mapWith m i ⊆ i :: m := fun j hj => by
    obtain ⟨-, hj⟩ := mem_mapWith.mp hj
    exact List.mem_cons.mpr hj.symm
  exact (List.subperm_of_subset (List.nodup_range.filter _) hsub).length_le

variable {s : State} {n i : Nat}

/-- A failing slice enters the retire map where it may, else the notes. -/
theorem bistRetire_off (h : s.coursePow (courseOf n) = .off) : s.bistRetire n i =
    if (Tab.get [] s.retire n).contains i then s
    else if s.nvmOpen && decide ((Tab.get [] s.retire n).length < 4) then
      { s with retire := Tab.set [] s.retire n (mapWith (Tab.get [] s.retire n) i) }
    else s.setCal n { s.calOf n with tested := (s.calOf n).tested ++ [i] } := if_pos h

theorem bistRetire_files (h : s.coursePow (courseOf n) = .off) : Files s (s.bistRetire n i) := by
  rw [bistRetire_off h]
  split
  · exact .refl s
  · split
    · refine ⟨⟨_, _, rfl⟩, fun k j hj hm => ?_, fun _ _ hn => hn⟩
      by_cases hk : k = n
      · subst hk
        rw [Tab.get_set_same]
        exact mem_mapWith.mpr ⟨hj, .inl hm⟩
      · rwa [Tab.get_set_ne _ _ _ _ _ _ hk]
    · refine ⟨⟨_, _, rfl⟩, fun _ _ _ hm => hm, fun k j hn => ?_⟩
      by_cases hk : k = n
      · subst hk
        rw [calOf_setCal_same]
        exact List.mem_append_left _ hn
      · rwa [calOf_setCal_ne _ _ hk]

/-- A failure adds no more than one slice to a map. -/
theorem bistRetire_length (h : s.coursePow (courseOf n) = .off) (k : Nat) :
    (Tab.get [] (s.bistRetire n i).retire k).length ≤ (Tab.get [] s.retire k).length + 1 := by
  rw [bistRetire_off h]
  split
  · omega
  · split
    · by_cases hk : k = n
      · subst hk
        rw [Tab.get_set_same]
        exact mapWith_length ..
      · rw [Tab.get_set_ne _ _ _ _ _ _ hk]
        omega
    · show (Tab.get [] s.retire k).length ≤ _
      omega

theorem bistRetire_mapped (h : s.coursePow (courseOf n) = .off) (hi : i < 68) (hopen : s.nvmOpen = true)
    (hroom : (Tab.get [] s.retire n).length < 4) : i ∈ Tab.get [] (s.bistRetire n i).retire n := by
  rw [bistRetire_off h]
  split
  · next hm => simpa using hm
  · rw [if_pos (by simp [hopen, hroom]), Tab.get_set_same]
    exact mem_mapWith.mpr ⟨hi, .inr rfl⟩

theorem bistRetire_noted (h : s.coursePow (courseOf n) = .off) (hopen : s.nvmOpen = false) :
    (s.bistRetire n i).retire = s.retire ∧
      (i ∈ Tab.get [] s.retire n ∨ i ∈ ((s.bistRetire n i).calOf n).tested) := by
  rw [bistRetire_off h]
  split
  · next hm => exact ⟨rfl, .inl (by simpa using hm)⟩
  · rw [if_neg (by simp [hopen]), calOf_setCal_same]
    exact ⟨rfl, .inr (by simp)⟩

/-- The failures of a run, as lane and slice, put on file one by one. -/
def bistRetires (s : State) (l : List (Nat × Nat)) : State := l.foldl (fun t p => t.bistRetire p.1 p.2) s

theorem bistRetires_files {l : List (Nat × Nat)} (h : ∀ p ∈ l, s.coursePow (courseOf p.1) = .off) :
    Files s (s.bistRetires l) := by
  refine List.foldlRecOn l _ (.refl s) fun t ht p hp => ht.trans (bistRetire_files ?_)
  rw [ht.coursePow]
  exact h p hp

theorem bistRetires_mapped {l : List (Nat × Nat)} (h : ∀ p ∈ l, s.coursePow (courseOf p.1) = .off)
    (hopen : s.nvmOpen = true) {p : Nat × Nat} (hp : p ∈ l) (hi : p.2 < 68)
    (hroom : (Tab.get [] s.retire p.1).length + l.length ≤ 4) :
    p.2 ∈ Tab.get [] (s.bistRetires l).retire p.1 := by
  induction l generalizing s with
  | nil => simp at hp
  | cons q l ih =>
    have hq := h q (.head _)
    have hfile := bistRetire_files (i := q.2) hq
    have hl : ∀ x ∈ l, (s.bistRetire q.1 q.2).coursePow (courseOf x.1) = .off := fun x hx => by
      rw [hfile.coursePow]
      exact h x (.tail _ hx)
    rw [List.length_cons] at hroom
    obtain rfl | hp := List.mem_cons.mp hp
    · exact (bistRetires_files hl).mapped _ _ hi (bistRetire_mapped hq hi hopen (by omega))
    · refine ih (s := s.bistRetire q.1 q.2) hl (hfile.nvmOpen.trans hopen) hp ?_
      have := bistRetire_length (i := q.2) hq p.1
      omega

theorem bistRetires_noted {l : List (Nat × Nat)} (h : ∀ p ∈ l, s.coursePow (courseOf p.1) = .off)
    (hopen : s.nvmOpen = false) : (s.bistRetires l).retire = s.retire ∧ ∀ p ∈ l,
      p.2 ∈ Tab.get [] s.retire p.1 ∨ p.2 ∈ ((s.bistRetires l).calOf p.1).tested := by
  induction l generalizing s with
  | nil => exact ⟨rfl, fun p hp => by simp at hp⟩
  | cons q l ih =>
    have hq := h q (.head _)
    have hfile := bistRetire_files (i := q.2) hq
    have hl : ∀ x ∈ l, (s.bistRetire q.1 q.2).coursePow (courseOf x.1) = .off := fun x hx => by
      rw [hfile.coursePow]
      exact h x (.tail _ hx)
    obtain ⟨hsame, hnote⟩ := bistRetire_noted (i := q.2) hq hopen
    obtain ⟨hrest, hnotes⟩ := ih hl (hfile.nvmOpen.trans hopen)
    refine ⟨hrest.trans hsame, fun p hp => ?_⟩
    obtain rfl | hp := List.mem_cons.mp hp
    · exact hnote.imp_right ((bistRetires_files hl).noted _ _)
    · rw [← hsame]
      exact hnotes p hp

/-- Whatever fails, the tests, the bias outputs and the count of runs stand. -/
theorem bistRetires_keeps {l : List (Nat × Nat)} (h : ∀ p ∈ l, p.1 < 64) :
    (s.bistRetires l).tests = s.tests ∧ (s.bistRetires l).bias = s.bias ∧
      (s.bistRetires l).rd Reg.BIST.LAST.COUNT = s.rd Reg.BIST.LAST.COUNT := by
  refine List.foldlRecOn (motive := fun t : State => t.tests = s.tests ∧ t.bias = s.bias ∧
    t.rd Reg.BIST.LAST.COUNT = s.rd Reg.BIST.LAST.COUNT) l _ ⟨rfl, rfl, rfl⟩ fun t ⟨htests, hbias, hcount⟩ p hp => ?_
  have hs : Slicing p.1 t (t.bistRetire p.1 p.2) := .bistRetire (.refl t)
  have hlane := h p hp
  refine ⟨hs.tests.trans htests, hs.bias.trans hbias, (hs.rd ?_).trans hcount⟩
  simp [sliceKeys, raiseKeys, laneSrc]
  omega

end State

end Sys2Proof.Machine
end

section
/-! BIST_RUN_END (R469 to R474), and the obligation on built-in tests. -/

namespace Sys2Proof.Machine

/-- The result of the logic part: not run, passed or failed (R469). -/
def logicResult (b : BistRun) (q : BistEnd) : Nat :=
  if b.kind = 1 then 3 else match q.golden with
    | none => 3
    | some g => if q.misr = g then 0 else 1

/-- The result of the memory part. -/
def memResult (b : BistRun) (q : BistEnd) : Nat := if b.kind = 0 then 3 else if q.fail = none then 0 else 1

/-- The slices a run finds failing (R470, R471): the one of a failing trim store, and those the scan diagnosis names. -/
def namedSlices (b : BistRun) (q : BistEnd) : List (Nat × Nat) :=
  (if memResult b q = 1 then
    (match q.fail with | some x => if x.cls = 4 then [(x.inst % 64, x.slice % 68)] else [] | none => [])
    else []) ++ (if logicResult b q = 1 then q.diag.map fun p => (p.1.val, p.2.val) else [])

/-- Those of them that stand in the partition tested. -/
def failedSlices (b : BistRun) (q : BistEnd) : List (Nat × Nat) :=
  (namedSlices b q).filter fun p =>
    if 64 ≤ b.code then p.1 == b.code - 64 else decide (b.code < 8) && courseOf p.1 == b.code

variable {b : BistRun} {q : BistEnd}

theorem logicResult_lt (b : BistRun) (q : BistEnd) : logicResult b q < 4 := by
  unfold logicResult
  split
  · decide
  · split
    · decide
    · split <;> decide

theorem memResult_lt (b : BistRun) (q : BistEnd) : memResult b q < 4 := by
  unfold memResult
  split
  · decide
  · split <;> decide

/-- A memory failure names one slice at most. -/
theorem namedSlices_length (b : BistRun) (q : BistEnd) : (namedSlices b q).length ≤ q.diag.length + 1 := by
  have hmem : (if memResult b q = 1 then
      (match q.fail with | some x => if x.cls = 4 then [(x.inst % 64, x.slice % 68)] else [] | none => [])
      else []).length ≤ 1 := by
    split
    · split
      · split <;> simp
      · simp
    · simp
  have hlogic : (if logicResult b q = 1 then q.diag.map fun p => (p.1.val, p.2.val) else []).length ≤
      q.diag.length := by
    split <;> simp
  rw [namedSlices, List.length_append]
  omega

theorem namedSlices_lane {p : Nat × Nat} (h : p ∈ namedSlices b q) : p.1 < 64 := by
  obtain h | h := List.mem_append.mp h
  · split at h
    · split at h
      · split at h
        · rw [List.mem_singleton.mp h]
          exact Nat.mod_lt _ (by decide)
        · simp at h
      · simp at h
    · simp at h
  · split at h
    · obtain ⟨x, -, rfl⟩ := List.mem_map.mp h
      exact x.1.isLt
    · simp at h

theorem failedSlices_course {p : Nat × Nat} (h : p ∈ failedSlices b q) (hb : b.code < 8) : courseOf p.1 = b.code := by
  obtain ⟨-, hp⟩ := List.mem_filter.mp h
  rw [if_neg (by omega)] at hp
  simpa [hb] using hp

/-- A logic failure in a course puts its diagnosed slices among the failed. -/
theorem mem_failedSlices {p : LaneNo × Fin 68} (hb : b.code < 8) (hl : logicResult b q = 1) (hp : p ∈ q.diag)
    (hc : courseOf p.1 = b.code) : (p.1.val, p.2.val) ∈ failedSlices b q := by
  refine List.mem_filter.mpr ⟨List.mem_append_right _ ?_, ?_⟩
  · rw [if_pos hl]
    exact List.mem_map_of_mem hp
  · rw [if_neg (by omega)]
    simpa [hb] using hc

theorem exec_bistRunEnd {s : State} {code : Fin 128} (hb : s.tests = [b]) (hc : b.code = code.val) :
    exec (.bistRunEnd code q) s = .next ((({ s.bistRetires (failedSlices b q) with tests := [] } : State).bistRecord b
      (logicResult b q) (memResult b q) (bistPatterns code) q.misr.toNat
      (if memResult b q = 1 then q.fail else none) false).bistAfter code) := by
  obtain ⟨htests, -, -⟩ := State.bistRetires_keeps (s := s) (l := failedSlices b q) fun p hp =>
    namedSlices_lane (List.mem_filter.mp hp).1
  have hleft : (s.bistRetires (failedSlices b q)).tests.filter (fun y => y.code != b.code) = [] := by
    simp [htests, hb]
  have hmem : (if b.kind = 0 then 3 else if q.fail.isSome then 1 else 0) = memResult b q := by
    unfold memResult
    cases q.fail <;> rfl
  show execBistRunEnd code q s = _
  have hfind : s.tests.find? (fun t => t.code == code.val) = some b := by simp [hb, hc]
  rw [execBistRunEnd, hfind]
  dsimp only
  rw [hmem, ← hc, ← hleft]
  rfl

theorem bistRunEnd_records {s : State} {code : Fin 128} (hb : s.tests = [b]) (hc : b.code = code.val) :
    let logic := logicResult b q
    let mem := memResult b q
    let c := if mem = 1 then q.fail.getD ⟨0, 0, 0, 0, 0⟩ else ⟨0, 0, 0, 0, 0⟩
    ∃ u : State, exec (.bistRunEnd code q) s = .next ((u.finish b.origin
        { r0 := logic + 4 * mem, r1 := c.cls + 256 * c.inst, r2 := c.addr, r3 := c.bit + 256 * c.slice }).bistAfter
          code) ∧
      u.tests = [] ∧ u.bias = s.bias ∧ u.rd Reg.BIST.LAST.TARGET = code ∧ u.rd Reg.BIST.LAST.LOGIC = logic ∧
      u.rd Reg.BIST.LAST.MEM = mem ∧ u.rd Reg.BIST.LAST.ABORTED = 0 ∧
      u.rd Reg.BIST.LAST.COUNT = (s.rd Reg.BIST.LAST.COUNT + 1) % 65536 ∧
      (logic ≠ 3 → u.rd Reg.BIST.MISR.SIGNATURE = q.misr.toNat ∧ u.rd Reg.BIST.LAST_PAT.PATTERNS = bistPatterns code) ∧
      (mem ≠ 3 → u.rd Reg.BIST.FAIL_MEM.CLASS = c.cls % 256 ∧ u.rd Reg.BIST.FAIL_MEM.INSTANCE = c.inst % 256 ∧
        u.rd Reg.BIST.FAIL_ADDR.ADDR = c.addr % 2 ^ 32) ∧
      u.retire = (s.bistRetires (failedSlices b q)).retire ∧ u.cal = (s.bistRetires (failedSlices b q)).cal := by
  intro logic mem c
  obtain ⟨-, hbias, hcount⟩ := State.bistRetires_keeps (s := s) (l := failedSlices b q) fun p hp =>
    namedSlices_lane (List.mem_filter.mp hp).1
  have hcell : (if mem = 1 then q.fail else none).getD ⟨0, 0, 0, 0, 0⟩ = c := by
    unfold c
    split <;> rfl
  have hpats : bistPatterns code % 2 ^ 32 = bistPatterns code := by
    unfold bistPatterns
    split
    · rfl
    · split <;> rfl
  obtain ⟨u, hu, hlogs, hcode, hlogic, hmem, habort, hruns, hsig, hfail⟩ :=
    State.bistRecord_ended ({ s.bistRetires (failedSlices b q) with tests := [] } : State) b logic mem
      (bistPatterns code) q.misr.toNat (if mem = 1 then q.fail else none)
  rw [hcell] at hu hfail
  rw [hpats, Nat.mod_eq_of_lt q.misr.isLt] at hsig
  rw [hc, Nat.mod_eq_of_lt code.isLt] at hcode
  rw [Nat.mod_eq_of_lt (logicResult_lt b q)] at hlogic
  rw [Nat.mod_eq_of_lt (memResult_lt b q)] at hmem
  refine ⟨u, by rw [exec_bistRunEnd hb hc, hu], ?_, ?_, hcode, hlogic, hmem, habort, hruns.trans ?_, hsig, hfail, ?_,
    ?_⟩
  · rw [hlogs]
  · rw [hlogs]
    exact hbias
  · exact congrArg (fun k => (k + 1) % 65536) hcount
  · rw [hlogs]
  · rw [hlogs]

/-- Settles O57: BIST_RUN by its checks and what a run takes, BIST_RUN_END by its record and the slices it files. -/
theorem builtInTests : Obligations.BuiltInTests := by
  unfold Obligations.BuiltInTests
  refine ⟨fun s u r e d f ht => ?_, fun code q s => ⟨fun hno => ?_, fun b hb hc _ => ?_⟩⟩
  · obtain ⟨hbad, hfull, hrun⟩ := bistRun_settles ht
    refine ⟨hbad, hfull, fun hk hok hroom => ⟨_, hrun hk hok hroom, ?_⟩⟩
    exact runBistRun_takes (u.setPhase r f.fid .running) _ f ht.testTarget
  · have hfind : s.tests.find? (fun t => t.code == code.val) = none := by
      simpa [State.inTest] using hno
    show execBistRunEnd code q s = _
    rw [execBistRunEnd, hfind]
  · obtain ⟨u, hexec, htests, hbias, hcode, hlogic, hmem, habort, hcount, hsig, hfail, hretire, hcal⟩ :=
      bistRunEnd_records (q := q) hb hc
    refine ⟨u, hexec, htests, hbias, hcode, hlogic, hmem, habort, hcount, hsig, hfail,
      fun h8 hoff hl p hp hcourse => ?_⟩
    have hin := mem_failedSlices (by omega) hl hp (hcourse.trans hc.symm)
    have hall : ∀ x ∈ failedSlices b q, s.coursePow (courseOf x.1) = .off := fun x hx => by
      rw [failedSlices_course hx (by omega), hc, hoff]
    rw [State.calOf, hretire, hcal]
    refine ⟨fun hopen hroom => ?_, fun hclosed => ?_⟩
    · refine State.bistRetires_mapped hall hopen hin p.2.isLt ?_
      have hlen : (failedSlices b q).length ≤ q.diag.length + 1 :=
        (List.length_filter_le _ _).trans (namedSlices_length b q)
      dsimp only
      omega
    · obtain ⟨hsame, hnoted⟩ := State.bistRetires_noted hall hclosed
      exact ⟨hsame, hnoted _ hin⟩

end Sys2Proof.Machine
end

section
/-! The books of a lane's slices: one slice read after a change of another, the first slice in a state, and what the
steps of rotation that end or begin leave alone (R109 to R116). -/

namespace Sys2Proof.Machine

namespace State
variable {s t : State} {n i j : Nat}

/-! ## Reading a slice -/

theorem setSlice_slice (s : State) (n i : Nat) (v : SliceX) (j : Nat) :
    (s.setSlice n i v).slice n j = if j = i then v else s.slice n j := by
  unfold setSlice slice
  rw [calOf_setCal_same]
  split
  · next h => rw [h, Tab.get_set_same]
  · next h => exact Tab.get_set_ne _ _ _ _ _ _ h

theorem setSlice_slice_same (s : State) (n i : Nat) (v : SliceX) : (s.setSlice n i v).slice n i = v := by
  rw [setSlice_slice, if_pos rfl]

theorem setSlice_slice_ne (s : State) (n : Nat) (v : SliceX) (h : j ≠ i) :
    (s.setSlice n i v).slice n j = s.slice n j := by
  rw [setSlice_slice, if_neg h]

theorem slice_congr (h : (t.calOf n).slices = (s.calOf n).slices) (j : Nat) : t.slice n j = s.slice n j := by
  rw [slice, h, slice]

/-- A change of the books other than the slices themselves. -/
theorem setCal_slice (s : State) {x : CalX} (h : x.slices = (s.calOf n).slices) (j : Nat) :
    (s.setCal n x).slice n j = s.slice n j := slice_congr (by rw [calOf_setCal_same, h]) j

/-! ## The first slice in a state -/

theorem sliceIn_some {st : SliceSt} (h : s.sliceIn n st = some i) :
    s.flag Reg.LN.CAL_STAT.FIRST_DONE n = true ∧ (s.slice n i).st = st ∧ i < 68 := by
  unfold sliceIn at h
  split at h
  · next hdone =>
    refine ⟨hdone, ?_, List.mem_range.mp (List.mem_of_find?_eq_some h)⟩
    simpa using List.find?_some h
  · cases h

theorem sliceIn_st {st : SliceSt} (h : s.sliceIn n st = some i) : (s.slice n i).st = st := by
  obtain ⟨-, hst, -⟩ := sliceIn_some h
  exact hst

theorem sliceIn_isSome {st : SliceSt} (hdone : s.flag Reg.LN.CAL_STAT.FIRST_DONE n = true) (hi : i < 68)
    (h : (s.slice n i).st = st) : (s.sliceIn n st).isSome = true := by
  rw [sliceIn, if_pos hdone, List.find?_isSome]
  exact ⟨i, List.mem_range.mpr hi, by simp [h]⟩

/-- Slices outside the numbers of R109 are never found. -/
theorem sliceIn_congr {st : SliceSt}
    (hdone : t.flag Reg.LN.CAL_STAT.FIRST_DONE n = s.flag Reg.LN.CAL_STAT.FIRST_DONE n)
    (h : ∀ j, ((t.slice n j).st = st ↔ (s.slice n j).st = st)) : t.sliceIn n st = s.sliceIn n st := by
  have hp : (fun i => (t.slice n i).st == st) = fun i => (s.slice n i).st == st := by
    funext j
    rw [Bool.eq_iff_iff, beq_iff_eq, beq_iff_eq]
    exact h j
  rw [sliceIn, hdone, hp, sliceIn]

theorem sliceAt_some {p : Nat} (h : s.sliceAt n p = some i) : (s.slice n i).st = .active ∧ (s.slice n i).pos = p := by
  simpa using List.find?_some h

/-! ## What rotation leaves in a lane's books -/

end State

/-- What the steps of rotation leave in the books of a lane: the last swap, whether one is due, the baselines and rests
of the groups with their coefficients, and the foreground run. -/
def CalX.lasting (x : CalX) : Option Nat × Bool × List Nat × List Nat × List (List Int) × Option Origin :=
  (x.swapAt, x.swapDue, x.base, x.notBefore, x.groupCoef, x.foreground)

theorem CalX.lasting_eq {x y : CalX} (h : x.lasting = y.lasting) : x.swapAt = y.swapAt ∧ x.swapDue = y.swapDue ∧
    x.base = y.base ∧ x.notBefore = y.notBefore ∧ x.groupCoef = y.groupCoef ∧ x.foreground = y.foreground := by
  simpa [CalX.lasting] using h

namespace State
variable {s t : State} {n i j : Nat}

/-- From `s` to `t` steps of rotation on lane `n` have ended or begun (R111, R116): a slice changes only in CAL or
SHADOW, or where the queue gives it to CAL. -/
structure Stepped (n : Nat) (s t : State) : Prop where
  only : OnlyCal s t
  lasting : (t.calOf n).lasting = (s.calOf n).lasting
  kept : ∀ j, (s.slice n j).st ≠ .cal → (s.slice n j).st ≠ .shadow → j ∉ (s.calOf n).queue → t.slice n j = s.slice n j
  queued : ∀ j, (s.slice n j).st = .queued → (t.slice n j).st = .queued ∨ (t.slice n j).st = .cal
  suspect : ∀ j, (t.slice n j).suspect = (s.slice n j).suspect
  trims : ∀ j, (s.slice n j).trims = none → (t.slice n j).trims = none

theorem OnlyCal.trans {u : State} (h : OnlyCal s t) (h' : OnlyCal t u) : OnlyCal s u := by
  obtain ⟨_, rfl⟩ := h
  obtain ⟨_, rfl⟩ := h'
  exact ⟨_, rfl⟩

theorem OnlyCal.rd (h : OnlyCal s t) (f : Fld) (i j : Nat) : t.rd f i j = s.rd f i j := by
  obtain ⟨_, rfl⟩ := h
  rfl

theorem OnlyCal.eq (h : OnlyCal s t) : t = { s with cal := t.cal } := by
  obtain ⟨_, rfl⟩ := h
  rfl

theorem Stepped.refl (s : State) : Stepped n s s :=
  ⟨.refl s, rfl, fun _ _ _ _ => rfl, fun _ h => .inl h, fun _ => rfl, fun _ h => h⟩

/-- One slice of a lane takes state `st`, its position, coefficients and flags untouched. -/
structure Moved (n i : Nat) (st : SliceSt) (s t : State) : Prop where
  only : OnlyCal s t
  lasting : (t.calOf n).lasting = (s.calOf n).lasting
  st : (t.slice n i).st = st
  suspect : (t.slice n i).suspect = (s.slice n i).suspect
  trims : (s.slice n i).trims = none → (t.slice n i).trims = none
  rest : ∀ j, j ≠ i → t.slice n j = s.slice n j

/-- Abandoning a CAL step queues its slice at the head. -/
theorem abandonCal_some (h : s.sliceIn n .cal = some i) : Moved n i .queued s (s.abandonCal n) ∧
    ((s.abandonCal n).calOf n).queue = i :: (s.calOf n).queue ∧
    ((s.abandonCal n).calOf n).group = if (s.calOf n).group = some 2 then none else (s.calOf n).group := by
  have hslice (j : Nat) : (s.abandonCal n).slice n j =
      if j = i then { s.slice n i with st := .queued } else s.slice n j := by
    rw [abandonCal, h]
    refine (setCal_slice _ ?_ j).trans (setSlice_slice ..)
    rfl
  refine ⟨⟨.abandonCal (.refl s), ?_, ?_, ?_, ?_, fun j hj => by rw [hslice, if_neg hj]⟩, ?_, ?_⟩
  · simp [abandonCal, h, setSlice, CalX.lasting]
  · rw [hslice, if_pos rfl]
  · rw [hslice, if_pos rfl]
  · rw [hslice, if_pos rfl]
    exact id
  · simp [abandonCal, h, setSlice]
  · simp [abandonCal, h, setSlice]

theorem abandonCal_none (h : s.sliceIn n .cal = none) : s.abandonCal n = s := by
  rw [abandonCal, h]

/-- Abandoning a SHADOW step gives its slice back to READY. -/
theorem abandonShadow_some (h : s.sliceIn n .shadow = some i) : Moved n i .ready s (s.abandonShadow n) ∧
    ((s.abandonShadow n).calOf n).queue = (s.calOf n).queue := by
  have hslice (j : Nat) : (s.abandonShadow n).slice n j =
      if j = i then { s.slice n i with st := .ready, trims := none } else s.slice n j := by
    rw [abandonShadow, h]
    refine (setCal_slice _ ?_ j).trans (setSlice_slice ..)
    rfl
  refine ⟨⟨.abandonShadow (.refl s), ?_, ?_, ?_, ?_, fun j hj => by rw [hslice, if_neg hj]⟩, ?_⟩
  · simp [abandonShadow, h, setSlice, CalX.lasting]
  · rw [hslice, if_pos rfl]
  · rw [hslice, if_pos rfl]
  · rw [hslice, if_pos rfl]
    exact fun _ => rfl
  · simp [abandonShadow, h, setSlice]

theorem abandonShadow_none (h : s.sliceIn n .shadow = none) : s.abandonShadow n = s := by
  rw [abandonShadow, h]

/-- A CAL step begins with the head of the queue, or nothing happens. -/
theorem startCal_cases (s : State) (n : Nat) : s.startCal n = s ∨
    ∃ i q, (s.calOf n).queue = i :: q ∧ Moved n i .cal s (s.startCal n) := by
  by_cases hgo : (s.calAllowed n && (s.sliceIn n .cal).isNone && (s.sliceIn n .ready).isNone &&
      (s.sliceIn n .shadow).isNone) = true
  · cases hq : (s.calOf n).queue with
    | nil =>
      refine .inl ?_
      rw [startCal, if_pos hgo, hq]
    | cons i q =>
      have he : s.startCal n =
          ((s.setCal n { s.calOf n with queue := q }).setSlice n i { s.slice n i with st := .cal }).joinP n := by
        rw [startCal, if_pos hgo, hq]
      have hjoin (u : State) : (u.joinP n).slice n = u.slice n ∧
          ((u.joinP n).calOf n).lasting = (u.calOf n).lasting := by
        unfold joinP
        split
        · exact ⟨funext fun j => setCal_slice u (by rfl) j, by rw [calOf_setCal_same]; rfl⟩
        · exact ⟨rfl, rfl⟩
      have hslice (j : Nat) : (s.startCal n).slice n j =
          if j = i then { s.slice n i with st := .cal } else s.slice n j := by
        rw [he, (hjoin _).1, setSlice_slice, setCal_slice]
        rfl
      refine .inr ⟨i, q, rfl, ⟨.startCal (.refl s), ?_, ?_, ?_, ?_, fun j hj => by rw [hslice, if_neg hj]⟩⟩
      · rw [he, (hjoin _).2]
        simp [setSlice, CalX.lasting]
      · rw [hslice, if_pos rfl]
      · rw [hslice, if_pos rfl]
      · rw [hslice, if_pos rfl]
        exact id
  · exact .inl (if_neg hgo)

theorem startCal_blocked (h : s.calAllowed n = false ∨ (s.sliceIn n .ready).isSome = true ∨
    (s.sliceIn n .shadow).isSome = true) : s.startCal n = s := by
  refine if_neg ?_
  obtain h | h | h := h <;> simp [h, ← Option.not_isSome]

/-- One more slice moves, which was in a step or in the queue before. -/
theorem Stepped.moved {u : State} {st : SliceSt} (h : Stepped n s t) (hm : Moved n i st t u)
    (hi : (s.slice n i).st = .cal ∨ (s.slice n i).st = .shadow ∨ i ∈ (s.calOf n).queue)
    (hst : (s.slice n i).st = .queued → st = .queued ∨ st = .cal) : Stepped n s u := by
  refine ⟨h.only.trans hm.only, hm.lasting.trans h.lasting, fun j hc hs hq => ?_, fun j hq => ?_, fun j => ?_,
    fun j hj => ?_⟩
  · have hj : j ≠ i := by
      rintro rfl
      obtain hi | hi | hi := hi
      · exact hc hi
      · exact hs hi
      · exact hq hi
    rw [hm.rest j hj, h.kept j hc hs hq]
  · by_cases hj : j = i
    · subst hj
      rw [hm.st]
      exact hst hq
    · rw [hm.rest j hj]
      exact h.queued j hq
  · by_cases hj : j = i
    · rw [hj, hm.suspect, h.suspect]
    · rw [hm.rest j hj, h.suspect]
  · by_cases hi : j = i
    · subst hi
      exact hm.trims (h.trims j hj)
    · rw [hm.rest j hi]
      exact h.trims j hj

/-- The queue after steps are abandoned holds the slice that was in CAL, and what it held. -/
theorem abandonSteps_stepped (s : State) (n : Nat) : Stepped n s (s.abandonSteps n) ∧
    ∀ j ∈ ((s.abandonSteps n).calOf n).queue, j ∈ (s.calOf n).queue ∨ (s.slice n j).st = .cal := by
  have hcal : Stepped n s (s.abandonCal n) ∧
      (∀ j ∈ ((s.abandonCal n).calOf n).queue, j ∈ (s.calOf n).queue ∨ (s.slice n j).st = .cal) ∧
      ∀ j, ((s.abandonCal n).slice n j).st = .shadow → (s.slice n j).st = .shadow := by
    cases h : s.sliceIn n .cal with
    | none =>
      rw [abandonCal_none h]
      exact ⟨.refl s, fun _ hj => .inl hj, fun _ hj => hj⟩
    | some i =>
      obtain ⟨hm, hqueue, -⟩ := abandonCal_some h
      have hst := sliceIn_st h
      refine ⟨(Stepped.refl s).moved hm (.inl hst) fun _ => .inl rfl, fun j hj => ?_, fun j hj => ?_⟩
      · rw [hqueue] at hj
        obtain rfl | hj := List.mem_cons.mp hj
        · exact .inr hst
        · exact .inl hj
      · rwa [hm.rest j (by rintro rfl; simp [hm.st] at hj)] at hj
  unfold abandonSteps
  extract_lets s1
  have h1 : Stepped n s s1 ∧ (∀ j ∈ (s1.calOf n).queue, j ∈ (s.calOf n).queue ∨ (s.slice n j).st = .cal) ∧
      ∀ j, (s1.slice n j).st = .shadow → (s.slice n j).st = .shadow := by
    unfold s1
    split
    · exact ⟨.refl s, fun _ hj => .inl hj, fun _ hj => hj⟩
    · exact hcal
  obtain ⟨hstep, hqueue, hshadow⟩ := h1
  split
  · exact ⟨hstep, hqueue⟩
  · cases h : s1.sliceIn n .shadow with
    | none =>
      rw [abandonShadow_none h]
      exact ⟨hstep, hqueue⟩
    | some i =>
      obtain ⟨hm, hsame⟩ := abandonShadow_some h
      have hst := sliceIn_st h
      refine ⟨hstep.moved hm (.inr (.inl (hshadow i hst))) fun hq => ?_, by rwa [hsame]⟩
      simp [hshadow i hst] at hq

/-- Steps that may not run end, and a new one begins (R111, R116). -/
theorem steps_stepped (s : State) (n : Nat) : Stepped n s ((s.abandonSteps n).startCal n) := by
  obtain ⟨hstep, hqueue⟩ := abandonSteps_stepped s n
  obtain h | ⟨i, q, hq, hm⟩ := startCal_cases (s.abandonSteps n) n
  · rwa [h]
  · refine hstep.moved hm ?_ fun _ => .inr rfl
    obtain hi | hi := hqueue i (by rw [hq]; exact .head _)
    · exact .inr (.inr hi)
    · exact .inl hi

theorem abandonCal_kept (h : (s.slice n j).st ≠ .cal) : (s.abandonCal n).slice n j = s.slice n j := by
  cases hin : s.sliceIn n .cal with
  | none => rw [abandonCal_none hin]
  | some i =>
    obtain ⟨hm, -, -⟩ := abandonCal_some hin
    exact hm.rest j (by rintro rfl; exact h (sliceIn_st hin))

theorem abandonShadow_kept (h : (s.slice n j).st ≠ .shadow) : (s.abandonShadow n).slice n j = s.slice n j := by
  cases hin : s.sliceIn n .shadow with
  | none => rw [abandonShadow_none hin]
  | some i =>
    obtain ⟨hm, -⟩ := abandonShadow_some hin
    exact hm.rest j (by rintro rfl; exact h (sliceIn_st hin))

/-- Only slices in CAL or SHADOW lose their step. -/
theorem abandonSteps_kept (hc : (s.slice n j).st ≠ .cal) (hs : (s.slice n j).st ≠ .shadow) :
    (s.abandonSteps n).slice n j = s.slice n j := by
  unfold abandonSteps
  extract_lets s1
  have h1 : s1.slice n j = s.slice n j := by
    unfold s1
    split
    · rfl
    · exact abandonCal_kept hc
  split
  · exact h1
  · exact (abandonShadow_kept (by rwa [h1])).trans h1

/-- Where no swap is due, only steps end and begin (R114). -/
theorem slicesSettle_stepped (h : (s.calOf n).swapDue = false) : Stepped n s (s.slicesSettle n) := by
  have hswap : s.swapIfDue n = s := if_neg (by simp [h])
  unfold slicesSettle
  rw [hswap]
  split
  · exact steps_stepped s n
  · exact .refl s

end State

end Sys2Proof.Machine
end

section
/-! A CAL step that ends, and the start of SHADOW (R111, R112, R116). -/

namespace Sys2Proof.Machine

namespace State
variable {s t : State} {n i j : Nat}

/-! ## What the causes of R115 read -/

theorem retired_congr (h : ∀ j, ((t.slice n j).st = .retired ↔ (s.slice n j).st = .retired)) :
    t.retired n = s.retired n := by
  have hp : (fun i => (t.slice n i).st == .retired) = fun i => (s.slice n i).st == .retired := by
    funext j
    rw [Bool.eq_iff_iff, beq_iff_eq, beq_iff_eq]
    exact h j
  rw [retired, hp, retired]

theorem spares_congr (h : OnlyCal s t) (hr : t.retired n = s.retired n) : t.spares n = s.spares n := by
  rw [spares, hr, flag_congr (h.rd ..), spares]

/-- Rotation follows its causes, which read of a lane's books the spares and the foreground run. -/
theorem stopCause_congr (h : OnlyCal s t) (hr : t.retired n = s.retired n)
    (hf : (t.calOf n).foreground = (s.calOf n).foreground) : t.stopCause n = s.stopCause n := by
  have hsp := spares_congr h hr
  obtain ⟨_, rfl⟩ := h
  unfold stopCause
  rw [hsp, hf]
  rfl

theorem calAllowed_congr (h : OnlyCal s t) (hr : t.retired n = s.retired n)
    (hf : (t.calOf n).foreground = (s.calOf n).foreground) : t.calAllowed n = s.calAllowed n := by
  unfold calAllowed
  rw [stopCause_congr h hr hf, spares_congr h hr]

theorem lasting_foreground (h : (t.calOf n).lasting = (s.calOf n).lasting) :
    (t.calOf n).foreground = (s.calOf n).foreground := by
  obtain ⟨-, -, -, -, -, hf⟩ := CalX.lasting_eq h
  exact hf

/-! ## The groups of a course -/

theorem borrowSpare_cases (s : State) (m : Nat) : s.borrowSpare m = s ∨
    s.turnP m = true ∧ ∃ i v, s.borrowSpare m = (s.setCal m { s.calOf m with group := some 2 }).setSlice m i v := by
  unfold borrowSpare
  split
  · split
    · next i _ h =>
      simp only [Bool.and_eq_true] at h
      obtain ⟨⟨hp, -⟩, -⟩ := h
      exact .inr ⟨hp, i, _, by rw [joinP, if_pos hp]⟩
    · exact .inl rfl
  · exact .inl rfl

/-- Groups that start on a course leave the books of a lane but for the group that runs, and the spare that a pending
group P borrows (R121, R124). -/
theorem startGroups_books (s : State) (c n : Nat) : OnlyCal s (s.startGroups c) ∧
    ((s.startGroups c).calOf n).lasting = (s.calOf n).lasting ∧
    (bitOf (s.rd Reg.LN.CAL_STAT.PENDING n) 2 = false →
      ((s.startGroups c).calOf n).slices = (s.calOf n).slices) := by
  refine List.foldlRecOn (motive := fun t : State => OnlyCal s t ∧ (t.calOf n).lasting = (s.calOf n).lasting ∧
    (bitOf (s.rd Reg.LN.CAL_STAT.PENDING n) 2 = false → (t.calOf n).slices = (s.calOf n).slices)) _ _
    ⟨.refl s, rfl, fun _ => rfl⟩ fun t ⟨hcal, hlast, hslices⟩ k _ => ?_
  dsimp only
  generalize 8 * c + k = m
  split
  · split
    · next g _ =>
      refine ⟨.setCal hcal, ?_, fun hp => ?_⟩
      · by_cases hm : n = m
        · subst hm
          rw [calOf_setCal_same]
          exact hlast
        · rwa [calOf_setCal_ne _ _ hm]
      · by_cases hm : n = m
        · subst hm
          rw [calOf_setCal_same]
          exact hslices hp
        · rw [calOf_setCal_ne _ _ hm]
          exact hslices hp
    · obtain hb | ⟨hturn, i, v, hb⟩ := borrowSpare_cases t m
      · rw [hb]
        exact ⟨hcal, hlast, hslices⟩
      · rw [hb]
        refine ⟨.setSlice (.setCal hcal), ?_, fun hp => ?_⟩
        · by_cases hm : n = m
          · subst hm
            simp only [setSlice, calOf_setCal_same]
            exact hlast
          · simp only [setSlice, calOf_setCal_ne _ _ hm]
            exact hlast
        · by_cases hm : n = m
          · subst hm
            rw [turnP, hcal.rd, hp] at hturn
            simp at hturn
          · simp only [setSlice, calOf_setCal_ne _ _ hm]
            exact hslices hp
  · exact ⟨hcal, hlast, hslices⟩

/-! ## The end of a CAL step (R111, R116) -/

theorem abandonGroup_none (h : (s.calOf n).group = none) : s.abandonGroup n = s := by
  unfold abandonGroup cutGroup
  rw [h]
  exact ite_self _

/-- A lane whose CAL step may not run, with no slice in SHADOW, comes to the abandoned step. -/
theorem calSettle_stopped (hi : s.sliceIn n .cal = some i) (hno : s.calAllowed n = false)
    (hsh : s.sliceIn n .shadow = none) (hdue : (s.calOf n).swapDue = false) (hg : (s.calOf n).group = none) :
    s.calSettle n = s.abandonCal n := by
  obtain ⟨hdone, hst, -⟩ := sliceIn_some hi
  obtain ⟨hm, -, -⟩ := abandonCal_some hi
  have hr : (s.abandonCal n).retired n = s.retired n := retired_congr fun j => by
    by_cases hj : j = i
    · rw [hj, hm.st, hst]
      simp
    · rw [hm.rest j hj]
  have hshadow : (s.abandonCal n).sliceIn n .shadow = none := by
    rw [← hsh]
    refine sliceIn_congr (flag_congr (hm.only.rd ..)) fun j => ?_
    by_cases hj : j = i
    · rw [hj, hm.st, hst]
      simp
    · rw [hm.rest j hj]
  have hstop : (s.abandonCal n).calAllowed n = false :=
    (calAllowed_congr hm.only hr (lasting_foreground hm.lasting)).trans hno
  have hsteps : s.abandonSteps n = s.abandonCal n := by
    have hcut : (if s.calAllowed n then s else s.abandonCal n) = s.abandonCal n := if_neg (by simp [hno])
    simp only [abandonSteps, hcut, abandonShadow_none hshadow, ite_self]
  have hswap : s.swapIfDue n = s := if_neg (by simp [hdue])
  rw [calSettle, abandonGroup_none hg, slicesSettle, if_pos hdone, hswap, hsteps, startCal_blocked (.inl hstop)]

/-- The bits of SUSPECT are shown in the registers and by a raise. -/
theorem setSuspect_logs (s : State) (n v : Nat) : Logs s (s.setSuspect n v) :=
  .ite (.raise (.wr (.refl s))) (.wr (.refl s))

theorem setSuspect_cal (s : State) (n v : Nat) : (s.setSuspect n v).cal = s.cal := by
  rw [setSuspect_logs s n v]

theorem refreshS_cal (s : State) (n : Nat) : (s.refreshS n).cal = s.cal := setSuspect_cal ..

/-- No field of the lane but SUSPECT shows it. -/
theorem setSuspect_rd (s : State) (v : Nat) (hn : n < 64) {f : Fld} (hf : 8 * 0x8000 ≤ f.key n 0)
    (hs : f.key n 0 ≠ Reg.LN.CAL_STAT.SUSPECT.key n 0) : (s.setSuspect n v).rd f n = s.rd f n := by
  have hwr : (s.wr Reg.LN.CAL_STAT.SUSPECT v n).rd f n = s.rd f n := rd_wr_ne _ _ _ _ _ _ _ _ hs
  unfold setSuspect raiseRise
  split
  · refine (raise_rd _ _ _ _ _ _ ?_ ?_).trans hwr
    · rw [Reg.EVT.LATCH.RAISED_key, laneSrc]
      omega
    · rw [Reg.EVT.STAT.LAST_SRC_key]
      omega
  · exact hwr

theorem calOf_congr (h : t.cal = s.cal) (n : Nat) : t.calOf n = s.calOf n := by
  rw [calOf, h, calOf]

theorem setSlice_calOf (s : State) (n i : Nat) (v : SliceX) :
    (s.setSlice n i v).calOf n = { s.calOf n with slices := Tab.set {} (s.calOf n).slices i v } := calOf_setCal_same ..

/-- A slice that is READY keeps the next one waiting. -/
theorem slicesSettle_ready (hdone : s.flag Reg.LN.CAL_STAT.FIRST_DONE n = true) (hi : i < 68)
    (h : (s.slice n i).st = .ready) (hdue : (s.calOf n).swapDue = false) : s.slicesSettle n = s.abandonSteps n := by
  obtain ⟨hstep, -⟩ := abandonSteps_stepped s n
  have hready : ((s.abandonSteps n).sliceIn n .ready).isSome = true := by
    refine sliceIn_isSome ((flag_congr (hstep.only.rd ..)).trans hdone) hi ?_
    rw [abandonSteps_kept (by simp [h]) (by simp [h]), h]
  have hswap : s.swapIfDue n = s := if_neg (by simp [hdue])
  rw [slicesSettle, if_pos hdone, hswap, startCal_blocked (.inr (.inl hready))]

end State

section
variable {s : State} {n : LaneNo} {i : Nat}

/-- The slice in CAL after an accepted step: READY, with its new coefficients. -/
def calAccepted (s : State) (n i : Nat) (ms : List Meas) : SliceX :=
  { s.slice n i with
    coef := takeCoefs (s.slice n i).coef 0 (judgeRun calPars ms) ++ (s.slice n i).coef.drop 6
    st := .ready, suspect := false, coeff := true, calAt := s.time, calTemp := s.convTemp (courseOf n) }

theorem calStepDone_accepted (m : CalStep) (hdone : s.flag Reg.LN.CAL_STAT.FIRST_DONE n = true)
    (hdue : (s.calOf n).swapDue = false) (hi : s.sliceIn n .cal = some i) (hgo : s.calAllowed n = true)
    (hg : (s.calOf n).group = none) (hms : runRes (judgeRun calPars m.ms) = .accepted)
    (hp : bitOf (s.rd Reg.LN.CAL_STAT.PENDING n) 2 = false) : Gives (.calStepDone n m) s fun t =>
      t.slice n i = calAccepted s n i m.ms ∧ ∀ j, j ≠ i → (s.slice n j).st = .active → t.slice n j = s.slice n j := by
  let v := s.setSlice n i (calAccepted s n i m.ms)
  let w := v.refreshS n
  have hexec : exec (.calStepDone n m) s = .next ((w.slicesSettle n).startGroups (courseOf n)) := by
    show execCalStepDone n m s = _
    rw [execCalStepDone, hi]
    simp only [hgo, hg, hms]
    rfl
  obtain ⟨-, -, hi68⟩ := State.sliceIn_some hi
  have hwcal : w.calOf n = v.calOf n := State.calOf_congr (State.refreshS_cal ..) n
  have hw (j : Nat) : w.slice n j = if j = i then calAccepted s n i m.ms else s.slice n j := by
    rw [State.slice_congr (s := v) (by rw [hwcal]),
      State.setSlice_slice]
  have hslicing : State.Slicing n s w := .refreshS (.setSlice (.refl s))
  have hwdone : w.flag Reg.LN.CAL_STAT.FIRST_DONE n = true := by
    refine (State.flag_congr (hslicing.rd ?_)).trans hdone
    have := n.isLt
    simp [State.sliceKeys, raiseKeys, laneSrc]
    omega
  have hwdue : (w.calOf n).swapDue = false := by
    rw [hwcal, State.setSlice_calOf]
    exact hdue
  have hsettle := State.slicesSettle_ready hwdone hi68 (by rw [hw, if_pos rfl]; rfl) hwdue
  have hwp : bitOf ((w.slicesSettle n).rd Reg.LN.CAL_STAT.PENDING n) 2 = false := by
    rw [hsettle, (State.abandonSteps_stepped w n).1.only.rd]
    have hsame : w.rd Reg.LN.CAL_STAT.PENDING n = s.rd Reg.LN.CAL_STAT.PENDING n :=
      State.setSuspect_rd v _ n.isLt (by simp; omega) (by simp)
    rwa [hsame]
  obtain ⟨-, -, hslices⟩ := State.startGroups_books (w.slicesSettle n) (courseOf n) n
  refine ⟨_, hexec, ?_, fun j hj hact => ?_⟩
  · rw [State.slice_congr (hslices hwp), hsettle, State.abandonSteps_kept, hw, if_pos rfl] <;> simp [hw, calAccepted]
  · rw [State.slice_congr (hslices hwp), hsettle, State.abandonSteps_kept, hw, if_neg hj] <;> simp [hw, hj, hact]

end

end Sys2Proof.Machine
end

section
/-! An abandoned CAL step, and the start of SHADOW (R111, R116, R117). -/

namespace Sys2Proof.Machine

variable {s : State} {n : LaneNo} {i : Nat}

theorem calStepDone_stopped (m : CalStep) (hdue : (s.calOf n).swapDue = false) (hi : s.sliceIn n .cal = some i)
    (hno : s.calAllowed n = false) (hsh : s.sliceIn n .shadow = none) (hg : (s.calOf n).group = none) :
    Gives (.calStepDone n m) s fun t => (t.slice n i).st = .queued ∧ (t.calOf n).queue = i :: (s.calOf n).queue ∧
      t = { s with cal := t.cal } := by
  obtain ⟨hm, hqueue, -⟩ := State.abandonCal_some hi
  refine ⟨s.abandonCal n, ?_, hm.st, hqueue, hm.only.eq⟩
  show execCalStepDone n m s = _
  rw [execCalStepDone, hi]
  simp only [hno]
  exact congrArg Host.Outcome.next (State.calSettle_stopped hi hno hsh hdue hg)

/-! ## SHADOW_START (R111, R117) -/

/-- One position in the search for the least of `f`: the first among equals stays. -/
def lessOf (f : Nat → Nat) (b : Nat × Nat) (p : Nat) : Nat × Nat := if f p < b.1 then (f p, p) else b

/-- The search over the positions below `k` ends with the least of them, or with the bound it began with. -/
theorem foldl_least (f : Nat → Nat) (b0 k : Nat) :
    let b := (List.range k).foldl (lessOf f) (b0, 0)
    (∀ p < k, b.1 ≤ f p) ∧ b.1 ≤ b0 ∧ (b.1 = f b.2 ∨ b.1 = b0) := by
  induction k with
  | zero => exact ⟨fun p hp => absurd hp (Nat.not_lt_zero p), le_rfl, .inr rfl⟩
  | succ k ih =>
    intro b
    have hb : b = lessOf f ((List.range k).foldl (lessOf f) (b0, 0)) k := by
      rw [show b = List.foldl _ _ (List.range (k + 1)) from rfl, List.range_succ, List.foldl_append]
      rfl
    obtain ⟨hall, hle, hor⟩ := ih
    rw [hb]
    unfold lessOf at hall hle hor ⊢
    split
    · refine ⟨fun p hp => ?_, by omega, .inl rfl⟩
      obtain hp | rfl := Nat.lt_succ_iff_lt_or_eq.mp hp
      · exact (Nat.le_of_lt ‹_›).trans (hall p hp)
      · exact le_rfl
    · refine ⟨fun p hp => ?_, hle, hor⟩
      obtain hp | rfl := Nat.lt_succ_iff_lt_or_eq.mp hp
      · exact hall p hp
      · exact Nat.le_of_not_lt ‹_›

/-- Where the slice of a position was last calibrated; a position that no slice serves comes last. -/
def State.calAtPos (s : State) (n p : Nat) : Nat :=
  match s.sliceAt n p with
  | some i => (s.slice n i).calAt
  | none => s.time + 1

theorem State.calAtPos_some {s : State} {n p j : Nat} (h : s.sliceAt n p = some j) :
    s.calAtPos n p = (s.slice n j).calAt := by
  rw [calAtPos, h]

/-- No position of the lane is staler than the oldest (R111). -/
theorem State.oldestPos_least {s : State} {n j p k : Nat} (hj : s.sliceAt n (s.oldestPos n) = some j) (hp : p < 64)
    (hk : s.sliceAt n p = some k) (hpast : ∀ q, (s.slice n q).calAt ≤ s.time) :
    (s.slice n j).calAt ≤ (s.slice n k).calAt := by
  obtain ⟨hall, -, hor⟩ := foldl_least (s.calAtPos n) (s.time + 2) 64
  have hold : s.oldestPos n = ((List.range 64).foldl (lessOf (s.calAtPos n)) (s.time + 2, 0)).2 := rfl
  rw [← hold] at hor
  have hle := hall p hp
  rw [calAtPos_some hk] at hle
  obtain hor | hor := hor
  · rwa [hor, calAtPos_some hj] at hle
  · have := hpast k
    omega

section
variable (hi : s.sliceIn n .ready = some i)
include hi

theorem shadowStart_failed (hsh : s.sliceIn n .shadow = none) (hcap : s.adcCapture n = false) {p : Nat} {ps : List Nat}
    (hfail : (s.calOf n).failed = p :: ps) (hgo : s.shadowAllowed n true = true) : Gives (.shadowStart n) s fun t =>
      (t.slice n i).st = .shadow ∧ (t.calOf n).shadowPos = p ∧ (t.calOf n).faultSwap = true ∧
        t = { s with cal := t.cal } := by
  let v := s.setCal n { s.calOf n with shadowPos := p, shadowTries := 0, faultSwap := true }
  refine ⟨v.setSlice n i { s.slice n i with st := .shadow }, ?_, ?_, ?_, ?_, rfl⟩
  · show execShadowStart n s = _
    rw [execShadowStart, hi]
    refine congrArg Host.Outcome.next ((if_neg (by simp [hsh, hcap])).trans ?_)
    split
    · next heq =>
      obtain ⟨rfl, rfl⟩ := List.cons.inj (hfail.symm.trans heq)
      exact if_pos hgo
    · next heq => cases hfail.symm.trans heq
  · rw [State.setSlice_slice_same]
  · rw [State.setSlice_calOf, State.calOf_setCal_same]
  · rw [State.setSlice_calOf, State.calOf_setCal_same]

theorem shadowStart_oldest (hsh : s.sliceIn n .shadow = none) (hcap : s.adcCapture n = false) {at_ : Nat}
    (hfail : (s.calOf n).failed = []) (hgo : s.shadowAllowed n false = true) (hat : (s.calOf n).swapAt = some at_) :
    Gives (.shadowStart n) s fun t => (t.slice n i).st = .shadow ∧
      t.time = max s.time (at_ + rotPeriod (s.rd Reg.LN.SLICE_CTRL.ROT_PER n)) ∧
      (t.calOf n).shadowPos = s.oldestPos n := by
  let v := (s.upTo (at_ + rotPeriod (s.rd Reg.LN.SLICE_CTRL.ROT_PER n))).setCal n
    { s.calOf n with shadowPos := s.oldestPos n, shadowTries := 0, faultSwap := false }
  refine ⟨v.setSlice n i { s.slice n i with st := .shadow }, ?_, ?_, rfl, ?_⟩
  · show execShadowStart n s = _
    rw [execShadowStart, hi]
    refine congrArg Host.Outcome.next ((if_neg (by simp [hsh, hcap])).trans ?_)
    split
    · next heq => cases hfail.symm.trans heq
    · refine (if_pos hgo).trans ?_
      split
      · next heq =>
        obtain rfl := Option.some.inj (hat.symm.trans heq)
        rfl
      · next heq => cases hat.symm.trans heq
  · rw [State.setSlice_slice_same]
  · rw [State.setSlice_calOf, State.calOf_setCal_same]

theorem shadowStart_waits (hno : s.shadowAllowed n true = false) : exec (.shadowStart n) s = .next s := by
  have hno' : s.shadowAllowed n false = false := by
    simp only [State.shadowAllowed, Bool.or_eq_false_iff] at hno ⊢
    exact hno.imp_right fun _ => rfl
  show execShadowStart n s = _
  rw [execShadowStart, hi]
  simp only [hno, hno']
  split
  · rfl
  · split <;> rfl

end

end Sys2Proof.Machine
end

section
/-! The comparison at the end of SHADOW: the swap, its wait for a burst, and a further try (R111 to R114). -/

namespace Sys2Proof.Machine

namespace State
variable {s : State} {n i o : Nat}

/-- What a swap leaves in the lane's books (R111, R117). -/
structure Swapped (n i o : Nat) (s t : State) : Prop where
  st : (t.slice n i).st = .active
  pos : (t.slice n i).pos = (s.calOf n).shadowPos
  coef : (t.slice n i).coef = (List.range 6).map (fun j => (s.slice n i).coef.getD j 0) ++
    (s.slice n i).trims.getD ((s.slice n i).coef.drop 6)
  left : (t.slice n o).st = .queued
  queue : (t.calOf n).queue = if (s.calOf n).faultSwap then o :: (s.calOf n).queue else (s.calOf n).queue ++ [o]
  swapAt : (t.calOf n).swapAt = some s.time

theorem sliceSwap_books (ho : s.sliceAt n (s.calOf n).shadowPos = some o) (hio : i ≠ o) :
    Swapped n i o s (s.sliceSwap n i) := by
  unfold sliceSwap
  extract_lets x s1 y s2 _ s3
  let t := s.setSlice n o { s.slice n o with st := .queued, pos := 0, watch := 0 }
  have hs1 : s1 = t.setCal n { t.calOf n with queue := if x.faultSwap then o :: x.queue else x.queue ++ [o] } := by
    unfold s1
    rw [ho]
  have h1 (j : Nat) : s1.slice n j = t.slice n j := by
    rw [hs1]
    exact setCal_slice _ (by rfl) j
  have hy : y = s.slice n i := (h1 i).trans (setSlice_slice_ne s n _ hio)
  have h2 (j : Nat) : s3.slice n j = s2.slice n j := setCal_slice _ (by rfl) j
  have hcal : (((s3.countWrap Reg.LN.SLICE_STAT.SWAPS 1 n).refreshS n).calOf n) = s3.calOf n :=
    calOf_congr (refreshS_cal ..) n
  have hbooks (j : Nat) : ((s3.countWrap Reg.LN.SLICE_STAT.SWAPS 1 n).refreshS n).slice n j = s2.slice n j :=
    (slice_congr (by rw [hcal]) j).trans (h2 j)
  refine ⟨?_, ?_, ?_, ?_, ?_, ?_⟩
  · rw [hbooks, setSlice_slice_same]
  · rw [hbooks, setSlice_slice_same]
  · rw [hbooks, setSlice_slice_same, hy]
  · rw [hbooks, setSlice_slice_ne _ _ _ hio.symm, h1, setSlice_slice_same]
  · rw [hcal, calOf_setCal_same]
    show (s2.calOf n).queue = _
    rw [show s2.calOf n = _ from setSlice_calOf .., hs1, calOf_setCal_same]
  · rw [hcal, calOf_setCal_same]

theorem lasting_swapAt {t : State} (h : (t.calOf n).lasting = (s.calOf n).lasting) :
    (t.calOf n).swapAt = (s.calOf n).swapAt := by
  obtain ⟨hat, -⟩ := CalX.lasting_eq h
  exact hat

theorem lasting_swapDue {t : State} (h : (t.calOf n).lasting = (s.calOf n).lasting) :
    (t.calOf n).swapDue = (s.calOf n).swapDue := by
  obtain ⟨-, hdue, -⟩ := CalX.lasting_eq h
  exact hdue

theorem sliceSwap_count (hn : n < 64) : (s.sliceSwap n i).rd Reg.LN.SLICE_STAT.SWAPS n =
    (s.rd Reg.LN.SLICE_STAT.SWAPS n + 1) % 256 := by
  obtain ⟨u, v, hu, he⟩ := sliceSwap_eq s n i
  rw [he, setSuspect_rd _ _ hn (by simp; omega) (by simp), countWrap, rd_wr_same, hu.rd]
  rfl

end State

/-! ## The swap (R111, R114) -/

/-- The slice in SHADOW with the trims its first measurements give it. -/
def withTrims (y : SliceX) (ms : List Meas) : SliceX :=
  { y with trims := some (takeCoefs y.coef 6 (judgeRun shadowPars ms)) }

/-- The lane with the trims of its SHADOW step applied, and its swap due. -/
def shadowTrimmed (s : State) (n i : Nat) (ms : List Meas) : State :=
  let w := s.setSlice n i (withTrims (s.slice n i) ms)
  w.setCal n { w.calOf n with swapDue := true }

variable {s : State} {n : LaneNo} {i : Nat} {ms : List Meas}

theorem shadowTrimmed_slice (j : Nat) : (shadowTrimmed s n i ms).slice n j =
    if j = i then withTrims (s.slice n i) ms else s.slice n j :=
  (State.setCal_slice _ (by rfl) j).trans (State.setSlice_slice ..)

theorem shadowTrimmed_calOf : (shadowTrimmed s n i ms).calOf n = { s.calOf n with
    slices := Tab.set {} (s.calOf n).slices i (withTrims (s.slice n i) ms), swapDue := true } := by
  rw [shadowTrimmed, State.calOf_setCal_same, State.setSlice_calOf]

/-- Trims applied in SHADOW change neither the state nor the position of a slice. -/
theorem shadowTrimmed_places (j : Nat) : ((shadowTrimmed s n i ms).slice n j).st = (s.slice n j).st ∧
    ((shadowTrimmed s n i ms).slice n j).pos = (s.slice n j).pos := by
  rw [shadowTrimmed_slice]
  split
  · next h =>
    subst h
    exact ⟨rfl, rfl⟩
  · exact ⟨rfl, rfl⟩

theorem shadowTrimmed_sliceIn (st : SliceSt) : (shadowTrimmed s n i ms).sliceIn n st = s.sliceIn n st :=
  State.sliceIn_congr rfl fun j => by rw [(shadowTrimmed_places j).1]

theorem shadowTrimmed_sliceAt (p : Nat) : (shadowTrimmed s n i ms).sliceAt n p = s.sliceAt n p := by
  unfold State.sliceAt
  simp only [(shadowTrimmed_places _).1, (shadowTrimmed_places _).2]

section
variable (hi : s.sliceIn n .shadow = some i) (hdue : (s.calOf n).swapDue = false)
  (hgo : s.shadowAllowed n (s.calOf n).faultSwap = true)
include hi hdue hgo

/-- The first comparison of a SHADOW step whose trims are accepted. -/
theorem exec_shadowCompare (hnone : (s.slice n i).trims = none) {win : List (Nat × Nat)}
    (hms : runRes (judgeRun shadowPars ms) = .accepted) {w : State}
    (hw : w = s.setSlice n i (withTrims (s.slice n i) ms)) :
    exec (.shadowCompareDone n ms win) s = .next
      (if w.shadowAgrees n i win then (w.setCal n { w.calOf n with swapDue := true }).slicesSettle n
       else if (s.calOf n).shadowTries + 1 < 4 then
         w.setCal n { w.calOf n with shadowTries := (s.calOf n).shadowTries + 1 }
       else ((w.shadowFailed n).suspectTurn n i).slicesSettle n) := by
  subst hw
  show execShadowCompareDone n ms win s = _
  rw [execShadowCompareDone, hi]
  refine congrArg Host.Outcome.next ((if_neg (by simp [hdue, hgo])).trans ?_)
  simp only [hnone, hms]
  rfl

/-- Outputs that agree, with no burst and no capture in the way, make the swap. -/
theorem shadowCompare_swaps (hcap : s.adcCapture n = false) (hnone : (s.slice n i).trims = none)
    {win : List (Nat × Nat)} (hms : runRes (judgeRun shadowPars ms) = .accepted)
    (hagree : (s.setSlice n i (withTrims (s.slice n i) ms)).shadowAgrees n i win = true)
    (hburst : s.inBurst n = false) {o : Nat} (ho : s.sliceAt n (s.calOf n).shadowPos = some o)
    (hq : i ∉ (s.calOf n).queue) : Gives (.shadowCompareDone n ms win) s fun t =>
      (t.slice n i).st = .active ∧ (t.slice n i).pos = (s.calOf n).shadowPos ∧
      (t.slice n i).coef = (List.range 6).map (fun j => (s.slice n i).coef.getD j 0) ++
        takeCoefs (s.slice n i).coef 6 (judgeRun shadowPars ms) ∧
      ((t.slice n o).st = .queued ∨ (t.slice n o).st = .cal) ∧
      t.rd Reg.LN.SLICE_STAT.SWAPS n = (s.rd Reg.LN.SLICE_STAT.SWAPS n + 1) % 256 ∧
      (t.calOf n).swapAt = some s.time := by
  obtain ⟨hdone, hst, -⟩ := State.sliceIn_some hi
  obtain ⟨hoact, -⟩ := State.sliceAt_some ho
  have hio : i ≠ o := by
    rintro rfl
    simp [hst] at hoact
  let v := shadowTrimmed s n i ms
  have hvcal : v.calOf n = _ := shadowTrimmed_calOf
  have hswap : v.swapIfDue n = v.sliceSwap n i := by
    have hvdue : (v.calOf n).swapDue = true := by rw [hvcal]
    have hvin : v.sliceIn n .shadow = some i := (shadowTrimmed_sliceIn _).trans hi
    have hvburst : v.inBurst n = false := hburst
    have hvcap : v.adcCapture n = false := hcap
    rw [State.swapIfDue, if_pos (by simp [hvdue, hvburst, hvcap]), hvin]
  have hb : State.Swapped n i o v (v.sliceSwap n i) :=
    State.sliceSwap_books (by rw [hvcal]; exact (shadowTrimmed_sliceAt _).trans ho) hio
  have hsteps := State.steps_stepped (v.sliceSwap n i) n
  have hvi : v.slice n i = withTrims (s.slice n i) ms := by
    rw [shadowTrimmed_slice, if_pos rfl]
  have hkept : (((v.sliceSwap n i).abandonSteps n).startCal n).slice n i = (v.sliceSwap n i).slice n i := by
    refine hsteps.kept i (by simp [hb.st]) (by simp [hb.st]) ?_
    rw [hb.queue, hvcal]
    split <;> simp [hq, hio]
  refine ⟨((v.sliceSwap n i).abandonSteps n).startCal n, ?_, ?_, ?_, ?_, hsteps.queued o hb.left, ?_, ?_⟩
  · rw [exec_shadowCompare hi hdue hgo hnone hms rfl, if_pos hagree]
    exact congrArg Host.Outcome.next ((if_pos hdone).trans (by rw [← hswap]; rfl))
  · rw [hkept, hb.st]
  · rw [hkept, hb.pos, hvcal]
  · rw [hkept, hb.coef, hvi]
    rfl
  · rw [hsteps.only.rd, State.sliceSwap_count n.isLt]
    rfl
  · rw [State.lasting_swapAt hsteps.lasting, hb.swapAt]
    rfl

/-- During a burst the swap waits (R114). -/
theorem shadowCompare_waits (hnone : (s.slice n i).trims = none) {win : List (Nat × Nat)}
    (hms : runRes (judgeRun shadowPars ms) = .accepted)
    (hagree : (s.setSlice n i (withTrims (s.slice n i) ms)).shadowAgrees n i win = true)
    (hburst : s.inBurst n = true) : Gives (.shadowCompareDone n ms win) s fun t =>
      (t.calOf n).swapDue = true ∧ (t.slice n i).st = .shadow ∧
      t.rd Reg.LN.SLICE_STAT.SWAPS n = s.rd Reg.LN.SLICE_STAT.SWAPS n := by
  obtain ⟨hdone, hst, hi68⟩ := State.sliceIn_some hi
  let v := shadowTrimmed s n i ms
  have hvdue : (v.calOf n).swapDue = true := by
    rw [shadowTrimmed_calOf]
  have hvburst : v.inBurst n = true := hburst
  have hvst : (v.slice n i).st = .shadow := (shadowTrimmed_places i).1.trans hst
  have hswap : v.swapIfDue n = v := if_neg (by simp [hvburst])
  let w := if v.calAllowed n then v else v.abandonCal n
  have hw : State.OnlyCal v w ∧ (w.calOf n).lasting = (v.calOf n).lasting ∧ (w.slice n i).st = .shadow := by
    unfold w
    split
    · exact ⟨.refl v, rfl, hvst⟩
    · refine ⟨.abandonCal (.refl v), ?_, by rwa [State.abandonCal_kept (by simp [hvst])]⟩
      cases hin : v.sliceIn n .cal with
      | none => rw [State.abandonCal_none hin]
      | some k =>
        obtain ⟨hm, -, -⟩ := State.abandonCal_some hin
        exact hm.lasting
  obtain ⟨hwcal, hwlast, hwst⟩ := hw
  have hwdue : (w.calOf n).swapDue = true := (State.lasting_swapDue hwlast).trans hvdue
  have hsteps : v.abandonSteps n = w := if_pos (by simp [w, hwdue])
  have hblocked : w.startCal n = w :=
    State.startCal_blocked (.inr (.inr (State.sliceIn_isSome ((State.flag_congr (hwcal.rd ..)).trans hdone) hi68 hwst)))
  refine ⟨w, ?_, hwdue, hwst, hwcal.rd ..⟩
  rw [exec_shadowCompare hi hdue hgo hnone hms rfl, if_pos hagree]
  exact congrArg Host.Outcome.next ((if_pos hdone).trans (by
    show ((v.swapIfDue n).abandonSteps n).startCal n = w
    rw [hswap, hsteps, hblocked]))

/-- Outputs that disagree are compared again, four times at most. -/
theorem shadowCompare_retries (hnone : (s.slice n i).trims = none) {win : List (Nat × Nat)}
    (hms : runRes (judgeRun shadowPars ms) = .accepted) {w : State}
    (hw : w = s.setSlice n i (withTrims (s.slice n i) ms))
    (hagree : w.shadowAgrees n i win = false) (htries : (s.calOf n).shadowTries < 3) :
    Gives (.shadowCompareDone n ms win) s fun t =>
      t.calOf n = { w.calOf n with shadowTries := (s.calOf n).shadowTries + 1 } ∧ t = { s with cal := t.cal } := by
  refine ⟨w.setCal n { w.calOf n with shadowTries := (s.calOf n).shadowTries + 1 }, ?_, State.calOf_setCal_same .., ?_⟩
  · rw [exec_shadowCompare hi hdue hgo hnone hms hw, if_neg (by simp [hagree]), if_pos (by omega)]
  · subst hw
    rfl

end

end Sys2Proof.Machine
end

section
/-! A suspect SHADOW (R112), and the rule of repeat and agree (R122, R123). -/

namespace Sys2Proof.Machine

namespace State
variable {s : State} {n i : Nat}

/-- A failed SHADOW moves no slice. -/
theorem shadowFailed_places (s : State) (n : Nat) : OnlyCal s (s.shadowFailed n) ∧
    ((s.shadowFailed n).calOf n).queue = (s.calOf n).queue ∧
    ((s.shadowFailed n).calOf n).swapDue = (s.calOf n).swapDue ∧
    ∀ j, ((s.shadowFailed n).slice n j).st = (s.slice n j).st ∧ ((s.shadowFailed n).slice n j).pos = (s.slice n j).pos ∧
      ((s.shadowFailed n).slice n j).run = (s.slice n j).run := by
  unfold shadowFailed
  extract_lets x s1
  have hcal : s1.calOf n = _ := calOf_setCal_same ..
  have h1 : OnlyCal s s1 := .setCal (.refl s)
  have hslice (j : Nat) : s1.slice n j = s.slice n j := setCal_slice _ (by rfl) j
  have base : OnlyCal s s1 ∧ (s1.calOf n).queue = (s.calOf n).queue ∧ (s1.calOf n).swapDue = (s.calOf n).swapDue ∧
      ∀ j, (s1.slice n j).st = (s.slice n j).st ∧ (s1.slice n j).pos = (s.slice n j).pos ∧
        (s1.slice n j).run = (s.slice n j).run :=
    ⟨h1, by rw [hcal], by rw [hcal], fun j => by rw [hslice]; exact ⟨rfl, rfl, rfl⟩⟩
  split
  · split
    · next o _ =>
      refine ⟨.setSlice h1, ?_, ?_, fun j => ?_⟩
      · rw [setSlice_calOf, hcal]
      · rw [setSlice_calOf, hcal]
      · rw [setSlice_slice]
        split
        · next hj =>
          subst hj
          rw [hslice]
          exact ⟨rfl, rfl, rfl⟩
        · rw [hslice]
          exact ⟨rfl, rfl, rfl⟩
    · exact base
  · exact base

/-- A first suspect turn queues the slice at the tail (R112). -/
theorem suspectTurn_books (hrun : (s.slice n i).run = 0) : ∃ v : SliceX,
    v.st = .queued ∧ v.suspect = true ∧ v.trims = none ∧
    (∀ j, (s.suspectTurn n i).slice n j = if j = i then v else s.slice n j) ∧
    ((s.suspectTurn n i).calOf n).queue = (s.calOf n).queue ++ [i] ∧
    ((s.suspectTurn n i).calOf n).swapDue = (s.calOf n).swapDue := by
  let v : SliceX :=
    { s.slice n i with st := .queued, suspect := true, run := (s.slice n i).run + 1, trims := none }
  let s1 := s.setSlice n i v
  let s2 := s1.setCal n { s1.calOf n with queue := (s1.calOf n).queue ++ [i] }
  have hturn : s.suspectTurn n i = s2.refreshS n := if_neg (by simp [hrun])
  have hcal : (s2.refreshS n).calOf n = s2.calOf n := calOf_congr (refreshS_cal ..) n
  have hs2 : s2.calOf n = { s1.calOf n with queue := (s1.calOf n).queue ++ [i] } := calOf_setCal_same ..
  rw [hturn, hcal, hs2]
  have h1 : s1.calOf n = _ := setSlice_calOf ..
  refine ⟨v, rfl, rfl, rfl, fun j => ?_, by rw [h1], by rw [h1]⟩
  exact (slice_congr (s := s2) (by rw [hcal]) j).trans ((setCal_slice s1 (by rfl) j).trans (setSlice_slice ..))

end State

variable {s : State} {n : LaneNo} {i : Nat}

/-- A suspect SHADOW sends its slice to the queue, and the active slices stand (R112). -/
theorem shadowCompare_suspect (hi : s.sliceIn n .shadow = some i) (hdue : (s.calOf n).swapDue = false)
    (hgo : s.shadowAllowed n (s.calOf n).faultSwap = true) (hnone : (s.slice n i).trims = none) {ms : List Meas}
    {win : List (Nat × Nat)} (hms : runRes (judgeRun shadowPars ms) = .suspect) (hrun : (s.slice n i).run = 0)
    (hq : ∀ q ∈ (s.calOf n).queue, (s.slice n q).st = .queued) : Gives (.shadowCompareDone n ms win) s fun t =>
      (t.slice n i).suspect = true ∧ (t.slice n i).trims = none ∧ ∀ j, (s.slice n j).st = .active →
        (t.slice n j).st = .active ∧ (t.slice n j).pos = (s.slice n j).pos := by
  obtain ⟨-, hst, -⟩ := State.sliceIn_some hi
  obtain ⟨-, hfqueue, hfdue, hplaces⟩ := State.shadowFailed_places s n
  obtain ⟨v, hvst, hvsus, hvtrims, hslice, hqueue, htdue⟩ :=
    State.suspectTurn_books (s := s.shadowFailed n) (n := n) (i := i) (by
      obtain ⟨-, -, hsame⟩ := hplaces i
      rw [hsame, hrun])
  have hsteps := State.slicesSettle_stepped (s := (s.shadowFailed n).suspectTurn n i) (htdue.trans (hfdue.trans hdue))
  refine ⟨((s.shadowFailed n).suspectTurn n i).slicesSettle n, ?_, ?_, ?_, fun j hj => ?_⟩
  · show execShadowCompareDone n ms win s = _
    rw [execShadowCompareDone, hi]
    refine congrArg Host.Outcome.next ((if_neg (by simp [hdue, hgo])).trans ?_)
    simp only [hnone, hms]
    rfl
  · rw [hsteps.suspect, hslice, if_pos rfl, hvsus]
  · exact hsteps.trims i (by rw [hslice, if_pos rfl, hvtrims])
  · have hji : j ≠ i := by
      rintro rfl
      simp [hst] at hj
    obtain ⟨hjst, hjpos, -⟩ := hplaces j
    have hbooks : ((s.shadowFailed n).suspectTurn n i).slice n j = (s.shadowFailed n).slice n j := by
      rw [hslice, if_neg hji]
    have hnot : j ∉ (((s.shadowFailed n).suspectTurn n i).calOf n).queue := by
      rw [hqueue, hfqueue]
      intro hmem
      obtain hmem | hmem := List.mem_append.mp hmem
      · simp [hq j hmem] at hj
      · exact hji (List.mem_singleton.mp hmem)
    have hact : (((s.shadowFailed n).suspectTurn n i).slice n j).st = .active := by rw [hbooks, hjst, hj]
    rw [hsteps.kept j (by simp [hact]) (by simp [hact]) hnot]
    exact ⟨hact, by rw [hbooks, hjpos]⟩

/-! ## Repeat and agree (R122, R123) -/

theorem judge_suspect {p : Param} {m : Meas} (h : ∀ x ∈ m.take 4, 16 * p.tol < (x.1 - x.2).natAbs) :
    judge p m = .suspect := by
  have hfind : (m.take 4).find? (fun x => decide (((x.1 - x.2).natAbs : Int) ≤ 16 * p.tol)) = none := by
    refine List.find?_eq_none.mpr fun x hx => ?_
    have := h x hx
    simp only [decide_eq_true_eq]
    omega
  rw [judge, hfind]

theorem judge_first {p : Param} {m : Meas} {a b : Int} (h : ((a - b).natAbs : Int) ≤ 16 * p.tol) :
    judge p ((a, b) :: m) =
      if p.lo ≤ roundAway (a + b) 32 ∧ roundAway (a + b) 32 ≤ p.hi then .accept (roundAway (a + b) 32)
      else .outOfRange := by
  have hfind : (((a, b) :: m).take 4).find? (fun x => decide (((x.1 - x.2).natAbs : Int) ≤ 16 * p.tol)) =
      some (a, b) := by
    rw [List.take_succ_cons, List.find?_cons_of_pos (by simpa using h)]
  rw [judge, hfind]

theorem takeCoefs_spec (old : List Int) (k : Nat) (js : List Judged) : (takeCoefs old k js).length = js.length ∧
    ∀ i v, js[i]? = some (.accept v) → (takeCoefs old k js).getD i 0 = v := by
  refine ⟨by simp [takeCoefs], fun i v h => ?_⟩
  simp [takeCoefs, List.getD_eq_getElem?_getD, List.getElem?_zipIdx, h]

end Sys2Proof.Machine
end

section
/-! The end of a group run (R120, R123, R124, R128). -/

namespace Sys2Proof.Machine

namespace State
variable {s t : State} {n i g : Nat}

/-! ## A group that is cut short (R128) -/

theorem groupsAllowed_congr (h : OnlyCal s t) (hf : (t.calOf n).foreground = (s.calOf n).foreground) :
    t.groupsAllowed n = s.groupsAllowed n := by
  obtain ⟨_, rfl⟩ := h
  unfold groupsAllowed
  rw [hf]
  rfl

theorem abandonSteps_noGroup (h : (s.calOf n).group = none) : ((s.abandonSteps n).calOf n).group = none := by
  have hcal : ((s.abandonCal n).calOf n).group = none := by
    cases hin : s.sliceIn n .cal with
    | none => rwa [abandonCal_none hin]
    | some i =>
      obtain ⟨-, -, hgroup⟩ := abandonCal_some hin
      rw [hgroup, h]
      exact ite_self _
  have hshadow {u : State} (hu : (u.calOf n).group = none) : ((u.abandonShadow n).calOf n).group = none := by
    unfold abandonShadow
    split
    · rw [calOf_setCal_same, setSlice_calOf]
      exact hu
    · exact hu
  unfold abandonSteps
  extract_lets s1
  have h1 : (s1.calOf n).group = none := by
    unfold s1
    split
    · exact h
    · exact hcal
  split
  · exact h1
  · exact hshadow h1

/-- No group P joins a CAL step where groups may not run (R121, R128). -/
theorem startCal_noGroup (hno : s.groupsAllowed n = false) (h : (s.calOf n).group = none) :
    ((s.startCal n).calOf n).group = none := by
  unfold startCal
  split
  · split
    · next i q _ =>
      have hv : ((s.setCal n { s.calOf n with queue := q }).setSlice n i { s.slice n i with st := .cal }).calOf n = _ :=
        setSlice_calOf ..
      rw [calOf_setCal_same] at hv
      have hstop : ((s.setCal n { s.calOf n with queue := q }).setSlice n i
          { s.slice n i with st := .cal }).groupsAllowed n = false := by
        rw [groupsAllowed_congr (.setSlice (.setCal (.refl s))) (by rw [hv]), hno]
      rw [joinP, if_neg (by simp [turnP, hstop]), hv]
      exact h
    · exact h
  · exact h

theorem slicesSettle_noGroup (hdue : (s.calOf n).swapDue = false) (hno : s.groupsAllowed n = false)
    (h : (s.calOf n).group = none) : ((s.slicesSettle n).calOf n).group = none := by
  have hswap : s.swapIfDue n = s := if_neg (by simp [hdue])
  obtain ⟨hstep, -⟩ := abandonSteps_stepped s n
  unfold slicesSettle
  rw [hswap]
  split
  · refine startCal_noGroup ?_ (abandonSteps_noGroup h)
    rw [groupsAllowed_congr hstep.only (lasting_foreground hstep.lasting), hno]
  · exact h

theorem cutGroup_some (h : (s.calOf n).group = some g) : s.cutGroup n =
    (s.setCal n { s.calOf n with group := none }).wr Reg.LN.CAL_STAT.PENDING
      (putBits (s.rd Reg.LN.CAL_STAT.PENDING n) g 1 0) n := by
  rw [cutGroup, h]

end State

section
variable {s : State} {n : LaneNo} {g : Nat}

theorem calGroupDone_cut (ms : List Meas) (hg : (s.calOf n).group = some g) (hno : s.groupsAllowed n = false)
    (hdue : (s.calOf n).swapDue = false) : Gives (.calGroupDone n ms) s fun t => (t.calOf n).group = none ∧
      t.rd Reg.LN.CAL_STAT.SUSPECT n = s.rd Reg.LN.CAL_STAT.SUSPECT n ∧ (t.calOf n).base = (s.calOf n).base := by
  let u := s.cutGroup n
  have hu : u = _ := State.cutGroup_some hg
  have hucal : u.calOf n = { s.calOf n with group := none } := by
    rw [hu]
    exact State.calOf_setCal_same ..
  have hurd (f : Fld) (i : Nat) (hf : f.key i 0 ≠ Reg.LN.CAL_STAT.PENDING.key n 0) : u.rd f i = s.rd f i := by
    rw [hu]
    exact State.rd_wr_ne _ _ _ _ _ _ _ _ hf
  have hudue : (u.calOf n).swapDue = false := by rw [hucal, hdue]
  have hustop : u.groupsAllowed n = false := by
    rw [← hno]
    unfold State.groupsAllowed State.lane State.ladderStep
    rw [hurd _ _ (by simp), hurd _ _ (by simp [courseOf]; omega), hurd _ _ (by simp; omega), hucal, hu]
    rfl
  have hsteps := State.slicesSettle_stepped hudue
  refine ⟨u.slicesSettle n, ?_, State.slicesSettle_noGroup hudue hustop (by rw [hucal]), ?_, ?_⟩
  · show execCalGroupDone n ms s = _
    rw [execCalGroupDone, hg]
    refine congrArg Host.Outcome.next ((if_pos (by simp [hno])).trans ?_)
    rw [State.calSettle, State.abandonGroup, if_neg (by simp [hno])]
  · rw [hsteps.only.rd, hurd _ _ (by simp)]
  · obtain ⟨-, -, hbase, -⟩ := CalX.lasting_eq hsteps.lasting
    rw [hbase, hucal]

end

/-! ## A group that ends (R123, R124) -/

theorem State.setSuspect_reads (s : State) (v : Nat) {n : Nat} (hn : n < 64) :
    (s.setSuspect n v).rd Reg.LN.CAL_STAT.SUSPECT n = v % 64 := by
  have hwr : (s.wr Reg.LN.CAL_STAT.SUSPECT v n).rd Reg.LN.CAL_STAT.SUSPECT n = v % 64 := State.rd_wr_same ..
  unfold State.setSuspect State.raiseRise
  split
  · refine (State.raise_rd _ _ _ _ _ _ ?_ ?_).trans hwr
    · simp [laneSrc]
      omega
    · simp
      omega
  · exact hwr

theorem listPut_getD {α : Type} (l : List α) {i : Nat} (v d : α) (hi : i < l.length) :
    (listPut l i v).getD i d = v := by
  simp [listPut, List.getD_eq_getElem?_getD, hi]

theorem suspectBit : ∀ v < 64, ∀ g < 5, ∀ b : Bool, bitOf (putBits v g 1 (bitVal b) % 64) g = b := by
  decide

section
variable {s : State} {n : LaneNo} {g : Nat}

/-- What the end of a group run leaves in the books and in SUSPECT. -/
theorem groupEnd_books (ms : List Meas) (h1 : 1 ≤ g) (h4 : g ≤ 4) (hsus : s.rd Reg.LN.CAL_STAT.SUSPECT n < 64)
    (hbase : (s.calOf n).base.length = 4) (hrest : (s.calOf n).notBefore.length = 4) :
    let js := judgeRun (groupPars g) ms
    let t := s.groupEnd n g ms
    (t.calOf n).groupCoef.getD (g - 1) [] = takeCoefs ((s.calOf n).groupCoef.getD (g - 1) []) 0 js ∧
      bitOf (t.rd Reg.LN.CAL_STAT.SUSPECT n) g = !(runRes js == .accepted) ∧
      (runRes js = .accepted → (t.calOf n).base.getD (g - 1) 0 = s.convTemp (courseOf n)) ∧
      (runRes js ≠ .accepted → (t.calOf n).base = (s.calOf n).base ∧
        (t.calOf n).notBefore.getD (g - 1) 0 = s.time + 1000000000) := by
  intro js t
  have hgroups : (s.calOf n).groups.getD (g - 1) [] = (s.calOf n).groupCoef.getD (g - 1) [] := by
    rw [CalX.groups, List.getD_eq_getElem?_getD, List.getElem?_map, List.getElem?_range (by omega)]
    rfl
  have hlen : (s.calOf n).groups.length = 5 := by simp [CalX.groups]
  have hcoef : (listPut (s.calOf n).groups (g - 1)
      (takeCoefs ((s.calOf n).groups.getD (g - 1) []) 0 js)).getD (g - 1) [] =
        takeCoefs ((s.calOf n).groupCoef.getD (g - 1) []) 0 js := by
    rw [listPut_getD _ _ _ (by omega), hgroups]
  let u := s.wr Reg.LN.CAL_STAT.PENDING (putBits (s.rd Reg.LN.CAL_STAT.PENDING n) g 1 0) n
  let y : CalX := { s.calOf n with
    group := none
    groupCoef := listPut (s.calOf n).groups (g - 1) (takeCoefs ((s.calOf n).groups.getD (g - 1) []) 0 js) }
  have shown (z : CalX) (b : Bool) (ht : t = (u.setCal n z).setSuspect n
      (putBits ((u.setCal n z).rd Reg.LN.CAL_STAT.SUSPECT n) g 1 (bitVal b))) :
      t.calOf n = z ∧ bitOf (t.rd Reg.LN.CAL_STAT.SUSPECT n) g = b := by
    have hold : (u.setCal n z).rd Reg.LN.CAL_STAT.SUSPECT n = s.rd Reg.LN.CAL_STAT.SUSPECT n :=
      State.rd_wr_ne _ _ _ _ _ _ _ _ (by simp)
    rw [ht, State.calOf_congr (State.setSuspect_cal ..), State.calOf_setCal_same, State.setSuspect_reads _ _ n.isLt,
      hold]
    exact ⟨rfl, suspectBit _ hsus _ (by omega) b⟩
  by_cases hok : runRes js = .accepted
  · obtain ⟨hcal, hbit⟩ := shown { y with base := listPut (s.calOf n).base (g - 1) (s.convTemp (courseOf n)) } false (by
      simp only [t, State.groupEnd, js, hok]
      rfl)
    rw [hcal, hbit, hok]
    exact ⟨hcoef, rfl, fun _ => listPut_getD _ _ _ (by omega), fun h => absurd rfl h⟩
  · have hbad : (runRes js == .accepted) = false := by simpa using hok
    obtain ⟨hcal, hbit⟩ := shown
      { y with notBefore := listPut (s.calOf n).notBefore (g - 1) (s.time + 1000000000) } true (by
        simp only [t, State.groupEnd, js, hbad]
        rfl)
    rw [hcal, hbit]
    exact ⟨hcoef, by simpa using hok, fun h => absurd h hok, fun _ => ⟨rfl, listPut_getD _ _ _ (by omega)⟩⟩

theorem calGroupDone_ends (ms : List Meas) (hg : (s.calOf n).group = some g) (h1 : 1 ≤ g) (h4 : g ≤ 4)
    (hgo : s.groupsAllowed n = true) (hsus : s.rd Reg.LN.CAL_STAT.SUSPECT n < 64) (hbase : (s.calOf n).base.length = 4)
    (hrest : (s.calOf n).notBefore.length = 4) :
    let js := judgeRun (groupPars g) ms
    let ok := runRes js = .accepted
    (g = 2 → exec (.calGroupDone n ms) s = .next s) ∧
    (g ≠ 2 → Gives (.calGroupDone n ms) s fun t =>
      (t.calOf n).groupCoef.getD (g - 1) [] = takeCoefs ((s.calOf n).groupCoef.getD (g - 1) []) 0 js ∧
      (ok → (t.calOf n).base.getD (g - 1) 0 = s.convTemp (courseOf n) ∧
        bitOf (t.rd Reg.LN.CAL_STAT.SUSPECT n) g = false) ∧
      (¬ ok → (t.calOf n).base = (s.calOf n).base ∧ bitOf (t.rd Reg.LN.CAL_STAT.SUSPECT n) g = true ∧
        (t.calOf n).notBefore.getD (g - 1) 0 = s.time + 1000000000)) := by
  intro js ok
  have hexec : exec (.calGroupDone n ms) s =
      .next (if g = 2 then s else (s.groupEnd n g ms).startGroups (courseOf n)) := by
    show execCalGroupDone n ms s = _
    rw [execCalGroupDone, hg]
    exact congrArg Host.Outcome.next (if_neg (by simp [hgo]))
  obtain ⟨hcoef, hbit, hacc, hsuspect⟩ := groupEnd_books (s := s) (n := n) ms h1 h4 hsus hbase hrest
  obtain ⟨honly, hlast, -⟩ := State.startGroups_books (s.groupEnd n g ms) (courseOf n) n
  obtain ⟨-, -, hbase', hrest', hcoef', -⟩ := CalX.lasting_eq hlast
  refine ⟨fun h2 => by rw [hexec, if_pos h2], fun h2 => ⟨_, by rw [hexec, if_neg h2], ?_, fun hok => ?_, fun hno => ?_⟩⟩
  · rw [hcoef', hcoef]
  · rw [hbase', honly.rd, hbit]
    exact ⟨hacc hok, by simpa using hok⟩
  · rw [hbase', hrest', honly.rd, hbit]
    obtain ⟨hb, hr⟩ := hsuspect hno
    exact ⟨hb, by simpa using hno, hr⟩

end

end Sys2Proof.Machine
end

section
/-! CALIBRATE and the end of a foreground run (R127, R351). -/

namespace Sys2Proof.Machine

namespace State
variable {s : State} {n : Nat}

theorem txCheck_eq (s : State) (n : Nat) : ∃ g, s.txCheck n = { s with regs := g } := by
  unfold txCheck
  split
  · exact ⟨_, rfl⟩
  · exact ⟨_, rfl⟩

/-- With a spare every group of the mask is queued (R125). -/
theorem queueGroups_spare (h : 0 < s.spares n) (mask : Nat) : s.queueGroups n mask =
    s.wr Reg.LN.CAL_STAT.PENDING (s.rd Reg.LN.CAL_STAT.PENDING n ||| mask) n := by
  have hno : (bitOf mask 2 && s.spares n == 0) = false := by
    rw [Bool.and_eq_false_iff]
    exact .inr (by simpa using h.ne')
  simp [queueGroups, hno]

end State

section
variable {s u : State} {r : RingNo} {e : Entry} {d : Dma} {f : Flight}

theorem calibrate_settles (ht : Taken s .calibrate r e d u f) :
    let n := f.e.target.toNat
    let scope := opByte f.e 16
    let frozen := u.flag Reg.GLB.BG_STAT.FREEZE = true
    (1 < scope ∨ (scope = 0 ∧ u.lane n ≠ 5) → Finishes (.calibrate r e d) s r f { st := .badField } fun t => t = u) ∧
    ((scope = 1 ∨ (scope = 0 ∧ u.lane n = 5)) → frozen →
      Finishes (.calibrate r e d) s r f { st := .calSuspect } fun t => t = u) ∧
    (scope = 0 → u.lane n = 5 → ¬ frozen → (u.calOf n).foreground ≠ none →
      Finishes (.calibrate r e d) s r f { st := .inUse } fun t => t = u) ∧
    ((scope = 0 ∧ u.lane n = 5 ∧ (u.calOf n).foreground = none ∨ scope = 1) → ¬ frozen → exec (.calibrate r e d) s =
      .next (runCalibrate (u.setPhase r f.fid .running) (.host r f.fid) f)) := by
  intro n scope frozen
  have refused {res : Res} (hc : chkCalibrate u f = some res) : Finishes (.calibrate r e d) s r f res fun t => t = u :=
    ⟨u, congrArg Host.Outcome.next (State.serve_refused ht _ hc), rfl⟩
  have hscope0 (h : scope = 0) : ¬ 1 < scope ∧ scope ≠ 1 := by omega
  refine ⟨fun hbad => refused ?_, fun hs hf => refused ?_, fun h0 h5 hf hfg => refused ?_, fun hs hf => ?_⟩
  · obtain h | ⟨h0, h5⟩ := hbad
    · exact if_pos h
    · exact (if_neg (hscope0 h0).1).trans ((if_neg (hscope0 h0).2).trans (if_pos h5))
  · obtain h1 | ⟨h0, h5⟩ := hs
    · exact (if_neg (by omega)).trans ((if_pos h1).trans (if_pos hf))
    · exact (if_neg (hscope0 h0).1).trans ((if_neg (hscope0 h0).2).trans ((if_neg (not_not.mpr h5)).trans (if_pos hf)))
  · exact (if_neg (hscope0 h0).1).trans ((if_neg (hscope0 h0).2).trans ((if_neg (not_not.mpr h5)).trans
      ((if_neg hf).trans (if_pos (Option.isSome_iff_ne_none.mpr hfg)))))
  · have hc : chkCalibrate u f = none := by
      obtain ⟨h0, h5, hfg⟩ | h1 := hs
      · exact (if_neg (hscope0 h0).1).trans ((if_neg (hscope0 h0).2).trans ((if_neg (not_not.mpr h5)).trans
          ((if_neg hf).trans (if_neg (by simp [n, hfg])))))
      · exact (if_neg (by omega)).trans ((if_pos h1).trans (if_neg hf))
    exact congrArg Host.Outcome.next (State.serve_taken ht hc)

/-- A foreground run starts: the lane holds its origin, and its output calibrates (R127). -/
theorem runCalibrate_foreground (v : State) (g : Origin) (f : Flight) (h0 : opByte f.e 16 = 0)
    (hdue : (v.calOf f.e.target.toNat).swapDue = false) :
    let n := f.e.target.toNat
    let t := runCalibrate v g f
    (t.calOf n).foreground = some g ∧ (t.txOf n).cal = true ∧ t.out = v.out := by
  intro n t
  let w := (v.setCal n { v.calOf n with foreground := some g, group := none }).setTx n
    { (v.setCal n { v.calOf n with foreground := some g, group := none }).txOf n with cal := true }
  have ht : t = (w.txCheck n).slicesSettle n := if_pos h0
  obtain ⟨regs, hw⟩ := w.txCheck_eq n
  have hcal : (w.txCheck n).calOf n = { v.calOf n with foreground := some g, group := none } := by
    rw [hw]
    exact State.calOf_setCal_same ..
  have hstep := State.slicesSettle_stepped (s := w.txCheck n) (n := n) (by rw [hcal]; exact hdue)
  obtain ⟨c, honly⟩ := hstep.only
  rw [ht]
  refine ⟨by rw [State.lasting_foreground hstep.lasting, hcal], ?_, ?_⟩
  · rw [honly, hw]
    exact congrArg TxX.cal (State.txOf_setTx_same ..)
  · rw [honly, hw]
    rfl

/-- Groups queued by command are all those of the mask, or every one (R125, R351). -/
theorem runCalibrate_groups (v : State) (g : Origin) (f : Flight) (h1 : opByte f.e 16 = 1)
    (hsp : 0 < v.spares f.e.target.toNat) : ∃ t : State, runCalibrate v g f =
      t.finish g { r0 := if opBits f.e 17 0 4 = 0 then 15 else opBits f.e 17 0 4 } ∧
      t.lane f.e.target.toNat = v.lane f.e.target.toNat := by
  generalize hn : f.e.target.toNat = n at hsp ⊢
  generalize hm : (if opBits f.e 17 0 4 = 0 then 15 else opBits f.e 17 0 4) = m
  have hno : (bitOf (m * 2) 2 && v.spares n == 0) = false := by
    rw [Bool.and_eq_false_iff]
    exact .inr (by simpa using hsp.ne')
  obtain ⟨honly, -, -⟩ := State.startGroups_books (v.queueGroups n (m * 2)) (courseOf n) n
  refine ⟨(v.queueGroups n (m * 2)).startGroups (courseOf n), ?_, ?_⟩
  · refine (if_neg (by omega)).trans ?_
    simp only [hn, hm, hno, Bool.false_eq_true, if_false, Nat.mul_div_cancel m (show 0 < 2 by decide)]
  · rw [State.lane, honly.rd, State.queueGroups_spare hsp]
    exact State.rd_wr_ne _ _ _ _ _ _ _ _ (by simp)

end

end Sys2Proof.Machine
end

section
/-! The end of a foreground run (R126, R127, R351), and RETIRE_MAP_CLEAR (R120, R350). -/

namespace Sys2Proof.Machine

namespace State
variable {s : State} {n i : Nat}

/-! ## What a full calibration leaves in the books -/

theorem noSpare_cal (s : State) (n : Nat) : (s.noSpare n).cal = s.cal := by
  have h : Logs s (s.noSpare n) := .ite (.raise (.wr (.refl s))) (.wr (.refl s))
  rw [h]

theorem raise_cal (s : State) (src detail : Nat) : (s.raise src detail).cal = s.cal := by
  have h : Logs s (s.raise src detail) := .raise (.refl s)
  rw [h]

theorem unqueue_lasting (s : State) (n i : Nat) : ((s.unqueue n i).calOf n).lasting = (s.calOf n).lasting := by
  rw [unqueue, calOf_setCal_same]
  rfl

theorem setSlice_lasting (s : State) (n i : Nat) (v : SliceX) :
    ((s.setSlice n i v).calOf n).lasting = (s.calOf n).lasting := by
  rw [setSlice_calOf]
  rfl

theorem writeRetireMap_lasting (s : State) (n : Nat) :
    ((s.writeRetireMap n).calOf n).lasting = (s.calOf n).lasting := by
  unfold writeRetireMap
  split
  · rw [calOf_setCal_same]
    rfl
  · rw [calOf_setCal_same]
    rfl

theorem retireSlice_lasting (s : State) (n i : Nat) (rotate : Bool) :
    ((s.retireSlice n i rotate).calOf n).lasting = (s.calOf n).lasting := by
  have hbase (v : SliceX) : (((s.unqueue n i).setSlice n i v).calOf n).lasting = (s.calOf n).lasting :=
    (setSlice_lasting ..).trans (unqueue_lasting ..)
  unfold retireSlice
  extract_lets x _ s1
  split
  · split
    · rw [calOf_congr (noSpare_cal ..)]
    · rw [calOf_congr (noSpare_cal ..)]
      split
      · rw [calOf_setCal_same]
        exact hbase _
      · exact hbase _
  · rw [calOf_congr (raise_cal ..), writeRetireMap_lasting]
    exact hbase _

theorem calSlice_lasting (s : State) (n i : Nat) (ms : List Meas) :
    ((s.calSlice n i ms).calOf n).lasting = (s.calOf n).lasting := by
  unfold calSlice
  extract_lets x js y
  split
  · rfl
  · split
    · exact setSlice_lasting ..
    · split
      · exact (retireSlice_lasting ..).trans (setSlice_lasting ..)
      · exact setSlice_lasting ..
    · exact (retireSlice_lasting ..).trans (setSlice_lasting ..)

theorem foldl_lasting {α : Type} {f : State → α → State} {n : Nat} (l : List α)
    (hf : ∀ t x, ((f t x).calOf n).lasting = (t.calOf n).lasting) (s : State) :
    ((l.foldl f s).calOf n).lasting = (s.calOf n).lasting :=
  List.foldlRecOn l f (motive := fun t => (t.calOf n).lasting = (s.calOf n).lasting) rfl
    fun t ht x _ => (hf t x).trans ht

/-- Positions assigned anew leave no swap due (R126). -/
theorem assignPositions_books (s : State) (n : Nat) :
    ((s.assignPositions n).calOf n).foreground = (s.calOf n).foreground ∧
      ((s.assignPositions n).calOf n).swapDue = false := by
  unfold assignPositions
  extract_lets live good order s1 _ s2
  have h1 : (s1.calOf n).lasting = (s.calOf n).lasting := foldl_lasting _ (fun t p => setSlice_lasting ..) s
  have h2 : (s2.calOf n).foreground = (s.calOf n).foreground ∧ (s2.calOf n).swapDue = false := by
    rw [show s2.calOf n = _ from calOf_setCal_same ..]
    exact ⟨lasting_foreground h1, rfl⟩
  split
  · rwa [calOf_congr (noSpare_cal ..)]
  · exact h2

/-- A full calibration leaves no swap and no foreground run due. -/
theorem fullCal_books (s : State) (hn : n < 64) (slices groups : List (List Meas)) :
    ((s.fullCal n slices groups).calOf n).foreground = (s.calOf n).foreground ∧
      ((s.fullCal n slices groups).calOf n).swapDue = false ∧
      (s.fullCal n slices groups).rd Reg.LN.SLICE_STAT.FG_DUE n = 0 := by
  unfold fullCal
  extract_lets s1 s2 x t s3 s4
  have h1 : (s1.calOf n).lasting = (s.calOf n).lasting :=
    foldl_lasting (f := fun t i => t.calSlice n i (slices.getD i [])) _ (fun t i => calSlice_lasting ..) s
  obtain ⟨hfg, hdue⟩ := assignPositions_books s1 n
  have hxfg : x.foreground = (s.calOf n).foreground := hfg.trans (lasting_foreground h1)
  have hxdue : x.swapDue = false := hdue
  clear_value x
  have hcal : s4.calOf n = s3.calOf n := calOf_congr ((wr_cal ..).trans (wr_cal ..)) n
  have h3 : s3.calOf n = _ := calOf_setCal_same ..
  rw [calOf_congr (setSuspect_cal ..), setSuspect_rd _ _ hn (by simp; omega) (by simp), rd_wr_same, hcal, h3]
  exact ⟨hxfg, hxdue, rfl⟩

end State

/-- Something of a foreground run was not accepted. -/
def foregroundBad (s : State) (n : Nat) (slices groups : List (List Meas)) : Prop :=
  (∃ g < 5, runRes (judgeRun (groupPars (g + 1)) (groups.getD g [])) ≠ .accepted) ∨
    ∃ i < 68, (s.slice n i).st ≠ .retired ∧ runRes (judgeRun (calPars ++ shadowPars) (slices.getD i [])) ≠ .accepted

theorem foregroundBad_iff (s : State) (n : Nat) (slices groups : List (List Meas)) :
    ((List.range 5).any (groupBad groups) || (List.range 68).any fun i =>
        (s.slice n i).st != .retired &&
          runRes (judgeRun (calPars ++ shadowPars) (slices.getD i [])) != .accepted) = true ↔
      foregroundBad s n slices groups := by
  simp [foregroundBad, groupBad, groupJudged, List.any_eq_true]

theorem foregroundCalDone_ends {s : State} {n : LaneNo} {o : Origin} (slices groups : List (List Meas))
    (ho : (s.calOf n).foreground = some o) :
    ∃ out : Res, (foregroundBad s n slices groups → out.st = .calSuspect) ∧
      (¬ foregroundBad s n slices groups → out.st = .ok) ∧
      EndsWith (.foregroundCalDone n slices groups) s o out fun t =>
        (t.calOf n).foreground = none ∧ (t.txOf n).cal = false ∧ t.flag Reg.LN.SLICE_STAT.FG_DUE n = false ∧
        out.r0 = t.rd Reg.LN.CAL_STAT.SUSPECT n := by
  let s0 := s.setCal n { s.calOf n with foreground := none }
  let s1 := s0.fullCal n slices groups
  let w := s1.setTx n { s1.txOf n with cal := false }
  let t := w.slicesSettle n
  let bad := (List.range 5).any (groupBad groups) || (List.range 68).any fun i =>
    (s.slice n i).st != .retired && runRes (judgeRun (calPars ++ shadowPars) (slices.getD i [])) != .accepted
  have hiff : bad = true ↔ foregroundBad s n slices groups := foregroundBad_iff ..
  obtain ⟨hfg, hdue, hfgdue⟩ : (s1.calOf n).foreground = none ∧ (s1.calOf n).swapDue = false ∧
      s1.rd Reg.LN.SLICE_STAT.FG_DUE n = 0 := by
    obtain ⟨hfg, hrest⟩ := State.fullCal_books s0 n.isLt slices groups
    rw [State.calOf_setCal_same] at hfg
    exact ⟨hfg, hrest⟩
  let out : Res := {
    st := if bad then .calSuspect else .ok
    r0 := t.rd Reg.LN.CAL_STAT.SUSPECT n
    r1 := t.retired n - s.retired n }
  have hexec : exec (.foregroundCalDone n slices groups) s = .next (t.finish o out) := by
    show execForegroundCalDone n slices groups s = _
    refine congrArg Host.Outcome.next ?_
    extract_lets x
    split
    · next h => cases ho.symm.trans h
    · next h =>
      obtain rfl := Option.some.inj (ho.symm.trans h)
      rfl
  clear_value s1
  have hw : w.calOf n = s1.calOf n := State.calOf_congr (State.setTx_cal ..) n
  have hwrd (f : Fld) (i : Nat) : w.rd f i = s1.rd f i := State.rd_congr _ _ (State.setTx_regs ..) ..
  have hstep : State.Stepped n w t := State.slicesSettle_stepped (by rw [hw]; exact hdue)
  refine ⟨out, fun h => if_pos (hiff.mpr h), fun h => if_neg (mt hiff.mp h), t, hexec, ?_, ?_, ?_, rfl⟩
  · rw [State.lasting_foreground hstep.lasting, hw]
    exact hfg
  · obtain ⟨c, honly⟩ := hstep.only
    rw [honly]
    exact congrArg TxX.cal (State.txOf_setTx_same ..)
  · rw [State.flag, hstep.only.rd, hwrd, hfgdue]
    rfl

/-! ## RETIRE_MAP_CLEAR (R120, R350) -/

theorem retireMapClear_settles {s u : State} {r : RingNo} {e : Entry} {d : Dma} {f : Flight}
    (ht : Taken s .retireMapClear r e d u f) :
    (u.nvmOpen = false → Finishes (.retireMapClear r e d) s r f { st := .nvmTemp } fun t => t = u) ∧
    (u.nvmOpen = true → Finishes (.retireMapClear r e d) s r f {} fun t =>
      Tab.get [] t.retire f.e.target.toNat = [] ∧ t.cal = u.cal ∧ t.regs = u.regs ∧
      ∀ k, k ≠ f.e.target.toNat → Tab.get [] t.retire k = Tab.get [] u.retire k) := by
  refine ⟨fun hshut => ?_, fun hopen => ?_⟩
  · have hc : chkNvm u f = some { st := .nvmTemp } := if_neg (by simp [hshut])
    exact ⟨u, congrArg Host.Outcome.next (State.serve_refused ht _ hc), rfl⟩
  · have hc : chkNvm u f = none := if_pos hopen
    refine ⟨_, congrArg Host.Outcome.next (State.serve_taken ht hc), ?_, rfl, rfl, fun k hk => ?_⟩
    · exact Tab.get_set_same [] u.retire _ []
    · exact Tab.get_set_ne [] [] u.retire _ _ [] hk

end Sys2Proof.Machine
end

section
/-! The band-gap check, the freeze and its release (R130, R131). What the freeze does to the lanes shows in no register
below the event latches, and no latch clears. -/

namespace Sys2Proof.Machine

/-- From `s₀` to `s` every register below the event latches reads the same. `ok` says that the last write was of a field
from the latches on; where the field is a constant, unification finds it to be `true`. -/
def State.Upper (s₀ s : State) (ok : Bool := true) : Prop :=
  ok = true → ∀ k d, k < 8 * 0x7E00 → Tab.get d s.regs k = Tab.get d s₀.regs k

/-- A field that stands from the event latches on, as its constant shows. -/
def Fld.upper (f : Fld) : Bool := Nat.ble 0x7E00 f.addr

theorem Fld.upper_key {f : Fld} (hf : f.upper = true) (i j : Nat) : 8 * 0x7E00 ≤ f.key i j := by
  rw [upper, Nat.ble_eq] at hf
  rw [Fld.key]
  omega

namespace State.Upper
variable {s₀ s t : State}

theorem refl (s : State) : Upper s s := fun _ _ _ _ => rfl

theorem rd (h : Upper s₀ s) {f : Fld} (hf : f.key 0 0 < 8 * 0x7E00) : s.rd f = s₀.rd f := h rfl _ _ hf

/-- An update of other parts of the state: one record update, whatever its fields. -/
theorem keep
    {time freeCtr out phase rings fns arb vecs vfEnable raises held doorHeld pwr cores engMap failed subst therm
     sec upd twin tests hod rx tx cal bst shots epoch host htx chk seeds retire bgFused bgHigh bgLow mortar bias
     scv dec cmis eng tapIr pending}
    (h : Upper s₀ s) :
    Upper s₀ ⟨time, pending, freeCtr, out, phase, s.regs, rings, fns, arb, vecs, vfEnable, raises, held, doorHeld,
      pwr, cores, engMap, failed, subst, therm, sec, upd, twin, tests, hod, rx, tx, cal, bst, shots, epoch,
      host, htx, chk, seeds, retire, bgFused, bgHigh, bgLow, mortar, bias, scv, dec, cmis, eng, tapIr⟩ := h

theorem ite {c : Prop} [Decidable c] (ht : Upper s₀ s) (he : Upper s₀ t) : Upper s₀ (if c then s else t) := by
  split
  · exact ht
  · exact he

theorem foldl {α : Type} {f : State → α → State} {xs : List α} (hf : ∀ {t x}, Upper s₀ t → Upper s₀ (f t x))
    (h : Upper s₀ s) : Upper s₀ (xs.foldl f s) := by
  induction xs generalizing s with
  | nil => exact h
  | cons x xs ih => exact ih (hf h)

theorem wr {f v i j} (h : Upper s₀ s) : Upper s₀ (s.wr f v i j) f.upper := fun hf k d hk =>
  (get_wr_ne _ _ _ _ _ _ _ (by have := Fld.upper_key hf i j; omega)).trans (h rfl k d hk)

theorem countWrap {f m i j} (h : Upper s₀ s) : Upper s₀ (s.countWrap f m i j) f.upper := .wr h

theorem raise {src detail} (h : Upper s₀ s) : Upper s₀ (s.raise src detail) :=
  .ite (.keep (.wr (.wr h))) (.keep (.wr (.wr h)))

theorem raiseRise {before after src detail} (h : Upper s₀ s) : Upper s₀ (s.raiseRise before after src detail) :=
  .ite (.raise h) h

theorem signal {r v} (h : Upper s₀ s) : Upper s₀ (s.signal r v) :=
  have owed {t : State} (ht : Upper s₀ t) : Upper s₀ (t.sendOwed r) :=
    .foldl (fun hu => .ite (.keep hu) (.keep hu)) (.keep ht)
  .ite h (.ite (.wr h) (.ite (owed (.keep h)) (.keep h)))

theorem flush {r fs} (h : Upper s₀ s) : Upper s₀ (s.flush r fs) := by
  induction fs generalizing s with
  | nil => exact .keep h
  | cons f fs ih =>
    unfold State.flush
    split
    · exact ih (.signal (.ite (.wr (.wr (.keep h))) (.wr (.keep h))))
    · exact .keep h

theorem hodRewritten {w k} (h : Upper s₀ s) : Upper s₀ (s.hodRewritten w k) := by
  induction k generalizing s w with
  | zero => exact h
  | succ k ih => exact ih (.keep h)

theorem finish {o res} (h : Upper s₀ s) : Upper s₀ (s.finish o res) := by
  have logged {x : MirrorLog} : Upper s₀ (s.logMirror x) := .hodRewritten (.keep h)
  unfold State.finish
  split
  · extract_lets fs
    split
    · exact h
    · extract_lets _ s1
      have h1 : Upper s₀ s1 := by
        unfold s1
        split
        · exact logged
        · exact h
      exact .flush h1
  · exact .keep (.ite (.wr (.keep (.ite logged h))) (.keep (.ite logged h)))
  · exact h
  · exact h

/-! ## Slices and groups -/

theorem onlyCal (h : Upper s₀ s) (ht : OnlyCal s t) : Upper s₀ t := by
  obtain ⟨c, rfl⟩ := ht
  exact .keep h

theorem slicesSettle {n} (h : Upper s₀ s) : Upper s₀ (s.slicesSettle n) := by
  obtain hc | ⟨-, u, v, hu, hc⟩ := slicesSettle_eq s n
  · exact h.onlyCal hc
  · exact onlyCal (.raiseRise (.wr (.countWrap (h.onlyCal hu)))) hc

theorem calSettle {n} (h : Upper s₀ s) : Upper s₀ (s.calSettle n) := by
  refine .slicesSettle (.ite h ?_)
  unfold State.cutGroup
  split
  · exact h
  · exact .wr (.keep h)

theorem abandonForeground {n st} (h : Upper s₀ s) : Upper s₀ (s.abandonForeground n st) := by
  have checked {t : State} (ht : Upper s₀ t) : Upper s₀ (t.txCheck n) := .ite ht (.wr ht)
  unfold State.abandonForeground
  extract_lets
  split
  · exact h
  · exact checked (.finish (.keep (.keep h)))

theorem calTrigger {n} (h : Upper s₀ s) : Upper s₀ (s.calTrigger n) := by
  have queued {t : State} {m} (ht : Upper s₀ t) : Upper s₀ (t.queueGroups n m) := .wr (.ite (.wr ht) ht)
  have joined {t : State} (ht : Upper s₀ t) : Upper s₀ (t.joinP n) := .ite (.keep ht) ht
  unfold State.calTrigger
  extract_lets _ _ _ _ s1 _ s2
  have h1 : Upper s₀ s1 := .ite (queued h) h
  have h2 : Upper s₀ s2 := .ite (.wr h1) h1
  split
  · exact .ite (.keep (joined h2)) h2
  · exact h2

theorem calTriggers {c} (h : Upper s₀ s) : Upper s₀ (s.calTriggers c) :=
  onlyCal (.foldl (fun ht => .ite (.calTrigger ht) ht) h) (startGroups_books _ c 0).1

end State.Upper

namespace State.Carries
variable {n : Nat} {s₀ s : State}

theorem calSettle {l} (h : Carries n s₀ s) : Carries n s₀ (s.calSettle l) := .slicesSettle (.abandonGroup h)

theorem abandonForeground {l st} (h : Carries n s₀ s) : Carries n s₀ (s.abandonForeground l st) := by
  have checked {t : State} (ht : Carries n s₀ t) : Carries n s₀ (t.txCheck l) := .ite ht (.wr ht)
  unfold State.abandonForeground
  extract_lets
  split
  · exact h
  · exact checked (.finish (.keep (.keep h)))

end State.Carries

end Sys2Proof.Machine
end

section
/-! The band-gap check and its release (R130, R131), and the obligation on rotation, groups and the freeze. -/

namespace Sys2Proof.Machine

namespace State
variable {s : State}

/-! ## The freeze (R130, R131) -/

/-- Of the registers below the event latches the freeze changes FREEZE alone. -/
theorem bandgapFreeze_rd (s : State) {f : Fld} (hf : f.key 0 0 < 8 * 0x7E00) :
    s.bandgapFreeze.rd f = (s.wr Reg.GLB.BG_STAT.FREEZE 1).rd f := by
  unfold bandgapFreeze
  extract_lets s1
  have h1 : Upper (s.wr Reg.GLB.BG_STAT.FREEZE 1) s1 := .raise (.refl _)
  exact (Upper.foldl (fun ht => .calSettle (.abandonForeground ht)) h1).rd hf

theorem bandgapFreeze_latch (s : State) : s.bandgapFreeze.flag Reg.EVT.LATCH.RAISED 1 = true := by
  unfold bandgapFreeze
  extract_lets s1
  have h1 : s1.flag Reg.EVT.LATCH.RAISED 1 = true := raise_latch _ _ _ (by decide)
  exact (Carries.foldl (n := 0) (fun ht => .calSettle (.abandonForeground ht)) (.refl s1)).latch (by decide) h1

/-! ## The check (R130) -/

/-- How many checks in a row had a difference above the limit, this one among them. -/
def bgRising (s : State) (r0 r1 : Nat) : Nat := if s.bgAbove r0 4 || s.bgAbove r1 4 then s.bgHigh + 1 else 0

/-- How many checks in a row were good, this one among them. -/
def bgGood (s : State) (r0 r1 : Nat) : Nat := if s.bgAbove r0 3 || s.bgAbove r1 3 then 0 else s.bgLow + 1

/-- The two converters' ratios differ by more than 0.1 %. -/
def bgApart (s : State) (r0 r1 : Nat) : Bool :=
  decide (s.bgFused < 1000 * ((s.bgDist r0 - s.bgDist r1) + (s.bgDist r1 - s.bgDist r0)))

/-- The state after a check whose ratios are `r0` and `r1`, before any freeze. -/
def bgMeasured (s : State) (r0 r1 : Nat) : State :=
  ({ ((s.wr Reg.GLB.BG_STAT.D_SC0 (s.bgShown r0)).wr Reg.GLB.BG_STAT.D_SC1 (s.bgShown r1)).wrB
      Reg.GLB.BG_STAT.SC_DISAGREE (s.bgApart r0 r1)
    with bgHigh := s.bgRising r0 r1, bgLow := s.bgGood r0 r1 } : State).wrB Reg.GLB.BG_STAT.RELEASE_OK
      (decide (16 ≤ s.bgGood r0 r1))

theorem exec_bandgapCheck (hc : s.coreOn = true) (h7 : s.coreRuns 7 = true) (r0 r1 : Nat) :
    exec (.bandgapCheck r0 r1) s = .next
      (if max 1 (s.rd Reg.GLB.BG_CTRL.CHK_N) ≤ s.bgRising r0 r1 ∧ !s.flag Reg.GLB.BG_STAT.FREEZE then
        (s.bgMeasured r0 r1).bandgapFreeze else s.bgMeasured r0 r1) :=
  congrArg Host.Outcome.next (if_neg (by simp [hc, h7]))

theorem bgShown_lt (s : State) (r : Nat) : s.bgShown r < 4096 := by
  unfold bgShown
  omega

/-- The fields a check shows. -/
theorem bgMeasured_reads (s : State) (r0 r1 : Nat) : (s.bgMeasured r0 r1).rd Reg.GLB.BG_STAT.D_SC0 = s.bgShown r0 ∧
    (s.bgMeasured r0 r1).rd Reg.GLB.BG_STAT.D_SC1 = s.bgShown r1 ∧
    ((s.bgMeasured r0 r1).flag Reg.GLB.BG_STAT.SC_DISAGREE = true ↔
      s.bgFused < 1000 * ((s.bgDist r0 - s.bgDist r1) + (s.bgDist r1 - s.bgDist r0))) ∧
    ((s.bgMeasured r0 r1).flag Reg.GLB.BG_STAT.RELEASE_OK = true ↔ 16 ≤ s.bgGood r0 r1) ∧
    (s.bgMeasured r0 r1).flag Reg.GLB.BG_STAT.FREEZE = s.flag Reg.GLB.BG_STAT.FREEZE := by
  have hrd (f : Fld) (h0 : f.key 0 0 ≠ Reg.GLB.BG_STAT.RELEASE_OK.key 0 0) : (s.bgMeasured r0 r1).rd f =
      (((s.wr Reg.GLB.BG_STAT.D_SC0 (s.bgShown r0)).wr Reg.GLB.BG_STAT.D_SC1 (s.bgShown r1)).wrB
        Reg.GLB.BG_STAT.SC_DISAGREE (s.bgApart r0 r1)).rd f :=
    rd_wr_ne _ _ _ _ _ _ _ _ h0
  refine ⟨?_, ?_, ?_, ?_, ?_⟩
  · rw [hrd _ (by simp), wrB, rd_wr_ne _ _ _ _ _ _ _ _ (by simp), rd_wr_ne _ _ _ _ _ _ _ _ (by simp), rd_wr_same]
    exact Nat.mod_eq_of_lt (s.bgShown_lt r0)
  · rw [hrd _ (by simp), wrB, rd_wr_ne _ _ _ _ _ _ _ _ (by simp), rd_wr_same]
    exact Nat.mod_eq_of_lt (s.bgShown_lt r1)
  · rw [flag_congr (hrd _ (by simp)), flag_wrB_same _ rfl, bgApart, decide_eq_true_eq]
  · rw [bgMeasured, flag_wrB_same _ rfl, decide_eq_true_eq]
  · refine flag_congr ?_
    rw [hrd _ (by simp), wrB, rd_wr_ne _ _ _ _ _ _ _ _ (by simp), rd_wr_ne _ _ _ _ _ _ _ _ (by simp),
      rd_wr_ne _ _ _ _ _ _ _ _ (by simp)]

/-- After a check that freezes, or does not, every field a check shows reads as measured. -/
theorem bandgapFreeze_shows (t : State) {f : Fld} (hf : f.key 0 0 < 8 * 0x7E00)
    (hne : f.key 0 0 ≠ Reg.GLB.BG_STAT.FREEZE.key 0 0) (c : Prop) [Decidable c] :
    (if c then t.bandgapFreeze else t).rd f = t.rd f := by
  split
  · rw [bandgapFreeze_rd _ hf, rd_wr_ne _ _ _ _ _ _ _ _ hne]
  · rfl

theorem bandgapFreeze_freezes (t : State) : t.bandgapFreeze.flag Reg.GLB.BG_STAT.FREEZE = true := by
  rw [flag, bandgapFreeze_rd _ (by simp), rd_wr_same]
  rfl

end State

theorem bandgapCheck_shows {s : State} (hc : s.coreOn = true) (h7 : s.coreRuns 7 = true) (r0 r1 : Nat) :
    let f := s.bgFused
    let d := fun (r : Nat) => (r - f) + (f - r)
    let high := 4 * f < 1000 * d r0 ∨ 4 * f < 1000 * d r1
    let low := 1000 * d r0 ≤ 3 * f ∧ 1000 * d r1 ≤ 3 * f
    Gives (.bandgapCheck r0 r1) s fun t =>
      t.rd Reg.GLB.BG_STAT.D_SC0 = min 4095 (100000 * d r0 / f) ∧
      t.rd Reg.GLB.BG_STAT.D_SC1 = min 4095 (100000 * d r1 / f) ∧
      (t.flag Reg.GLB.BG_STAT.SC_DISAGREE = true ↔ f < 1000 * ((d r0 - d r1) + (d r1 - d r0))) ∧
      (t.flag Reg.GLB.BG_STAT.RELEASE_OK = true ↔ low ∧ 15 ≤ s.bgLow) ∧
      (s.flag Reg.GLB.BG_STAT.FREEZE = true → t.flag Reg.GLB.BG_STAT.FREEZE = true) ∧
      (high → max 1 (s.rd Reg.GLB.BG_CTRL.CHK_N) ≤ s.bgHigh + 1 → t.flag Reg.GLB.BG_STAT.FREEZE = true ∧
        (s.flag Reg.GLB.BG_STAT.FREEZE = false → t.flag Reg.EVT.LATCH.RAISED 1 = true)) ∧
      (¬ high → s.flag Reg.GLB.BG_STAT.FREEZE = false → t.flag Reg.GLB.BG_STAT.FREEZE = false ∧ t.bgHigh = 0) := by
  intro f d high low
  obtain ⟨hd0, hd1, hapart, hgood, hfreeze⟩ := s.bgMeasured_reads r0 r1
  have hhigh : (s.bgAbove r0 4 || s.bgAbove r1 4) = true ↔ high := by
    simp only [State.bgAbove, Bool.or_eq_true, decide_eq_true_eq]
    rfl
  have hlow : (s.bgAbove r0 3 || s.bgAbove r1 3) = true ↔ ¬ low := by
    simp only [State.bgAbove, Bool.or_eq_true, decide_eq_true_eq]
    show _ ↔ ¬ (1000 * s.bgDist r0 ≤ 3 * s.bgFused ∧ 1000 * s.bgDist r1 ≤ 3 * s.bgFused)
    omega
  have hrising : high → s.bgRising r0 r1 = s.bgHigh + 1 := fun h => if_pos (hhigh.mpr h)
  have hcalm : ¬ high → s.bgRising r0 r1 = 0 := fun h => if_neg (mt hhigh.mp h)
  have hrelease : 16 ≤ s.bgGood r0 r1 ↔ low ∧ 15 ≤ s.bgLow := by
    unfold State.bgGood
    by_cases hl : low
    · rw [if_neg (mt hlow.mp (not_not.mpr hl))]
      exact ⟨fun h => ⟨hl, by omega⟩, fun h => by omega⟩
    · rw [if_pos (hlow.mpr hl)]
      exact ⟨fun h => by omega, fun ⟨h, _⟩ => absurd h hl⟩
  refine ⟨_, State.exec_bandgapCheck hc h7 r0 r1, ?_, ?_, ?_, ?_, fun hon => ?_, fun hh hn => ?_, fun hh hoff => ?_⟩
  · rw [State.bandgapFreeze_shows _ (by simp) (by simp), hd0]
    rfl
  · rw [State.bandgapFreeze_shows _ (by simp) (by simp), hd1]
    rfl
  · rw [State.flag_congr (State.bandgapFreeze_shows _ (by simp) (by simp) _), hapart]
    rfl
  · rw [State.flag_congr (State.bandgapFreeze_shows _ (by simp) (by simp) _), hgood, hrelease]
  · rw [if_neg (by simp [hon]), hfreeze, hon]
  · cases hoff : s.flag Reg.GLB.BG_STAT.FREEZE with
    | true =>
      rw [if_neg (by simp), hfreeze, hoff]
      exact ⟨rfl, fun h => by cases h⟩
    | false =>
      rw [if_pos ⟨by rw [hrising hh]; exact hn, rfl⟩]
      exact ⟨State.bandgapFreeze_freezes _, fun _ => State.bandgapFreeze_latch _⟩
  · rw [if_neg (by rw [hcalm hh]; omega), hfreeze]
    exact ⟨hoff, hcalm hh⟩

/-! ## BANDGAP_RELEASE (R131) -/

theorem bandgapRelease_settles {s : State} (hc : s.coreOn = true) :
    (s.flag Reg.GLB.BG_STAT.RELEASE_OK = false → exec .bandgapRelease s = .next (s.setShadow 0 none)) ∧
    (s.flag Reg.GLB.BG_STAT.RELEASE_OK = true → s.flag Reg.GLB.BG_STAT.FREEZE = true → Gives .bandgapRelease s fun t =>
      t.flag Reg.GLB.BG_STAT.FREEZE = false) := by
  have hexec : exec .bandgapRelease s = .next (s.setShadow 0 none).bandgapRelease :=
    congrArg Host.Outcome.next
      ((if_neg (by simp [hc])).trans (if_neg (by simp [State.fieldOn, Reg.GLB.BG_CTRL.RELEASE])))
  refine ⟨fun hno => ?_, fun hok hon => ⟨_, hexec.trans (congrArg Host.Outcome.next (if_pos ⟨hok, hon⟩)), ?_⟩⟩
  · have hno' : (s.setShadow 0 none).flag Reg.GLB.BG_STAT.RELEASE_OK = false := hno
    rw [hexec, State.bandgapRelease, if_neg (by simp [hno'])]
  · have h : State.Upper ((s.setShadow 0 none).wr Reg.GLB.BG_STAT.FREEZE 0) ((List.range 64).foldl
        (fun t n => t.calSettle n) ((List.range 8).foldl (fun t c => t.calTriggers c)
          ((s.setShadow 0 none).wr Reg.GLB.BG_STAT.FREEZE 0))) :=
      .foldl (fun ht => .calSettle ht) (.foldl (fun ht => .calTriggers ht) (.refl _))
    dsimp only
    rw [State.flag, h.rd (by simp), State.rd_wr_same]
    rfl

/-- Settles O48: every clause is one of the lemmas above on its event or command. -/
theorem rotationGroupsAndTheFreeze : Obligations.RotationGroupsAndTheFreeze := by
  unfold Obligations.RotationGroupsAndTheFreeze
  refine ⟨⟨fun n s i hdone hdue => ⟨?_, ?_, ?_, ?_⟩, ?_, ?_, ?_⟩, ?_, ?_, ?_, ?_, ?_, ?_⟩
  · intro m hi hgo hg hms hp
    obtain ⟨t, he, hslice, hrest⟩ := calStepDone_accepted m hdone hdue hi hgo hg hms hp
    exact ⟨t, he, by rw [hslice]; rfl, by rw [hslice]; rfl, by rw [hslice]; rfl, by rw [hslice]; rfl, hrest⟩
  · exact fun m hi hno hsh hg => calStepDone_stopped m hdue hi hno hsh hg
  · intro hi hsh hcap
    refine ⟨fun p ps hfail hgo => shadowStart_failed hi hsh hcap hfail hgo, fun at_ hfail hgo hat => ?_,
      shadowStart_waits hi⟩
    obtain ⟨t, he, hst, htime, hpos⟩ := shadowStart_oldest hi hsh hcap hfail hgo hat
    refine ⟨t, he, hst, htime, fun j p hj hp k hk hpast => ?_⟩
    exact State.oldestPos_least (by rw [← hpos]; exact hj) hp hk hpast
  · intro hi hgo hcap hnone
    refine ⟨fun ms win hms => ⟨fun hagree hburst o _ ho hq => ?_, fun hagree hburst => ?_, fun hagree htries => ?_⟩,
      fun ms win hms hrun hq => ?_⟩
    · exact shadowCompare_swaps hi hdue hgo hcap hnone hms hagree hburst ho hq
    · exact shadowCompare_waits hi hdue hgo hnone hms hagree hburst
    · exact shadowCompare_retries hi hdue hgo hnone hms rfl hagree htries
    · exact shadowCompare_suspect hi hdue hgo hnone hms hrun hq
  · exact fun _ _ h => judge_suspect h
  · exact fun _ _ _ _ h => judge_first h
  · exact takeCoefs_spec
  · intro n ms s g hg h1 h4
    exact ⟨fun hno hdue => calGroupDone_cut ms hg hno hdue, fun hgo hsus hbase hrest =>
      calGroupDone_ends ms hg h1 h4 hgo hsus hbase hrest⟩
  · intro s u r e d f ht n scope frozen
    obtain ⟨hbad, hfrozen, huse, hrun⟩ := calibrate_settles ht
    refine ⟨hbad, hfrozen, huse, fun h0 h5 hf hfg hdue => ?_, fun h1 hf hsp => ?_⟩
    · exact ⟨_, hrun (.inl ⟨h0, h5, hfg⟩) hf, runCalibrate_foreground (u.setPhase r f.fid .running) _ f h0 hdue⟩
    · obtain ⟨t, he, hlane⟩ := runCalibrate_groups (u.setPhase r f.fid .running) (.host r f.fid) f h1 hsp
      exact ⟨t, (hrun (.inr h1) hf).trans (congrArg Host.Outcome.next he), hlane⟩
  · exact fun _ slices groups _ _ ho => foregroundCalDone_ends slices groups ho
  · exact fun r0 r1 _ hc h7 => bandgapCheck_shows hc h7 r0 r1
  · exact fun _ hc => bandgapRelease_settles hc
  · exact fun _ _ _ _ _ _ ht => retireMapClear_settles ht

end Sys2Proof.Machine
end
